-- ==== Sys2Proof/Word.lean ====
section
/-!
DEFINITION. The word types and their plainest arithmetic: bytes, the sparse memory's type, and the little-endian reading
of bytes (R12).
-/

namespace Sys2Proof

/-- A byte. -/
abbrev Byte := BitVec 8

/-- Sparse memory: address and byte pairs (`Host.Cell`), addresses strictly rising. -/
abbrev Mem := List Host.Cell

/-- The number whose bytes, least significant first, are the list (R12). -/
def leNat : List Byte → Nat
  | [] => 0
  | b :: bs => b.toNat + 256 * leNat bs

/-- The `n` low bytes of a number, least significant first (R12). -/
def leBytes : Nat → Nat → List Byte
  | 0, _ => []
  | n + 1, v => BitVec.ofNat 8 v :: leBytes n (v / 256)

end Sys2Proof
end

