-- ==== Sys2Proof/Syntax.lean ====
section
/-!
DEFINITION. The commands of the block: one constructor of `Instr` for each row of the spec's opcode table, with what the
command carries. The first operand of every command, `dt`, is how many ns of the part's own timer have passed since the
command before it (DESIGN CHOICE, log entry 1). A command that carries the outcome of something a published standard or
an analogue circuit decides names that outcome as an operand (DESIGN CHOICE, log entry 2).
-/

namespace Sys2Proof

/-- What a PCIe DMA read brought back (R331). -/
inductive Dma where
  /-- The bytes read, all good. -/
  | good (bytes : List Byte)
  /-- The bytes read, some block of them poisoned. -/
  | poisoned (bytes : List Byte)
  /-- The read ended in a PCIe completion error. -/
  | pcieError
  deriving DecidableEq, Repr, Inhabited

/-- The read-to-clear registers of a lane and its quad (R562). -/
inductive LaneCounter where
  | errors | injected | codeAndCdr | refresh | quad
  deriving DecidableEq, Repr, Inhabited

/-- The two kinds of register space a register write can name: BAR0 (R52), and an island's space by its R51 index, which a write reaches under a
colour. -/
inductive RegSpace where
  | bar0
  | island (index colour : Nat)
  deriving DecidableEq, Repr, Inhabited

/-- A frame at an Ethernet port, as the PHY hands it over: from the destination address up to the FCS. For a packet of a
context with SRTP, `authOk` and `plain` are what the standard's unprotect transform makes of it (R131, R133). -/
structure FrameIn where
  port     : Nat
  fcsOk    : Bool
  bytes    : List Byte
  authOk   : Bool
  plain    : List Byte
  deriving DecidableEq, Repr, Inhabited

/-- What an IGMP query asks for: a group, 0 for all of them, and the sources of a group-and-source-specific one (R134). -/
structure GroupIn where
  addr    : BitVec 32
  sources : List (BitVec 32)
  deriving DecidableEq, Repr, Inhabited

/-- A PTP message as the standard reads it (R142, R144), its times in ns with the correction fields applied: an Announce with its data set in
comparison order (lower is better); a Sync, with its follow-up where the master is two-step, by its origin time and the frequency the servo derives;
a Delay_Resp by the receive time it reports; a Pdelay_Req with its sequence number; a Pdelay_Resp, with its follow-up, by the peer's turnaround time.
The device stamps the event messages itself. -/
inductive PtpIn where
  | announce (domain : Nat) (gm : BitVec 64) (dataset : List Nat) (logInterval : Int) (utcOffset : Nat) (qualified : Bool)
  | sync (domain : Nat) (gm : BitVec 64) (origin : Nat) (freqAdj : Int)
  | delayResp (domain : Nat) (received : Nat)
  | pdelayReq (domain : Nat) (seq : Nat)
  | pdelayResp (domain : Nat) (turnaround : Nat)
  deriving DecidableEq, Repr, Inhabited

/-- What header parsing finds in a complete slice (R163, R164, R167, R168): the standards' syntax elements, and what their decoding
processes derive from them. -/
structure SliceIn where
  /-- A new picture begins with the slice. -/
  firstOfPicture : Bool
  /-- It is the picture's last slice. -/
  lastOfPicture  : Bool
  /-- Its SPS and PPS have been received. -/
  parsed         : Bool
  /-- It uses no feature of R164. -/
  supported      : Bool
  /-- Bit of its profile in PROFILES. -/
  profile        : Nat
  width          : Nat
  height         : Nat
  matrix         : Option Nat
  fullRange      : Bool
  /-- Its level times ten. -/
  level          : Nat
  /-- Lines per row: the CTU size, or 16. -/
  rowLines       : Nat
  dpbNeed        : Nat
  /-- Content tag of the active SPS. -/
  sps            : Nat
  poc            : Int
  /-- A later picture may reference it. -/
  isRef          : Bool
  /-- IDR, IRAP, or a picture with a recovery point SEI. -/
  randomAccess   : Bool
  /-- IDR, or an IRAP picture that starts a new coded video sequence. -/
  idr            : Bool
  /-- RASL picture whose references are missing. -/
  rasl           : Bool
  /-- The picture that a recovery point SEI names. -/
  recovery       : Bool
  /-- Its standard says that earlier pictures not yet output are not output. -/
  dropPrior      : Bool
  /-- Its standard says that the picture itself is output. -/
  shown          : Bool
  /-- Pictures that may precede one in decoding order and follow it in output order. -/
  maxReorder     : Nat
  /-- Pictures that may precede one in output order and follow it in decoding order, where its SPS bounds them. -/
  maxLatency     : Option Nat
  /-- Order counts of the pictures that stay references: the RPS, or what the marking process leaves. -/
  keep           : List Int
  /-- Order counts that reference lists 0 and 1 name. -/
  list0          : List Int
  list1          : List Int
  firstLeaf      : Nat
  leaves         : Nat
  rows           : Nat
  /-- Rows of each row of tiles that the slice covers, empty without tiles, and tile columns. -/
  tiles          : List Nat
  cols           : Nat
  /-- It ends inside its last row. -/
  partEnd        : Bool
  /-- The slice's bottom leaf is final with the slice (R173). -/
  bottomFinal    : Bool
  deriving DecidableEq, Repr, Inhabited

/-- A prediction block: the order count of the reference it names, the lines its samples lie on before interpolation, and whether a block of
them arrived poisoned (R34, R193). -/
structure PredIn where
  poc      : Int
  top      : Int
  lines    : Nat
  poisoned : Bool
  deriving DecidableEq, Repr, Inhabited

/-- A leaf that a row has made final (R172): its samples, and the blocks it was predicted by. -/
structure LeafOut where
  leaf   : Nat
  pixels : List Byte
  preds  : List PredIn
  deriving DecidableEq, Repr, Inhabited

/-- What decoding one row gave (R166, R170–R173, R188): its coded bits, its time, the kind of error at which decoding stopped in it, the leaves
it made final, and its samples outside the conformance window, by band of 16 lines of the picture. -/
structure RowIn where
  bits    : Nat
  ns      : Nat
  fail    : Option Nat
  leaves  : List LeafOut
  outside : List (Nat × List Byte)
  deriving DecidableEq, Repr, Inhabited

/-- How a link training attempt ended, and what the sink's DPCD, topology and EDID read (R269, R271, R272). -/
structure TrainIn where
  ok      : Bool
  dpcd    : Nat
  /-- Rates the DPCD offers over four lanes: [0] HBR3, [1] UHBR10. -/
  rates   : BitVec 2
  lttprs  : Nat
  /-- Branch outputs that hold a sink, none for a sink attached directly. -/
  branch  : Option (BitVec 16)
  edid    : List Byte
  /-- Transmitter delay in ns (R284). -/
  txDelay : Nat
  deriving DecidableEq, Repr, Inhabited

/-- A choice of the second stage of motion search (R308): where it starts, and how far from there, in half-resolution pixels. Starts 0 to 3 are the
candidates of the first stage, 4 the co-located vector, 5 and 6 those of the left and the upper neighbour. -/
structure PickIn where
  base : Nat
  dx   : Int
  dy   : Int
  deriving DecidableEq, Repr, Inhabited

/-- The third stage for a 16×16 block: which of the two candidates of its 32×32 area it starts from, full and quarter pixels from there, and the
costs with which the search ends. -/
structure MotionIn where
  base : Nat
  dx   : Int
  dy   : Int
  qx   : Int
  qy   : Int
  vectorCost : Nat
  intraCost  : Nat
  deriving DecidableEq, Repr, Inhabited

/-- What matching chose in the three stages over a rate row, each in raster order (R308): the best four of each 64×64 area in quarter-resolution
pixels, the best two of each 32×32 area, and one of each 16×16 block. -/
structure SearchIn where
  areas  : List (List (Int × Int))
  halves : List (List PickIn)
  blocks : List MotionIn
  deriving DecidableEq, Repr, Inhabited

/-- A rate row as the encoder codes it (R308, R311): its bits and bytes as coded and as held, and the samples that the encoder reconstructs of it. -/
structure RateRowIn where
  session   : Nat
  bits      : Nat
  heldBits  : Nat
  coded     : List Byte
  heldCoded : List Byte
  recon     : List Byte
  /-- Of a held row of a refresh picture, coded with DC intra prediction. -/
  heldRecon : List Byte
  /-- Its first row: the parameter sets before a refresh picture (R307). -/
  params    : List Byte
  us        : Nat
  deriving DecidableEq, Repr, Inhabited

/-- A block request that arrives at STORE (R41, R381). -/
structure ReqIn where
  island   : Nat
  colour   : Nat
  cls      : Nat
  wr       : Bool
  addr     : Nat
  /-- Bytes: 256, or fewer for an access of a CTRL core (R41). -/
  len      : Nat
  data     : List Byte
  crc      : BitVec 32
  poisoned : Bool
  deriving DecidableEq, Repr, Inhabited

/-- An image slot as the boot ROM reads it: bytes 0x000–0x0FF, and what the check of the zero bytes after the signatures and the
signature, digest and GCM checks of R411 find. -/
structure ImageIn where
  header   : List Byte
  zerosOk  : Bool
  sigsOk   : Bool
  digestOk : Bool
  gcmOk    : Bool
  deriving DecidableEq, Repr, Inhabited

/-- An engine whose job is overdue, and the coded bits of the rows that the job has left (R170, R199). -/
structure OverdueIn where
  engine : Nat
  bits   : List Nat
  deriving DecidableEq, Repr, Inhabited

/-- Edges of the two crystals, window by window (R519). -/
structure CrystalIn where
  xa : List Nat
  xb : List Nat
  deriving DecidableEq, Repr, Inhabited

/-- The straps as they stand (R605). -/
structure StrapIn where
  gatherId  : BitVec 3
  secondary : Bool
  bootHold  : Bool
  deriving DecidableEq, Repr, Inhabited

/-- What boot finds: the two flash slots where the model holds none, and what the trim fuses give each island. -/
structure BootIn where
  slotA : ImageIn
  slotB : ImageIn
  vInit : List Nat
  deriving DecidableEq, Repr, Inhabited

/-- The power state a gate request asks for (R528, R529). -/
inductive GateTarget where
  | gated | retain | off
  deriving DecidableEq, Repr, Inhabited

/-- One sensor pair's counts (R537). -/
structure PairIn where
  stressed   : Nat
  unstressed : Nat
  offset     : Int
  deriving DecidableEq, Repr, Inhabited

/-- The lane state a user requests (R554). -/
inductive LaneTarget where
  | active | idle | sleep | off
  deriving DecidableEq, Repr, Inhabited

/-- What a lane's checker and receiver counted since the last poll, as the wire gave it (R557, R562). -/
structure LaneReadIn where
  errors  : Nat
  bits    : Nat
  flipped : Nat
  codeErr : Nat
  cdrLoss : Nat
  ctle    : Nat
  vga     : Nat
  deriving DecidableEq, Repr, Inhabited

/-- A HELLO with what its signature check and key agreement gave (R352). -/
structure HelloIn where
  port    : Nat
  srcIp   : BitVec 32
  srcUdp  : Nat
  bytes   : List Byte
  sigOk   : Bool
  deriving DecidableEq, Repr, Inhabited

/-- A DATA datagram with the plaintext its authentication gave (R353). -/
structure DataIn where
  port    : Nat
  srcIp   : BitVec 32
  srcUdp  : Nat
  session : BitVec 32
  counter : Nat
  authOk  : Bool
  plain   : List Byte
  deriving DecidableEq, Repr, Inhabited

/-- What the peer's attestation report said in a link handshake, and whether the chain and signatures verified (R453). -/
structure PeerIn where
  chainOk      : Bool
  ownerDigest  : List Byte
  recordDigest : List Byte
  lifecycle    : Nat
  gatherId     : Nat
  devId        : List Byte
  nonce        : BitVec 64
  role         : Nat
  /-- Its ephemeral ECDH public key and its 32-byte nonce. -/
  eph          : List Byte
  challenge    : List Byte
  deriving DecidableEq, Repr, Inhabited

/-- An announcement along the ring (R456): hops are those to the announcing part by each direction, none where cut. -/
structure MemberIn where
  gatherId : Nat
  role     : Nat
  devId    : List Byte
  hopsA    : Option Nat
  hopsB    : Option Nat
  twin     : Bool
  /-- Where the member's twin has taken it over: the CMD rings whose folio forwarded to it is answered with E_RESYNC (R370). -/
  resync   : BitVec 32
  deriving DecidableEq, Repr, Inhabited

/-- A spine time frame: sent by the lead, or followed with the offset measured against the lead (R457). -/
inductive TimeFrameIn where
  | send
  | receive (offset : Int) (freqAdj : Int) (lock : Nat) (lead : Nat) (gm : BitVec 64) (domain : Nat)
  deriving DecidableEq, Repr, Inhabited

/-- A leaf that arrived over the spine (R460). -/
structure LeafIn where
  member   : Nat
  context  : Nat
  frame    : BitVec 32
  leaf     : Nat
  leaves   : Nat
  colour   : Nat
  hostFed  : Bool
  capture  : Nat
  decoded  : Nat
  flags    : BitVec 8
  signature : BitVec 32
  width    : Nat
  height   : Nat
  fmt      : Nat
  matrix   : Option Nat
  fullRange : Bool
  pixels   : List Byte
  poisoned : Bool
  /-- FRAME of the context's first picture after the decoding member's last step, as sent to this member by now (R80). -/
  stepFrame : Option (BitVec 32)
  deriving DecidableEq, Repr, Inhabited

/-- The lasting condition for which an active part gives up (R475). -/
inductive YieldIn where
  | store | sec | portLane (q : Nat) | heads | heat
  deriving DecidableEq, Repr, Inhabited

/-- The partner's health report (R477, R480). -/
structure HealthIn where
  st      : Nat
  faults  : BitVec 16
  hot     : Int
  margin  : Nat
  lasting : List Nat
  devId   : List Byte
  synced  : Bool
  deriving DecidableEq, Repr, Inhabited

/-- An item of the mirror (R363, R364): an acknowledgement that reached the active part, or an item that reached the standby. -/
inductive MirrorIn where
  | ackFolio (ring : Nat)
  | ackEffect (ring : Nat)
  | ackRecord (n : Nat)
  | folio (ring : Nat) (bytes : List Byte)
  | begun (ring : Nat)
  | effect (ring : Nat) (status : Nat) (result : BitVec 64)
  | record (n : Nat) (bytes : List Byte)
  | register (ring : Nat) (offset : Nat) (value : BitVec 32)
  | doorbell (ring : Nat) (index : BitVec 32)
  | plate (ring : Nat) (bytes : List Byte)
  /-- The standby draws a provisioning key for a colour (R420). -/
  | attest (colour : Nat)
  /-- A bundle forwarded over link T: its first 0x110 bytes, and what SEC finds in it (R427). -/
  | bundle (colour : Nat) (head : List Byte) (sigOk keyOk : Bool) (items : List Byte)
  | outcome (origin : Nat) (ring : Nat) (seq : BitVec 32) (status : Nat) (result : BitVec 64)
  /-- The active part has begun a forwarded folio (R370). -/
  | forwarded (origin : Nat) (ring : Nat) (seq : BitVec 32)
  /-- Data of a host-fed context that the active part has fetched: the entry, its bytes, and whether the NAL unit under way ends with them (R471). -/
  | fed (k : Nat) (entry bytes : List Byte) (ends : Bool)
  /-- The standby's address of a port (R479). -/
  | address (port : Nat) (addr : BitVec 32)
  /-- The planned swap is signalled (R478). -/
  | swap
  /-- A standby asks the active part for a PLI (R472). -/
  | pli (c : Nat)
  /-- The colophon SIGNATURE of one leaf of a picture, as the active part has it (R477). -/
  | signature (c : Nat) (frame : BitVec 32) (leaf : Nat) (sig : BitVec 32)
  deriving DecidableEq, Repr, Inhabited

/-- The mean raw values learnt at one candidate frequency (R494). -/
structure BaseIn where
  nodes : List Int
  drive : List Int
  sense : List Int
  deriving DecidableEq, Repr, Inhabited

/-- A contact of a mirrored panel (R512): its entry in the last report, and its nodes. -/
structure ContactIn where
  id     : Nat
  x      : Nat
  y      : Nat
  signal : Int
  self_  : Int
  nodes  : List Nat
  edge   : Bool
  age    : Nat
  deriving DecidableEq, Repr, Inhabited

/-- A mirrored panel (R512). -/
structure PanelIn where
  t        : Nat
  freqIdx  : Nat
  seq      : BitVec 32
  exDrive  : List Nat
  exSense  : List Nat
  base     : List BaseIn
  contacts : List ContactIn
  deriving DecidableEq, Repr, Inhabited

/-- The desk as its active part mirrors it (R512): panels, accepted input levels, and the levels of the pairs. -/
structure DeskIn where
  panels : List PanelIn
  levels : BitVec 32
  pairs  : List Nat
  deriving DecidableEq, Repr, Inhabited

/-- What the debug master does (R436): closes its session, or opens one with the outcome of the token check. -/
inductive DebugIn where
  | closeSession
  | openSession (scope : Nat) (tokenOk : Bool)
  deriving DecidableEq, Repr, Inhabited

/-- What the operation a folio waits for gave (R338). -/
inductive WaitIn where
  | done
  | failed
  | image (image : ImageIn)
  | coded (bytes : List Byte)
  /-- What SEC finds in a bundle: its signatures verify, WRAP and BODY decrypt to the items given; and the twin's status. -/
  | bundle (sigOk keyOk : Bool) (items : List Byte) (twin : Option Nat)
  deriving DecidableEq, Repr, Inhabited

/-- A share that the gathering table names: the decoding member's context, the members that receive it, and its declared picture (R459). -/
structure ShareIn where
  member    : Nat
  context   : Nat
  receivers : BitVec 8
  colour    : Nat
  hostFed   : Bool
  ptp       : Bool
  p010      : Bool
  cls       : Nat
  width     : Nat
  height    : Nat
  rateNum   : Nat
  rateDen   : Nat
  deriving DecidableEq, Repr, Inhabited

/-- The gathering table a member receives from the lead (R457). -/
structure TableIn where
  lead    : Option Nat
  members : List MemberIn
  shares  : List ShareIn
  /-- The lead's twin has taken over: the CMD rings whose forwarded folio it answers with E_RESYNC (R370). -/
  leadTakeover : Option (BitVec 32)
  deriving DecidableEq, Repr, Inhabited

/-- What the members that a GATHER_SHARE adds or removes answer, a bit per member (R459): a layer shows the context, no room for its
buffers, or no room in the demand budget or on a further link of the path. -/
structure ShareAnswers where
  shows  : BitVec 8
  noRoom : BitVec 8
  noRate : BitVec 8
  deriving DecidableEq, Repr, Inhabited

/-- The commands. -/
inductive Instr where
  /-- NOP (R346): Folio that completes with E_OK and returns the full 64-bit completion time in RESULT. -/
  | nop (dt : Nat) (ring : Nat)
  /-- SYNC (R346): Folio that completes only once every folio of its colour fetched before it, on any ring, has completed. -/
  | sync (dt : Nat) (ring : Nat)
  /-- WINDOW_MAP (R350): Maps a BAR2 window to a zeroed store region taken from the colour's quota. -/
  | windowMap (dt : Nat) (ring : Nat)
  /-- WINDOW_UNMAP (R351): Stops a window serving host accesses, then wipes the region and returns it to the quota. -/
  | windowUnmap (dt : Nat) (ring : Nat)
  /-- NET_PORT (R115): Configures the mode, frame size, address, VLAN and gateway of an Ethernet port. -/
  | netPort (dt : Nat) (ring : Nat)
  /-- STREAM_OPEN (R122): Opens and admits a stream context with its match set, class, SRTP and policing settings. -/
  | streamOpen (dt : Nat) (ring : Nat)
  /-- STREAM_CLOSE (R123): Closes a stream context, so that its packets become unmatched. -/
  | streamClose (dt : Nat) (ring : Nat)
  /-- STREAM_SPROP (R128): Passes an out-of-band parameter-set NAL unit to an open context. -/
  | streamSprop (dt : Nat) (ring : Nat)
  /-- STREAM_STATE (R139): Writes a block of stream-context counters into a BAR2 window. -/
  | streamState (dt : Nat) (ring : Nat)
  /-- TIME_CONFIG (R146): Sets the PTP servo domain and limits, the EV_TIME ring and the wrap mode of each event ring. -/
  | timeConfig (dt : Nat) (ring : Nat)
  /-- TIME_WRAP (R116): Sets the wrap mode of one event ring. -/
  | timeWrap (dt : Nat) (ring : Nat)
  /-- PTP_PORT (R145): Configures one port's PTP role, delay mechanism, transport and asymmetry corrections. -/
  | ptpPort (dt : Nat) (ring : Nat)
  /-- TIME_STATE (R150): Writes a block of PTP and device-time state into a BAR2 window. -/
  | timeState (dt : Nat) (ring : Nat)
  /-- LAUNCH (R157): Queues a time-triggered frame, optionally periodic, on a port launch queue. -/
  | launch (dt : Nat) (ring : Nat)
  /-- LAUNCH_CANCEL (R157): Removes every launch of a queued entry that has not yet begun. -/
  | launchCancel (dt : Nat) (ring : Nat)
  /-- GENLOCK (R161): Ties a head's frame epochs to a device-time grid, or sets the head to free-run. -/
  | genlock (dt : Nat) (ring : Nat)
  /-- FRESH_SOURCE (R101): Sets the capture-time mode, arrival allowance and holdover limit of a stream context. -/
  | freshSource (dt : Nat) (ring : Nat)
  /-- FRESH_LAYER (R102): Sets a video layer's age budget, policy, deckle, freeze window and report interval. -/
  | freshLayer (dt : Nat) (ring : Nat)
  /-- FRESH_HEAD (R103): Sets a head's phase plan, signature log and freshness event ring. -/
  | freshHead (dt : Nat) (ring : Nat)
  /-- FRESH_STATE (R104): Writes a block of freshness state for a layer, head or context into a BAR2 window. -/
  | freshState (dt : Nat) (ring : Nat)
  /-- DEC_DECLARE (R177): Sets or re-admits a context's decode declaration. -/
  | decDeclare (dt : Nat) (ring : Nat)
  /-- DEC_STATE (R204): Writes a block of decode state for a context or an engine into a BAR2 window. -/
  | decState (dt : Nat) (ring : Nat)
  /-- LAYER_SET (R213): Configures a layer's source, placement, scaling, conversion and blending against the pending configuration. -/
  | layerSet (dt : Nat) (ring : Nat)
  /-- LAYER_RELEASE (R235): Removes a layer from its head and makes it IDLE or FREE. -/
  | layerRelease (dt : Nat) (ring : Nat)
  /-- COLOUR_MATRIX (R227): Writes or frees a user colour-matrix slot. -/
  | colourMatrix (dt : Nat) (ring : Nat)
  /-- SCALER_COEF (R221): Loads a scaler coefficient bank from a BAR2 window. -/
  | scalerCoef (dt : Nat) (ring : Nat)
  /-- HEAD_BLEND (R229): Sets a head's stacking mode and background colour. -/
  | headBlend (dt : Nat) (ring : Nat)
  /-- LAYER_STATE (R236): Writes a block of layer or head composition state into a BAR2 window. -/
  | layerState (dt : Nat) (ring : Nat)
  /-- FLIP_BEGIN (R240): Opens a flip group on the ring. -/
  | flipBegin (dt : Nat) (ring : Nat)
  /-- FLIP_COMMIT (R240): Closes the open flip group and queues it with its fences and timeout. -/
  | flipCommit (dt : Nat) (ring : Nat)
  /-- FLIP_CANCEL (R241): Discards a queued flip group that has not yet committed. -/
  | flipCancel (dt : Nat) (ring : Nat)
  /-- PLATE_UPDATE (R255): Verifies a signed plate sheet and copies it into a head's plate memory. -/
  | plateUpdate (dt : Nat) (ring : Nat)
  /-- PLATE_STATE (R260): Writes the plate nonce, SEQ, panes and palette of a head into a BAR2 window. -/
  | plateState (dt : Nat) (ring : Nat)
  /-- PRESS_TOUCH (R264): States that a head's STATIC surfaces have changed, so the press image is flattened anew. -/
  | pressTouch (dt : Nat) (ring : Nat)
  /-- HEAD_TIMING (R277): Sets a head's timing, port, stream place and output encoding. -/
  | headTiming (dt : Nat) (ring : Nat)
  /-- HEAD_STOP (R282): Stops a head at its next commit window and returns it to OFF. -/
  | headStop (dt : Nat) (ring : Nat)
  /-- HEAD_GUESTS (R267): Sets the guest mask of colours that may place layers on a head. -/
  | headGuests (dt : Nat) (ring : Nat)
  /-- PORT_CONFIG (R270): Configures a DisplayPort port's mode, rate, event ring and spread. -/
  | portConfig (dt : Nat) (ring : Nat)
  /-- HEAD_STATE (R298): Writes a block of head state into a BAR2 window. -/
  | headState (dt : Nat) (ring : Nat)
  /-- PORT_SINK (R299): Writes port state and the sink's EDID and DisplayID data into a BAR2 window. -/
  | portSink (dt : Nat) (ring : Nat)
  /-- ENC_OPEN (R305): Opens and places an encode session on a head rectangle. -/
  | encOpen (dt : Nat) (ring : Nat)
  /-- ENC_CLOSE (R306): Ends an encode session after the picture being coded. -/
  | encClose (dt : Nat) (ring : Nat)
  /-- ENC_CONSUME (R306): Returns output-region space up to an offset to the encoder. -/
  | encConsume (dt : Nat) (ring : Nat)
  /-- ENC_KEY (R306): Makes the next coded picture a refresh. -/
  | encKey (dt : Nat) (ring : Nat)
  /-- ENC_RATE (R306): Changes a session's bit rate and virtual buffer size from the next picture. -/
  | encRate (dt : Nat) (ring : Nat)
  /-- ENC_STATE (R323): Writes a block of encode-session state into a BAR2 window. -/
  | encState (dt : Nat) (ring : Nat)
  /-- STORE_TUNE (R402): In DEVELOP, pins a store point and sets the class age limits. -/
  | storeTune (dt : Nat) (ring : Nat)
  /-- STORE_STATE (R403): Writes a block of store state and per-channel counters into a BAR2 window. -/
  | storeState (dt : Nat) (ring : Nat)
  /-- STORE_WATCH (R404): Subscribes an event ring to kinds of EV_STORE. -/
  | storeWatch (dt : Nat) (ring : Nat)
  /-- ATTEST (R420): Draws a new provisioning key and writes a signed attestation report. -/
  | attest (dt : Nat) (ring : Nat) (twin : List Byte)
  /-- PROVISION (R427): Checks and applies a sealed, owner-signed provisioning bundle. -/
  | provision (dt : Nat) (ring : Nat)
  /-- OWNER_SET (R422): Fuses the digest of the owner's public keys in DEVELOP. -/
  | ownerSet (dt : Nat) (ring : Nat)
  /-- LIFECYCLE (R418): Checks a life-cycle token, burns the transition fuses and resets the device. -/
  | lifecycle (dt : Nat) (ring : Nat) (sigOk : Bool)
  /-- IMAGE_STAGE (R414): Checks a firmware image and writes it into the slot that the selector does not name. -/
  | imageStage (dt : Nat) (ring : Nat)
  /-- IMAGE_ACTIVATE (R414): Loads the staged image into the idle core pair and hands control over to it. -/
  | imageActivate (dt : Nat) (ring : Nat)
  /-- IMAGE_COMMIT (R414): Raises IMAGE_COUNTER, and optionally revokes lower root key pairs. -/
  | imageCommit (dt : Nat) (ring : Nat)
  /-- SEC_WATCH (R432): Subscribes an event ring to EV_ACCESS and EV_DEBUG. -/
  | secWatch (dt : Nat) (ring : Nat)
  /-- MAIL_SEND (R449): Sends a message on a spine mailbox. -/
  | mailSend (dt : Nat) (ring : Nat)
  /-- MAIL_TAKE (R450): Takes the waiting spine-mailbox message into a BAR2 window and gives the sender READ. -/
  | mailTake (dt : Nat) (ring : Nat)
  /-- MAIL_WATCH (R451): Sets or ends the event ring that watches a spine mailbox. -/
  | mailWatch (dt : Nat) (ring : Nat)
  /-- GATHER_SHARE (R459): Sets the members that receive a context's decoded leaves. -/
  | gatherShare (dt : Nat) (ring : Nat) (answers : ShareAnswers)
  /-- GATHER_STATE (R464): Writes a block of gathering state into a BAR2 window. -/
  | gatherState (dt : Nat) (ring : Nat)
  /-- GATHER_WATCH (R465): Subscribes an event ring to gathering and twin events. -/
  | gatherWatch (dt : Nat) (ring : Nat)
  /-- SWAP (R478): TWIN_CONTROL action 1: planned swap of control to the standby, which is in sync. -/
  | swap (dt : Nat) (ring : Nat)
  /-- FORCE (R478): TWIN_CONTROL action 2: makes an ELECTING part claim without the silence test. -/
  | force (dt : Nat) (ring : Nat)
  /-- TWIN_PORT (R479): Sets the standby's IPv4 address on an Ethernet port. -/
  | twinPort (dt : Nat) (ring : Nat)
  /-- TWIN_STATE (R480): Writes a block of twin state into a BAR2 window. -/
  | twinState (dt : Nat) (ring : Nat)
  /-- TOUCH_PANEL (R486): Configures, starts, restarts or stops a touch panel. -/
  | touchPanel (dt : Nat) (ring : Nat)
  /-- TOUCH_REBASE (R496): Ends every contact and relearns the panel baselines over the next two cycles. -/
  | touchRebase (dt : Nat) (ring : Nat)
  /-- TOUCH_STATE (R500): Writes a block of touch-panel state into a BAR2 window. -/
  | touchState (dt : Nat) (ring : Nat)
  /-- INPUT_CONFIG (R505): Configures a console input's enable, polarity, pairing, pull and timing. -/
  | inputConfig (dt : Nat) (ring : Nat)
  /-- INPUT_STATE (R513): Writes the input and output levels and fault bits into a BAR2 window. -/
  | inputState (dt : Nat) (ring : Nat)
  /-- OUTPUT_SET (R507): Sets a console output's mode: inactive, active, blink, pulse, follow-stale or release. -/
  | outputSet (dt : Nat) (ring : Nat)
  /-- RETURN_A (R541): CLOCK_CONTROL action 1: judges XTAL_A again and returns the reference to it. -/
  | returnA (dt : Nat) (ring : Nat) (counts : List Nat)
  /-- CLOCK_FUSE (R541): Burns the board fuse's crystal start-up delay. -/
  | clockFuse (dt : Nat) (ring : Nat)
  /-- POWER_STATE (R542): Writes a block of clock, thermal, island and rail state into a BAR2 window. -/
  | powerState (dt : Nat) (ring : Nat)
  /-- MARGIN_STATE (R542): Writes a block of an island's ageing and margin state into a BAR2 window. -/
  | marginState (dt : Nat) (ring : Nat)
  /-- POWER_WATCH (R543): Subscribes an event ring to kinds of EV_POWER. -/
  | powerWatch (dt : Nat) (ring : Nat)
  /-- LANE_TEST (R559): Starts or stops a pattern test on lanes of a quad. -/
  | laneTest (dt : Nat) (ring : Nat)
  /-- LANE_STATE (R563): Writes a block of lane counters for a quad into a BAR2 window. -/
  | laneState (dt : Nat) (ring : Nat)
  /-- LANE_WATCH (R564): Subscribes an event ring to kinds of EV_LANE. -/
  | laneWatch (dt : Nat) (ring : Nat)
  /-- FAULT_CONFIG (R569): Sets N and W of a fault source. -/
  | faultConfig (dt : Nat) (ring : Nat)
  /-- FAULT_STATE (R570): Writes a fault summary, crossing block or log page into a BAR2 window. -/
  | faultState (dt : Nat) (ring : Nat)
  /-- FAULT_WATCH (R571): Sets or ends an event ring for EV_FAULT. -/
  | faultWatch (dt : Nat) (ring : Nat)
  /-- CV_CONFIG (R573): Configures or frees a check-value unit. -/
  | cvConfig (dt : Nat) (ring : Nat)
  /-- CV_RUN (R574): Runs a check-value unit over window data, with optional compare and alive checks. -/
  | cvRun (dt : Nat) (ring : Nat)
  /-- CV_ATTACH (R576): Binds or unbinds a check-value unit to a launch queue. -/
  | cvAttach (dt : Nat) (ring : Nat)
  /-- ZE_RUN (R584): Runs one DEFLATE compression or decompression job. -/
  | zeRun (dt : Nat) (ring : Nat)
  /-- JOURNAL_CONFIG (R586): Enables, sizes or disables the replay journal. -/
  | journalConfig (dt : Nat) (ring : Nat)
  /-- JOURNAL_HOLD (R592): Holds journal chunks from a snapshot onward, or releases the hold. -/
  | journalHold (dt : Nat) (ring : Nat)
  /-- JOURNAL_EXPORT (R593): Writes one encrypted, signed part of a journal export. -/
  | journalExport (dt : Nat) (ring : Nat) (recipientOk : Bool)
  /-- JOURNAL_IMPORT (R594): Checks and imports one part of an exported journal. -/
  | journalImport (dt : Nat) (ring : Nat) (sigOk : Bool) (keyOk : Bool) (chunks : List (List Byte))
  /-- REPLAY_START (R595): Puts the part into replay mode from a snapshot. -/
  | replayStart (dt : Nat) (ring : Nat)
  /-- REPLAY_STOP (R599): Resets the device, which ends replay mode. -/
  | replayStop (dt : Nat) (ring : Nat)
  /-- JOURNAL_STATE (R600): Writes a block of journal state into a BAR2 window. -/
  | journalState (dt : Nat) (ring : Nat)
  /-- UNDEFINED_OPCODE (R345): A folio whose opcode is not defined completes with E_OPCODE. -/
  | undefinedOpcode (dt : Nat) (ring : Nat)
  /-- RING_ENABLE (R328): A write of 1 to RING.ENABLE sets both indices to 0 and starts the ring, unless the write is refused. -/
  | ringEnable (dt : Nat) (k : Nat)
  /-- RING_DISABLE (R328): A write of 0 to RING.ENABLE drains or disables the ring. -/
  | ringDisable (dt : Nat) (k : Nat)
  /-- DOORBELL (R329): A write of RING.HOST_INDEX that advances the producer or consumer index, after a validity check. -/
  | doorbell (dt : Nat) (k : Nat) (index : BitVec 32)
  /-- RESYNC_DOORBELL (R366): The first EVT HOST_INDEX write after a takeover, which starts the ring resynchronisation. -/
  | resyncDoorbell (dt : Nat) (n : Nat) (index : BitVec 32)
  /-- RING_LOST_READ (R327): A read of RING.LOST returns the count of dropped events and clears it. -/
  | ringLostRead (dt : Nat) (n : Nat)
  /-- TOP_CHANGE_WRITE (R349): A W1C write that clears bits of TOP.CHANGE. -/
  | topChangeWrite (dt : Nat) (bits : BitVec 32)
  /-- TOP_HFAULTS_READ (R349): A read of TOP.HFAULTS returns the host-access fault count and clears it. -/
  | topHfaultsRead (dt : Nat)
  /-- TIME_LO_READ (R152): A 32-bit read of TIME.LO returns the low half of device time and latches the upper half. -/
  | timeLoRead (dt : Nat)
  /-- INTERRUPT_SOURCE_WRITE (R348): A write of an interrupt source's vector and ENABLE; setting ENABLE restarts EVT moderation. -/
  | interruptSourceWrite (dt : Nat) (src : Nat) (value : BitVec 32)
  /-- MB_TAKE (R445): A read of MB.TAKE takes the firmware message, clears IN_FULL and gives firmware READ. -/
  | mbTake (dt : Nat) (n : Nat)
  /-- MBL_CLAIM (R446): A read of an agent's lock slot claims the mailbox lock when it is free. -/
  | mblClaim (dt : Nat) (n : Nat) (a : Nat)
  /-- MBL_RELEASE (R446): Releases the host-side mailbox lock before GO. -/
  | mblRelease (dt : Nat) (n : Nat) (a : Nat)
  /-- MBL_GO (R446): Sends the host's outgoing mailbox words to firmware. -/
  | mblGo (dt : Nat) (n : Nat) (a : Nat)
  /-- HOST_RESTART (R442): A write of MBX.HOST_RESTART declares a reset of the host end of MB0–MB3. -/
  | hostRestart (dt : Nat)
  /-- HOST_MAIL_SERVICE (R447): Firmware takes a host mailbox message and answers PING or IDENT. -/
  | hostMailService (dt : Nat) (n : Nat)
  /-- ACT_COMMIT (R429): A write of ACT.COMMIT checks the staged access-table entry and replaces the entry. -/
  | actCommit (dt : Nat)
  /-- STORE_GO (R394): A write of STORE.GO starts a frequency switch to the shadow timing set. -/
  | storeGo (dt : Nat)
  /-- CLK_FORCED_WRITE (R544): A W1C write that clears CLK.FORCED. -/
  | clkForcedWrite (dt : Nat) (value : BitVec 32)
  /-- LANE_COUNTER_READ (R562): A read of an RC lane or quad counter returns the count and clears it. -/
  | laneCounterRead (dt : Nat) (q : Nat) (lane : Nat) (counter : LaneCounter)
  /-- LANE_BITS_LO_READ (R562): A read of LANE.BITS_LO returns the low bits compared and latches BITS_HI. -/
  | laneBitsLoRead (dt : Nat) (q : Nat) (lane : Nat)
  /-- REGISTER_WRITE (R15): A write to a register that has no row of its own, under its access code. -/
  | registerWrite (dt : Nat) (space : RegSpace) (offset : Nat) (wide : Bool) (value : BitVec 64)
  /-- BAR0_BAD_ACCESS (R53): A BAR0 access of the wrong size or alignment, which returns all ones or has no effect, and is logged. -/
  | bar0BadAccess (dt : Nat) (offset : Nat) (size : Nat) (write : Bool)
  /-- BAR2_READ (R56): A host read through a BAR2 window, checked against the access table. -/
  | bar2Read (dt : Nat) (offset : Nat) (len : Nat)
  /-- BAR2_WRITE (R56): A host write through a BAR2 window, checked against the access table. -/
  | bar2Write (dt : Nat) (offset : Nat) (bytes : List Byte)
  /-- FOLIO_FETCH (R330): HOST fetches a folio from a CMD ring into the device and advances DEVICE_INDEX. -/
  | folioFetch (dt : Nat) (ring : Nat) (dma : Dma)
  /-- FOLIO_BEGIN (R338): Firmware dispatches and begins the next fetched folio once the completion place is free. -/
  | folioBegin (dt : Nat)
  /-- STM_FETCH (R347): HOST fetches the data of an STM entry for a host-fed context, within its rate limit. -/
  | stmFetch (dt : Nat) (k : Nat) (entry : Dma) (data : Dma) (ends : Bool)
  /-- EVENT_RECORD_WRITE (R342): A record leaves the holding queue and is written to its event ring once there is room. -/
  | eventRecordWrite (dt : Nat) (n : Nat) (dmaOk : Bool)
  /-- MODERATION_TIMEOUT (R348): MOD_TIME expires on an event ring and raises its interrupt source. -/
  | moderationTimeout (dt : Nat) (n : Nat)
  /-- EV_TICK (R154): An EXTEND ring that has carried no tick for 1.0 s is sent an EV_TICK. -/
  | evTick (dt : Nat) (n : Nat)
  /-- PACKET_RECEIVE (R121): A received Ethernet frame is filtered, matched to a consumer, policed, decrypted and stored, or dropped. -/
  | packetReceive (dt : Nat) (frame : FrameIn)
  /-- REORDER_TIMEOUT (R136): The REORDER wait for a missing packet runs out, and the packet is declared lost. -/
  | reorderTimeout (dt : Nat) (c : Nat)
  /-- STREAM_SILENCE (R139): A context has had no packets for 1.0 s, and EV_STREAM reports the silence. -/
  | streamSilence (dt : Nat) (c : Nat)
  /-- EV_LOSS (R138): A once-per-second report of packets a context dropped or lost. -/
  | evLoss (dt : Nat) (c : Nat)
  /-- RR_SEND (R125): An RTCP receiver report is sent every RR_INTERVAL. -/
  | rrSend (dt : Nat) (c : Nat)
  /-- ARP_REQUEST (R119): Firmware answers an ARP request for a port address. -/
  | arpRequest (dt : Nat) (port : Nat) (sender : BitVec 32) (target : BitVec 32) (senderMac : BitVec 48)
  /-- IGMP_QUERY (R134): Firmware answers an IGMP query with membership reports. -/
  | igmpQuery (dt : Nat) (port : Nat) (version : Nat) (group : GroupIn)
  /-- LINK_CHANGE (R120): An Ethernet port link goes up or down, which posts EV_LINK. -/
  | linkChange (dt : Nat) (port : Nat) (up : Bool) (rateCode : Nat)
  /-- PTP_MESSAGE (R142): A PTP event or general message is time-stamped and run through the servo and the best master clock algorithm. -/
  | ptpMessage (dt : Nat) (port : Nat) (msg : PtpIn)
  /-- ANNOUNCE_TIMEOUT (R148): The Announce receipt timeout on the slave port expires. -/
  | announceTimeout (dt : Nat)
  /-- HOLDOVER_EXPIRY (R148): HOLD_MAX elapses in HOLDOVER, and device time enters FREERUN. -/
  | holdoverExpiry (dt : Nat)
  /-- LAUNCH_READ (R158): NET reads a queued frame's blocks from the store 20 µs before its launch. -/
  | launchRead (dt : Nat) (port : Nat) (queue : Nat)
  /-- LAUNCH_DUE (R159): A queued frame's launch time arrives, and the frame is sent or dropped and reported. -/
  | launchDue (dt : Nat) (port : Nat) (queue : Nat)
  /-- SLICE_PARSE (R168): Firmware parses a complete slice's headers and forms a decode job. -/
  | sliceParse (dt : Nat) (c : Nat) (hdr : SliceIn)
  /-- JOB_START (R183): An engine takes the next decode job by class and age. -/
  | jobStart (dt : Nat) (e : Nat) (poisoned : Bool)
  /-- ROW_COMPLETE (R172): An engine finishes a CTU or macroblock row, completes leaves and may be preempted. -/
  | rowComplete (dt : Nat) (e : Nat) (out : RowIn)
  /-- LEAF_COMPLETE (R71): A leaf's pixel blocks are acknowledged and its colophon is written with VALID set. -/
  | leafComplete (dt : Nat) (c : Nat) (pic : Nat) (leaf : Nat)
  /-- DECODE_TIMEOUT (R199): An engine watchdog expires on a job, and the engine is isolated. -/
  | decodeTimeout (dt : Nat) (job : OverdueIn)
  /-- ENGINE_ISOLATE (R200): An isolated engine's contexts are reassigned or shed, and interrupted slices restart. -/
  | engineIsolate (dt : Nat) (e : Nat)
  /-- ENGINE_RETURN (R202): An engine passes its self-test and returns, and shed contexts are resumed. -/
  | engineReturn (dt : Nat) (e : Nat) (passed : Bool)
  /-- FIR_REPEAT (R195): A FIR is sent every 500 ms until a random-access picture arrives. -/
  | firRepeat (dt : Nat) (c : Nat)
  /-- PICK_POINT (R81): A layer's picture is selected for the frame, 80 µs before its first output line. -/
  | pickPoint (dt : Nat) (h : Nat) (layer : Nat)
  /-- FETCH_INSTANT (R292): A needed leaf is checked for VALID and fetched, or fails NOT_READY. -/
  | fetchInstant (dt : Nat) (h : Nat) (layer : Nat) (leaf : Nat)
  /-- BAND_REQUEST (R293): COMP requests a graphic or press-image band ahead of its first output line. -/
  | bandRequest (dt : Nat) (h : Nat) (layer : Nat) (band : Nat) (delivered : Bool) (good : Bool)
  /-- LEAF_SCAN (R83): At a leaf's scan time the head checks its age, draws the deckle and signs the output. -/
  | leafScan (dt : Nat) (h : Nat) (leaf : Nat)
  /-- OUTPUT_LEAF_START (R258): The head reads the plate lines of an output leaf at the leaf's start. -/
  | outputLeafStart (dt : Nat) (h : Nat) (leaf : Nat)
  /-- LATCH (R289): At the latch line the head applies the latched timing, ready groups and ungrouped folios, and opens the blanking plate copy. -/
  | latch (dt : Nat) (h : Nat)
  /-- HEAD_EPOCH (R284): A frame's active line 0 is scanned, the frame counter rises, and the head posts EV_COMMIT, EV_FRAME and its signature log. -/
  | headEpoch (dt : Nat) (h : Nat)
  /-- PLATE_FRAME_COPY (R258): Firmware copies a sheet with FRAME set during vertical blanking. -/
  | plateFrameCopy (dt : Nat) (h : Nat)
  /-- PLATE_SCRUB (R577): Every 100 ms firmware checks each pane's CRC and restores it on a mismatch. -/
  | plateScrub (dt : Nat)
  /-- GENLOCK_PULL (R162): A genlocked head trims its pixel clock toward its grid and changes between PULLING and LOCKED. -/
  | genlockPull (dt : Nat) (h : Nat)
  /-- PLAN_LEARNED (R107): LEARN pictures have been recorded, and the phase plan is accepted or refused. -/
  | planLearned (dt : Nat) (h : Nat)
  /-- FENCE_POLL (R242): Fences of a group that needs a flatten are read every 100 µs, which may start the flatten. -/
  | fencePoll (dt : Nat) (ring : Nat)
  /-- FLATTEN_DONE (R263): COMP finishes flattening a head's press image. -/
  | flattenDone (dt : Nat) (h : Nat)
  /-- FLIP_TIMEOUT (R243): A queued group's TIMEOUT expires, which discards it or commits it. -/
  | flipTimeout (dt : Nat) (ring : Nat)
  /-- HPD_HIGH (R271): HPD goes high on a DOWN port, and training starts. -/
  | hpdHigh (dt : Nat) (p : Nat)
  /-- HPD_LOW (R271): HPD has been low for 2 ms, and the port enters DOWN. -/
  | hpdLow (dt : Nat) (p : Nat)
  /-- HPD_SHORT_PULSE (R272): An HPD short pulse leads to a DPCD status check and may count as a lost link. -/
  | hpdShortPulse (dt : Nat) (p : Nat) (linkOk : Bool)
  /-- TRAINING_DONE (R271): A link training attempt ends, and the port goes UP, tries again or goes DOWN. -/
  | trainingDone (dt : Nat) (p : Nat) (result : TrainIn)
  /-- HEAD_ISOLATE (R296): A head island is isolated, reset and self-tested, and resumes at a new epoch. -/
  | headIsolate (dt : Nat) (h : Nat) (passed : Bool)
  /-- RATE_ROW_READY (R312): The tap has written a rate row's last line, and the row is queued for coding. -/
  | rateRowReady (dt : Nat) (session : Nat) (row : Nat) (lastRow : Bool) (search : SearchIn)
  /-- RATE_ROW_CODED (R311): An encoder codes a rate row and commits it, clamps it or discards it. -/
  | rateRowCoded (dt : Nat) (e : Nat) (row : RateRowIn)
  /-- PICTURE_CODED (R307): An access unit is written and its statistics, SEI and EV_ENCODE are emitted. -/
  | pictureCoded (dt : Nat) (session : Nat)
  /-- SIDE_RECORD (R315): The encoder writes a side record at the end of every head frame. -/
  | sideRecord (dt : Nat) (session : Nat)
  /-- ENCODER_ISOLATE (R321): An encoder is isolated, and its sessions are moved or suspended. -/
  | encoderIsolate (dt : Nat) (e : Nat)
  /-- BLOCK_ARRIVE (R28): A block arrives on a crossing, is checked and is delivered, re-requested or poisoned. -/
  | blockArrive (dt : Nat) (snd : Nat) (rcv : Nat) (place : Nat) (payload : List Byte) (crc : BitVec 32)
  /-- BLOCK_ACK (R30): A crossing acknowledgement frees the sender's copy of a block. -/
  | blockAck (dt : Nat) (snd : Nat) (rcv : Nat) (place : Nat)
  /-- ISLAND_ISOLATE (R35): An island is isolated or reset, and its crossings discard blocks not yet delivered. -/
  | islandIsolate (dt : Nat) (island : Nat)
  /-- ISLAND_RETURN (R566): An isolated island passes its reset and self-test and returns within 50 ms. -/
  | islandReturn (dt : Nat) (island : Nat) (passed : Bool)
  /-- STORE_REQUEST (R381): STORE serves a block request by rank, with promotion by age. -/
  | storeRequest (dt : Nat) (arrive : Option ReqIn) (serve : Option Nat)
  /-- WRITE_QUEUE_DRAIN (R384): STORE drains a channel's write queue to the DRAM. -/
  | writeQueueDrain (dt : Nat) (c : Nat) (blocks : Nat)
  /-- REFRESH_DUE (R386): A channel's refresh interval expires, and refresh is issued, postponed or forced. -/
  | refreshDue (dt : Nat) (c : Nat)
  /-- MR4_READ (R387): STORE reads each die's MR4 every 16 ms and derates refresh. -/
  | mr4Read (dt : Nat) (c : Nat) (factor : Nat) (tooHot : Bool)
  /-- POINT_SWITCH (R392): STORE switches frequency point on all channels together. -/
  | pointSwitch (dt : Nat) (target : Nat)
  /-- POINT_DOWN_TIMEOUT (R391): Demand has stayed low for 10 s, and firmware switches the store point down. -/
  | pointDownTimeout (dt : Nat)
  /-- STORE_REREAD (R396): STORE re-reads a block and its check entry for a re-send. -/
  | storeReread (dt : Nat) (rcv : Nat) (addr : Nat) (attempt : Nat) (atStore : Bool) (goodAtReceiver : Bool)
  /-- BANK_ROW_RETIRE (R398): STORE retires a faulty bank-row to a spare. -/
  | bankRowRetire (dt : Nat) (c : Nat) (ca : Nat)
  /-- RESET_WIPE (R400): STORE initialises, trains and wipes the whole DRAM after a reset. -/
  | resetWipe (dt : Nat) (failed : Option Nat)
  /-- REGION_WIPE_DONE (R401): A region wipe completes, and the pages become clean. -/
  | regionWipeDone (dt : Nat) (ring : Nat)
  /-- REMOVAL_DRAIN (R434): The in-flight accesses of a removal complete, and ACT.BUSY clears. -/
  | removalDrain (dt : Nat) (colour : Nat)
  /-- DEVICE_RESET (R611): RESET_N or an internal reset puts every ball in its reset state and begins start-up again. -/
  | deviceReset (dt : Nat) (burned : Nat)
  /-- SUPPLY_GOOD (R610): Every rail has been in range for 2 ms, which starts clock start. -/
  | supplyGood (dt : Nat)
  /-- CLOCK_START (R520): Oscillators and crystals are judged, the PLLs lock and device reset is released. -/
  | clockStart (dt : Nat) (fosc : List Nat) (crystals : CrystalIn) (straps : StrapIn)
  /-- BOOT (R412): The boot ROM checks and starts an image, and firmware waits for the wipe and sets READY. -/
  | boot (dt : Nat) (boot : BootIn)
  /-- PERST_ASSERT (R612): PERST_N low resets HOST, disables every ring and resets the host mailbox end. -/
  | perstAssert (dt : Nat)
  /-- PERST_RELEASE (R612): PERST_N rises, and HOST starts PCIe link training. -/
  | perstRelease (dt : Nat)
  /-- SUPPLY_LOW (R534): A rail is below its range for 100 µs (EV_POWER SUPPLY), or below 95 % for 10 µs (device reset). -/
  | supplyLow (dt : Nat) (rail : Nat) (mv : Nat) (us : Nat)
  /-- THERMAL_READING (R535): A junction sensor reading crosses +105 °C or clears, which posts THERMAL. -/
  | thermalReading (dt : Nat) (sensor : Nat) (temp : Int)
  /-- THERMAL_SHUTDOWN (R618): A sensor reads +120 °C for 100 ms, which posts THERMAL and may make the part yield. -/
  | thermalShutdown (dt : Nat) (sensor : Nat) (temp : Int)
  /-- THERMAL_TRIP (R618): A sensor reads +130 °C for 1 ms, and the companion die resets the device. -/
  | thermalTrip (dt : Nat) (sensor : Nat) (temp : Int)
  /-- THERMAL_TRIP_RELEASE (R618): Every sensor has read below +100 °C for 10 s, and reset is released. -/
  | thermalTripRelease (dt : Nat)
  /-- CRYSTAL_STOP (R522): The reference crystal stops or fails, and the device fails over to the other crystal or resets. -/
  | crystalStop (dt : Nat) (b : Bool)
  /-- CRYSTAL_COMPARE (R521): Every 1 ms the supervisor compares the crystals and judges any drift. -/
  | crystalCompare (dt : Nat) (abPpm : Int) (aFromPtp : Int) (bFromPtp : Int)
  /-- FORCED_SWITCH (R526): A clock switch from a stopped clock completes by timeout, which sets CLK.FORCED. -/
  | forcedSwitch (dt : Nat) (island : Nat)
  /-- VF_CHANGE (R531): The sequencer changes an island's voltage and clock in safe order. -/
  | vfChange (dt : Nat) (island : Nat) (low : Bool)
  /-- GATE_REQUEST (R529): An island's idle handshake completes, and it enters GATED, RETAIN or OFF. -/
  | gateRequest (dt : Nat) (island : Nat) (target : GateTarget) (blockArrives : Bool)
  /-- ISLAND_WAKE (R529): A block arriving at a gated island wakes it. -/
  | islandWake (dt : Nat) (island : Nat)
  /-- AGEING_MEASURE (R537): Every 10 minutes firmware measures the sensor pairs and canaries and re-plans V_PLAN. -/
  | ageingMeasure (dt : Nat) (island : Nat) (pairs : List PairIn) (slack : Int)
  /-- MARGIN_RECHECK (R539): A canary slack below 25 mV is measured again after 1 s and raises V_PLAN. -/
  | marginRecheck (dt : Nat) (island : Nat) (slack : Int)
  /-- FREEZE_ADAPTATION (R551): Squelch or a lack of transitions freezes a receiver's adaptation. -/
  | freezeAdaptation (dt : Nat) (q : Nat) (lane : Nat)
  /-- FREEZE_END (R552): A freeze ends, and the receiver resumes adaptation or runs a refresh. -/
  | freezeEnd (dt : Nat) (q : Nat) (lane : Nat) (cdrLocked : Bool) (temp : Int)
  /-- CDR_LOCK_FAIL (R552): The CDR has not locked 5 µs after a freeze, and the link is reported lost. -/
  | cdrLockFail (dt : Nat) (q : Nat) (lane : Nat)
  /-- QUAD_PLL_LOSS (R546): A quad PLL loses lock, and every lane of the quad loses its link. -/
  | quadPllLoss (dt : Nat) (q : Nat)
  /-- LANE_STATE_CHANGE (R554): A user requests a lane direction to enter or wake from IDLE, SLEEP or OFF. -/
  | laneStateChange (dt : Nat) (q : Nat) (lane : Nat) (rxDir : Bool) (target : LaneTarget)
  /-- TEST_DONE (R560): A lane test's DURATION ends, and the device posts EV_LANE TEST_DONE. -/
  | testDone (dt : Nat) (q : Nat) (lane : Nat)
  /-- COUNTER_POLL (R562): Every 10 ms firmware reads the lane RC counters and keeps totals. -/
  | counterPoll (dt : Nat) (q : Nat) (lane : Nat) (read : LaneReadIn)
  /-- FAULT_EVENT (R565): A fault source event is stamped, counted and tested for a lasting fault. -/
  | faultEvent (dt : Nat) (source : Nat) (island : Nat) (unit : Nat) (detail : Nat) (key : Nat)
  /-- FAULT_CLEAR (R567): A present lasting fault clears after its quiet window. -/
  | faultClear (dt : Nat) (source : Nat) (island : Nat) (unit : Nat) (key : Nat)
  /-- HANDOVER (R360): Control moves from one CTRL core pair to the other between folio steps. -/
  | handover (dt : Nat) (ok : Bool)
  /-- CTRL_RESTART (R362): A lasting CTRL fault resets CTRL, which restarts from committed state and posts EV_RESYNC. -/
  | ctrlRestart (dt : Nat)
  /-- HELLO (R352): A peer HELLO opens a command-channel session, and the device answers ACCEPT. -/
  | hello (dt : Nat) (ch : Nat) (hello : HelloIn)
  /-- DATA (R353): A DATA datagram carrying folios and acknowledgements is authenticated and taken. -/
  | data (dt : Nat) (ch : Nat) (dgram : DataIn)
  /-- CLOSE (R353): A CLOSE datagram ends a command-channel session. -/
  | close (dt : Nat) (ch : Nat) (counter : Nat) (authOk : Bool)
  /-- CHANNEL_RESEND (R354): Records not acknowledged after 20 ms are sent again, and an empty DATA is sent when idle for 1 s. -/
  | channelResend (dt : Nat) (ch : Nat)
  /-- CHANNEL_SESSION_TIMEOUT (R354): A session ends after 10 s without an authenticated datagram. -/
  | channelSessionTimeout (dt : Nat) (ch : Nat)
  /-- CHANNEL_SESSION_AGE (R353): The session reaches 23 h or its counter limit, and the device sends CLOSE. -/
  | channelSessionAge (dt : Nat) (ch : Nat)
  /-- LINK_AUTHENTICATED (R453): A spine or twin link passes its handshake and starts carrying traffic. -/
  | linkAuthenticated (dt : Nat) (link : Nat) (peer : PeerIn)
  /-- LINK_HANDSHAKE_RETRY (R453): A failed link handshake is retried every 1 s. -/
  | linkHandshakeRetry (dt : Nat) (link : Nat)
  /-- LINK_LOST (R454): A spine link is declared lost, and traffic reverses round the ring. -/
  | linkLost (dt : Nat) (link : Nat)
  /-- MEMBER_ANNOUNCE (R456): A part's announcement of its GATHER_ID, role and DEVICE_ID is received along the ring. -/
  | memberAnnounce (dt : Nat) (member : MemberIn)
  /-- TIME_FRAME (R457): The lead sends a spine time frame every 125 µs, and members follow it. -/
  | timeFrame (dt : Nat) (frame : TimeFrameIn)
  /-- TIME_FRAME_LOSS (R457): A member has had no time frame for 4 ms and treats the lead as a lost slave port. -/
  | timeFrameLoss (dt : Nat)
  /-- FORWARDED_FOLIO (R458): A folio forwarded from another member is received, carried out and answered. -/
  | forwardedFolio (dt : Nat) (origin : Nat) (ring : Nat) (seq : BitVec 32) (folio : List Byte)
  /-- FORWARD_TIMEOUT (R458): No path has existed for 50 ms, and the forwarded folio completes with E_UNREACHABLE. -/
  | forwardTimeout (dt : Nat) (ring : Nat) (delivered : Bool)
  /-- LEAF_SEND (R460): The decoding member sends a shared leaf toward each receiver. -/
  | leafSend (dt : Nat) (c : Nat) (pic : Nat) (leaf : Nat) (member : Nat) (acked : Nat)
  /-- LEAF_RECEIVE (R460): A receiving member stores, checks, publishes and acknowledges a shared leaf. -/
  | leafReceive (dt : Nat) (leaf : LeafIn)
  /-- MAIL_DELIVER (R448): A mailbox message from another part arrives and is stored. -/
  | mailDeliver (dt : Nat) (box : Nat) (words : List Byte) (owner : Nat)
  /-- MAIL_OUTCOME (R440): The outcome of a sent message arrives, and the lock frees. -/
  | mailOutcome (dt : Nat) (box : Nat) (read : Bool)
  /-- HB_SILENT (R467): HB_IN has had no edge for 2.5 ms. -/
  | hbSilent (dt : Nat)
  /-- CLAIM_RELEASED (R467): CLAIM has been high for 2 ms. -/
  | claimReleased (dt : Nat)
  /-- TWIN_WATCHDOG_TRIP (R467): The twin watchdog goes unfed or a restart overruns, and the hardware mutes and yields. -/
  | twinWatchdogTrip (dt : Nat)
  /-- SENIOR_DELAY_END (R469): The seniority delay ends, and the part pulls CLAIM and starts its 100 µs check. -/
  | seniorDelayEnd (dt : Nat)
  /-- CLAIM_CHECK_END (R469): The 100 µs check ends, and the part enters ACTIVE or backs off. -/
  | claimCheckEnd (dt : Nat) (partnerSpoke : Bool) (bothPulled : Bool)
  /-- TAKEOVER (R473): A standby in sync takes over: it unmutes, announces addresses and resumes rings. -/
  | takeover (dt : Nat)
  /-- TWIN_YIELD (R475): An active part with a healthy standby gives up on a lasting fault. -/
  | twinYield (dt : Nat) (cause : YieldIn)
  /-- STATE_SNAPSHOT (R476): The active part sends a state snapshot to a returning standby. -/
  | stateSnapshot (dt : Nat)
  /-- HEALTH_REPORT (R477): Each twin publishes a health report over link T every 1 s. -/
  | healthReport (dt : Nat) (report : Option HealthIn)
  /-- STANDBY_SELFTEST (R477): A standby tests an island with a built-in sequence in idle time. -/
  | standbySelftest (dt : Nat) (island : Nat) (passed : Bool)
  /-- TWIN_MIRROR (R364): The standby acknowledges a mirrored folio, effect or record. -/
  | twinMirror (dt : Nat) (item : MirrorIn)
  /-- STANDBY_PLI_REQUEST (R472): A context has waited 2 s on the standby, which asks the active part for a PLI. -/
  | standbyPliRequest (dt : Nat) (c : Nat)
  /-- SCAN_CYCLE (R488): A panel starts a scan cycle at a 1/60 s boundary of device time. -/
  | scanCycle (dt : Nat) (t : Nat)
  /-- MUTUAL_FRAME_END (R490): A mutual frame ends, and TOUCH finds contacts and writes a report. -/
  | mutualFrameEnd (dt : Nat) (t : Nat) (raw : List Int)
  /-- SELF_FRAME_END (R488): A self frame ends and updates the self deltas. -/
  | selfFrameEnd (dt : Nat) (t : Nat) (drive : List Int) (sense : List Int)
  /-- NOISE_LISTEN_END (R489): A noise listen ends and may hop the drive frequency. -/
  | noiseListenEnd (dt : Nat) (t : Nat) (noise : List Nat)
  /-- PANEL_START (R494): The line test, noise survey and baseline learning of a panel complete. -/
  | panelStart (dt : Nat) (t : Nat) (openDrive : List Nat) (openSense : List Nat) (noise : List Nat) (base : List BaseIn)
  /-- BASELINE_DRIFT (R495): Every DRIFT ms, baselines move one count toward the raw values. -/
  | baselineDrift (dt : Nat) (t : Nat)
  /-- INPUT_SAMPLE (R502): Every 100 µs TOUCH samples the console inputs and debounces level changes. -/
  | inputSample (dt : Nat) (levels : BitVec 32)
  /-- CHATTER_QUIET (R503): An input in CHATTER has had QUIET ms without a raw change and posts STEADY. -/
  | chatterQuiet (dt : Nat) (k : Nat)
  /-- INPUT_STUCK (R503): An input has stayed active for STUCK_MS. -/
  | inputStuck (dt : Nat) (k : Nat)
  /-- PAIR_DISCREPANCY (R504): A pair discrepancy has lasted PAIR_MS, and the pair enters FAULT. -/
  | pairDiscrepancy (dt : Nat) (k : Nat)
  /-- BLINK_PHASE (R507): A blink phase or pulse of a console output ends. -/
  | blinkPhase (dt : Nat) (o : Nat)
  /-- FOLLOW_STALE_UPDATE (R508): A follow-stale output is updated after each epoch of the layer's head. -/
  | followStaleUpdate (dt : Nat) (o : Nat)
  /-- OUTPUT_OVERLOAD (R509): An overload has lasted 10 ms, and the output goes to high impedance. -/
  | outputOverload (dt : Nat) (o : Nat)
  /-- TOUCH_MIRROR (R512): Touch and input configurations and levels are mirrored to the twin once per second. -/
  | touchMirror (dt : Nat) (given : Option DeskIn)
  /-- DEBUG_SESSION (R436): The JTAG debug master opens or closes a session with a token. -/
  | debugSession (dt : Nat) (req : DebugIn)
  /-- ENTROPY_FAIL (R406): An entropy health test fails, and SEC stops the DRBG. -/
  | entropyFail (dt : Nat)
  /-- JOURNAL_ENTRY (R590): An island writes a journal entry into staging, or the journal enters GAP. -/
  | journalEntry (dt : Nat) (kind : Nat) (source : BitVec 32) (payload : List Byte)
  /-- JOURNAL_CHUNK (R591): ZE0 compresses a 64 KiB staged chunk and writes its index record. -/
  | journalChunk (dt : Nat) (compressed : List Byte)
  /-- JOURNAL_SNAPSHOT (R591): Every SNAP_S seconds, and after a gap, firmware writes a snapshot. -/
  | journalSnapshot (dt : Nat) (image : List Byte)
  /-- GAP_END (R590): Staging has drained below 32 MiB, and the journal writes GAP and resumes. -/
  | gapEnd (dt : Nat)
  /-- REPLAY_ENTRY (R596): Replay carries out the next journal entry and writes its output record. -/
  | replayEntry (dt : Nat) (tag : Nat) (body : List Byte) (diverged : Bool)
  /-- FOLIO_WAIT_COMPLETE (R338): The SEC operation, copy or engine job that a waiting folio needs finishes, and the folio resumes or completes. -/
  | folioWaitComplete (dt : Nat) (ring : Nat) (outcome : WaitIn)
  /-- FORWARDED_REPLY (R458): The reply to a forwarded folio arrives back at the originating member, and the folio completes on its ring. -/
  | forwardedReply (dt : Nat) (ring : Nat) (member : Nat) (seq : BitVec 32) (status : Nat) (result : BitVec 64) (events : List (List Byte))
  /-- MAIL_CONTACT_TIMEOUT (R449): Contact is lost before delivery and not regained within 50 ms, so MAIL_SEND completes with E_UNREACHABLE. -/
  | mailContactTimeout (dt : Nat) (ring : Nat)
  /-- CLAIM_LOW (R468): CLAIM is pulled low by the partner, and an ELECTING part that has not claimed enters STANDBY. -/
  | claimLow (dt : Nat)
  /-- HB_IN_ALIVE (R470): Edges return on HB_IN after silence, which changes the twin signal combination and may post DISAGREE. -/
  | hbInAlive (dt : Nat)
  /-- GATHERING_TABLE (R457): A member receives the lead's new gathering table, updates paths and roles, and posts EV_RESYNC with CAUSE 2 after a lead change. -/
  | gatheringTable (dt : Nat) (table : TableIn)
  /-- REMOVAL_ACCESS_TIMEOUT (R434): An access still in flight 100 µs after its removal counts a crossing fault, and its island is isolated. -/
  | removalAccessTimeout (dt : Nat) (colour : Nat)
  /-- CLOCK_JUDGE_RETRY (R520): Every 100 ms the judges run again while FOSC is not good or both crystals have failed, and the part stays in reset. -/
  | clockJudgeRetry (dt : Nat) (fosc : List Nat) (crystals : CrystalIn) (straps : StrapIn)
  /-- CHECKER_SYNC (R557): A lane checker gains sync after 1,024 good bits, or loses it on 64 errors in 1,024 bits. -/
  | checkerSync (dt : Nat) (q : Nat) (lane : Nat) (errors : Nat)
  /-- FUNCTION_LEVEL_RESET (R442): A PCIe hot reset or function-level reset of the endpoint resets the host end of MB0–MB3. -/
  | functionLevelReset (dt : Nat)
  deriving DecidableEq, Repr, Inhabited

end Sys2Proof
end

