-- ==== Sys2Proof/Config.lean ====
section
/-!
DEFINITION. What an implementation fixes and what the spec leaves open, as constants with no body: nothing in Lean can
evaluate them, so a statement about a value of one of them holds whatever that value is.
-/

namespace Sys2Proof.Config

/-- Free value: what a draw from the true random source gives (R405, R412), by the counter the draw advances. -/
opaque random : Nat → Byte

/-- SHA-384 (FIPS 180-4, R405): the digest of a list of bytes, 48 bytes. The standard fixes it; the model leaves it open. -/
opaque sha384 : List Byte → List Byte

/-- HKDF-SHA-384 (RFC 5869): secret, salt, info, length. -/
opaque hkdf : List Byte → List Byte → List Byte → Nat → List Byte

/-- AES-256-GCM (SP 800-38D): key, nonce, additional data, plaintext; the ciphertext followed by its tag. -/
opaque gcm : List Byte → List Byte → List Byte → List Byte → List Byte

/-- ECDSA P-384 signature by the identity key of the salt generation named (R419), 96 bytes. -/
opaque signE : Bool → List Byte → List Byte

/-- ML-DSA-87 signature by the identity key of the salt generation named (R419), 4,627 bytes. -/
opaque signM : Bool → List Byte → List Byte

/-- The part's DEVICE_ID under the salt generation named (R419), 16 bytes. -/
opaque deviceId : Bool → List Byte

/-- The part's identity ECDSA public key (R419), 97 bytes. -/
opaque idPubE : Bool → List Byte

/-- The part's identity ML-DSA-87 public key (R419), 2,592 bytes. -/
opaque idPubM : Bool → List Byte

/-- The identity certificate chain in the flash with its 4-byte length (R409). -/
opaque certChain : List Byte

/-- The public ECDH P-384 key of the private key drawn (R420), 97 bytes. -/
opaque ecdhPub : List Byte → List Byte

/-- The ECDH P-384 shared secret of a private key and a public key (R405). -/
opaque ecdh : List Byte → List Byte → List Byte

/-- AES-256-XTS (R395): key, tweak, block. -/
opaque xts : List Byte → Nat → List Byte → List Byte

/-- What the boot ROM holds, by byte (R49): the part's own, fixed in manufacture. -/
opaque bootRom : Nat → Byte

/-- Free value: a number the spec does not state, by the counter the step advances. -/
opaque freeNat : Nat → Nat

/-- Free value: a region of the store reused by a context's buffers; which address firmware takes for colour-0 work. -/
opaque firmwareRegion : Nat → Nat

/-- What firmware writes into a register of a timing set for a frequency point, from the die's mode registers and the training results (R394;
log entry 36). -/
opaque dieTiming : Nat → Nat → BitVec 32

end Sys2Proof.Config
end

