-- ==== Sys2Proof/Machine/Layouts.lean ====
section
/-!
DEFINITION. The parameter bytes that the layout of each opcode names, with a value or as reserved (02–17, each opcode's own rule). A parameter
byte below 0x10 + LENGTH that no row of its opcode's layout names is reserved and must be zero (R14, R240; DEDUCED, log entry 16). A byte that
a layout calls reserved is checked by the opcode's row where it is listed here, and with the unnamed ones where it is not.
-/

namespace Sys2Proof.Machine

/-- Offset and size of the fields of the opcodes whose layout has one size: R346, R350, R351, R115–R147, R157, R161, R101–R104. -/
def layoutsNet : List (Nat × List (Nat × Nat)) :=
  [(0x0000, []), (0x0001, []), (0x0010, [(0x10, 8)]), (0x0011, [(0x10, 1)]),
   (0x0100, [(0x10, 16)]), (0x0101, [(0x10, 56)]), (0x0102, [(0x10, 1)]), (0x0104, [(0x10, 1), (0x12, 1), (0x14, 4)]),
   (0x0110, [(0x10, 20)]), (0x0111, [(0x10, 16)]), (0x0112, [(0x12, 1), (0x14, 4)]), (0x0113, [(0x10, 2)]),
   (0x0120, [(0x10, 24)]), (0x0121, [(0x10, 4)]), (0x0130, [(0x10, 24)]),
   (0x0210, [(0x10, 12)]), (0x0211, [(0x10, 32)]), (0x0212, [(0x10, 20)]), (0x0213, [(0x10, 3), (0x14, 4)])]

/-- R177, R204, R213, R221, R227, R229, R235, R236, R241, R255, R260, R264, R267–R299, R305–R323. -/
def layoutsShow : List (Nat × List (Nat × Nat)) :=
  [(0x0300, [(0x10, 24)]), (0x0302, [(0x10, 3), (0x14, 4)]),
   (0x0400, [(0x10, 57)]), (0x0401, [(0x10, 2)]), (0x0402, [(0x10, 34)]), (0x0403, [(0x10, 1), (0x12, 1), (0x14, 4)]),
   (0x0404, [(0x10, 8)]), (0x0405, [(0x10, 3), (0x14, 4)]),
   (0x0600, []), (0x0602, [(0x10, 2)]), (0x0610, [(0x10, 1), (0x14, 4)]), (0x0611, [(0x11, 2), (0x14, 4)]), (0x0620, [(0x10, 1)]),
   (0x0700, [(0x10, 32)]), (0x0701, [(0x10, 1)]), (0x0702, [(0x10, 1), (0x18, 8)]), (0x0703, [(0x10, 1), (0x12, 1), (0x14, 4)]),
   (0x0710, [(0x10, 8)]), (0x0711, [(0x10, 1), (0x12, 1), (0x14, 4)])] ++
  [(0x0800, [(0x10, 52)]), (0x0801, [(0x10, 1)]), (0x0802, [(0x10, 1), (0x14, 4)]), (0x0803, [(0x10, 1)]), (0x0804, [(0x10, 1), (0x14, 8)]),
   (0x0805, [(0x10, 1), (0x12, 1), (0x14, 4)])]

/-- R402–R404, R414, R418–R432, R449–R451, R459–R465, R478–R480. -/
def layoutsTrust : List (Nat × List (Nat × Nat)) :=
  [(0x0A00, [(0x10, 12)]), (0x0A01, [(0x12, 1), (0x14, 4)]), (0x0A02, [(0x10, 2)]),
   (0x0B00, [(0x10, 40)]), (0x0B01, [(0x10, 1), (0x14, 8)]), (0x0B02, [(0x10, 1), (0x14, 4)]), (0x0B03, [(0x10, 1), (0x14, 4)]),
   (0x0B04, [(0x10, 1), (0x14, 4)]), (0x0B05, []), (0x0B06, []), (0x0B07, [(0x10, 2)]),
   (0x0C00, [(0x10, 1), (0x20, 64)]), (0x0C01, [(0x10, 1), (0x12, 1), (0x14, 4)]), (0x0C02, [(0x10, 2)]),
   (0x0C10, [(0x10, 4)]), (0x0C11, [(0x12, 1), (0x14, 4)]), (0x0C12, [(0x10, 2)]),
   (0x0C20, [(0x10, 1)]), (0x0C21, [(0x10, 1), (0x14, 4)]), (0x0C22, [(0x12, 1), (0x14, 4)])]

/-- R486–R513, R541–R543, R559–R564, R569–R600. -/
def layoutsDesk : List (Nat × List (Nat × Nat)) :=
  [(0x0D00, [(0x10, 48)]), (0x0D01, [(0x10, 1)]), (0x0D02, [(0x11, 2), (0x14, 4)]), (0x0D10, [(0x10, 16)]), (0x0D11, [(0x12, 1), (0x14, 4)]),
   (0x0D20, [(0x10, 9)]), (0x0E00, [(0x10, 1)]), (0x0E01, [(0x10, 1)]), (0x0E02, [(0x12, 1), (0x14, 4)]), (0x0E03, [(0x11, 2), (0x14, 4)]),
   (0x0E04, [(0x10, 2)]), (0x0F00, [(0x10, 12)]), (0x0F01, [(0x11, 2), (0x14, 4)]), (0x0F02, [(0x10, 2)])] ++
  [(0x1000, [(0x10, 4)]), (0x1001, [(0x10, 8)]), (0x1002, [(0x10, 1)]), (0x1010, [(0x10, 13)]),
   (0x1011, [(0x10, 3), (0x14, 8), (0x20, 16)]), (0x1012, [(0x10, 3), (0x14, 7)]), (0x1020, [(0x10, 32)]),
   (0x1030, [(0x10, 10)]), (0x1031, [(0x18, 8)]), (0x1032, [(0x10, 1), (0x14, 21), (0x2C, 12)]), (0x1033, [(0x10, 1), (0x14, 8)]),
   (0x1034, [(0x10, 2), (0x14, 16)]), (0x1035, []), (0x1036, [(0x12, 1), (0x14, 4)])]

/-- The bytes that an opcode's layout names. A layout that a count of the folio sizes takes it: LENGTH of a STREAM_SPROP's unit (R128), FENCES
of a FLIP_COMMIT (R240). -/
def namedBytes (op sprop fences : Nat) : Option (List (Nat × Nat)) :=
  if op = 0x0103 then some [(0x10, 1), (0x12, 2), (0x18, sprop)]
  else if op = 0x0601 then some [(0x10, 8), (0x18, 16 * fences)]
  else (layoutsNet ++ layoutsShow ++ layoutsTrust ++ layoutsDesk).lookup op

/-- A byte offset lies in one of the fields. -/
def named (l : List (Nat × Nat)) (off : Nat) : Bool := l.any fun f => decide (f.1 ≤ off) && decide (off < f.1 + f.2)

end Sys2Proof.Machine
end

