-- ==== Sys2Proof/Machine/StateHost.lean ====
section
/-!
DEFINITION. Rings, folios, records, interrupts, windows, network command channels (09_folios_rings.md, 10_ordering_recovery.md): the state the spec gives, as plain data, and its reset values.
A field's docstring says what the spec calls it; INVENTORY.md gives its rule and where its reset value comes from.
-/

namespace Sys2Proof.Machine

/-- Status codes, 0x0000–0x0011 in this order (R344). -/
inductive Status where
  | ok | damaged | sequence | opcode | param | lifecycle | unreachable | colour | state | busy | nospace | capacity | linebuf | signature | late | dropped | resync | fault
  deriving DecidableEq, Repr, Inhabited

/-- `RING.STATE`: 0 DISABLED, 1 RUNNING, 2 DRAINING, 3 HALTED (R327). -/
inductive RingState where
  | disabled | running | draining | halted
  deriving DecidableEq, Repr, Inhabited

/-- The register set of one ring (CMDn is ring n, EVTn ring 32 + n, STMn ring 64 + n) (R327). -/
structure Ring where
  /-- `RING.BASE_HI` : `RING.BASE_LO`, 64 bits, bits [11:0] kept at zero -/
  base : BitVec 64
  /-- `RING.LOG2SIZE` -/
  log2 : BitVec 5
  /-- `RING.ENABLE` -/
  enable : Bool
  /-- `RING.HOST_INDEX` -/
  hostIndex : BitVec 32
  /-- `RING.DEVICE_INDEX` -/
  deviceIndex : BitVec 32
  /-- `RING.SEQ` -/
  seq : BitVec 32
  /-- `RING.STATE` -/
  state : RingState
  /-- `RING.MOD_COUNT` -/
  modCount : BitVec 16
  /-- `RING.MOD_TIME`, µs -/
  modTime : BitVec 16
  /-- `RING.LOWATER` -/
  lowater : BitVec 16
  /-- `RING.LOST` -/
  lost : BitVec 32
  deriving DecidableEq, Repr, Inhabited

/-- Ring right after reset, or blank. -/
def Ring.reset : Ring where
  base := 0
  log2 := 0
  enable := false
  hostIndex := 0
  deviceIndex := 0
  seq := 0
  state := .disabled
  modCount := 1
  modTime := 0
  lowater := 0
  lost := 0

/-- A folio: one block of 256 bytes (R333). -/
structure Folio where
  /-- the 256 bytes, first byte at offset 0 -/
  raw : List Byte
  deriving DecidableEq, Repr, Inhabited

/-- Folio right after reset, or blank. -/
def Folio.reset : Folio where
  raw := []

/-- A plate sheet as read from its window (R255). -/
structure PlateSheet where
  /-- HEAD -/
  head : Nat
  /-- MODE: [0] FRAME, [1] CLEAR, [2] PALETTE, [3] DISABLE -/
  mode : BitVec 8
  /-- SEQ -/
  sheetSeq : Nat
  /-- NONCE_A -/
  nonceA : BitVec 64
  /-- NONCE_B -/
  nonceB : BitVec 64
  /-- MEMBER -/
  member : Nat
  /-- PANE -/
  pane : Nat
  /-- BASE, 256-byte units -/
  base : Nat
  /-- PANE_X -/
  px : Nat
  /-- PANE_Y -/
  py : Nat
  /-- PANE_W -/
  pw : Nat
  /-- PANE_H -/
  ph : Nat
  /-- RECT_X -/
  rx : Nat
  /-- RECT_Y -/
  ry : Nat
  /-- RECT_W -/
  rw : Nat
  /-- RECT_H -/
  rh : Nat
  /-- PALETTE, 16 entries -/
  palette : List (BitVec 32)
  /-- PIXELS -/
  pixels : List Byte
  /-- the bytes the two signatures cover -/
  signed : List Byte
  /-- SIG_E, 96 bytes -/
  sigE : List Byte
  /-- SIG_M, 4,627 bytes -/
  sigM : List Byte
  /-- VERSION is 1 and every reserved byte is zero -/
  versionOk : Bool
  /-- PIXLEN -/
  pixLen : Nat
  deriving DecidableEq, Repr, Inhabited

/-- PlateSheet right after reset, or blank. -/
def PlateSheet.reset : PlateSheet where
  head := 0
  mode := 0
  sheetSeq := 0
  nonceA := 0
  nonceB := 0
  member := 0
  pane := 0
  base := 0
  px := 0
  py := 0
  pw := 0
  ph := 0
  rx := 0
  ry := 0
  rw := 0
  rh := 0
  palette := []
  pixels := []
  signed := []
  sigE := []
  sigM := []
  versionOk := false
  pixLen := 0

/-- What a begun folio waits for (R338). -/
inductive Wait where
  | run                                   -- begun: the row of its opcode has not yet been carried out
  | undefinedOp                           -- its opcode is not defined (R345)
  | sync                                  -- SYNC waits for earlier folios of its colour (R346)
  | plateVerify (sheet : PlateSheet)      -- PLATE_UPDATE: SEC verifies the sheet (R258)
  | plateCopy (sheet : PlateSheet)        -- PLATE_UPDATE: verified, firmware copies (R258)
  | plateFrame (sheet : PlateSheet)       -- PLATE_UPDATE with FRAME: waits for vertical blanking (R258)
  | wipe (window : Nat)                   -- WINDOW_UNMAP waits for its region wipe (R351)
  | forward (member : Nat)                -- forwarded, waits for the reply (R335, R458)
  | image (header : List Byte)            -- IMAGE_STAGE: checking and writing (R414)
  | activate                              -- IMAGE_ACTIVATE: load and handover (R414)
  | provision (head : List Byte)          -- PROVISION: SEC checks the bundle, and the twin applies it (R427)
  | ze (engine : Nat)                     -- ZE_RUN: the engine job (R584)
  | mail (box : Nat)                      -- MAIL_SEND waits for delivery (R449)
  | store (result : BitVec 64)            -- waits for a store point switch up (R391)
  | swap                                  -- TWIN_CONTROL SWAP (R478)
  | mirrored                              -- begun on the active part, whose mirror this standby holds (R363)
  deriving DecidableEq, Repr, Inhabited

/-- A folio fetched and not yet begun (R330). -/
structure Fetched where
  /-- its bytes -/
  folio : Folio
  /-- a block of it arrived poisoned (R331) -/
  damaged : Bool
  /-- its place among all folios fetched, on any ring (for SYNC, R346) -/
  order : Nat
  deriving DecidableEq, Repr, Inhabited

/-- Fetched right after reset, or blank. -/
def Fetched.reset : Fetched where
  folio := Folio.reset
  damaged := false
  order := 0

/-- The folio a ring is carrying out (R336). -/
structure Begun where
  /-- its bytes -/
  folio : Folio
  /-- its place among all folios fetched -/
  order : Nat
  /-- the expected SEQUENCE of its slot (CMD_SEQ of R341) -/
  cmdSeq : BitVec 32
  /-- what it waits for -/
  wait : Wait
  /-- forwarded folio: the member it came from (R458) -/
  origin : Option Nat
  /-- forwarded folio: its ring on that member -/
  fwdRing : Nat
  deriving DecidableEq, Repr, Inhabited

/-- Begun right after reset, or blank. -/
def Begun.reset : Begun where
  folio := Folio.reset
  order := 0
  cmdSeq := 0
  wait := .run
  origin := none
  fwdRing := 0

/-- One fence of a flip group (R240). -/
structure Fence where
  /-- WINDOW -/
  window : Nat
  /-- OFFSET -/
  offset : Nat
  /-- TARGET -/
  target : Nat
  deriving DecidableEq, Repr, Inhabited

/-- Fence right after reset, or blank. -/
def Fence.reset : Fence where
  window := 0
  offset := 0
  target := 0

/-- A queued flip group (R240, R242). -/
structure Group where
  /-- colour of its ring -/
  colour : Nat
  /-- the group's number in this model, which the staged changes name -/
  id : Nat
  /-- CMD ring of its FLIP_COMMIT -/
  ring : Nat
  /-- TAG of its FLIP_COMMIT -/
  tag : BitVec 16
  /-- WAIT_SOURCE -/
  waitSource : Bool
  /-- its place in completion order, that of its FLIP_COMMIT -/
  order : Nat
  /-- its fences -/
  fences : List Fence
  /-- own-timer time at which TIMEOUT expires, ns -/
  due : Nat
  /-- the heads it names -/
  heads : List Nat
  /-- the heads it has committed on -/
  doneHeads : List Nat
  /-- those of them whose commit frame has begun -/
  begun : List Nat
  /-- heads whose press image it needs flattened and which are not yet flattened -/
  flattenHeads : List Nat
  /-- heads at whose last latch its conditions other than fences held (R288) -/
  okAtLatch : List Nat
  /-- every fence was at or above its TARGET at the last reading -/
  fencesRead : Bool
  /-- TIMEOUT expired with every fence signalled: commits without its sources (R243) -/
  expired : Bool
  /-- SOURCE_LATE (R248) -/
  sourceLate : Bool
  /-- DEFERRED (R248, R288) -/
  deferred : Bool
  /-- frame counter of the commit frame on the lowest-numbered head -/
  frame : BitVec 32
  /-- device time of active line 0 of that frame -/
  epoch : Nat
  /-- committed on every head or discarded, EV_FLIP not yet posted -/
  committed : Bool
  /-- RESULT of its EV_FLIP -/
  result : Nat
  deriving DecidableEq, Repr, Inhabited

/-- Group right after reset, or blank. -/
def Group.reset : Group where
  colour := 0
  id := 0
  ring := 0
  tag := 0
  waitSource := false
  order := 0
  fences := []
  due := 0
  heads := []
  doneHeads := []
  begun := []
  flattenHeads := []
  okAtLatch := []
  fencesRead := false
  expired := false
  sourceLate := false
  deferred := false
  frame := 0
  epoch := 0
  committed := false
  result := 0

/-- A CMD ring's folios in the device (R330, R336, R238). -/
structure CmdQ where
  /-- folios fetched, oldest first (empty while a ring is DISABLED) -/
  fetched : List Fetched
  /-- the folio being carried out -/
  begun : Option Begun
  /-- number of the open flip group -/
  groupOpen : Option Nat
  /-- the open group is broken (R237) -/
  broken : Bool
  /-- queued groups, oldest first, at most four (R240) -/
  groups : List Group
  /-- the last SEQUENCE completed (LAST_DONE of EV_RESYNC, R343) -/
  lastDone : BitVec 32
  /-- the pair waits for its resync doorbell (R366) -/
  awaitResync : Bool
  /-- folios fetched whose mirror the standby has not acknowledged (R364) -/
  unmirrored : Nat
  deriving DecidableEq, Repr, Inhabited

/-- CmdQ right after reset, or blank. -/
def CmdQ.reset : CmdQ where
  fetched := []
  begun := none
  groupOpen := none
  broken := false
  groups := []
  lastDone := 0
  awaitResync := false
  unmirrored := 0

/-- A record in a holding queue; ESEQ is assigned as it is written (R341, R342). -/
structure Held where
  /-- CODE -/
  code : Nat
  /-- TAG -/
  tag : BitVec 16
  /-- device time of the record -/
  time : Nat
  /-- RING -/
  ring : Nat
  /-- MEMBER -/
  member : Nat
  /-- FLAGS -/
  flags : BitVec 8
  /-- the 16 body bytes -/
  body : List Byte
  /-- it is a completion (holds the reserved completion place) -/
  comp : Bool
  /-- it is the EV_LOST record (holds the second reserved place) -/
  lost : Bool
  /-- acknowledgements of the standby it waits for (R364) -/
  acks : Nat
  /-- its write raises the source regardless of moderation (R348, R575) -/
  irq : Bool
  deriving DecidableEq, Repr, Inhabited

/-- Held right after reset, or blank. -/
def Held.reset : Held where
  code := 0
  tag := 0
  time := 0
  ring := 0
  member := 0
  flags := 0
  body := []
  comp := false
  lost := false
  acks := 0
  irq := false

/-- An event ring's holding queue and moderation (R342, R348, R154). -/
structure EvtQ where
  /-- the holding queue, oldest first: 62 events, one completion, one EV_LOST -/
  hold : List Held
  /-- records written since the last raise -/
  count : Nat
  /-- own-timer time of the first record written after the last raise -/
  firstAt : Option Nat
  /-- wrap mode: false SIGNED, true EXTEND (R147) -/
  extend : Bool
  /-- device time of the last EV_TICK on the ring -/
  lastTick : Option Nat
  /-- mirrored records not yet passed by the consumer index (R365); on a new active part, those that go out again (R367) -/
  acked : List Held
  /-- ring index of the first of them -/
  mirrorBase : BitVec 32
  deriving DecidableEq, Repr, Inhabited

/-- EvtQ right after reset, or blank. -/
def EvtQ.reset : EvtQ where
  hold := []
  count := 0
  firstAt := none
  extend := false
  lastTick := none
  acked := []
  mirrorBase := 0

/-- A stream ring's binding and rate (R347, R141). -/
structure StmQ where
  /-- the open context bound to it -/
  ctx : Option Nat
  /-- bytes × 8,000,000 HOST may fetch now (depth BURST) -/
  tokens : Nat
  /-- own-timer time of the last refill -/
  at_ : Nat
  deriving DecidableEq, Repr, Inhabited

/-- StmQ right after reset, or blank. -/
def StmQ.reset : StmQ where
  ctx := none
  tokens := 0
  at_ := 0

/-- `TOP.RINGMAP` word of one CMD ring (R326, R349). -/
structure RingMapEntry where
  /-- `TOP.RINGMAP` -/
  colour : BitVec 6
  /-- `TOP.RM_URGENT` -/
  urgent : Bool
  /-- `TOP.RM_NETWORK` -/
  network : Bool
  /-- `TOP.RM_CHANNEL` -/
  channel : BitVec 3
  /-- `TOP.RM_VALID` -/
  valid : Bool
  deriving DecidableEq, Repr, Inhabited

/-- RingMapEntry right after reset, or blank. -/
def RingMapEntry.reset : RingMapEntry where
  colour := 0
  urgent := false
  network := false
  channel := 0
  valid := false

/-- One BAR2 window (R349, R350). -/
structure Window where
  /-- `TOP.WIN_MAPPED` -/
  mapped : Bool
  /-- `TOP.WIN_COLOUR` -/
  colour : BitVec 6
  /-- `TOP.WIN_SIZE` -/
  size : BitVec 32
  /-- internal address of its region, 40 bits -/
  base : Nat
  /-- a WINDOW_UNMAP of it waits for its wipe (it serves no host access) -/
  unmapping : Bool
  deriving DecidableEq, Repr, Inhabited

/-- Window right after reset, or blank. -/
def Window.reset : Window where
  mapped := false
  colour := 0
  size := 0
  base := 0
  unmapping := false

/-- One interrupt source register (R348). -/
structure IrqSource where
  /-- VECTOR -/
  vector : BitVec 6
  /-- ENABLE -/
  enable : Bool
  deriving DecidableEq, Repr, Inhabited

/-- IrqSource right after reset, or blank. -/
def IrqSource.reset : IrqSource where
  vector := 0
  enable := false

/-- The interrupt source registers at reset (R348): sources 0–31 name the vector of their own number,
32–95 vector 0 and stay disabled, 96–99 vectors 40–43, 100–103 vectors 44–47, 104 vector 63. -/
def irqReset : List IrqSource :=
  (List.range 105).map fun i =>
    if i < 32 then { vector := BitVec.ofNat 6 i, enable := true }
    else if i < 96 then { vector := 0, enable := false }
    else if i < 104 then { vector := BitVec.ofNat 6 (40 + (i - 96)), enable := true }
    else { vector := 63, enable := true }


/-- One MSI-X table entry (R348, R52). -/
structure MsixVector where
  /-- message address (PCIe Base Specification) -/
  addr : BitVec 64
  /-- message data -/
  data : BitVec 32
  /-- vector mask bit, set at reset as the PCIe Base Specification has it -/
  masked : Bool
  /-- pending bit -/
  pendingBit : Bool
  /-- messages sent so far (the model's observation) -/
  sent : Nat
  deriving DecidableEq, Repr, Inhabited

/-- MsixVector right after reset, or blank. -/
def MsixVector.reset : MsixVector where
  addr := 0
  data := 0
  masked := true
  pendingBit := false
  sent := 0

/-- A record of a channel the peer has not acknowledged (R354). -/
structure ChanRec where
  /-- its ESEQ -/
  eseq : BitVec 32
  /-- its 32 bytes -/
  bytes : List Byte
  /-- own-timer time it was last sent -/
  sentAt : Option Nat
  deriving DecidableEq, Repr, Inhabited

/-- ChanRec right after reset, or blank. -/
def ChanRec.reset : ChanRec where
  eseq := 0
  bytes := []
  sentAt := none

/-- A command-channel session (R352, R353). -/
structure Session where
  /-- SESSION -/
  id : BitVec 32
  /-- K_PD then S_PD -/
  keyPD : List Byte
  /-- K_DP then S_DP -/
  keyDP : List Byte
  /-- highest COUNTER accepted from the peer -/
  rxHigh : Option Nat
  /-- COUNTER values accepted within the last 64 -/
  rxSeen : List Nat
  /-- next device-to-peer COUNTER -/
  txCtr : Nat
  /-- own-timer time it opened -/
  opened : Nat
  /-- own-timer time of the last authenticated datagram -/
  lastRx : Nat
  /-- own-timer time of the last datagram sent -/
  lastTx : Nat
  /-- port of the last authenticated datagram -/
  port : Nat
  /-- its source address -/
  peerIp : BitVec 32
  /-- its source UDP port -/
  peerUdp : Nat
  deriving DecidableEq, Repr, Inhabited

/-- Session right after reset, or blank. -/
def Session.reset : Session where
  id := 0
  keyPD := []
  keyDP := []
  rxHigh := none
  rxSeen := []
  txCtr := 0
  opened := 0
  lastRx := 0
  lastTx := 0
  port := 0
  peerIp := 0
  peerUdp := 0

/-- A network command channel (R352, R354). -/
structure Channel where
  /-- UDP port from the ring map -/
  udp : Nat
  /-- the ports N0–N3 it may use -/
  ports : BitVec 8
  /-- peer IPv4 filter, 0 = any -/
  peerFilter : BitVec 32
  /-- peer ECDSA P-384 public key -/
  peerKey : List Byte
  /-- the live session -/
  session : Option Session
  /-- folios held ahead of a gap by SEQUENCE, at most 64 -/
  held : List (Nat × List Byte)
  /-- records the peer has not acknowledged, at most 4,096 -/
  unacked : List ChanRec
  /-- ESEQ of the next record -/
  nextEseq : BitVec 32
  /-- datagrams dropped and counted (R353) -/
  dropped : Nat
  /-- own-timer times of the HELLOs answered in the last second -/
  helloTimes : List Nat
  deriving DecidableEq, Repr, Inhabited

/-- Channel right after reset, or blank. -/
def Channel.reset : Channel where
  udp := 0
  ports := 0
  peerFilter := 0
  peerKey := []
  session := none
  held := []
  unacked := []
  nextEseq := 0
  dropped := 0
  helloTimes := []

/-- What HOST answers and writes on PCIe (R53, R56, R348). -/
structure Bus where
  /-- the bytes the last host read returned (the model's observation) -/
  reply : List Byte
  /-- bytes the device has written into host memory by DMA, by host address -/
  hostMem : Mem
  deriving DecidableEq, Repr, Inhabited

/-- Bus right after reset, or blank. -/
def Bus.reset : Bus where
  reply := []
  hostMem := []

/-- The HOST island's register state (R324). -/
structure HostIf where
  /-- the 128 ring register sets -/
  rings : List Ring
  /-- CMD0–CMD31, then 16 places for folios forwarded from other members (R458) -/
  cmdq : List CmdQ
  /-- EVT0–EVT31 -/
  evtq : List EvtQ
  /-- STM0–STM63 -/
  stmq : List StmQ
  /-- the BAR2 windows -/
  win : List Window
  /-- the 105 interrupt source registers -/
  irq : List IrqSource
  /-- the MSI-X table and pending bits -/
  msix : List MsixVector
  /-- the network command channels -/
  chan : List Channel
  /-- host-side observation -/
  bus : Bus
  /-- folios fetched so far, on any ring -/
  fetchNo : Nat
  /-- flip groups opened so far -/
  groupNo : Nat
  /-- the SESSION number the next ACCEPT gives -/
  nextSession : BitVec 32
  /-- PERST_N is asserted (low) -/
  perst : Bool
  /-- HOST is training the PCIe link (R612) -/
  linkTraining : Bool
  /-- ring at which the next round-robin dispatch starts (R338) -/
  rrNext : Nat
  /-- urgent ring at which it starts for urgent folios (R338) -/
  rrUrgent : Nat
  deriving DecidableEq, Repr, Inhabited

/-- HostIf right after reset, or blank. -/
def HostIf.reset : HostIf where
  rings := List.replicate 128 Ring.reset
  cmdq := List.replicate 48 CmdQ.reset
  evtq := List.replicate 32 EvtQ.reset
  stmq := List.replicate 64 StmQ.reset
  win := List.replicate 8 Window.reset
  irq := irqReset
  msix := List.replicate 64 MsixVector.reset
  chan := List.replicate 8 Channel.reset
  bus := Bus.reset
  fetchNo := 0
  groupNo := 0
  nextSession := 0
  perst := false
  linkTraining := false
  rrNext := 0
  rrUrgent := 0

end Sys2Proof.Machine
end

