-- ==== Sys2Proof/Machine/StateTop.lean ====
section
/-!
DEFINITION. Top-level registers and time (09_folios_rings.md R349, 03_ingest_time.md): the state the spec gives, as plain data, and its reset values.
A field's docstring says what the spec calls it; INVENTORY.md gives its rule and where its reset value comes from.
-/

namespace Sys2Proof.Machine

/-- The life-cycle states, codes 0–4 (R408, R416). -/
inductive LifeCycle where
  | foundry | develop | field | return | void
  deriving DecidableEq, Repr, Inhabited

/-- Device-time lock states, codes 0–3 (R148). -/
inductive LockState where
  | freerun | acquiring | locked | holdover
  deriving DecidableEq, Repr, Inhabited

/-- Top-level registers of BAR0 (R349). -/
structure Top where
  /-- `TOP.STEP`, the silicon step (R6) -/
  step : BitVec 8
  /-- `TOP.LINE` -/
  line : BitVec 8
  /-- `TOP.BUILD`, set by firmware before READY -/
  build : BitVec 24
  /-- `TOP.READY` -/
  ready : Bool
  /-- `TOP.HANDOVER` -/
  handover : Bool
  /-- `TOP.PAIR`: active core pair, false A, true B -/
  pairB : Bool
  /-- `TOP.GATHER_ID`, the strap sampled at release of device reset -/
  gatherId : BitVec 3
  /-- `TOP.WIPING` -/
  wiping : Bool
  /-- `TOP.REPLAY` -/
  replay : Bool
  /-- `TOP.FAULTS` -/
  faults : BitVec 16
  /-- `TOP.CHANGE` -/
  change : BitVec 6
  /-- `TOP.HFAULTS` -/
  hfaults : BitVec 32
  /-- `TOP.HF_KIND` -/
  hfKind : BitVec 4
  /-- `TOP.HF_WINDOW` -/
  hfWindow : BitVec 3
  /-- `TOP.HF_WRITE` -/
  hfWrite : Bool
  /-- `TOP.HF_OFFSET` -/
  hfOffset : BitVec 32
  /-- `TOP.RINGMAP` … `TOP.RM_VALID`, set before READY -/
  ringMap : List RingMapEntry
  /-- the latched `TIME.HI` -/
  timeHi : BitVec 32
  deriving DecidableEq, Repr, Inhabited

/-- Top right after reset, or blank. -/
def Top.reset : Top where
  step := 0xB0
  line := 3
  build := 0
  ready := false
  handover := false
  pairB := false
  gatherId := 0
  wiping := true
  replay := false
  faults := 0
  change := 0
  hfaults := 0
  hfKind := 0
  hfWindow := 0
  hfWrite := false
  hfOffset := 0
  ringMap := List.replicate 32 RingMapEntry.reset
  timeHi := 0

/-- One port's PTP role (R145, R147). -/
structure PtpPort where
  /-- CONTROL [0] -/
  enable : Bool
  /-- CONTROL [1]: delay mechanism -/
  p2p : Bool
  /-- CONTROL [2]: transport -/
  l2 : Bool
  /-- INGRESS_EXTRA, signed ps -/
  ingressExtra : Int
  /-- EGRESS_EXTRA, signed ps -/
  egressExtra : Int
  /-- ASYMMETRY, signed ps -/
  asymmetry : Int
  /-- IEEE 1588 state code of the port (3 DISABLED at reset) -/
  portState : Nat
  /-- grandmaster named by the last qualified Announce on the port -/
  gm : BitVec 64
  /-- data set of that Announce as the comparison orders it, best first -/
  dataset : List Nat
  /-- own-timer time of that Announce -/
  announceAt : Option Nat
  /-- its Announce interval, log2 s -/
  announceLog : Int
  /-- Announce receipt timeout, intervals, 2 to 10 -/
  receiptTimeout : Nat
  /-- receive stamp less origin time of the last Sync, ns -/
  t21 : Option Int
  /-- transmit stamp of the Delay_Req or Pdelay_Req not yet answered (R144) -/
  sentAt : Option Nat
  /-- mean path delay measured on the port, ns -/
  meanPath : Nat
  deriving DecidableEq, Repr, Inhabited

/-- PtpPort right after reset, or blank. -/
def PtpPort.reset : PtpPort where
  enable := false
  p2p := false
  l2 := false
  ingressExtra := 0
  egressExtra := 0
  asymmetry := 0
  portState := 3
  gm := 0
  dataset := []
  announceAt := none
  announceLog := 0
  receiptTimeout := 3
  t21 := none
  sentAt := none
  meanPath := 0

/-- Device time and its servo (R147, R148, R151). -/
structure TimeBase where
  /-- ns of the part's own timer since device reset (the clock of time-outs, R510) -/
  now : Nat
  /-- device time, ns (64 bits, R151) -/
  dev : Nat
  /-- fraction of a ns that the frequency adjustment has gathered, 10^-9 ns -/
  devRem : Nat
  /-- counter the free values are applied to -/
  freeCtr : Nat
  /-- lock state, `TIME.LOCK` -/
  lock : LockState
  /-- LOCKED since it last left FREERUN -/
  wasLocked : Bool
  /-- the first move into ACQUIRING after reset has happened (R149) -/
  acquired : Bool
  /-- consecutive Syncs within LOCK_LIMIT -/
  okSyncs : Nat
  /-- consecutive Syncs beyond 4 × LOCK_LIMIT -/
  badSyncs : Nat
  /-- DOMAIN -/
  domain : Nat
  /-- event ring for EV_TIME -/
  ring : Option Nat
  /-- STEP_LIMIT, ns -/
  stepLimit : Nat
  /-- LOCK_LIMIT, ns -/
  lockLimit : Nat
  /-- HOLD_MAX, s -/
  holdMax : Nat
  /-- own-timer time HOLDOVER was entered -/
  holdSince : Nat
  /-- ns spent in HOLDOVER since reset -/
  holdNs : Nat
  /-- grandmaster ClockIdentity -/
  gm : BitVec 64
  /-- the slave port -/
  slavePort : Option Nat
  /-- last measured offset, ns -/
  offset : Int
  /-- mean path delay, ns -/
  meanPath : Nat
  /-- frequency adjustment, 0.001 ppm -/
  freqAdj : Int
  /-- currentUtcOffset -/
  utcOffset : Nat
  /-- steps since reset -/
  steps : Nat
  /-- the last signed step, ns -/
  lastStep : Int
  /-- sum of the signed steps since reset, ns -/
  stepSum : Int
  /-- PTP roles of N0–N3 -/
  ptp : List PtpPort
  /-- own-timer time of the last spine time frame (R457) -/
  frameAt : Option Nat
  deriving DecidableEq, Repr, Inhabited

/-- TimeBase right after reset, or blank. -/
def TimeBase.reset : TimeBase where
  now := 0
  dev := 0
  devRem := 0
  freeCtr := 0
  lock := .freerun
  wasLocked := false
  acquired := false
  okSyncs := 0
  badSyncs := 0
  domain := 0
  ring := none
  stepLimit := 1000000
  lockLimit := 100
  holdMax := 3600
  holdSince := 0
  holdNs := 0
  gm := 0
  slavePort := none
  offset := 0
  meanPath := 0
  freqAdj := 0
  utcOffset := 0
  steps := 0
  lastStep := 0
  stepSum := 0
  ptp := List.replicate 4 PtpPort.reset
  frameAt := none

end Sys2Proof.Machine
end

