-- ==== Sys2Proof/Machine/StateNet.lean ====
section
/-!
DEFINITION. Ethernet ports, stream contexts, decoding (02, 03, 04): the state the spec gives, as plain data, and its reset values.
A field's docstring says what the spec calls it; INVENTORY.md gives its rule and where its reset value comes from.
-/

namespace Sys2Proof.Machine

/-- Stream classes: live-urgent, live, review (R122). -/
inductive StreamClass where
  | urgent | live | review
  deriving DecidableEq, Repr, Inhabited

/-- Decode state of a context (R204). -/
inductive DecState where
  | closed | waitRa | decoding | shed
  deriving DecidableEq, Repr, Inhabited

/-- Formats of decoded pictures (R163, R216). -/
inductive PixFmt where
  | nv12 | i420 | p010
  deriving DecidableEq, Repr, Inhabited

/-- What a port sent (R119, R125, R134, R159, R352). -/
inductive NetTxKind where
  | rr | pli | fir | arpRequest | delayReq | pdelayReq | pdelayResp | arpReply | arpGratuitous | igmpReport | launch | accept | chanData | chanClose
  deriving DecidableEq, Repr, Inhabited

/-- A frame or message handed to a port for sending (the model's observation) (R119, R125, R159). -/
structure NetTx where
  /-- what it is -/
  kind : NetTxKind
  /-- the port -/
  port : Nat
  /-- its fields, in the order its rule lists them -/
  info : List Nat
  /-- its content where the rule gives bytes -/
  bytes : List Byte
  /-- device time at which it starts (R159) -/
  at_ : Nat
  /-- VLAN ID it is tagged with (R115) -/
  tag : Option Nat
  /-- IPv4 next hop and its MAC address, for a message to a unicast address (R119) -/
  hop : Option (Nat × BitVec 48)
  /-- SRTCP protection: profile, key slot and SRTCP index (R131) -/
  srtp : Option (Nat × Nat × Nat)
  deriving DecidableEq, Repr, Inhabited

/-- NetTx right after reset, or blank. -/
def NetTx.reset : NetTx where
  kind := .rr
  port := 0
  info := []
  bytes := []
  at_ := 0
  tag := none
  hop := none
  srtp := none

/-- An entry of a launch queue (R157). -/
structure LaunchEntry where
  /-- TAG of the LAUNCH -/
  tag : BitVec 16
  /-- CMD ring of the LAUNCH -/
  cmdRing : Nat
  /-- its colour -/
  colour : Nat
  /-- FLAGS [0] -/
  periodic : Bool
  /-- WINDOW -/
  window : Nat
  /-- OFFSET -/
  offset : Nat
  /-- LENGTH -/
  length : Nat
  /-- device time of the next launch -/
  due : Nat
  /-- PERIOD, ns -/
  period : Nat
  /-- COUNT -/
  count : Nat
  /-- launch index of the next launch -/
  index : Nat
  /-- the frame as NET read it for the next launch (R158) -/
  frame : Option (List Byte)
  /-- a step forwards passed its time (R159) -/
  stepped : Bool
  /-- a block of the frame arrived poisoned -/
  bad : Bool
  /-- place among the entries of its queue -/
  order : Nat
  deriving DecidableEq, Repr, Inhabited

/-- LaunchEntry right after reset, or blank. -/
def LaunchEntry.reset : LaunchEntry where
  tag := 0
  cmdRing := 0
  colour := 0
  periodic := false
  window := 0
  offset := 0
  length := 0
  due := 0
  period := 0
  count := 0
  index := 0
  frame := none
  stepped := false
  bad := false
  order := 0

/-- One Ethernet port (R115, R118). -/
structure NetPort where
  /-- MODE -/
  mode : Nat
  /-- MAXFRAME -/
  maxFrame : Nat
  /-- ADDRESS -/
  address : BitVec 32
  /-- PREFIX length -/
  plen : Nat
  /-- VLAN -/
  vlan : BitVec 16
  /-- GATEWAY -/
  gateway : BitVec 32
  /-- the link is up -/
  link : Bool
  /-- event ring for EV_LINK: that paired with the CMD ring of its last NET_PORT -/
  ring : Option Nat
  /-- MAC address, from MAC_BASE (R117) -/
  mac : BitVec 48
  /-- the standby's IPv4 address (R479) -/
  standbyAddr : BitVec 32
  /-- own-timer time of the last IGMPv2 query heard (R134) -/
  igmpV2 : Option Nat
  /-- next hops resolved: IPv4 address and MAC address (R119) -/
  arp : List (Nat × BitVec 48)
  /-- messages that wait for their next hop to be resolved, oldest first (R119) -/
  waiting : List NetTx
  /-- frames dropped per reason: bad FCS, too long, two or more tags, IPv6 or not IPv4, fragment, unmatched, replay mode, pause -/
  drops : List Nat
  /-- the eight launch queues -/
  queues : List (List LaunchEntry)
  /-- device time until which a launched frame occupies the port -/
  busyUntil : Nat
  /-- check-value unit attached to each launch queue (R576) -/
  cv : List (Option Nat)
  deriving DecidableEq, Repr, Inhabited

/-- NetPort right after reset, or blank. -/
def NetPort.reset : NetPort where
  mode := 0
  maxFrame := 0
  address := 0
  plen := 0
  vlan := 0
  gateway := 0
  link := false
  ring := none
  mac := 0
  standbyAddr := 0
  igmpV2 := none
  arp := []
  waiting := []
  drops := List.replicate 8 0
  queues := List.replicate 8 []
  busyUntil := 0
  cv := List.replicate 8 none

/-- The NET island (R115). -/
structure Net where
  /-- N0–N3 -/
  ports : List NetPort
  /-- what the ports have sent, newest first (the model's observation) -/
  sent : List NetTx
  deriving DecidableEq, Repr, Inhabited

/-- Net right after reset, or blank. -/
def Net.reset : Net where
  ports := List.replicate 4 NetPort.reset
  sent := []

/-- STREAM_OPEN's settings of a context (R122). -/
structure CtxCfg where
  /-- KIND [0] -/
  hostFed : Bool
  /-- KIND [1] -/
  hevc : Bool
  /-- KIND [3:2] -/
  cls : StreamClass
  /-- PORTS -/
  ports : BitVec 8
  /-- STM -/
  stm : Nat
  /-- DST_IP, network order -/
  dstIp : BitVec 32
  /-- SRC_IP -/
  srcIp : BitVec 32
  /-- DST_UDP -/
  dstUdp : Nat
  /-- RTCP_UDP -/
  rtcpUdp : Nat
  /-- VLAN -/
  vlan : BitVec 16
  /-- PT -/
  pt : Nat
  /-- RING -/
  ring : Nat
  /-- SSRC -/
  ssrc : BitVec 32
  /-- FLAGS [0] -/
  ssrcLearn : Bool
  /-- FLAGS [1] -/
  sendRr : Bool
  /-- FLAGS [2] -/
  feedback : Bool
  /-- FLAGS [3] -/
  refclkPtp : Bool
  /-- SRTP -/
  srtp : Nat
  /-- KEY_SLOT -/
  keySlot : Nat
  /-- GM_ID -/
  gmId : BitVec 64
  /-- DOMAIN -/
  domain : Nat
  /-- REORDER, µs -/
  reorder : Nat
  /-- MAX_RATE, kbit/s -/
  maxRate : Nat
  /-- BURST, bytes -/
  burst : Nat
  /-- BUFFER, KiB -/
  buffer : Nat
  /-- SR_WINDOW, ms -/
  srWindow : Nat
  /-- RR_INTERVAL, s -/
  rrInterval : Nat
  deriving DecidableEq, Repr, Inhabited

/-- CtxCfg right after reset, or blank. -/
def CtxCfg.reset : CtxCfg where
  hostFed := false
  hevc := false
  cls := .urgent
  ports := 0
  stm := 0
  dstIp := 0
  srcIp := 0
  dstUdp := 0
  rtcpUdp := 0
  vlan := 0
  pt := 0
  ring := 0
  ssrc := 0
  ssrcLearn := false
  sendRr := false
  feedback := false
  refclkPtp := false
  srtp := 0
  keySlot := 0
  gmId := 0
  domain := 0
  reorder := 0
  maxRate := 0
  burst := 0
  buffer := 0
  srWindow := 0
  rrInterval := 0

/-- A decode declaration (R177, R179). -/
structure Decl where
  /-- OUTPUT -/
  output : PixFmt
  /-- PROFILES -/
  profiles : BitVec 16
  /-- MAX_W -/
  maxW : Nat
  /-- MAX_H -/
  maxH : Nat
  /-- RATE_NUM (R179 gives the default rate through the Level 5.1 sample rate) -/
  rateNum : Nat
  /-- RATE_DEN -/
  rateDen : Nat
  /-- SLICE_LINES -/
  sliceLines : Nat
  /-- MAX_SLICES -/
  maxSlices : Nat
  /-- PRIORITY -/
  priority : Nat
  /-- DPB -/
  dpb : Nat
  /-- POLICY [0] -/
  startAny : Bool
  /-- POLICY [1] -/
  refreshTrust : Bool
  /-- POLICY [2] -/
  skipNonref : Bool
  deriving DecidableEq, Repr, Inhabited

/-- Decl right after reset, or blank. -/
def Decl.reset : Decl where
  output := .nv12
  profiles := 0
  maxW := 4096
  maxH := 2176
  rateNum := 60
  rateDen := 1
  sliceLines := 64
  maxSlices := 34
  priority := 128
  dpb := 16
  startAny := false
  refreshTrust := true
  skipNonref := true

/-- Ingest counters of a context, 32 bits each, saturating (R139). -/
structure CtxCount where
  /-- packets received -/
  received : Nat
  /-- declared lost -/
  lost : Nat
  /-- LATE -/
  late : Nat
  /-- duplicates -/
  dup : Nat
  /-- out of order -/
  ooo : Nat
  /-- RATE -/
  rate : Nat
  /-- NOSPACE -/
  nospace : Nat
  /-- AUTH -/
  auth : Nat
  /-- REPLAY -/
  replay : Nat
  /-- FORMAT -/
  format : Nat
  /-- complete slices -/
  slices : Nat
  /-- sender reports accepted -/
  srOk : Nat
  /-- sender reports rejected -/
  srBad : Nat
  /-- pictures clamped (R78, R105) -/
  clamped : Nat
  deriving DecidableEq, Repr, Inhabited

/-- CtxCount right after reset, or blank. -/
def CtxCount.reset : CtxCount where
  received := 0
  lost := 0
  late := 0
  dup := 0
  ooo := 0
  rate := 0
  nospace := 0
  auth := 0
  replay := 0
  format := 0
  slices := 0
  srOk := 0
  srBad := 0
  clamped := 0

/-- An accepted sender report (R155, R156). -/
structure SenderReport where
  /-- T, device time ns -/
  t : Nat
  /-- RTP timestamp r0 -/
  r0 : BitVec 32
  /-- its port time stamp -/
  stamp : Nat
  /-- middle 32 bits of its NTP-format timestamp, the LSR of receiver reports -/
  ntp : BitVec 32
  deriving DecidableEq, Repr, Inhabited

/-- SenderReport right after reset, or blank. -/
def SenderReport.reset : SenderReport where
  t := 0
  r0 := 0
  stamp := 0
  ntp := 0

/-- A packet awaited (R136). -/
structure Missing where
  /-- its extended sequence number -/
  eseq : Nat
  /-- own-timer time its wait runs out -/
  deadline : Nat
  deriving DecidableEq, Repr, Inhabited

/-- Missing right after reset, or blank. -/
def Missing.reset : Missing where
  eseq := 0
  deadline := 0

/-- A packet NET stored for a context (R47, R136). -/
structure Pkt where
  /-- extended sequence number -/
  eseq : Nat
  /-- RTP timestamp -/
  rtpTime : BitVec 32
  /-- port time stamp (device time) -/
  stamp : Nat
  /-- steps of device time when it was stamped -/
  stepNo : Nat
  /-- its payload holds a slice, or a part of one -/
  slice : Bool
  /-- its payload begins a slice -/
  first : Bool
  /-- its payload ends a slice (R129) -/
  last : Bool
  /-- marker bit: end of an access unit -/
  marker : Bool
  /-- the packet from its RTP header on -/
  bytes : List Byte
  /-- device time was in HOLDOVER when it was stamped -/
  holdover : Bool
  /-- capture times of its context were mapped when it was stamped (R75) -/
  maps : Bool
  /-- a block of it arrived poisoned -/
  poisoned : Bool
  /-- store address of its blocks in the packet buffer (R38) -/
  addr : Nat
  /-- FRESH_SOURCE MODE 1 when it arrived (R101) -/
  force : Bool
  /-- arrival allowance when it arrived, 100 µs units (R101) -/
  allowance : Nat
  /-- holdover limit when it arrived, 100 µs units (R101) -/
  holdLimit : Nat
  deriving DecidableEq, Repr, Inhabited

/-- Pkt right after reset, or blank. -/
def Pkt.reset : Pkt where
  eseq := 0
  rtpTime := 0
  stamp := 0
  stepNo := 0
  slice := true
  first := false
  last := false
  marker := false
  bytes := []
  holdover := false
  maps := false
  poisoned := false
  addr := 0
  force := false
  allowance := 0
  holdLimit := 50000

/-- A slice complete at the port, waiting for header parsing (R129, R168). -/
structure ReadySlice where
  /-- its packets -/
  pkts : List Pkt
  /-- extended sequence number of its first lost packet -/
  lostSeq : Option Nat
  /-- own-timer time it became complete -/
  completeAt : Nat
  /-- it ends its access unit -/
  lastOfPicture : Bool
  /-- its NAL unit, as far as it arrived -/
  nal : List Byte
  deriving DecidableEq, Repr, Inhabited

/-- ReadySlice right after reset, or blank. -/
def ReadySlice.reset : ReadySlice where
  pkts := []
  lostSeq := none
  completeAt := 0
  lastOfPicture := false
  nal := []

/-- A leaf of a decoded picture with its colophon (R62, R65, R71). -/
structure Leaf where
  /-- FLAGS.VALID -/
  valid : Bool
  /-- FLAGS.CONCEALED -/
  concealed : Bool
  /-- FLAGS.REF_CONCEALED -/
  refConcealed : Bool
  /-- DECODED, device time -/
  decoded : Nat
  /-- SIGNATURE -/
  signature : BitVec 32
  /-- active pixels as stored: luma then chroma planes -/
  pixels : List Byte
  /-- a block of it is damaged in the store (reads poisoned) -/
  poisoned : Bool
  /-- its taint-map bit (R193) -/
  taint : Bool
  /-- FLAGS as another member or a journal gave them, kept unchanged (R72) -/
  given : Option (BitVec 16)
  /-- its pixels are final and written, its blocks not yet acknowledged (R46) -/
  ready : Bool
  /-- its blocks are acknowledged: the colophon waits only for the picture's output (R175) -/
  acked : Bool
  deriving DecidableEq, Repr, Inhabited

/-- Leaf right after reset, or blank. -/
def Leaf.reset : Leaf where
  valid := false
  concealed := false
  refConcealed := false
  decoded := 0
  signature := 0
  pixels := []
  poisoned := false
  taint := false
  given := none
  ready := false
  acked := false

/-- An entry of a slice's reference picture lists (R167, R169, R192). -/
structure RefPic where
  /-- order count that the list names -/
  poc : Int
  /-- id of the picture that serves: the reference, or its stand-in; none for a grey stand-in -/
  pic : Option Nat
  /-- the reference is absent and a stand-in serves (R192) -/
  standIn : Bool
  /-- its taint map, top leaf first (R193) -/
  taint : List Bool
  deriving DecidableEq, Repr, Inhabited

/-- RefPic right after reset, or blank. -/
def RefPic.reset : RefPic where
  poc := 0
  pic := none
  standIn := false
  taint := []

/-- A picture of a context in a picture buffer (R62, R68, R176). -/
structure Picture where
  /-- number of the picture in its context (decode order) -/
  id : Nat
  /-- FRAME, once assigned -/
  frame : Option (BitVec 32)
  /-- CAPTURE, device time -/
  capture : Nat
  /-- FLAGS.ARRIVAL_TIMED -/
  arrivalTimed : Bool
  /-- FLAGS.HOLDOVER -/
  holdover : Bool
  /-- FLAGS.CLAMPED -/
  clamped : Bool
  /-- FLAGS.RANDOM_ACCESS -/
  randomAccess : Bool
  /-- picture order count -/
  poc : Int
  /-- port time stamp of its first packet -/
  stamp : Nat
  /-- steps of device time when its first packet was stamped (R80) -/
  stepNo : Nat
  /-- width after cropping -/
  width : Nat
  /-- height after cropping -/
  height : Nat
  /-- stored format -/
  fmt : PixFmt
  /-- matrix_coefficients of its VUI, none without VUI -/
  matrix : Option Nat
  /-- video_full_range_flag -/
  fullRange : Bool
  /-- its leaves, top first -/
  leaves : List Leaf
  /-- a later picture may reference it -/
  isRef : Bool
  /-- the decoding process has output it: VALID may be set (R175) -/
  output : Bool
  /-- place in output order over the life of the context number, once output -/
  ord : Nat
  /-- beyond the declared rate: decoded at class review (R198) -/
  review : Bool
  /-- slices parsed and not yet decoded -/
  slicesLeft : Nat
  /-- slices parsed -/
  slices : Nat
  /-- its last slice has been parsed -/
  lastSlice : Bool
  /-- every slice decoded -/
  decodedAll : Bool
  /-- recovery-point picture of R194: its taint is cleared -/
  recovery : Bool
  /-- the decoding process never outputs it (R175) -/
  hidden : Bool
  /-- coded video sequence it belongs to -/
  cvs : Nat
  /-- reference list 0 of its slice parsed last -/
  list0 : List RefPic
  /-- lines per row of its slice parsed last -/
  rowLines : Nat
  /-- pictures decoded after it that precede it in output order -/
  latency : Nat
  /-- store address of its picture buffer (R38, R176) -/
  base : Nat
  /-- bytes of its picture buffer (R182) -/
  size : Nat
  /-- colour of the context that decoded it (R428) -/
  colour : Nat
  /-- its samples outside the conformance window, by band of 16 lines (R166) -/
  outside : List (Nat × List Byte)
  deriving DecidableEq, Repr, Inhabited

/-- Picture right after reset, or blank. -/
def Picture.reset : Picture where
  id := 0
  frame := none
  capture := 0
  arrivalTimed := false
  holdover := false
  clamped := false
  randomAccess := false
  poc := 0
  stamp := 0
  stepNo := 0
  width := 0
  height := 0
  fmt := .nv12
  matrix := none
  fullRange := false
  leaves := []
  isRef := true
  output := false
  ord := 0
  review := false
  slicesLeft := 0
  slices := 0
  lastSlice := false
  decodedAll := false
  recovery := false
  hidden := false
  cvs := 0
  list0 := []
  rowLines := 16
  latency := 0
  base := 0
  size := 0
  colour := 0
  outside := []

/-- A decode job (R169). -/
structure Job where
  /-- context -/
  ctx : Nat
  /-- picture id -/
  pic : Nat
  /-- class it is served in (R187, R198 may lower it) -/
  cls : StreamClass
  /-- own-timer time of the slice's completion at the port -/
  age : Nat
  /-- own-timer time it was formed -/
  formed : Nat
  /-- first leaf it covers -/
  first : Nat
  /-- leaves it covers -/
  count : Nat
  /-- rows of the slice -/
  rows : Nat
  /-- next row to decode -/
  row : Nat
  /-- lines per row (R172) -/
  rowLines : Nat
  /-- first lost packet of the slice (LOST) -/
  lostSeq : Option Nat
  /-- the whole slice is concealed (PARAMSET) -/
  conceal : Bool
  /-- row at which decoding stopped: the slice is concealed from there (R188) -/
  failRow : Option Nat
  /-- a block of its packet data reads poisoned (R34) -/
  badData : Bool
  /-- reference list 0 -/
  list0 : List RefPic
  /-- reference list 1 -/
  list1 : List RefPic
  /-- rows of each row of tiles of the slice; empty without tiles -/
  tiles : List Nat
  /-- tile columns -/
  cols : Nat
  /-- it ends inside its last row, which the next slice goes on with -/
  partEnd : Bool
  /-- the slice's bottom leaf waits for the next slice (R173 does not hold) -/
  lateEdge : Bool
  /-- own-timer time its first row started -/
  started : Option Nat
  /-- it restarts an interrupted slice (R200) -/
  restarted : Bool
  /-- formed again after a poisoned job (R34) -/
  sentTwice : Bool
  /-- its R170 time so far, ns -/
  budgetNs : Nat
  /-- time its rows took so far, ns -/
  ranNs : Nat
  /-- time it ran before it was last preempted, ns -/
  priorNs : Nat
  /-- its packet blocks: store address and bytes of each packet (R169) -/
  blocks : List (Nat × Nat)
  deriving DecidableEq, Repr, Inhabited

/-- Job right after reset, or blank. -/
def Job.reset : Job where
  ctx := 0
  pic := 0
  cls := .urgent
  age := 0
  formed := 0
  first := 0
  count := 0
  rows := 0
  row := 0
  rowLines := 16
  lostSeq := none
  conceal := false
  failRow := none
  badData := false
  list0 := []
  list1 := []
  tiles := []
  cols := 1
  partEnd := false
  lateEdge := false
  started := none
  restarted := false
  sentTwice := false
  budgetNs := 0
  ranNs := 0
  priorNs := 0
  blocks := []

/-- State of a decode engine (R204). -/
inductive EngState where
  | active | isolated | testing
  deriving DecidableEq, Repr, Inhabited

/-- A decode engine (R183, R204). -/
structure Engine where
  /-- state -/
  st : EngState
  /-- queued jobs of every class, oldest first -/
  jobs : List Job
  /-- the job it is decoding -/
  cur : Option Job
  /-- jobs it has ended, some leaf of which is not acknowledged (R200) -/
  unacked : List Job
  /-- jobs completed -/
  completed : Nat
  /-- preemptions -/
  preemptions : Nat
  /-- slices restarted on it -/
  restarts : Nat
  /-- TIMEOUT count -/
  timeouts : Nat
  /-- isolations since reset -/
  isolations : Nat
  /-- rows of the last second: own-timer end and ns (busy time in the last second) -/
  busy : List (Nat × Nat)
  /-- stays isolated until device reset (R566) -/
  barred : Bool
  deriving DecidableEq, Repr, Inhabited

/-- Engine right after reset, or blank. -/
def Engine.reset : Engine where
  st := .active
  jobs := []
  cur := none
  unacked := []
  completed := 0
  preemptions := 0
  restarts := 0
  timeouts := 0
  isolations := 0
  busy := []
  barred := false

/-- An EV_DECODE that waits for its place in FRAME order (R191). -/
structure DecEvt where
  /-- KIND -/
  kind : Nat
  /-- ENGINE -/
  engine : Nat
  /-- STATE -/
  state : Nat
  /-- id of the affected picture, none where it was not decoded -/
  pic : Option Nat
  /-- place in output order of the next picture, where none was decoded -/
  ord : Nat
  /-- FRAME, where none was decoded -/
  frame : BitVec 32
  /-- FIRST -/
  first : Nat
  /-- LEAVES -/
  leaves : Nat
  /-- DETAIL -/
  detail : Nat
  deriving DecidableEq, Repr, Inhabited

/-- DecEvt right after reset, or blank. -/
def DecEvt.reset : DecEvt where
  kind := 0
  engine := 0
  state := 0
  pic := none
  ord := 0
  frame := 0
  first := 0
  leaves := 0
  detail := 0

/-- A stream context (R122, R139, R177, R204). -/
structure Context where
  /-- it is open -/
  opened : Bool
  /-- it has been opened since device reset -/
  everOpened : Bool
  /-- colour that opened it last -/
  owner : Nat
  /-- its STREAM_OPEN settings -/
  cfg : CtxCfg
  /-- ingest counters -/
  count : CtxCount
  /-- current SSRC -/
  ssrc : Option (BitVec 32)
  /-- a BYE came from the current SSRC -/
  bye : Bool
  /-- highest extended sequence number -/
  highest : Option Nat
  /-- extended sequence numbers received within the newest 128, with the port of the copy (R130, R133) -/
  seen : List (Nat × Nat)
  /-- interarrival jitter × 16, 90 kHz units (RFC 3550) -/
  jitter16 : Nat
  /-- last relative transit time, 90 kHz units -/
  transit : Option Int
  /-- SRTP rollover counter -/
  roc : BitVec 32
  /-- packets awaited (R136) -/
  missing : List Missing
  /-- packets declared lost whose slice is not yet passed on -/
  lostSeqs : List Nat
  /-- packets stored and not yet part of a complete slice -/
  pkts : List Pkt
  /-- complete slices waiting for header parsing -/
  ready : List ReadySlice
  /-- token bucket of each port, bytes × 8,000,000 (R124) -/
  tokens : List Nat
  /-- own-timer time of each bucket's last refill -/
  tokenAt : List Nat
  /-- extended sequence number of the first packet not yet passed on to firmware -/
  passNext : Option Nat
  /-- own-timer time of its last packet -/
  lastPkt : Option Nat
  /-- port time stamp of its last packet -/
  lastStamp : Nat
  /-- the present silence has been reported -/
  silent : Bool
  /-- accepted sender reports, newest first -/
  srs : List SenderReport
  /-- address and port the sender reports came from -/
  srPeer : Option (Nat × Nat)
  /-- last capture timing: some false mapped, some true arrival-timed -/
  timing : Option Bool
  /-- own-timer time of the last receiver report -/
  rrAt : Nat
  /-- REASONS since the last EV_LOSS -/
  intReasons : BitVec 8
  /-- packets lost since the last EV_LOSS -/
  intLost : Nat
  /-- first lost packet since then -/
  intFirst : Nat
  /-- packets dropped since then -/
  intDropped : Nat
  /-- own-timer time of the last EV_LOSS -/
  lossAt : Option Nat
  /-- parameter-set NAL units in force, of STREAM_SPROP and in-band, newest first (R128) -/
  sprop : List (List Byte)
  /-- packets declared lost that have not arrived since (R136) -/
  lostLog : List Nat
  /-- first extended sequence number of the SSRC (RFC 3550) -/
  baseSeq : Option Nat
  /-- packets expected and received at the last receiver report (RFC 3550) -/
  rrPrior : Nat × Nat
  /-- packets of the SSRC received, copies not counted (RFC 3550) -/
  received : Nat
  /-- SRTCP index of the next RTCP message sent (R131) -/
  srtcpIndex : Nat
  /-- host-fed: the NAL unit that the entries fetched have begun and not ended (R140) -/
  tail : List Byte
  /-- host-fed: the entries it lies in, none when none is under way -/
  tailPkts : List Pkt
  /-- host-fed: tag of the access unit under way, in place of an RTP timestamp -/
  auTag : BitVec 32
  /-- host-fed: the skipped entry that held bytes of it -/
  tailLost : Option Nat
  /-- FRESH_SOURCE MODE 1 -/
  forceArrival : Bool
  /-- arrival allowance, 100 µs units (R76) -/
  allowance : Nat
  /-- holdover limit, 100 µs units (R79: 5 s) -/
  holdLimit : Nat
  /-- declaration in force -/
  decl : Decl
  /-- declaration kept for the next STREAM_OPEN, with its colour -/
  kept : Option (Nat × Decl)
  /-- re-admitted declaration, in force from the next random-access picture (R177) -/
  next : Option Decl
  /-- decode state -/
  st : DecState
  /-- home engine -/
  engine : Nat
  /-- FRAME of the next output picture -/
  frameNext : BitVec 32
  /-- id of the next picture -/
  picNext : Nat
  /-- pictures in its buffers, newest first -/
  pics : List Picture
  /-- pictures decoded -/
  decoded : Nat
  /-- slices decoded -/
  slicesDec : Nat
  /-- slices with any concealment -/
  slicesConc : Nat
  /-- pictures skipped or discarded -/
  skipped : Nat
  /-- leaves carrying CONCEALED -/
  leavesConc : Nat
  /-- leaves carrying REF_CONCEALED -/
  leavesRef : Nat
  /-- FRAME of the newest decoded picture -/
  newestFrame : BitVec 32
  /-- longest slice time, ns -/
  longSlice : Nat
  /-- longest engine wait, ns -/
  longWait : Nat
  /-- error counts by kind -/
  errs : List Nat
  /-- (kind, picture id) of EV_DECODE already posted for the newest pictures -/
  posted : List (Nat × Nat)
  /-- EV_DECODEs that wait for their place in FRAME order, oldest first (R191) -/
  held : List DecEvt
  /-- id of the newest decoded picture -/
  newestPic : Option Nat
  /-- id of the first picture since the context opened -/
  firstPic : Nat
  /-- bytes of picture buffers from before the context opened, counted while a layer selects one of their pictures (R203) -/
  oldBuffers : Nat
  /-- coded video sequences so far -/
  cvs : Nat
  /-- own-timer time of the last PLI -/
  pliAt : Option Nat
  /-- own-timer time the next FIR falls due (R195) -/
  firAt : Option Nat
  /-- skipping unreferenced pictures (R197) -/
  skipping : Bool
  /-- discarding up to the next random-access picture -/
  discarding : Bool
  /-- the last picture had a tainted leaf -/
  tainted : Bool
  /-- a picture has been decoded since the last wait began -/
  startedRa : Bool
  /-- the DEC_STATE block as it stood at STREAM_CLOSE (R139) -/
  closedBlock : List Byte
  /-- device time of STREAM_CLOSE (R139) -/
  closedDev : Nat
  /-- why it waits: 0 open or SSRC change, 4 UNSUPPORTED, 5 LIMIT, 9 BEHIND, 13 SHED -/
  waitWhy : Nat
  /-- content tag of the SPS last active -/
  sps : Option Nat
  /-- CROSSING posted for this SPS activation -/
  crossed : Bool
  /-- REORDER posted for this SPS activation -/
  reordered : Bool
  /-- own-timer time of the last LIMIT for excess rate (R198) -/
  limitAt : Option Nat
  /-- own-timer times of the pictures of the last 1 s (R198) -/
  rateTimes : List Nat
  /-- members that receive its leaves (R459) -/
  share : BitVec 8
  /-- id of the first picture sent to each member (R460) -/
  shareFrom : List Nat
  /-- leaves sent and not acknowledged: member, FRAME, leaf (R462) -/
  unackedLeaves : List (Nat × Nat × Nat)
  /-- slices of the picture being parsed are not decoded -/
  dropping : Bool
  /-- earlier slices of the picture being parsed could not be parsed (PARAMSET) -/
  unparsed : Bool
  /-- next leaf of the picture being parsed -/
  nextLeaf : Nat
  /-- first lost packet of slices wholly lost before the next slice -/
  lostGap : Option Nat
  /-- engine of the picture being parsed -/
  picEngine : Nat
  /-- id of the picture being parsed -/
  mid : Option Nat
  /-- place in output order of the next picture -/
  ordNext : Nat
  /-- RTP timestamp of the picture whose slices arrive (R107) -/
  planRtp : Option (BitVec 32)
  /-- port time stamp of its first packet -/
  planFirst : Nat
  /-- its slices so far -/
  planNo : Nat
  /-- steps of device time that the newest output picture was stamped after (R80) -/
  stepSeen : Nat
  /-- FRAME of the first picture stamped after the last step (R80) -/
  stepFrame : Option (BitVec 32)
  /-- own-timer time since which a standby waits for a random-access picture (R472) -/
  coldWait : Option Nat
  deriving DecidableEq, Repr, Inhabited

/-- Context right after reset, or blank. -/
def Context.reset : Context where
  opened := false
  everOpened := false
  owner := 0
  cfg := CtxCfg.reset
  count := CtxCount.reset
  ssrc := none
  bye := false
  highest := none
  seen := []
  jitter16 := 0
  transit := none
  roc := 0
  missing := []
  lostSeqs := []
  pkts := []
  ready := []
  tokens := List.replicate 4 0
  tokenAt := List.replicate 4 0
  passNext := none
  lastPkt := none
  lastStamp := 0
  silent := false
  srs := []
  srPeer := none
  timing := none
  rrAt := 0
  intReasons := 0
  intLost := 0
  intFirst := 0
  intDropped := 0
  lossAt := none
  sprop := []
  lostLog := []
  baseSeq := none
  rrPrior := (0, 0)
  received := 0
  srtcpIndex := 0
  tail := []
  tailPkts := []
  auTag := 0
  tailLost := none
  forceArrival := false
  allowance := 0
  holdLimit := 50000
  decl := Decl.reset
  kept := none
  next := none
  st := .closed
  engine := 0
  frameNext := 0
  picNext := 0
  pics := []
  decoded := 0
  slicesDec := 0
  slicesConc := 0
  skipped := 0
  leavesConc := 0
  leavesRef := 0
  newestFrame := 0
  longSlice := 0
  longWait := 0
  errs := List.replicate 14 0
  posted := []
  held := []
  newestPic := none
  firstPic := 0
  oldBuffers := 0
  cvs := 0
  pliAt := none
  firAt := none
  skipping := false
  discarding := false
  tainted := false
  startedRa := false
  closedBlock := []
  closedDev := 0
  waitWhy := 0
  sps := none
  crossed := false
  reordered := false
  limitAt := none
  rateTimes := []
  share := 0
  shareFrom := List.replicate 8 0
  unackedLeaves := []
  dropping := false
  unparsed := false
  nextLeaf := 0
  lostGap := none
  picEngine := 0
  mid := none
  ordNext := 0
  planRtp := none
  planFirst := 0
  planNo := 0
  stepSeen := 0
  stepFrame := none
  coldWait := none

/-- Stream contexts and decode engines (R163). -/
structure Dec where
  /-- S0–S63 -/
  ctx : List Context
  /-- DE0–DE7 -/
  de : List Engine
  deriving DecidableEq, Repr, Inhabited

/-- Dec right after reset, or blank. -/
def Dec.reset : Dec where
  ctx := List.replicate 64 Context.reset
  de := List.replicate 8 Engine.reset

end Sys2Proof.Machine
end

