-- ==== Sys2Proof/Machine/StateComp.lean ====
section
/-!
DEFINITION. Layers, heads, ports, flips, plate, press cache (02, 05, 06, 07): the state the spec gives, as plain data, and its reset values.
A field's docstring says what the spec calls it; INVENTORY.md gives its rule and where its reset value comes from.
-/

namespace Sys2Proof.Machine

/-- Layer states (R206). -/
inductive LayerState where
  | free | idle | active | held
  deriving DecidableEq, Repr, Inhabited

/-- LAYER_SET's settings of a layer (R213). -/
structure LayerCfg where
  /-- HEAD, none for 0xFF -/
  head : Option Nat
  /-- Z -/
  z : Nat
  /-- FLAGS [0] PAIR -/
  pair : Bool
  /-- FLAGS [1] STATIC -/
  static : Bool
  /-- FLAGS [2] KEY -/
  key : Bool
  /-- FLAGS [3] PIXEL_ALPHA -/
  pixelAlpha : Bool
  /-- FLAGS [4] PREMULT -/
  premult : Bool
  /-- CONTEXT -/
  context : Nat
  /-- FORMAT -/
  format : Nat
  /-- WINDOW -/
  window : Nat
  /-- MATRIX -/
  matrix : Nat
  /-- HFILTER -/
  hfilter : Nat
  /-- VFILTER -/
  vfilter : Nat
  /-- ALPHA -/
  alpha : Nat
  /-- SRC_MEMBER -/
  srcMember : Nat
  /-- SRC_X -/
  srcX : Nat
  /-- SRC_Y -/
  srcY : Nat
  /-- SRC_W -/
  srcW : Nat
  /-- SRC_H -/
  srcH : Nat
  /-- DST_X -/
  dstX : Int
  /-- DST_Y -/
  dstY : Int
  /-- DST_W -/
  dstW : Nat
  /-- DST_H -/
  dstH : Nat
  /-- PLANE0 -/
  plane0 : Nat
  /-- PLANE1 -/
  plane1 : Nat
  /-- PLANE2 -/
  plane2 : Nat
  /-- PITCH0 -/
  pitch0 : Nat
  /-- PITCH1 -/
  pitch1 : Nat
  /-- SURF_W -/
  surfW : Nat
  /-- SURF_H -/
  surfH : Nat
  /-- KEY_MIN -/
  keyMin : BitVec 32
  /-- KEY_MAX -/
  keyMax : BitVec 32
  /-- RING -/
  ring : Nat
  deriving DecidableEq, Repr, Inhabited

/-- LayerCfg right after reset, or blank. -/
def LayerCfg.reset : LayerCfg where
  head := none
  z := 0
  pair := false
  static := false
  key := false
  pixelAlpha := false
  premult := false
  context := 0
  format := 0
  window := 0
  matrix := 0
  hfilter := 0
  vfilter := 0
  alpha := 0
  srcMember := 0
  srcX := 0
  srcY := 0
  srcW := 16
  srcH := 16
  dstX := 0
  dstY := 0
  dstW := 16
  dstH := 16
  plane0 := 0
  plane1 := 0
  plane2 := 0
  pitch0 := 0
  pitch1 := 0
  surfW := 16
  surfH := 16
  keyMin := 0
  keyMax := 0
  ring := 0

/-- FRESH_LAYER's settings of a video layer (R102). -/
structure FreshCfg where
  /-- MARK_CONCEALED -/
  markConcealed : Bool
  /-- MARK_REF_CONCEALED -/
  markRefConcealed : Bool
  /-- MARK_ARRIVAL -/
  markArrival : Bool
  /-- MARK_HOLDOVER -/
  markHoldover : Bool
  /-- MARK_FROZEN -/
  markFrozen : Bool
  /-- RACE -/
  race : Bool
  /-- OPAQUE -/
  opaque_ : Bool
  /-- BUDGET, 100 µs units -/
  budget : Nat
  /-- DECKLE pixel colour -/
  deckle : BitVec 24
  /-- FILL pixel colour -/
  fill : BitVec 24
  /-- OPACITY -/
  opacity : Nat
  /-- HATCH -/
  hatch : Nat
  /-- FREEZE_N -/
  freezeN : Nat
  /-- WIN_X -/
  winX : Nat
  /-- WIN_Y -/
  winY : Nat
  /-- WIN_W -/
  winW : Nat
  /-- WIN_H -/
  winH : Nat
  /-- INTERVAL, ms -/
  interval : Nat
  deriving DecidableEq, Repr, Inhabited

/-- FreshCfg right after reset, or blank. -/
def FreshCfg.reset : FreshCfg where
  markConcealed := true
  markRefConcealed := true
  markArrival := false
  markHoldover := false
  markFrozen := true
  race := true
  opaque_ := false
  budget := 1000
  deckle := 0xFF00FF
  fill := 0
  opacity := 128
  hatch := 2
  freezeN := 30
  winX := 0
  winY := 0
  winW := 0
  winH := 0
  interval := 1000

/-- Freeze-detector states (R96, R105). -/
inductive DetState where
  | off | watching | frozen | suspended
  deriving DecidableEq, Repr, Inhabited

/-- The picture a layer has selected (R81, R105). -/
structure SelPic where
  /-- decoding member -/
  member : Nat
  /-- context -/
  context : Nat
  /-- picture id on this part -/
  pic : Nat
  /-- FRAME -/
  frame : BitVec 32
  /-- SOURCE (R66) -/
  source : BitVec 16
  /-- CAPTURE -/
  capture : Nat
  deriving DecidableEq, Repr, Inhabited

/-- SelPic right after reset, or blank. -/
def SelPic.reset : SelPic where
  member := 0
  context := 0
  pic := 0
  frame := 0
  source := 0
  capture := 0

/-- What a head found about a leaf of the frame being scanned (R86). -/
structure LeafCheck where
  /-- leaf index -/
  leaf : Nat
  /-- fetched good at its fetch instant -/
  fetched : Bool
  /-- NOT_READY (R82) -/
  notReady : Bool
  /-- POISONED -/
  poisoned : Bool
  /-- reasons of R86 it failed for, once scanned -/
  reasons : BitVec 9
  /-- its scan time has passed -/
  checked : Bool
  /-- its age and span at that time, µs (R83) -/
  worst : Nat
  deriving DecidableEq, Repr, Inhabited

/-- LeafCheck right after reset, or blank. -/
def LeafCheck.reset : LeafCheck where
  leaf := 0
  fetched := false
  notReady := false
  poisoned := false
  reasons := 0
  checked := false
  worst := 0

/-- Rate limit of one kind of event (R234). -/
structure EvLim where
  /-- own-timer time of the last event of the kind -/
  last : Option Nat
  /-- occurrences since then -/
  count : Nat
  deriving DecidableEq, Repr, Inhabited

/-- EvLim right after reset, or blank. -/
def EvLim.reset : EvLim where
  last := none
  count := 0

/-- A layer in force on a head, with the matrix and banks it uses there (R211, R221, R227). -/
structure Shown where
  /-- the layer's index, VLi at i and GLi at 64 + i -/
  index : Nat
  /-- its configuration on the head -/
  cfg : LayerCfg
  /-- its freshness settings on the head -/
  fresh : FreshCfg
  /-- user-matrix content it uses there -/
  matrix : List Int
  /-- horizontal coefficients it uses there -/
  hBank : List Int
  /-- vertical coefficients it uses there -/
  vBank : List Int
  deriving DecidableEq, Repr, Inhabited

/-- Shown right after reset, or blank. -/
def Shown.reset : Shown where
  index := 0
  cfg := LayerCfg.reset
  fresh := FreshCfg.reset
  matrix := []
  hBank := []
  vBank := []

/-- A graphic band of a frame, as COMP fetched it (R293). -/
structure Band where
  /-- its output leaf -/
  band : Nat
  /-- it arrived in time and was not refused -/
  delivered : Bool
  /-- its pixels, line by line: alpha and three components (R216, R217) -/
  px : List (List (Nat × Nat × Nat × Nat))
  deriving DecidableEq, Repr, Inhabited

/-- Band right after reset, or blank. -/
def Band.reset : Band where
  band := 0
  delivered := false
  px := []

/-- A layer in a frame of a head (R81, R211). -/
structure Scan where
  /-- its configuration for the frame -/
  shown : Shown
  /-- picture selected at its pick point -/
  sel : Option SelPic
  /-- its pick point has passed -/
  picked : Bool
  /-- checks of its leaves -/
  checks : List LeafCheck
  /-- its graphic bands -/
  bands : List Band
  /-- signature of its watch window, once the frame has been scanned (R94) -/
  sig : Option (BitVec 32)
  deriving DecidableEq, Repr, Inhabited

/-- Scan right after reset, or blank. -/
def Scan.reset : Scan where
  shown := Shown.reset
  sel := none
  picked := false
  checks := []
  bands := []
  sig := none

/-- A layer, VLi at index i and GLi at index 64 + i (R206, R236). -/
structure Layer where
  /-- state -/
  st : LayerState
  /-- owning colour while not FREE -/
  owner : Nat
  /-- configuration in force -/
  cfg : LayerCfg
  /-- HELD: the holder; holder: its partner's index -/
  partner : Option Nat
  /-- freshness settings in force -/
  fresh : FreshCfg
  /-- selected picture, none until a picture of the source in force has qualified (R114) -/
  sel : Option SelPic
  /-- REASONS of the last frame (R105) -/
  reasons : BitVec 9
  /-- WORST of the last frame, µs -/
  worst : Nat
  /-- frames with any failing leaf since configuration -/
  failFrames : Nat
  /-- its most recent frame had a failing leaf (R99, R508) -/
  failing : Bool
  /-- own-timer time of the last EV_STALE -/
  staleAt : Option Nat
  /-- freeze-detector state -/
  det : DetState
  /-- freeze run length -/
  run_ : Nat
  /-- last window signature -/
  lastSig : BitVec 32
  /-- FRAME of the last picture counted -/
  lastCounted : Option (BitVec 32)
  /-- frames fetched -/
  framesFetched : Nat
  /-- LATE bands -/
  lateBands : Nat
  /-- FAULT bands -/
  faultBands : Nat
  /-- SHORT frames -/
  shortFrames : Nat
  /-- conversion code AUTO resolved to last; 0: none yet -/
  resolved : Nat
  /-- EV_LAYER limits by kind -/
  ev : List EvLim
  deriving DecidableEq, Repr, Inhabited

/-- Layer right after reset, or blank. -/
def Layer.reset : Layer where
  st := .free
  owner := 0
  cfg := LayerCfg.reset
  partner := none
  fresh := FreshCfg.reset
  sel := none
  reasons := 0
  worst := 0
  failFrames := 0
  failing := false
  staleAt := none
  det := .watching
  run_ := 0
  lastSig := 0
  lastCounted := none
  framesFetched := 0
  lateBands := 0
  faultBands := 0
  shortFrames := 0
  resolved := 0
  ev := List.replicate 4 EvLim.reset

/-- A user colour-matrix slot (R227). -/
structure MatrixSlot where
  /-- colour that first wrote it -/
  owner : Option Nat
  /-- nine m_kj, three pre, three post -/
  coef : List Int
  deriving DecidableEq, Repr, Inhabited

/-- MatrixSlot right after reset, or blank. -/
def MatrixSlot.reset : MatrixSlot where
  owner := none
  coef := []

/-- A scaler coefficient bank (R221). -/
structure Bank where
  /-- colour that first loaded it -/
  owner : Option Nat
  /-- 64 phases of 8 weights -/
  hcoef : List Int
  /-- 64 phases of 6 weights -/
  vcoef : List Int
  deriving DecidableEq, Repr, Inhabited

/-- Bank right after reset, or blank. -/
def Bank.reset : Bank where
  owner := none
  hcoef := []
  vcoef := []

/-- HEAD_TIMING's settings (R277). -/
structure Timing where
  /-- PORT, none for 0xFF -/
  port : Option Nat
  /-- STREAM place -/
  stream : Nat
  /-- MST_PORT -/
  mstPort : Nat
  /-- PCLK, kHz -/
  pclk : Nat
  /-- H_ACTIVE -/
  hActive : Nat
  /-- H_FRONT -/
  hFront : Nat
  /-- H_SYNC -/
  hSync : Nat
  /-- H_BACK -/
  hBack : Nat
  /-- V_ACTIVE -/
  vActive : Nat
  /-- V_FRONT -/
  vFront : Nat
  /-- V_SYNC -/
  vSync : Nat
  /-- V_BACK -/
  vBack : Nat
  /-- FLAGS [0] HSYNC positive -/
  hPos : Bool
  /-- FLAGS [1] VSYNC positive -/
  vPos : Bool
  /-- FLAGS [2] DEPTH: 10 bits -/
  deep : Bool
  /-- FLAGS [3] LIMITED -/
  limited : Bool
  /-- FLAGS [4] COMMIT_EVENTS -/
  commitEvents : Bool
  /-- RING -/
  ring : Nat
  /-- FRAME_EVENTS -/
  frameEvents : Nat
  deriving DecidableEq, Repr, Inhabited

/-- Timing right after reset, or blank. -/
def Timing.reset : Timing where
  port := none
  stream := 0
  mstPort := 0
  pclk := 0
  hActive := 0
  hFront := 0
  hSync := 0
  hBack := 0
  vActive := 0
  vFront := 0
  vSync := 0
  vBack := 0
  hPos := false
  vPos := false
  deep := false
  limited := false
  commitEvents := false
  ring := 0
  frameEvents := 0

/-- A completed layer or head folio that has not yet taken effect (R211, R212). -/
inductive Change where
  | layer (index : Nat) (cfg : LayerCfg) (paired : Bool)   -- LAYER_SET; it joins its pair partner's scaler (R222)
  | release (index : Nat) (free : Bool)          -- LAYER_RELEASE
  | fresh (index : Nat) (cfg : FreshCfg)         -- FRESH_LAYER
  | blend (head : Nat) (mode : Nat) (background : BitVec 24)   -- HEAD_BLEND
  | press (head : Nat)                           -- PRESS_TOUCH
  | stop (head : Nat)                            -- HEAD_STOP
  | timing (head : Nat) (cfg : Timing)           -- HEAD_TIMING
  | matrix (slot : Nat)                          -- COLOUR_MATRIX: new slot content reaches each head at its window
  | bank (bank : Nat)                            -- SCALER_COEF: likewise
  deriving DecidableEq, Repr, Inhabited

/-- One entry of the pending configuration, in completion order (R211, R212). -/
structure Pend where
  /-- CMD ring -/
  ring : Nat
  /-- TAG -/
  tag : BitVec 16
  /-- SEQUENCE -/
  seq : BitVec 32
  /-- colour -/
  colour : Nat
  /-- own-timer time of its completion -/
  at_ : Nat
  /-- its place in completion order -/
  order : Nat
  /-- the flip group it is staged in -/
  group : Option Nat
  /-- the change -/
  change : Change
  /-- heads it still has to take effect on -/
  heads : List Nat
  /-- the head at whose window the layer's own state changes -/
  target : Option Nat
  /-- heads whose window was open when it completed (R287) -/
  deferred : List Nat
  /-- heads whose press image is still to be flattened for it (R264) -/
  flat : List Nat
  deriving DecidableEq, Repr, Inhabited

/-- Pend right after reset, or blank. -/
def Pend.reset : Pend where
  ring := 0
  tag := 0
  seq := 0
  colour := 0
  at_ := 0
  order := 0
  group := none
  change := .press 0
  heads := []
  target := none
  deferred := []
  flat := []

/-- Head states (R283). -/
inductive HeadSt where
  | off | starting | running | changing
  deriving DecidableEq, Repr, Inhabited

/-- Plan states (R105, R109). -/
inductive PlanSt where
  | off | learning | slewing | planned | unplannable
  deriving DecidableEq, Repr, Inhabited

/-- Signature-log states (R105). -/
inductive LogSt where
  | off | logging | stopped
  deriving DecidableEq, Repr, Inhabited

/-- A head's phase plan (R103, R107). -/
structure Plan where
  /-- plan state -/
  st : PlanSt
  /-- method JUMP -/
  jump : Bool
  /-- LEARN -/
  learn : Nat
  /-- anchor contexts -/
  anchors : List Nat
  /-- MARGIN, µs -/
  margin : Nat
  /-- learnt per anchor and slice: context, slice number, e_k, l_k, first leaf -/
  slices : List (Nat × Nat × Int × Int × Nat)
  /-- learning: anchor context, pictures recorded, CAPTURE of the last -/
  seen : List (Nat × Nat × Nat)
  /-- planned worst added latency, µs -/
  latency : Nat
  /-- epoch offset from the plan's reference, ns -/
  epochOff : Int
  /-- the planned epoch (device time) -/
  target : Nat
  /-- own-timer times of plan misses in the last 10 s -/
  misses : List Nat
  /-- the head keeps the epoch of a plan it accepted (R107, R109) -/
  held : Bool
  deriving DecidableEq, Repr, Inhabited

/-- Plan right after reset, or blank. -/
def Plan.reset : Plan where
  st := .off
  jump := false
  learn := 120
  anchors := []
  margin := 100
  slices := []
  seen := []
  latency := 0
  epochOff := 0
  target := 0
  misses := []
  held := false

/-- A head's signature log (R98, R103). -/
structure SigLog where
  /-- log state -/
  st : LogSt
  /-- BAR2 window -/
  window : Nat
  /-- LOG_OFFSET -/
  offset : Nat
  /-- LOG_BLOCKS -/
  blocks : Nat
  /-- record size in use, blocks -/
  recSize : Nat
  /-- output leaves of a record in use -/
  leaves : Nat
  /-- number of the next record in the region -/
  next : Nat
  deriving DecidableEq, Repr, Inhabited

/-- SigLog right after reset, or blank. -/
def SigLog.reset : SigLog where
  st := .off
  window := 0
  offset := 0
  blocks := 0
  recSize := 0
  leaves := 0
  next := 0

/-- A head's genlock (R161, R162). -/
structure Genlock where
  /-- MODE: 0 free-running -/
  mode : Nat
  /-- NUM -/
  num : Nat
  /-- DEN -/
  den : Nat
  /-- OFFSET, ns -/
  offset : Nat
  /-- LOCKED -/
  locked : Bool
  deriving DecidableEq, Repr, Inhabited

/-- Genlock right after reset, or blank. -/
def Genlock.reset : Genlock where
  mode := 0
  num := 0
  den := 1
  offset := 0
  locked := false

/-- What took effect on a head for the coming frame, per ring (R290). -/
structure CommitRec where
  /-- CMD ring -/
  ring : Nat
  /-- COUNT -/
  count : Nat
  /-- LAST_SEQ -/
  lastSeq : BitVec 32
  /-- TAG of that folio -/
  tag : BitVec 16
  /-- DEFERRED -/
  deferred : Bool
  /-- TIMING -/
  timing : Bool
  deriving DecidableEq, Repr, Inhabited

/-- CommitRec right after reset, or blank. -/
def CommitRec.reset : CommitRec where
  ring := 0
  count := 0
  lastSeq := 0
  tag := 0
  deferred := false
  timing := false

/-- A head's press image (R261, R263). -/
structure Press where
  /-- an image has been flattened -/
  valid : Bool
  /-- bounding rectangle: x, y, width, height -/
  rect : Nat × Nat × Nat × Nat
  /-- the image scanned, ARGB8888 -/
  image : List (BitVec 32)
  /-- rectangle being flattened -/
  nextRect : Nat × Nat × Nat × Nat
  /-- the image flattened and not yet shown -/
  nextImage : List (BitVec 32)
  /-- it is ready -/
  nextReady : Bool
  /-- COMP is flattening it -/
  busy : Bool
  /-- place in completion order of the folio or group it is flattened for -/
  forOrder : Option Nat
  deriving DecidableEq, Repr, Inhabited

/-- Press right after reset, or blank. -/
def Press.reset : Press where
  valid := false
  rect := (0, 0, 0, 0)
  image := []
  nextRect := (0, 0, 0, 0)
  nextImage := []
  nextReady := false
  busy := false
  forOrder := none

/-- What a head scans a frame with (R229, R261, R277). -/
structure FrameSet where
  /-- stacking mode -/
  mode : Nat
  /-- background -/
  background : BitVec 24
  /-- timing -/
  timing : Timing
  /-- rectangle of the press image shown -/
  pressRect : Nat × Nat × Nat × Nat
  /-- the press image shown -/
  pressImage : List (BitVec 32)
  deriving DecidableEq, Repr, Inhabited

/-- FrameSet right after reset, or blank. -/
def FrameSet.reset : FrameSet where
  mode := 0
  background := 0
  timing := Timing.reset
  pressRect := (0, 0, 0, 0)
  pressImage := []

/-- A head (R283, R298). -/
structure Head where
  /-- state -/
  st : HeadSt
  /-- owning colour -/
  owner : Option Nat
  /-- guest mask -/
  guests : BitVec 64
  /-- timing in force -/
  timing : Timing
  /-- head frame counter (0 before the first frame) -/
  frame : BitVec 32
  /-- E_f of the current frame, device time -/
  epoch : Nat
  /-- device time of the last latch -/
  latchAt : Nat
  /-- a commit window is open -/
  windowOpen : Bool
  /-- stacking MODE: 0 FIXED -/
  mode : Nat
  /-- BACKGROUND -/
  background : BitVec 24
  /-- genlock -/
  genlock : Genlock
  /-- phase plan -/
  plan : Plan
  /-- signature log -/
  log : SigLog
  /-- event ring for freshness events -/
  freshRing : Option Nat
  /-- folios and groups deferred -/
  deferredCount : Nat
  /-- frames scanned without output on the lane -/
  noOutput : Nat
  /-- pixel-clock trim, 0.001 ppm -/
  trim : Int
  /-- commits of the coming frame (EV_COMMIT) -/
  commits : List CommitRec
  /-- frames until the next EV_FRAME -/
  evLeft : Nat
  /-- output signatures of the frame being scanned -/
  outSigs : List (BitVec 32)
  /-- output leaves of that frame holding any deckle -/
  failedLeaves : Nat
  /-- output signatures of the last complete frame -/
  lastSigs : List (BitVec 32)
  /-- failing output leaves of the last complete frame -/
  lastFailed : Nat
  /-- this frame's blanking was lengthened -/
  lengthened : Bool
  /-- the frame reaches the lane -/
  output : Bool
  /-- payload held -/
  payload : Bool
  /-- time slots held -/
  slots : Nat
  /-- a HEAD_STOP has completed and not taken effect -/
  stopping : Bool
  /-- press image -/
  press : Press
  /-- its island is isolated -/
  isolated : Bool
  /-- the VPLL that feeds its synthesiser, 0–3 (R527) -/
  vpll : Nat
  /-- the layers in force on it -/
  on_ : List Shown
  /-- the layers of the frame being scanned -/
  cur : List Scan
  /-- the layers picked for the coming frame -/
  next : List Scan
  /-- the settings of the frame being scanned -/
  set_ : FrameSet
  /-- output leaf whose plate lines have been read (R258) -/
  plateLeaf : Option Nat
  /-- HEAD_STOP has taken effect; the frame in progress is its last (R282) -/
  ending : Bool
  /-- lines by which this frame's blanking is lengthened (R108, R162) -/
  lengthen : Nat
  /-- a sheet was first shown in this frame (R315) -/
  plateShown : Bool
  /-- EV_LAYER records of the coming frame, behind those of the frame being scanned: ring and body (R234) -/
  later : List (Nat × List Byte)
  deriving DecidableEq, Repr, Inhabited

/-- Head right after reset, or blank. -/
def Head.reset : Head where
  st := .off
  owner := none
  guests := 0
  timing := Timing.reset
  frame := 0
  epoch := 0
  latchAt := 0
  windowOpen := false
  mode := 0
  background := 0
  genlock := Genlock.reset
  plan := Plan.reset
  log := SigLog.reset
  freshRing := none
  deferredCount := 0
  noOutput := 0
  trim := 0
  commits := []
  evLeft := 0
  outSigs := []
  failedLeaves := 0
  lastSigs := []
  lastFailed := 0
  lengthened := false
  output := false
  payload := false
  slots := 0
  stopping := false
  press := Press.reset
  isolated := false
  vpll := 0
  on_ := []
  cur := []
  next := []
  set_ := FrameSet.reset
  plateLeaf := none
  ending := false
  lengthen := 0
  plateShown := false
  later := []

/-- Port states (R271). -/
inductive PortSt where
  | off | down | training | up | muted
  deriving DecidableEq, Repr, Inhabited

/-- A DisplayPort port (R271, R299). -/
structure Port where
  /-- state -/
  st : PortSt
  /-- owning colour -/
  owner : Option Nat
  /-- MODE: 0 OFF, 1 SST, 2 MST -/
  mode : Nat
  /-- RATE -/
  rate : Nat
  /-- RING -/
  ring : Nat
  /-- SPREAD -/
  spread : Bool
  /-- rate the link is trained at: 0 none, 1 HBR3, 2 UHBR10 -/
  trained : Nat
  /-- rate at which it last trained, 0 never -/
  lastRate : Nat
  /-- HPD level -/
  hpd : Bool
  /-- sink DPCD revision -/
  dpcd : Nat
  /-- sink rates: [0] HBR3, [1] UHBR10 -/
  sinkRates : BitVec 2
  /-- LTTPRs found -/
  lttprs : Nat
  /-- branch outputs holding a sink, none for a direct sink -/
  branch : Option (BitVec 16)
  /-- the topology has been learnt at a training -/
  topology : Bool
  /-- rate being attempted -/
  tryRate : Nat
  /-- attempts made at it -/
  tries : Nat
  /-- training attempts -/
  attempts : Nat
  /-- lost links -/
  lost : Nat
  /-- duration of the last training, µs -/
  trainUs : Nat
  /-- own-timer time training started -/
  trainAt : Nat
  /-- transmitter delay, ns -/
  txDelay : Nat
  /-- EDID and DisplayID data as last read -/
  edid : List Byte
  /-- HPD short pulses -/
  pulses : Nat
  deriving DecidableEq, Repr, Inhabited

/-- Port right after reset, or blank. -/
def Port.reset : Port where
  st := .off
  owner := none
  mode := 0
  rate := 0
  ring := 0
  spread := false
  trained := 0
  lastRate := 0
  hpd := false
  dpcd := 0
  sinkRates := 0
  lttprs := 0
  branch := none
  topology := false
  tryRate := 0
  tries := 0
  attempts := 0
  lost := 0
  trainUs := 0
  trainAt := 0
  txDelay := 0
  edid := []
  pulses := 0

/-- A plate pane (R252, R255). -/
structure Pane where
  /-- enabled -/
  enabled : Bool
  /-- BASE -/
  base : Nat
  /-- PANE_X -/
  x : Nat
  /-- PANE_Y -/
  y : Nat
  /-- PANE_W -/
  w : Nat
  /-- PANE_H -/
  h : Nat
  /-- CRC-32C recorded when its last sheet was applied (R577) -/
  crc : BitVec 32
  /-- sealed colour-0 copy of the content applied (R577) -/
  copy : List Byte
  deriving DecidableEq, Repr, Inhabited

/-- Pane right after reset, or blank. -/
def Pane.reset : Pane where
  enabled := false
  base := 0
  x := 0
  y := 0
  w := 0
  h := 0
  crc := 0
  copy := []

/-- The plate of one head (R252, R260). -/
structure PlateHead where
  /-- last SEQ accepted -/
  lastSeq : Nat
  /-- panes -/
  panes : List Pane
  /-- palette, alpha in [31:24] -/
  palette : List (BitVec 32)
  /-- its 256 KiB of plate memory, by byte -/
  mem : Mem
  /-- sheets accepted since reset -/
  accepted : Nat
  /-- sheets refused since reset -/
  refused : Nat
  /-- sheets copied and not yet shown: CMD ring, pane, TAG, SEQ (R259) -/
  shown : List (Nat × Nat × BitVec 16 × Nat)
  /-- the vertical-blanking copy of FRAME sheets is open (R289) -/
  latchedFrame : Bool
  /-- scrub mismatches restored (R577) -/
  scrubs : Nat
  deriving DecidableEq, Repr, Inhabited

/-- PlateHead right after reset, or blank. -/
def PlateHead.reset : PlateHead where
  lastSeq := 0
  panes := List.replicate 8 Pane.reset
  palette := List.replicate 16 0
  mem := []
  accepted := 0
  refused := 0
  shown := []
  latchedFrame := false
  scrubs := 0

/-- COMP, heads and ports (R206). -/
structure Comp where
  /-- VL0–VL63 then GL0–GL63 -/
  layer : List Layer
  /-- the pending configuration's entries -/
  pend : List Pend
  /-- user matrix slots -/
  matrix : List MatrixSlot
  /-- coefficient banks -/
  bank : List Bank
  /-- H0–H15 -/
  head : List Head
  /-- P0–P7 -/
  port : List Port
  /-- plates of H0–H15 -/
  plate : List PlateHead
  /-- the plates as each head last read them, at an output leaf's start (R258) -/
  plateRead : List PlateHead
  /-- plate nonce, drawn at boot (R412) -/
  nonce : Option (BitVec 64)
  /-- folios and groups that have entered the pending configuration -/
  pendNo : Nat
  deriving DecidableEq, Repr, Inhabited

/-- Comp right after reset, or blank. -/
def Comp.reset : Comp where
  layer := List.replicate 128 Layer.reset
  pend := []
  matrix := List.replicate 16 MatrixSlot.reset
  bank := List.replicate 8 Bank.reset
  head := List.replicate 16 Head.reset
  port := List.replicate 8 Port.reset
  plate := List.replicate 16 PlateHead.reset
  plateRead := List.replicate 16 PlateHead.reset
  nonce := none
  pendNo := 0

end Sys2Proof.Machine
end

