-- ==== Sys2Proof/Machine/StateEnc.lean ====
section
/-!
DEFINITION. Encoders and evidence recording (08_encode_record.md): the state the spec gives, as plain data, and its reset values.
A field's docstring says what the spec calls it; INVENTORY.md gives its rule and where its reset value comes from.
-/

namespace Sys2Proof.Machine

/-- States of an encode session, codes 0–3 (R323). -/
inductive EncSt where
  | closed | coding | demoted | suspended
  deriving DecidableEq, Repr, Inhabited

/-- Coded picture types, codes 0–2 (R313). -/
inductive PicType where
  | idr | p | pRefresh
  deriving DecidableEq, Repr, Inhabited

/-- ENC_OPEN's settings of a session (R305). -/
structure EncCfg where
  /-- HEAD -/
  head : Nat
  /-- KIND [0]: HEVC Main, else H.264 High -/
  hevc : Bool
  /-- KIND [1]: RECORD, else LIVE -/
  record : Bool
  /-- KIND [2] SLICE_EVENTS -/
  sliceEvents : Bool
  /-- KIND [3] REFRESH: column refresh, else IDR -/
  column : Bool
  /-- DIVISOR -/
  divisor : Nat
  /-- SRC_X -/
  srcX : Nat
  /-- SRC_Y -/
  srcY : Nat
  /-- SRC_W -/
  srcW : Nat
  /-- SRC_H -/
  srcH : Nat
  /-- BITRATE, kbit/s -/
  bitrate : Nat
  /-- VBV, kbit -/
  vbv : Nat
  /-- QP_MIN -/
  qpMin : Nat
  /-- QP_MAX -/
  qpMax : Nat
  /-- GOP -/
  gop : Nat
  /-- SLICE_ROWS -/
  sliceRows : Nat
  /-- RING -/
  ring : Nat
  /-- OUT_WIN -/
  outWin : Nat
  /-- AUX_WIN -/
  auxWin : Nat
  /-- OUT_OFFSET -/
  outOffset : Nat
  /-- OUT_BLOCKS -/
  outBlocks : Nat
  /-- STATS_OFFSET -/
  statsOffset : Nat
  /-- STATS_BLOCKS -/
  statsBlocks : Nat
  /-- SIDE_OFFSET -/
  sideOffset : Nat
  /-- SIDE_BLOCKS -/
  sideBlocks : Nat
  deriving DecidableEq, Repr, Inhabited

/-- EncCfg right after reset, or blank. -/
def EncCfg.reset : EncCfg where
  head := 0
  hevc := false
  record := false
  sliceEvents := false
  column := false
  divisor := 1
  srcX := 0
  srcY := 0
  srcW := 64
  srcH := 64
  bitrate := 100
  vbv := 50
  qpMin := 0
  qpMax := 51
  gop := 0
  sliceRows := 0
  ring := 0
  outWin := 0
  auxWin := 0
  outOffset := 0
  outBlocks := 64
  statsOffset := 0
  statsBlocks := 0
  sideOffset := 0
  sideBlocks := 0

/-- What motion search found for a 16×16 block (R308, R313). -/
structure Motion where
  /-- horizontal vector, quarter pixels -/
  mvx : Int
  /-- vertical vector -/
  mvy : Int
  /-- vector cost -/
  vcost : Nat
  /-- intra cost -/
  icost : Nat
  deriving DecidableEq, Repr, Inhabited

/-- Motion right after reset, or blank. -/
def Motion.reset : Motion where
  mvx := 0
  mvy := 0
  vcost := 0
  icost := 0

/-- A coded rate row (R311, R313). -/
structure RowOut where
  /-- bits of the row as committed -/
  bits : Nat
  /-- QP it was coded at -/
  qp : Nat
  /-- its coded bytes -/
  coded : List Byte
  /-- vectors and costs of its blocks (R308) -/
  blocks : List Motion
  /-- its reconstruction -/
  recon : List Byte
  deriving DecidableEq, Repr, Inhabited

/-- RowOut right after reset, or blank. -/
def RowOut.reset : RowOut where
  bits := 0
  qp := 0
  coded := []
  blocks := []
  recon := []

/-- The picture a session is coding (R309, R311, R313). -/
structure CurPic where
  /-- HEAD_FRAME -/
  frame : BitVec 32
  /-- EPOCH -/
  epoch : Nat
  /-- TYPE -/
  kind : PicType
  /-- rows committed, first row first -/
  rows : List RowOut
  /-- T' of R309, bits -/
  target : Nat
  /-- VBV − F, bits -/
  cap : Nat
  /-- first clamped rate row -/
  clampRow : Option Nat
  /-- first held rate row -/
  heldRow : Option Nat
  /-- start of the access unit in the output region -/
  start : Nat
  /-- the parameter sets before it (R307) -/
  params : List Byte
  /-- QP of the row last coded -/
  qp : Nat
  deriving DecidableEq, Repr, Inhabited

/-- CurPic right after reset, or blank. -/
def CurPic.reset : CurPic where
  frame := 0
  epoch := 0
  kind := .idr
  rows := []
  target := 0
  cap := 0
  clampRow := none
  heldRow := none
  start := 0
  params := []
  qp := 0

/-- What the side record of the frame needs to know of its picture (R315). -/
structure LastPic where
  /-- PICTURE, 0xFFFF_FFFF when not coded -/
  picture : BitVec 32
  /-- DROPPED -/
  dropped : Bool
  /-- first held rate row -/
  held : Option Nat
  /-- CLAMPED -/
  clamped : Bool
  /-- HEAD_FRAME of that picture -/
  frame : BitVec 32
  deriving DecidableEq, Repr, Inhabited

/-- LastPic right after reset, or blank. -/
def LastPic.reset : LastPic where
  picture := 0xFFFFFFFF
  dropped := false
  held := none
  clamped := false
  frame := 0

/-- A side record not yet written (R315). -/
structure SideRec where
  /-- HEAD_FRAME -/
  frame : BitVec 32
  /-- EPOCH -/
  epoch : Nat
  /-- FLAGS, but for DROPPED, HELD and CLAMPED -/
  flags : Nat
  /-- FAILED -/
  failed : Nat
  /-- FRAME_SIG -/
  sig : BitVec 32
  /-- COUNT -/
  count : Nat
  /-- the layer entries -/
  layers : List Byte
  /-- the session takes the frame: the record waits for its picture -/
  coded : Bool
  deriving DecidableEq, Repr, Inhabited

/-- SideRec right after reset, or blank. -/
def SideRec.reset : SideRec where
  frame := 0
  epoch := 0
  flags := 0
  failed := 0
  sig := 0
  count := 0
  layers := []
  coded := false

/-- An encode session (R301, R323). -/
structure EncSession where
  /-- state -/
  st : EncSt
  /-- colour that opened it -/
  owner : Nat
  /-- its ENC_OPEN settings -/
  cfg : EncCfg
  /-- encoder it is placed on -/
  encoder : Nat
  /-- effective divisor -/
  eff : Nat
  /-- stopped because its rectangle is outside the active area or its head is OFF (R320) -/
  offRect : Bool
  /-- F, fullness of the virtual buffer, bits -/
  fullness : Nat
  /-- pictures coded -/
  coded : Nat
  /-- pictures dropped -/
  dropped : Nat
  /-- pictures with held rows -/
  heldPics : Nat
  /-- longest LIVE row time, µs -/
  longRow : Nat
  /-- write offset of the output region, bytes -/
  writeOff : Nat
  /-- offset up to which software has consumed it, bytes -/
  readOff : Nat
  /-- bytes of the output region not yet consumed -/
  used : Nat
  /-- access units reported and not consumed: end offset, bytes with padding -/
  aus : List (Nat × Nat)
  /-- the next coded picture is a refresh -/
  keyReq : Bool
  /-- pictures coded since the last refresh -/
  sinceKey : Nat
  /-- head frames since the last frame it encoded -/
  phase : Nat
  /-- the frame being scanned began before the session was opened (1) or restored (2), which therefore starts with the next -/
  joins : Nat
  /-- BITRATE and VBV of ENC_RATE for the next picture -/
  newRate : Option (Nat × Nat)
  /-- mean QP of the previous picture -/
  lastQp : Nat
  /-- bits of the previous picture -/
  lastBits : Nat
  /-- vectors and costs of the blocks of each row of the previous picture -/
  lastBlocks : List (List Motion)
  /-- the reference picture: reconstruction of each row of the last picture coded (R302, R308) -/
  ref : List (List Byte)
  /-- the picture being coded -/
  cur : Option CurPic
  /-- the last picture, for its side record -/
  last : LastPic
  /-- ENC_CLOSE has been taken; it ends after the picture being coded -/
  closing : Bool
  /-- next record of the statistics region -/
  statsNext : Nat
  /-- next record of the side region -/
  sideNext : Nat
  /-- the tap's 4:2:0 line pairs of the frame, in the store (R303) -/
  source : List (List Byte)
  /-- side records not yet written, oldest first (R306) -/
  sides : List SideRec
  deriving DecidableEq, Repr, Inhabited

/-- EncSession right after reset, or blank. -/
def EncSession.reset : EncSession where
  st := .closed
  owner := 0
  cfg := EncCfg.reset
  encoder := 0
  eff := 1
  offRect := false
  fullness := 0
  coded := 0
  dropped := 0
  heldPics := 0
  longRow := 0
  writeOff := 0
  readOff := 0
  used := 0
  aus := []
  keyReq := true
  sinceKey := 0
  phase := 0
  joins := 0
  newRate := none
  lastQp := 0
  lastBits := 0
  lastBlocks := []
  ref := []
  cur := none
  last := LastPic.reset
  closing := false
  statsNext := 0
  sideNext := 0
  source := []
  sides := []

/-- A rate row waiting to be coded (R312, R317). -/
structure EncRow where
  /-- its session -/
  session : Nat
  /-- its number -/
  row : Nat
  /-- head frame it belongs to -/
  frame : BitVec 32
  /-- own-timer time its last source line was written -/
  at_ : Nat
  /-- the last row of its picture -/
  lastRow : Bool
  /-- vectors and costs of its blocks, as searched (R308) -/
  blocks : List Motion
  deriving DecidableEq, Repr, Inhabited

/-- EncRow right after reset, or blank. -/
def EncRow.reset : EncRow where
  session := 0
  row := 0
  frame := 0
  at_ := 0
  lastRow := false
  blocks := []

/-- An encoder, EE0 or EE1 (R317, R321). -/
structure Encoder where
  /-- it is isolated -/
  isolated : Bool
  /-- it stays isolated until device reset (R566) -/
  barred : Bool
  /-- rate rows waiting, oldest first -/
  waiting : List EncRow
  deriving DecidableEq, Repr, Inhabited

/-- Encoder right after reset, or blank. -/
def Encoder.reset : Encoder where
  isolated := false
  barred := false
  waiting := []

/-- The encoders (R301). -/
structure Enc where
  /-- sessions 0–15 -/
  session : List EncSession
  /-- EE0 and EE1 -/
  ee : List Encoder
  /-- demotion steps in force, newest first: session, effective divisor before it (R319) -/
  demotions : List (Nat × Nat)
  deriving DecidableEq, Repr, Inhabited

/-- Enc right after reset, or blank. -/
def Enc.reset : Enc where
  session := List.replicate 16 EncSession.reset
  ee := List.replicate 2 Encoder.reset
  demotions := []

end Sys2Proof.Machine
end

