-- ==== Sys2Proof/Machine/StateFab.lean ====
section
/-!
DEFINITION. Islands, crossings and the central store (01_architecture.md, 11_store.md, 15_clocks_power_ageing.md): the state the spec gives, as plain data, and its reset values.
A field's docstring says what the spec calls it; INVENTORY.md gives its rule and where its reset value comes from.
-/

namespace Sys2Proof.Machine

/-- A block on a crossing, not yet acknowledged (R29, R30). -/
structure XBlock where
  /-- its sequence place -/
  place : Nat
  /-- the sender's copy, 256 bytes -/
  payload : List Byte
  /-- the CRC-32C beside it -/
  crc : BitVec 32
  /-- re-sends asked for so far, 0–3 -/
  asks : Nat
  /-- it has passed its check, or is poisoned, and waits at the receiver for an earlier block -/
  here : Bool
  /-- its fourth copy failed -/
  poisoned : Bool
  /-- it has been delivered to its consumer -/
  delivered : Bool
  deriving DecidableEq, Repr, Inhabited

/-- XBlock right after reset, or blank. -/
def XBlock.reset : XBlock where
  place := 0
  payload := []
  crc := 0
  asks := 0
  here := false
  poisoned := false
  delivered := false

/-- A crossing, one direction between two islands (R28, R30). -/
structure Crossing where
  /-- sending island, R51 index -/
  snd : Nat
  /-- receiving island -/
  rcv : Nat
  /-- blocks the sender holds a copy of, oldest first, at most 16 -/
  unacked : List XBlock
  /-- next sequence place -/
  next : Nat
  /-- re-sends that ended in a good copy -/
  resends : Nat
  /-- blocks that ended poisoned -/
  poisonedCount : Nat
  /-- faults counted against the crossing -/
  faults : Nat
  /-- device time of the last poisoned block, 0 if none -/
  lastPoison : Nat
  /-- blocks delivered, newest first: place, poisoned (the model's observation) -/
  consumed : List (Nat × Bool)
  /-- sequence places whose loss the sender has reported to its own consumer (R36) -/
  reported : List Nat
  deriving DecidableEq, Repr, Inhabited

/-- Crossing right after reset, or blank. -/
def Crossing.reset : Crossing where
  snd := 0
  rcv := 0
  unacked := []
  next := 0
  resends := 0
  poisonedCount := 0
  faults := 0
  lastPoison := 0
  consumed := []
  reported := []

/-- Island power states (R528). -/
inductive PowerSt where
  | run | gated | retain | off
  deriving DecidableEq, Repr, Inhabited

/-- An island as isolation, power and ageing see it (R51, R542). -/
structure Island where
  /-- isolated -/
  isolated : Bool
  /-- own-timer time it was isolated -/
  isolatedAt : Nat
  /-- it stays isolated until device reset (R566) -/
  barred : Bool
  /-- power state -/
  power : PowerSt
  /-- at its rated operating point (its voltage-frequency point) -/
  rated : Bool
  /-- V_INIT, mV -/
  vInit : Nat
  /-- V_PLAN, mV -/
  vPlan : Nat
  /-- last canary slack, mV -/
  slack : Int
  /-- D, ppm (R537) -/
  drift : Nat
  /-- V_PLAN raises -/
  raises : Nat
  /-- V_PLAN reductions -/
  lowers : Nat
  /-- canary measurements below the limit -/
  canaryFails : Nat
  /-- own-timer time since which every slack measured has been above 45 mV -/
  aboveSince : Option Nat
  /-- own-timer time of the last ageing measurement -/
  measuredAt : Nat
  /-- a slack below 25 mV waits for its second measurement (R539) -/
  recheck : Bool
  deriving DecidableEq, Repr, Inhabited

/-- Island right after reset, or blank. -/
def Island.reset : Island where
  isolated := false
  isolatedAt := 0
  barred := false
  power := .run
  rated := true
  vInit := 0
  vPlan := 0
  slack := 0
  drift := 0
  raises := 0
  lowers := 0
  canaryFails := 0
  aboveSince := none
  measuredAt := 0
  recheck := false

/-- A block request at STORE (R381). -/
structure StoreReq where
  /-- issuing island, R51 index -/
  island : Nat
  /-- colour it is issued under -/
  colour : Nat
  /-- service class, 0–3 -/
  cls : Nat
  /-- a write -/
  wr : Bool
  /-- internal address, multiple of 256 -/
  addr : Nat
  /-- payload of a write -/
  data : List Byte
  /-- check value of a write -/
  crc : BitVec 32
  /-- the write ended poisoned on its crossing (R33) -/
  poisoned : Bool
  /-- a re-read for a re-send (R396) -/
  reread : Bool
  /-- own-timer time of its arrival, ns -/
  at_ : Nat
  /-- counted as promoted -/
  promoted : Bool
  /-- `ACT.EPOCH` it was checked under (R433) -/
  epoch : BitVec 16
  /-- a later access has found it waiting: its effect on the store, or what it read, is settled (R42, R383) -/
  landed : Bool
  deriving DecidableEq, Repr, Inhabited

/-- StoreReq right after reset, or blank. -/
def StoreReq.reset : StoreReq where
  island := 0
  colour := 0
  cls := 0
  wr := false
  addr := 0
  data := []
  crc := 0
  poisoned := false
  reread := false
  at_ := 0
  promoted := false
  epoch := 0
  landed := false

/-- STORE's answer to a request (the model's observation) (R45, R56). -/
structure StoreRsp where
  /-- island answered -/
  island : Nat
  /-- acknowledgement of a write -/
  wr : Bool
  /-- address -/
  addr : Nat
  /-- payload of a read -/
  data : List Byte
  /-- check value handed on with a read (R26) -/
  crc : BitVec 32
  /-- read: the block mismatches its check value; write: not written (R33) -/
  poisoned : Bool
  /-- STORE asks the writer for the block again (R33) -/
  again : Bool
  /-- refused by the access table or not decoded (R50) -/
  refused : Bool
  deriving DecidableEq, Repr, Inhabited

/-- StoreRsp right after reset, or blank. -/
def StoreRsp.reset : StoreRsp where
  island := 0
  wr := false
  addr := 0
  data := []
  crc := 0
  poisoned := false
  again := false
  refused := false

/-- One bank of a channel (R388). -/
structure DramBank where
  /-- rolling activation counter -/
  raa : Nat
  /-- row held active -/
  openRow : Option Nat
  /-- an RFM is due -/
  rfmDue : Bool
  deriving DecidableEq, Repr, Inhabited

/-- DramBank right after reset, or blank. -/
def DramBank.reset : DramBank where
  raa := 0
  openRow := none
  rfmDue := false

/-- Count and time of one kind of EV_STORE on a channel (R404). -/
structure EvKind where
  /-- occurrences since the last event of the kind -/
  count : Nat
  /-- own-timer time of that event -/
  last : Option Nat
  deriving DecidableEq, Repr, Inhabited

/-- EvKind right after reset, or blank. -/
def EvKind.reset : EvKind where
  count := 0
  last := none

/-- One DRAM channel (R403). -/
structure DramChannel where
  /-- requests waiting, oldest first -/
  queue : List StoreReq
  /-- block addresses in the write queue, oldest first, at most 128 -/
  writeQ : List Nat
  /-- the write queue is draining -/
  draining : Bool
  /-- refreshes owed (negative: pulled in), −8 to 8 -/
  debt : Int
  /-- refresh factor MR4 reports: 1, 2 or 4 (1 is the die's factor at nominal temperature) -/
  mr4 : Nat
  /-- MR4 reports above the operating range -/
  tooHot : Bool
  /-- its banks -/
  banks : List DramBank
  /-- re-reads -/
  rereads : Nat
  /-- poisoned deliveries -/
  poisonedDel : Nat
  /-- failed writes -/
  failedWrites : Nat
  /-- catch-up bursts -/
  catchUps : Nat
  /-- RFM issued -/
  rfms : Nat
  /-- channel addresses of the bank-rows redirected (R398) -/
  retired : List Nat
  /-- largest refresh debt seen -/
  worstDebt : Nat
  /-- longest class C0 wait, ns -/
  longC0 : Nat
  /-- initialised and trained (R399) -/
  trained : Bool
  /-- bank-rows with a lasting fault, waiting to be retired (R398) -/
  due : List Nat
  /-- EV_STORE limits by kind -/
  ev : List EvKind
  deriving DecidableEq, Repr, Inhabited

/-- DramChannel right after reset, or blank. -/
def DramChannel.reset : DramChannel where
  queue := []
  writeQ := []
  draining := false
  debt := 0
  mr4 := 1
  tooHot := false
  banks := List.replicate 16 DramBank.reset
  rereads := 0
  poisonedDel := 0
  failedWrites := 0
  catchUps := 0
  rfms := 0
  retired := []
  worstDebt := 0
  longC0 := 0
  trained := true
  due := []
  ev := List.replicate 5 EvKind.reset

/-- A timing register set (R394). -/
structure TimingSet where
  /-- `STORE.POINT` -/
  point : BitVec 2
  /-- `STORE.T_REFI`, ns -/
  tRefi : BitVec 16
  /-- `STORE.T_RFCAB`, ns -/
  tRfcAb : BitVec 16
  /-- `STORE.T_RFCPB`, ns -/
  tRfcPb : BitVec 16
  /-- `STORE.RAAIMT` -/
  raaimt : BitVec 8
  /-- `STORE.RAAMMT` -/
  raammt : BitVec 8
  /-- `STORE.RAADEC` -/
  raadec : BitVec 8
  /-- `STORE.T_RCD`, ps -/
  tRcd : BitVec 16
  /-- `STORE.T_RP`, ps -/
  tRp : BitVec 16
  /-- `STORE.T_RAS`, ps -/
  tRas : BitVec 16
  /-- `STORE.T_WR`, ps -/
  tWr : BitVec 16
  /-- `STORE.T_FAW`, ps -/
  tFaw : BitVec 16
  /-- `STORE.T_RRD`, ps -/
  tRrd : BitVec 16
  deriving DecidableEq, Repr, Inhabited

/-- TimingSet right after reset, or blank. -/
def TimingSet.reset : TimingSet where
  point := 0
  tRefi := 0
  tRfcAb := 0
  tRfcPb := 0
  raaimt := 0
  raammt := 0
  raadec := 0
  tRcd := 0
  tRp := 0
  tRas := 0
  tWr := 0
  tFaw := 0
  tRrd := 0

/-- A region of the store handed out by firmware (R349, R351). -/
structure Alloc where
  /-- internal address -/
  base : Nat
  /-- bytes -/
  size : Nat
  /-- colour whose quota it counts against -/
  colour : Nat
  /-- its wipe has not completed -/
  dirty : Bool
  deriving DecidableEq, Repr, Inhabited

/-- Alloc right after reset, or blank. -/
def Alloc.reset : Alloc where
  base := 0
  size := 0
  colour := 0
  dirty := false

/-- A write that STORE has asked for again (R33, R433). -/
structure Asked where
  /-- its writer -/
  island : Nat
  /-- its block -/
  addr : Nat
  /-- its colour -/
  colour : Nat
  /-- `ACT.EPOCH` it was checked at -/
  epoch : BitVec 16
  /-- how often it was asked for, 1–3 -/
  times : Nat
  deriving DecidableEq, Repr, Inhabited

/-- Asked right after reset, or blank. -/
def Asked.reset : Asked where
  island := 0
  addr := 0
  colour := 0
  epoch := 0
  times := 0

/-- The central store and its controller (R375). -/
structure Store where
  /-- addressable content by byte; an unlisted byte reads zero (R400) -/
  mem : Mem
  /-- the check region where it differs: block addresses, in rising order, whose check entry is not the CRC-32C of their content, with that entry; every other block's check entry is the CRC-32C of its content (R25, R40, R397) -/
  damaged : List (Nat × BitVec 32)
  /-- key of the sealed regions, drawn by SEC at every reset (R395); empty until the first draw -/
  xtsKey : List Byte
  /-- writes that STORE has asked for again (R33) -/
  asked : List Asked
  /-- channels 0–7 -/
  ch : List DramChannel
  /-- it accepts requests (R400 step 6) -/
  ready : Bool
  /-- frequency point (point 2 during the wipe of R400) -/
  point : Nat
  /-- pinned point -/
  pinned : Option Nat
  /-- g, log2 of the interleave grain -/
  grain : Nat
  /-- switches since reset -/
  switches : Nat
  /-- own-timer time of the last switch -/
  lastSwitch : Option Nat
  /-- target of a switch in progress -/
  switching : Option Nat
  /-- own-timer time since which D has been at or below 80 % of the budget of points 0 and 1 -/
  lowSince : List (Option Nat)
  /-- age limit of class C1, µs -/
  age1 : Nat
  /-- age limit of class C2, µs -/
  age2 : Nat
  /-- age limit of class C3, µs -/
  age3 : Nat
  /-- requests promoted -/
  promoted : Nat
  /-- shadow timing set -/
  shadow : TimingSet
  /-- active timing set -/
  active : TimingSet
  /-- subscribed event rings with their MASK -/
  watch : List (Nat × BitVec 8)
  /-- a lasting DRAM fault found no spare bank-row, or a channel failed: `TOP.FAULTS` bit 5 (R398, R399) -/
  noSpare : Bool
  /-- answers given, newest first (the model's observation) -/
  rsp : List StoreRsp
  /-- regions allocated to windows -/
  regions : List Alloc
  deriving DecidableEq, Repr, Inhabited

/-- Store right after reset, or blank. -/
def Store.reset : Store where
  mem := []
  damaged := []
  xtsKey := []
  asked := []
  ch := List.replicate 8 DramChannel.reset
  ready := false
  point := 2
  pinned := none
  grain := 10
  switches := 0
  lastSwitch := none
  switching := none
  lowSince := [none, none]
  age1 := 10
  age2 := 40
  age3 := 400
  promoted := 0
  shadow := TimingSet.reset
  active := TimingSet.reset
  watch := []
  noSpare := false
  rsp := []
  regions := []

/-- Islands and crossings (R22, R25). -/
structure Fab where
  /-- crossings that have carried a block -/
  xing : List Crossing
  /-- islands by their index of R51 -/
  isl : List Island
  /-- CTRL SRAM by byte, addressed from 0 (R22, R49); an unlisted byte reads zero -/
  sram : Mem
  deriving DecidableEq, Repr, Inhabited

/-- Fab right after reset, or blank. -/
def Fab.reset : Fab where
  xing := []
  isl := List.replicate 43 Island.reset
  sram := []

end Sys2Proof.Machine
end

