-- ==== Sys2Proof/Machine/StateSec.lean ====
section
/-!
DEFINITION. Trust, life cycle and the access table (12_trust.md): the state the spec gives, as plain data, and its reset values.
A field's docstring says what the spec calls it; INVENTORY.md gives its rule and where its reset value comes from.
-/

namespace Sys2Proof.Machine

/-- One-time-programmable fuses (R407). -/
structure Fuses where
  /-- LC_DEVELOP -/
  lcDevelop : BitVec 32
  /-- LC_FIELD -/
  lcField : BitVec 32
  /-- LC_RETURN -/
  lcReturn : BitVec 32
  /-- LC_VOID -/
  lcVoid : BitVec 32
  /-- IMAGE_KEY is usable -/
  imageKeyOk : Bool
  /-- ROOT_REVOKED -/
  rootRevoked : BitVec 4
  /-- some bit of ID_SALT generation 1 is burned -/
  salt1 : Bool
  /-- OWNER_DIGEST, none while blank -/
  ownerDigest : Option (List Byte)
  /-- its invalid bit -/
  ownerInvalid : Bool
  /-- IMAGE_COUNTER, thermometer count of 128 -/
  imageCounter : Nat
  /-- RECORD_COUNTER, thermometer count of 64 -/
  recordCounter : Nat
  /-- MAC_BASE -/
  macBase : BitVec 48
  deriving DecidableEq, Repr, Inhabited

/-- Fuses right after reset, or blank. -/
def Fuses.reset : Fuses where
  lcDevelop := 0
  lcField := 0
  lcReturn := 0
  lcVoid := 0
  imageKeyOk := true
  rootRevoked := 0
  salt1 := false
  ownerDigest := none
  ownerInvalid := false
  imageCounter := 0
  recordCounter := 0
  macBase := 0

/-- A firmware image as the boot ROM reads it (R410). -/
structure Image where
  /-- MAGIC, VERSION, LENGTH and reserved fields are valid -/
  formOk : Bool
  /-- FLAGS: [0] REVOKE_BELOW -/
  flags : BitVec 16
  /-- SEC_VERSION -/
  secVersion : Nat
  /-- RELEASE -/
  release : BitVec 32
  /-- LIFECYCLES -/
  lifecycles : BitVec 8
  /-- KEY_ID -/
  keyId : Nat
  /-- both signatures verify against that pair -/
  sigsOk : Bool
  /-- DIGEST matches the payload -/
  digestOk : Bool
  /-- the GCM tag verifies and the payload decrypts -/
  gcmOk : Bool
  /-- bytes 0x000–0x0FF -/
  header : List Byte
  deriving DecidableEq, Repr, Inhabited

/-- Image right after reset, or blank. -/
def Image.reset : Image where
  formOk := false
  flags := 0
  secVersion := 0
  release := 0
  lifecycles := 0
  keyId := 0
  sigsOk := false
  digestOk := false
  gcmOk := false
  header := []

/-- One key of an SRTP slot (R425). -/
structure SrtpKey where
  /-- MKI -/
  mki : List Byte
  /-- master key, 32 bytes -/
  key : List Byte
  /-- master salt, 14 bytes -/
  salt : List Byte
  deriving DecidableEq, Repr, Inhabited

/-- SrtpKey right after reset, or blank. -/
def SrtpKey.reset : SrtpKey where
  mki := []
  key := []
  salt := []

/-- An SRTP key slot (R425, R426). -/
structure SrtpSlot where
  /-- the slot holds an item -/
  full : Bool
  /-- colour of the ring that carried its PROVISION -/
  colour : Nat
  /-- PROFILE -/
  profile : Nat
  /-- its keys -/
  keys : List SrtpKey
  /-- ROC -/
  roc : BitVec 32
  /-- PERSIST -/
  persist : Bool
  deriving DecidableEq, Repr, Inhabited

/-- SrtpSlot right after reset, or blank. -/
def SrtpSlot.reset : SrtpSlot where
  full := false
  colour := 0
  profile := 0
  keys := []
  roc := 0
  persist := false

/-- The CONFIG item (R425). -/
structure DevConfig where
  /-- g -/
  grain : Nat
  /-- PIN -/
  pin : Nat
  /-- admin colour -/
  admin : Nat
  /-- AGE_C1 -/
  age1 : Nat
  /-- AGE_C2 -/
  age2 : Nat
  /-- AGE_C3 -/
  age3 : Nat
  /-- store quota in MiB of colours 1–62 -/
  quota : List Nat
  deriving DecidableEq, Repr, Inhabited

/-- DevConfig right after reset, or blank. -/
def DevConfig.reset : DevConfig where
  grain := 10
  pin := 0
  admin := 1
  age1 := 10
  age2 := 40
  age3 := 400
  quota := 256 :: List.replicate 61 0

/-- A provisioning record (R423). -/
structure Record where
  /-- generation -/
  gen : Nat
  /-- owner ECDSA public key -/
  ownerE : List Byte
  /-- owner ML-DSA-87 public key -/
  ownerM : List Byte
  /-- plate authority ECDSA public key -/
  plateE : List Byte
  /-- plate authority ML-DSA-87 public key -/
  plateM : List Byte
  /-- persistent SRTP items by slot -/
  srtp : List (Nat × SrtpSlot)
  /-- RINGMAP ring words -/
  ringMap : Option (List RingMapEntry)
  /-- RINGMAP channel records -/
  chans : List Channel
  /-- CONFIG -/
  config : Option DevConfig
  deriving DecidableEq, Repr, Inhabited

/-- Record right after reset, or blank. -/
def Record.reset : Record where
  gen := 0
  ownerE := []
  ownerM := []
  plateE := []
  plateM := []
  srtp := []
  ringMap := none
  chans := []
  config := none

/-- An access-table entry (R428). -/
structure ActEntry where
  /-- `ACT.BASE` -/
  base : BitVec 28
  /-- `ACT.LAST` -/
  last : BitVec 28
  /-- `ACT.COLOUR` -/
  colour : BitVec 6
  /-- `ACT.SEALED` -/
  sealed_ : Bool
  /-- `ACT.LOCK` -/
  lock : Bool
  /-- `ACT.VALID` -/
  valid : Bool
  /-- `ACT.READ` -/
  read : Bool
  /-- `ACT.WRITE` -/
  write : Bool
  /-- `ACT.EXEC` -/
  exec_ : Bool
  /-- `ACT.LABEL` -/
  label : BitVec 16
  deriving DecidableEq, Repr, Inhabited

/-- ActEntry right after reset, or blank. -/
def ActEntry.reset : ActEntry where
  base := 0
  last := 0
  colour := 0
  sealed_ := false
  lock := false
  valid := false
  read := false
  write := false
  exec_ := false
  label := 0

/-- A removal that drains (R434). -/
structure Removal where
  /-- affected colour -/
  colour : Nat
  /-- first page taken -/
  first : Nat
  /-- last page taken -/
  last : Nat
  /-- epoch in force before the removal -/
  epoch : BitVec 16
  /-- own-timer time of the COMMIT -/
  at_ : Nat
  deriving DecidableEq, Repr, Inhabited

/-- Removal right after reset, or blank. -/
def Removal.reset : Removal where
  colour := 0
  first := 0
  last := 0
  epoch := 0
  at_ := 0

/-- An entry of SEC's fault log (R431). -/
structure AccFault where
  /-- issuing island -/
  island : Nat
  /-- colour -/
  colour : Nat
  /-- address -/
  addr : Nat
  /-- direction -/
  wr : Bool
  /-- epoch -/
  epoch : BitVec 16
  /-- 0 unmatched, 1 permission, 2 undecoded or check region -/
  kind : Nat
  deriving DecidableEq, Repr, Inhabited

/-- AccFault right after reset, or blank. -/
def AccFault.reset : AccFault where
  island := 0
  colour := 0
  addr := 0
  wr := false
  epoch := 0
  kind := 0

/-- SEC_WATCH of one event ring (R432). -/
structure SecWatch where
  /-- RING -/
  ring : Nat
  /-- MASK -/
  mask : BitVec 8
  /-- the ring's own colour -/
  colour : Nat
  /-- refused accesses since the last EV_ACCESS -/
  accCount : Nat
  /-- own-timer time of it -/
  accAt : Option Nat
  /-- own-timer time of the last EV_DEBUG -/
  dbgAt : Option Nat
  deriving DecidableEq, Repr, Inhabited

/-- SecWatch right after reset, or blank. -/
def SecWatch.reset : SecWatch where
  ring := 0
  mask := 0
  colour := 0
  accCount := 0
  accAt := none
  dbgAt := none

/-- The SEC island (R405). -/
structure Sec where
  /-- fuses (not changed by a reset) -/
  fuses : Fuses
  /-- image slot A, none while the model has not been told its content -/
  slotA : Option Image
  /-- image slot B -/
  slotB : Option Image
  /-- slot selector: some false A, some true B, none when it fails its check -/
  selector : Option Bool
  /-- record copies 0 and 1 -/
  recordCopies : List (Option Record)
  /-- record in use (no provisioned items) -/
  record : Record
  /-- a record copy qualified at boot -/
  recordOk : Bool
  /-- image the active pair runs -/
  running : Image
  /-- SEC boot status: 0 not begun, 1 booted, 2 neither slot passed R411, 3 a channel failed (R399), 4 HOLD (R607) -/
  bootStatus : Nat
  /-- SRTP slots -/
  srtp : List SrtpSlot
  /-- device configuration in force -/
  config : DevConfig
  /-- provisioning key of each colour -/
  provKey : List (Option (List Byte))
  /-- provisioning keys drawn so far -/
  provNo : Nat
  /-- access-table entries other than the all-zero entry, rising index -/
  act : List (Nat × ActEntry)
  /-- `ACT.INDEX` -/
  actIndex : BitVec 13
  /-- `ACT.WORD0` -/
  actWord0 : BitVec 64
  /-- `ACT.WORD1` -/
  actWord1 : BitVec 64
  /-- `ACT.BUSY` -/
  actBusy : Bool
  /-- `ACT.RESULT` -/
  actResult : BitVec 2
  /-- `ACT.EPOCH` -/
  epoch : BitVec 16
  /-- removals that drain -/
  removals : List Removal
  /-- a second removal of a colour that waits in COMMIT -/
  waitingCommit : Option (Nat × ActEntry)
  /-- dirty pages: first, last, colour that last held them -/
  dirty : List (Nat × Nat × Nat)
  /-- the last 64 access faults, newest first -/
  accLog : List AccFault
  /-- the DRBG is stopped -/
  entropyBad : Bool
  /-- DEBUG_SEEN -/
  debugSeen : Bool
  /-- scope of the open debug session: 0 none, 1 READ, 2 READ_WRITE, 3 open -/
  debugScope : Nat
  /-- SEC_WATCH subscriptions -/
  watch : List SecWatch
  /-- an IMAGE_STAGE or IMAGE_ACTIVATE is running -/
  staging : Bool
  /-- a life-cycle transition whose fuses are to be burned (R418) -/
  transition : Option LifeCycle
  /-- no record copy qualified, or no image passed: `TOP.FAULTS` bit 10 (R413, R423) -/
  stuck : Bool
  deriving DecidableEq, Repr, Inhabited

/-- Sec right after reset, or blank. -/
def Sec.reset : Sec where
  fuses := Fuses.reset
  slotA := none
  slotB := none
  selector := some false
  recordCopies := [none, none]
  record := Record.reset
  recordOk := false
  running := Image.reset
  bootStatus := 0
  srtp := List.replicate 128 SrtpSlot.reset
  config := DevConfig.reset
  provKey := List.replicate 64 none
  provNo := 0
  act := []
  actIndex := 0
  actWord0 := 0
  actWord1 := 0
  actBusy := false
  actResult := 0
  epoch := 0
  removals := []
  waitingCommit := none
  dirty := []
  accLog := []
  entropyBad := false
  debugSeen := false
  debugScope := 0
  watch := []
  staging := false
  transition := none
  stuck := false

end Sys2Proof.Machine
end

