-- ==== Sys2Proof/Machine/StateGath.lean ====
section
/-!
DEFINITION. Mailboxes, the gathering and the twin (13_gathering_twin.md): the state the spec gives, as plain data, and its reset values.
A field's docstring says what the spec calls it; INVENTORY.md gives its rule and where its reset value comes from.
-/

namespace Sys2Proof.Machine

/-- A mailbox MB0–MB3 (R445, R446, R444). -/
structure HostBox where
  /-- `MB.OUT0`–`MB.OUT15` -/
  outWords : List (BitVec 32)
  /-- `MB.IN0`–`MB.IN15` -/
  inWords : List (BitVec 32)
  /-- `MB.OUT_FULL` -/
  outFull : Bool
  /-- `MB.OUT_LAST` -/
  outLast : BitVec 2
  /-- `MB.IN_FULL` -/
  inFull : Bool
  /-- `MB.OWNER` -/
  owner : BitVec 8
  /-- sender generation of the host's waiting message -/
  outGen : BitVec 16
  /-- replies held, oldest first, at most four (R444) -/
  replies : List (List (BitVec 32))
  /-- outcome of firmware's last message: 0 none, 1 READ, 2 DROPPED -/
  fwLast : BitVec 2
  deriving DecidableEq, Repr, Inhabited

/-- HostBox right after reset, or blank. -/
def HostBox.reset : HostBox where
  outWords := List.replicate 16 0
  inWords := List.replicate 16 0
  outFull := false
  outLast := 0
  inFull := false
  owner := 0
  outGen := 0
  replies := []
  fwLast := 0

/-- A message waiting in a spine mailbox (R450). -/
structure MailMsg where
  /-- its 64 bytes -/
  words : List Byte
  /-- sender's owner number -/
  owner : Nat
  /-- sender generation -/
  gen : BitVec 16
  /-- device time of delivery -/
  at_ : Nat
  deriving DecidableEq, Repr, Inhabited

/-- MailMsg right after reset, or blank. -/
def MailMsg.reset : MailMsg where
  words := []
  owner := 0
  gen := 0
  at_ := 0

/-- A mailbox MB4–MB15 (R438, R439, R448, R451). -/
structure FarBox where
  /-- lock owner, 0 free, 0x20 + r for CMD ring r -/
  owner : Nat
  /-- the outgoing direction is full -/
  full : Bool
  /-- the message sent and without an outcome -/
  out : List Byte
  /-- the far end has stored it and acknowledged it -/
  delivered : Bool
  /-- the message that waits here -/
  inbox : Option MailMsg
  /-- generation of the far end -/
  farGen : BitVec 16
  /-- plate nonce last seen in the peer's report (R453) -/
  farNonce : Option (BitVec 64)
  /-- ring that watches the mailbox -/
  watch : Option Nat
  /-- outcomes given to the far end, newest first: READ (the model's observation) -/
  given : List Bool
  deriving DecidableEq, Repr, Inhabited

/-- FarBox right after reset, or blank. -/
def FarBox.reset : FarBox where
  owner := 0
  full := false
  out := []
  delivered := false
  inbox := none
  farGen := 0
  farNonce := none
  watch := none
  given := []

/-- A member of the gathering (R456, R464). -/
structure Member where
  /-- 0 absent, 1 reachable, 2 out of reach, 3 conflict -/
  st : Nat
  /-- parts, 1 or 2 -/
  parts : Nat
  /-- hops -/
  hops : Nat
  /-- direction: false A, true B -/
  dirB : Bool
  /-- role last announced -/
  role : Nat
  /-- DEVICE_ID of the active part -/
  devId : List Byte
  /-- hops by link A, none when that way is cut -/
  hopsA : Option Nat
  /-- hops by link B -/
  hopsB : Option Nat
  /-- demand estimate it last reported in the table, MB/s -/
  payloadDemand : Nat
  deriving DecidableEq, Repr, Inhabited

/-- Member right after reset, or blank. -/
def Member.reset : Member where
  st := 0
  parts := 0
  hops := 0
  dirB := false
  role := 3
  devId := []
  hopsA := none
  hopsB := none
  payloadDemand := 0

/-- Link A, B or T (R452, R454). -/
structure SpineLink where
  /-- 0 down, 1 authenticating, 2 up -/
  st : Nat
  /-- losses since reset -/
  losses : Nat
  /-- own-timer time of the last handshake attempt -/
  tryAt : Option Nat
  /-- its keys while it is authenticated (R453) -/
  key : List Byte
  deriving DecidableEq, Repr, Inhabited

/-- SpineLink right after reset, or blank. -/
def SpineLink.reset : SpineLink where
  st := 0
  losses := 0
  tryAt := none
  key := []

/-- The outcome of a forwarded folio (R458). -/
structure FwdOutcome where
  /-- origin member -/
  origin : Nat
  /-- ring -/
  ring : Nat
  /-- SEQUENCE -/
  seq : BitVec 32
  /-- its status -/
  status : Nat
  /-- its RESULT -/
  result : BitVec 64
  /-- it has completed -/
  done : Bool
  deriving DecidableEq, Repr, Inhabited

/-- FwdOutcome right after reset, or blank. -/
def FwdOutcome.reset : FwdOutcome where
  origin := 0
  ring := 0
  seq := 0
  status := 0
  result := 0
  done := false

/-- A reply this member sent (the model's observation) (R458). -/
structure GathReply where
  /-- origin member -/
  origin : Nat
  /-- ring -/
  ring : Nat
  /-- SEQUENCE -/
  seq : BitVec 32
  /-- status -/
  status : Nat
  /-- RESULT -/
  result : BitVec 64
  deriving DecidableEq, Repr, Inhabited

/-- GathReply right after reset, or blank. -/
def GathReply.reset : GathReply where
  origin := 0
  ring := 0
  seq := 0
  status := 0
  result := 0

/-- A leaf sent or received over the spine (R460). -/
structure LeafMsg where
  /-- decoding member -/
  member : Nat
  /-- context -/
  context : Nat
  /-- FRAME -/
  frame : BitVec 32
  /-- LEAF -/
  leaf : Nat
  /-- receiver -/
  dst : Nat
  /-- direction it went -/
  dirB : Bool
  /-- sent with its poison mark -/
  poisoned : Bool
  /-- FRAME of the context's first picture after the last step of device time, sent before it (R80) -/
  stepFrame : Option (BitVec 32)
  deriving DecidableEq, Repr, Inhabited

/-- LeafMsg right after reset, or blank. -/
def LeafMsg.reset : LeafMsg where
  member := 0
  context := 0
  frame := 0
  leaf := 0
  dst := 0
  dirB := false
  poisoned := false
  stepFrame := none

/-- A context received from another member (R459, R460). -/
structure RxContext where
  /-- decoding member -/
  member : Nat
  /-- its number there -/
  context : Nat
  /-- its colour -/
  colour : Nat
  /-- its stream is host-fed (HOSTFED of R66) -/
  hostFed : Bool
  /-- pictures stored, newest first -/
  pics : List Picture
  /-- leaves taken: FRAME and LEAF -/
  got : List (BitVec 32 × Nat)
  /-- declared size and rate -/
  decl : Decl
  /-- its class -/
  cls : StreamClass
  /-- capture timing of the stream -/
  refPtp : Bool
  /-- its share has ended: its pictures stay for the layers that selected them (R461) -/
  ended : Bool
  /-- FRAME of the first picture after the decoding member's last step (R80) -/
  stepFrame : Option (BitVec 32)
  /-- FRAME and place in output order of the newest picture of the share -/
  last : Option (BitVec 32 × Nat)
  /-- place in output order from which the share's pictures lie -/
  floor : Nat
  deriving DecidableEq, Repr, Inhabited

/-- RxContext right after reset, or blank. -/
def RxContext.reset : RxContext where
  member := 0
  context := 0
  colour := 0
  hostFed := false
  pics := []
  got := []
  decl := Decl.reset
  cls := .urgent
  refPtp := false
  ended := false
  stepFrame := none
  last := none
  floor := 0

/-- The gathering (R455, R457). -/
structure Gath where
  /-- members 0–7 -/
  mem : List Member
  /-- the lead's GATHER_ID -/
  lead : Option Nat
  /-- 0 WHOLE, 1 REVERSED, 2 SPLIT -/
  ring : Nat
  /-- links A, B and T -/
  link : List SpineLink
  /-- in conflict with the larger DEVICE_ID: relays traffic only (R456) -/
  relayOnly : Bool
  /-- outcomes of the last 64 forwarded folios, newest first -/
  outcomes : List FwdOutcome
  /-- replies sent, newest first (the model's observation) -/
  replies : List GathReply
  /-- leaves sent, newest first (the model's observation) -/
  sent : List LeafMsg
  /-- leaves acknowledged to their decoding member, newest first (the model's observation) -/
  acks : List LeafMsg
  /-- contexts received from other members -/
  rx : List RxContext
  /-- events sent to the member that configured their source, newest first: member, record (R458; the model's observation) -/
  fwdEvents : List (Nat × List Byte)
  /-- leaves sent again after reversal -/
  resent : Nat
  /-- GATHER_WATCH subscriptions -/
  watch : List (Nat × BitVec 8)
  /-- occurrences of each EV_GATHER kind since its last event -/
  evCount : List Nat
  /-- folios forwarded: target, ring, SEQUENCE (the model's observation) -/
  fwdSent : List (Nat × Nat × BitVec 32)
  /-- spine time frames sent or followed -/
  frameNo : Nat
  /-- own-timer time since which no path to a member exists -/
  noPathSince : List (Option Nat)
  deriving DecidableEq, Repr, Inhabited

/-- Gath right after reset, or blank. -/
def Gath.reset : Gath where
  mem := List.replicate 8 Member.reset
  lead := none
  ring := 0
  link := List.replicate 3 SpineLink.reset
  relayOnly := false
  outcomes := []
  replies := []
  sent := []
  acks := []
  rx := []
  fwdEvents := []
  resent := 0
  watch := []
  evCount := List.replicate 11 0
  fwdSent := []
  frameNo := 0
  noPathSince := List.replicate 8 none

/-- Twin states, codes 0–4 (R468, R480). -/
inductive TwinSt where
  | starting | electing | active | standby | yielding
  deriving DecidableEq, Repr, Inhabited

/-- Twin operation (R468, R480). -/
structure Twin where
  /-- state -/
  st : TwinSt
  /-- SENIOR strap: 500 µs -/
  secondary : Bool
  /-- HB_IN silent (no edge seen since reset) -/
  hbSilent : Bool
  /-- CLAIM line low -/
  claimLow : Bool
  /-- CLAIM released: high for 2 ms (R467) -/
  claimReleased : Bool
  /-- this part pulls CLAIM low -/
  pulling : Bool
  /-- this part drives ACTIVE_N low -/
  activeN : Bool
  /-- HB_OUT toggles -/
  hbOut : Bool
  /-- link T idled by this part -/
  linkIdle : Bool
  /-- every port is muted -/
  muted : Bool
  /-- own-timer time at which the SENIOR delay ends -/
  senior : Option Nat
  /-- own-timer time at which the 100 µs check ends -/
  checkAt : Option Nat
  /-- the claim in progress is a takeover by a standby in sync, or the takeover's actions are still to come -/
  forTakeover : Bool
  /-- the claim in progress is FORCE -/
  forced : Bool
  /-- the claim in progress is case 1 of R469 -/
  aloneClaim : Bool
  /-- partner's state as last reported -/
  partner : Option TwinSt
  /-- a partner has authenticated on link T since reset -/
  partnerSeen : Bool
  /-- the standby of the pair is in sync (R471) -/
  inSync : Bool
  /-- the active part's snapshot has been applied -/
  snapshot : Bool
  /-- own-timer time since which it has been in sync -/
  syncSince : Option Nat
  /-- time in sync before that, ns -/
  syncNs : Nat
  /-- partner's `TOP.FAULTS` -/
  partnerFaults : BitVec 16
  /-- partner's hottest junction, °C -/
  partnerHot : Int
  /-- partner's projected remaining margin, tenths of a year -/
  partnerMargin : Nat
  /-- islands with a lasting fault in the partner's health report -/
  partnerLasting : List Nat
  /-- partner's DEVICE_ID -/
  partnerDevId : List Byte
  /-- decode disagreements -/
  decodeDis : Nat
  /-- self-test cycles passed -/
  cycles : Nat
  /-- self-test failures -/
  selfFails : Nat
  /-- DISAGREE events -/
  disagree : Nat
  /-- own-timer time of the last DISAGREE of each kind -/
  disagreeAt : List (Option Nat)
  /-- duration of the last takeover, µs -/
  takeoverUs : Nat
  /-- unanswered host messages -/
  unanswered : Nat
  /-- own-timer time all three conditions of R470 came to hold -/
  lostAt : Option Nat
  /-- a planned swap runs for the folio of this ring -/
  swap : Option Nat
  /-- own-timer time YIELDING was entered -/
  yieldAt : Option Nat
  /-- health reports published (the model's observation) -/
  healthSent : Nat
  /-- the last health report published: state, faults, hottest junction, margin, lasting islands (the model's observation) -/
  healthOut : List Byte
  /-- islands that the standby's self-test cycle in progress has passed (R477) -/
  tested : List Nat
  /-- a sensor that has passed the shutdown point (R618) -/
  yieldSensor : Option Nat
  /-- mirror items taken or acknowledged (the model's observation) -/
  mirrored : Nat
  /-- contexts for which the standby asked for a PLI (the model's observation) -/
  pliAsked : List Nat
  /-- a CTRL restart is running (R362) -/
  resyncCause1 : Bool
  /-- own-timer time of the first fault of the running restarts -/
  restartFrom : Nat
  deriving DecidableEq, Repr, Inhabited

/-- Twin right after reset, or blank. -/
def Twin.reset : Twin where
  st := .starting
  secondary := false
  hbSilent := true
  claimLow := false
  claimReleased := false
  pulling := false
  activeN := false
  hbOut := false
  linkIdle := false
  muted := true
  senior := none
  checkAt := none
  forTakeover := false
  forced := false
  aloneClaim := false
  partner := none
  partnerSeen := false
  inSync := false
  snapshot := false
  syncSince := none
  syncNs := 0
  partnerFaults := 0
  partnerHot := 0
  partnerMargin := 0
  partnerLasting := []
  partnerDevId := []
  decodeDis := 0
  cycles := 0
  selfFails := 0
  disagree := 0
  disagreeAt := List.replicate 5 none
  takeoverUs := 0
  unanswered := 0
  lostAt := none
  swap := none
  yieldAt := none
  healthSent := 0
  healthOut := []
  tested := []
  yieldSensor := none
  mirrored := 0
  pliAsked := []
  resyncCause1 := false
  restartFrom := 0

/-- Mailboxes (R438). -/
structure Mail where
  /-- MB0–MB3 -/
  host : List HostBox
  /-- `MBX.HOST_GEN` -/
  hostGen : BitVec 16
  /-- MB4–MB15, MB(4 + i) at index i -/
  far : List FarBox
  deriving DecidableEq, Repr, Inhabited

/-- Mail right after reset, or blank. -/
def Mail.reset : Mail where
  host := List.replicate 4 HostBox.reset
  hostGen := 0
  far := List.replicate 12 FarBox.reset

end Sys2Proof.Machine
end

