-- ==== Sys2Proof/Machine/StateDesk.lean ====
section
/-!
DEFINITION. Touch panels, console inputs and outputs (14_touch_inputs.md): the state the spec gives, as plain data, and its reset values.
A field's docstring says what the spec calls it; INVENTORY.md gives its rule and where its reset value comes from.
-/

namespace Sys2Proof.Machine

/-- Panel states, codes 0–4 (R500). -/
inductive PanelSt where
  | off | starting | running | standby | failed
  deriving DecidableEq, Repr, Inhabited

/-- Contact states, codes 0–3 (R497). -/
inductive ContactSt where
  | down | move | up | absorbed
  deriving DecidableEq, Repr, Inhabited

/-- TOUCH_PANEL's settings (R486). -/
structure PanelCfg where
  /-- ROWS -/
  rows : Nat
  /-- COLS -/
  cols : Nat
  /-- FLAGS [0] GLOVE -/
  glove : Bool
  /-- FLAGS [1] SWAP_XY -/
  swapXy : Bool
  /-- FLAGS [2] FLIP_X -/
  flipX : Bool
  /-- FLAGS [3] FLIP_Y -/
  flipY : Bool
  /-- FLAGS [4] EVERY_REPORT -/
  every : Bool
  /-- DRIVE_V -/
  driveV : Nat
  /-- RING -/
  ring : Nat
  /-- WINDOW -/
  window : Nat
  /-- REPORT_OFFSET -/
  repOffset : Nat
  /-- REPORT_BLOCKS -/
  repBlocks : Nat
  /-- FREQ, kHz -/
  freq : List Nat
  /-- MUT_THRESH -/
  mutThresh : Nat
  /-- SELF_THRESH -/
  selfThresh : Nat
  /-- GLOVE_MUT -/
  gloveMut : Nat
  /-- GLOVE_SELF -/
  gloveSelf : Nat
  /-- NEG_THRESH -/
  negThresh : Nat
  /-- LARGE_NODES -/
  largeNodes : Nat
  /-- GUARD -/
  guard : Nat
  /-- RES_X -/
  resX : Nat
  /-- RES_Y -/
  resY : Nat
  /-- HOLD_MAX, s -/
  holdMax : Nat
  /-- DRIFT, ms per count -/
  drift : Nat
  /-- NOISE_LIMIT -/
  noiseLimit : Nat
  deriving DecidableEq, Repr, Inhabited

/-- PanelCfg right after reset, or blank. -/
def PanelCfg.reset : PanelCfg where
  rows := 8
  cols := 8
  glove := false
  swapXy := false
  flipX := false
  flipY := false
  every := false
  driveV := 0
  ring := 0
  window := 0
  repOffset := 0
  repBlocks := 16
  freq := [100, 100, 100, 100]
  mutThresh := 200
  selfThresh := 120
  gloveMut := 60
  gloveSelf := 40
  negThresh := 100
  largeNodes := 30
  guard := 2
  resX := 1
  resY := 1
  holdMax := 300
  drift := 100
  noiseLimit := 40

/-- A contact of a panel (R491, R497). -/
structure Contact where
  /-- ID -/
  id : Nat
  /-- STATE in the last report -/
  st : ContactSt
  /-- centroid along the drive lines, 1/256 node -/
  cd : Int
  /-- centroid along the sense lines, 1/256 node -/
  cs : Int
  /-- X -/
  x : Nat
  /-- Y -/
  y : Nat
  /-- SIGNAL -/
  signal : Int
  /-- SELF -/
  self_ : Int
  /-- nodes of its region: drive × COLS + sense -/
  nodes : List Nat
  /-- EDGE -/
  edge : Bool
  /-- AGE -/
  age : Nat
  /-- own-timer time it went down -/
  since : Nat
  /-- peak node -/
  peak : Nat
  deriving DecidableEq, Repr, Inhabited

/-- Contact right after reset, or blank. -/
def Contact.reset : Contact where
  id := 0
  st := .down
  cd := 0
  cs := 0
  x := 0
  y := 0
  signal := 0
  self_ := 0
  nodes := []
  edge := false
  age := 0
  since := 0
  peak := 0

/-- A touch panel (R485, R500). -/
structure Panel where
  /-- state -/
  st : PanelSt
  /-- owning colour -/
  owner : Option Nat
  /-- settings in force -/
  cfg : PanelCfg
  /-- settings that apply from the next mutual frame -/
  next : Option PanelCfg
  /-- current frequency index -/
  freqIdx : Nat
  /-- excluded drive lines -/
  exDrive : List Nat
  /-- excluded sense lines -/
  exSense : List Nat
  /-- mutual baseline of each candidate frequency, drive × COLS + sense -/
  base : List (List Int)
  /-- self baseline of each drive electrode -/
  baseD : List (List Int)
  /-- self baseline of each sense electrode -/
  baseS : List (List Int)
  /-- raw values of the newest mutual frame -/
  raw : List Int
  /-- raw values of the newest self frame, drive electrodes -/
  rawD : List Int
  /-- raw values of the newest self frame, sense electrodes -/
  rawS : List Int
  /-- consecutive mutual frames with delta at or below −NEG_THRESH, per node -/
  negRun : List Nat
  /-- consecutive self frames of the same, per drive electrode -/
  negRunD : List Nat
  /-- consecutive self frames of the same, per sense electrode -/
  negRunS : List Nat
  /-- nodes held (contact, large object or water) in the newest mutual frame -/
  held : List Nat
  /-- contacts, rising ID -/
  contacts : List Contact
  /-- SEQ of the next report -/
  seq : BitVec 32
  /-- noise at the current frequency, counts -/
  noise : Nat
  /-- the drive frequency has hopped for the next mutual frame -/
  hop : Bool
  /-- it has hopped in this cycle -/
  hopped : Bool
  /-- FLAGS of the previous report -/
  lastFlags : BitVec 16
  /-- own-timer time reporting began (STARTUP) -/
  reportAt : Nat
  /-- cycles left of a TOUCH_REBASE learning -/
  learn : Nat
  /-- sums of mutual frames while learning -/
  learnSum : List Int
  /-- sums of self frames while learning, drive electrodes -/
  learnD : List Int
  /-- sums of self frames while learning, sense electrodes -/
  learnS : List Int
  /-- mutual frames summed -/
  learnN : Nat
  /-- self frames summed -/
  learnM : Nat
  /-- own-timer time the cycle in progress started -/
  cycleAt : Option Nat
  /-- own-timer time of the last EV_TOUCH REBASE -/
  rebaseAt : Option Nat
  /-- nodes reset since then -/
  rebaseN : Nat
  /-- reports written -/
  reports : Nat
  /-- nodes reset by REBASE -/
  resets : Nat
  /-- contacts absorbed -/
  absorbed : Nat
  /-- frames with regions rejected as water -/
  waterFrames : Nat
  /-- frames with a large object -/
  largeFrames : Nat
  /-- hops -/
  hops : Nat
  /-- contacts that end in the next report -/
  ending : List Contact
  deriving DecidableEq, Repr, Inhabited

/-- Panel right after reset, or blank. -/
def Panel.reset : Panel where
  st := .off
  owner := none
  cfg := PanelCfg.reset
  next := none
  freqIdx := 0
  exDrive := []
  exSense := []
  base := [[], [], [], []]
  baseD := [[], [], [], []]
  baseS := [[], [], [], []]
  raw := []
  rawD := []
  rawS := []
  negRun := []
  negRunD := []
  negRunS := []
  held := []
  contacts := []
  seq := 0
  noise := 0
  hop := false
  hopped := false
  lastFlags := 0
  reportAt := 0
  learn := 0
  learnSum := []
  learnD := []
  learnS := []
  learnN := 0
  learnM := 0
  cycleAt := none
  rebaseAt := none
  rebaseN := 0
  reports := 0
  resets := 0
  absorbed := 0
  waterFrames := 0
  largeFrames := 0
  hops := 0
  ending := []

/-- Pulls of an input (R505). -/
inductive Pull where
  | none | up | down
  deriving DecidableEq, Repr, Inhabited

/-- A console input (R502, R505). -/
structure ConIn where
  /-- ENABLE -/
  enable : Bool
  /-- colour that enabled it -/
  owner : Option Nat
  /-- ACTIVE_LOW -/
  activeLow : Bool
  /-- PAIR -/
  pair : Bool
  /-- PULL -/
  pull : Pull
  /-- RING -/
  ring : Nat
  /-- DEBOUNCE -/
  debounce : Nat
  /-- CHATTER_N -/
  chatterN : Nat
  /-- CHATTER_W, ms -/
  chatterW : Nat
  /-- QUIET, ms -/
  quiet : Nat
  /-- PAIR_MS -/
  pairMs : Nat
  /-- STUCK_MS -/
  stuckMs : Nat
  /-- raw level at the last sample -/
  raw : Bool
  /-- accepted level (raw polarity) -/
  level : Bool
  /-- consecutive samples that differed from the accepted level -/
  run_ : Nat
  /-- device time of the first of them, less the steps until then -/
  runTime : Int
  /-- the same for the first sample of the accepted level -/
  levelTime : Int
  /-- own-timer times of accepted changes within CHATTER_W -/
  changes : List Nat
  /-- in CHATTER -/
  chatter : Bool
  /-- own-timer time of the last raw change -/
  rawAt : Nat
  /-- own-timer time of the last accepted change -/
  activeAt : Nat
  /-- STUCK posted -/
  stuck : Bool
  /-- accepted changes since enabled -/
  count : Nat
  /-- level of the pair: 0 inactive, 1 active, 2 FAULT -/
  pairLevel : Nat
  /-- own-timer time the present discrepancy began -/
  discAt : Option Nat
  /-- device time of its first sample, less the steps until then -/
  discTime : Int
  /-- samples the inputs of a pair in FAULT have agreed -/
  agree : Nat
  /-- device time of the first of them, or of the first sample of the level the pair has, less the steps until then -/
  agreeTime : Int
  deriving DecidableEq, Repr, Inhabited

/-- ConIn right after reset, or blank. -/
def ConIn.reset : ConIn where
  enable := false
  owner := none
  activeLow := false
  pair := false
  pull := .none
  ring := 0
  debounce := 50
  chatterN := 10
  chatterW := 1000
  quiet := 1000
  pairMs := 50
  stuckMs := 0
  raw := false
  level := false
  run_ := 0
  runTime := 0
  levelTime := 0
  changes := []
  chatter := false
  rawAt := 0
  activeAt := 0
  stuck := false
  count := 0
  pairLevel := 0
  discAt := none
  discTime := 0
  agree := 0
  agreeTime := 0

/-- Modes of an output, codes 0–5 (R507). -/
inductive OutMode where
  | inactive | active | blink | pulse | follow | released
  deriving DecidableEq, Repr, Inhabited

/-- A console output (R507, R509). -/
structure ConOut where
  /-- mode (high impedance until set) -/
  mode : OutMode
  /-- colour that first set it -/
  owner : Option Nat
  /-- OPEN_DRAIN -/
  openDrain : Bool
  /-- ACTIVE_LOW -/
  activeLow : Bool
  /-- LAYER -/
  layer : Nat
  /-- PERIOD, ms -/
  period : Nat
  /-- ON, ms -/
  on_ : Nat
  /-- RING -/
  ring : Nat
  /-- driven active -/
  driven : Bool
  /-- high impedance -/
  hiZ : Bool
  /-- in FAULT after an overload -/
  fault : Bool
  /-- own-timer time at which the pulse ends -/
  endsAt : Option Nat
  deriving DecidableEq, Repr, Inhabited

/-- ConOut right after reset, or blank. -/
def ConOut.reset : ConOut where
  mode := .released
  owner := none
  openDrain := false
  activeLow := false
  layer := 0
  period := 20
  on_ := 1
  ring := 0
  driven := false
  hiZ := true
  fault := false
  endsAt := none

/-- The TOUCH unit (R484). -/
structure Desk where
  /-- T0–T3 -/
  panel : List Panel
  /-- CI0–CI31 -/
  input : List ConIn
  /-- CO0–CO15 -/
  output : List ConOut
  /-- own-timer time of the last TOUCH_MIRROR -/
  mirrorAt : Option Nat
  deriving DecidableEq, Repr, Inhabited

/-- Desk right after reset, or blank. -/
def Desk.reset : Desk where
  panel := List.replicate 4 Panel.reset
  input := List.replicate 32 ConIn.reset
  output := List.replicate 16 ConOut.reset
  mirrorAt := none

end Sys2Proof.Machine
end

