-- ==== Sys2Proof/Machine/StateSys.lean ====
section
/-!
DEFINITION. Clocks and power, lanes, faults, check and compression units, journal (15, 16, 17, 18): the state the spec gives, as plain data, and its reset values.
A field's docstring says what the spec calls it; INVENTORY.md gives its rule and where its reset value comes from.
-/

namespace Sys2Proof.Machine

/-- A crystal as the supervisor sees it (R519, R521). -/
structure Crystal where
  /-- `CLK.XA_GOOD` or `CLK.XB_GOOD` -/
  good : Bool
  /-- it shows no edges -/
  stopped : Bool
  deriving DecidableEq, Repr, Inhabited

/-- Crystal right after reset, or blank. -/
def Crystal.reset : Crystal where
  good := false
  stopped := false

/-- Count and time of one kind of event (R543). -/
structure EvGate where
  /-- occurrences since the last event of the kind -/
  count : Nat
  /-- own-timer time of that event -/
  last : Option Nat
  deriving DecidableEq, Repr, Inhabited

/-- EvGate right after reset, or blank. -/
def EvGate.reset : EvGate where
  count := 0
  last := none

/-- Clocks, supplies and temperature (R515, R544). -/
structure Power where
  /-- supply-good has been declared -/
  supplyGood : Bool
  /-- device reset is held (clock start has not ended) -/
  held : Bool
  /-- own-timer time at which the crystal drivers started (R519) -/
  startAt : Nat
  /-- own-timer time of the last judgement of the clocks -/
  judgedAt : Option Nat
  /-- `CLK.REF` -/
  clkRef : BitVec 2
  /-- XTAL_A -/
  xa : Crystal
  /-- XTAL_B -/
  xb : Crystal
  /-- `CLK.FOSC_GOOD` -/
  foscGood : Bool
  /-- `CLK.FAILOVER` -/
  failover : Bool
  /-- `CLK.FORCED` -/
  forced : Bool
  /-- `CLK.AB_PPM`, 0.1 ppm -/
  abPpm : BitVec 16
  /-- `CLK.DELAY`, the board fuse -/
  delay : BitVec 4
  /-- `CLK.FUSED` -/
  fused : Bool
  /-- an exhausted margin or clock fault holds `TOP.FAULTS` bit 13 -/
  clockLasting : Bool
  /-- junction sensors, °C -/
  temp : List Int
  /-- the sensor that serves each island, as the trim fuses record -/
  nearest : List Nat
  /-- own-timer time since which every sensor has read below +100 °C -/
  coolSince : Option Nat
  /-- a sensor has exceeded +105 °C and not cleared -/
  hot : Bool
  /-- a DRAM die is above its operating range and not cleared -/
  dieHot : Bool
  /-- own-timer time since which no DRAM die has been above its operating range -/
  dieCoolSince : Option Nat
  /-- each sensor's readings of the last 24 h, newest first: own-timer time, °C -/
  tempLog : List (List (Nat × Int))
  /-- the thermal trip holds device reset (R618) -/
  tripped : Bool
  /-- thermal events since reset -/
  thermals : Nat
  /-- forced clock switches since reset -/
  forcedN : Nat
  /-- rail readings, mV -/
  rail : List Nat
  /-- own-timer time of the last SUPPLY event of each rail -/
  railAt : List (Option Nat)
  /-- POWER_WATCH subscriptions -/
  watch : List (Nat × BitVec 8)
  /-- EV_POWER counts by kind -/
  ev : List EvGate
  /-- own-timer time of the last MARGIN of each island -/
  marginAt : List (Option Nat)
  /-- the same for MARGIN_LOW -/
  marginLowAt : List (Option Nat)
  /-- the same for EXHAUSTED -/
  exhaustedAt : List (Option Nat)
  /-- BOOT_HOLD strap -/
  bootHold : Bool
  /-- RESET_WIPE has ended -/
  wiped : Bool
  /-- firmware has started (boot step 5) -/
  booted : Bool
  /-- every channel initialised and trained (R399) -/
  trainedOk : Bool
  /-- balls in their reset state (R615) -/
  resetPins : Bool
  /-- device resets so far (the model's observation) -/
  resets : Nat
  deriving DecidableEq, Repr, Inhabited

/-- Power right after reset, or blank. -/
def Power.reset : Power where
  supplyGood := false
  held := true
  startAt := 0
  judgedAt := none
  clkRef := 0
  xa := Crystal.reset
  xb := Crystal.reset
  foscGood := false
  failover := false
  forced := false
  abPpm := 0
  delay := 0
  fused := false
  clockLasting := false
  temp := List.replicate 33 25
  nearest := (List.range 43).map (fun i => i % 32)
  coolSince := none
  hot := false
  dieHot := false
  dieCoolSince := none
  tempLog := List.replicate 33 []
  tripped := false
  thermals := 0
  forcedN := 0
  rail := [950, 850, 1200, 1050, 900, 500, 1800, 3300, 12000, 1800]
  railAt := List.replicate 10 none
  watch := []
  ev := List.replicate 8 EvGate.reset
  marginAt := List.replicate 43 none
  marginLowAt := List.replicate 43 none
  exhaustedAt := List.replicate 43 none
  bootHold := false
  wiped := false
  booted := false
  trainedOk := true
  resetPins := true
  resets := 0

/-- Transmit states, codes 0–4 (R562). -/
inductive TxSt where
  | off | sleep | idle | active | test
  deriving DecidableEq, Repr, Inhabited

/-- Receive states, codes 0–3 (R562). -/
inductive RxSt where
  | off | sleep | active | test
  deriving DecidableEq, Repr, Inhabited

/-- A test on a lane (R559). -/
structure LaneTest where
  /-- MODE -/
  mode : Nat
  /-- PATTERN -/
  pattern : BitVec 8
  /-- RATE -/
  rate : Nat
  /-- INJECT -/
  inject : Nat
  /-- INJECT_LOG2 -/
  injLog2 : Nat
  /-- fixed CTLE code -/
  ctle : Option Nat
  /-- DURATION, ms -/
  duration : Nat
  /-- own-timer time DURATION runs from -/
  runFrom : Option Nat
  /-- single injections still to be made -/
  pend : Nat
  /-- errors of this test -/
  errors : Nat
  /-- bits compared in this test -/
  bits : Nat
  /-- TAG of the LANE_TEST (R341) -/
  tag : BitVec 16
  deriving DecidableEq, Repr, Inhabited

/-- LaneTest right after reset, or blank. -/
def LaneTest.reset : LaneTest where
  mode := 0
  pattern := 0
  rate := 0
  inject := 0
  injLog2 := 10
  ctle := none
  duration := 0
  runFrom := none
  pend := 0
  errors := 0
  bits := 0
  tag := 0

/-- A serial lane (R562). -/
structure Lane where
  /-- `LANE.TX_STATE` -/
  tx : TxSt
  /-- `LANE.RX_STATE` -/
  rx : RxSt
  /-- `LANE.FROZEN` -/
  frozen : Bool
  /-- own-timer time of the freeze -/
  frozenAt : Nat
  /-- junction sensor at the last adaptation, °C -/
  frozenTemp : Int
  /-- `LANE.CHK_SYNC` -/
  sync : Bool
  /-- `LANE.CDR_LOCK` -/
  cdr : Bool
  /-- `LANE.CTLE` -/
  ctle : BitVec 4
  /-- `LANE.VGA` -/
  vga : BitVec 5
  /-- settings held before a refresh in progress (R553) -/
  saved : Option (BitVec 4 × BitVec 5)
  /-- `LANE.ERRORS` -/
  errors : BitVec 32
  /-- bits compared -/
  bits : BitVec 48
  /-- `LANE.BITS_HI`, latched -/
  bitsHi : BitVec 16
  /-- `LANE.INJECTED` -/
  injected : BitVec 32
  /-- `LANE.CODE_ERR` -/
  codeErr : BitVec 16
  /-- `LANE.CDR_LOSS` -/
  cdrLoss : BitVec 16
  /-- `LANE.REFRESH` -/
  refresh : BitVec 16
  /-- total of ERRORS since reset, as firmware keeps it -/
  totErrors : Nat
  /-- the same for INJECTED -/
  totInjected : Nat
  /-- the same for CODE_ERR -/
  totCode : Nat
  /-- the same for CDR_LOSS -/
  totCdr : Nat
  /-- the same for REFRESH -/
  totRefresh : Nat
  /-- bits compared since reset, as firmware keeps the total -/
  totBits : Nat
  /-- the link of the lane is reported lost to its protocol -/
  lost : Bool
  /-- test in progress -/
  test : Option LaneTest
  /-- EV_LANE counts by kind -/
  ev : List EvGate
  deriving DecidableEq, Repr, Inhabited

/-- Lane right after reset, or blank. -/
def Lane.reset : Lane where
  tx := .off
  rx := .off
  frozen := false
  frozenAt := 0
  frozenTemp := 0
  sync := false
  cdr := false
  ctle := 8
  vga := 16
  saved := none
  errors := 0
  bits := 0
  bitsHi := 0
  injected := 0
  codeErr := 0
  cdrLoss := 0
  refresh := 0
  totErrors := 0
  totInjected := 0
  totCode := 0
  totCdr := 0
  totRefresh := 0
  totBits := 0
  lost := false
  test := none
  ev := List.replicate 5 EvGate.reset

/-- A lane quad (R545, R546). -/
structure Quad where
  /-- its lanes -/
  lane : List Lane
  /-- `QUAD.PLL_LOCK` -/
  pllLock : Bool
  /-- `QUAD.PLL_LOSS` -/
  pllLoss : BitVec 8
  /-- total of its losses since reset -/
  totPll : Nat
  deriving DecidableEq, Repr, Inhabited

/-- Quad right after reset, or blank. -/
def Quad.reset : Quad where
  lane := List.replicate 4 Lane.reset
  pllLock := false
  pllLoss := 0
  totPll := 0

/-- The lane quads (R545). -/
structure Lanes where
  /-- Q0–Q12 -/
  quad : List Quad
  /-- LANE_WATCH subscriptions -/
  watch : List (Nat × BitVec 8)
  deriving DecidableEq, Repr, Inhabited

/-- Lanes right after reset, or blank. -/
def Lanes.reset : Lanes where
  quad := List.replicate 13 Quad.reset
  watch := []

/-- A fault source (R566, R569). -/
structure FltSource where
  /-- N -/
  n : Nat
  /-- W, s -/
  w : Nat
  /-- N is fixed -/
  fixed : Bool
  /-- events since reset -/
  events : Nat
  /-- lasting faults declared since reset -/
  lasting : Nat
  deriving DecidableEq, Repr, Inhabited

/-- FltSource right after reset, or blank. -/
def FltSource.reset : FltSource where
  n := 1
  w := 0
  fixed := false
  events := 0
  lasting := 0

/-- The fault sources with their defaults (R566). -/
def fltSources : List FltSource :=
  [(3, 10, false), (2, 10, false), (1, 0, true), (1, 0, true), (3, 600, false), (10, 10, false), (3, 10, false), (1, 0, true),
   (1, 0, true), (3, 600, false), (1, 0, true), (1, 0, true), (3, 10, false), (1, 0, true), (3, 10, false), (3, 10, false)].map
    fun (n, w, f) => { n := n, w := w, fixed := f, events := 0, lasting := 0 }


/-- A fault source instance that has had an event (R565). -/
structure FltInst where
  /-- source code -/
  src : Nat
  /-- island, 255 for none -/
  island : Nat
  /-- UNIT -/
  unit : Nat
  /-- what distinguishes it further: sender of a crossing, bank-row address -/
  key : Nat
  /-- times of its last N events, newest first, own-timer ns -/
  times : List Nat
  /-- a lasting fault is present -/
  present : Bool
  /-- own-timer time of its newest event -/
  lastAt : Nat
  /-- device time of the event that declared its last lasting fault -/
  declared : Nat
  /-- own-timer time from which the quiet window of R567 runs -/
  sinceUp : Option Nat
  deriving DecidableEq, Repr, Inhabited

/-- FltInst right after reset, or blank. -/
def FltInst.reset : FltInst where
  src := 0
  island := 0
  unit := 0
  key := 0
  times := []
  present := false
  lastAt := 0
  declared := 0
  sinceUp := none

/-- An entry of the fault log (R570). -/
structure FltLog where
  /-- device time -/
  time : Nat
  /-- SOURCE -/
  src : Nat
  /-- island -/
  island : Nat
  /-- UNIT -/
  unit : Nat
  /-- lasting -/
  lasting : Bool
  /-- DETAIL -/
  detail : Nat
  deriving DecidableEq, Repr, Inhabited

/-- FltLog right after reset, or blank. -/
def FltLog.reset : FltLog where
  time := 0
  src := 0
  island := 0
  unit := 0
  lasting := false
  detail := 0

/-- The fault recorder (R565). -/
structure Flt where
  /-- sources 0–15 -/
  src : List FltSource
  /-- instances -/
  inst : List FltInst
  /-- the last 256 events, newest first -/
  log : List FltLog
  /-- FAULT_WATCH rings -/
  watch : List Nat
  /-- own-timer times of the CTRL restarts of the last 600 s -/
  restarts : List Nat
  /-- firmware actions that fell due during a stall: source, island, UNIT, key (R568) -/
  delayed : List (Nat × Nat × Nat × Nat)
  deriving DecidableEq, Repr, Inhabited

/-- Flt right after reset, or blank. -/
def Flt.reset : Flt where
  src := fltSources
  inst := []
  log := []
  watch := []
  restarts := []
  delayed := []

/-- A check-value unit (R573). -/
structure CvUnit where
  /-- owning colour, none when free -/
  owner : Option Nat
  /-- POLY -/
  poly : Nat
  /-- ALIVE_WIDTH -/
  aliveWidth : Nat
  /-- ALIVE_OFFSET -/
  aliveOffset : Nat
  /-- ALIVE_STEP -/
  aliveStep : Nat
  /-- RING -/
  ring : Nat
  /-- the context it holds -/
  context : BitVec 64
  /-- alive counter of the last check -/
  lastAlive : Option Nat
  /-- alive counter written into launched frames -/
  txAlive : Nat
  /-- START -/
  start : Nat
  /-- END -/
  end_ : Nat
  /-- CHECK_OFFSET -/
  checkOffset : Nat
  deriving DecidableEq, Repr, Inhabited

/-- CvUnit right after reset, or blank. -/
def CvUnit.reset : CvUnit where
  owner := none
  poly := 0
  aliveWidth := 0
  aliveOffset := 0
  aliveStep := 1
  ring := 0
  context := 0
  lastAlive := none
  txAlive := 0
  start := 0
  end_ := 0
  checkOffset := 0

/-- A compression job (R584). -/
structure ZeJob where
  /-- place of its ZE_RUN among the CMD rings and forwarded folios -/
  ring : Nat
  /-- OP -/
  op : Nat
  /-- LEVEL -/
  level : Nat
  deriving DecidableEq, Repr, Inhabited

/-- ZeJob right after reset, or blank. -/
def ZeJob.reset : ZeJob where
  ring := 0
  op := 0
  level := 0

/-- A compression engine (R578, R566). -/
structure ZeEngine where
  /-- disabled until device reset -/
  disabled : Bool
  /-- folio jobs, oldest first; the first one runs -/
  jobs : List ZeJob
  deriving DecidableEq, Repr, Inhabited

/-- ZeEngine right after reset, or blank. -/
def ZeEngine.reset : ZeEngine where
  disabled := false
  jobs := []

/-- Check-value and compression units (R572). -/
structure Svc where
  /-- CV0–CV7 -/
  cv : List CvUnit
  /-- ZE0 and ZE1 -/
  ze : List ZeEngine
  deriving DecidableEq, Repr, Inhabited

/-- Svc right after reset, or blank. -/
def Svc.reset : Svc where
  cv := List.replicate 8 CvUnit.reset
  ze := List.replicate 2 ZeEngine.reset

/-- Journal states, codes 0–3 (R600). -/
inductive JrnSt where
  | off | recording | gap | replaying
  deriving DecidableEq, Repr, Inhabited

/-- A journal entry (R587). -/
structure JEntry where
  /-- KIND -/
  kind : Nat
  /-- CONTINUED -/
  cont : Bool
  /-- SOURCE -/
  src : BitVec 32
  /-- TIME -/
  time : Nat
  /-- payload -/
  payload : List Byte
  deriving DecidableEq, Repr, Inhabited

/-- JEntry right after reset, or blank. -/
def JEntry.reset : JEntry where
  kind := 0
  cont := false
  src := 0
  time := 0
  payload := []

/-- A compressed chunk and its index record (R591). -/
structure JChunk where
  /-- chunk number -/
  number : Nat
  /-- TIME of its first entry -/
  first : Nat
  /-- offset in the compressed area -/
  offset : Nat
  /-- length -/
  length : Nat
  /-- offset of the first entry header that starts in it -/
  firstHeader : Nat
  /-- [0] snapshot start: TIME of the SNAPSHOT entry that starts in it -/
  snapTime : Option Nat
  /-- [1] gap -/
  gap : Bool
  /-- CRC-32C of the staged chunk -/
  crc : BitVec 32
  /-- the compressed bytes -/
  bytes : List Byte
  /-- the staged bytes (what it decompresses to) -/
  staged : List Byte
  deriving DecidableEq, Repr, Inhabited

/-- JChunk right after reset, or blank. -/
def JChunk.reset : JChunk where
  number := 0
  first := 0
  offset := 0
  length := 0
  firstHeader := 0
  snapTime := none
  gap := false
  crc := 0
  bytes := []
  staged := []

/-- The replay journal (R586, R600). -/
structure Journal where
  /-- state -/
  st : JrnSt
  /-- LEVEL -/
  level : Nat
  /-- WIN_MASK -/
  winMask : BitVec 8
  /-- RING -/
  ring : Nat
  /-- SIZE, MiB -/
  size : Nat
  /-- SNAP_S -/
  snapS : Nat
  /-- address of its region -/
  base : Nat
  /-- own-timer time of the last snapshot -/
  snapAt : Nat
  /-- staged bytes not yet compressed -/
  staging : List Byte
  /-- entries written, newest first (the model's observation) -/
  entries : List JEntry
  /-- entry headers staged and not yet compressed, oldest first: offset in staging, TIME, and 1 for a snapshot start, 2 for a gap, else 0 -/
  headers : List (Nat × Nat × Nat)
  /-- TIME of the last entry whose header has been compressed -/
  lastStaged : Nat
  /-- a snapshot is due at once: recording has begun, or a gap has ended -/
  snapDue : Bool
  /-- chunks retained, newest first -/
  chunks : List JChunk
  /-- number of the next chunk -/
  nextChunk : Nat
  /-- entries written -/
  written : Nat
  /-- entries dropped -/
  dropped : Nat
  /-- entries dropped per kind in this gap -/
  dropKind : List Nat
  /-- device time the gap began -/
  gapStart : Nat
  /-- gaps since enabling -/
  gaps : Nat
  /-- hold START -/
  hold : Option Nat
  /-- first chunk of the held span -/
  holdFrom : Option Nat
  /-- last chunk of the held span once it stopped growing -/
  holdTo : Option Nat
  /-- the region is mapped -/
  region : Bool
  /-- an imported journal is held -/
  imported : Bool
  /-- chunk that must follow the last part imported -/
  importNext : Nat
  /-- chunks imported, oldest first -/
  importChunks : List JChunk
  /-- entries not yet replayed, oldest first -/
  importEntries : List JEntry
  /-- content key of the export in progress -/
  exportKey : List Byte
  /-- first chunk of that export -/
  exportFrom : Nat
  /-- completions that replay has reproduced and not yet met in the journal, oldest first: ring, status, RESULT -/
  replayed : List (Nat × Nat × BitVec 64)
  /-- FLAGS SHOW of REPLAY_START -/
  show_ : Bool
  /-- OUT_WINDOW -/
  outWin : Nat
  /-- OUT_OFFSET -/
  outOffset : Nat
  /-- OUT_BLOCKS -/
  outBlocks : Nat
  /-- next entry of the replay output -/
  outNext : Nat
  /-- last journal TIME replayed -/
  lastTime : Nat
  /-- comparable frames -/
  comparable : Nat
  /-- diverged entries -/
  diverged : Nat
  /-- exact contexts -/
  exact : List Nat
  /-- the next snapshot entry is loaded: replay has just started, or met a gap -/
  snapWanted : Bool
  /-- TIME of the snapshot last loaded -/
  loadedAt : Nat
  /-- DECISION entries replayed (R596) -/
  decisions : List JEntry
  /-- lock state as the last TIME entry replayed gives it (R596) -/
  lock : LockState
  deriving DecidableEq, Repr, Inhabited

/-- Journal right after reset, or blank. -/
def Journal.reset : Journal where
  st := .off
  level := 2
  winMask := 0
  ring := 0
  size := 0
  snapS := 60
  base := 0
  snapAt := 0
  staging := []
  entries := []
  headers := []
  lastStaged := 0
  snapDue := false
  chunks := []
  nextChunk := 0
  written := 0
  dropped := 0
  dropKind := List.replicate 14 0
  gapStart := 0
  gaps := 0
  hold := none
  holdFrom := none
  holdTo := none
  region := false
  imported := false
  importNext := 0
  importChunks := []
  importEntries := []
  exportKey := []
  exportFrom := 0
  replayed := []
  show_ := false
  outWin := 0
  outOffset := 0
  outBlocks := 0
  outNext := 0
  lastTime := 0
  comparable := 0
  diverged := 0
  exact := []
  snapWanted := false
  loadedAt := 0
  decisions := []
  lock := .freerun

end Sys2Proof.Machine
end

