-- ==== Sys2Proof/Machine/State.lean ====
section
/-!
DEFINITION. The whole state: the state the spec gives, as plain data, and its reset values.
A field's docstring says what the spec calls it; INVENTORY.md gives its rule and where its reset value comes from.
-/

namespace Sys2Proof.Machine

/-- Why the machine stops with a fault. -/
inductive Fault where
  /-- Raised by an access the model cannot place: none of the block's commands raises it today, because the spec
  gives every refused access an answer (R50, R53, R56). Safe: the machine stops where the hardware answers. -/
  | noSuchPlace
  deriving DecidableEq, Repr, Inhabited

/-- Why a command has no meaning. -/
inductive Refusal where
  /-- Raised by `exec` alone, for a command that has no meaning in this model. Safe: nothing can be proved of it. -/
  | notModelled (mnemonic : String)
  deriving DecidableEq, Repr, Inhabited


/-- The whole block (R22). -/
structure State where
  /-- device time and the part's own timer -/
  tb : TimeBase
  /-- top-level registers -/
  top : Top
  /-- HOST: rings, records, windows, interrupts, channels -/
  host : HostIf
  /-- NET -/
  net : Net
  /-- stream contexts and decode engines -/
  dec : Dec
  /-- layers, heads, ports, plate -/
  comp : Comp
  /-- encoders -/
  enc : Enc
  /-- islands and crossings -/
  fab : Fab
  /-- central store -/
  store : Store
  /-- trust -/
  sec : Sec
  /-- mailboxes -/
  mail : Mail
  /-- gathering -/
  gath : Gath
  /-- twin -/
  twin : Twin
  /-- touch and console -/
  desk : Desk
  /-- clocks, supplies, temperature, start-up -/
  pwr : Power
  /-- serial lanes -/
  lanes : Lanes
  /-- fault recorder -/
  flt : Flt
  /-- check-value and compression units -/
  svc : Svc
  /-- replay journal -/
  jrn : Journal
  /-- the commands that wait, first in, first out -/
  pending : List Instr
  deriving DecidableEq, Repr, Inhabited

/-- State right after reset, or blank. -/
def State.reset : State where
  tb := TimeBase.reset
  top := Top.reset
  host := HostIf.reset
  net := Net.reset
  dec := Dec.reset
  comp := Comp.reset
  enc := Enc.reset
  fab := Fab.reset
  store := Store.reset
  sec := Sec.reset
  mail := Mail.reset
  gath := Gath.reset
  twin := Twin.reset
  desk := Desk.reset
  pwr := Power.reset
  lanes := Lanes.reset
  flt := Flt.reset
  svc := Svc.reset
  jrn := Journal.reset
  pending := []

end Sys2Proof.Machine
end

