-- ==== Sys2Proof/Machine/Ops.lean ====
section
/-!
DEFINITION. The named operations every meaning is made of: time, lists of units, sparse memory, CRCs, interrupt sources,
records and their holding queues, store and window access, and the carrying out of folios.
-/

namespace Sys2Proof

/-! ### Numbers and bytes -/

/-- The number whose bytes, most significant first, are the list (a value a published standard orders, R12). -/
def beNat (bs : List Byte) : Nat := leNat bs.reverse

/-- The `n` low bytes of a number, most significant first. -/
def beBytes (n v : Nat) : List Byte := (leBytes n v).reverse

/-- The signed number that the low `n` bits of `v` spell. -/
def signedOf (n v : Nat) : Int := if v % 2 ^ n < 2 ^ (n - 1) then (v % 2 ^ n : Nat) else (v % 2 ^ n : Nat) - (2 ^ n : Nat)

/-- The `n`-bit word of a signed number. -/
def wordOf (n : Nat) (i : Int) : Nat := (i % (2 ^ n : Nat)).toNat

/-- A number held at a counter's ceiling (counters that saturate). -/
def sat (n v : Nat) : Nat := min v (2 ^ n - 1)

/-- Bit `i` of a number. -/
def bitOf (v i : Nat) : Bool := v.testBit i

/-- One or zero. -/
def b2n (b : Bool) : Nat := if b then 1 else 0

/-- Division that rounds up. -/
def ceilDiv (a b : Nat) : Nat := (a + b - 1) / b

/-- A list of bytes brought to exactly `n` bytes, zeros after its end. -/
def padTo (n : Nat) (bs : List Byte) : List Byte := (bs ++ List.replicate (n - bs.length) 0).take n

/-- A block laid out from fields: each puts its bytes at its offset; bytes not listed are zero. -/
def layout (n : Nat) (fields : List (Nat × List Byte)) : List Byte :=
  fields.foldl (fun acc f => padTo n (acc.take f.1 ++ f.2 ++ acc.drop (f.1 + f.2.length))) (List.replicate n 0)

/-! ### CRCs -/

/-- One bit of a reflected CRC step. -/
def crcBit (poly : Nat) (c : Nat) : Nat := if c % 2 = 1 then (c / 2) ^^^ poly else c / 2

/-- One byte of a reflected CRC over a register of any width, polynomial given reflected. -/
def crcByteR (poly : Nat) (c : Nat) (b : Byte) : Nat :=
  (List.range 8).foldl (fun a _ => crcBit poly a) (c ^^^ b.toNat)

/-- One byte of an unreflected CRC over a register of `w` bits. -/
def crcByteN (w poly : Nat) (c : Nat) (b : Byte) : Nat :=
  (List.range 8).foldl
    (fun a _ => if a.testBit (w - 1) then ((a * 2) % 2 ^ w) ^^^ poly else (a * 2) % 2 ^ w)
    (c ^^^ (b.toNat * 2 ^ (w - 8)))

/-- CRC-32C over bytes with the parameters of R25: Castagnoli, reflected, initial value and final XOR all ones. -/
def crc32c (bs : List Byte) : BitVec 32 :=
  BitVec.ofNat 32 ((bs.foldl (crcByteR 0x82F63B78) 0xFFFFFFFF) ^^^ 0xFFFFFFFF)

/-! ### Sparse memory (canonical: rising addresses, no zero byte listed) -/

namespace Mem

/-- What an unlisted address reads as: zero, as the wipe of R400 leaves it. -/
def unlisted : Byte := 0

/-- The byte at an address. -/
def read : Mem → Nat → Byte
  | [], _ => unlisted
  | (a', b) :: m, a => if a = a' then b else read m a

/-- The memory with one byte written. -/
def write : Mem → Nat → Byte → Mem
  | [], a, b => if b = unlisted then [] else [(a, b)]
  | (a', b') :: m, a, b =>
    if a < a' then (if b = unlisted then (a', b') :: m else (a, b) :: (a', b') :: m)
    else if a = a' then (if b = unlisted then m else (a, b) :: m)
    else (a', b') :: write m a b

/-- The form holds: addresses strictly rise and no entry equals what an unlisted address reads as. -/
def wf : Mem → Bool
  | [] => true
  | [(_, b)] => b != unlisted
  | (a, b) :: (a', b') :: m => decide (a < a') && (b != unlisted) && wf ((a', b') :: m)

/-- `n` bytes from an address. -/
def readN (m : Mem) (a n : Nat) : List Byte := (List.range n).map fun i => read m (a + i)

/-- The memory with bytes written from an address. -/
def writeN : Mem → Nat → List Byte → Mem
  | m, _, [] => m
  | m, a, b :: bs => writeN (write m a b) (a + 1) bs

/-- Entries from elsewhere, put into the form one by one. -/
def canon (m : Mem) : Mem := m.foldl (fun x c => write x c.1 c.2) []

/-- The memory with `n` bytes from an address made zero (a wipe, R401). -/
def clear (m : Mem) (a n : Nat) : Mem := m.filter fun c => !(decide (a ≤ c.1) && decide (c.1 < a + n))

end Mem

namespace Machine

/-- What carrying out a command answers. -/
abbrev Out := Host.Outcome State Fault Refusal

/-- The code of a status (R344). -/
def Status.code : Status → Nat
  | .ok => 0 | .damaged => 1 | .sequence => 2 | .opcode => 3 | .param => 4 | .lifecycle => 5 | .unreachable => 6
  | .colour => 7 | .state => 8 | .busy => 9 | .nospace => 10 | .capacity => 11 | .linebuf => 12 | .signature => 13
  | .late => 14 | .dropped => 15 | .resync => 16 | .fault => 17

/-! ### Time -/

/-- Time passes: the part's own timer, and device time at the rate that the servo's frequency adjustment gives (R148, R149). -/
def State.elapse (s : State) (dt : Nat) : State :=
  let extra : Int := s.tb.devRem + dt * s.tb.freqAdj
  { s with tb := { s.tb with
      now := s.tb.now + dt
      dev := (s.tb.dev + dt + extra / 1000000000).toNat
      devRem := (extra % 1000000000).toNat
      holdNs := if s.tb.lock = .holdover then s.tb.holdNs + dt else s.tb.holdNs } }

/-- Short time (R20). -/
def shortTime (t : Nat) : Nat := t % 2 ^ 32

/-- Signed difference of two short times (R153). -/
def shortDiff (a b : Nat) : Int := signedOf 32 ((a % 2 ^ 32 + 2 ^ 32 - b % 2 ^ 32) % 2 ^ 32)

/-- Device time counts as locked (R148): in LOCKED and HOLDOVER. -/
def State.timeLocked (s : State) : Bool := s.tb.lock = .locked || s.tb.lock = .holdover

/-- At least `ns` of the own timer have passed since `t` (none: never, so yes). -/
def State.since (s : State) (t : Option Nat) (ns : Nat) : Bool :=
  match t with
  | none => true
  | some a => decide (a + ns ≤ s.tb.now)

/-- Bytes of the true random source, and the state with its counter advanced. -/
def State.draw (s : State) (n : Nat) : List Byte × State :=
  ((List.range n).map fun i => Config.random (s.tb.freeCtr + i), { s with tb := { s.tb with freeCtr := s.tb.freeCtr + n } })

/-- A number the spec does not state, and the state with the counter it is applied to advanced. -/
def State.open_ (s : State) : Nat × State := (Config.freeNat s.tb.freeCtr, { s with tb := { s.tb with freeCtr := s.tb.freeCtr + 1 } })

/-! ### Updating one unit of a family -/

def State.modHost (s : State) (f : HostIf → HostIf) : State := { s with host := f s.host }
def State.modDec (s : State) (f : Dec → Dec) : State := { s with dec := f s.dec }
def State.modComp (s : State) (f : Comp → Comp) : State := { s with comp := f s.comp }

def State.ring (s : State) (r : Nat) : Ring := s.host.rings.getD r Ring.reset
def State.modRing (s : State) (r : Nat) (f : Ring → Ring) : State :=
  { s with host := { s.host with rings := s.host.rings.modify r f } }
def State.cmdQ (s : State) (r : Nat) : CmdQ := s.host.cmdq.getD r CmdQ.reset
def State.modCmdQ (s : State) (r : Nat) (f : CmdQ → CmdQ) : State :=
  { s with host := { s.host with cmdq := s.host.cmdq.modify r f } }
def State.evtQ (s : State) (n : Nat) : EvtQ := s.host.evtq.getD n EvtQ.reset
def State.modEvtQ (s : State) (n : Nat) (f : EvtQ → EvtQ) : State :=
  { s with host := { s.host with evtq := s.host.evtq.modify n f } }
def State.window (s : State) (w : Nat) : Window := s.host.win.getD w Window.reset
def State.modWindow (s : State) (w : Nat) (f : Window → Window) : State :=
  { s with host := { s.host with win := s.host.win.modify w f } }
def State.chan (s : State) (c : Nat) : Channel := s.host.chan.getD c Channel.reset
def State.modChan (s : State) (c : Nat) (f : Channel → Channel) : State :=
  { s with host := { s.host with chan := s.host.chan.modify c f } }
def State.ctx (s : State) (c : Nat) : Context := s.dec.ctx.getD c Context.reset
def State.modCtx (s : State) (c : Nat) (f : Context → Context) : State :=
  { s with dec := { s.dec with ctx := s.dec.ctx.modify c f } }
def State.engine (s : State) (e : Nat) : Engine := s.dec.de.getD e Engine.reset
def State.modEngine (s : State) (e : Nat) (f : Engine → Engine) : State :=
  { s with dec := { s.dec with de := s.dec.de.modify e f } }
def State.port (s : State) (p : Nat) : NetPort := s.net.ports.getD p NetPort.reset
def State.modPort (s : State) (p : Nat) (f : NetPort → NetPort) : State :=
  { s with net := { s.net with ports := s.net.ports.modify p f } }
def State.layer (s : State) (i : Nat) : Layer := s.comp.layer.getD i Layer.reset
def State.modLayer (s : State) (i : Nat) (f : Layer → Layer) : State :=
  { s with comp := { s.comp with layer := s.comp.layer.modify i f } }
def State.head (s : State) (h : Nat) : Head := s.comp.head.getD h Head.reset
def State.modHead (s : State) (h : Nat) (f : Head → Head) : State :=
  { s with comp := { s.comp with head := s.comp.head.modify h f } }
def State.dpPort (s : State) (p : Nat) : Port := s.comp.port.getD p Port.reset
def State.modDpPort (s : State) (p : Nat) (f : Port → Port) : State :=
  { s with comp := { s.comp with port := s.comp.port.modify p f } }
def State.plate (s : State) (h : Nat) : PlateHead := s.comp.plate.getD h PlateHead.reset
def State.modPlate (s : State) (h : Nat) (f : PlateHead → PlateHead) : State :=
  { s with comp := { s.comp with plate := s.comp.plate.modify h f } }
def State.session (s : State) (i : Nat) : EncSession := s.enc.session.getD i EncSession.reset
def State.modSession (s : State) (i : Nat) (f : EncSession → EncSession) : State :=
  { s with enc := { s.enc with session := s.enc.session.modify i f } }
def State.encoder (s : State) (e : Nat) : Encoder := s.enc.ee.getD e Encoder.reset
def State.modEncoder (s : State) (e : Nat) (f : Encoder → Encoder) : State :=
  { s with enc := { s.enc with ee := s.enc.ee.modify e f } }
def State.island (s : State) (i : Nat) : Island := s.fab.isl.getD i Island.reset
def State.modIsland (s : State) (i : Nat) (f : Island → Island) : State :=
  { s with fab := { s.fab with isl := s.fab.isl.modify i f } }
def State.dram (s : State) (c : Nat) : DramChannel := s.store.ch.getD c DramChannel.reset
def State.modDram (s : State) (c : Nat) (f : DramChannel → DramChannel) : State :=
  { s with store := { s.store with ch := s.store.ch.modify c f } }
def State.panel (s : State) (t : Nat) : Panel := s.desk.panel.getD t Panel.reset
def State.modPanel (s : State) (t : Nat) (f : Panel → Panel) : State :=
  { s with desk := { s.desk with panel := s.desk.panel.modify t f } }
def State.input (s : State) (i : Nat) : ConIn := s.desk.input.getD i ConIn.reset
def State.modInput (s : State) (i : Nat) (f : ConIn → ConIn) : State :=
  { s with desk := { s.desk with input := s.desk.input.modify i f } }
def State.output (s : State) (o : Nat) : ConOut := s.desk.output.getD o ConOut.reset
def State.modOutput (s : State) (o : Nat) (f : ConOut → ConOut) : State :=
  { s with desk := { s.desk with output := s.desk.output.modify o f } }
def State.quad (s : State) (q : Nat) : Quad := s.lanes.quad.getD q Quad.reset
def State.modQuad (s : State) (q : Nat) (f : Quad → Quad) : State :=
  { s with lanes := { s.lanes with quad := s.lanes.quad.modify q f } }
def State.lane (s : State) (q l : Nat) : Lane := (s.quad q).lane.getD l Lane.reset
def State.modLane (s : State) (q l : Nat) (f : Lane → Lane) : State :=
  s.modQuad q fun u => { u with lane := u.lane.modify l f }
def State.hostBox (s : State) (n : Nat) : HostBox := s.mail.host.getD n HostBox.reset
def State.modHostBox (s : State) (n : Nat) (f : HostBox → HostBox) : State :=
  { s with mail := { s.mail with host := s.mail.host.modify n f } }
/-- Mailbox MB4–MB15, named by its own number. -/
def State.farBox (s : State) (m : Nat) : FarBox := s.mail.far.getD (m - 4) FarBox.reset
def State.modFarBox (s : State) (m : Nat) (f : FarBox → FarBox) : State :=
  { s with mail := { s.mail with far := s.mail.far.modify (m - 4) f } }
def State.member (s : State) (m : Nat) : Member := s.gath.mem.getD m Member.reset
def State.modMember (s : State) (m : Nat) (f : Member → Member) : State :=
  { s with gath := { s.gath with mem := s.gath.mem.modify m f } }
def State.spineLink (s : State) (l : Nat) : SpineLink := s.gath.link.getD l SpineLink.reset
def State.modLink (s : State) (l : Nat) (f : SpineLink → SpineLink) : State :=
  { s with gath := { s.gath with link := s.gath.link.modify l f } }
def State.cvUnit (s : State) (u : Nat) : CvUnit := s.svc.cv.getD u CvUnit.reset
def State.modCv (s : State) (u : Nat) (f : CvUnit → CvUnit) : State :=
  { s with svc := { s.svc with cv := s.svc.cv.modify u f } }
def State.zeEngine (s : State) (e : Nat) : ZeEngine := s.svc.ze.getD e ZeEngine.reset
def State.modZe (s : State) (e : Nat) (f : ZeEngine → ZeEngine) : State :=
  { s with svc := { s.svc with ze := s.svc.ze.modify e f } }

/-! ### What the top-level registers derive -/

/-- `TOP.ROLE` (R468). -/
def State.role (s : State) : Nat :=
  match s.twin.st with
  | .active => if s.twin.partnerSeen then 1 else 0
  | .standby | .yielding => 2
  | .starting | .electing => 3

/-- `TOP.LEAD`: the lead is the active part of member 0 (R457). -/
def State.isLead (s : State) : Bool := decide (s.twin.st = .active) && decide (s.top.gatherId = 0) && !s.gath.relayOnly

/-- The life-cycle state that the burned words give (R408). -/
def State.lifecycle (s : State) : LifeCycle :=
  if s.sec.fuses.lcVoid ≠ 0 then .void
  else if s.sec.fuses.lcReturn ≠ 0 then .return
  else if s.sec.fuses.lcField ≠ 0 then .field
  else if s.sec.fuses.lcDevelop ≠ 0 then .develop
  else .foundry

/-- The code of a life-cycle state (R349). -/
def LifeCycle.code : LifeCycle → Nat
  | .foundry => 0 | .develop => 1 | .field => 2 | .return => 3 | .void => 4

/-- The admin colour of the device configuration (R425). -/
def State.admin (s : State) : Nat := s.sec.config.admin

/-- DEVICE_ID (R419). -/
def State.deviceId (s : State) : List Byte := Config.deviceId s.sec.fuses.salt1

/-- The code of a twin state (R480). -/
def TwinSt.code : TwinSt → Nat
  | .starting => 0 | .electing => 1 | .active => 2 | .standby => 3 | .yielding => 4

/-- The code of a lock state (R150). -/
def LockState.code : LockState → Nat
  | .freerun => 0 | .acquiring => 1 | .locked => 2 | .holdover => 3

/-! ### Interrupt sources and the change register -/

/-- A raise of an interrupt source (R348): discarded when its ENABLE is clear; a masked vector sets its pending bit;
otherwise a message goes out. -/
def State.raise (s : State) (src : Nat) : State :=
  let q := s.host.irq.getD src { vector := 0, enable := false }
  if q.enable then
    { s with host := { s.host with msix := s.host.msix.modify q.vector.toNat fun v =>
        if v.masked then { v with pendingBit := true } else { v with sent := v.sent + 1 } } }
  else s

/-- Bits of `TOP.CHANGE` are set, which raises source 104 (R348, R349). -/
def State.change (s : State) (bits : BitVec 6) : State :=
  { s with top := { s.top with change := s.top.change ||| bits } }.raise 104

/-- A host-access fault is counted and logged (R349): kind, write, window, BAR offset or ring number. -/
def State.hostFault (s : State) (kind : Nat) (wr : Bool) (win off : Nat) : State :=
  { s with top := { s.top with
      hfaults := if s.top.hfaults = BitVec.allOnes 32 then s.top.hfaults else s.top.hfaults + 1
      hfKind := BitVec.ofNat 4 kind
      hfWindow := BitVec.ofNat 3 win
      hfWrite := wr
      hfOffset := BitVec.ofNat 32 off } }

/-! ### Records and their holding queues -/

/-- A record with no flags set. -/
def Held.of (code tag time ring member : Nat) (body : List Byte) : Held :=
  { Held.reset with code := code, tag := BitVec.ofNat 16 tag, time := time, ring := ring, member := member, body := padTo 16 body }

/-- The 32 bytes of a record written at ring index `eseq` (R341). -/
def Held.bytes (h : Held) (eseq : BitVec 32) : List Byte :=
  leBytes 2 h.code ++ leBytes 2 h.tag.toNat ++ leBytes 4 eseq.toNat ++ leBytes 4 (shortTime h.time) ++ leBytes 2 h.ring
    ++ leBytes 1 h.member ++ leBytes 1 h.flags.toNat ++ padTo 16 h.body

/-- Places an event may take: 62 of the 64 of a holding queue (R342). -/
def holdPlaces : Nat := 62

/-- The body of EV_LOST (R343). -/
def lostBody (count first last firstTime lastTime : Nat) : List Byte :=
  leBytes 4 count ++ leBytes 2 first ++ leBytes 2 last ++ leBytes 4 (shortTime firstTime) ++ leBytes 4 (shortTime lastTime)

/-- An EV_LOST record with one more drop counted (R342). -/
def Held.countDrop (l : Held) (code time : Nat) : Held :=
  { l with body := leBytes 4 (sat 32 (leNat (l.body.take 4) + 1)) ++ (l.body.drop 4).take 2 ++ leBytes 2 code
      ++ (l.body.drop 8).take 4 ++ leBytes 4 (shortTime time) }

/-- An event enters a holding queue, or is dropped and counted where the 62 places are full (R342). -/
def EvtQ.accept (q : EvtQ) (h : Held) (member : Nat) : EvtQ × Bool :=
  if (q.hold.filter fun x => !x.comp && !x.lost).length < holdPlaces then ({ q with hold := q.hold ++ [h] }, true)
  else if q.hold.any (·.lost) then
    ({ q with hold := q.hold.map fun x => if x.lost then x.countDrop h.code h.time else x }, false)
  else
    ({ q with hold := q.hold ++ [{ Held.of 0x8001 0 h.time h.ring member (lostBody 1 h.code h.code h.time h.time) with lost := true }] },
      false)

/-- The standby of this active part is in sync, so the waits of R364 apply. -/
def State.mirroring (s : State) : Bool := decide (s.twin.st = .active) && s.twin.inSync

/-- An EXTEND ring carries an EV_TICK before a record whose time lies more than 1.0 s from the previous tick (R154). -/
def EvtQ.tickDue (q : EvtQ) (time : Nat) : Bool :=
  q.extend && (match q.lastTick with
    | none => true
    | some t => decide (t + 1000000000 < time) || decide (time + 1000000000 < t))

/-- The body of EV_TICK (R154). -/
def State.tickBody (s : State) (time : Nat) : List Byte := leBytes 8 time ++ leBytes 1 s.tb.lock.code

/-- One event into the holding queue of event ring `n`, with `RING.LOST` counted where it is dropped. -/
def State.enqueue (s : State) (n : Nat) (h : Held) : State :=
  let r := (s.evtQ n).accept { h with acks := if s.mirroring then 1 else 0 } s.top.gatherId.toNat
  let s := s.modEvtQ n fun _ => r.1
  if r.2 then s
  else s.modRing (32 + n) fun x => { x with lost := if x.lost = BitVec.allOnes 32 then x.lost else x.lost + 1 }

/-- EV_TICK is posted on an event ring (R154); one that the holding queue drops is no tick that the ring carries. -/
def State.tick (s : State) (n : Nat) : State :=
  let h := Held.of 0x8111 0 s.tb.dev n s.top.gatherId.toNat (s.tickBody s.tb.dev)
  let carried := ((s.evtQ n).accept h 0).2
  (s.enqueue n h).modEvtQ n fun q => if carried then { q with lastTick := some s.tb.dev } else q

/-- The event-ring number of a source configured by a folio forwarded from `member`: such a source posts to that
ring there (R458). -/
def farRing (member ring : Nat) : Nat := ring + 256 * (member + 1)

/-- An event at device time `time` is posted on event ring `n` (R341, R342). A standby posts only its twin and gathering
events; a ring number of another member sends the record there with FORWARDED (R458). -/
def State.postAt (s : State) (n code tag time : Nat) (body : List Byte) : State :=
  if s.twin.st = .standby && !(decide (code = 0x8C20) || decide (code = 0x8C10)) then s
  else if 256 ≤ n then
    { s with gath := { s.gath with fwdEvents :=
        (n / 256 - 1, ({ Held.of code tag time (n % 256) s.top.gatherId.toNat body with flags := 1 }).bytes 0) :: s.gath.fwdEvents } }
  else
    let s := if (s.evtQ n).tickDue time then s.tick n else s
    s.enqueue n (Held.of code tag time n s.top.gatherId.toNat body)

/-- An event is posted now. -/
def State.post (s : State) (n code tag : Nat) (body : List Byte) : State := s.postAt n code tag s.tb.dev body

/-- An event is posted on each ring of a list. -/
def State.postAll (s : State) (ns : List Nat) (code : Nat) (body : List Byte) : State :=
  ns.foldl (fun t n => t.post n code 0 body) s

/-- Event rings that a watch list with masks subscribes to a kind's bit. -/
def watchers (w : List (Nat × BitVec 8)) (bit : Nat) : List Nat :=
  (w.filter fun x => x.2.getLsbD bit).map (·.1)

/-- A watch list with one ring's subscription replaced, or ended by a MASK of 0. -/
def watchSet (w : List (Nat × BitVec 8)) (ring : Nat) (mask : BitVec 8) : List (Nat × BitVec 8) :=
  let rest := w.filter fun x => x.1 ≠ ring
  if mask = 0 then rest else rest ++ [(ring, mask)]

/-! ### Colours, windows and the store -/

/-- The ring map's word of a CMD ring (R326). -/
def State.mapOf (s : State) (r : Nat) : RingMapEntry := s.top.ringMap.getD r RingMapEntry.reset

/-- The colour of a CMD ring, and of its event ring. -/
def State.ringColour (s : State) (r : Nat) : Nat := (s.mapOf r).colour.toNat

/-- Region `base`, length `size`, as the store's free list sees it: taken by no window. -/
def State.regionFree (s : State) (base size : Nat) : Bool :=
  s.store.regions.all fun a => decide (base + size ≤ a.base) || decide (a.base + a.size ≤ base)

/-- An access-table entry grants what an access needs on a page (R428). -/
def ActEntry.grants (e : ActEntry) (colour page : Nat) (wr : Bool) : Bool :=
  e.valid && decide (e.colour.toNat = colour) && decide (e.base.toNat ≤ page) && decide (page ≤ e.last.toNat)
    && (if wr then e.write else e.read)

/-- An entry covers a page for a colour, whatever it grants (R428). -/
def ActEntry.covers (e : ActEntry) (colour page : Nat) : Bool :=
  e.valid && decide (e.colour.toNat = colour) && decide (e.base.toNat ≤ page) && decide (page ≤ e.last.toNat)

/-- The default map of colour 0 (R430): CTRL SRAM, plate memory, the island spaces and the first GiB of the store, read and
write; the boot ROM, read. -/
def defaultMap (page : Nat) (wr : Bool) : Bool :=
  decide (page < 0x40000) || (decide (0x1000000 ≤ page) && decide (page < 0x1000400)) ||
    (decide (0x1100000 ≤ page) && decide (page < 0x1100400)) || (decide (0x1200000 ≤ page) && decide (page < 0x1202B00)) ||
    (!wr && decide (0x1040000 ≤ page) && decide (page < 0x1040020))

/-- An entry's page range covers a page, under whatever colour. -/
def ActEntry.spans (e : ActEntry) (page : Nat) : Bool := e.valid && decide (e.base.toNat ≤ page) && decide (page ≤ e.last.toNat)

/-- A register page that the debug master reads outside the store: in DEVELOP every island's but SEC's, under an open session; the clock registers,
in every state but VOID (R416, R437, R544). The spec gives SEC's identity and status registers no address. -/
def State.debugReads (s : State) (page : Nat) : Bool :=
  (decide (page = 0x1200080) && decide (s.lifecycle ≠ .void)) ||
    (decide (s.lifecycle = .develop) && decide (s.sec.debugScope ≠ 0) && decide (0x1200000 ≤ page) && decide (page < 0x1202B00)
      && !(decide (0x1200100 ≤ page) && decide (page < 0x1200200)))

/-- What the debug master reaches (R416, R437): every page in an open session; else pages of an entry that is neither sealed
nor locked, under its permissions and the session's scope, where no sealed or locked entry and no part of the sealed first GiB covers them. -/
def State.debugReaches (s : State) (page : Nat) (wr : Bool) : Bool :=
  decide (s.sec.debugScope = 3) || (!wr && s.debugReads page) ||
    (decide (s.sec.debugScope = 2 ∨ (s.sec.debugScope = 1 ∧ wr = false)) && decide (0x40000 ≤ page)
      && !(s.sec.act.any fun e => e.2.spans page && (e.2.sealed_ || e.2.lock))
      && s.sec.act.any fun e => e.2.spans page && (if wr then e.2.write else e.2.read))

/-- The access table permits an access of a colour to a page (R428, R430); colour 63 is the debug master's. -/
def State.permitsPage (s : State) (colour page : Nat) (wr : Bool) : Bool :=
  s.sec.act.any (fun e => e.2.grants colour page wr) ||
    (decide (colour = 0) && !(s.sec.act.any fun e => e.2.covers colour page) && defaultMap page wr) ||
    (decide (colour = 63) && s.debugReaches page wr)

/-- It permits every byte of a span. -/
def State.permits (s : State) (colour a n : Nat) (wr : Bool) : Bool :=
  decide (n = 0) || (List.range ((a + n - 1) / 4096 - a / 4096 + 1)).all fun i => s.permitsPage colour (a / 4096 + i) wr

/-- A span of a window lies in its mapped part, and the access table grants it under the window's colour (R55, R56). -/
def State.winSpan (s : State) (w off n : Nat) (wr : Bool) : Bool :=
  decide (w < 8) && decide (off + n ≤ (s.window w).size.toNat)
    && s.permits (s.window w).colour.toNat ((s.window w).base + off) n wr

/-- A window serves a colour (R337): mapped to it, and not being unmapped. -/
def State.winOk (s : State) (w colour : Nat) : Bool :=
  decide (w < 8) && (s.window w).mapped && !(s.window w).unmapping && decide ((s.window w).colour.toNat = colour)

/-- The block addresses a span of the store touches. -/
def blocksOf (a n : Nat) : List Nat := if n = 0 then [] else (List.range ((a + n - 1) / 256 - a / 256 + 1)).map fun i => (a / 256 + i) * 256

/-- The check value beside a block (R25, R40): the entry listed for it, else the CRC-32C of its content. -/
def Store.checkAt (x : Store) (a : Nat) : BitVec 32 :=
  match x.damaged.find? fun d => d.1 = a with
  | some d => d.2
  | none => crc32c (x.mem.readN a 256)

/-- A block mismatches its check value: it reads poisoned (R397). -/
def Store.damagedAt (x : Store) (a : Nat) : Bool := x.damaged.any fun d => decide (d.1 = a)

/-- A whole block takes its place with the check value that came with it, good (R26, R33, R397). -/
def Store.putBlock (x : Store) (a : Nat) (bs : List Byte) : Store :=
  { x with mem := x.mem.writeN a bs, damaged := x.damaged.filter fun d => d.1 ≠ a }

/-- Requests to blocks of a span that came earlier take effect before an access that comes now: a write its content, a read what it finds;
their service and answers follow (R42, R383). -/
def Store.landReqs (x : Store) (p : Nat → Bool) : List StoreReq → List StoreReq × Store
  | [] => ([], x)
  | q :: l =>
    if q.landed || !p q.addr then (q :: (x.landReqs p l).1, (x.landReqs p l).2)
    else if q.wr then
      let y := x.putBlock q.addr (padTo 256 q.data)
      ({ q with landed := true } :: (y.landReqs p l).1, (y.landReqs p l).2)
    else
      let r := { q with landed := true, data := x.mem.readN q.addr 256, crc := x.checkAt q.addr, poisoned := x.damagedAt q.addr }
      (r :: (x.landReqs p l).1, (x.landReqs p l).2)

/-- The same for every channel. -/
def Store.landChans (x : Store) (p : Nat → Bool) : List DramChannel → List DramChannel × Store
  | [] => ([], x)
  | c :: l =>
    let r := x.landReqs p c.queue
    ({ c with queue := r.1 } :: (r.2.landChans p l).1, (r.2.landChans p l).2)

/-- The same for the span of an access (R42). -/
def Store.land (x : Store) (a n : Nat) : Store :=
  if x.ch.all fun (c : DramChannel) => c.queue.isEmpty then x
  else
    let r := x.landChans (fun b => decide (b % 256 = 0) && decide (b < a + n) && decide (a < b + 256)) x.ch
    { r.2 with ch := r.1 }

/-- Some block of a span of a window is damaged in the store (reads poisoned, R34). -/
def State.winDamaged (s : State) (w off n : Nat) : Bool :=
  (blocksOf ((s.window w).base + off) n).any fun b => s.store.damagedAt b

/-- The bytes of a write that fall in one block: a block written whole brings its own check value (R26, R397); one changed in part is checked
before it is merged and its check value computed anew, and a damaged one is left as it is (R27, R397). -/
def Store.mergeBlock (x : Store) (a : Nat) (bs : List Byte) (b : Nat) : Store :=
  let lo := max a b
  let hi := min (a + bs.length) (b + 256)
  if decide (hi - lo < 256) && x.damagedAt b then x else x.putBlock lo ((bs.drop (lo - a)).take (hi - lo))

/-- Bytes written into the store, block by block where some block mismatches its check value. -/
def Store.putBytes (x : Store) (a : Nat) (bs : List Byte) : Store :=
  if x.damaged.isEmpty then { x with mem := x.mem.writeN a bs } else (blocksOf a bs.length).foldl (fun y b => y.mergeBlock a bs b) x

/-- Bytes written into the store by CTRL or HOST, after what came earlier (R27, R41–R43). -/
def State.storeWrite (s : State) (a : Nat) (bs : List Byte) : State := { s with store := (s.store.land a bs.length).putBytes a bs }

/-- Bytes of the store as an access that comes now finds them. -/
def Store.seen (x : Store) (a n : Nat) : List Byte := (x.land a n).mem.readN a n

/-- Bytes a window shows: those of its region from an offset. -/
def State.winRead (s : State) (w off n : Nat) : List Byte := s.store.seen ((s.window w).base + off) n

/-- Bytes written into a window. -/
def State.winWrite (s : State) (w off : Nat) (bs : List Byte) : State := s.storeWrite ((s.window w).base + off) bs

/-! ### Folios -/

/-- LENGTH of a folio (R333), and its other header fields. -/
def Folio.hdr (f : Folio) (off n : Nat) : Nat := leNat ((f.raw.drop off).take n)
def Folio.opcode (f : Folio) : Nat := f.hdr 0x00 2
def Folio.flags (f : Folio) : Nat := f.hdr 0x02 2
def Folio.seq (f : Folio) : Nat := f.hdr 0x04 4
def Folio.len (f : Folio) : Nat := f.hdr 0x08 2
def Folio.tag (f : Folio) : Nat := f.hdr 0x0A 2
def Folio.route (f : Folio) : Nat := f.hdr 0x0C 4
def Folio.colour (f : Folio) : Nat := f.route % 64
def Folio.urgent (f : Folio) : Bool := bitOf f.route 8
def Folio.forward (f : Folio) : Bool := bitOf f.route 19
def Folio.member (f : Folio) : Nat := f.route / 2 ^ 16 % 8

/-- A parameter byte: zero at or beyond 0x10 + LENGTH (R333). -/
def Folio.byte (f : Folio) (off : Nat) : Byte := if off < 0x10 + f.len then f.raw.getD off 0 else 0

/-- A parameter of `n` bytes at an offset, least significant byte first (R12, R333). -/
def Folio.u (f : Folio) (off n : Nat) : Nat := leNat ((List.range n).map fun i => f.byte (off + i))

/-- The same, signed. -/
def Folio.i (f : Folio) (off n : Nat) : Int := signedOf (8 * n) (f.u off n)

/-- An IPv4 address in network order (R12). -/
def Folio.ip (f : Folio) (off : Nat) : BitVec 32 := BitVec.ofNat 32 (beNat ((List.range 4).map fun i => f.byte (off + i)))

/-- The parameter bytes of a range. -/
def Folio.bytesAt (f : Folio) (off n : Nat) : List Byte := (List.range n).map fun i => f.byte (off + i)

/-- Every parameter byte below 0x10 + LENGTH that the opcode's layout does not name is zero (R14, R240; DEDUCED, log entry 16). -/
def Folio.reservedOk (f : Folio) : Bool :=
  match namedBytes f.opcode (f.u 0x12 2) (f.u 0x11 1) with
  | some l => ((f.raw.zipIdx.drop 0x10).take f.len).all fun x => decide (x.1 = 0) || named l x.2
  | none => true

/-- What a folio's body is given: the place it is carried out in, its ring, colour, tag, and where its events go. -/
structure FCtx where
  /-- Place in `HostIf.cmdq`: a CMD ring, or 32 and up for a forwarded folio. -/
  slot   : Nat
  /-- CMD ring of the folio, on the member it came from. -/
  ring   : Nat
  /-- The member it came from, where it was forwarded. -/
  origin : Option Nat
  colour : Nat
  tag    : Nat
  seq    : BitVec 32
  folio  : Folio
  deriving Inhabited

/-- A parameter of the folio. -/
def FCtx.u (c : FCtx) (off n : Nat) : Nat := c.folio.u off n
def FCtx.i (c : FCtx) (off n : Nat) : Int := c.folio.i off n

/-- The event ring a RING field names: on the originating member where the folio was forwarded (R458). -/
def FCtx.ev (c : FCtx) (n : Nat) : Nat :=
  match c.origin with
  | none => n
  | some m => farRing m n

/-- What carrying out a folio's body gives. -/
inductive FRes where
  /-- It completes: status, RESULT, the state with its effects, and the events it causes, posted after its completion
  record (R343). -/
  | done (st : Status) (result : Nat) (s : State) (after : State → State)
  /-- It waits (R338). -/
  | wait (w : Wait) (s : State)
  deriving Inhabited

/-- The first check of a list that fails. -/
def firstBad : List (Bool × Status) → Option Status
  | [] => none
  | (ok, st) :: l => if ok then firstBad l else some st

/-- Checks in order: the first that fails gives the status, and nothing changes. -/
def FRes.checks (l : List (Bool × Status)) (s : State) (k : FRes) : FRes :=
  match firstBad l with
  | some st => .done st 0 s id
  | none => k

/-- It completes with E_OK and a RESULT of zero. -/
def FRes.ok (s : State) : FRes := .done .ok 0 s id

/-- The completion record's body (R341). -/
def compBody (st : Status) (opcode : Nat) (cmdSeq : BitVec 32) (result : Nat) : List Byte :=
  leBytes 2 st.code ++ leBytes 2 opcode ++ leBytes 4 cmdSeq.toNat ++ leBytes 8 result

/-- A completion record takes the place reserved for it in the paired event ring's holding queue (R342). -/
def State.postCompletion (s : State) (r : Nat) (tag : Nat) (body : List Byte) (irq : Bool) : State :=
  let s := if (s.evtQ r).tickDue s.tb.dev then s.tick r else s
  s.modEvtQ r fun q => { q with hold := q.hold ++
    [{ Held.of 0x0000 tag s.tb.dev r s.top.gatherId.toNat body with comp := true, irq := irq, acks := if s.mirroring then 2 else 0 }] }

/-- The outcomes of the last 64 forwarded folios are kept (R458). -/
def State.keepOutcome (s : State) (origin ring : Nat) (seq : BitVec 32) (st result : Nat) : State :=
  let rest := s.gath.outcomes.filter fun o => !(decide (o.origin = origin) && decide (o.ring = ring) && decide (o.seq = seq))
  { s with gath := { s.gath with
      outcomes := ({ origin := origin, ring := ring, seq := seq, status := st, result := BitVec.ofNat 64 result, done := true } :: rest).take 64
      replies := { origin := origin, ring := ring, seq := seq, status := st, result := BitVec.ofNat 64 result } :: s.gath.replies } }

/-- The folio begun in a place completes (R336, R341): its completion record is posted, unless QUIET asks for none with
E_OK (R333), or its reply goes back to the member it came from (R458); its ring may begin the next. -/
def State.complete (s : State) (slot : Nat) (st : Status) (result : Nat) : State :=
  match (s.cmdQ slot).begun with
  | none => s
  | some b =>
    let s := s.modCmdQ slot fun q => { q with begun := none, lastDone := b.cmdSeq }
    match b.origin with
    | some m => s.keepOutcome m b.fwdRing b.cmdSeq st.code result
    | none =>
      if bitOf b.folio.flags 0 && decide (st = .ok) then s
      else s.postCompletion slot b.folio.tag (compBody st b.folio.opcode b.cmdSeq result) (bitOf b.folio.flags 1 || b.folio.urgent)

/-- A flip group is discarded: its staged folios leave the pending configuration (R238, R239). -/
def State.dropStaged (s : State) (g : Nat) : State :=
  { s with comp := { s.comp with pend := s.comp.pend.filter fun p => p.group ≠ some g } }

/-- A CMD ring enters DISABLED: its open flip group is discarded with no event (R238). -/
def State.disableCmd (s : State) (r : Nat) : State :=
  let s := match (s.cmdQ r).groupOpen with
    | some g => (s.dropStaged g).modCmdQ r fun q => { q with groupOpen := none, broken := false }
    | none => s
  s.modRing r fun x => { x with state := .disabled, enable := false }

/-- The CMD ring that has drained becomes DISABLED: nothing fetched, nothing begun (R328). -/
def State.drained (s : State) (r : Nat) : State :=
  if (s.ring r).state = .draining && (s.cmdQ r).fetched.isEmpty && (s.cmdQ r).begun.isNone then s.disableCmd r else s

/-- The opcodes eligible for a flip group: LAYER_SET, LAYER_RELEASE, HEAD_BLEND, FRESH_LAYER, PRESS_TOUCH (R237). -/
def eligibleOp (op : Nat) : Bool := [0x0400, 0x0401, 0x0404, 0x0211, 0x0620].contains op

/-- An eligible folio that fails while a group is open on its ring marks the group broken (R237). -/
def State.markBroken (s : State) (slot : Nat) (st : Status) : State :=
  match (s.cmdQ slot).begun, (s.cmdQ slot).groupOpen with
  | some b, some _ =>
    if st ≠ .ok ∧ eligibleOp b.folio.opcode ∧ !b.folio.forward then s.modCmdQ slot fun q => { q with broken := true } else s
  | _, _ => s

/-- What a begun folio's body is given. -/
def State.fctx (s : State) (slot : Nat) (b : Begun) : FCtx :=
  { slot := slot
    ring := match b.origin with | none => slot | some _ => b.fwdRing
    origin := b.origin
    colour := match b.origin with | none => s.ringColour slot | some _ => b.folio.colour
    tag := b.folio.tag, seq := b.cmdSeq, folio := b.folio }

/-- Some folio of a colour that was fetched before `order` has not completed, on any ring. -/
def State.earlierOpen (s : State) (colour order : Nat) : Bool :=
  (List.range 32).any fun r =>
    let q := s.cmdQ r
    decide (s.ringColour r = colour) &&
      (q.fetched.any (fun f => decide (f.order < order)) || (match q.begun with | some b => decide (b.order < order) | none => false))

/-- A place whose SYNC waits and whose earlier folios have all completed. -/
def State.nextSync (s : State) : Option Nat :=
  (List.range 48).find? fun r =>
    match (s.cmdQ r).begun with
    | some b => decide (b.wait = .sync) && !s.earlierOpen (s.fctx r b).colour b.order
    | none => false

/-- SYNCs complete, one after the other, while some may (`n` bounds them). -/
def State.syncsFrom (s : State) : Nat → State
  | 0 => s
  | n + 1 =>
    match s.nextSync with
    | some r => ((s.complete r .ok 0).drained r).syncsFrom n
    | none => s

/-- Every SYNC that waits and whose earlier folios have all completed completes (R346). -/
def State.releaseSyncs (s : State) : State := s.syncsFrom 48

/-- An island holds admitted or configured work (R525): an engine its contexts, jobs and self-test, an encoder its sessions, SVC its
units, jobs and the journal, a head island and a port transmitter their head and port. The other islands always do. -/
def State.hasWork (s : State) (i : Nat) : Bool :=
  if 3 ≤ i ∧ i ≤ 10 then
    let e := s.engine (i - 3)
    s.dec.ctx.any (fun (x : Context) => x.opened && decide (x.st ≠ .shed) && decide (x.engine = i - 3))
      || e.cur.isSome || !e.jobs.isEmpty || decide (e.st = .testing)
  else if 11 ≤ i ∧ i ≤ 12 then
    s.enc.session.any fun (x : EncSession) => (decide (x.st = .coding) || decide (x.st = .demoted)) && decide (x.encoder = i - 11)
  else if 14 ≤ i ∧ i ≤ 29 then decide ((s.head (i - 14)).st ≠ HeadSt.off)
  else if i = 34 then
    s.svc.cv.any (fun (u : CvUnit) => u.owner.isSome) || s.svc.ze.any (fun (z : ZeEngine) => !z.jobs.isEmpty)
      || decide (s.jrn.st ≠ .off)
  else if 35 ≤ i then decide ((s.dpPort (i - 35)).st ≠ .off)
  else true

/-- An island that has work runs, at its rated point: firmware brings it there before the folio that gives the work completes (R525). -/
def State.rateIslands (s : State) : State :=
  (List.range 43).foldl (fun (t : State) i => if t.hasWork i then t.modIsland i fun x => { x with power := .run, rated := true } else t) s

/-- A folio completes, its events follow, and what waited for it goes on. -/
def State.finish (s : State) (slot : Nat) (st : Status) (result : Nat) (after : State → State) : State :=
  ((after ((s.rateIslands.markBroken slot st).complete slot st result)).drained slot).releaseSyncs

/-- The result of a body takes effect. -/
def FRes.settle (r : FRes) (slot : Nat) : State :=
  match r with
  | .done st result s after => s.finish slot st result after
  | .wait w s => (s.modCmdQ slot fun q => { q with begun := q.begun.map fun b => { b with wait := w } }).releaseSyncs

/-- The island whose unit an opcode needs: NET, COMP, SEC, SPINE, TOUCH or SVC. Decoding and encoding place their work on the
engines and encoders in service instead. -/
def unitOf (op : Nat) : Option Nat :=
  match op / 256 with
  | 1 => some 2
  | 2 | 4 | 6 | 7 => some 13
  | 11 => some 1
  | 12 => if op < 0x0C20 then some 31 else none
  | 13 => some 32
  | 16 => if 0x1010 ≤ op then some 34 else none
  | _ => none

/-- A folio that would go on, while a unit it needs is isolated, completes with E_FAULT and does nothing (R344). -/
def FRes.guardUnit (r : FRes) (op : Nat) (s : State) : FRes :=
  let down := match unitOf op with | some i => (s.island i).isolated | none => false
  match r with
  | .done .ok _ _ _ | .wait _ _ => if down then .done .fault 0 s id else r
  | _ => r

/-- Codes whose records carry a TAG of their own, or none: EV_RESYNC, EV_TICK, EV_LAUNCH, EV_FLIP, EV_PLATE, EV_COMMIT (R154, R157, R240, R259,
R290, R343). -/
def ownTag : List Nat := [0x8000, 0x8111, 0x8120, 0x8600, 0x8610, 0x8701]

/-- A record carries the TAG of the folio that caused it (R333, R341). -/
def Held.tagged (h : Held) (tag : Nat) : Held :=
  if h.comp || h.lost || decide (h.tag ≠ 0) || ownTag.contains h.code then h else { h with tag := BitVec.ofNat 16 tag }

/-- The same for the 32 bytes of a record that goes to another member (R458). -/
def taggedBytes (tag : Nat) (bs : List Byte) : List Byte :=
  if leNat ((bs.drop 2).take 2) ≠ 0 ∨ ownTag.contains (leNat (bs.take 2)) then bs else bs.take 2 ++ leBytes 2 tag ++ bs.drop 4

/-- The records that a folio's work has added since `before` carry its TAG (R333, R341). -/
def State.causedBy (s before : State) (tag : Nat) : State :=
  let new := s.gath.fwdEvents.length - before.gath.fwdEvents.length
  { s with
    host := { s.host with evtq := s.host.evtq.mapIdx fun n q =>
      { q with hold := q.hold.mapIdx fun i h => if i < (before.evtQ n).hold.length then h else h.tagged tag } }
    gath := { s.gath with fwdEvents := s.gath.fwdEvents.mapIdx fun i e => if i < new then (e.1, taggedBytes tag e.2) else e } }

/-- The row of an opcode is carried out on the ring's begun folio, and the records it causes carry its TAG. A parameter byte that the layout does
not name and that is not zero ends it with E_PARAM (R14). A ring that has begun no folio of the opcode leaves the row without effect (DESIGN
CHOICE, log entry 3). -/
def State.runFolio (s : State) (slot op : Nat) (body : FCtx → State → FRes) : State :=
  match (s.cmdQ slot).begun with
  | some b =>
    if b.wait = .run ∧ b.folio.opcode = op then
      let r := if b.folio.reservedOk then (body (s.fctx slot b) s).guardUnit op s else .done .param 0 s id
      (r.settle slot).causedBy s b.folio.tag
    else s
  | none => s

/-- Checks every block read-back makes: WINDOW and OFFSET in range, and the window serves the colour (R104, R337). -/
def blockChecks (c : FCtx) (s : State) (w off n : Nat) : List (Bool × Status) :=
  [(decide (w < 8) && decide (off % 256 = 0), .param), (s.winOk w c.colour && s.winSpan w off n true, .colour)]

/-- A block of state is written into a window (R104). -/
def writeBlock (s : State) (w off : Nat) (block : List Byte) : FRes := .ok (s.winWrite w off block)

/-- An event ring that a folio names must be of its own colour (R325). -/
def evOk (c : FCtx) (s : State) (n : Nat) : Bool := c.origin.isSome || decide (s.ringColour n = c.colour)

/-! ### Timing sets of the store (R394) -/

/-- A value of a register of a timing set (R394). -/
def TimingSet.put (t : TimingSet) (reg : Nat) (v : BitVec 32) : TimingSet :=
  let lo : BitVec 16 := v.setWidth 16
  let hi : BitVec 16 := (v >>> 16).setWidth 16
  match reg with
  | 0x00 => { t with point := v.setWidth 2 }
  | 0x04 => { t with tRefi := lo, tRfcAb := hi }
  | 0x08 => { t with tRfcPb := lo, raaimt := hi.setWidth 8, raammt := (v >>> 24).setWidth 8 }
  | 0x0C => { t with raadec := v.setWidth 8 }
  | 0x10 => { t with tRcd := lo, tRp := hi }
  | 0x14 => { t with tRas := lo, tWr := hi }
  | 0x18 => { t with tFaw := lo, tRrd := hi }
  | _ => t

/-- The timing set that firmware fills from the die for a frequency point. -/
def TimingSet.ofDie (p : Nat) : TimingSet :=
  { [0x04, 0x08, 0x0C, 0x10, 0x14, 0x18].foldl (fun (t : TimingSet) r => t.put r (Config.dieTiming p r)) TimingSet.reset with point := BitVec.ofNat 2 p }

/-- STORE comes to a point with a timing set, which both sets then hold. -/
def State.storeAt (s : State) (p : Nat) (t : TimingSet) : State :=
  { s with store := { s.store with point := p, active := t, shadow := t } }

end Machine

end Sys2Proof
end

