-- ==== Sys2Proof/Machine/Operands.lean ====
section
/-!
DEFINITION. The operand forms the spec gives: BAR0 offsets, BAR2 offsets, layer codes, islands and their classes, the
store's address map and the places of the DRAM a block lies in.
-/

namespace Sys2Proof.Machine

/-! ### BAR0 (R52, R327, R349, R445, R446, R348) -/

/-- What a BAR0 offset names. -/
inductive Bar0 where
  | top (offset : Nat)                 -- 0x0_0000–0x0_0FFF
  | time (offset : Nat)                -- 0x0_1000–0x0_1FFF
  | ring (r : Nat) (reg : Nat)         -- 0x1_0000–0x1_FFFF: ring and register offset
  | mailbox (n : Nat) (reg : Nat)      -- 0x2_0000–0x2_03FF
  | mbx (reg : Nat)                    -- 0x2_0800–0x2_0FFF
  | lock (n : Nat) (reg : Nat)         -- 0x2_1000–0x2_13FF
  | msix (vector : Nat) (reg : Nat)    -- 0x3_0000–0x3_03FF
  | pba (offset : Nat)                 -- 0x3_1000–0x3_1007
  | irq (source : Nat)                 -- 0x4_0000–0x4_0FFF
  | reserved
  deriving DecidableEq, Repr, Inhabited

/-- The region and register of a BAR0 offset (R52). -/
def bar0Of (off : Nat) : Bar0 :=
  if off < 0x1000 then .top off
  else if off < 0x2000 then .time (off - 0x1000)
  else if off < 0x10000 then .reserved
  else if off < 0x20000 then
    .ring ((off - 0x10000) / 0x200) ((off - 0x10000) % 0x200)
  else if off < 0x20400 then .mailbox ((off - 0x20000) / 0x100) ((off - 0x20000) % 0x100)
  else if off < 0x20800 then .reserved
  else if off < 0x21000 then .mbx (off - 0x20800)
  else if off < 0x21400 then .lock ((off - 0x21000) / 0x100) ((off - 0x21000) % 0x100)
  else if off < 0x30000 then .reserved
  else if off < 0x30400 then .msix ((off - 0x30000) / 16) ((off - 0x30000) % 16)
  else if off < 0x31000 then .reserved
  else if off < 0x31008 then .pba (off - 0x31000)
  else if off < 0x40000 then .reserved
  else if off < 0x401A4 then .irq ((off - 0x40000) / 4)
  else .reserved

/-- The sizes and alignments BAR0 accepts: natural 32 and 64 bits (R53). -/
def bar0Aligned (off size : Nat) : Bool := (decide (size = 4) && decide (off % 4 = 0)) || (decide (size = 8) && decide (off % 8 = 0))

/-! ### BAR2 (R54) -/

/-- Bytes of one window in BAR2. -/
def winStride : Nat := 0x2000000

/-! ### Layers (R206, R213) -/

/-- The index of a layer code: 0–63 is VL0–VL63, 64–127 is GL0–GL63. -/
def isVideo (code : Nat) : Bool := decide (code < 64)

/-- What AUTO resolves to for a surface (R226). -/
def resolveGraphic (code format : Nat) : Nat := if code ≠ 0 then code else if 3 ≤ format then 1 else 4

/-! ### Islands (R51) and the `TOP.FAULTS` bit of their class (R349) -/

def islCtrl : Nat := 0
def islSec : Nat := 1
def islNet : Nat := 2
def islDe (e : Nat) : Nat := 3 + e
def islEe (e : Nat) : Nat := 11 + e
def islComp : Nat := 13
def islHead (h : Nat) : Nat := 14 + h
def islStore : Nat := 30
def islSpine : Nat := 31
def islTouch : Nat := 32
def islHost : Nat := 33
def islSvc : Nat := 34
def islTx (p : Nat) : Nat := 35 + p

/-- The bit of `TOP.FAULTS` that an island's class has; CTRL and the port transmitters have none. -/
def classBit (i : Nat) : Option Nat :=
  if i = 1 then some 10
  else if i = 2 then some 0
  else if 3 ≤ i ∧ i ≤ 10 then some 1
  else if 11 ≤ i ∧ i ≤ 12 then some 2
  else if i = 13 then some 3
  else if 14 ≤ i ∧ i ≤ 29 then some 4
  else if i = 30 then some 5
  else if i = 31 then some 6
  else if i = 32 then some 9
  else if i = 33 then some 7
  else if i = 34 then some 8
  else none

/-- An island that can be isolated: any but STORE and the port transmitters (R24, R399). -/
def isolatable (i : Nat) : Bool := decide (i < 35) && decide (i ≠ 30)

/-! ### The internal address space (R40, R49) and the DRAM (R377–R380) -/

/-- Bytes of the addressable store (R40). -/
def storeBytes : Nat := 0x7E0000000

/-- What an internal address lies in. -/
inductive Place where
  | store | sram | rom | plate | regs (island : Nat) | undecoded
  deriving DecidableEq, Repr, Inhabited

/-- The range of R49 an address lies in. -/
def placeOf (a : Nat) : Place :=
  if a < storeBytes then .store
  else if 0x1000000000 ≤ a ∧ a < 0x1000400000 then .sram
  else if 0x1040000000 ≤ a ∧ a < 0x1040020000 then .rom
  else if 0x1100000000 ≤ a ∧ a < 0x1100400000 then .plate
  else if 0x1200000000 ≤ a ∧ a < 0x1202B00000 then .regs ((a - 0x1200000000) / 0x100000)
  else .undecoded

/-- The channel of an internal store address under grain 2^g (R377). -/
def channelOf (g a : Nat) : Nat :=
  let unit := a / 2 ^ g
  (unit % 8) ^^^ (unit / 8 % 8) ^^^ (unit / 64 % 8)

/-- The channel address of an internal store address under grain 2^g (R377). -/
def chanAddr (g a : Nat) : Nat := a / 2 ^ g / 8 * 2 ^ g + a % 2 ^ g

/-- Block within the bank-row, bank and row of a channel address (R379). -/
def blockIn (ca : Nat) : Nat := ca / 2 ^ 8 % 16
def bankOf (ca : Nat) : Nat := (ca / 2 ^ 12 % 16) ^^^ (ca / 2 ^ 16 % 16)
def rowOf (ca : Nat) : Nat := ca / 2 ^ 16

/-- The check block and the entry of a data block at a channel address (R380). -/
def checkBlock (ca : Nat) : Nat := 0xFC000000 + ca / 16384 * 256
def checkEntry (ca : Nat) : Nat := ca % 16384 / 256

/-- The internal addresses of the data blocks of the bank-row that holds a channel address, on a channel, under grain
2^g: those that map to it (R377, R379). -/
def rowAddr (g c ca : Nat) : Nat :=
  let u3 := ca / 2 ^ g
  let low := c ^^^ (u3 % 8) ^^^ (u3 / 8 % 8)
  (u3 * 8 + low) * 2 ^ g + ca % 2 ^ g

/-- Retired bank-rows are named by the channel address of their first block. -/
def bankRow (ca : Nat) : Nat := ca / 4096 * 4096

end Sys2Proof.Machine
end

