-- ==== Sys2Proof/Machine/Flags.lean ====
section
/-!
DEFINITION. The flags the spec gives the block: `TOP.FAULTS` from what is present, `TOP.CHANGE`, and the fault recorder that
counts every source, with the action each lasting fault calls for and the device reset that some of them end in
(17_faults_replay.md, 18_package_startup.md).
-/

namespace Sys2Proof.Machine

/-! ### Device reset (R611): the state right after it, with what a reset does not change -/

/-- The fields of trust that a device reset keeps: fuses and flash (R417, R423). A slot that was being written holds what the next
boot finds there. -/
def Sec.keep (x : Sec) : Sec :=
  { Sec.reset with
    fuses := x.fuses, selector := x.selector, recordCopies := x.recordCopies, provNo := x.provNo
    slotA := if x.staging && decide (x.selector = some true) then none else x.slotA
    slotB := if x.staging && decide (x.selector ≠ some true) then none else x.slotB }

/-- The fields of clocks and supplies that a device reset keeps: the board fuse, the rails, the sensors and the crystals
as they are on the board. -/
def Power.keep (x : Power) : Power :=
  { Power.reset with
    supplyGood := x.supplyGood, delay := x.delay, fused := x.fused, rail := x.rail, temp := x.temp
    nearest := x.nearest, startAt := 0
    xa := { x.xa with good := false }, xb := { x.xb with good := false }, tripped := x.tripped
    resets := x.resets + 1 }

/-- A device reset: everything right after reset but the fuses, the flash, the board, the host's own memory, and the
commands that wait. The counter of the free values is never taken back. -/
def State.deviceReset (s : State) : State :=
  { State.reset with
    tb := { TimeBase.reset with freeCtr := s.tb.freeCtr }
    host := { HostIf.reset with bus := s.host.bus, perst := s.host.perst }
    sec := s.sec.keep
    pwr := s.pwr.keep
    pending := s.pending }

/-! ### The fault summary -/

/-- The bit a present lasting fault of a source sets (R566). -/
def sourceBit (src island unit : Nat) : Option Nat :=
  if src = 0 then classBit (if island = 30 then unit else island)
  else if src = 3 ∨ src = 4 ∨ src = 10 ∨ src = 2 then classBit island
  else if src = 1 then some 5
  else if src = 5 ∨ src = 6 ∨ src = 7 then some 11
  else if src = 8 ∨ src = 9 then some 13
  else if src = 11 ∨ src = 12 then some 10
  else if src = 14 then some 8
  else if src = 15 then some 3
  else none

/-- `TOP.FAULTS` (R349, R567): one bit for each class that a present lasting fault, or the condition another rule names, holds. -/
def State.faultBits (s : State) : BitVec 16 :=
  let fromInst := s.flt.inst.foldl (fun (a : BitVec 16) i =>
    if i.present then (match sourceBit i.src i.island i.unit with | some b => a ||| BitVec.ofNat 16 (2 ^ b) | none => a) else a) 0
  fromInst
    ||| (if s.store.noSpare then BitVec.ofNat 16 (2 ^ 5) else 0)
    ||| (if s.sec.stuck then BitVec.ofNat 16 (2 ^ 10) else 0)
    ||| (if s.pwr.hot || s.pwr.dieHot then BitVec.ofNat 16 (2 ^ 12) else 0)
    ||| (if s.pwr.clockLasting then BitVec.ofNat 16 (2 ^ 13) else 0)

/-- `TOP.FAULTS` is brought up to date; a change of it sets `TOP.CHANGE` bit 3 (R349). -/
def State.refreshFaults (s : State) : State :=
  if s.faultBits = s.top.faults then s else { s with top := { s.top with faults := s.faultBits } }.change 0b001000

/-! ### Power and clock events (R543) -/

/-- The MASK bit of a kind of EV_POWER: clock, thermal and supply, margin. -/
def powerBit (kind : Nat) : Nat := if kind < 3 then 0 else if kind < 5 then 1 else 2

/-- An occurrence for EV_POWER: where it is due it goes out with the occurrences since the last of its kind, else it is counted. -/
def State.powerEvent (s : State) (kind island value : Nat) (due : Bool) : State :=
  let g := s.pwr.ev.getD kind EvGate.reset
  let n := sat 32 (g.count + 1)
  let put (e : EvGate) : State := { s with pwr := { s.pwr with ev := s.pwr.ev.modify kind fun _ => e } }
  if due then
    (put { count := 0, last := some s.tb.now }).postAll (watchers s.pwr.watch (powerBit kind)) 0x8E00
      (leBytes 1 kind ++ leBytes 1 island ++ leBytes 2 value ++ leBytes 4 n ++ leBytes 8 s.tb.dev)
  else put { g with count := n }

/-! ### The recorder -/

/-- What names an instance of a fault source. -/
def FltInst.is (i : FltInst) (src island unit key : Nat) : Bool :=
  decide (i.src = src) && decide (i.island = island) && decide (i.unit = unit) && decide (i.key = key)

/-- The body of EV_FAULT (R571); `time` is the device time of the declaring event. -/
def faultBody (src kind island unit n time : Nat) : List Byte :=
  leBytes 1 src ++ leBytes 1 kind ++ leBytes 1 island ++ leBytes 1 0 ++ leBytes 2 unit ++ leBytes 2 n ++ leBytes 8 time

/-- The N-th newest of the times lies within W seconds of the newest (R565). -/
def lastingTest (n w now : Nat) (times : List Nat) : Bool :=
  decide (n ≤ times.length) && (match times[n - 1]? with | some t => decide (now ≤ t + w * 1000000000) | none => false)

/-- One event of a fault source is stamped, logged and counted, and tested for a lasting fault (R565, R566). Events of an
isolated island are not counted, but for its isolation and its self-test. A retirement with a spare leaves no DRAM fault present (R567). -/
def State.noteEvent (s : State) (src island unit key detail : Nat) : Bool × State :=
  if (s.island island).isolated ∧ src ≠ 4 ∧ src ≠ 3 then (false, s)
  else
    let q := s.flt.src.getD src FltSource.reset
    let old := (s.flt.inst.find? (·.is src island unit key)).getD
      { FltInst.reset with src := src, island := island, unit := unit, key := key }
    let times := (s.tb.now :: old.times).take q.n
    let lasting := q.fixed || lastingTest q.n q.w s.tb.now times
    let inst : FltInst := { old with
      times := if lasting then [] else times
      present := (lasting && decide (src ≠ 1) && decide (src ≠ 13)) || old.present, lastAt := s.tb.now
      declared := if lasting then s.tb.dev else old.declared, sinceUp := none }
    let rest := s.flt.inst.filter fun i => !(i.is src island unit key)
    let entry : FltLog := { time := s.tb.dev, src := src, island := island, unit := unit, lasting := lasting, detail := detail }
    let s := { s with flt := { s.flt with
      inst := inst :: rest
      log := (entry :: s.flt.log).take 256
      src := s.flt.src.modify src fun x => { x with events := sat 32 (x.events + 1), lasting := if lasting then sat 32 (x.lasting + 1) else x.lasting } } }
    if lasting then (true, s.postAll s.flt.watch 0x9000 (faultBody src 0 island unit q.n s.tb.dev))
    else (false, s)

/-! ### Isolation (R35, R36, R566) -/

/-- What isolating an island does to one crossing: blocks from it not yet delivered are discarded and a fault is counted;
blocks on their way to it are dropped and reported to the sender's consumer. -/
def Crossing.isolate (x : Crossing) (i : Nat) : Crossing :=
  if x.unacked.isEmpty then x
  else if x.snd = i then { x with unacked := [], faults := sat 32 (x.faults + 1) }
  else if x.rcv = i then { x with unacked := [], reported := x.reported ++ x.unacked.map (·.place) }
  else x

/-- Every crossing from or into an island that is isolated or reset acts (R35, R36). -/
def State.cutCrossings (s : State) (i : Nat) : State :=
  { s with fab := { s.fab with xing := s.fab.xing.map fun (x : Crossing) => x.isolate i } }

/-- An island is isolated: its crossings act, its engine, encoder or head stops, and the isolation is counted; a lasting
ISOLATION fault, or a failed self-test, keeps it isolated until device reset (R566, R568: once while it is isolated). -/
def State.isolate (s : State) (i : Nat) : State :=
  if (s.island i).isolated || !isolatable i then s
  else
    let r := s.noteEvent 4 i 0 0 0
    let s := r.2
    let s := s.cutCrossings i
    let s := s.modIsland i fun x => { x with isolated := true, isolatedAt := s.tb.now, barred := x.barred || r.1 }
    let s := if 3 ≤ i ∧ i ≤ 10 then s.modEngine (i - 3) fun e =>
        { e with st := .isolated, isolations := sat 32 (e.isolations + 1), barred := e.barred || r.1 } else s
    let s := if 11 ≤ i ∧ i ≤ 12 then s.modEncoder (i - 11) fun e => { e with isolated := true, barred := e.barred || r.1 } else s
    let s := if 14 ≤ i ∧ i ≤ 29 then s.modHead (i - 14) fun h => { h with isolated := true } else s
    s.refreshFaults

/-- The two ends of a crossing, and the one a lasting CROSSING fault isolates: the end that is not STORE, or the sender
when neither end is STORE (R566). -/
def crossingEnd (snd rcv : Nat) : Nat := if snd = 30 then rcv else if rcv = 30 then snd else snd

/-- A CTRL fault calls for a restart (R362, R566), which resets CTRL and so cuts its crossings (R35, R36): the third within 600 s resets the
device. -/
def State.ctrlFault (s : State) : State :=
  let recent := (s.tb.now :: s.flt.restarts).filter fun t => decide (s.tb.now ≤ t + 600000000000)
  if 3 ≤ recent.length then s.deviceReset
  else
    { s.cutCrossings islCtrl with
      flt := { s.flt with restarts := recent }
      twin := { s.twin with
        resyncCause1 := true
        restartFrom := if s.twin.resyncCause1 then s.twin.restartFrom else s.tb.now } }

/-- The links of one lane, or of every lane of a quad, are given back to their protocol to be trained again (R566). -/
def State.retrainLane (s : State) (q l : Nat) : State := s.modLane q l fun x => { x with lost := true }

/-- The fixed action a lasting fault of a source calls for (R566). -/
def State.faultAction (s : State) (src island unit key : Nat) : State :=
  match src with
  | 0 =>
    let e := crossingEnd island unit
    if e = 0 then s.ctrlFault
    else if e = 1 then (s.noteEvent 11 1 0 0 0).2.refreshFaults
    else s.isolate e
  | 1 => s.modDram unit fun x => { x with due := if x.due.contains key then x.due else key :: x.due }
  | 2 => s.isolate island
  | 3 => ((s.cutCrossings island).modIsland island fun x => { x with isolated := true, barred := true }).refreshFaults
  | 4 => s.modIsland island fun x => { x with barred := true }
  | 5 | 6 => s.retrainLane (unit / 4) (unit % 4)
  | 7 => (List.range 4).foldl (fun t l => t.retrainLane key l) s
  | 13 => s.ctrlFault
  | 14 => s.modZe key fun e => { e with disabled := true }
  | _ => s

/-- One event of a fault source, with the action of a lasting fault (R565, R566). During a handover or a CTRL restart the
actions firmware takes wait for its end (R568). -/
def State.fault (s : State) (src island unit key detail : Nat) : State :=
  let r := s.noteEvent src island unit key detail
  if r.1 then
    if (s.twin.resyncCause1 ∨ s.top.handover) ∧ src ≠ 13 ∧ src ≠ 0 then
      { r.2 with flt := { r.2.flt with delayed := r.2.flt.delayed ++ [(src, island, unit, key)] } }.refreshFaults
    else (r.2.faultAction src island unit key).refreshFaults
  else r.2.refreshFaults

end Sys2Proof.Machine
end

