-- ==== Sys2Proof/Machine/Access.lean ====
section
/-!
DEFINITION. The access table as an operation (12_trust.md): what an access is told, the log of refused accesses, a COMMIT that
adds or removes, the draining of removals, and the regions firmware hands out.
-/

namespace Sys2Proof.Machine

/-! ### What the journal decided (R588, R596) -/

/-- The imported journal has a DECISION entry of a kind for a source: 0 a packet declared lost, 1 a picture skipped or discarded, 2 an encoder
picture dropped, 3 a launch outcome. The value names the packet, the picture's RTP timestamp, the head frame or the launch (the form of the
payload is a DESIGN CHOICE, log entry 76). -/
def State.decided (s : State) (code src value : Nat) : Bool :=
  (s.jrn.decisions ++ s.jrn.importEntries).any fun (e : JEntry) =>
    decide (e.kind = 11) && decide (e.src.toNat = src) && decide (leNat (e.payload.take 1) = code) && decide (leNat ((e.payload.drop 1).take 4) = value)

/-- The device time of replayed work comes from the journal (R595). -/
def State.workTime (s : State) : Nat := if s.top.replay then s.jrn.lastTime else s.tb.dev

/-! ### Refused accesses (R431, R432) -/

/-- The body of EV_ACCESS (R432). -/
def accessBody (island colour kind : Nat) (wr : Bool) (count addr : Nat) : List Byte :=
  leBytes 1 island ++ leBytes 1 colour ++ leBytes 1 kind ++ leBytes 1 (b2n wr) ++ leBytes 4 count ++ leBytes 8 addr

/-- Why an access is refused: 0 unmatched, 1 permission, 2 undecoded or check region (R432). -/
def State.refusalKind (s : State) (colour a : Nat) : Nat :=
  if placeOf a = .undecoded then 2
  else if s.sec.act.any fun e => e.2.covers colour (a / 4096) then 1 else 0

/-- One watcher of refused accesses of its own colour: it counts, and posts at most once per second. -/
def SecWatch.access (w : SecWatch) (now : Nat) : SecWatch × Bool :=
  if (match w.accAt with | none => true | some t => decide (t + 1000000000 ≤ now)) then
    ({ w with accCount := 0, accAt := some now }, true)
  else ({ w with accCount := w.accCount + 1 }, false)

/-- A refused access is logged by SEC and reported to the watching rings of its colour (R431, R432). -/
def State.logRefused (s : State) (island colour a : Nat) (wr : Bool) : State :=
  let kind := s.refusalKind colour a
  let entry : AccFault := { island := island, colour := colour, addr := a, wr := wr, epoch := s.sec.epoch, kind := kind }
  let mine (w : SecWatch) : Bool := w.mask.getLsbD 0 && decide (w.colour = colour)
  let posts := s.sec.watch.filter fun w => mine w && (w.access s.tb.now).2
  let s' := { s with sec := { s.sec with
    accLog := (entry :: s.sec.accLog).take 64
    watch := s.sec.watch.map fun w => if mine w then (w.access s.tb.now).1 else w } }
  posts.foldl (fun t w => t.post w.ring 0x8B00 0 (accessBody island colour kind wr (w.accCount + 1) a)) s'

/-- A page is sealed: a sealed entry covers it, or it lies in the first GiB (R395, R430). -/
def State.sealedPage (s : State) (page : Nat) : Bool := decide (page < 0x40000) || s.sec.act.any fun e => e.2.spans page && e.2.sealed_

/-! ### Entries and removals (R428, R429, R434) -/

/-- The entry that the staged words spell (R428). -/
def ActEntry.ofWords (w0 w1 : BitVec 64) : ActEntry :=
  { base := w0.extractLsb' 0 28, last := w0.extractLsb' 28 28, colour := w0.extractLsb' 56 6, sealed_ := w0.getLsbD 62
    lock := w0.getLsbD 63, valid := w1.getLsbD 0, read := w1.getLsbD 1, write := w1.getLsbD 2, exec_ := w1.getLsbD 3
    label := w1.extractLsb' 16 16 }

/-- The entry at an index (R428); an index never written holds all zeros. -/
def State.actAt (s : State) (i : Nat) : ActEntry := ((s.sec.act.find? fun e => e.1 = i).map (·.2)).getD ActEntry.reset

/-- The table with one entry replaced, in rising order of index. -/
def actSet (l : List (Nat × ActEntry)) (i : Nat) (e : ActEntry) : List (Nat × ActEntry) :=
  (l.filter fun x => x.1 < i) ++ (if e = ActEntry.reset then [] else [(i, e)]) ++ (l.filter fun x => i < x.1)

/-- Pages a removal takes when an entry gives way to another (R434): clearing VALID, narrowing the range, dropping a
permission, or changing the colour. -/
def ActEntry.isRemoval (old new : ActEntry) : Bool :=
  old.valid && (!new.valid || decide (new.colour ≠ old.colour) || decide (old.base < new.base) || decide (new.last < old.last)
    || (old.read && !new.read) || (old.write && !new.write) || (old.exec_ && !new.exec_))

/-- An access was checked at an epoch, or before it (R434, R435). -/
def checkedBy (tag epoch : BitVec 16) : Bool := decide ((epoch - tag).toNat < 2 ^ 15)

/-- Accesses of a colour that were checked at an epoch or before it and have not completed (R433): requests that wait at STORE, and writes it has
asked for again. -/
def State.inFlight (s : State) (colour : Nat) (epoch : BitVec 16) : Bool :=
  (s.store.ch.any fun c => c.queue.any fun q => decide (q.colour = colour) && checkedBy q.epoch epoch)
    || s.store.asked.any fun a => decide (a.colour = colour) && checkedBy a.epoch epoch

/-- Pages become dirty (R429, R434). -/
def State.dirtyPages (s : State) (first last colour : Nat) : State :=
  { s with sec := { s.sec with dirty := s.sec.dirty ++ [(first, last, colour)] } }

/-- An entry takes the place of another in the table, and the rule epoch rises where that takes something away. A removal
with no earlier access in flight is complete at once; otherwise it drains (R434). -/
def State.replaceEntry (s : State) (i : Nat) (new : ActEntry) : State :=
  let old := s.actAt i
  let s' := { s with sec := { s.sec with act := actSet s.sec.act i new } }
  if old.isRemoval new then
    let c := old.colour.toNat
    let s' := { s' with sec := { s'.sec with epoch := s.sec.epoch + 1 } }
    if s.inFlight c s.sec.epoch then
      { s' with sec := { s'.sec with
        actBusy := true
        removals := s'.sec.removals ++ [{ colour := c, first := old.base.toNat, last := old.last.toNat, epoch := s.sec.epoch, at_ := s.tb.now }] } }
    else s'.dirtyPages old.base.toNat old.last.toNat c
  else s'

/-- A range of pages, wiped, is clean (R429, R401). -/
def cleanPages (d : List (Nat × Nat × Nat)) (first last : Nat) : List (Nat × Nat × Nat) :=
  d.flatMap fun x =>
    if last < x.1 ∨ x.2.1 < first then [x]
    else (if x.1 < first then [(x.1, first - 1, x.2.2)] else []) ++ (if last < x.2.1 then [(last + 1, x.2.1, x.2.2)] else [])

/-- A span of the store is wiped: every byte zero, its pages clean, its blocks good (R401). -/
def State.wipeSpan (s : State) (a n : Nat) : State :=
  { s with
    store := { s.store with mem := s.store.mem.clear a n
                            damaged := s.store.damaged.filter fun b => !(decide (a ≤ b.1) && decide (b.1 < a + n)) }
    sec := { s.sec with dirty := cleanPages s.sec.dirty (a / 4096) ((a + n - 1) / 4096) } }

/-! ### Regions (R350, R425): first fit above the first GiB (DESIGN CHOICE, log entry 9) -/

/-- The first address a region may have, and where the packet buffers and behind them the picture buffers begin (log entry 66). -/
def regionLow : Nat := 0x40000000
def regionHigh : Nat := 0x360000000

/-- The region holds no dirty page. -/
def State.regionClean (s : State) (base size : Nat) : Bool :=
  s.sec.dirty.all fun d => decide (d.2.1 < base / 4096) || decide ((base + size - 1) / 4096 < d.1)

/-- The lowest address at which a region of a size fits. -/
def State.findRegion (s : State) (size : Nat) : Option Nat :=
  let ends := s.store.regions.map fun a => a.base + a.size
  let dirtyEnds := s.sec.dirty.map fun d => (d.2.1 + 1) * 4096
  ((regionLow :: (ends ++ dirtyEnds)).filter fun b =>
      decide (regionLow ≤ b) && decide (b + size ≤ regionHigh) && s.regionFree b size && s.regionClean b size).min?

/-- Bytes of the store that a colour holds. -/
def State.used (s : State) (colour : Nat) : Nat :=
  ((s.store.regions.filter fun a => a.colour = colour).map (·.size)).sum

/-- A colour's store quota in bytes (R425). -/
def State.quota (s : State) (colour : Nat) : Nat := s.sec.config.quota.getD (colour - 1) 0 * 2 ^ 20

/-- The lowest index of the access table whose entry is not valid. -/
def State.freeEntry (s : State) : Option Nat :=
  ((0 :: s.sec.act.map (·.1 + 1)).filter fun i => decide (i < 8192) && !(s.actAt i).valid).min?

end Sys2Proof.Machine
end

