-- ==== Sys2Proof/Machine/Identity.lean ====
section
/-!
DEFINITION. The part's identity as others see it: the public content of its record and the attestation report (12_trust.md).
-/

namespace Sys2Proof.Machine

/-- The ring map's words of the record, or of a part with no provisioned map (R326). -/
def RingMapEntry.bytes (e : RingMapEntry) : List Byte :=
  leBytes 4 (e.colour.toNat + 2 ^ 6 * b2n e.urgent + 2 ^ 7 * b2n e.network + 2 ^ 8 * e.channel.toNat + 2 ^ 31 * b2n e.valid)

/-- The bytes of a network channel of the ring map. -/
def Channel.bytes (c : Channel) : List Byte :=
  leBytes 2 c.udp ++ leBytes 1 c.ports.toNat ++ leBytes 1 0 ++ beBytes 4 c.peerFilter.toNat ++ c.peerKey

/-- The device configuration as bytes. -/
def DevConfig.bytes (c : DevConfig) : List Byte :=
  leBytes 1 c.grain ++ leBytes 1 c.pin ++ leBytes 1 c.admin ++ leBytes 1 0 ++ leBytes 2 c.age1 ++ leBytes 2 c.age2 ++ leBytes 4 c.age3
    ++ c.quota.flatMap (leBytes 2)

/-- The public content of a record (R421 RECORD_DIGEST): owner keys, plate authority keys, ring map, device configuration. The
order and form of its parts are the model's (DESIGN CHOICE, log entry 10). -/
def Record.publicBytes (r : Record) : List Byte :=
  r.ownerE ++ r.ownerM ++ r.plateE ++ r.plateM ++ (r.ringMap.getD []).flatMap RingMapEntry.bytes ++ r.chans.flatMap Channel.bytes
    ++ (r.config.map DevConfig.bytes).getD []

/-- The owner of the part: a digest is fused and not invalidated (R407, R417). -/
def State.owner (s : State) : Option (List Byte) := if s.sec.fuses.ownerInvalid then none else s.sec.fuses.ownerDigest

/-- FLAGS of the attestation report (R421). -/
def State.reportFlags (s : State) : Nat :=
  b2n s.sec.debugSeen + 2 * b2n (!s.sec.record.plateE.isEmpty) + 4 * b2n s.top.replay + 8 * b2n s.sec.entropyBad

/-- Bytes 0x000–0x0FF of the attestation report (R421). -/
def State.reportHead (s : State) (challenge : List Byte) (time : Nat) : List Byte :=
  layout 0x100 [(0x00, leBytes 2 1), (0x02, leBytes 1 s.lifecycle.code), (0x03, leBytes 1 0xB0), (0x04, leBytes 4 s.sec.running.release.toNat),
    (0x08, leBytes 4 s.sec.running.secVersion), (0x0C, leBytes 4 s.sec.fuses.imageCounter), (0x10, padTo 16 s.deviceId),
    (0x20, padTo 32 challenge), (0x40, padTo 48 (Config.sha384 s.sec.running.header)),
    (0x70, padTo 48 (Config.sha384 s.sec.record.publicBytes)), (0xA0, padTo 48 (s.owner.getD [])),
    (0xD0, leBytes 8 (match s.comp.nonce with | some n => n.toNat | none => 0)), (0xD8, leBytes 8 time),
    (0xE0, leBytes 1 s.top.gatherId.toNat), (0xE1, leBytes 1 s.role), (0xE2, leBytes 2 s.reportFlags),
    (0xE4, leBytes 4 s.sec.record.gen), (0xE8, leBytes 1 s.sec.fuses.rootRevoked.toNat)]

/-- The attestation report (R421), 7,827 bytes: the signatures are made over bytes 0x000–0xC1F. -/
def State.report (s : State) (challenge eph : List Byte) : List Byte :=
  let salt := s.sec.fuses.salt1
  let body := s.reportHead challenge s.tb.dev ++ layout 0x80 [(0, padTo 97 eph)] ++ layout 0x80 [(0, padTo 97 (Config.idPubE salt))]
    ++ padTo 2592 (Config.idPubM salt)
  body ++ padTo 96 (Config.signE salt body) ++ padTo 4627 (Config.signM salt body)

end Sys2Proof.Machine
end

