-- ==== Sys2Proof/Machine/Rings.lean ====
section
/-!
DEFINITION. Folios, rings, records, windows and BAR0 accesses of the host (09_folios_rings.md, 10_ordering_recovery.md).
-/

namespace Sys2Proof.Machine

/-! ### Who may reach what -/

/-- HOST answers accesses: PERST_N is high, firmware has started and the island runs (R612, R35). -/
def State.hostUp (s : State) : Bool := !s.host.perst && s.pwr.booted && !(s.island islHost).isolated

/-- A ring of a pair that the ring map binds to a network command channel (R332). -/
def State.ringNet (s : State) (k : Nat) : Bool :=
  if k < 32 then (s.mapOf k).network else if k < 64 then (s.mapOf (k - 32)).network else false

/-- Writes to ring registers act: not on a standby (R363), nor on a network-bound pair (R332). -/
def State.ringWritable (s : State) (k : Nat) : Bool :=
  s.hostUp && decide (k < 128) && !s.ringNet k && decide (s.role ≠ 2)

/-- Entries a ring holds that its consumer has not passed, modulo 2^32. -/
def Ring.used (r : Ring) : Nat := (r.hostIndex - r.deviceIndex).toNat

/-- The bytes a host read returns. -/
def State.reply (s : State) (bs : List Byte) : State := { s with host := { s.host with bus := { s.host.bus with reply := bs } } }

/-! ### RING.ENABLE (R328) -/

/-- LOG2SIZE lies in the range of the ring's kind. -/
def log2Ok (k log2 : Nat) : Bool :=
  if 32 ≤ k ∧ k < 64 then decide (6 ≤ log2) && decide (log2 ≤ 16) else decide (4 ≤ log2) && decide (log2 ≤ 12)

/-- The ring map lets the ring be enabled (R326). -/
def State.ringValid (s : State) (k : Nat) : Bool :=
  if k < 32 then (s.mapOf k).valid else if k < 64 then (s.mapOf (k - 32)).valid else true

/-- A write of 1 to `RING.ENABLE`. -/
def State.enableRing (s : State) (k : Nat) : State :=
  let r := s.ring k
  if !s.ringWritable k then s
  else if r.state ≠ .disabled then s
  else if !log2Ok k r.log2.toNat then s.hostFault 6 true 0 k
  else if !s.ringValid k then s.hostFault 7 true 0 k
  else s.modRing k fun x => { x with enable := true, state := .running, hostIndex := 0, deviceIndex := 0 }

/-- A write of 0 to `RING.ENABLE`. A stream ring's entry in hand has been read as a whole, so that ring passes DRAINING at
once. -/
def State.disableRing (s : State) (k : Nat) : State :=
  let r := s.ring k
  if !s.ringWritable k then s
  else if r.state = .disabled ∨ r.state = .draining then s
  else if k < 32 then (s.modRing k fun x => { x with enable := false, state := .draining }).drained k
  else s.modRing k fun x => { x with enable := false, state := .disabled }

/-- RING_ENABLE (R328). -/
def execRingEnable (dt k : Nat) (s : State) : Out := .next ((s.elapse dt).enableRing k)

/-- RING_DISABLE (R328). -/
def execRingDisable (dt k : Nat) (s : State) : Out := .next ((s.elapse dt).disableRing k)

/-! ### Doorbells (R329, R366, R367) -/

/-- The new index is valid: on a CMD or STM ring it moves forwards and leaves no more entries than the ring has; on an EVT
ring it moves forwards and does not pass DEVICE_INDEX (R329). -/
def Ring.doorbellOk (r : Ring) (k : Nat) (index : BitVec 32) : Bool :=
  if 32 ≤ k ∧ k < 64 then decide ((r.deviceIndex - index).toNat ≤ (r.deviceIndex - r.hostIndex).toNat)
  else decide (r.used ≤ (index - r.deviceIndex).toNat) && decide ((index - r.deviceIndex).toNat ≤ 2 ^ r.log2.toNat)

/-- The body of EV_RESYNC (R343). -/
def resyncBody (cause ring : Nat) (nextSeq lastDone : BitVec 32) (discarded : Nat) : List Byte :=
  leBytes 1 cause ++ leBytes 1 ring ++ leBytes 2 0 ++ leBytes 4 nextSeq.toNat ++ leBytes 4 lastDone.toNat ++ leBytes 4 discarded

/-- The status of a folio that was begun before a takeover: the swap itself and a sheet the standby had applied complete
with E_OK, everything else with E_RESYNC (R368, R478). -/
def Begun.resyncStatus (b : Begun) : Status :=
  match b.wait with
  | .swap | .plateCopy _ | .plateFrame _ => .ok
  | _ => .resync

/-- A valid resync doorbell H (R367): what goes out from index H is EV_RESYNC, the held records from H on, and the
completion of the folio that had been begun; the records raised meanwhile follow. -/
def State.resync (s : State) (n : Nat) (h : BitVec 32) : State :=
  let e := s.evtQ n
  let q := s.cmdQ n
  let m := s.top.gatherId.toNat
  let disc := match q.begun with | some b => if b.resyncStatus = .resync then 1 else 0 | none => 0
  let ev := Held.of 0x8000 0 s.tb.dev n m (resyncBody 0 n (s.ring n).seq q.lastDone disc)
  let again := (e.acked.drop (h - e.mirrorBase).toNat).map fun x => { x with acks := 0 }
  let last := match q.begun with
    | some b => [{ Held.of 0 b.folio.tag s.tb.dev n m (compBody b.resyncStatus b.folio.opcode b.cmdSeq 0) with comp := true }]
    | none => []
  let s := s.modEvtQ n fun x => { x with acked := ev :: again ++ last }
  let s := s.modCmdQ n fun x => { x with
    begun := none, awaitResync := false, lastDone := match q.begun with | some b => b.cmdSeq | none => x.lastDone }
  ((s.modRing (32 + n) fun r => { r with hostIndex := h, deviceIndex := h }).change 0b010000).drained n

/-- A write of the EVT HOST_INDEX of a pair that waits for its resync doorbell (R366). -/
def State.resyncDoorbell (s : State) (n : Nat) (index : BitVec 32) : State :=
  let r := s.ring (32 + n)
  let e := s.evtQ n
  if !s.ringWritable (32 + n) || !(s.cmdQ n).awaitResync || decide (r.state ≠ .running) then s
  else if (index - e.mirrorBase).toNat ≤ (r.deviceIndex - e.mirrorBase).toNat then s.resync n index
  else s.hostFault 4 true 0 (32 + n)

/-- A write of `RING.HOST_INDEX` (R329). -/
def State.doorbell (s : State) (k : Nat) (index : BitVec 32) : State :=
  let r := s.ring k
  if !s.ringWritable k then s
  else if 32 ≤ k ∧ k < 64 ∧ (s.cmdQ (k - 32)).awaitResync then s.resyncDoorbell (k - 32) index
  else if r.state = .disabled ∨ r.state = .halted then s
  else if r.doorbellOk k index then s.modRing k fun x => { x with hostIndex := index }
  else s.hostFault 4 true 0 k

/-- DOORBELL (R329). -/
def execDoorbell (dt k : Nat) (index : BitVec 32) (s : State) : Out := .next ((s.elapse dt).doorbell k index)

/-- RESYNC_DOORBELL (R366, R367). -/
def execResyncDoorbell (dt n : Nat) (index : BitVec 32) (s : State) : Out := .next ((s.elapse dt).resyncDoorbell n index)

/-! ### Host reads with an effect, and writes of one register (R327, R348, R349, R152) -/

/-- RING_LOST_READ: the count of dropped events, and zero from then on (R327). -/
def execRingLostRead (dt n : Nat) (s : State) : Out :=
  let s := s.elapse dt
  if !s.hostUp || decide (32 ≤ n) then .next s
  else if s.ringNet n then .next (s.reply (leBytes 4 0))
  else .next ((s.reply (leBytes 4 (s.ring (32 + n)).lost.toNat)).modRing (32 + n) fun r => { r with lost := 0 })

/-- TOP_CHANGE_WRITE: bits written as one are cleared (R349). -/
def execTopChangeWrite (dt : Nat) (bits : BitVec 32) (s : State) : Out :=
  let s := s.elapse dt
  if s.hostUp then .next { s with top := { s.top with change := s.top.change &&& ~~~(bits.setWidth 6) } } else .next s

/-- TOP_HFAULTS_READ: the count of host-access faults, and zero from then on (R349). -/
def execTopHfaultsRead (dt : Nat) (s : State) : Out :=
  let s := s.elapse dt
  if s.hostUp then .next { s.reply (leBytes 4 s.top.hfaults.toNat) with top := { s.top with hfaults := 0 } } else .next s

/-- TIME_LO_READ: the low half of device time; the upper half is latched (R152, R349). -/
def execTimeLoRead (dt : Nat) (s : State) : Out :=
  let s := s.elapse dt
  if s.hostUp then
    .next { s.reply (leBytes 4 s.tb.dev) with top := { s.top with timeHi := BitVec.ofNat 32 (s.tb.dev / 2 ^ 32) } }
  else .next s

/-- A write of an interrupt source register (R348): setting ENABLE of an EVT source restarts its moderation. -/
def State.writeSource (s : State) (src : Nat) (value : BitVec 32) : State :=
  let was := (s.host.irq.getD src { vector := 0, enable := false }).enable
  let s := { s with host := { s.host with irq := s.host.irq.modify src fun _ =>
    { vector := value.extractLsb' 0 6, enable := value.getLsbD 31 } } }
  if src < 32 ∧ value.getLsbD 31 ∧ !was then s.modEvtQ src fun q => { q with count := 0, firstAt := none } else s

/-- INTERRUPT_SOURCE_WRITE (R348). -/
def execInterruptSourceWrite (dt src : Nat) (value : BitVec 32) (s : State) : Out :=
  let s := s.elapse dt
  if s.hostUp then .next (s.writeSource src value) else .next s

/-! ### BAR2 (R54–R56) -/

/-- A host access through BAR2 is served, or refused with its kind of host-access fault: 2 unmapped, 3 by the access table. -/
def State.bar2Kind (s : State) (w off n : Nat) (wr : Bool) : Nat :=
  if !(s.window w).mapped || (s.window w).unmapping || decide ((s.window w).size.toNat < off + n) then 2
  else if !s.permits (s.window w).colour.toNat ((s.window w).base + off) n wr then 3 else 0

/-- A refused access is counted, and logged by SEC where the access table refuses it. -/
def State.bar2Refuse (s : State) (kind w off : Nat) (wr : Bool) : State :=
  let s := s.hostFault kind wr w (w * winStride + off)
  if kind = 3 then s.logRefused islHost (s.window w).colour.toNat ((s.window w).base + off) wr else s

/-- The blocks of a list that are damaged: each is a fault event of its place in the DRAM that names the address (R34, R396). -/
def State.damageFaults (s : State) (blocks : List Nat) : State :=
  (blocks.filter fun b => s.store.damagedAt b).foldl
    (fun (t : State) b => t.fault 1 islStore (channelOf t.store.grain b) (bankRow (chanAddr t.store.grain b)) b) s

/-- BAR2_READ (R56): a refused read, and a block that arrives poisoned, return all ones. -/
def execBar2Read (dt offset len : Nat) (s : State) : Out :=
  let s := s.elapse dt
  let w := offset / winStride
  let off := offset % winStride
  if !s.hostUp || decide (len = 0) || decide (8 * winStride ≤ offset) then .next s
  else
    let kind := s.bar2Kind w off len false
    if kind ≠ 0 then .next ((s.bar2Refuse kind w off false).reply (List.replicate len 0xFF))
    else
      let a := (s.window w).base + off
      let s := { s with store := s.store.land a len }
      .next ((s.damageFaults (blocksOf a len)).reply ((List.range len).map fun i =>
        if s.store.damagedAt ((a + i) / 256 * 256) then 0xFF else s.store.mem.read (a + i)))

/-- The blocks that a write of a span changes in part, so that HOST reads and merges them (R27, R41). -/
def partBlocks (a n : Nat) : List Nat := (blocksOf a n).filter fun b => decide (b < a) || decide (a + n < b + 256)

/-- BAR2_WRITE (R56): a block changed in part is checked before it is merged, and a damaged one is left as it is, with a fault event
(R27, R34, R397). -/
def execBar2Write (dt offset : Nat) (bytes : List Byte) (s : State) : Out :=
  let s := s.elapse dt
  let w := offset / winStride
  let off := offset % winStride
  if !s.hostUp || bytes.isEmpty || decide (8 * winStride ≤ offset) then .next s
  else
    let kind := s.bar2Kind w off bytes.length true
    if kind ≠ 0 then .next (s.bar2Refuse kind w off true)
    else
      let a := (s.window w).base + off
      let s := { s with store := s.store.land a bytes.length }
      .next ((s.storeWrite a bytes).damageFaults (partBlocks a bytes.length))

/-! ### Fetching folios (R330, R331, R338, R364) -/

/-- Folios of a CMD ring that the device has fetched and not completed: `RING.INFLIGHT`. -/
def State.inflight (s : State) (r : Nat) : Nat := (s.cmdQ r).fetched.length + (if (s.cmdQ r).begun.isSome then 1 else 0)

/-- HOST may fetch from a CMD ring: RUNNING, a folio written, at most 16 ahead; not on a standby, nor while READY is clear. -/
def State.fetchable (s : State) (r : Nat) : Bool :=
  decide (r < 32) && s.hostUp && s.top.ready && decide (s.role ≠ 2) && !s.ringNet r && decide ((s.ring r).state = .running)
    && decide ((s.cmdQ r).unmirrored < (s.ring r).used) && decide (s.inflight r < 16)

/-- A ring halts (R331). -/
def State.haltRing (s : State) (k : Nat) (wr : Bool) : State :=
  (s.modRing k fun r => { r with state := .halted }).hostFault 5 wr 0 k

/-- A folio enters the device. DEVICE_INDEX passes it at once, or when a standby in sync has acknowledged its mirror (R364). -/
def State.takeFolio (s : State) (r : Nat) (raw : List Byte) (damaged : Bool) : State :=
  let f : Fetched := { folio := { raw := padTo 256 raw }, damaged := damaged, order := s.host.fetchNo }
  let s := { s with host := { s.host with fetchNo := s.host.fetchNo + 1 } }
  let s := s.modCmdQ r fun q => { q with fetched := q.fetched ++ [f], unmirrored := if s.mirroring then q.unmirrored + 1 else 0 }
  if s.mirroring then s else s.modRing r fun x => { x with deviceIndex := x.deviceIndex + 1 }

/-- FOLIO_FETCH: HOST fetches the next folio of a CMD ring, urgent rings first (R330, R331, R338). -/
def execFolioFetch (dt ring : Nat) (dma : Dma) (s : State) : Out :=
  let s := s.elapse dt
  let urgentFirst := (List.range 32).any fun r => (s.mapOf r).urgent && s.fetchable r
  if !s.fetchable ring || (urgentFirst && !(s.mapOf ring).urgent) then .next s
  else match dma with
    | .pcieError => .next (s.haltRing ring false)
    | .good bs => .next (s.takeFolio ring bs false)
    | .poisoned bs => .next (s.takeFolio ring bs true)

/-! ### Beginning a folio (R334–R338, R342) -/

/-- The defined opcodes (R345). -/
def definedOps : List Nat :=
  [0x0000, 0x0001, 0x0010, 0x0011, 0x0100, 0x0101, 0x0102, 0x0103, 0x0104, 0x0110, 0x0111, 0x0112, 0x0113, 0x0120, 0x0121, 0x0130,
   0x0210, 0x0211, 0x0212, 0x0213, 0x0300, 0x0302, 0x0400, 0x0401, 0x0402, 0x0403, 0x0404, 0x0405] ++
  [0x0600, 0x0601, 0x0602, 0x0610, 0x0611, 0x0620, 0x0700, 0x0701, 0x0702, 0x0703, 0x0710, 0x0711,
   0x0800, 0x0801, 0x0802, 0x0803, 0x0804, 0x0805, 0x0A00, 0x0A01, 0x0A02, 0x0B00, 0x0B01, 0x0B02, 0x0B03, 0x0B04, 0x0B05, 0x0B06, 0x0B07] ++
  [0x0C00, 0x0C01, 0x0C02, 0x0C10, 0x0C11, 0x0C12, 0x0C20, 0x0C21, 0x0C22, 0x0D00, 0x0D01, 0x0D02, 0x0D10, 0x0D11, 0x0D20,
   0x0E00, 0x0E01, 0x0E02, 0x0E03, 0x0E04, 0x0F00, 0x0F01, 0x0F02] ++
  [0x1000, 0x1001, 0x1002, 0x1010, 0x1011, 0x1012, 0x1020, 0x1030, 0x1031, 0x1032, 0x1033, 0x1034, 0x1035, 0x1036]

/-- The opcode is permitted in a life-cycle state (check 6 of R334): R402, R422 and R541 ask for DEVELOP, R427 and R569 for
DEVELOP or FIELD, R420 for any state but VOID. -/
def opPermitted (op : Nat) (lc : LifeCycle) : Bool :=
  if op = 0x0A00 ∨ op = 0x0B02 ∨ op = 0x0E01 then decide (lc = .develop)
  else if op = 0x0B01 ∨ op = 0x1000 then decide (lc = .develop) || decide (lc = .field)
  else if op = 0x0B00 then decide (lc ≠ .void)
  else true

/-- The opcodes served while ELECTING (R468) and in replay mode (R595). -/
def electingOps : List Nat := [0x0000, 0x0B00, 0x0C20, 0x0C22]
def replayOps : List Nat :=
  [0x0000, 0x0001, 0x0B00, 0x1035, 0x0104, 0x0112, 0x0213, 0x0302, 0x0405, 0x0611, 0x0703, 0x0805, 0x0A01, 0x0A02, 0x0B07, 0x0C02,
   0x0C11, 0x0C12, 0x0C22, 0x0D02, 0x0D11, 0x0E02, 0x0E03, 0x0E04, 0x0F01, 0x0F02, 0x1001, 0x1002, 0x1036]

/-- A member of the gathering that a folio can be forwarded to: reachable, or this part (R334, R335). -/
def State.reachable (s : State) (m : Nat) : Bool := decide (m = s.top.gatherId.toNat) || decide ((s.member m).st = 1)

/-- The checks of R334 that every folio meets: 1 to 3 (the colour of a forwarded folio is its own ring's), and 5 to 7. The
status of the first that fails. -/
def State.earlyCheck (s : State) (r : Nat) (f : Fetched) : Option Status :=
  firstBad [(!f.damaged, .damaged), (decide (f.folio.seq = (s.ring r).seq.toNat), .sequence),
    (decide (f.folio.colour = s.ringColour r), .colour)]

/-- Check 5: LENGTH, the reserved bits of FLAGS and ROUTE, and URGENT only on an urgent ring. -/
def Folio.formOk (f : Folio) (urgent : Bool) : Bool :=
  decide (f.len ≤ 240) && decide (f.flags < 4) && decide (f.route / 2 ^ 6 % 4 = 0) && decide (f.route / 2 ^ 9 % 128 = 0)
    && decide (f.route / 2 ^ 20 = 0) && (urgent || !f.urgent)

/-- Checks 5 to 7, then the states that serve only some opcodes. -/
def State.lateCheck (s : State) (r : Nat) (f : Folio) : Option Status :=
  firstBad [(f.formOk (s.mapOf r).urgent, .param), (opPermitted f.opcode s.lifecycle, .lifecycle),
    (!f.forward || s.reachable f.member, .unreachable),
    (decide (s.twin.st ≠ .electing) || electingOps.contains f.opcode, .state),
    (!s.top.replay || (replayOps.contains f.opcode && decide (s.ringColour r = s.admin)), .state)]

/-- The folio is to be carried out on another member (R335). -/
def State.goesAway (s : State) (f : Folio) : Bool := f.forward && decide (f.member ≠ s.top.gatherId.toNat)

/-- A damaged folio is reported with OPCODE 0xFFFF and TAG 0 (R334). -/
def damagedFolio : Folio := { raw := padTo 256 [0xFF, 0xFF] }

/-- The next folio of a CMD ring is taken: the expected SEQUENCE rises, the checks are made in order, and the folio begins or
completes with the status of the first check that fails (R334). -/
def State.beginFolio (s : State) (r : Nat) : State :=
  match (s.cmdQ r).fetched with
  | [] => s
  | f :: rest =>
    let b : Begun := { folio := if f.damaged then damagedFolio else f.folio, order := f.order, cmdSeq := (s.ring r).seq, wait := .run
                       origin := none, fwdRing := r }
    let early := s.earlyCheck r f
    let late := s.lateCheck r f.folio
    let away := s.goesAway f.folio
    let t := (s.modCmdQ r fun q => { q with fetched := rest, begun := some b }).modRing r fun x => { x with seq := x.seq + 1 }
    match early with
    | some st => t.finish r st (if st = .sequence then f.folio.seq else 0) id
    | none =>
      if !definedOps.contains f.folio.opcode then
        t.modCmdQ r fun q => { q with begun := some { b with wait := .undefinedOp } }
      else match late with
        | some st => t.finish r st 0 id
        | none =>
          if away then
            let t := { t with gath := { t.gath with fwdSent := (f.folio.member, r, b.cmdSeq) :: t.gath.fwdSent } }
            t.modCmdQ r fun q => { q with begun := some { b with wait := .forward f.folio.member } }
          else t

/-- A CMD ring's next folio may begin: none before it is in hand, and the completion place of its event queue is free
(R336, R342, R366). -/
def State.beginnable (s : State) (r : Nat) : Bool :=
  !(s.cmdQ r).fetched.isEmpty && (s.cmdQ r).begun.isNone && !(s.cmdQ r).awaitResync && !((s.evtQ r).hold.any (·.comp))

/-- Firmware takes folios at all: READY, not on a standby, and neither a handover, a CTRL restart nor a swap runs
(R339, R362, R363, R478). -/
def State.takesFolios (s : State) : Bool :=
  s.top.ready && !s.top.handover && !s.twin.resyncCause1 && s.twin.swap.isNone && decide (s.role ≠ 2)

/-- The rings from `first` on, round-robin. -/
def robin (first : Nat) : List Nat := (List.range 32).map fun i => (first + i) % 32

/-- An urgent folio stands at the head of an urgent ring. -/
def State.headUrgent (s : State) (r : Nat) : Bool :=
  (s.mapOf r).urgent && (match (s.cmdQ r).fetched with | f :: _ => !f.damaged && f.folio.urgent | [] => false)

/-- The ring dispatch picks (R338): urgent folios at the head of urgent rings first, then the others, round-robin. -/
def State.pick (s : State) : Option (Nat × Bool) :=
  match (robin s.host.rrUrgent).find? fun r => s.beginnable r && s.headUrgent r with
  | some r => some (r, true)
  | none => ((robin s.host.rrNext).find? fun r => s.beginnable r).map fun r => (r, false)

/-- FOLIO_BEGIN: firmware dispatches the next folio (R338). -/
def execFolioBegin (dt : Nat) (s : State) : Out :=
  let s := s.elapse dt
  if !s.takesFolios then .next s
  else match s.pick with
    | some (r, true) => .next ({ s with host := { s.host with rrUrgent := (r + 1) % 32 } }.beginFolio r)
    | some (r, false) => .next ({ s with host := { s.host with rrNext := (r + 1) % 32 } }.beginFolio r)
    | none => .next s

/-! ### NOP, SYNC and undefined opcodes (R345, R346) -/

/-- NOP returns the completion time. -/
def bodyNop (_ : FCtx) (s : State) : FRes := .done .ok (s.tb.dev % 2 ^ 64) s id
/-- SYNC waits for the earlier folios of its colour. -/
def bodySync (_ : FCtx) (s : State) : FRes := .wait .sync s

/-- NOP (R346). -/
def execNop (dt ring : Nat) (s : State) : Out := .next ((s.elapse dt).runFolio ring 0x0000 bodyNop)
/-- SYNC (R346). -/
def execSync (dt ring : Nat) (s : State) : Out := .next ((s.elapse dt).runFolio ring 0x0001 bodySync)

/-- UNDEFINED_OPCODE (R345): the folio completes with E_OPCODE. -/
def execUndefinedOpcode (dt ring : Nat) (s : State) : Out :=
  let s := s.elapse dt
  match (s.cmdQ ring).begun with
  | some b => if b.wait = .undefinedOp then .next (s.finish ring .opcode 0 id) else .next s
  | none => .next s

/-! ### BAR2 windows (R350, R351) -/

/-- WINDOW_MAP (R350). -/
def bodyWindowMap (c : FCtx) (s : State) : FRes :=
  let w := c.u 0x10 1
  let size := c.u 0x14 4
  let room := decide (s.used c.colour + size ≤ s.quota c.colour)
  let place := s.findRegion size
  let entry := s.freeEntry
  .checks [(decide (w < 8) && decide (c.u 0x11 3 = 0) && decide (size % 4096 = 0) && decide (4096 ≤ size) && decide (size ≤ 33554432), .param),
      (!(s.window w).mapped && !(s.window w).unmapping, .busy),
      (room && place.isSome && entry.isSome, .nospace)] s <|
    match place, entry with
    | some base, some i =>
      let e : ActEntry := { base := BitVec.ofNat 28 (base / 4096), last := BitVec.ofNat 28 ((base + size - 1) / 4096)
                            colour := BitVec.ofNat 6 c.colour, sealed_ := false, lock := false, valid := true, read := true
                            write := true, exec_ := false, label := BitVec.ofNat 16 w }
      let s := s.replaceEntry i e
      let s := s.modWindow w fun x => { x with
        mapped := true, colour := BitVec.ofNat 6 c.colour, size := BitVec.ofNat 32 size, base := base, unmapping := false }
      .ok { s with store := { s.store with
        mem := s.store.mem.clear base size
        regions := s.store.regions ++ [{ base := base, size := size, colour := c.colour, dirty := false }] } }
    | _, _ => .ok s

/-- WINDOW_MAP (R350). -/
def execWindowMap (dt ring : Nat) (s : State) : Out := .next ((s.elapse dt).runFolio ring 0x0010 bodyWindowMap)

/-- A layer's settings name a window: those of graphic layers do, on a head or IDLE (R206, R213). -/
def layerUses (code : Nat) (cfg : LayerCfg) (w : Nat) : Bool := !isVideo code && decide (cfg.window = w)

/-- A layer, queued flip group, launch entry, encode session or log region refers to the window (R351). Coefficient loads read
theirs at once. -/
def State.windowInUse (s : State) (w : Nat) : Bool :=
  ((List.range 128).any fun i => (decide ((s.layer i).st = .idle) || decide ((s.layer i).st = .active)) && layerUses i (s.layer i).cfg w)
    || s.comp.pend.any (fun p => match p.change with | .layer code cfg _ => layerUses code cfg w | _ => false)
    || s.comp.head.any (fun h => h.on_.any fun x => layerUses x.index x.cfg w)
    || s.host.cmdq.any (fun q => q.groups.any fun g => !g.committed && g.fences.any fun f => decide (f.window = w))
    || s.net.ports.any (fun p => p.queues.any fun l => l.any fun e => decide (e.window = w))
    || s.enc.session.any (fun e => decide (e.st ≠ .closed) && (decide (e.cfg.outWin = w)
        || (decide (e.cfg.auxWin = w) && (decide (e.cfg.statsBlocks ≠ 0) || decide (e.cfg.sideBlocks ≠ 0)))))
    || s.comp.head.any (fun h => decide (h.log.st ≠ .off) && decide (h.log.window = w))

/-- The access-table entry that covers a window's region. -/
def State.windowEntry (s : State) (w : Nat) : Option Nat :=
  (s.sec.act.find? fun e => e.2.valid && decide (e.2.label.toNat = w) && decide (e.2.base.toNat = (s.window w).base / 4096)
    && decide (e.2.colour = (s.window w).colour)).map (·.1)

/-- WINDOW_UNMAP (R351): the window stops serving at once, its entry is removed, and the folio waits for the wipe. -/
def bodyWindowUnmap (c : FCtx) (s : State) : FRes :=
  let w := c.u 0x10 1
  .checks [(decide (w < 8), .param), ((s.window w).mapped && !(s.window w).unmapping, .state),
      (decide ((s.window w).colour.toNat = c.colour), .colour), (!s.windowInUse w, .busy)] s <|
    let s := match s.windowEntry w with
      | some i => s.replaceEntry i { s.actAt i with valid := false }
      | none => s
    .wait (.wipe w) (s.modWindow w fun x => { x with unmapping := true })

/-- WINDOW_UNMAP (R351). -/
def execWindowUnmap (dt ring : Nat) (s : State) : Out := .next ((s.elapse dt).runFolio ring 0x0011 bodyWindowUnmap)

/-- A removal that takes pages of a span has not drained (R434). -/
def State.removalOpen (s : State) (base size : Nat) : Bool :=
  s.sec.removals.any fun r => !(decide (r.last < base / 4096) || decide ((base + size - 1) / 4096 < r.first))

/-- REGION_WIPE_DONE: the pages become clean, the region returns to the quota, and the WINDOW_UNMAP completes (R351, R401). -/
def execRegionWipeDone (dt ring : Nat) (s : State) : Out :=
  let s := s.elapse dt
  match (s.cmdQ ring).begun with
  | some b =>
    match b.wait with
    | .wipe w =>
      let x := s.window w
      if s.removalOpen x.base x.size.toNat then .next s
      else
        let t := s.wipeSpan x.base x.size.toNat
        let t := { t with store := { t.store with regions := t.store.regions.filter fun a => a.base ≠ x.base } }
        .next ((t.modWindow w fun _ => Window.reset).finish ring .ok 0 id)
    | _ => .next s
  | none => .next s

/-! ### Stream rings (R347, R141) -/

/-- An entry of a stream ring as R347 lays it out. -/
structure StmEntry where
  addr  : Nat
  len   : Nat
  flags : Nat
  tag   : Nat
  good  : Bool
  deriving DecidableEq, Repr, Inhabited

/-- The entry that 32 bytes spell, good when LENGTH is in range and every reserved field is zero. -/
def stmEntryOf (bs : List Byte) : StmEntry :=
  let u (o n : Nat) := leNat (((padTo 32 bs).drop o).take n)
  { addr := u 0 8, len := u 8 4, flags := u 12 2, tag := u 14 2
    good := decide (1 ≤ u 8 4) && decide (u 8 4 ≤ 4194304) && decide (u 12 2 < 4) && decide (u 16 16 = 0) }

/-- A bucket's unit: one byte is 8,000,000, so that MAX_RATE kbit/s fills MAX_RATE units a nanosecond (R124, R141). -/
def tokenUnit : Nat := 8000000

/-- What HOST may fetch now for a context: a bucket of depth BURST filled at MAX_RATE (R141); nothing while the fetch of a
longer entry still runs at that rate. -/
def StmQ.credit (q : StmQ) (now maxRate burst : Nat) : Nat :=
  if now < q.at_ then 0 else min (burst * tokenUnit) (q.tokens + (now - q.at_) * maxRate)

/-- The queue after `len` bytes are fetched: an entry longer than the bucket takes the rest of its time at MAX_RATE. -/
def StmQ.spend (q : StmQ) (now maxRate burst len : Nat) : StmQ :=
  let t := q.credit now maxRate burst
  if len * tokenUnit ≤ t then { q with tokens := t - len * tokenUnit, at_ := now }
  else { q with tokens := 0, at_ := now + ceilDiv (len * tokenUnit - t) (max 1 maxRate) }

/-- The next entry of a stream ring has been passed: outstanding entries that fall to LOWATER interrupt (R348). -/
def State.passEntry (s : State) (k : Nat) : State :=
  let s := s.modRing (64 + k) fun r => { r with deviceIndex := r.deviceIndex + 1 }
  if (s.ring (64 + k)).used = (s.ring (64 + k)).lowater.toNat then s.raise (32 + k) else s

/-! ### Moderation and ticks (R348, R154) -/

/-- A record of an event ring has been written: its source is raised when MOD_COUNT records have gone since the last raise,
or at once for a completion that asks for it (R348). -/
def State.moderate (s : State) (n : Nat) (urgent : Bool) : State :=
  let q := s.evtQ n
  let count := q.count + 1
  if max 1 (s.ring (32 + n)).modCount.toNat ≤ count ∨ urgent then
    (s.modEvtQ n fun q => { q with count := 0, firstAt := none }).raise n
  else s.modEvtQ n fun q => { q with count := count, firstAt := some (q.firstAt.getD s.tb.now) }

/-- MODERATION_TIMEOUT (R348): MOD_TIME µs have passed since the first record after the last raise. -/
def execModerationTimeout (dt n : Nat) (s : State) : Out :=
  let s := s.elapse dt
  match (s.evtQ n).firstAt with
  | some t =>
    let m := (s.ring (32 + n)).modTime.toNat
    if m ≠ 0 ∧ t + m * 1000 ≤ s.tb.now then .next ((s.modEvtQ n fun q => { q with count := 0, firstAt := none }).raise n) else .next s
  | none => .next s

/-- EV_TICK (R154): an EXTEND ring that has carried no tick for 1.0 s. -/
def execEvTick (dt n : Nat) (s : State) : Out :=
  let s := s.elapse dt
  let q := s.evtQ n
  let due : Bool := match q.lastTick with | none => true | some t => decide (t + 1000000000 ≤ s.tb.dev) || decide (s.tb.dev + 1000000000 ≤ t)
  if n < 32 ∧ q.extend ∧ due ∧ s.role ≠ 2 then .next (s.tick n) else .next s

end Sys2Proof.Machine
end

