-- ==== Sys2Proof/Machine/Channels.lean ====
section
/-!
DEFINITION. The network command channels, and the records that leave the holding queues (09_folios_rings.md R341, R342,
R352–R354; 10_ordering_recovery.md R364, R369).
-/

namespace Sys2Proof.Machine

/-- The CMD ring that the ring map binds to a channel (R326). -/
def State.chanRing (s : State) (ch : Nat) : Option Nat :=
  (List.range 32).find? fun r => (s.mapOf r).valid && (s.mapOf r).network && decide ((s.mapOf r).channel.toNat = ch)

/-- Bytes times ten that a port sends a nanosecond are 12.5 at 10GBASE-R and 31.25 at 25GBASE-R: the ns that a frame takes with its
FCS, preamble and gap. -/
def frameNs (mode len : Nat) : Nat := if mode = 1 then (len + 24) * 8 / 10 else (len + 24) * 8 / 25

/-- When a frame other than a launch may start on a port: not while a launched frame occupies it, and not within the length of a MAXFRAME frame
before a launch (R159). -/
def NetPort.startAt (p : NetPort) (dev : Nat) : Nat :=
  let due := p.queues.flatten.foldl (fun (l : List LaunchEntry) e => l.takeWhile (fun q => decide (q.due ≤ e.due)) ++ [e] ++ l.dropWhile fun q => decide (q.due ≤ e.due)) []
  due.foldl (fun t e => if t ≤ e.due ∧ e.due < t + frameNs p.mode (p.maxFrame - 4) then e.due + frameNs p.mode e.length else t) (max dev p.busyUntil)

/-- Something a port sends: a launched frame as it stands, the port's own traffic at the next time free for it and tagged as NET_PORT says (R115,
R159). -/
def State.sendNet (s : State) (x : NetTx) : State :=
  let p := s.port x.port
  let y := if x.kind = .launch then x
    else { x with at_ := p.startAt s.tb.dev, tag := if p.vlan.getLsbD 15 then some (p.vlan.toNat % 4096) else none }
  { s with net := { s.net with sent := y :: s.net.sent } }

/-- The SEQUENCE of the first folio a network pair lacks: those taken wait in ring order. -/
def State.chanNext (s : State) (r : Nat) : BitVec 32 := (s.ring r).seq + BitVec.ofNat 32 (s.cmdQ r).fetched.length

/-- The highest device-to-peer COUNTER at which a session is still used (R353). -/
def chanCtrEnd : Nat := 2 ^ 32 - 65536

/-- A datagram of a live session as it goes out (R353): header, ciphertext and tag. -/
def Session.datagram (x : Session) (type ch : Nat) (plain : List Byte) : List Byte :=
  let head := leBytes 1 type ++ leBytes 1 ch ++ leBytes 2 0 ++ leBytes 4 x.id.toNat ++ leBytes 8 x.txCtr
  head ++ Config.gcm (x.keyDP.take 32) ((x.keyDP.drop 32).take 4 ++ leBytes 8 x.txCtr) head plain

/-- A datagram goes out on a channel's session. No COUNTER of 2^32 or more is ever sent. -/
def State.chanSend (s : State) (ch type : Nat) (plain : List Byte) : State :=
  match (s.chan ch).session with
  | none => s
  | some x =>
    if 2 ^ 32 ≤ x.txCtr then s
    else
      (s.sendNet { NetTx.reset with
                   kind := if type = 4 then .chanClose else .chanData, port := x.port
                   info := [ch, x.id.toNat, x.txCtr, x.peerIp.toNat, x.peerUdp], bytes := x.datagram type ch plain }).modChan ch
        fun c => { c with session := some { x with txCtr := x.txCtr + 1, lastTx := s.tb.now } }

/-- The plaintext of a DATA datagram from the device: ACK, COUNT and records. -/
def chanPlain (ack : BitVec 32) (recs : List ChanRec) : List Byte :=
  leBytes 4 ack.toNat ++ leBytes 2 recs.length ++ leBytes 2 0 ++ recs.flatMap (·.bytes)

/-- Records that fit one datagram: at most 64, within the port's MAXFRAME with its headers (R353). -/
def State.chanFit (s : State) (ch : Nat) : Nat :=
  match (s.chan ch).session with
  | some x => max 1 (min 64 (((s.port x.port).maxFrame - 90) / 32))
  | none => 64

/-- Records of a channel that are due are sent, in ESEQ order, in as many datagrams as they take (`n` bounds them). -/
def State.chanFlush (s : State) (ch : Nat) (due : ChanRec → Bool) : Nat → State
  | 0 => s
  | n + 1 =>
    match (s.chan ch).session, s.chanRing ch with
    | some _, some r =>
      let batch := ((s.chan ch).unacked.filter due).take (s.chanFit ch)
      if batch.isEmpty then s
      else
        let sent := batch.map (·.eseq)
        let t := s.chanSend ch 3 (chanPlain (s.chanNext r) batch)
        let t := t.modChan ch fun c => { c with
          unacked := c.unacked.map fun u => if sent.contains u.eseq then { u with sentAt := some s.tb.now } else u }
        t.chanFlush ch (fun u => due u && !sent.contains u.eseq) n
    | _, _ => s

/-- Records not yet sent go out. -/
def State.chanPush (s : State) (ch : Nat) : State := s.chanFlush ch (fun u => u.sentAt.isNone) 4096

/-- A channel accepts a datagram from a port and an address (R352). -/
def Channel.accepts (c : Channel) (port : Nat) (srcIp : BitVec 32) : Bool :=
  c.ports.getLsbD port && (decide (c.peerFilter = 0) || decide (c.peerFilter = srcIp))

/-- The channels serve their peers: firmware runs, and the part is not a standby (R363). -/
def State.chanUp (s : State) : Bool := s.top.ready && decide (s.role ≠ 2)

/-! ### Sessions (R352) -/

/-- ASCII wp1664-fc. -/
def fcLabel : List Byte := [0x77, 0x70, 0x31, 0x36, 0x36, 0x34, 0x2D, 0x66, 0x63]

/-- A record's bytes with its ESEQ replaced. -/
def reEseq (bs : List Byte) (e : BitVec 32) : List Byte := bs.take 4 ++ leBytes 4 e.toNat ++ bs.drop 8

/-- The records of a channel numbered anew from an ESEQ, none of them sent. -/
def renumber (bss : List (List Byte)) (e : BitVec 32) : List ChanRec :=
  (bss.zipIdx).map fun x => { eseq := e + BitVec.ofNat 32 x.2, bytes := reEseq x.1 (e + BitVec.ofNat 32 x.2), sentAt := none }

/-- A network pair continues on the new active part when its peer opens a session (R369): EV_RESYNC at the ESEQ of the first
record the peer had not acknowledged, those records again, and the completion of the folio that had been begun. -/
def State.chanResync (s : State) (ch r : Nat) : State :=
  if !(s.cmdQ r).awaitResync then s
  else
    let c := s.chan ch
    let q := s.cmdQ r
    let m := s.top.gatherId.toNat
    let base := match c.unacked with | u :: _ => u.eseq | [] => c.nextEseq
    let disc := match q.begun with | some b => if b.resyncStatus = .resync then 1 else 0 | none => 0
    let ev := Held.of 0x8000 0 s.tb.dev r m (resyncBody 0 r (s.ring r).seq q.lastDone disc)
    let last := match q.begun with
      | some b => [(Held.of 0 b.folio.tag s.tb.dev r m (compBody b.resyncStatus b.folio.opcode b.cmdSeq 0)).bytes 0]
      | none => []
    let all := ev.bytes 0 :: c.unacked.map (·.bytes) ++ last
    let s := s.modChan ch fun c => { c with unacked := renumber all base, nextEseq := base + BitVec.ofNat 32 all.length }
    (s.modCmdQ r fun x => { x with
      begun := none, awaitResync := false, lastDone := match q.begun with | some b => b.cmdSeq | none => x.lastDone }).change 0b010000

/-- HELLO: a verified HELLO opens a session, in place of a live one; the device answers at most 10 a second per channel and
drops one whose signature fails, or that finds no fresh randomness (R352, R406). -/
def execHello (dt ch : Nat) (hello : HelloIn) (s : State) : Out :=
  let s := s.elapse dt
  let c := s.chan ch
  let recent := c.helloTimes.filter fun t => decide (s.tb.now < t + 1000000000)
  let form := decide (hello.bytes.length = 229) && decide (leNat (hello.bytes.take 4) = 1 + 256 * ch)
  match s.chanRing ch with
  | none => .next s
  | some r =>
    if !s.chanUp || !c.accepts hello.port hello.srcIp || !form || !hello.sigOk || s.sec.entropyBad || decide (10 ≤ recent.length) then .next s
    else
      let s := s.chanResync ch r
      let (nonceD, s) := s.draw 32
      let (priv, s) := s.draw 48
      let nonceP := (hello.bytes.drop 0x04).take 32
      let id := s.host.nextSession
      let keys := Config.hkdf (Config.ecdh priv ((hello.bytes.drop 0x24).take 97)) (nonceP ++ nonceD)
        (fcLabel ++ leBytes 1 ch ++ leBytes 4 id.toNat) 72
      let c := s.chan ch
      let nextEseq := match c.unacked with | u :: _ => u.eseq | [] => c.nextEseq
      let body := leBytes 1 2 ++ leBytes 1 ch ++ leBytes 2 0 ++ leBytes 4 id.toNat ++ leBytes 4 (s.chanNext r).toNat ++ leBytes 4 nextEseq.toNat
        ++ nonceD ++ padTo 97 (Config.ecdhPub priv) ++ padTo 48 (Config.sha384 (s.reportHead nonceP 0))
      let accept := body ++ padTo 96 (Config.signE s.sec.fuses.salt1 (Config.sha384 (hello.bytes ++ body)))
      let sess : Session :=
        { id := id, keyPD := keys.take 32 ++ (keys.drop 64).take 4, keyDP := (keys.drop 32).take 32 ++ (keys.drop 68).take 4
          rxHigh := none, rxSeen := [], txCtr := 0, opened := s.tb.now, lastRx := s.tb.now, lastTx := s.tb.now
          port := hello.port, peerIp := hello.srcIp, peerUdp := hello.srcUdp }
      let s := { s with host := { s.host with nextSession := id + 1 } }
      let s := s.modChan ch fun c => { c with
        session := some sess, helloTimes := s.tb.now :: recent, unacked := c.unacked.map fun u => { u with sentAt := none } }
      let s := s.sendNet { NetTx.reset with kind := .accept, port := hello.port, info := [ch, id.toNat, hello.srcIp.toNat, hello.srcUdp], bytes := accept }
      .next (s.chanPush ch)

/-! ### DATA and CLOSE (R353, R354) -/

/-- The device drops a datagram of the peer: authentication, COUNTER, and the session's age (R353). -/
def Session.refuses (x : Session) (now counter : Nat) (authOk : Bool) : Bool :=
  !authOk || (match x.rxHigh with | some h => decide (counter + 64 ≤ h) | none => false) || x.rxSeen.contains counter
    || decide (2 ^ 32 ≤ counter) || decide (x.opened + 24 * 3600 * 1000000000 ≤ now)

/-- A COUNTER is taken. -/
def Session.take (x : Session) (counter : Nat) : Session :=
  let high := max counter (x.rxHigh.getD counter)
  { x with rxHigh := some high, rxSeen := (counter :: x.rxSeen).filter fun n => decide (high < n + 64) }

/-- The folios that a plaintext holds. -/
def chanFolios (plain : List Byte) : List (List Byte) :=
  (List.range (leNat ((plain.drop 4).take 2))).map fun i => (plain.drop (8 + 256 * i)).take 256

/-- A plaintext is well formed: COUNT folios and nothing more, at most 32. -/
def chanPlainOk (plain : List Byte) : Bool :=
  let n := leNat ((plain.drop 4).take 2)
  decide (n ≤ 32) && decide (plain.length = 8 + 256 * n)

/-- The SEQUENCE of a folio's bytes. -/
def rawSeq (raw : List Byte) : Nat := leNat ((raw.drop 4).take 4)

/-- A network folio is taken in SEQUENCE order, and those held after it follow (`n` bounds them). -/
def State.chanTake (s : State) (ch r : Nat) : Nat → State
  | 0 => s
  | n + 1 =>
    match (s.chan ch).held.find? fun h => h.1 = (s.chanNext r).toNat with
    | none => s
    | some h =>
      let s := s.modChan ch fun c => { c with held := c.held.filter fun x => x.1 ≠ h.1 }
      let f : Fetched := { folio := { raw := padTo 256 h.2 }, damaged := false, order := s.host.fetchNo }
      let s := { s with host := { s.host with fetchNo := s.host.fetchNo + 1 } }
      (s.modCmdQ r fun q => { q with fetched := q.fetched ++ [f] }).chanTake ch r n

/-- A folio of the peer: the next in order is taken, one at most 64 ahead is held, one further ahead or already taken is
dropped (R354). -/
def State.chanFolio (s : State) (ch r : Nat) (raw : List Byte) : State :=
  let seq := rawSeq raw
  let ahead := (BitVec.ofNat 32 seq - s.chanNext r).toNat
  if 64 < ahead ∨ (s.chan ch).held.any (fun h => h.1 = seq) then s
  else (s.modChan ch fun c => { c with held := c.held ++ [(seq, raw)] }).chanTake ch r 65

/-- Records before the peer's ACK leave (R354). -/
def Channel.acknowledge (c : Channel) (ack : BitVec 32) : Channel :=
  { c with unacked := c.unacked.filter fun u => decide ((u.eseq - ack).toNat < 2 ^ 31) }

/-- DATA (R353, R354). The device answers a datagram that carries folios with one of its own (DESIGN CHOICE, log entry 11). -/
def execData (dt ch : Nat) (dgram : DataIn) (s : State) : Out :=
  let s := s.elapse dt
  let c := s.chan ch
  match s.chanRing ch, c.session with
  | some r, some x =>
    if !s.chanUp || !c.accepts dgram.port dgram.srcIp then .next s
    else if decide (dgram.session ≠ x.id) || x.refuses s.tb.now dgram.counter dgram.authOk || !chanPlainOk dgram.plain then
      .next (s.modChan ch fun c => { c with dropped := c.dropped + 1 })
    else
      let y := { x.take dgram.counter with lastRx := s.tb.now, port := dgram.port, peerIp := dgram.srcIp, peerUdp := dgram.srcUdp }
      let s := s.modChan ch fun c => { c.acknowledge (BitVec.ofNat 32 (leNat (dgram.plain.take 4))) with session := some y }
      let folios := chanFolios dgram.plain
      let s := folios.foldl (fun t f => t.chanFolio ch r f) s
      .next (if folios.isEmpty then s.chanPush ch
        else if (s.chan ch).unacked.any fun u => u.sentAt.isNone then s.chanPush ch else s.chanSend ch 3 (chanPlain (s.chanNext r) []))
  | _, _ => .next (s.modChan ch fun c => { c with dropped := c.dropped + 1 })

/-- CLOSE from the peer ends the session (R353). -/
def execClose (dt ch counter : Nat) (authOk : Bool) (s : State) : Out :=
  let s := s.elapse dt
  match (s.chan ch).session with
  | some x =>
    if x.refuses s.tb.now counter authOk then .next (s.modChan ch fun c => { c with dropped := c.dropped + 1 })
    else .next (s.modChan ch fun c => { c with session := none })
  | none => .next s

/-- CHANNEL_RESEND: records not acknowledged 20 ms after they were sent go again; an idle channel sends an empty DATA every 1 s
(R354). -/
def execChannelResend (dt ch : Nat) (s : State) : Out :=
  let s := s.elapse dt
  let due (u : ChanRec) : Bool := match u.sentAt with | none => true | some t => decide (t + 20000000 ≤ s.tb.now)
  match (s.chan ch).session, s.chanRing ch with
  | some x, some r =>
    if (s.chan ch).unacked.any due then .next (s.chanFlush ch due 4096)
    else if x.lastTx + 1000000000 ≤ s.tb.now then .next (s.chanSend ch 3 (chanPlain (s.chanNext r) []))
    else .next s
  | _, _ => .next s

/-- CHANNEL_SESSION_TIMEOUT: 10 s without an authenticated datagram (R354). -/
def execChannelSessionTimeout (dt ch : Nat) (s : State) : Out :=
  let s := s.elapse dt
  match (s.chan ch).session with
  | some x => if x.lastRx + 10000000000 ≤ s.tb.now then .next (s.modChan ch fun c => { c with session := none }) else .next s
  | none => .next s

/-- CHANNEL_SESSION_AGE: at 23 h of age or near the end of its COUNTER the device sends CLOSE and ends the session (R353). -/
def execChannelSessionAge (dt ch : Nat) (s : State) : Out :=
  let s := s.elapse dt
  match (s.chan ch).session, s.chanRing ch with
  | some x, some r =>
    if x.opened + 23 * 3600 * 1000000000 ≤ s.tb.now ∨ chanCtrEnd ≤ x.txCtr then
      .next ((s.chanSend ch 4 (chanPlain (s.chanNext r) [])).modChan ch fun c => { c with session := none })
    else .next s
  | _, _ => .next s

/-! ### Records leave the holding queue (R341, R342, R331, R354, R364) -/

/-- The next record of an event ring: after a takeover those that go out again come first (R367). -/
def EvtQ.front (q : EvtQ) : Option (Held × EvtQ) :=
  match q.acked, q.hold with
  | h :: rest, _ => some (h, { q with acked := rest })
  | [], h :: rest => some (h, { q with hold := rest })
  | [], [] => none

/-- EVENT_RECORD_WRITE: the record at the head of a holding queue is written at the producer index, where there is room and a
standby in sync has acknowledged it. A DMA error halts the ring and keeps the record. The record of a network pair goes to
its channel. -/
def execEventRecordWrite (dt n : Nat) (dmaOk : Bool) (s : State) : Out :=
  let s := s.elapse dt
  let r := s.ring (32 + n)
  match (s.evtQ n).front with
  | none => .next s
  | some (h, q) =>
    if decide (32 ≤ n) || decide (s.role = 2) || (s.cmdQ n).awaitResync || (s.mirroring && decide (h.acks ≠ 0)) then .next s
    else if s.ringNet n then
      let ch := (s.mapOf n).channel.toNat
      let c := s.chan ch
      if 4096 ≤ c.unacked.length then .next s
      else
        let s := s.modEvtQ n fun _ => q
        .next ((s.modChan ch fun c => { c with
          unacked := c.unacked ++ [{ eseq := c.nextEseq, bytes := h.bytes c.nextEseq, sentAt := none }]
          nextEseq := c.nextEseq + 1 }).chanPush ch)
    else if !s.hostUp || decide (r.state ≠ .running) || decide (2 ^ r.log2.toNat ≤ (r.deviceIndex - r.hostIndex).toNat) then .next s
    else if !dmaOk then .next (s.haltRing (32 + n) true)
    else
      let a := r.base.toNat + r.deviceIndex.toNat % 2 ^ r.log2.toNat * 32
      let s := s.modEvtQ n fun _ => q
      let s := { s with host := { s.host with bus := { s.host.bus with
        hostMem := s.host.bus.hostMem.writeN a (h.bytes r.deviceIndex) } } }
      .next ((s.modRing (32 + n) fun r => { r with deviceIndex := r.deviceIndex + 1 }).moderate n h.irq)

end Sys2Proof.Machine
end

