-- ==== Sys2Proof/Machine/LaneUse.lean ====
section
/-!
DEFINITION. The states that the users of the serial lanes give them (16_lanes.md R545, R546, R550, R553–R555).
-/

namespace Sys2Proof.Machine

/-- Settings held before a refresh that is cut off come back (R553). -/
def Lane.restore (x : Lane) : Lane :=
  match x.saved with
  | some p => { x with ctle := p.1, vga := p.2, saved := none }
  | none => x

/-- A transmitter takes a state; a lane under test keeps its test (R554, R560). -/
def Lane.setTx (x : Lane) (t : TxSt) : Lane := if x.test.isSome then x else { x with tx := t, lost := x.lost && decide (t ≠ .active) }

/-- A receiver takes a state: from OFF it adapts anew from code 8; entering SLEEP or OFF cuts off a refresh (R550, R553, R554). -/
def Lane.setRx (x : Lane) (t : RxSt) : Lane :=
  if x.test.isSome then x
  else match t with
    | .active =>
      let ctle : BitVec 4 := if x.rx = .off then 8 else x.ctle
      { x with rx := .active, ctle := ctle, cdr := true, frozen := false, lost := false }
    | .sleep => { x.restore with rx := .sleep, frozen := false }
    | .off => { x.restore with rx := .off, frozen := false, cdr := false }
    | .test => x

/-- A quad's PLL runs, and is locked, while any of its lanes is not OFF in both directions (R546). -/
def Quad.settle (u : Quad) : Quad := { u with pllLock := u.lane.any fun x => !(decide (x.tx = .off) && decide (x.rx = .off)) }

/-- The quad a lane or quad fault names. -/
def FltInst.quad (f : FltInst) : Option Nat := if f.src = 5 ∨ f.src = 6 then some (f.unit / 4) else if f.src = 7 then some f.key else none

/-- A link of a quad is up again: the quiet window of its faults runs from now (R567). -/
def State.linkBack (s : State) (q : Nat) : State :=
  { s with flt := { s.flt with inst := s.flt.inst.map fun (f : FltInst) => if f.quad = some q then { f with sinceUp := some s.tb.now } else f } }

/-- A lane takes the states its user wants. -/
def State.setLane (s : State) (q l : Nat) (t : TxSt × RxSt) : State :=
  (s.modLane q l fun x => (x.setTx t.1).setRx t.2).modQuad q Quad.settle

/-- The states a DisplayPort port gives its lanes (R555). -/
def PortSt.lanes : PortSt → TxSt × RxSt
  | .off => (.off, .off)
  | .down | .muted => (.sleep, .off)
  | .training | .up => (.active, .off)

/-- The states the user of a lane wants (R555): a port, an Ethernet port, a spine link once firmware runs, or PCIe. -/
def State.laneUser (s : State) (q l : Nat) : TxSt × RxSt :=
  if q < 8 then (s.dpPort q).st.lanes
  else if q = 8 then (if (s.port l).mode = 0 then (.off, .off) else (.active, .active))
  else if q < 12 then (if s.pwr.booted then (.active, .active) else (.off, .off))
  else ((s.lane q l).tx, (s.lane q l).rx)

/-- Every lane of a quad takes the states its user wants. -/
def State.quadUser (s : State) (q : Nat) : State := (List.range 4).foldl (fun t l => t.setLane q l (t.laneUser q l)) s

end Sys2Proof.Machine
end

