-- ==== Sys2Proof/Machine/Net.lean ====
section
/-!
DEFINITION. Ethernet ports, network time and time-triggered launch (03_ingest_time.md).
-/

namespace Sys2Proof.Machine

/-- The folio comes from the admin colour (R116, R425). -/
def isAdmin (c : FCtx) (s : State) : Bool := decide (c.colour = s.admin)

/-- This part sends traffic of its own on its ports: not in replay mode, and not as a standby (R472, R595). -/
def State.sendsNet (s : State) : Bool := !s.top.replay && decide (s.role ≠ 2)

/-- The IPv4 address a port uses: on a standby, its standby address (R472, R473, R479). -/
def State.portIp (s : State) (p : NetPort) : BitVec 32 := if s.role = 2 then p.standbyAddr else p.address

/-! ### Network time (R142–R151) -/

/-- No other member of a gathering is reachable: a gathering of one (R455, R463). -/
def State.alone (s : State) : Bool := s.gath.mem.zipIdx.all fun x => decide (x.2 = s.top.gatherId.toNat) || decide (x.1.st ≠ 1)

/-- The parts that run the PTP instance: those of a gathering of one and those of the lead member (R143). -/
def State.runsPtp (s : State) : Bool := s.alone || decide (s.top.gatherId = 0)

def State.ptp (s : State) (p : Nat) : PtpPort := s.tb.ptp.getD p PtpPort.reset
def State.modPtp (s : State) (p : Nat) (f : PtpPort → PtpPort) : State := { s with tb := { s.tb with ptp := s.tb.ptp.modify p f } }

/-- A signed number held at the limits of 32 bits. -/
def sat32 (i : Int) : Int := max (-(2 ^ 31)) (min i (2 ^ 31 - 1))

/-- The body of EV_TIME (R150). -/
def State.timeBody (s : State) (kind port portState : Nat) (step : Int) : List Byte :=
  leBytes 1 kind ++ leBytes 1 s.tb.lock.code ++ leBytes 1 port ++ leBytes 1 portState ++ leBytes 4 (wordOf 32 (sat32 s.tb.offset))
    ++ leBytes 8 (wordOf 64 step)

/-- EV_TIME is posted, where TIME_CONFIG has named a ring (R147). -/
def State.postTime (s : State) (kind : Nat) (step : Int) : State :=
  match s.tb.ring with
  | some n => s.post n 0x8110 0 (s.timeBody kind (s.tb.slavePort.getD 0xFF) 0 step)
  | none => s

/-- A port's PTP state changes, with EV_TIME of KIND 3. -/
def State.ptpState (s : State) (p st : Nat) : State :=
  if (s.ptp p).portState = st then s
  else
    let s := s.modPtp p fun x => { x with portState := st }
    match s.tb.ring with
    | some n => s.post n 0x8110 0 (s.timeBody 3 p st 0)
    | none => s

/-- The lock state changes (R148), with EV_TIME of KIND 0. Entering FREERUN erases any earlier LOCKED. -/
def State.setLock (s : State) (l : LockState) : State :=
  if s.tb.lock = l then s
  else
    ({ s with tb := { s.tb with
        lock := l, okSyncs := 0, badSyncs := 0
        wasLocked := if l = LockState.freerun then false else if l = LockState.locked then true else s.tb.wasLocked
        holdSince := if l = LockState.holdover then s.tb.now else s.tb.holdSince } }).postTime 0 0

/-- The slave port is lost (R148). -/
def State.loseSlave (s : State) : State :=
  let s := { s with tb := { s.tb with slavePort := none } }
  match s.tb.lock with
  | .acquiring => s.setLock (if s.tb.wasLocked then .holdover else .freerun)
  | .locked => s.setLock .holdover
  | .freerun | .holdover => s

/-- Launches that a step forwards passes go out at once with E_LATE (R159). -/
def NetPort.stepped (p : NetPort) (dev : Nat) : NetPort :=
  { p with queues := p.queues.map fun q => q.map fun e => if e.due < dev then { e with stepped := true } else e }

/-- Device time steps (R149), with EV_TIME of KIND 1. A locked servo goes back to acquiring (R148). -/
def State.stepTime (s : State) (step : Int) : State :=
  let dev := (s.tb.dev + step).toNat
  let s := { s with tb := { s.tb with dev := dev, steps := s.tb.steps + 1, lastStep := step, stepSum := s.tb.stepSum + step, okSyncs := 0, badSyncs := 0 } }
  let s := if 0 < step then { s with net := { s.net with ports := s.net.ports.map fun p => p.stepped dev } } else s
  let s := s.postTime 1 step
  if s.tb.lock = .locked then s.setLock .acquiring else s

/-- Whether the first data set comes before the second in the default data set comparison: the operand lists them best first. -/
def betterSet : List Nat → List Nat → Bool
  | a :: l, b :: m => if a = b then betterSet l m else decide (a < b)
  | [], _ :: _ => true
  | _, [] => false

/-- The nominal Announce interval of 2^log seconds, ns. -/
def announceNs (log : Int) : Nat := if 0 ≤ log then 1000000000 * 2 ^ log.toNat else 1000000000 / 2 ^ (-log).toNat

/-- A port is qualified: enabled, with an Announce within its receipt timeout (R142, R148). -/
def PtpPort.qualified (p : PtpPort) (now : Nat) : Bool :=
  p.enable && (match p.announceAt with | some t => decide (now < t + p.receiptTimeout * announceNs p.announceLog) | none => false)

/-- The port the best master clock algorithm picks. -/
def State.bestPort (s : State) : Option Nat :=
  (List.range 4).foldl (fun a p =>
    if (s.ptp p).qualified s.tb.now then
      (match a with | none => some p | some q => if betterSet (s.ptp p).dataset (s.ptp q).dataset then some p else a)
    else a) none

/-- Port states and the grandmaster after an Announce or its loss: the best port is the slave port, in UNCALIBRATED until its first
Sync; other qualified ports are PASSIVE, the rest LISTENING (PRESUMED, IEEE 1588, log entry 12). -/
def State.runBmca (s : State) : State :=
  let best := s.bestPort
  let s := (List.range 4).foldl (fun t p =>
    let x := t.ptp p
    if !x.enable then t
    else if best = some p then (if x.portState = 9 ∧ t.tb.slavePort = some p then t else t.ptpState p 8)
    else t.ptpState p (if x.qualified t.tb.now then 7 else 4)) s
  match best with
  | none => if s.tb.slavePort.isSome then s.loseSlave else s
  | some p =>
    let gm := (s.ptp p).gm
    let changed := decide (gm ≠ s.tb.gm)
    let s := { s with tb := { s.tb with slavePort := some p, gm := gm } }
    if changed then s.postTime 2 0 else s

/-- Device time counts the offset that a Sync measures as lock progress (R148). -/
def State.countSync (s : State) : State :=
  let off := s.tb.offset.natAbs
  match s.tb.lock with
  | .acquiring =>
    if off ≤ s.tb.lockLimit then
      let n := s.tb.okSyncs + 1
      if 16 ≤ n then s.setLock .locked else { s with tb := { s.tb with okSyncs := n } }
    else { s with tb := { s.tb with okSyncs := 0 } }
  | .locked =>
    if 4 * s.tb.lockLimit < off then
      let n := s.tb.badSyncs + 1
      if 4 ≤ n then s.setLock .acquiring else { s with tb := { s.tb with badSyncs := n } }
    else { s with tb := { s.tb with badSyncs := 0 } }
  | .freerun | .holdover => s

/-- An offset of device time from the master has been measured (R148, R149): the first move into ACQUIRING after reset steps, so
does an offset beyond STEP_LIMIT, and everything else slews within ±100 ppm. -/
def State.measured (s : State) (offset freqAdj : Int) : State :=
  let s := { s with tb := { s.tb with offset := offset, freqAdj := max (-100000) (min freqAdj 100000) } }
  let first := !s.tb.acquired
  let s := if s.tb.lock = .freerun ∨ s.tb.lock = .holdover then s.setLock .acquiring else s
  let s := { s with tb := { s.tb with acquired := true } }
  if first ∨ s.tb.stepLimit < offset.natAbs then s.stepTime (-offset) else s.countSync

/-- The device sends a PTP event message, stamped as it leaves: the stamp at the network's reference plane (R144, R145). -/
def State.sendPtp (s : State) (p : Nat) (kind : NetTxKind) (info : List Nat) : State :=
  let x := s.ptp p
  let t := ((s.port p).startAt s.tb.dev + x.egressExtra / 1000).toNat
  let s := s.sendNet { NetTx.reset with kind := kind, port := p, info := info ++ [t] }
  if kind = .pdelayResp then s else s.modPtp p fun y => { y with sentAt := some t }

/-- The receive stamp of a PTP event message at the network's reference plane: the port's stamp less INGRESS_EXTRA (R144, R145). -/
def State.ptpStamp (s : State) (p : Nat) : Int := (s.tb.dev : Int) - (s.ptp p).ingressExtra / 1000

/-- A path delay measured on a port, as IEEE 1588-2019 computes it (PRESUMED, log entry 12). -/
def State.setPath (s : State) (p : Nat) (d : Int) : State :=
  let s := s.modPtp p fun x => { x with meanPath := d.toNat, sentAt := none }
  if s.tb.slavePort = some p then { s with tb := { s.tb with meanPath := d.toNat } } else s

/-- A port asks for its path delay: E2E with a Delay_Req to the master, P2P with a Pdelay_Req to its peer (R142). One goes out after each Sync
(DESIGN CHOICE, log entry 12). -/
def State.askPath (s : State) (p : Nat) : State := s.sendPtp p (if (s.ptp p).p2p then .pdelayReq else .delayReq) [s.tb.domain]

/-- The ports that the Announce receipt timeout has taken the master from are no longer qualified (R148). -/
def State.expireAnnounces (s : State) : State :=
  { s with tb := { s.tb with ptp := s.tb.ptp.map fun (x : PtpPort) => if x.announceAt.isSome && !x.qualified s.tb.now then { x with announceAt := none } else x } }

/-- PTP_MESSAGE: an Announce runs the best master clock algorithm; a Sync on the slave port corrects device time, by the origin time, the receive
stamp and a master-to-slave delay of meanPathDelay + ASYMMETRY; a Delay_Resp or Pdelay_Resp gives the path delay, with a slave-to-master delay of
meanPathDelay − ASYMMETRY; a Pdelay_Req is answered (R142–R149). -/
def execPtpMessage (dt port : Nat) (msg : PtpIn) (s : State) : Out :=
  let s := s.elapse dt
  let p := s.ptp port
  if !s.runsPtp || !p.enable || !(s.port port).link || decide ((s.port port).mode = 0) then .next s
  else match msg with
    | .announce domain gm dataset logInterval utc qualified =>
      if domain ≠ s.tb.domain ∨ !qualified then .next s
      else
        let s := s.modPtp port fun x => { x with gm := gm, dataset := dataset, announceAt := some s.tb.now, announceLog := logInterval }
        let s := s.runBmca
        .next (if s.tb.slavePort = some port then { s with tb := { s.tb with utcOffset := utc } } else s)
    | .sync domain gm origin freqAdj =>
      if domain ≠ s.tb.domain ∨ s.tb.slavePort ≠ some port ∨ gm ≠ s.tb.gm then .next s
      else
        let t21 := s.ptpStamp port - origin
        let s := s.ptpState port 9
        let s := (s.modPtp port fun x => { x with t21 := some t21 }).askPath port
        let s := { s with tb := { s.tb with meanPath := p.meanPath } }
        .next (s.measured (t21 - (p.meanPath + p.asymmetry / 1000)) freqAdj)
    | .delayResp domain received =>
      match p.t21, p.sentAt with
      | some t21, some t3 =>
        if domain ≠ s.tb.domain ∨ s.tb.slavePort ≠ some port ∨ p.p2p then .next s
        else
          let toSlave := t21 - p.asymmetry / 1000
          let toMaster := (received : Int) - t3 + p.asymmetry / 1000
          .next (s.setPath port ((toSlave + toMaster) / 2))
      | _, _ => .next s
    | .pdelayReq domain seq => .next (if domain = s.tb.domain ∧ p.p2p then s.sendPtp port .pdelayResp [s.tb.domain, seq, (s.ptpStamp port).toNat] else s)
    | .pdelayResp domain turnaround =>
      match p.sentAt with
      | some t1 => .next (if domain = s.tb.domain ∧ p.p2p then s.setPath port ((s.ptpStamp port - t1 - turnaround) / 2) else s)
      | none => .next s

/-- ANNOUNCE_TIMEOUT: the Announce receipt timeout expires on a port; where it is the slave port another qualified one takes its place, or the
slave port is lost (R148). -/
def execAnnounceTimeout (dt : Nat) (s : State) : Out :=
  let s := s.elapse dt
  if (s.tb.ptp.any fun (x : PtpPort) => x.announceAt.isSome && !x.qualified s.tb.now) then .next s.expireAnnounces.runBmca else .next s

/-- HOLDOVER_EXPIRY: HOLD_MAX elapses in HOLDOVER (R148). -/
def execHoldoverExpiry (dt : Nat) (s : State) : Out :=
  let s := s.elapse dt
  if s.tb.lock = .holdover ∧ s.tb.holdSince + s.tb.holdMax * 1000000000 ≤ s.tb.now then .next (s.setLock .freerun) else .next s

/-! ### The folios of network time -/

/-- A mask of wrap modes sets every event ring (R146, R154). -/
def State.setWraps (s : State) (wrap : Nat) : State :=
  { s with host := { s.host with evtq := s.host.evtq.zipIdx.map fun x =>
    { x.1 with extend := bitOf wrap x.2, lastTick := if bitOf wrap x.2 = x.1.extend then x.1.lastTick else none } } }

/-- TIME_CONFIG (R146, R147). -/
def bodyTimeConfig (c : FCtx) (s : State) : FRes :=
  let u := c.u
  .checks [(decide (u 0x10 1 < 128) && decide (u 0x11 1 < 32) && decide (u 0x12 2 = 0) && decide (1000 ≤ u 0x14 4) && decide (u 0x14 4 ≤ 1000000000)
        && decide (20 ≤ u 0x18 4) && decide (u 0x18 4 ≤ 10000) && decide (1 ≤ u 0x1C 4) && decide (u 0x1C 4 ≤ 86400), .param),
      (isAdmin c s && evOk c s (u 0x11 1), .colour)] s <|
    let changed := decide (u 0x10 1 ≠ s.tb.domain)
    let s := { s with tb := { s.tb with
      domain := u 0x10 1, ring := some (c.ev (u 0x11 1)), stepLimit := u 0x14 4, lockLimit := u 0x18 4, holdMax := u 0x1C 4 } }
    let s := s.setWraps (u 0x20 4)
    if changed then
      .done .ok 0 { s with tb := { s.tb with ptp := s.tb.ptp.map fun p => { p with announceAt := none } } } fun t =>
        ((List.range 4).foldl (fun t p => if (t.ptp p).enable then t.ptpState p 4 else t) t).loseSlave
    else .ok s

/-- TIME_CONFIG (R146). -/
def execTimeConfig (dt ring : Nat) (s : State) : Out := .next ((s.elapse dt).runFolio ring 0x0110 bodyTimeConfig)

/-- TIME_WRAP (R116). -/
def bodyTimeWrap (c : FCtx) (s : State) : FRes :=
  let n := c.u 0x10 1
  let m := c.u 0x11 1
  .checks [(decide (n < 32) && decide (m < 2), .param), (decide (s.ringColour n = c.colour), .colour)] s <|
    .ok (s.modEvtQ n fun q => { q with extend := decide (m = 1), lastTick := if q.extend = decide (m = 1) then q.lastTick else none })

/-- TIME_WRAP (R116). -/
def execTimeWrap (dt ring : Nat) (s : State) : Out := .next ((s.elapse dt).runFolio ring 0x0113 bodyTimeWrap)

/-- PTP_PORT (R145): a port enabled goes to LISTENING, one disabled to DISABLED. -/
def bodyPtpPort (c : FCtx) (s : State) : FRes :=
  let p := c.u 0x10 1
  let ctl := c.u 0x11 1
  let small (off : Nat) (lim : Nat) : Bool := decide ((c.i off 4).natAbs ≤ lim)
  .checks [(decide (p < 4) && decide (ctl < 8) && decide (c.u 0x12 2 = 0) && small 0x14 1000000 && small 0x18 1000000 && small 0x1C 10000000, .param),
      (isAdmin c s, .colour)] s <|
    let was := (s.ptp p).enable
    let on := bitOf ctl 0
    let s := s.modPtp p fun x => { x with
      enable := on, p2p := bitOf ctl 1, l2 := bitOf ctl 2, ingressExtra := c.i 0x14 4, egressExtra := c.i 0x18 4, asymmetry := c.i 0x1C 4
      announceAt := if on then x.announceAt else none, t21 := none, sentAt := none }
    .done .ok 0 s fun t =>
      if on ∧ !was then t.ptpState p 4
      else if !on ∧ was then
        let t := t.ptpState p 3
        if t.tb.slavePort = some p then t.runBmca else t
      else t

/-- PTP_PORT (R145). -/
def execPtpPort (dt ring : Nat) (s : State) : Out := .next ((s.elapse dt).runFolio ring 0x0111 bodyPtpPort)

/-- The block of TIME_STATE (R150). -/
def State.timeBlock (s : State) : List Byte :=
  layout 256 [(0x00, leBytes 1 s.tb.lock.code), (0x04, (List.range 4).flatMap fun p => leBytes 1 (s.ptp p).portState),
    (0x08, beBytes 8 s.tb.gm.toNat), (0x10, leBytes 4 (wordOf 32 (sat32 s.tb.offset))), (0x14, leBytes 4 s.tb.meanPath),
    (0x18, leBytes 4 (wordOf 32 s.tb.freqAdj)), (0x1C, leBytes 2 s.tb.utcOffset), (0x20, leBytes 4 s.tb.steps),
    (0x24, leBytes 4 (s.tb.holdNs / 1000000000))]

/-- TIME_STATE (R150): the parameters of R139 less CONTEXT. -/
def bodyTimeState (c : FCtx) (s : State) : FRes :=
  .checks (blockChecks c s (c.u 0x12 1) (c.u 0x14 4) 256) s (writeBlock s (c.u 0x12 1) (c.u 0x14 4) s.timeBlock)

/-- TIME_STATE (R150). -/
def execTimeState (dt ring : Nat) (s : State) : Out := .next ((s.elapse dt).runFolio ring 0x0112 bodyTimeState)

/-! ### Ethernet ports (R115–R120) -/

/-- EV_LINK (R343) on the ring paired with the CMD ring of the port's last NET_PORT (DESIGN CHOICE, log entry 13: the spec names no
ring). -/
def State.postLink (s : State) (p : Nat) : State :=
  let x := s.port p
  match x.ring with
  | some n => s.post n 0x8100 0 (leBytes 1 p ++ leBytes 1 (b2n x.link) ++ leBytes 1 x.mode)
  | none => s

/-- A port's link goes up or down. A port that loses its link loses its place as PTP slave. -/
def State.setLink (s : State) (p : Nat) (up : Bool) : State :=
  if (s.port p).link = up then s
  else
    let s := (s.modPort p fun x => { x with link := up }).postLink p
    let s := if up then (s.modLane 8 p fun x => { x with lost := false }).linkBack 8 else s
    if !(s.ptp p).enable then s
    else
      let s := s.modPtp p fun x => { x with announceAt := none }
      if up then s.ptpState p 4
      else if s.tb.slavePort = some p then s.runBmca else s.ptpState p 4

/-- NET_PORT (R115, R116): a change of MODE takes the link down. -/
def bodyNetPort (c : FCtx) (s : State) : FRes :=
  let u := c.u
  let p := u 0x10 1
  let v := u 0x1A 2
  .checks [(decide (p < 4) && decide (u 0x11 1 ≤ 4) && decide (1518 ≤ u 0x12 2) && decide (u 0x12 2 ≤ 9022) && decide (8 ≤ u 0x18 1)
        && decide (u 0x18 1 ≤ 30) && decide (u 0x19 1 = 0) && decide (v / 2 ^ 12 % 8 = 0), .param),
      (isAdmin c s, .colour)] s <|
    let mode := (s.port p).mode
    let s := s.modPort p fun x => { x with
      maxFrame := u 0x12 2, address := c.folio.ip 0x14, plen := u 0x18 1, vlan := BitVec.ofNat 16 v, gateway := c.folio.ip 0x1C
      ring := some (c.ev c.ring) }
    .done .ok 0 s fun t =>
      if u 0x11 1 = mode then t
      else
        let t := (t.setLink p false).modPort p fun x => { x with mode := u 0x11 1 }
        t.setLane 8 p (t.laneUser 8 p)

/-- NET_PORT (R115). -/
def execNetPort (dt ring : Nat) (s : State) : Out := .next ((s.elapse dt).runFolio ring 0x0100 bodyNetPort)

/-- LINK_CHANGE: a port's link goes up or down; a port that is off has none (R115, R120). -/
def execLinkChange (dt port : Nat) (up : Bool) (_rateCode : Nat) (s : State) : Out :=
  let s := s.elapse dt
  if 4 ≤ port ∨ (up ∧ (s.port port).mode = 0) then .next s else .next (s.setLink port up)

/-- ARP_REQUEST: firmware answers for the port's address (R119). -/
def execArpRequest (dt port : Nat) (sender target : BitVec 32) (senderMac : BitVec 48) (s : State) : Out :=
  let s := s.elapse dt
  let p := s.port port
  if p.link ∧ p.mode ≠ 0 ∧ s.portIp p = target ∧ s.top.ready ∧ !s.top.replay then
    .next (s.sendNet { NetTx.reset with kind := .arpReply, port := port, info := [target.toNat, p.mac.toNat, sender.toNat, senderMac.toNat] })
  else .next s

/-! ### The next hop of a port's own traffic (R119) -/

/-- The next hop to an address: the address itself on the port's subnet, else the GATEWAY, if there is one (R115). -/
def NetPort.hopTo (p : NetPort) (own dst : Nat) : Option Nat :=
  let m := 2 ^ (32 - p.plen)
  if dst / m = own / m then some dst else if p.gateway = 0 then none else some p.gateway.toNat

/-- A message of the port's own to a unicast address: it goes to its next hop; where that is not resolved yet, it waits while an ARP request asks
for it; with no way to the destination it is dropped (R119; DESIGN CHOICE, log entry 13). -/
def State.sendTo (s : State) (dst : Nat) (x : NetTx) : State :=
  let p := s.port x.port
  match p.hopTo (s.portIp p).toNat dst with
  | none => s
  | some hop => match p.arp.find? fun q => q.1 = hop with
    | some q => s.sendNet { x with hop := some q }
    | none =>
      (s.modPort x.port fun y => { y with waiting := y.waiting ++ [{ x with hop := some (hop, 0) }] }).sendNet
        { NetTx.reset with kind := .arpRequest, port := x.port, info := [hop, p.mac.toNat, (s.portIp p).toNat] }

/-- An ARP reply resolves a next hop: the messages that wait for it go out in order. -/
def State.arpLearnt (s : State) (port ip : Nat) (mac : BitVec 48) : State :=
  let go := (s.port port).waiting.filter fun x => decide (x.hop.map (·.1) = some ip)
  let s := s.modPort port fun p => { p with
    arp := (ip, mac) :: p.arp.filter fun q => q.1 ≠ ip, waiting := p.waiting.filter fun x => decide (x.hop.map (·.1) ≠ some ip) }
  go.foldl (fun (t : State) x => t.sendNet { x with hop := some (ip, mac) }) s

/-! ### Multicast membership (R134, R135) -/

/-- An IPv4 multicast group. -/
def isGroup (ip : BitVec 32) : Bool := decide (ip.extractLsb' 28 4 = 0b1110)

/-- The memberships of a port: groups of open network contexts with the sources of each (0 for any). -/
def State.memberships (s : State) (p : Nat) : List (BitVec 32 × List (BitVec 32)) :=
  (s.dec.ctx.filter fun x => x.opened && !x.cfg.hostFed && x.cfg.ports.getLsbD p && isGroup x.cfg.dstIp).foldl (fun l x =>
    if l.any (fun m => m.1 = x.cfg.dstIp) then
      l.map fun m => if m.1 = x.cfg.dstIp ∧ !m.2.contains x.cfg.srcIp then (m.1, m.2 ++ [x.cfg.srcIp]) else m
    else l ++ [(x.cfg.dstIp, [x.cfg.srcIp])]) []

/-- A port is in IGMPv2 compatibility mode: until the Older Version Querier Present Timeout of RFC 3376 section 8.12, with its default values, has
passed since the last IGMPv2 query (R134; PRESUMED, log entry 13). -/
def State.igmpOld (s : State) (p : Nat) : Bool := match (s.port p).igmpV2 with | some t => decide (s.tb.now < t + 260000000000) | none => false

/-- A membership report of one group on a port: version, group, EXCLUDE or INCLUDE, sources (R134). -/
def State.igmpReport (s : State) (p : Nat) (g : BitVec 32 × List (BitVec 32)) (leave : Bool) : State :=
  let version := if s.igmpOld p then 2 else 3
  let any := g.2.contains 0
  if !s.top.replay then
    s.sendNet { NetTx.reset with
      kind := .igmpReport, port := p, info := [version, g.1.toNat, b2n leave, b2n any] ++ (if any then [] else g.2.map (·.toNat)) }
  else s

/-- Unsolicited reports, with a robustness variable of 2. -/
def State.igmpUnsolicited (s : State) (p : Nat) (g : BitVec 32 × List (BitVec 32)) (leave : Bool) : State :=
  (s.igmpReport p g leave).igmpReport p g leave

/-- What answers a group-and-source-specific query: the sources asked for that the membership includes, all of them where it excludes none (RFC
3376 section 5.2). -/
def asked (g : BitVec 32 × List (BitVec 32)) (sources : List (BitVec 32)) : BitVec 32 × List (BitVec 32) :=
  (g.1, if g.2.contains 0 then sources else g.2.filter fun x => sources.contains x)

/-- IGMP_QUERY: a general, group-specific or group-and-source-specific query is answered; an IGMPv2 query puts the port into IGMPv2 compatibility,
and IGMPv1 queriers are not supported (R134). -/
def execIgmpQuery (dt port version : Nat) (group : GroupIn) (s : State) : Out :=
  let s := s.elapse dt
  if version < 2 ∨ !(s.port port).link ∨ !s.top.ready then .next s
  else
    let s := if version = 2 then s.modPort port fun p => { p with igmpV2 := some s.tb.now } else s
    .next ((s.memberships port).foldl (fun t g =>
      if group.addr = 0 then t.igmpReport port g false
      else if g.1 ≠ group.addr then t
      else if group.sources.isEmpty then t.igmpReport port g false
      else if (asked g group.sources).2.isEmpty then t
      else t.igmpReport port (asked g group.sources) false) s)

/-! ### Time-triggered launch (R157–R160) -/

/-- The entries of one launch queue. -/
def State.queue (s : State) (p q : Nat) : List LaunchEntry := (s.port p).queues.getD q []
def State.modQueue (s : State) (p q : Nat) (f : List LaunchEntry → List LaunchEntry) : State :=
  s.modPort p fun x => { x with queues := x.queues.modify q f }

/-- LAUNCH (R157). The first launch of an entry has launch index 0: the spec does not say where the index starts (DESIGN CHOICE, log entry 71). -/
def bodyLaunch (c : FCtx) (s : State) : FRes :=
  let u := c.u
  let p := u 0x10 1
  let q := u 0x11 1
  let per := bitOf (u 0x12 1) 0
  let d := shortDiff (u 0x1C 4) s.tb.dev
  let port := s.port p
  .checks [(decide (p < 4) && decide (q < 8) && decide (u 0x12 1 < 2) && decide (u 0x13 1 < 8) && decide (u 0x14 4 % 256 = 0) && decide (60 ≤ u 0x18 2)
        && decide (u 0x18 2 + 4 ≤ max port.maxFrame 64) && decide (u 0x1A 2 = 0)
        && (!per || (decide (100000 ≤ u 0x20 4) && decide (u 0x20 4 ≤ 1000000000))) && decide (d ≤ 2000000000), .param),
      (s.winOk (u 0x13 1) c.colour && s.winSpan (u 0x13 1) (u 0x14 4) (u 0x18 2) false, .colour), (decide (port.mode ≠ 0), .state),
      (decide ((s.queue p q).length < 64), .nospace), (decide (50000 ≤ d), .late)] s <|
    let order := ((s.queue p q).map (·.order + 1)).foldl max 0
    let e : LaunchEntry :=
      { tag := BitVec.ofNat 16 c.tag, cmdRing := c.ev c.ring, colour := c.colour, periodic := per, window := u 0x13 1, offset := u 0x14 4
        length := u 0x18 2, due := (s.tb.dev + d).toNat, period := u 0x20 4, count := if per then u 0x24 4 else 1, index := 0
        frame := none, stepped := false, bad := false, order := order }
    .ok (s.modQueue p q fun l => l ++ [e])

/-- LAUNCH (R157). -/
def execLaunch (dt ring : Nat) (s : State) : Out := .next ((s.elapse dt).runFolio ring 0x0120 bodyLaunch)

/-- LAUNCH_CANCEL (R157): the launches of the colour's entry with the tag that have not begun are removed. An entry of another colour is
not the folio's to cancel. -/
def bodyLaunchCancel (c : FCtx) (s : State) : FRes :=
  let p := c.u 0x10 1
  let q := c.u 0x11 1
  let hit (e : LaunchEntry) : Bool := decide (e.tag.toNat = c.u 0x12 2)
  .checks [(decide (p < 4) && decide (q < 8), .param),
      (!((s.queue p q).any hit) || (s.queue p q).any (fun e => hit e && decide (e.colour = c.colour)), .colour)] s <|
    .ok (s.modQueue p q fun l => l.filter fun e => !(hit e && decide (e.colour = c.colour)))

/-- LAUNCH_CANCEL (R157). -/
def execLaunchCancel (dt ring : Nat) (s : State) : Out := .next ((s.elapse dt).runFolio ring 0x0121 bodyLaunchCancel)

/-- The entry of a queue that launches next: the earliest, and of equals the one queued first. -/
def nextLaunch (l : List LaunchEntry) : Option LaunchEntry :=
  l.foldl (fun a e => match a with | none => some e | some b => if e.due < b.due then some e else a) none

/-- The next entry of a queue is replaced. -/
def State.setLaunch (s : State) (p q order : Nat) (f : LaunchEntry → LaunchEntry) : State :=
  s.modQueue p q fun l => l.map fun e => if e.order = order then f e else e

/-- The body of EV_LAUNCH (R160). -/
def launchBody (p q : Nat) (st : Status) (index at_ : Nat) : List Byte :=
  leBytes 1 p ++ leBytes 1 q ++ leBytes 2 st.code ++ leBytes 4 index ++ leBytes 8 at_

/-- An entry has launched or been dropped: EV_LAUNCH is posted for every single launch, and for a periodic entry's failures and its
last launch; a periodic entry goes on at its next period (R159, R160). -/
def State.launched (s : State) (p q : Nat) (e : LaunchEntry) (st : Status) (at_ : Nat) : State :=
  let last := decide (e.count ≠ 0) && decide (e.count ≤ e.index + 1)
  let s := if last then s.modQueue p q fun l => l.filter fun x => x.order ≠ e.order
    else s.setLaunch p q e.order fun x => { x with
      index := x.index + 1, due := x.due + x.period, frame := none, bad := false, stepped := x.stepped && decide (x.due + x.period < s.tb.dev) }
  if !e.periodic || last || decide (st ≠ .ok) then s.post e.cmdRing 0x8120 e.tag.toNat (launchBody p q st e.index at_) else s

/-- LAUNCH_DUE (R159): the frame goes out at its time, or at once after the launch it would overlap; it is dropped while the link is
down, and fails where a block of it arrived poisoned. -/
def execLaunchDue (dt port queue : Nat) (s : State) : Out :=
  let s := s.elapse dt
  let x := s.port port
  match nextLaunch (s.queue port queue) with
  | none => .next s
  | some e =>
    let earlier := (List.range queue).any fun q =>
      match nextLaunch (s.queue port q) with | some f => decide (f.due < max e.due x.busyUntil + frameNs x.mode e.length) | none => false
    if decide (s.tb.dev < e.due) || earlier || (s.island islNet).isolated || !s.sendsNet then .next s
    else if !x.link then .next (s.launched port queue e .dropped 0)
    else if e.bad then .next (s.launched port queue e .fault 0)
    else match e.frame with
      | none => .next s
      | some bytes =>
        let start := if e.stepped then max s.tb.dev x.busyUntil else max e.due x.busyUntil
        let st : Status := if e.stepped ∨ e.due < start then .late else .ok
        let s := s.sendNet { NetTx.reset with kind := .launch, port := port, info := [queue, e.index, start], bytes := bytes, at_ := start }
        let s := s.modPort port fun y => { y with busyUntil := start + frameNs y.mode e.length }
        .next (s.launched port queue e st start)

end Sys2Proof.Machine
end

