-- ==== Sys2Proof/Machine/Mail.lean ====
section
/-!
DEFINITION. Mailboxes: MB0–MB3 between host and firmware, MB4–MB15 between parts (13_gathering_twin.md R438–R451).
-/

namespace Sys2Proof.Machine

/-! ### Mailboxes of the host (R442–R447) -/

/-- HOST answers BAR0, and the mailbox is one of MB0–MB3. -/
def State.boxUp (s : State) (n : Nat) : Bool := !s.host.perst && s.pwr.booted && !(s.island islHost).isolated && decide (n < 4)

/-- `MB.OUT_LAST` takes a value; a change raises source 100 + n. -/
def State.outLast (s : State) (n : Nat) (v : BitVec 2) : State :=
  if (s.hostBox n).outLast = v then s else (s.modHostBox n fun b => { b with outLast := v }).raise (100 + n)

/-- A firmware message is put before the host: IN_FULL becomes set, and source 96 + n is raised. -/
def State.putIn (s : State) (n : Nat) (words : List (BitVec 32)) : State :=
  (s.modHostBox n fun b => { b with inWords := words, inFull := true }).raise (96 + n)

/-- MB_TAKE: `MB.TAKE` reads 1 and takes the message that is held, with the outcome READ for firmware; else it reads 0 (R445). -/
def execMbTake (dt n : Nat) (s : State) : Out :=
  let s := s.elapse dt
  let put (t : State) (v : Nat) : State := { t with host := { t.host with bus := { t.host.bus with reply := leBytes 4 v } } }
  if !s.boxUp n then .next s
  else if (s.hostBox n).inFull then .next ((put s 1).modHostBox n fun b => { b with inFull := false, fwLast := 1 })
  else .next (put s 0)

/-- A host agent's number is one of 1 to 15. -/
def agentOk (a : Nat) : Bool := decide (1 ≤ a) && decide (a ≤ 15)

/-- MBL_CLAIM: a read of an agent's slot claims a free lock (R446). -/
def execMblClaim (dt n a : Nat) (s : State) : Out :=
  let s := s.elapse dt
  let o := (s.hostBox n).owner.toNat
  let put (t : State) (v : Nat) : State := { t with host := { t.host with bus := { t.host.bus with reply := leBytes 4 v } } }
  if !s.boxUp n || !agentOk a then .next s
  else if o = 0 then .next ((put s 0).modHostBox n fun b => { b with owner := BitVec.ofNat 8 a })
  else if o = a then .next (put s 0)
  else .next (put s o)

/-- The holder of a host-side lock gives it up before its GO (R446). -/
def State.mblRelease (s : State) (n a : Nat) : State :=
  let b := s.hostBox n
  if s.boxUp n && agentOk a && decide (b.owner.toNat = a) && !b.outFull then s.modHostBox n fun b => { b with owner := 0 } else s

/-- The holder sends the outgoing words while the direction is not full (R439, R446). -/
def State.mblGo (s : State) (n a : Nat) : State :=
  let b := s.hostBox n
  if s.boxUp n && agentOk a && decide (b.owner.toNat = a) && !b.outFull then
    (s.modHostBox n fun b => { b with outFull := true, outGen := s.mail.hostGen }).outLast n 0
  else s

/-- MBL_RELEASE (R446). -/
def execMblRelease (dt n a : Nat) (s : State) : Out := .next ((s.elapse dt).mblRelease n a)

/-- MBL_GO (R439, R446). -/
def execMblGo (dt n a : Nat) (s : State) : Out := .next ((s.elapse dt).mblGo n a)

/-- What the reset of the host end does to one mailbox: firmware's untaken message is dropped, the locks are released, and a full
outgoing direction stays full (R442). -/
def HostBox.hostReset (b : HostBox) : HostBox :=
  { b with inFull := false, fwLast := if b.inFull then 2 else b.fwLast, owner := 0 }

/-- The host end of MB0–MB3 is reset: its generation rises (R441, R442). -/
def State.hostEndReset (s : State) : State :=
  { s with mail := { s.mail with host := s.mail.host.map HostBox.hostReset, hostGen := s.mail.hostGen + 1 } }

/-- HOST_RESTART: a write of 1 to `MBX.HOST_RESTART` (R442, R445). -/
def execHostRestart (dt : Nat) (s : State) : Out :=
  let s := s.elapse dt
  .next (if s.boxUp 0 then s.hostEndReset else s)

/-- FUNCTION_LEVEL_RESET: a function-level reset of the endpoint is a reset of the host end (R442). -/
def execFunctionLevelReset (dt : Nat) (s : State) : Out :=
  let s := s.elapse dt
  .next (if s.boxUp 0 then s.hostEndReset else s)

/-- Sixteen words from bytes or from words that come first. -/
def sixteen (l : List (BitVec 32)) : List (BitVec 32) := (l ++ List.replicate 16 0).take 16

/-- The four words of a list of 16 bytes. -/
def wordsOf (bs : List Byte) : List (BitVec 32) := (List.range (bs.length / 4)).map fun i => BitVec.ofNat 32 (leNat ((bs.drop (4 * i)).take 4))

/-- Firmware's answer to a host message (R447). -/
def State.mailReply (s : State) (words : List (BitVec 32)) : List (BitVec 32) :=
  let w := (words.headD 0).toNat
  let code := w % 2 ^ 16
  let label := w / 2 ^ 16 * 2 ^ 16
  match code with
  | 1 => sixteen [BitVec.ofNat 32 (label + 0x8001), BitVec.ofNat 32 s.tb.dev, BitVec.ofNat 32 (s.tb.dev / 2 ^ 32)]
  | 2 => sixteen (BitVec.ofNat 32 (label + 0x8002) :: wordsOf (padTo 16 s.deviceId) ++
      [BitVec.ofNat 32 (s.top.line.toNat * 2 ^ 24 + s.top.build.toNat),
       BitVec.ofNat 32 (s.lifecycle.code + 8 * s.role + 32 * s.top.gatherId.toNat)])
  | _ => sixteen [BitVec.ofNat 32 (label + 0xFFFF)]

/-- Firmware sends the oldest reply it holds once the direction to the host is free (R444). -/
def State.sendHeld (s : State) (n : Nat) : State :=
  let b := s.hostBox n
  if b.inFull then s
  else match b.replies with
    | [] => s
    | r :: rest => (s.modHostBox n fun b => { b with replies := rest }).putIn n r

/-- Firmware takes the host's message and answers it: at once, behind the replies it holds, or not at all where four are held (R444). -/
def State.takeHostMail (s : State) (n : Nat) : State :=
  let b := s.hostBox n
  if !b.outFull then s
  else
    let r := s.mailReply b.outWords
    let s := (s.modHostBox n fun b => { b with outFull := false, owner := 0 }).outLast n 1
    if !b.inFull ∧ b.replies = [] then s.putIn n r
    else if b.replies.length < 4 then s.modHostBox n fun b => { b with replies := b.replies ++ [r] }
    else { s with twin := { s.twin with unanswered := sat 32 (s.twin.unanswered + 1) } }

/-- HOST_MAIL_SERVICE: firmware turns to a host mailbox while READY is set (R444). -/
def execHostMailService (dt n : Nat) (s : State) : Out :=
  let s := s.elapse dt
  .next (if s.top.ready ∧ !s.twin.resyncCause1 ∧ n < 4 then (s.sendHeld n).takeHostMail n else s)

/-! ### Mailboxes between parts (R438–R442, R448–R451) -/

/-- The member at the far end of a spine mailbox. -/
def boxMember (m : Nat) : Nat := m - 8

/-- A mailbox between parts has a far end: MB4–MB7 the twin, MB8–MB15 another member. -/
def State.farExists (s : State) (m : Nat) : Bool := decide (4 ≤ m) && decide (m < 16) && !(decide (8 ≤ m) && decide (boxMember m = s.top.gatherId.toNat))

/-- There is contact with the far end: link T is up, or the member is reachable. -/
def State.farContact (s : State) (m : Nat) : Bool :=
  s.farExists m && (if m < 8 then decide ((s.spineLink 2).st = 2) else decide ((s.member (boxMember m)).st = 1))

/-- EV_MAIL on the ring that watches a mailbox (R451). -/
def State.mailEvent (s : State) (m kind owner : Nat) : State :=
  let b := s.farBox m
  match b.watch with
  | some n => s.post n 0x8C00 0 (leBytes 1 m ++ leBytes 1 kind ++ leBytes 1 owner ++ leBytes 1 0 ++ leBytes 2 b.farGen.toNat)
  | none => s

/-- The CMD ring or forwarded place whose MAIL_SEND waits on a mailbox. -/
def State.mailWaiter (s : State) (m : Nat) : Option Nat :=
  (List.range 48).find? fun r => match (s.cmdQ r).begun with | some b => decide (b.wait = .mail m) | none => false

/-- The outcome of this end's message is known: the direction is no longer full and its lock frees (R439, R440). A MAIL_SEND that still
waits completes first: delivered where the message was taken, and without knowing where it was lost (R449). -/
def State.mailOutcome (s : State) (m : Nat) (read : Bool) : State :=
  let b := s.farBox m
  if !b.full then s
  else
    let s := match s.mailWaiter m with
      | some r => if read then s.finish r .ok 0 id else s.finish r .unreachable 1 id
      | none => s
    (s.modFarBox m fun b => { b with full := false, owner := 0, out := [], delivered := false }).mailEvent m (if read then 1 else 2) b.owner

/-- This end learns that a far end has been reset: its generation rises, the message that waited there untaken is dropped, and messages
from it that wait here are kept (R441, R442, R448). -/
def State.farReset (s : State) (m : Nat) : State :=
  let s := (s.modFarBox m fun b => { b with farGen := b.farGen + 1 }).mailEvent m 3 0
  if (s.farBox m).delivered then s.mailOutcome m false else s

/-- A peer's plate nonce, seen in a link handshake: a change of it tells of a reset (R442, R453). -/
def State.seeNonce (s : State) (m : Nat) (nonce : BitVec 64) : State :=
  let old := (s.farBox m).farNonce
  let s := s.modFarBox m fun b => { b with farNonce := some nonce }
  if old.isSome ∧ old ≠ some nonce then s.farReset m else s

/-- MAIL_SEND (R449). -/
def bodyMailSend (c : FCtx) (s : State) : FRes :=
  let m := c.u 0x10 1
  let b := s.farBox m
  match firstBad [(decide (8 ≤ m) && decide (m < 16), .param), (!s.farExists m || s.farContact m, .unreachable), (isAdmin c s, .colour),
      (s.farExists m, .state)] with
  | some st => .done st 0 s id
  | none =>
    if b.owner ≠ 0 ∨ b.full then .done .busy b.owner s id
    else .wait (.mail m) (s.modFarBox m fun b => { b with owner := 0x20 + c.ring, full := true, out := c.folio.bytesAt 0x20 64, delivered := false })

/-- MAIL_SEND (R449). -/
def execMailSend (dt ring : Nat) (s : State) : Out := .next ((s.elapse dt).runFolio ring 0x0C00 bodyMailSend)

/-- The message of a MAIL_SEND has been delivered: the folio completes; the outcome follows (R448, R449). -/
def State.mailDelivered (s : State) (slot m : Nat) : State :=
  if s.farContact m then (s.modFarBox m fun b => { b with delivered := true }).finish slot .ok 0 id else s

/-- Contact with the far end of a mailbox has been lost for 50 ms. -/
def State.contactGone (s : State) (m : Nat) : Bool :=
  !s.farContact m && (match s.gath.noPathSince.getD (boxMember m) none with
    | some t => decide (t + 50000000 ≤ s.tb.now) | none => false)

/-- MAIL_CONTACT_TIMEOUT: a MAIL_SEND whose contact is lost and not regained within 50 ms completes; its outcome follows later (R449). -/
def execMailContactTimeout (dt ring : Nat) (s : State) : Out :=
  let s := s.elapse dt
  match (s.cmdQ ring).begun with
  | some b =>
    match b.wait with
    | .mail m => .next (if s.contactGone m then s.finish ring .unreachable 1 id else s)
    | _ => .next s
  | none => .next s

/-- The message that waits here is taken: its sender gets the outcome READ. -/
def State.takeInbox (s : State) (m : Nat) : State := s.modFarBox m fun b => { b with inbox := none, given := true :: b.given }

/-- MAIL_TAKE (R450). -/
def bodyMailTake (c : FCtx) (s : State) : FRes :=
  let m := c.u 0x10 1
  let w := c.u 0x12 1
  let off := c.u 0x14 4
  let b := s.farBox m
  let k := blockChecks c s w off 256
  .checks ((decide (8 ≤ m) && decide (m < 16), .param) :: k.take 1 ++ [(isAdmin c s, .colour)] ++ k.drop 1
      ++ [(s.farExists m && b.inbox.isSome, .state)]) s <|
    match b.inbox with
    | none => .ok s
    | some x =>
      writeBlock (s.takeInbox m) w off (layout 256 [(0x00, padTo 64 x.words), (0x40, leBytes 1 x.owner), (0x42, leBytes 2 x.gen.toNat),
        (0x44, leBytes 2 b.farGen.toNat), (0x48, leBytes 8 x.at_)])

/-- MAIL_TAKE (R450). -/
def execMailTake (dt ring : Nat) (s : State) : Out := .next ((s.elapse dt).runFolio ring 0x0C01 bodyMailTake)

/-- MAIL_WATCH (R451). -/
def bodyMailWatch (c : FCtx) (s : State) : FRes :=
  let m := c.u 0x10 1
  let n := c.u 0x11 1
  .checks [(decide (8 ≤ m) && decide (m < 16) && (decide (n < 32) || decide (n = 0xFF)), .param), (decide (n = 0xFF) || evOk c s n, .colour),
      (s.farExists m, .state)] s <|
    .ok (s.modFarBox m fun b => { b with watch := if n = 0xFF then none else some (c.ev n) })

/-- MAIL_WATCH (R451). -/
def execMailWatch (dt ring : Nat) (s : State) : Out := .next ((s.elapse dt).runFolio ring 0x0C02 bodyMailWatch)

/-- MAIL_DELIVER: a message from the far end is stored and acknowledged, with the generation in force (R441, R448). Firmware takes one on
MB4–MB7 at once (R443). -/
def execMailDeliver (dt box : Nat) (words : List Byte) (owner : Nat) (s : State) : Out :=
  let s := s.elapse dt
  let b := s.farBox box
  if !s.farContact box || b.inbox.isSome then .next s
  else
    let x : MailMsg := { words := padTo 64 words, owner := owner, gen := b.farGen, at_ := s.tb.dev }
    let s := (s.modFarBox box fun b => { b with inbox := some x }).mailEvent box 0 owner
    .next (if box < 8 then s.takeInbox box else s)

/-- MAIL_OUTCOME: the far end tells what became of this end's message (R440, R448). -/
def execMailOutcome (dt box : Nat) (read : Bool) (s : State) : Out :=
  let s := s.elapse dt
  .next (if s.farContact box then s.mailOutcome box read else s)

end Sys2Proof.Machine
end

