-- ==== Sys2Proof/Machine/Admit.lean ====
section
/-!
DEFINITION. Declarations and the admission of stream contexts to decode engines (04_decode.md R176–R182, R186, R200, R202).
Loads and rates are exact fractions, slice times are counted in sevenths of a nanosecond.
-/

namespace Sys2Proof.Machine

/-! ### Fractions -/

/-- A fraction: numerator and denominator. -/
abbrev Frac := Nat × Nat

def fracAdd (a b : Frac) : Frac := (a.1 * b.2 + b.1 * a.2, a.2 * b.2)
/-- The fraction is at most a whole number. -/
def fracLe (a : Frac) (n : Nat) : Bool := decide (a.1 ≤ n * a.2)
/-- One fraction is less than another. -/
def fracLt (a b : Frac) : Bool := decide (a.1 * b.2 < b.1 * a.2)
def fracMax (a b : Frac) : Frac := if fracLt a b then b else a
def fracSum (l : List Frac) : Frac := l.foldl fracAdd (0, 1)

/-! ### The figures of one declaration (R177–R182) -/

/-- A number rounded up to a multiple. -/
def roundUp (n m : Nat) : Nat := ceilDiv n m * m

/-- Level 5.1 luma samples per second of the codec (R178). -/
def lumaRate (hevc : Bool) : Nat := if hevc then 534773760 else 251658240

/-- The default declaration (R179): all profiles of the codec, 4096×2176 at the Level 5.1 luma sample rate. -/
def defaultDecl (hevc : Bool) : Decl :=
  { Decl.reset with profiles := if hevc then 0b11000 else 0b00111, rateNum := lumaRate hevc, rateDen := 4096 * 2176 }

/-- MAX_W × MAX_H × picture rate × weight (R177). -/
def Decl.load (d : Decl) : Frac := (d.maxW * d.maxH * d.rateNum * (if d.output = .p010 then 2 else 1), d.rateDen)

/-- Slice time in sevenths of a ns: MAX_W × SLICE_LINES / 1.4 Gpx/s + 10 µs, SLICE_LINES rounded up (R179). -/
def Decl.slice (d : Decl) (hevc : Bool) : Nat := d.maxW * roundUp d.sliceLines (if hevc then 64 else 16) * 5 + 70000

/-- Picture rate × MAX_SLICES (A5). -/
def Decl.slicesPerSec (d : Decl) : Frac := (d.rateNum * d.maxSlices, d.rateDen)

/-- Bytes of a 4:2:0 picture (R182, R216). -/
def fmtBytes (f : PixFmt) (w h : Nat) : Nat :=
  let n := w * h + 2 * ((w + 1) / 2 * ((h + 1) / 2))
  if f = .p010 then 2 * n else n

/-- Blocks of a colophon table, 8 colophons to a block (R71). -/
def colophonBlocks (height : Nat) : Nat := ceilDiv (ceilDiv height 16) 8

/-- Bytes of one picture buffer (R182). -/
def Decl.buffer (d : Decl) (hevc : Bool) : Nat :=
  let g := if hevc then 64 else 16
  roundUp (fmtBytes d.output (roundUp d.maxW g) (roundUp d.maxH g) + 256 * colophonBlocks d.maxH) 256

/-! ### Where pictures lie in the store (R38, R48, R65–R67, R71; log entry 66) -/

/-- Blocks of a whole leaf, of 16 lines (R48). -/
def Picture.leafBlocks (p : Picture) : Nat := ceilDiv (fmtBytes p.fmt p.width 16) 256

/-- Bytes of a leaf's active pixels: a short last leaf has those of its lines (R48, R62). -/
def Picture.leafBytes (p : Picture) (leaf : Nat) : Nat := fmtBytes p.fmt p.width (min 16 (p.height - 16 * leaf))

/-- The store address of a leaf: blocks of its own, behind those of the leaf above it. -/
def Picture.leafAddr (p : Picture) (leaf : Nat) : Nat := p.base + 256 * (leaf * p.leafBlocks)

/-- The store address of the block of the colophon table that holds a leaf's colophon: behind the leaves, 8 to a block (R71). -/
def Picture.colophonAddr (p : Picture) (leaf : Nat) : Nat := p.leafAddr p.leaves.length + 256 * (leaf / 8)

/-- Blocks of a band of 16 lines outside the conformance window, and where they lie: behind the colophon table, in blocks that belong to no leaf (R166). -/
def Picture.outsideAddr (p : Picture) (n : Nat) : Nat := p.leafAddr p.leaves.length + 256 * (ceilDiv p.leaves.length 8 + n)

/-- Samples outside the window are written, band by band. -/
def State.putOutside (s : State) (p : Picture) (l : List (Nat × List Byte)) : State :=
  let blocks (bs : List Byte) : Nat := ceilDiv bs.length 256
  (l.foldl (fun (a : State × Nat) q => (a.1.storeWrite (p.outsideAddr a.2) (padTo (256 * blocks q.2) q.2), a.2 + blocks q.2)) (s, 0)).1

/-- Bytes from the first leaf to the end of the colophon table. -/
def Picture.bytes (p : Picture) : Nat := 256 * (p.leaves.length * p.leafBlocks + ceilDiv p.leaves.length 8)

/-- SOURCE of a context (R66). -/
def sourceWord (member : Nat) (hostFed : Bool) (context : Nat) : Nat := member * 8192 + (if hostFed then 64 else 0) + context

/-- FLAGS of a leaf: as another member gave them, else by the picture and the leaf (R67, R72). -/
def Picture.flagsAt (p : Picture) (leaf : Nat) : BitVec 16 :=
  let l := p.leaves.getD leaf Leaf.reset
  match l.given with
  | some f => f
  | none => BitVec.ofNat 16 (b2n l.valid + 2 * b2n p.arrivalTimed + 4 * b2n l.concealed + 8 * b2n l.refConcealed + 16 * b2n p.holdover
      + 32 * b2n p.clamped + 64 * b2n (decide (leaf + 1 = p.leaves.length)) + 128 * b2n p.randomAccess)

/-- The colophon of a leaf; all zero while VALID is clear (R65, R71). -/
def Picture.colophon (p : Picture) (source leaf : Nat) : List Byte :=
  let l := p.leaves.getD leaf Leaf.reset
  if !l.valid then List.replicate 32 0
  else layout 32 [(0x00, leBytes 2 source), (0x02, leBytes 2 (p.flagsAt leaf).toNat), (0x04, leBytes 4 (p.frame.getD 0).toNat), (0x08, leBytes 2 leaf),
    (0x0C, leBytes 8 p.capture), (0x14, leBytes 8 l.decoded), (0x1C, leBytes 4 l.signature.toNat)]

/-- A block of the colophon table, in leaf-index order (R71). -/
def Picture.colophonBlock (p : Picture) (source k : Nat) : List Byte :=
  padTo 256 (((List.range 8).filter fun i => decide (8 * k + i < p.leaves.length)).flatMap fun i => p.colophon source (8 * k + i))

/-- The pixels of a leaf are written into its blocks. -/
def State.putLeaf (s : State) (p : Picture) (leaf : Nat) : State :=
  let px := (p.leaves.getD leaf Leaf.reset).pixels
  s.storeWrite (p.leafAddr leaf) (padTo (256 * ceilDiv px.length 256) px)

/-- Blocks of the colophon table are written whole (R71). -/
def State.putColophons (s : State) (p : Picture) (source : Nat) (ks : List Nat) : State :=
  ks.foldl (fun (t : State) k => t.storeWrite (p.colophonAddr (8 * k)) (p.colophonBlock source k)) s

/-- A block of a leaf's pixels or of its colophon is damaged in the store (reads poisoned, R34). -/
def State.leafDamaged (s : State) (p : Picture) (leaf : Nat) : Bool :=
  decide (p.size ≠ 0) && (s.store.damagedAt (p.colophonAddr leaf) || (blocksOf (p.leafAddr leaf) (p.leafBytes leaf)).any fun b => s.store.damagedAt b)

/-- The store from which picture buffers come: its last 14 GiB (A4). -/
def picturePool : Nat := 0x460000000

/-- The picture buffers in use: of contexts of this part, and received. -/
def State.pictureRegions (s : State) : List (Nat × Nat) :=
  let of (l : List Picture) : List (Nat × Nat) := (l.filter fun p => decide (p.size ≠ 0)).map fun p => (p.base, p.size)
  s.dec.ctx.flatMap (fun (x : Context) => of x.pics) ++ s.gath.rx.flatMap fun (x : RxContext) => of x.pics

/-- The lowest place of the pool for a picture buffer of a size. -/
def State.placePicture (s : State) (n : Nat) : Nat :=
  let r := s.pictureRegions
  ((picturePool :: r.map fun q => q.1 + q.2).filter fun b => r.all fun q => decide (b + n ≤ q.1) || decide (q.1 + q.2 ≤ b)).min?.getD picturePool

/-- Bytes of a context's DPB + 3 buffers (R176, R182). -/
def Decl.buffers (d : Decl) (hevc : Bool) : Nat := d.buffer hevc * (d.dpb + 3)

/-! ### What a context counts for: the larger of its old and new values until a re-declaration takes effect (R177) -/

def Context.load (x : Context) : Frac := fracMax x.decl.load (match x.next with | some d => d.load | none => (0, 1))
def Context.sliceTime (x : Context) : Nat :=
  max (x.decl.slice x.cfg.hevc) (match x.next with | some d => d.slice x.cfg.hevc | none => 0)
def Context.buffers (x : Context) : Nat :=
  max (x.decl.buffers x.cfg.hevc) (match x.next with | some d => d.buffers x.cfg.hevc | none => 0)
def Context.sliceRate (x : Context) : Frac :=
  fracMax x.decl.slicesPerSec (match x.next with | some d => d.slicesPerSec | none => (0, 1))

/-- The context holds a place on an engine: open and not shed. -/
def Context.placed (x : Context) : Bool := x.opened && decide (x.st ≠ .shed)

/-! ### The rules A1 to A5 (R180) -/

/-- A1 to A3 hold on an engine for the contexts placed on it. -/
def engineOk (l : List Context) : Bool :=
  let urgent : List Nat := (l.filter fun x => x.cfg.cls = .urgent).map Context.sliceTime
  let both : List Nat := (l.filter fun x => x.cfg.cls ≠ .review).map Context.sliceTime
  fracLe (fracSum (l.map (·.load))) 1000000000 && decide (urgent.sum - urgent.foldl max 0 ≤ 700000) && decide (both.sum ≤ 11200000)

/-- Contexts placed on an engine, as a list of contexts gives their engines. -/
def onEngine (l : List Context) (e : Nat) : List Context := l.filter fun x => x.placed && decide (x.engine = e)

/-- A1 to A3 hold on every engine of a list. -/
def allEnginesOk (l : List Context) (engines : List Nat) : Bool := engines.all fun e => engineOk (onEngine l e)

/-- A selection names a picture of a context of this part. -/
def SelPic.names (p : SelPic) (self c pic : Nat) : Bool := decide (p.member = self) && decide (p.context = c) && decide (p.pic = pic)

/-- Some layer still selects a picture of a context of this part, or a frame in progress shows it (R176, R203). -/
def State.selects (s : State) (c pic : Nat) : Bool :=
  let self := s.top.gatherId.toNat
  s.comp.layer.any (fun x => match x.sel with
    | some p => p.names self c pic && decide (x.st ≠ .free)
    | none => false)
  || s.comp.head.any fun h => (h.cur ++ h.next).any fun k => match k.sel with
    | some p => p.names self c pic
    | none => false

/-- Bytes of picture buffers of a context that count against A4: its own while it is open or a layer selects one of its pictures, and those from
before it opened while a layer selects one of theirs (R180, R203). -/
def State.heldBuffers (s : State) (i : Nat) (x : Context) : Nat :=
  (if x.opened || x.pics.any fun p => decide (x.firstPic ≤ p.id) && s.selects i p.id then x.buffers else 0)
    + if x.pics.any fun p => decide (p.id < x.firstPic) && s.selects i p.id then x.oldBuffers else 0

/-- A4 and A5 hold on the device (R180, R203). -/
def State.deviceOk (s : State) (l : List Context) : Bool :=
  decide ((l.zipIdx.map fun x => s.heldBuffers x.2 x.1).sum ≤ 14 * 2 ^ 30) && fracLe (fracSum ((l.filter (·.opened)).map (·.sliceRate))) 80000

/-- The engines in service (R202). -/
def State.activeEngines (s : State) : List Nat := (List.range 8).filter fun e => decide ((s.engine e).st = .active)

/-- Engines in rising order of admitted load, and of number among equals (R181). -/
def byLoad (l : List Context) (engines : List Nat) : List Nat :=
  let ld (e : Nat) := fracSum ((onEngine l e).map (·.load))
  engines.foldl (fun acc e =>
    (acc.takeWhile fun a => !fracLt (ld e) (ld a)) ++ [e] ++ (acc.dropWhile fun a => !fracLt (ld e) (ld a))) []

/-! ### Finding a home engine (R181) -/

/-- The list with a context's engine set. -/
def setEngine (l : List Context) (c e : Nat) : List Context := l.modify c fun x => { x with engine := e }

/-- The first engine of an order on which context `c` fits without moving another. -/
def placeStill (l : List Context) (c : Nat) (order : List Nat) : Option (List Context) :=
  (order.find? fun e => engineOk (onEngine (setEngine l c e) e)).map fun e => setEngine l c e

/-- An arrangement of the contexts in `todo`, each on one of its engines, under which every engine keeps A1 to A3: the first found
(DESIGN CHOICE, log entry 14: the spec does not say which). Contexts in `todo` are off their engines until they are placed. -/
def arrange (engines : List Nat) : List Context → List Nat → Option (List Context)
  | l, [] => some l
  | l, c :: todo =>
    let home := (l.getD c Context.reset).engine
    let order := if engines.contains home then home :: engines.filter (· ≠ home) else engines
    order.findSome? fun e =>
      let l' := (setEngine l c e).modify c fun x => { x with opened := true }
      if engineOk (onEngine l' e) then arrange engines l' todo else none

/-- Place context `c`: first without moving another, then once more with live and review contexts free to move (R181). A live-urgent
context is never moved for admission. `keep` fixes c to its present engine. -/
def placeContext (l : List Context) (engines : List Nat) (c : Nat) (order : List Nat) (keep : Bool) : Option (List Context) :=
  match placeStill l c order with
  | some l' => some l'
  | none =>
    let movable := (List.range l.length).filter fun i =>
      decide (i ≠ c) && (l.getD i Context.reset).placed && decide ((l.getD i Context.reset).cfg.cls ≠ .urgent)
    let off := movable.foldl (fun (a : List Context) i => a.modify i fun x => { x with opened := false }) l
    order.findSome? fun e =>
      if keep && decide (e ≠ (l.getD c Context.reset).engine) then none
      else
        let l' := setEngine off c e
        if engineOk (onEngine l' e) then arrange engines l' movable else none

/-- Context `c`, as the list holds it, is admitted: A4 and A5, then a home engine. The home engine it has comes first when it is open
already, and a live-urgent context that is open stays on it (R181, R186). -/
def State.admitContext (s : State) (l : List Context) (c : Nat) (open_ : Bool) : Option (List Context) :=
  let x := l.getD c Context.reset
  let engines := s.activeEngines
  if !s.deviceOk l then none
  else
    let others := l.modify c fun y => { y with opened := false }
    let order := byLoad others engines
    if open_ then
      let order := x.engine :: (if x.cfg.cls = .urgent then [] else order.filter (· ≠ x.engine))
      placeContext l engines c order (decide (x.cfg.cls = .urgent))
    else placeContext l engines c order false

/-! ### Isolation and return (R200, R202) -/

/-- The order in which contexts are placed: live-urgent first, then live, then review, each in descending PRIORITY and rising
index. -/
def placeOrder (l : List Context) (cs : List Nat) : List Nat :=
  let rank (c : Nat) : Nat :=
    let x := l.getD c Context.reset
    (match x.cfg.cls with | .urgent => 0 | .live => 1 | .review => 2) * 65536 + (255 - x.decl.priority) * 256 + c
  cs.foldl (fun acc c => (acc.takeWhile fun a => decide (rank a ≤ rank c)) ++ [c] ++ (acc.dropWhile fun a => decide (rank a ≤ rank c))) []

/-- Place each of a list of contexts in order, none of them on an engine to begin with. -/
def placeEach (engines : List Nat) : List Context → List Nat → Option (List Context)
  | l, [] => some l
  | l, c :: cs =>
    let l' := l.modify c fun x => { x with opened := true }
    match placeContext l' engines c (byLoad l engines) false with
    | some l'' => placeEach engines l'' cs
    | none => none

/-- The contexts whose engine is not in service. -/
def homeless (l : List Context) (engines : List Nat) : List Nat :=
  (List.range l.length).filter fun c => (l.getD c Context.reset).placed && !engines.contains (l.getD c Context.reset).engine

/-- Contexts are shed until the rest fit (R202): review first, then live, then live-urgent; lower PRIORITY first, and the higher index
among equals. The answer gives the contexts and those shed, in order. -/
def shedUntilFit (engines : List Nat) : Nat → List Context → List Nat → List Context × List Nat
  | 0, l, out => (l, out)
  | n + 1, l, out =>
    let lost := placeOrder l (homeless l engines)
    let off := lost.foldl (fun (a : List Context) i => a.modify i fun x => { x with opened := false }) l
    match placeEach engines off lost with
    | some l' => (l', out)
    | none =>
      match (placeOrder l ((List.range l.length).filter fun c => (l.getD c Context.reset).placed)).getLast? with
      | some c => shedUntilFit engines n (l.modify c fun x => { x with st := .shed }) (out ++ [c])
      | none => (l, out)

/-- Shed contexts resume in the reverse order of shedding, as far as A1 to A5 allow; one that does not fit is skipped (R202). -/
def State.resumeShed (s : State) (l : List Context) : List Context × List Nat :=
  let cs := placeOrder l ((List.range l.length).filter fun c => (l.getD c Context.reset).opened && decide ((l.getD c Context.reset).st = .shed))
  cs.foldl (fun (a : List Context × List Nat) c =>
    let l' := a.1.modify c fun x => { x with st := .waitRa, decl := x.next.getD x.decl, next := none }
    match s.admitContext l' c false with
    | some l'' => (l'', a.2 ++ [c])
    | none => a) (l, [])

end Sys2Proof.Machine
end

