-- ==== Sys2Proof/Machine/Pixels.lean ====
section
/-!
DEFINITION. The pixel arithmetic of composition: widening, the scaler and its filters, colour conversion, key and alpha, the deckle,
the press image, the output codes, and the reading of pictures and surfaces (05_layers.md R216–R228, 02_freshness.md R88–R91,
06_flips_plate_press.md R251, R262, 07_heads.md R281). Components are 12-bit values throughout (R217).
-/

namespace Sys2Proof.Machine

/-- Three 12-bit components. -/
abbrev Rgb := Nat × Nat × Nat

/-- A component held to 0–4,095. -/
def clamp12 (v : Int) : Nat := if v < 0 then 0 else min v.toNat 4095

/-! ### Widening (R217) -/

def widen8 (v : Nat) : Nat := v * 16 + v / 16
def widen6 (v : Nat) : Nat := v * 64 + v
def widen5 (v : Nat) : Nat := v * 128 + v * 4 + v / 8

/-- The components of an RGB word with R in [23:16], G in [15:8] and B in [7:0], widened. -/
def widenRgb (v : Nat) : Rgb := (widen8 (v / 65536 % 256), widen8 (v / 256 % 256), widen8 (v % 256))

/-! ### Positions and filters (R218, R220) -/

/-- Source position of an output pixel, 16 fractional bits: ⌊(2i + 1) × S × 2^16 / (2 × D)⌋ − 2^15. -/
def scalePos (i src dst : Nat) : Int := (((2 * i + 1) * src * 65536 / (2 * dst) : Nat) : Int) - 32768

/-- Integer part and phase of a position. -/
def posInt (p : Int) : Int := p / 65536
def posPhase (p : Int) : Nat := (p % 65536 / 1024).toNat

/-- The unit of the fixed-point sine, 2^80, and π in it. -/
def sincOne : Nat := 2 ^ 80
def piFixed : Nat := 3797952473636338580787993

/-- The Taylor series of the sine from its `k`-th term on: an angle's square, the term reached, and terms left. -/
def sinSeries (sq : Int) : Nat → Nat → Int → Int
  | 0, _, _ => 0
  | n + 1, k, term => term + sinSeries sq n (k + 1) (-(term * sq / sincOne) / ((2 * k + 2) * (2 * k + 3) : Nat))

/-- sin(π × n / d) for n / d ≥ 0, in units of 2^-80. -/
def sinPi (n d : Nat) : Int :=
  let m := n % (2 * d)
  let (neg, m) := if d ≤ m then (true, m - d) else (false, m)
  let m := if d < 2 * m then d - m else m
  let theta : Int := ((piFixed * m / d : Nat) : Int)
  let v := sinSeries (theta * theta / sincOne) 16 0 theta
  if neg then -v else v

/-- L(x) = sinc(x) × sinc(x / a) at |x| = n / d, in units of 2^-80; 0 from a on (R220). -/
def lanczos (a n d : Nat) : Int :=
  if n = 0 then sincOne
  else if a * d ≤ n then 0
  else
    let s : Int := sinPi n d * sinPi n (a * d)
    let piSq : Int := ((piFixed * piFixed / sincOne : Nat) : Int)
    s * ((a * d * d : Nat) : Int) / (piSq * ((n * n : Nat) : Int))

/-- Nearest integer to a fraction with a positive denominator, halves away from zero. -/
def roundHalf (n d : Int) : Int := if n < 0 then -((2 * -n + d) / (2 * d)) else (2 * n + d) / (2 * d)

/-- The taps of a pass: how many, which lies at distance 0, and the window's reach (R218, R220). -/
def tapCount (vertical : Bool) : Nat := if vertical then 6 else 8
def tapCentre (vertical : Bool) : Nat := if vertical then 2 else 3

/-- The tap with the smallest distance, the higher of two equally near. -/
def nearestTap (phase : Nat) (vertical : Bool) : Nat := tapCentre vertical + (if 32 ≤ phase then 1 else 0)

/-- The weights of AUTO at a phase, for a source of S and a destination of D (R220). -/
def autoWeights (phase src dst : Nat) (vertical : Bool) : List Int :=
  let a := if vertical then 3 else 4
  let raw := (List.range (tapCount vertical)).map fun t =>
    let d : Int := (64 * t : Nat) - (64 * tapCentre vertical : Nat) - (phase : Int)
    lanczos a (d.natAbs * min src dst) (64 * src)
  let total := raw.foldl (· + ·) (0 : Int)
  let w := raw.map fun r => roundHalf (r * 1024) total
  w.modify (nearestTap phase vertical) fun v => v + (1024 - w.foldl (· + ·) (0 : Int))

/-- The weights of a filter code at a phase: 0 AUTO, 1 NEAREST, 2 BILINEAR, others the bank's weights (R213, R220). -/
def filterWeights (code phase src dst : Nat) (vertical : Bool) (bank : List Int) : List Int :=
  let n := tapCount vertical
  if code = 0 then autoWeights phase src dst vertical
  else if code = 1 then (List.range n).map fun t => if t = nearestTap phase vertical then 1024 else 0
  else if code = 2 then (List.range n).map fun t =>
    if t = tapCentre vertical then 1024 - phase * 16 else if t = tapCentre vertical + 1 then phase * 16 else 0
  else (bank.drop (phase * n)).take n

/-- The weighted sum of a pass: plus 512, shifted right by 10, held to 0–4,095 (R220). -/
def passOut (ws : List Int) (vs : List Nat) : Nat :=
  clamp12 ((((ws.zip vs).map fun x => x.1 * (x.2 : Int)).foldl (· + ·) (0 : Int) + 512) / 1024)

/-- The sample a tap reads, held to the edges of the source rectangle (R218). -/
def tapAt (n : Int) (t centre len : Nat) : Nat := min (max (n + t - centre) 0).toNat (len - 1)

/-- The source lines that an output line uses, with non-zero weight, counted from the top of the source rectangle (R84, R220). -/
def linesUsed (code : Nat) (bank : List Int) (i src dst : Nat) : List Nat :=
  let p := scalePos i src dst
  let ws := filterWeights code (posPhase p) src dst true bank
  ((List.range 6).filter fun t => ws.getD t 0 ≠ 0).map fun t => tapAt (posInt p) t 2 src

/-! ### Decoded pictures (R62, R63, R70, R216) -/

/-- A sample of a plane of a leaf's stored pixels: width and lines of the leaf, plane (0 Y, 1 Cb, 2 Cr), column and line in it. -/
def leafSample (f : PixFmt) (px : List Byte) (w lines plane x y : Nat) : Nat :=
  let cw := (w + 1) / 2
  let cl := (lines + 1) / 2
  let at8 (o : Nat) : Nat := (px.getD o 0).toNat
  match f with
  | .nv12 => if plane = 0 then at8 (y * w + x) * 16 else at8 (w * lines + (y * cw + x) * 2 + (plane - 1)) * 16
  | .i420 => if plane = 0 then at8 (y * w + x) * 16 else at8 (w * lines + (plane - 1) * cw * cl + y * cw + x) * 16
  | .p010 =>
    let o := if plane = 0 then 2 * (y * w + x) else 2 * (w * lines + (y * cw + x) * 2 + (plane - 1))
    (at8 o + 256 * at8 (o + 1)) / 64 * 4

/-- Lines of a leaf of a picture (R62). -/
def Picture.leafLines (p : Picture) (leaf : Nat) : Nat := min 16 (p.height - 16 * leaf)

/-- A sample of a picture, its column and line held to the picture: plane 0 is luma, 1 and 2 are the chroma planes at half size. -/
def Picture.sample (p : Picture) (plane x y : Nat) : Nat :=
  let half := if plane = 0 then 1 else 2
  let x := min x ((p.width + half - 1) / half - 1)
  let y := min y ((p.height + half - 1) / half - 1)
  let leaf := y * half / 16
  leafSample p.fmt (p.leaves.getD leaf Leaf.reset).pixels p.width (p.leafLines leaf) plane x (y - leaf * 16 / half)

/-! ### The scaled pixel of a video layer (R215, R218, R220) -/

/-- One plane of a video layer's pixel at a place of its destination. -/
def scaledPlane (p : Picture) (sh : Shown) (plane i j : Nat) : Nat :=
  let c := sh.cfg
  let chroma := plane ≠ 0
  let px := scalePos i c.srcW c.dstW
  let py := scalePos j c.srcH c.dstH
  let px := if chroma then px / 2 else px
  let py := if chroma then (py - 32768) / 2 else py
  let half := if chroma then 2 else 1
  let wx := filterWeights c.hfilter (posPhase px) c.srcW c.dstW false sh.hBank
  let wy := filterWeights c.vfilter (posPhase py) c.srcH c.dstH true sh.vBank
  let line (y : Nat) : Nat := passOut wx ((List.range 8).map fun t =>
    p.sample plane (c.srcX / half + tapAt (posInt px) t 3 (c.srcW / half)) (c.srcY / half + y))
  passOut wy ((List.range 6).map fun t => line (tapAt (posInt py) t 2 (c.srcH / half)))

/-- The source of a video layer's pixel lies inside the picture (R215). -/
def Picture.holds (p : Picture) (c : LayerCfg) (i j : Nat) : Bool :=
  decide (c.srcX + tapAt (posInt (scalePos i c.srcW c.dstW)) 0 0 c.srcW < p.width)
    && decide (c.srcY + tapAt (posInt (scalePos j c.srcH c.dstH)) 0 0 c.srcH < p.height)

/-- The scaled components of a video layer's pixel, none where its source lies outside the picture (R215). -/
def videoPixel (p : Picture) (sh : Shown) (i j : Nat) : Option Rgb :=
  if !p.holds sh.cfg i j then none
  else some (scaledPlane p sh 0 i j, scaledPlane p sh 1 i j, scaledPlane p sh 2 i j)

/-! ### Surfaces of graphic layers (R216, R217) -/

/-- Bytes per line that a plane of a format needs, and its lines (R214, R216). -/
def planeNeed (format plane w h : Nat) : Nat × Nat :=
  let cw := (w + 1) / 2
  let ch := (h + 1) / 2
  match format, plane with
  | 0, 0 | 1, 0 | 2, 0 => (w, h)
  | 0, 1 => (2 * cw, ch)
  | 1, 1 | 1, 2 => (cw, ch)
  | 2, 1 => (2 * cw, h)
  | 3, 0 => (2 * w, h)
  | 4, 0 => (3 * w, h)
  | 5, 0 => (4 * w, h)
  | _, _ => (0, 0)

/-- The planes a format has: their number, offset and pitch. -/
def LayerCfg.planes (c : LayerCfg) : List (Nat × Nat × Nat) :=
  if c.format = 1 then [(0, c.plane0, c.pitch0), (1, c.plane1, c.pitch1), (2, c.plane2, c.pitch1)]
  else if c.format = 0 ∨ c.format = 2 then [(0, c.plane0, c.pitch0), (1, c.plane1, c.pitch1)]
  else [(0, c.plane0, c.pitch0)]

/-- Alpha and components of a pixel of a graphic layer's surface, read from the store as it stands. -/
def State.surfacePixel (s : State) (c : LayerCfg) (x y : Nat) : Nat × Nat × Nat × Nat :=
  let b (o : Nat) : Nat := (s.store.mem.read ((s.window c.window).base + o)).toNat
  match c.format with
  | 0 =>
    let o := c.plane1 + y / 2 * c.pitch1 + x / 2 * 2
    (255, b (c.plane0 + y * c.pitch0 + x) * 16, b o * 16, b (o + 1) * 16)
  | 1 =>
    let o := y / 2 * c.pitch1 + x / 2
    (255, b (c.plane0 + y * c.pitch0 + x) * 16, b (c.plane1 + o) * 16, b (c.plane2 + o) * 16)
  | 2 =>
    let o := c.plane1 + y * c.pitch1 + x / 2 * 2
    (255, b (c.plane0 + y * c.pitch0 + x) * 16, b o * 16, b (o + 1) * 16)
  | 3 =>
    let o := c.plane0 + y * c.pitch0 + 2 * x
    let v := b o + 256 * b (o + 1)
    (255, widen5 (v / 2048), widen6 (v / 32 % 64), widen5 (v % 32))
  | 4 =>
    let o := c.plane0 + y * c.pitch0 + 3 * x
    (255, widen8 (b (o + 2)), widen8 (b (o + 1)), widen8 (b o))
  | _ =>
    let o := c.plane0 + y * c.pitch0 + 4 * x
    (b (o + 3), widen8 (b (o + 2)), widen8 (b (o + 1)), widen8 (b o))

/-! ### Colour conversion (R224–R226) -/

/-- Coefficients of a conversion: nine m_kj, three pre, three post, as R227 lays a slot out. -/
def presetMatrix (code : Nat) : List Int :=
  let m (y crR cbG crG cbB pre : Int) : List Int := [y, 0, crR, y, cbG, crG, y, cbB, 0, pre, 2048, 2048, 0, 0, 0]
  match code with
  | 2 => m 4769 6537 (-1605) (-3330) 8263 256
  | 3 => m 4096 5743 (-1410) (-2925) 7258 0
  | 4 => m 4769 7343 (-873) (-2183) 8652 256
  | 5 => m 4096 6450 (-767) (-1917) 7601 0
  | 6 => m 4769 6876 (-767) (-2664) 8773 256
  | _ => m 4096 6040 (-674) (-2340) 7706 0

/-- One output component of a conversion (R225). -/
def convertRow (m : List Int) (v : Rgb) (k : Nat) : Nat :=
  let c (i : Nat) : Int := m.getD i 0
  let sum := c (3 * k) * (v.1 - c 9) + c (3 * k + 1) * (v.2.1 - c 10) + c (3 * k + 2) * (v.2.2 - c 11)
  clamp12 ((sum + 2048) / 4096 + c (12 + k))

/-- A conversion of three components by coefficients. -/
def convertBy (m : List Int) (v : Rgb) : Rgb := (convertRow m v 0, convertRow m v 1, convertRow m v 2)

/-- The conversion a layer applies, by its resolved code (R224). -/
def convertPixel (code : Nat) (user : List Int) (v : Rgb) : Rgb :=
  if code = 1 then v else if 8 ≤ code then convertBy user v else convertBy (presetMatrix code) v

/-- What AUTO resolves to for a picture (R226). -/
def resolveVideo (code : Nat) (p : Picture) : Nat :=
  if code ≠ 0 then code
  else
    let tall := if 720 ≤ p.height then 4 else 2
    match p.matrix with
    | none => tall
    | some m => (if m = 1 then 4 else if m = 5 ∨ m = 6 then 2 else if m = 9 then 6 else tall) + b2n p.fullRange

/-! ### Key, alpha and blending (R228, R251) -/

/-- Every component, divided by 16, lies within the key's bounds. -/
def keyed (c : LayerCfg) (v : Rgb) : Bool :=
  let within (n sh : Nat) : Bool := decide (c.keyMin.toNat / 2 ^ sh % 256 ≤ n / 16) && decide (n / 16 ≤ c.keyMax.toNat / 2 ^ sh % 256)
  c.key && within v.1 16 && within v.2.1 8 && within v.2.2 0

/-- The blend weight of a pixel whose own alpha is `pa` (R228). -/
def blendWeight (alpha pa : Nat) : Nat := (pa * alpha + 127) / 255

/-- A component blended over another with a weight, straight alpha. -/
def blendStraight (a s d : Nat) : Nat := (a * s + (255 - a) * d + 127) / 255

/-- A component blended over another, premultiplied. -/
def blendPremult (alpha a s d : Nat) : Nat := min 4095 ((alpha * s + (255 - a) * d + 127) / 255)

/-- Three components by one function of two. -/
def rgbZip (f : Nat → Nat → Nat) (a b : Rgb) : Rgb := (f a.1 b.1, f a.2.1 b.2.1, f a.2.2 b.2.2)

/-- A layer's converted pixel, with its own alpha, over the result below it (R228). -/
def blendLayer (c : LayerCfg) (v : Rgb) (pa : Nat) (below : Rgb) : Rgb :=
  if keyed c v then below
  else
    let a := blendWeight c.alpha (if c.pixelAlpha then pa else 255)
    if c.premult then rgbZip (blendPremult c.alpha a) v below else rgbZip (blendStraight a) v below

/-! ### The deckle (R88–R91) -/

/-- A pixel lies on the hatch of a width. -/
def onHatch (x y w : Nat) : Bool := decide ((x + y) % 8 < w)

/-- The deckle over one composed pixel (R89, R90). -/
def deckle (f : FreshCfg) (opaque_ : Bool) (x y : Nat) (d : Rgb) : Rgb :=
  let hatch := onHatch x y f.hatch
  if opaque_ then widenRgb (if hatch then f.deckle.toNat else f.fill.toNat)
  else if hatch then rgbZip (blendStraight f.opacity) (widenRgb f.deckle.toNat) d
  else d

/-! ### The press image (R262) -/

/-- One STATIC layer's pixel over the accumulator: colour and alpha. -/
def flattenStep (c : LayerCfg) (v : Rgb) (pa : Nat) (acc : Rgb × Nat) : Rgb × Nat :=
  if keyed c v then acc
  else
    let a := blendWeight c.alpha (if c.pixelAlpha then pa else 255)
    let w := if c.premult then c.alpha else a
    let comp (s d : Nat) : Nat := min 4095 ((w * s + 127) / 255 + ((255 - a) * d + 127) / 255)
    (rgbZip comp v acc.1, a + ((255 - a) * acc.2 + 127) / 255)

/-- The stored word of a flattened pixel. -/
def pressWord (acc : Rgb × Nat) : BitVec 32 :=
  let c8 (v : Nat) : Nat := (v * 255 + 2047) / 4095
  BitVec.ofNat 32 (acc.2 * 2 ^ 24 + c8 acc.1.1 * 2 ^ 16 + c8 acc.1.2.1 * 2 ^ 8 + c8 acc.1.2.2)

/-- The press image's pixel over the result below it, at scan-out (R262). -/
def blendPress (w : BitVec 32) (below : Rgb) : Rgb :=
  rgbZip (blendPremult 255 (w.toNat / 2 ^ 24)) (widenRgb (w.toNat % 2 ^ 24)) below

/-- A plate entry over a composed pixel (R251). -/
def blendPlate (entry : BitVec 32) (d : Rgb) : Rgb :=
  rgbZip (blendStraight (entry.toNat / 2 ^ 24)) (widenRgb (entry.toNat % 2 ^ 24)) d

/-! ### Output codes and signatures (R97, R281) -/

/-- The output code of a component (R281). -/
def outCode (deep limited : Bool) (c : Nat) : Nat :=
  match deep, limited with
  | false, false => (c * 255 + 2047) / 4095
  | false, true => 16 + (c * 219 + 2047) / 4095
  | true, false => (c * 1023 + 2047) / 4095
  | true, true => 64 + (c * 876 + 2047) / 4095

/-- Three 16-bit little-endian values (R94, R97). -/
def rgbBytes (v : Rgb) : List Byte := leBytes 2 v.1 ++ leBytes 2 v.2.1 ++ leBytes 2 v.2.2

/-- CRC-32C over pixels, each signed as three 16-bit values. -/
def signPixels (l : List Rgb) : BitVec 32 := crc32c (l.flatMap rgbBytes)

end Sys2Proof.Machine
end

