-- ==== Sys2Proof/Machine/Compose.lean ====
section
/-!
DEFINITION. The geometry of layers on heads and the pending configuration every limit is checked against (05_layers.md R210–R223,
R230, R231; 06_flips_plate_press.md R239, R261; 07_heads.md R266, R278, R286).
-/

namespace Sys2Proof.Machine

/-! ### Timing figures (R278, R286, R527) -/

/-- The VPLLs that feed the head synthesisers, in kHz (R524). -/
def vpllKhz : List Nat := [4752000, 4800000, 4950000, 5000000]

/-- The VPLL firmware gives a head: the one for which VPLL / PCLK lies nearest to a whole number, the lowest of equals (R527; the choice among
equals is a DESIGN CHOICE, log entry 80). -/
def Timing.vpll (t : Timing) : Nat :=
  let off (v : Nat) : Nat := min (v % max 1 t.pclk) (max 1 t.pclk - v % max 1 t.pclk)
  let far (i : Nat) : Nat := off (vpllKhz.getD i 0)
  [1, 2, 3].foldl (fun best i => if far i < far best then i else best) 0

def Timing.hTotal (t : Timing) : Nat := t.hActive + t.hFront + t.hSync + t.hBack
def Timing.vTotal (t : Timing) : Nat := t.vActive + t.vFront + t.vSync + t.vBack

/-- The time of `n` lines in ns: n × H total / (PCLK × 1,000) s. -/
def Timing.linesNs (t : Timing) (n : Nat) : Nat := n * t.hTotal * 1000000 / max 1 t.pclk

/-- The nominal frame period in ns. -/
def Timing.periodNs (t : Timing) : Nat := t.linesNs t.vTotal

/-- The head frame rate in Hz. -/
def Timing.rate (t : Timing) : Frac := (t.pclk * 1000, max 1 (t.hTotal * t.vTotal))

/-- The latch line: min(V_ACTIVE − 1, V total − ⌈120 µs / line time⌉). -/
def Timing.latchLine (t : Timing) : Nat := min (t.vActive - 1) (t.vTotal - ceilDiv (120 * t.pclk) (max 1 (t.hTotal * 1000)))

/-- Output leaves of a frame: bands of 16 active lines. -/
def Timing.leaves (t : Timing) : Nat := ceilDiv t.vActive 16

/-! ### The clipped destination (R214) -/

/-- A rectangle by its left, top, right and bottom edges. -/
abbrev Edges := Nat × Nat × Nat × Nat

/-- The destination of a layer cut to the active area, none where nothing is left. -/
def LayerCfg.clip (c : LayerCfg) (t : Timing) : Option Edges :=
  let x0 := max c.dstX 0
  let y0 := max c.dstY 0
  let x1 := min (c.dstX + c.dstW) t.hActive
  let y1 := min (c.dstY + c.dstH) t.vActive
  if x0 < x1 ∧ y0 < y1 then some (x0.toNat, y0.toNat, x1.toNat, y1.toNat) else none

def Edges.width (e : Edges) : Nat := e.2.2.1 - e.1
def Edges.height (e : Edges) : Nat := e.2.2.2 - e.2.1
def Edges.area (e : Edges) : Nat := e.width * e.height

/-- The bounding rectangle of two. -/
def Edges.join (a b : Edges) : Edges := (min a.1 b.1, min a.2.1 b.2.1, max a.2.2.1 b.2.2.1, max a.2.2.2 b.2.2.2)

/-- The bounding rectangle of the STATIC layers of a list (R230, R261). -/
def staticRect (l : List LayerCfg) (t : Timing) : Option Edges :=
  ((l.filter (·.static)).filterMap fun c => c.clip t).foldl (fun a e => match a with | none => some e | some b => some (b.join e)) none

/-! ### The pending configuration (R212, R239) -/

/-- A layer in a configuration. -/
structure LayerView where
  st      : LayerState
  owner   : Nat
  partner : Option Nat
  cfg     : LayerCfg
  deriving DecidableEq, Repr, Inhabited

/-- A configuration: the layers, what counts on each head, and each head's stacking mode. -/
structure View where
  lay  : List LayerView
  on_  : List (List (Nat × LayerCfg))
  mode : List Nat
  deriving DecidableEq, Repr, Inhabited

def View.layer (v : View) (i : Nat) : LayerView := v.lay.getD i default
def View.head (v : View) (h : Nat) : List (Nat × LayerCfg) := v.on_.getD h []

/-- The configuration in force. -/
def State.viewNow (s : State) : View :=
  { lay := s.comp.layer.map fun (x : Layer) => { st := x.st, owner := x.owner, partner := x.partner, cfg := x.cfg }
    on_ := s.comp.head.map fun (h : Head) => h.on_.map fun (x : Shown) => (x.index, x.cfg)
    mode := s.comp.head.map fun (h : Head) => h.mode }

/-- The head a layer is ACTIVE on. -/
def LayerView.head (l : LayerView) : Option Nat := if l.st = .active then l.cfg.head else none

/-- A layer takes a new value. What a folio of another group would take away still counts (R239). -/
def View.set (v : View) (i : Nat) (new : LayerView) (full : Bool) : View :=
  let old := v.layer i
  let on_ := match new.head with
    | some h =>
      if full ∧ old.head = some h then v.on_.modify h fun l => (l.filter fun x => x.1 ≠ i) ++ [(i, new.cfg)]
      else v.on_.modify h fun l => l ++ [(i, new.cfg)]
    | none => match old.head with
      | some h => if full then v.on_.modify h fun l => l.filter fun x => x.1 ≠ i else v.on_
      | none => v.on_
  let lay := if full ∨ new.st ≠ .free then v.lay.modify i fun _ => new else v.lay
  let lay := match old.partner with
    | some p => if full ∧ old.st = .active ∧ new.partner ≠ some p then lay.modify p fun _ => { st := .free, owner := 0, partner := none, cfg := LayerCfg.reset }
      else lay
    | none => lay
  let lay := match new.partner with
    | some p => lay.modify p fun x => { x with st := .held, owner := new.owner, partner := some i }
    | none => lay
  { v with on_ := on_, lay := lay }

/-- The partner of a video layer: the one whose INDEX differs in bit 0 (R222). -/
def partnerOf (i : Nat) : Nat := i ^^^ 1

/-- What a LAYER_SET makes of a layer. -/
def LayerView.ofSet (i colour : Nat) (cfg : LayerCfg) (paired : Bool) : LayerView :=
  { st := if cfg.head.isSome then .active else .idle, owner := colour, partner := if paired then some (partnerOf i) else none, cfg := cfg }

/-- What a LAYER_RELEASE makes of a layer (R235). -/
def LayerView.released (l : LayerView) (free : Bool) : LayerView :=
  if free then { st := .free, owner := 0, partner := none, cfg := LayerCfg.reset }
  else { l with st := .idle, partner := none, cfg := { l.cfg with head := none } }

/-- One entry of the pending configuration applied. -/
def View.apply (v : View) (p : Pend) (full : Bool) : View :=
  match p.change with
  | .layer i cfg paired => v.set i (LayerView.ofSet i p.colour cfg paired) full
  | .release i free => v.set i ((v.layer i).released free) full
  | .blend h mode _ => if full then { v with mode := v.mode.modify h fun _ => mode } else v
  | _ => v

/-- The group has begun to commit. -/
def State.committing (s : State) (g : Nat) : Bool := s.host.cmdq.any fun q => q.groups.any fun x => decide (x.id = g) && !x.doneHeads.isEmpty

/-- The pending configuration as a folio of group `g` is checked against it (R212, R239). -/
def State.view (s : State) (g : Option Nat) : View :=
  s.comp.pend.foldl (fun v p => v.apply p (match p.group with | none => true | some x => decide (g = some x) || s.committing x)) s.viewNow

/-- The indices of the layers that count on a head. -/
def View.layersOn (v : View) (h : Nat) : List Nat := (v.head h).map (·.1) |>.eraseDups

/-- Stacking order, bottom first: in FIXED mode by index, video below graphic; in PROGRAMMED mode by Z first (R229). -/
def below (mode : Nat) (a b : Nat × LayerCfg) : Bool :=
  let za := if mode = 0 then 0 else a.2.z
  let zb := if mode = 0 then 0 else b.2.z
  decide (za < zb) || (decide (za = zb) && decide (a.1 ≤ b.1))

/-- Layers in stacking order. -/
def stackOrder (mode : Nat) (l : List (Nat × LayerCfg)) : List (Nat × LayerCfg) :=
  l.foldl (fun acc x => acc.takeWhile (fun y => below mode y x) ++ [x] ++ acc.dropWhile (fun y => below mode y x)) []

/-- The STATIC layers of a stack lie next to one another (R261). -/
def staticTogether (l : List (Nat × LayerCfg)) : Bool :=
  !((((l.map fun x => x.2.static).dropWhile fun b => !b).dropWhile fun b => b).any fun b => b)

/-- The STATIC layers of a head lie together in a configuration. -/
def View.adjacent (v : View) (h mode : Nat) : Bool :=
  let l := (v.lay.zipIdx.filter fun x => x.1.head = some h).map fun x => (x.2, x.1.cfg)
  staticTogether (stackOrder mode l)

/-! ### Fetch charges (R230, R231) and source rates (R223) -/

/-- Half bytes per pixel of a stored picture format. -/
def PixFmt.half (f : PixFmt) : Nat := if f = .p010 then 6 else 3

/-- Half bytes per pixel of a graphic format (R216). -/
def graphicHalf (format : Nat) : Nat := match format with | 0 | 1 => 3 | 2 | 3 => 4 | 4 => 6 | _ => 8

/-- What this part holds of a context of another member, shared with it now or before. -/
def State.rxOf (s : State) (member c : Nat) : Option RxContext :=
  s.gath.rx.find? fun (x : RxContext) => decide (x.member = member) && decide (x.context = c)

/-- A context of another member that is shared with this one (R209). -/
def State.sharedOf (s : State) (member c : Nat) : Option RxContext := (s.rxOf member c).filter fun x => !x.ended

/-- The stored format of a video layer's source (R216). -/
def State.sourceFmt (s : State) (c : LayerCfg) : PixFmt :=
  if c.srcMember = s.top.gatherId.toNat then (s.ctx c.context).decl.output
  else match s.rxOf c.srcMember c.context with | some x => x.decl.output | none => .nv12

/-- Half bytes per pixel of a video layer's source: the OUTPUT of its context, of the larger where a re-declaration waits, or where a closed context
keeps one for its next opening (R231). -/
def State.sourceHalf (s : State) (c : LayerCfg) : Nat :=
  if c.srcMember = s.top.gatherId.toNat then
    let x := s.ctx c.context
    let kept := match x.kept with | some k => if x.opened then x.decl else k.2 | none => x.decl
    max x.decl.output.half (max (x.next.getD x.decl).output.half kept.output.half)
  else match s.rxOf c.srcMember c.context with | some x => x.decl.output.half | none => 3

/-- Pixels a layer fetches per head frame: its clipped area, or its source in proportion to it. -/
def LayerCfg.pixels (c : LayerCfg) (video : Bool) (t : Timing) : Frac :=
  match c.clip t with
  | none => (0, 1)
  | some e => if video then (c.srcW * c.srcH * e.area, max 1 (c.dstW * c.dstH)) else (e.area, 1)

/-- Half bytes a layer fetches per head frame. -/
def State.layerHalf (s : State) (i : Nat) (c : LayerCfg) (t : Timing) : Frac :=
  if c.static then (0, 1)
  else
    let p := c.pixels (isVideo i) t
    (p.1 * (if isVideo i then s.sourceHalf c else graphicHalf c.format), p.2)

/-- A figure per head frame as one per second, bytes from half bytes. -/
def perSecond (f : Frac) (t : Timing) : Frac := (f.1 * t.rate.1, f.2 * t.rate.2 * 2)

/-- The press charge of a head in bytes per second: 4 bytes per pixel over the STATIC layers' rectangle. -/
def pressCharge (l : List LayerCfg) (t : Timing) : Frac :=
  match staticRect l t with
  | some e => perSecond (e.area * 8, 1) t
  | none => (0, 1)

/-- A head's fetch charges and press charge in bytes per second; a layer that counts more than once counts by its largest. -/
def State.headCharge (s : State) (l : List (Nat × LayerCfg)) (t : Timing) : Frac :=
  let each := (l.map (·.1) |>.eraseDups).map fun i =>
    ((l.filter fun x => x.1 = i).map fun x => s.layerHalf i x.2 t).foldl fracMax (0, 1)
  fracAdd (perSecond (fracSum each) t) (pressCharge (l.map (·.2)) t)

/-- The timings a head has or will have: in force while it is not OFF, and those of folios that have not taken effect. -/
def State.timings (s : State) (h : Nat) : List Timing :=
  let x := s.head h
  (if x.st = .off then [] else [x.timing]) ++ s.comp.pend.filterMap fun p => match p.change with
    | .timing g t => if g = h then some t else none
    | _ => none

/-- No head's charge exceeds 2,500 MB/s in a configuration (R231). -/
def State.chargesOk (s : State) (v : View) (heads : List Nat) : Bool :=
  heads.all fun h => (s.timings h).all fun t => fracLe (s.headCharge (v.head h) t) 2500000000

/-- A layer's source rate in pixels per second stays within its scaler's (R223). -/
def rateOk (c : LayerCfg) (t : Timing) (paired : Bool) : Bool :=
  let p := c.pixels true t
  fracLe (p.1 * t.rate.1, p.2 * t.rate.2) (if paired then 2400000000 else 1200000000)

/-- The width of the clipped destination. -/
def LayerCfg.clipWidth (c : LayerCfg) (t : Timing) : Nat := match c.clip t with | some e => e.width | none => 0

/-! ### Who may configure a head (R265, R266), and what is reserved (R239) -/

/-- A folio of a colour may place a layer on a head. -/
def Head.admits (x : Head) (colour : Nat) : Bool :=
  match x.owner with
  | none => false
  | some o => decide (o = colour) || x.guests.getLsbD colour

/-- The layers a change names. -/
def Change.layers : Change → List Nat
  | .layer i _ _ => [i]
  | .release i _ => [i]
  | .fresh i _ => [i]
  | _ => []

/-- The head a change names. -/
def Change.head : Change → Option Nat
  | .layer _ cfg _ => cfg.head
  | .blend h _ _ => some h
  | .press h => some h
  | _ => none

/-- A staged folio of another group names the layer. -/
def State.layerReserved (s : State) (i : Nat) (g : Option Nat) : Bool :=
  s.comp.pend.any fun p => p.group.isSome && decide (p.group ≠ g) && p.change.layers.contains i

/-- A staged folio of another group names the head. -/
def State.headReserved (s : State) (h : Nat) (g : Option Nat) : Bool :=
  s.comp.pend.any fun p => p.group.isSome && decide (p.group ≠ g) && decide (p.change.head = some h)

/-- A HEAD_STOP of the head has completed, and the head is not yet OFF (R282). -/
def Head.stopped (x : Head) : Bool := x.stopping || x.ending

/-- The flip group a folio is staged in: the one open on its ring, where its opcode is eligible and it was not forwarded (R237). -/
def FCtx.group (c : FCtx) (s : State) : Option Nat :=
  if c.origin.isSome ∨ !eligibleOp c.folio.opcode then none else (s.cmdQ c.slot).groupOpen

/-! ### Leaves and lines of a layer (R62, R83, R84) -/

/-- The leaves that an output line of a video layer uses: those of the luma lines it reads (DEDUCED from the worked examples of chapter 02, where
a 16-line leaf shown 1:1 spans 16 lines although its chroma taps reach further, log entry 65). -/
def Shown.leavesAt (x : Shown) (y : Nat) : List Nat :=
  let c := x.cfg
  if (y : Int) < c.dstY then []
  else ((linesUsed c.vfilter x.vBank ((y : Int) - c.dstY).toNat c.srcH c.dstH).map fun l => (c.srcY + l) / 16).eraseDups

/-- The output lines of a layer's clipped destination. -/
def LayerCfg.lines (c : LayerCfg) (t : Timing) : List Nat :=
  match c.clip t with
  | none => []
  | some e => (List.range e.height).map fun k => e.2.1 + k

/-- The output lines that use a leaf. -/
def Shown.linesOf (x : Shown) (t : Timing) (leaf : Nat) : List Nat := (x.cfg.lines t).filter fun y => (x.leavesAt y).contains leaf

/-- The leaves a layer needs in a frame, by rising index. -/
def Shown.needed (x : Shown) (t : Timing) : List Nat :=
  let all := (x.cfg.lines t).flatMap x.leavesAt
  (List.range ((x.cfg.srcY + x.cfg.srcH) / 16 + 1)).filter fun l => all.contains l

/-- The topmost leaf within the source rectangle (R81). -/
def LayerCfg.topLeaf (c : LayerCfg) : Nat := c.srcY / 16

/-- The pictures a layer's source has: of this part's contexts, or of one received from another member (R209). -/
def State.sourcePics (s : State) (c : LayerCfg) : List Picture :=
  if c.srcMember = s.top.gatherId.toNat then (s.ctx c.context).pics
  else match s.rxOf c.srcMember c.context with | some x => x.pics | none => []

/-- The stream of a layer's source is host-fed (HOSTFED of R66). -/
def State.sourceHostFed (s : State) (c : LayerCfg) : Bool :=
  if c.srcMember = s.top.gatherId.toNat then (s.ctx c.context).cfg.hostFed
  else match s.rxOf c.srcMember c.context with | some x => x.hostFed | none => false

/-- The picture that a selection names. -/
def State.picOf (s : State) (p : SelPic) : Option Picture :=
  let l := if p.member = s.top.gatherId.toNat then (s.ctx p.context).pics
    else match s.rxOf p.member p.context with | some x => x.pics | none => []
  l.find? fun (q : Picture) => q.id = p.pic

/-- A picture qualifies for a layer: its leaf 0 where the clipped destination is empty; its topmost needed leaf with RACE; every
needed leaf without (R81). -/
def qualifies (x : Shown) (t : Timing) (p : Picture) : Bool :=
  let ok (l : Nat) : Bool := decide (l < p.leaves.length) && (p.leaves.getD l Leaf.reset).valid
  let need := x.needed t
  if need.isEmpty then ok 0
  else if x.fresh.race then ok x.cfg.topLeaf
  else (need.filter fun l => decide (l < p.leaves.length)).all ok

/-- The newest picture that qualifies and is not older than the one selected; else the same again (R81). -/
def State.pickFor (s : State) (x : Shown) (t : Timing) (last : Option SelPic) : Option SelPic :=
  let floor := match last with | some l => (match s.picOf l with | some p => p.ord | none => 0) | none => 0
  let cands := (s.sourcePics x.cfg).filter fun (p : Picture) => p.output && decide (floor ≤ p.ord) && qualifies x t p
  let best := cands.foldl (fun (a : Option Picture) p => match a with | none => some p | some b => if b.ord < p.ord then some p else some b) none
  match best with
  | some p => some { SelPic.reset with
      member := x.cfg.srcMember, context := x.cfg.context, pic := p.id, frame := p.frame.getD 0, capture := p.capture
      source := BitVec.ofNat 16 (sourceWord x.cfg.srcMember (s.sourceHostFed x.cfg) x.cfg.context) }
  | none => last

end Sys2Proof.Machine
end

