-- ==== Sys2Proof/Machine/EncPlace.lean ====
section
/-!
DEFINITION. Where encode sessions run: their loads, their placement on the encoders, demotion and restoring (08_encode_record.md
R304, R318–R322), and the demand estimate of the store, which their loads enter (11_store.md R389–R391).
-/

namespace Sys2Proof.Machine

/-! ### Loads (R304) -/

/-- Rate rows of a picture (R302). -/
def EncCfg.rows (k : EncCfg) : Nat := ceilDiv k.srcH 64

/-- A session that an encoder carries: open and not suspended. -/
def EncSession.carried (x : EncSession) : Bool := decide (x.st ≠ .closed) && decide (x.st ≠ .suspended)

/-- The load of a session in pixels per second at its head's frame rate. -/
def EncSession.load (x : EncSession) (rates : List Frac) : Frac :=
  let r := rates.getD x.cfg.head (0, 1)
  if x.carried then (x.cfg.srcW * x.cfg.srcH * r.1, r.2 * max 1 x.eff) else (0, 1)

/-- The frame rates of the heads; a head that is OFF has none. -/
def State.headRates (s : State) : List Frac := s.comp.head.map fun (h : Head) => if h.st = .off then (0, 1) else h.timing.rate

/-- The sessions an encoder carries. -/
def onEncoder (l : List EncSession) (e : Nat) : List EncSession := l.filter fun x => x.carried && decide (x.encoder = e)

/-- The load of an encoder. -/
def encoderLoad (rates : List Frac) (l : List EncSession) (e : Nat) : Frac := fracSum ((onEncoder l e).map fun x => x.load rates)

/-- An encoder carries no more than its limits. -/
def encoderFits (rates : List Frac) (l : List EncSession) (e : Nat) : Bool :=
  decide ((onEncoder l e).length ≤ 8) && fracLe (encoderLoad rates l e) 497664000

/-- The encoders in service. -/
def State.encodersUp (s : State) : List Nat := (List.range 2).filter fun e => !(s.encoder e).isolated

/-! ### The demand estimate (R389, R390) -/

/-- The budget of a store point in MB/s × 10 (R389). -/
def pointBudget (p : Nat) : Nat := if p = 0 then 47250000000 else if p = 1 then 94500000000 else 126000000000

/-- A figure of a list of fractions times a number of bytes. -/
def fracScale (n : Nat) (f : Frac) : Frac := (n * f.1, f.2)

/-- The head charges and press charges of a head, in force or pending, whichever is larger. -/
def State.headDemand (s : State) (v : View) (h : Nat) : Frac :=
  (s.timings h).foldl (fun a t => fracMax a (fracMax (s.headCharge (s.viewNow.head h) t) (s.headCharge (v.head h) t))) (0, 1)

/-- The picture rate of a declaration in pixels per second. -/
def Decl.pixelRate (d : Decl) : Frac := (d.maxW * d.maxH * d.rateNum, max 1 d.rateDen)

/-- The encode loads after demotion. -/
def State.encodeLoad (s : State) : Frac := fracSum (s.enc.session.map fun (x : EncSession) => x.load s.headRates)

/-- The demand without the encode loads. -/
def State.demandRest (s : State) : Frac :=
  let decode := fracSum ((s.dec.ctx.filter fun x => x.placed).map fun x => x.load)
  let v := s.view none
  let heads := fracSum ((List.range 16).map fun h => s.headDemand v h)
  let sent := (s.dec.ctx.filter fun x => x.opened && decide (x.share ≠ 0)).map fun x => x.decl.pixelRate
  let received := (s.gath.rx.filter fun (x : RxContext) => !x.ended).map fun (x : RxContext) => x.decl.pixelRate
  fracSum [fracScale 6 decode, heads, fracScale 3 (fracSum (sent ++ received)), (5000000000, 1)]

/-- The demand estimate D in bytes per second (R390). -/
def State.demand (s : State) : Frac := fracAdd s.demandRest (fracScale 8 s.encodeLoad)

/-- With these sessions a pinned point holds what the machine asks of the store (R391). -/
def State.pinnedFits (s : State) (l : List EncSession) : Bool :=
  match s.store.pinned with
  | none => true
  | some p => fracLe (fracAdd s.demandRest (fracScale 8 (fracSum (l.map fun x => x.load s.headRates)))) (pointBudget p)

/-! ### Demotion (R318) -/

/-- The effective divisor doubles; above 16 the session is suspended. -/
def EncSession.demote (x : EncSession) : EncSession :=
  if 16 < x.eff * 2 then { x with st := .suspended } else { x with eff := x.eff * 2, st := .demoted }

/-- The session that the next step goes to: the highest load, the lower number first. -/
def demotePick (rates : List Frac) (l : List EncSession) (pick : EncSession → Bool) : Option Nat :=
  (l.zipIdx.foldl (fun (a : Option (Nat × Frac)) x =>
    if x.1.carried && pick x.1 then
      match a with
      | none => some (x.2, x.1.load rates)
      | some b => if fracLt b.2 (x.1.load rates) then some (x.2, x.1.load rates) else a
    else a) none).map (·.1)

/-- Demotion steps, among the sessions that `pick` names, until the sessions fit: the sessions, and the steps with the divisor before each,
newest first. -/
def demoteUntil (rates : List Frac) (fits : List EncSession → Bool) (pick : EncSession → Bool) :
    Nat → List EncSession → List (Nat × Nat) → List EncSession × List (Nat × Nat) × Bool
  | 0, l, steps => (l, steps, fits l)
  | n + 1, l, steps =>
    if fits l then (l, steps, true)
    else match demotePick rates l pick with
      | none => (l, steps, false)
      | some i => demoteUntil rates fits pick n (l.modify i EncSession.demote) ((i, (l.getD i EncSession.reset).eff) :: steps)

/-- Steps that are ever needed: 16 sessions, five each. -/
def demoteFuel : Nat := 96

/-- A session put on an encoder. -/
def putOn (l : List EncSession) (i e : Nat) : List EncSession := l.modify i fun x => { x with encoder := e }

/-- The encoder with the least load on which a session fits as things stand; ties go to EE0. -/
def leastFit (rates : List Frac) (l : List EncSession) (i : Nat) (encoders : List Nat) : Option Nat :=
  (encoders.foldl (fun (a : Option (Nat × Frac)) e =>
    if encoderFits rates (putOn l i e) e then
      let load := encoderLoad rates (putOn l i 2) e
      match a with
      | none => some (e, load)
      | some b => if fracLt load b.2 then some (e, load) else a
    else a) none).map (·.1)

/-- A session is placed (R318): the sessions with it, and the demotion steps that made room. -/
def placeSession (rates : List Frac) (l : List EncSession) (i : Nat) (encoders : List Nat) : Option (List EncSession × List (Nat × Nat)) :=
  match leastFit rates l i encoders with
  | some e => some (putOn l i e, [])
  | none =>
    if (l.getD i EncSession.reset).cfg.record then none
    else
      let tries := encoders.filterMap fun e =>
        let r := demoteUntil rates (encoderFits rates · e) (fun x => x.cfg.record && decide (x.encoder = e)) demoteFuel (putOn l i e) []
        if r.2.2 then some (r.1, r.2.1) else none
      tries.foldl (fun (a : Option (List EncSession × List (Nat × Nat))) t =>
        match a with | none => some t | some b => if t.2.length < b.2.length then some t else a) none

/-! ### EV_ENCODE (R322) -/

/-- The code of a picture type (R313). -/
def PicType.code : PicType → Nat
  | .idr => 0 | .p => 1 | .pRefresh => 2

/-- EV_ENCODE on the session's ring. -/
def State.postEncode (s : State) (i kind type_ picture offset length : Nat) : State :=
  let x := s.session i
  s.post x.cfg.ring 0x8800 0 (leBytes 1 i ++ leBytes 1 kind ++ leBytes 1 type_ ++ leBytes 1 x.eff ++ leBytes 4 picture ++ leBytes 4 offset
    ++ leBytes 4 length)

/-- The type of the picture a session codes, or last coded; a step's event names it. -/
def EncSession.typeCode (x : EncSession) : Nat := match x.cur with | some c => c.kind.code | none => if x.keyReq then 0 else 1

/-- A step of demotion is reported: DEMOTED, or SUSPENDED. -/
def State.postStep (s : State) (i : Nat) : State :=
  let x := s.session i
  s.postEncode i (if x.st = .suspended then 5 else 3) x.typeCode x.coded 0 0

/-- The picture in progress is lost: its frame is not coded, and the session goes on with a later one. -/
def EncSession.lost (x : EncSession) : EncSession :=
  match x.cur with
  | some c => { x with cur := none, last := { LastPic.reset with frame := c.frame } }
  | none => x

/-- The rows of sessions that code no picture leave the encoders' queues. -/
def State.dropRows (s : State) : State :=
  { s with enc := { s.enc with ee := s.enc.ee.map fun (e : Encoder) =>
    { e with waiting := e.waiting.filter fun r => (s.session r.session).cur.isSome } } }

/-- A session that is suspended codes no further: the picture in progress is lost, and one that was to end after it has ended (DESIGN CHOICE, log
entry 30). -/
def EncSession.halted (x : EncSession) : EncSession :=
  if x.st ≠ .suspended then x else if x.closing ∧ x.cur.isSome then EncSession.reset else x.lost

/-- The sessions after demotion steps, which come into force and are reported in the order they were taken. -/
def State.takeSteps (s : State) (l : List EncSession) (steps : List (Nat × Nat)) : State :=
  let s := { s with enc := { s.enc with session := l, demotions := steps ++ s.enc.demotions } }
  if steps.isEmpty then s
  else
    let s := (steps.reverse.map (·.1)).foldl State.postStep s
    let l := s.enc.session.map EncSession.halted
    { s with enc := { s.enc with
      session := l, demotions := s.enc.demotions.filter fun d => decide ((l.getD d.1 EncSession.reset).st ≠ EncSt.closed) } }.dropRows

/-! ### Restoring (R319) -/

/-- A session as it was before a step; one that was suspended resumes with a refresh. -/
def EncSession.restore (x : EncSession) (eff : Nat) : EncSession :=
  { x with
    eff := eff, st := if eff ≤ x.cfg.divisor then .coding else .demoted
    keyReq := x.keyReq || decide (x.st = .suspended), joins := if x.st = .suspended then 2 else x.joins }

/-- The newest step undone, if it fits: on the session's own encoder, else on the least loaded one. -/
def restoreOne (rates : List Frac) (l : List EncSession) (encoders : List Nat) (step : Nat × Nat) : Option (List EncSession) :=
  let l := l.modify step.1 fun x => x.restore step.2
  let e := (l.getD step.1 EncSession.reset).encoder
  if encoders.contains e ∧ encoderFits rates l e then some l
  else (leastFit rates l step.1 encoders).map fun e => putOn l step.1 e

/-- Steps are undone in reverse order, as far as capacity allows. -/
def State.restoreSteps (s : State) : List (Nat × Nat) → State
  | [] => s
  | step :: rest =>
    match (restoreOne s.headRates s.enc.session s.encodersUp step).filter s.pinnedFits with
    | none => s
    | some l =>
      let t := { s with enc := { s.enc with session := l, demotions := rest } }
      let x := t.session step.1
      (t.postEncode step.1 4 x.typeCode x.coded 0 0).restoreSteps rest

/-- Firmware restores what it may. -/
def State.restoreSessions (s : State) : State := s.restoreSteps s.enc.demotions

/-! ### Timing changes (R320) -/

/-- A session's rectangle lies in the active area of its head. -/
def EncSession.inside (x : EncSession) (h : Head) : Bool :=
  decide (h.st ≠ .off) && decide (x.cfg.srcX + x.cfg.srcW ≤ h.timing.hActive) && decide (x.cfg.srcY + x.cfg.srcH ≤ h.timing.vActive)

/-- The sessions on some encoders are brought within a limit after a head's timing changed: RECORD sessions give way, then the head's LIVE ones. -/
def State.refit (s : State) (h : Nat) (on : EncSession → Bool) (fits : List EncSession → Bool) : State :=
  let r := demoteUntil s.headRates fits (fun x => x.cfg.record && on x) demoteFuel s.enc.session []
  let q := if r.2.2 then r else
    demoteUntil s.headRates fits (fun x => !x.cfg.record && decide (x.cfg.head = h) && on x) demoteFuel r.1 r.2.1
  s.takeSteps q.1 q.2.1

/-- One encoder within its limits. -/
def State.refitEncoder (s : State) (h e : Nat) : State :=
  s.refit h (fun x => decide (x.encoder = e)) (encoderFits s.headRates · e)

/-- A head's timing has changed, or the head has stopped: its sessions stop or resume, and the encoders are refitted, each to its limits and all
to what a pinned point of the store holds (R391). -/
def State.retimeEncode (s : State) (h : Nat) : State :=
  let s := { s with enc := { s.enc with session := s.enc.session.map fun (x : EncSession) =>
    if x.st ≠ EncSt.closed ∧ x.cfg.head = h then
      let off := !(x.inside (s.head h))
      { x with offRect := off, keyReq := x.keyReq || (x.offRect && !off) }
    else x } }
  let s := s.encodersUp.foldl (fun (t : State) e => t.refitEncoder h e) s
  (s.refit h (fun _ => true) s.pinnedFits).restoreSessions

end Sys2Proof.Machine
end

