-- ==== Sys2Proof/Machine/Demand.lean ====
section
/-!
DEFINITION. What a folio that raises the demand estimate waits for (11_store.md R391).
-/

namespace Sys2Proof.Machine

/-- A folio that raises D above the budget of the point in use (R391): pinned, or too much for point 2, it is refused; else it waits for a
switch up to the lowest point that holds the new D, and its row is carried out again after it. -/
def FRes.guardDemand (r : FRes) (s : State) (encode : Bool) : FRes :=
  match r with
  | .done .ok _ t _ =>
    let load := fracScale 8 (if encode then t.encodeLoad else s.encodeLoad)
    let new := fracAdd t.demandRest load
    if fracLt s.demand new && !fracLe new (pointBudget s.store.point) then
      if s.store.pinned.isSome ∨ !fracLe new (pointBudget 2) then .done .capacity 0 s id
      else .wait (.store (BitVec.ofNat 64 (if fracLe new (pointBudget 1) then 1 else 2))) s
    else r
  | _ => r

/-- D lies at or below 80 % of a point's budget (R391). -/
def lowFor (d : Frac) (p : Nat) : Bool := fracLe (d.1 * 10, d.2 * 8) (pointBudget p)

/-- The times since which D has been low enough for points 0 and 1 are forgotten where it no longer is. -/
def State.noteDemand (s : State) : State :=
  let d := s.demand
  { s with store := { s.store with lowSince := s.store.lowSince.zipIdx.map fun q => if lowFor d q.2 then q.1 else none } }

/-- The state of a completed folio after a look at D. -/
def FRes.noteDemand (r : FRes) : FRes :=
  match r with
  | .done .ok v t after => .done .ok v t.noteDemand after
  | _ => r

/-- A folio's row, where what it asks for may raise D. -/
def State.runRaising (s : State) (slot op : Nat) (encode : Bool) (body : FCtx → State → FRes) : State :=
  s.runFolio slot op fun c t => ((body c t).guardDemand t encode).noteDemand

end Sys2Proof.Machine
end

