-- ==== Sys2Proof/Machine/Layers.lean ====
section
/-!
DEFINITION. Layers: their folios, and how a change enters the pending configuration and takes effect on a head (05_layers.md).
-/

namespace Sys2Proof.Machine

/-! ### Taking effect (R206, R211, R221, R222, R227) -/

/-- The content of a user matrix slot, for a layer that selects one. -/
def State.slotCoef (s : State) (c : LayerCfg) : List Int :=
  if 8 ≤ c.matrix then (s.comp.matrix.getD (c.matrix - 8) MatrixSlot.reset).coef else []

/-- The weights of a filter's bank, horizontal or vertical. -/
def State.bankCoef (s : State) (code : Nat) (vertical : Bool) : List Int :=
  if code < 3 then [] else
    let b := s.comp.bank.getD (code - 3) Bank.reset
    if vertical then b.vcoef else b.hcoef

/-- A layer as a head carries it from now on. -/
def State.shownOf (s : State) (i : Nat) (cfg : LayerCfg) : Shown :=
  { index := i, cfg := cfg, fresh := (s.layer i).fresh, matrix := s.slotCoef cfg, hBank := s.bankCoef cfg.hfilter false
    vBank := s.bankCoef cfg.vfilter true }

/-- A layer that returns to FREE: its settings go, its counters stay. -/
def Layer.freed (x : Layer) : Layer :=
  { x with st := .free, owner := 0, partner := none, cfg := LayerCfg.reset, fresh := FreshCfg.reset, sel := none, failing := false, staleAt := none
           det := .watching, run_ := 0, lastCounted := none }

/-- The partner a layer holds is given up (R222, R235). -/
def State.freePartner (s : State) (i : Nat) (keep : Option Nat) : State :=
  let x := s.layer i
  match x.partner with
  | some p => if x.st = .active ∧ keep ≠ some p then s.modLayer p Layer.freed else s
  | none => s

/-- A layer's own state takes the value a LAYER_SET gives it. A new source means that none of its pictures has qualified (R114). -/
def State.setLayer (s : State) (i colour : Nat) (cfg : LayerCfg) (paired : Bool) : State :=
  let keep := if paired then some (partnerOf i) else none
  let s := s.freePartner i keep
  let s := match keep with
    | some p => s.modLayer p fun x => { x.freed with st := .held, owner := colour, partner := some i }
    | none => s
  s.modLayer i fun x => { x with
    st := if cfg.head.isSome then .active else .idle
    owner := colour, cfg := cfg, partner := keep, failFrames := 0
    sel := if x.cfg.context = cfg.context ∧ x.cfg.srcMember = cfg.srcMember then x.sel else none }

/-- A layer's own state takes the value a LAYER_RELEASE gives it. -/
def State.releaseLayer (s : State) (i : Nat) (free : Bool) : State :=
  (s.freePartner i none).modLayer i fun x =>
    if free then x.freed else { x with st := .idle, partner := none, cfg := { x.cfg with head := none } }

/-- Freshness settings come into force on a layer: a detector that was OFF watches again (R96, R102). -/
def State.setFresh (s : State) (i : Nat) (f : FreshCfg) : State :=
  s.modLayer i fun x => { x with
    fresh := f
    det := if f.freezeN = 0 then .off else if x.det = .off then .watching else x.det
    run_ := if f.freezeN ≠ 0 ∧ x.det = .off then 0 else x.run_ }

/-- A head's list of layers with one of them replaced or taken away. -/
def Head.put (x : Head) (i : Nat) (new : Option Shown) : Head := { x with on_ := (x.on_.filter fun k => k.index ≠ i) ++ new.toList }

/-- A change takes effect on a head, or on none (R211). -/
def State.effect (s : State) (p : Pend) (h : Option Nat) : State :=
  let own := decide (h = p.target) || h.isNone
  match p.change with
  | .layer i cfg paired =>
    let s := if own then s.setLayer i p.colour cfg paired else s
    match h with
    | some g => s.modHead g fun x => x.put i (if cfg.head = some g then some (s.shownOf i cfg) else none)
    | none => s
  | .release i free =>
    let s := if own then s.releaseLayer i free else s
    match h with | some g => s.modHead g fun x => x.put i none | none => s
  | .fresh i f =>
    let s := if own then s.setFresh i f else s
    match h with
    | some g => s.modHead g fun x => { x with on_ := x.on_.map fun k => if k.index = i then { k with fresh := f } else k }
    | none => s
  | .blend h mode bg => s.modHead h fun x => { x with mode := mode, background := bg }
  | .matrix slot =>
    match h with
    | some g => s.modHead g fun x => { x with on_ := x.on_.map fun k => if k.cfg.matrix = 8 + slot then { k with matrix := s.slotCoef k.cfg } else k }
    | none => s
  | .bank b =>
    match h with
    | some g => s.modHead g fun x => { x with on_ := x.on_.map fun k =>
        { k with hBank := if k.cfg.hfilter = 3 + b then s.bankCoef k.cfg.hfilter false else k.hBank
                 vBank := if k.cfg.vfilter = 3 + b then s.bankCoef k.cfg.vfilter true else k.vBank } }
    | none => s
  | .stop h => s.modHead h fun x => { x with ending := true, stopping := false }
  | .press _ | .timing _ _ => s

/-- An entry has taken effect on a head: it leaves the pending configuration with its last one. -/
def State.donePend (s : State) (order : Nat) (h : Nat) : State :=
  { s with comp := { s.comp with pend := (s.comp.pend.map fun (p : Pend) =>
      if p.order = order then { p with heads := p.heads.filter fun g => g ≠ h } else p).filter fun p => !(decide (p.order = order) && p.heads.isEmpty) } }

/-! ### Entering the pending configuration (R211, R212, R237, R287) -/

/-- A completed folio's change enters the pending configuration; outside a group, one that concerns no head takes effect at once. -/
def State.enter (s : State) (c : FCtx) (ch : Change) (heads : List Nat) (target : Option Nat) (flatten : Bool) : State :=
  let g := c.group s
  let p : Pend :=
    { ring := c.ev c.ring, tag := BitVec.ofNat 16 c.tag, seq := c.seq, colour := c.colour, at_ := s.tb.now, order := s.comp.pendNo, group := g
      change := ch, heads := heads, target := target, deferred := if g.isNone then heads.filter fun h => (s.head h).windowOpen else []
      flat := if flatten then heads else [] }
  let s := { s with comp := { s.comp with pendNo := s.comp.pendNo + 1 } }
  if g.isNone ∧ heads.isEmpty then s.effect p none
  else { s with comp := { s.comp with pend := s.comp.pend ++ [p] } }

/-- The heads on which a layer folio takes effect: the one it names, the layer's in the pending configuration, and its in force
(R211). -/
def State.touched (s : State) (old : LayerView) (i : Nat) (head : Option Nat) : List Nat :=
  let now := (List.range 16).filter fun h => (s.head h).on_.any fun k => k.index = i
  (head.toList ++ old.head.toList ++ now).eraseDups

/-! ### LAYER_SET (R207–R210, R213–R215, R219–R224, R231, R261, R263) -/

/-- The index a layer code names (R205). -/
def layerIndex (code : Nat) : Nat := if code < 128 then code else 64 + code % 128

/-- A layer's code (R205). -/
def layerCode (i : Nat) : Nat := if i < 64 then i else 128 + (i - 64)

/-- Bit 6 of a layer code is zero. -/
def codeOk (code : Nat) : Bool := decide (code < 256) && !bitOf code 6

/-- The settings a LAYER_SET carries. -/
def layerCfgOf (c : FCtx) : LayerCfg :=
  let f := c.u 0x13 1
  { head := if c.u 0x11 1 = 0xFF then none else some (c.u 0x11 1), z := c.u 0x12 1
    pair := bitOf f 0, static := bitOf f 1, key := bitOf f 2, pixelAlpha := bitOf f 3, premult := bitOf f 4
    context := c.u 0x14 1, format := c.u 0x15 1, window := c.u 0x16 1, matrix := c.u 0x17 1, hfilter := c.u 0x18 1, vfilter := c.u 0x19 1
    alpha := c.u 0x1A 1, srcMember := c.u 0x1B 1, srcX := c.u 0x1C 2, srcY := c.u 0x1E 2, srcW := c.u 0x20 2, srcH := c.u 0x22 2
    dstX := c.i 0x24 2, dstY := c.i 0x26 2, dstW := c.u 0x28 2, dstH := c.u 0x2A 2
    plane0 := c.u 0x2C 4, plane1 := c.u 0x30 4, plane2 := c.u 0x34 4, pitch0 := c.u 0x38 2, pitch1 := c.u 0x3A 2, surfW := c.u 0x3C 2, surfH := c.u 0x3E 2
    keyMin := BitVec.ofNat 32 (c.u 0x40 4), keyMax := BitVec.ofNat 32 (c.u 0x44 4), ring := c.u 0x48 1 }

/-- A ratio lies from 1/4 to 8 (R219). -/
def ratioOk (src dst : Nat) : Bool := decide (src ≤ 4 * dst) && decide (dst ≤ 8 * src)

/-- The ranges common to both kinds of layer (R213, R219). -/
def layerRanges (c : FCtx) (k : LayerCfg) : Bool :=
  codeOk (c.u 0x10 1) && (decide (c.u 0x11 1 < 16) || decide (c.u 0x11 1 = 0xFF)) && decide (k.z < 12) && decide (c.u 0x13 1 < 32)
    && decide (k.matrix < 24) && decide (16 ≤ k.srcW) && decide (16 ≤ k.srcH) && decide (-8192 ≤ k.dstX) && decide (k.dstX ≤ 8191)
    && decide (-8192 ≤ k.dstY) && decide (k.dstY ≤ 8191) && decide (1 ≤ k.dstW) && decide (1 ≤ k.dstH) && decide (k.keyMin.toNat < 2 ^ 24)
    && decide (k.keyMax.toNat < 2 ^ 24) && decide (k.ring < 32) && ratioOk k.srcW k.dstW && ratioOk k.srcH k.dstH

/-- MAX_W and MAX_H of a layer's context, none for a context of another member that is not shared. -/
def State.sourceMax (s : State) (k : LayerCfg) : Option (Nat × Nat) :=
  if k.srcMember = s.top.gatherId.toNat then some ((s.ctx k.context).decl.maxW, (s.ctx k.context).decl.maxH)
  else (s.sharedOf k.srcMember k.context).map fun x => (x.decl.maxW, x.decl.maxH)

/-- The four source values are even. -/
def LayerCfg.evenSource (k : LayerCfg) : Bool := decide (k.srcX % 2 = 0) && decide (k.srcY % 2 = 0) && decide (k.srcW % 2 = 0) && decide (k.srcH % 2 = 0)

/-- R214 for a video layer. -/
def State.videoOk (s : State) (k : LayerCfg) : Bool :=
  decide (k.context < 64) && decide (k.hfilter < 11) && decide (k.vfilter < 11) && decide (k.srcMember < 8) && !k.static && !k.pixelAlpha
    && decide (k.format = 0) && decide (k.window = 0) && decide (k.plane0 = 0) && decide (k.plane1 = 0) && decide (k.plane2 = 0) && decide (k.pitch0 = 0)
    && decide (k.pitch1 = 0) && decide (k.surfW = 0) && decide (k.surfH = 0) && k.evenSource
    && (match s.sourceMax k with
        | some m => decide (k.srcX + k.srcW ≤ m.1) && decide (k.srcY + k.srcH ≤ m.2)
        | none => true)

/-- A plane of a surface lies wholly within a window of a size, with lines no longer than its pitch (R214). -/
def planeOk (k : LayerCfg) (size : Option Nat) (p : Nat × Nat × Nat) : Bool :=
  let need := planeNeed k.format p.1 k.surfW k.surfH
  decide (p.2.1 % 256 = 0) && decide (p.2.2 % 256 = 0) && decide (need.1 ≤ p.2.2)
    && (match size with
        | some n => decide (p.2.1 + p.2.2 * (need.2 - 1) + need.1 ≤ n)
        | none => true)

/-- R214 for a graphic layer; its planes are checked against a window mapped to the folio's colour only. -/
def State.graphicOk (s : State) (colour : Nat) (k : LayerCfg) : Bool :=
  let size := if s.winOk k.window colour then some (s.window k.window).size.toNat else none
  let packed := decide (3 ≤ k.format)
  decide (k.format < 6) && decide (k.window < 8) && !k.pair && (!k.pixelAlpha || decide (k.format = 5)) && decide (k.dstW = k.srcW)
    && decide (k.dstH = k.srcH) && decide (k.context = 0) && decide (k.hfilter = 0) && decide (k.vfilter = 0) && decide (k.srcMember = 0)
    && decide (16 ≤ k.surfW) && decide (k.surfW ≤ 8192) && decide (16 ≤ k.surfH) && decide (k.surfH ≤ 8192) && decide (k.srcX + k.srcW ≤ k.surfW)
    && decide (k.srcY + k.srcH ≤ k.surfH) && (decide (k.format = 1) || decide (k.plane2 = 0)) && (!packed || (decide (k.plane1 = 0) && decide (k.pitch1 = 0)))
    && (decide (2 ≤ k.format) || k.evenSource) && (decide (k.format ≠ 2) || (decide (k.srcX % 2 = 0) && decide (k.srcW % 2 = 0)))
    && !(packed && decide (2 ≤ k.matrix) && decide (k.matrix < 8)) && k.planes.all (planeOk k size)

/-- A video layer's source, or a graphic layer's window, is of the folio's colour (R208). -/
def State.sourceColour (s : State) (colour i : Nat) (k : LayerCfg) : Bool :=
  if isVideo i then
    if k.srcMember = s.top.gatherId.toNat then (s.ctx k.context).everOpened && decide ((s.ctx k.context).owner = colour)
    else match s.sharedOf k.srcMember k.context with | some x => decide (x.colour = colour) | none => true
  else s.winOk k.window colour

/-- A matrix slot or bank that a layer selects is of the folio's colour, or has no owner yet. -/
def State.tablesColour (s : State) (colour : Nat) (k : LayerCfg) : Bool :=
  let mine (o : Option Nat) : Bool := match o with | some x => decide (x = colour) | none => true
  (decide (k.matrix < 8) || mine (s.comp.matrix.getD (k.matrix - 8) MatrixSlot.reset).owner)
    && (decide (k.hfilter < 3) || mine (s.comp.bank.getD (k.hfilter - 3) Bank.reset).owner)
    && (decide (k.vfilter < 3) || mine (s.comp.bank.getD (k.vfilter - 3) Bank.reset).owner)

/-- Slot and banks have been written (R221, R227). -/
def State.tablesLoaded (s : State) (k : LayerCfg) : Bool :=
  (decide (k.matrix < 8) || (s.comp.matrix.getD (k.matrix - 8) MatrixSlot.reset).owner.isSome)
    && (decide (k.hfilter < 3) || (s.comp.bank.getD (k.hfilter - 3) Bank.reset).owner.isSome)
    && (decide (k.vfilter < 3) || (s.comp.bank.getD (k.vfilter - 3) Bank.reset).owner.isSome)

/-- The press image of a head stays within its region (R263). -/
def pressFits (l : List (Nat × LayerCfg)) (t : Timing) : Bool :=
  match staticRect (l.map (·.2)) t with | some e => decide (e.area ≤ 9437184) | none => true

/-- The pair partner may be joined (R222). -/
def View.partnerFree (v : View) (i : Nat) : Bool :=
  let p := v.layer (partnerOf i)
  decide (p.st = .free) || (decide (p.st = .held) && decide (p.partner = some i))

/-- LAYER_SET (R213). -/
def bodyLayerSet (c : FCtx) (s : State) : FRes :=
  let i := layerIndex (c.u 0x10 1)
  let k := layerCfgOf c
  let video := isVideo i
  let g := c.group s
  let v := s.view g
  let old := v.layer i
  let ts := match k.head with | some h => s.timings h | none => []
  let width := (ts.map k.clipWidth).foldl max 0
  let paired := video && k.pair && decide (5120 < width) && decide (width ≤ 10240)
  let new := LayerView.ofSet i c.colour k paired
  let v' := v.set i new true
  let admitted := match k.head with | some h => (s.head h).admits c.colour | none => true
  let running := match k.head with | some h => !(s.head h).stopped | none => true
  let flatten := (old.head.isSome && old.cfg.static) || (k.head.isSome && k.static)
  .checks [
      (layerRanges c k && (if video then s.videoOk k else s.graphicOk c.colour k), .param),
      ((decide (old.st = .free) || decide (old.owner = c.colour)) && s.sourceColour c.colour i k && admitted && s.tablesColour c.colour k
        && evOk c s k.ring, .colour),
      ((!video || (s.sourceMax k).isSome) && s.tablesLoaded k && running
        && (match k.head with | some h => v'.adjacent h (v'.mode.getD h 0) | none => true), .state),
      (decide (old.st ≠ .held) && !s.layerReserved i g, .busy),
      (match k.head with
        | some h => decide ((v'.layersOn h).length ≤ 12) && ts.all (pressFits (v'.head h))
        | none => true, .nospace),
      (match k.head with
        | some h => s.chargesOk v' [h] && (!video || ts.all fun t => rateOk k t paired)
        | none => true, .capacity),
      (!video || decide (width ≤ 5120) || (paired && v.partnerFree i), .linebuf)] s <|
    .ok (s.enter c (.layer i { k with ring := c.ev k.ring } paired) (s.touched old i k.head) ((s.touched old i k.head).head?) flatten)

/-! ### LAYER_RELEASE, HEAD_BLEND (R229, R235) -/

/-- LAYER_RELEASE (R235). -/
def bodyLayerRelease (c : FCtx) (s : State) : FRes :=
  let i := layerIndex (c.u 0x10 1)
  let g := c.group s
  let old := (s.view g).layer i
  let heads := s.touched old i none
  .checks [(codeOk (c.u 0x10 1) && decide (c.u 0x11 1 < 2), .param), (decide (old.st = .free) || decide (old.owner = c.colour), .colour),
      (decide (old.st ≠ .free), .state), (decide (old.st ≠ .held) && !s.layerReserved i g, .busy)] s <|
    .ok (s.enter c (.release i (bitOf (c.u 0x11 1) 0)) heads heads.head? (old.head.isSome && old.cfg.static))

/-- HEAD_BLEND (R229). -/
def bodyHeadBlend (c : FCtx) (s : State) : FRes :=
  let h := c.u 0x10 1
  let mode := c.u 0x11 1
  let g := c.group s
  .checks [(decide (h < 16) && decide (mode < 2) && decide (c.u 0x12 2 = 0) && decide (c.u 0x14 4 < 2 ^ 24), .param),
      (decide ((s.head h).owner = some c.colour), .colour), (!(s.head h).stopped && (s.view g).adjacent h mode, .state),
      (!s.headReserved h g, .busy)] s <|
    .ok (s.enter c (.blend h mode (BitVec.ofNat 24 (c.u 0x14 4))) [h] (some h) false)

/-! ### COLOUR_MATRIX, SCALER_COEF (R221, R227) -/

/-- Some layer selects a matrix slot, in force or in the pending configuration. -/
def State.slotUsed (s : State) (slot : Nat) : Bool :=
  let uses (k : LayerCfg) : Bool := decide (k.matrix = 8 + slot)
  s.comp.layer.any (fun (x : Layer) => decide (x.st ≠ .free) && uses x.cfg) || s.comp.head.any (fun (h : Head) => h.on_.any fun x => uses x.cfg)
    || (s.view none).lay.any (fun l => decide (l.st ≠ .free) && uses l.cfg) || (s.view none).on_.any fun l => l.any fun x => uses x.2

/-- The heads with a layer that a table's new content reaches at their next window. -/
def State.headsUsing (s : State) (uses : LayerCfg → Bool) : List Nat :=
  (List.range 16).filter fun h => (s.head h).on_.any fun x => uses x.cfg

/-- COLOUR_MATRIX (R227). The changed slot reaches a head whose STATIC layers select it with a new press image (R264). -/
def bodyColourMatrix (c : FCtx) (s : State) : FRes :=
  let slot := c.u 0x10 1
  let free := bitOf (c.u 0x11 1) 0
  let x := s.comp.matrix.getD slot MatrixSlot.reset
  let m := (List.range 9).map fun k => c.i (0x14 + 2 * k) 2
  let offs := (List.range 6).map fun k => c.i (0x26 + 2 * k) 2
  .checks [(decide (slot < 16) && decide (c.u 0x11 1 < 2) && decide (c.u 0x12 2 = 0)
          && (free || offs.all fun v => decide (-4096 ≤ v) && decide (v ≤ 4095)), .param),
      (decide (x.owner = none) || decide (x.owner = some c.colour), .colour), (!free || x.owner.isSome, .state),
      (!(free && s.slotUsed slot), .busy)] s <|
    if free then .ok { s with comp := { s.comp with matrix := s.comp.matrix.modify slot fun _ => MatrixSlot.reset } }
    else
      let s := { s with comp := { s.comp with matrix := s.comp.matrix.modify slot fun _ => { owner := some c.colour, coef := m ++ offs } } }
      let users (k : LayerCfg) : Bool := decide (k.matrix = 8 + slot)
      let flat := s.headsUsing fun k => users k && k.static
      let rest := (s.headsUsing users).filter fun h => !flat.contains h
      let s := if rest.isEmpty then s else s.enter c (.matrix slot) rest none false
      .ok (if flat.isEmpty then s else s.enter c (.matrix slot) flat none true)

/-- A 16-bit weight whose upper four bits repeat its sign bit. -/
def weightOk (w : Nat) : Bool := decide (w / 2 ^ 11 = 0) || decide (w / 2 ^ 11 = 31)

/-- The weights of a table of 64 phases. -/
def tableOf (bs : List Byte) (taps : Nat) : List Nat := (List.range (64 * taps)).map fun k => leNat ((bs.drop (2 * k)).take 2)

/-- Every weight is a sign-extended 12-bit value, and every phase sums to 1,024 (R220, R221). -/
def tableOk (t : List Nat) (taps : Nat) : Bool :=
  t.all weightOk && (List.range 64).all fun p =>
    decide ((((t.drop (p * taps)).take taps).map (signedOf 16)).foldl (· + ·) (0 : Int) = 1024)

/-- SCALER_COEF (R221). The window's bytes are read before they can be judged, so E_COLOUR for the window comes before E_PARAM for the weights, and
that for the bank's owner after it. -/
def bodyScalerCoef (c : FCtx) (s : State) : FRes :=
  let b := c.u 0x10 1
  let w := c.u 0x12 1
  let off := c.u 0x14 4
  let x := s.comp.bank.getD b Bank.reset
  let hs := tableOf (s.winRead w off 1024) 8
  let vs := tableOf (s.winRead w (off + 1024) 768) 6
  .checks [(decide (b < 8) && decide (w < 8) && decide (off % 256 = 0), .param),
      (s.winOk w c.colour && s.winSpan w off 1792 false, .colour), (tableOk hs 8 && tableOk vs 6, .param),
      (decide (x.owner = none) || decide (x.owner = some c.colour), .colour), (!s.winDamaged w off 1792, .fault)] s <|
    let s := { s with comp := { s.comp with bank := s.comp.bank.modify b fun _ =>
      { owner := some c.colour, hcoef := hs.map (signedOf 16), vcoef := vs.map (signedOf 16) } } }
    let heads := s.headsUsing fun k => decide (k.hfilter = 3 + b) || decide (k.vfilter = 3 + b)
    .ok (if heads.isEmpty then s else s.enter c (.bank b) heads none false)

/-! ### LAYER_STATE (R236, R300) -/

/-- A fraction's whole part, in thousands, held to 32 bits. -/
def kilo (f : Frac) : Nat := sat 32 (f.1 / (max 1 f.2 * 1000))

/-- The layers in force on a head, bottom first. -/
def Head.stack (x : Head) : List (Nat × LayerCfg) := stackOrder x.mode (x.on_.map fun k => (k.index, k.cfg))

/-- The block of a layer. -/
def State.layerBlock (s : State) (i : Nat) : List Byte :=
  let x := s.layer i
  let k := x.cfg
  let st := match x.st with | .free => 0 | .idle => 1 | .active => 2 | .held => 3
  let counters := [(0x18, leBytes 4 x.framesFetched), (0x1C, leBytes 4 x.lateBands), (0x20, leBytes 4 x.faultBands), (0x24, leBytes 4 x.shortFrames)]
  let partner := match x.partner with | some p => layerCode p | none => 0xFF
  let pend := s.comp.pend.any fun p => p.change.layers.contains i
  let head := (s.head (k.head.getD 0))
  let t := head.timing
  let active := decide (x.st = .active)
  let charge := if active then kilo (perSecond (s.layerHalf i k t) t) else 0
  let src := k.pixels (isVideo i) t
  let fmt := if isVideo i then (match s.sourceFmt k with | .p010 => 0xFF | .i420 => 1 | .nv12 => 0) else k.format
  let conv := if k.matrix ≠ 0 then k.matrix else if isVideo i then x.resolved else resolveGraphic 0 k.format
  layout 256 ([(0x00, leBytes 1 st), (0x01, leBytes 1 x.owner), (0x02, leBytes 1 (if active then k.head.getD 0xFF else 0xFF)), (0x03, leBytes 1 partner),
      (0x04, leBytes 1 (b2n pend))]
    ++ (if x.st = .idle ∨ x.st = .active then
        [(0x05, leBytes 1 (if active then head.stack.findIdx fun y => decide (y.1 = i) else 0)), (0x06, leBytes 1 conv), (0x07, leBytes 1 fmt),
         (0x08, leBytes 4 charge), (0x0C, leBytes 4 (if active && isVideo i then kilo (src.1 * t.rate.1, src.2 * t.rate.2) else 0)),
         (0x10, leBytes 4 (k.srcW * 65536 / max 1 k.dstW)), (0x14, leBytes 4 (k.srcH * 65536 / max 1 k.dstH))]
       else [])
    ++ counters)

/-- The block of a head. -/
def State.stackBlock (s : State) (h : Nat) : List Byte :=
  let x := s.head h
  let l := x.stack
  let t := x.timing
  let on := decide (x.st ≠ .off)
  let charge (l : List (Nat × LayerCfg)) : Nat := if on then kilo (s.headCharge l t) else 0
  let codes := l.map fun y => layerCode y.1
  layout 256 [(0x00, leBytes 1 l.length), (0x01, leBytes 1 x.mode), (0x04, leBytes 4 (charge l)),
    (0x08, leBytes 4 (if on then kilo (pressCharge (l.map (·.2)) t) else 0)), (0x0C, leBytes 4 (charge ((s.view none).head h))),
    (0x10, ((codes ++ List.replicate 12 0xFF).take 12).flatMap (leBytes 1))]

/-- Who may read a head's state back: its owner and guests, or the admin colour for a head with no owner (R300). -/
def State.headReader (s : State) (c : FCtx) (h : Nat) : Bool :=
  if (s.head h).owner.isNone then isAdmin c s else (s.head h).admits c.colour

/-- Who may read a layer's state back (R300). -/
def State.layerReader (s : State) (c : FCtx) (i : Nat) : Bool :=
  if (s.layer i).st = .free then isAdmin c s else decide ((s.layer i).owner = c.colour)

/-- LAYER_STATE (R236). -/
def bodyLayerState (c : FCtx) (s : State) : FRes :=
  let kind := c.u 0x10 1
  let n := c.u 0x11 1
  let w := c.u 0x12 1
  let off := c.u 0x14 4
  let b := blockChecks c s w off 256
  .checks ((decide (kind < 2) && (if kind = 0 then codeOk n else decide (n < 16)), .param) :: b.take 1
      ++ [((if kind = 0 then s.layerReader c (layerIndex n) else s.headReader c n), .colour)] ++ b.drop 1) s
    (writeBlock s w off (if kind = 0 then s.layerBlock (layerIndex n) else s.stackBlock n))

/-- SCALER_COEF (R221). -/
def execScalerCoef (dt ring : Nat) (s : State) : Out := .next ((s.elapse dt).runFolio ring 0x0403 bodyScalerCoef)

/-- HEAD_BLEND (R229). -/
def execHeadBlend (dt ring : Nat) (s : State) : Out := .next ((s.elapse dt).runFolio ring 0x0404 bodyHeadBlend)

/-- LAYER_STATE (R236). -/
def execLayerState (dt ring : Nat) (s : State) : Out := .next ((s.elapse dt).runFolio ring 0x0405 bodyLayerState)

end Sys2Proof.Machine
end

