-- ==== Sys2Proof/Machine/Ports.lean ====
section
/-!
DEFINITION. DisplayPort ports: configuration, link training, routing, time slots and payload (07_heads.md R268–R276, R299).
-/

namespace Sys2Proof.Machine

/-! ### Routing (R270, R279) -/

/-- The timings that route a head to a port, in force or completed and not yet in effect. -/
def State.routeTimings (s : State) (p h : Nat) : List Timing := (s.timings h).filter fun t => t.port = some p

/-- The heads routed to a port. -/
def State.routed (s : State) (p : Nat) : List Nat := (List.range 16).filter fun h => !(s.routeTimings p h).isEmpty

/-! ### Stream rates and slots (R273) -/

/-- A head's stream rate in kbit/s. -/
def Timing.streamRate (t : Timing) : Frac := (t.pclk * (if t.deep then 30 else 24) * 1006, 1000)

/-- A port's payload rate in kbit/s: 1 is HBR3, 2 is UHBR10. -/
def payloadRate (code : Nat) : Frac := if code = 1 then (25920000, 1) else (40000000 * 128, 132)

/-- Time slots a stream takes at a rate. -/
def Timing.slots (t : Timing) (code : Nat) : Nat :=
  let r := t.streamRate
  let p := payloadRate code
  ceilDiv (r.1 * 64 * p.2) (r.2 * p.1)

/-- A stream fits a whole link in SST. -/
def Timing.fitsSst (t : Timing) (code : Nat) : Bool := !fracLt (payloadRate code) t.streamRate

/-- A RATE setting allows a rate. -/
def rateAllows (rate code : Nat) : Bool := decide (code ≠ 0) && (decide (rate = 0) || decide (rate = code))

/-- The rate a port is checked at under a RATE setting: the one it last trained at if allowed, else the highest allowed. -/
def Port.checkedRate (x : Port) (rate : Nat) : Nat := if rateAllows rate x.lastRate then x.lastRate else if rate = 1 then 1 else 2

/-- The heads on a port fit, each with the larger of the slots it holds and those it asked for. -/
def State.fits (s : State) (p mode rate : Nat) (extra : Option (Nat × Timing)) : Bool :=
  let code := (s.dpPort p).checkedRate rate
  let ts (h : Nat) : List Timing := s.routeTimings p h ++ (match extra with | some e => if e.1 = h then [e.2] else [] | none => [])
  let all := (List.range 16).map ts
  if mode = 1 then all.all fun l => l.all fun t => t.fitsSst code
  else decide ((all.map fun l => (l.map fun t => t.slots code).foldl max 0).sum ≤ 63)

/-! ### EV_PORT (R276) -/

/-- The code of a port state. -/
def PortSt.code : PortSt → Nat
  | .off => 0 | .down => 1 | .training => 2 | .up => 3 | .muted => 4

/-- Bits of a list of units. -/
def bitsOf (l : List Nat) : Nat := (l.map fun h => 2 ^ h).foldl (· ||| ·) 0

/-- EV_PORT on the port's ring. -/
def State.postPort (s : State) (p cause : Nat) : State :=
  let x := s.dpPort p
  let heads := s.routed p
  let frame (k : Nat) : Nat := match heads[k]? with | some h => (s.head h).frame.toNat | none => 0
  s.post x.ring 0x8700 0 (leBytes 1 p ++ leBytes 1 x.st.code ++ leBytes 1 cause ++ leBytes 1 x.trained ++ leBytes 2 (bitsOf heads) ++ leBytes 2 0
    ++ leBytes 4 (frame 0) ++ leBytes 4 (frame 1))

/-! ### Payload (R274, R275, R277) -/

/-- The trained topology has a sink where a stream points. -/
def Port.hasSink (x : Port) (mstPort : Nat) : Bool :=
  match x.branch with
  | none => decide (mstPort = 0)
  | some b => decide (mstPort ≠ 0) && b.getLsbD mstPort

/-- The heads whose timing in force sends to a port, by STREAM place. -/
def State.senders (s : State) (p : Nat) : List Nat :=
  let on (k h : Nat) : Bool := decide ((s.head h).st ≠ .off) && decide ((s.head h).timing.port = some p) && decide ((s.head h).timing.stream = k)
  (List.range 16).filter (on 0) ++ (List.range 16).filter (on 1)

/-- Why a head gets no payload: none where it gets it, with the slots it then takes. Those of the place before it are given. -/
def State.payloadOf (s : State) (p h before : Nat) : Option Nat × Nat :=
  let x := s.dpPort p
  let t := (s.head h).timing
  if x.mode = 1 then (if t.fitsSst x.trained then (none, 0) else (some 8, 0))
  else if !x.hasSink t.mstPort then (some 9, 0)
  else
    let n := t.slots x.trained
    if before + n ≤ 63 then (none, n) else (some 8, n)

/-- Payload of the heads on a port is allocated anew; a head that loses it, or that newly asks in vain, is reported. -/
def State.grant (s : State) (p : Nat) (asks : List Nat) : State :=
  if (s.dpPort p).st ≠ .up then
    (s.senders p).foldl (fun t h => t.modHead h fun x => { x with payload := false, slots := 0 }) s
  else
    ((s.senders p).foldl (fun (a : State × Nat) h =>
      let had := (a.1.head h).payload
      match a.1.payloadOf p h a.2 with
      | (none, n) => (a.1.modHead h fun x => { x with payload := true, slots := n }, a.2 + n)
      | (some cause, n) =>
        let t := a.1.modHead h fun x => { x with payload := false, slots := 0 }
        (if had || asks.contains h then t.postPort p cause else t, a.2 + n)) (s, 0)).1

/-! ### Port states (R271) -/

/-- A port enters a state: its lanes follow, payload is given up outside UP, and EV_PORT says why. -/
def State.portTo (s : State) (p : Nat) (st : PortSt) (cause : Nat) : State :=
  let s := s.modDpPort p fun x => { x with
    st := st
    trained := if st = .up then x.trained else 0
    tries := if st = .training then 0 else x.tries
    trainAt := if st = .training then s.tb.now else x.trainAt }
  let s := (s.quadUser p).postPort p cause
  if st = .up then s.linkBack p else s.grant p []

/-- A link is lost: the port trains again at once (R272). -/
def State.portLost (s : State) (p : Nat) : State :=
  if (s.dpPort p).st = .up then (s.modDpPort p fun x => { x with lost := sat 32 (x.lost + 1) }).portTo p .training 3 else s

/-- Every port is muted (R271), or unmuted again. -/
def State.mutePorts (s : State) : State :=
  (List.range 8).foldl (fun t p => if (t.dpPort p).st = .off then t else t.portTo p .muted 6) { s with twin := { s.twin with muted := true } }
def State.unmutePorts (s : State) : State :=
  (List.range 8).foldl (fun t p => if (t.dpPort p).st = .muted then t.portTo p .training 7 else t) { s with twin := { s.twin with muted := false } }

/-! ### HPD and training (R271, R272) -/

/-- HPD_HIGH: a DOWN port starts training; on any other the level is sampled (R271, R297). -/
def execHpdHigh (dt p : Nat) (s : State) : Out :=
  let s := (s.elapse dt).modDpPort p fun x => { x with hpd := true }
  .next (if p < 8 ∧ (s.dpPort p).st = .down then s.portTo p .training 1 else s)

/-- HPD_LOW: HPD has been low for 2 ms (R271). -/
def execHpdLow (dt p : Nat) (s : State) : Out :=
  let s := (s.elapse dt).modDpPort p fun x => { x with hpd := false }
  let st := (s.dpPort p).st
  .next (if p < 8 ∧ (st = .training ∨ st = .up) then s.portTo p .down 2 else s)

/-- HPD_SHORT_PULSE: counted, and a link whose DPCD status reports lost lock or failed alignment is lost (R272). A port that does not
act on its HPD only samples it (R297). -/
def execHpdShortPulse (dt p : Nat) (linkOk : Bool) (s : State) : Out :=
  let s := (s.elapse dt).modDpPort p fun x => if x.st = .off then x else { x with pulses := sat 32 (x.pulses + 1) }
  .next (if p < 8 ∧ !linkOk then s.portLost p else s)

/-- The attempts of one training in order: rates that RATE allows and the DPCD offers, three times each, the higher first. -/
def attemptsOf (rate : Nat) (offers : BitVec 2) : List Nat :=
  (if rateAllows rate 2 && offers.getLsbD 1 then [2, 2, 2] else []) ++ (if rateAllows rate 1 && offers.getLsbD 0 then [1, 1, 1] else [])

/-- TRAINING_DONE: an attempt ends; the port goes UP and gives its heads payload, tries again, or goes DOWN (R271, R274, R277). -/
def execTrainingDone (dt p : Nat) (r : TrainIn) (s : State) : Out :=
  let s := s.elapse dt
  let x := s.dpPort p
  if 8 ≤ p ∨ x.st ≠ .training then .next s
  else
    let l := attemptsOf x.rate r.rates
    let us := (s.tb.now - x.trainAt) / 1000
    let s := s.modDpPort p fun x => { x with dpcd := r.dpcd, sinkRates := r.rates, lttprs := r.lttprs, edid := r.edid.take 1024 }
    match l[x.tries]? with
    | none => .next ((s.modDpPort p fun x => { x with trainUs := us }).portTo p .down 4)
    | some code =>
      let s := s.modDpPort p fun x => { x with attempts := sat 32 (x.attempts + 1), tryRate := code, tries := x.tries + 1 }
      if r.ok then
        let s := s.modDpPort p fun x => { x with
          trained := code, lastRate := code, branch := r.branch, topology := true, trainUs := us, txDelay := r.txDelay }
        let s := s.portTo p .up 5
        .next (s.grant p (s.senders p))
      else if x.tries + 1 < l.length then .next s
      else .next ((s.modDpPort p fun x => { x with trainUs := us }).portTo p .down 4)

/-! ### PORT_CONFIG (R268, R270) -/

/-- PORT_CONFIG (R270). -/
def bodyPortConfig (c : FCtx) (s : State) : FRes :=
  let p := c.u 0x10 1
  let mode := c.u 0x11 1
  let rate := c.u 0x12 1
  let ring := c.u 0x13 1
  let f := c.u 0x14 1
  let x := s.dpPort p
  let heads := s.routed p
  .checks [(decide (p < 8) && decide (mode < 3) && decide (rate < 3) && decide (ring < 32) && decide (f < 2) && decide (c.u 0x15 3 = 0), .param),
      ((decide (x.owner = none) || decide (x.owner = some c.colour)) && evOk c s ring, .colour),
      (!(decide (mode = 1) && (decide (2 ≤ heads.length) || heads.any fun h => (s.routeTimings p h).any fun t => decide (t.stream = 1))), .state),
      (!(decide (mode = 0) && !heads.isEmpty), .busy), (decide (mode = 0) || s.fits p mode rate none, .capacity)] s <|
    let retrain := decide (x.mode ≠ mode) || decide (x.rate ≠ rate) || decide (x.spread ≠ bitOf f 0)
    let s := s.modDpPort p fun x => { x with
      owner := if mode = 0 then none else some c.colour
      mode := mode, rate := rate, ring := c.ev ring, spread := bitOf f 0 }
    .done .ok 0 s fun t =>
      if mode = 0 then (if x.st = .off then t else t.portTo p .off 0)
      else match x.st with
        | .off =>
          if t.twin.muted then t.portTo p .muted 0
          else
            let t := t.portTo p .down 0
            if x.hpd then t.portTo p .training 1 else t
        | .training | .up => if retrain then t.portTo p .training 0 else t
        | .down => if retrain ∧ x.hpd then t.portTo p .training 0 else t
        | .muted => t

/-- PORT_CONFIG (R270). -/
def execPortConfig (dt ring : Nat) (s : State) : Out := .next ((s.elapse dt).runFolio ring 0x0710 bodyPortConfig)

/-! ### PORT_SINK (R299, R300) -/

/-- The five blocks of a port. -/
def State.sinkBlocks (s : State) (p : Nat) : List Byte :=
  let x := s.dpPort p
  let used := ((s.senders p).map fun h => (s.head h).slots).sum
  layout 256 [(0x00, leBytes 1 x.st.code), (0x01, leBytes 1 (x.owner.getD 0xFF)), (0x02, leBytes 1 x.trained), (0x03, leBytes 1 x.mode),
      (0x04, leBytes 1 (b2n x.hpd)), (0x05, leBytes 1 x.dpcd), (0x06, leBytes 1 x.sinkRates.toNat), (0x07, leBytes 1 x.lttprs),
      (0x08, leBytes 2 (bitsOf (s.routed p))), (0x0A, leBytes 1 used), (0x0C, leBytes 4 x.attempts), (0x10, leBytes 4 x.lost),
      (0x14, leBytes 4 (sat 32 x.trainUs)), (0x18, leBytes 4 (sat 32 x.txDelay)), (0x1C, leBytes 2 x.edid.length), (0x20, leBytes 4 x.pulses)]
    ++ padTo 1024 x.edid

/-- PORT_SINK (R299). -/
def bodyPortSink (c : FCtx) (s : State) : FRes :=
  let p := c.u 0x10 1
  let w := c.u 0x12 1
  let off := c.u 0x14 4
  let b := blockChecks c s w off 1280
  let reader := match (s.dpPort p).owner with | some o => decide (o = c.colour) | none => isAdmin c s
  .checks ((decide (p < 8), .param) :: b.take 1 ++ [(reader, .colour)] ++ b.drop 1) s
    (writeBlock s w off (s.sinkBlocks p))

/-- PORT_SINK (R299). -/
def execPortSink (dt ring : Nat) (s : State) : Out := .next ((s.elapse dt).runFolio ring 0x0711 bodyPortSink)

end Sys2Proof.Machine
end

