-- ==== Sys2Proof/Machine/TwinState.lean ====
section
/-!
DEFINITION. The states of a twin part, their signals and events, and what the rules of the election and the takeover watch
(13_gathering_twin.md R467–R471, R481; 10_ordering_recovery.md R364).
-/

namespace Sys2Proof.Machine

/-! ### Signals and events -/

/-- Link T is silent: lost, or not authenticated (R467). -/
def State.tSilent (s : State) : Bool := decide ((s.spineLink 2).st ≠ 2)

/-- The pair is in sync, as R471 asks while link T is authenticated. -/
def State.synced (s : State) : Bool := s.twin.inSync && !s.tSilent

/-- Byte 0x02 of TWIN_STATE (R480). -/
def State.twinSignals (s : State) : Nat :=
  b2n s.synced + 2 * b2n (!s.twin.secondary) + 4 * b2n s.twin.hbSilent + 8 * b2n s.tSilent + 16 * b2n s.twin.claimLow

/-- EV_TWIN on the rings that watch the twin (R481). -/
def State.twinEvent (s : State) (kind : Nat) : State :=
  s.postAll (watchers s.gath.watch 1) 0x8C20
    (leBytes 1 kind ++ leBytes 1 s.twin.st.code ++ leBytes 1 s.twinSignals ++ List.replicate 5 0 ++ leBytes 8 s.tb.dev)

/-- A change of `TOP.ROLE` or `TOP.LEAD` shows in `TOP.CHANGE` bit 2, and a change of role in EV_TWIN (R349, R481). -/
def State.noteRole (s old : State) : State :=
  let s := if s.role ≠ old.role then s.twinEvent 0 else s
  if s.role ≠ old.role ∨ s.isLead ≠ old.isLead then s.change 0b000100 else s

/-- A mismatch of the signals is reported, at most once per 10 s for each kind (R470). -/
def State.disagree (s : State) (kind : Nat) : State :=
  if s.since (s.twin.disagreeAt.getD kind none) 10000000000 then
    { s with twin := { s.twin with
      disagreeAt := s.twin.disagreeAt.modify kind fun _ => some s.tb.now, disagree := sat 32 (s.twin.disagree + 1) } }.twinEvent 3
  else s

/-! ### Being in sync (R364, R471) -/

/-- What a CMD ring's folios wait for of the mirror is waited for no longer (R364). -/
def State.absorbMirror (s : State) : State :=
  let s := (List.range 32).foldl (fun (t : State) r =>
    (t.modRing r fun x => { x with deviceIndex := x.deviceIndex + BitVec.ofNat 32 (t.cmdQ r).unmirrored }).modCmdQ r fun q => { q with unmirrored := 0 }) s
  { s with host := { s.host with evtq := s.host.evtq.map fun (q : EvtQ) => { q with hold := q.hold.map fun (h : Held) => { h with acks := 0 } } } }

/-- The pair comes to be in sync. -/
def State.gainSync (s : State) : State :=
  if s.twin.inSync then s else { s with twin := { s.twin with inSync := true, syncSince := some s.tb.now } }.twinEvent 1

/-- The pair is no longer in sync. -/
def State.loseSync (s : State) : State :=
  if !s.twin.inSync then { s with twin := { s.twin with snapshot := false } }
  else
    let span := match s.twin.syncSince with | some t => s.tb.now - t | none => 0
    ({ s with twin := { s.twin with inSync := false, snapshot := false, syncSince := none, syncNs := s.twin.syncNs + span } }.absorbMirror).twinEvent 2

/-! ### Entering a state (R468, R470) -/

/-- The ring state of the part is discarded: every ring DISABLED, nothing held, staged or queued. -/
def State.dropRings (s : State) : State :=
  { s with
    host := { s.host with rings := HostIf.reset.rings, cmdq := HostIf.reset.cmdq, evtq := HostIf.reset.evtq, stmq := HostIf.reset.stmq }
    comp := { s.comp with pend := s.comp.pend.filter fun p => p.group.isNone } }

/-- The claim in progress is given up: CLAIM released if this part pulled it. -/
def State.dropClaim (s : State) : State :=
  { s with twin := { s.twin with
    senior := none, checkAt := none, forTakeover := false, forced := false, aloneClaim := false
    claimLow := if s.twin.pulling then false else s.twin.claimLow, pulling := false } }

/-- The desk of a part that comes to be a standby: nothing is driven, and the panels stand by. -/
def Desk.standBy (d : Desk) : Desk :=
  { d with
    panel := d.panel.map fun (p : Panel) => if p.st = .off then p else { p with st := .standby }
    output := d.output.map fun (x : ConOut) => { x with hiZ := true } }

/-- STANDBY: ports MUTED, the ring state discarded until the mirror replaces it. -/
def State.enterStandby (s : State) : State :=
  let t := (s.dropClaim.dropRings.loseSync).mutePorts
  ({ t with desk := t.desk.standBy, twin := { t.twin with st := .standby, activeN := false } }).noteRole s

/-- ELECTING once more, as a part fresh from reset: every ring disabled, every head OFF; the plate and its nonce stay. -/
def State.enterElecting (s : State) : State :=
  let t := s.dropClaim.dropRings.loseSync
  ({ t with
    comp := { Comp.reset with nonce := s.comp.nonce, plate := s.comp.plate }
    dec := Dec.reset, enc := Enc.reset, desk := Desk.reset
    twin := { t.twin with st := .electing, muted := true } }).noteRole s

/-! ### What the signals call for (R469, R470) -/

/-- The SENIOR delay in ns. -/
def State.seniorNs (s : State) : Nat := if s.twin.secondary then 500000 else 0

/-- The SENIOR delay starts, unless a claim is in progress. -/
def State.startSenior (s : State) (takeover alone : Bool) : State :=
  if s.twin.senior.isSome ∨ s.twin.checkAt.isSome then s
  else { s with twin := { s.twin with senior := some (s.tb.now + s.seniorNs), forTakeover := takeover, aloneClaim := alone, forced := false } }

/-- A part in ELECTING (R469). -/
def State.elect (s : State) : State :=
  if s.twin.claimLow && !s.twin.pulling then s.enterStandby
  else if s.twin.pulling || s.twin.forced then s
  else if s.twin.hbSilent ≠ s.tSilent then s.dropClaim.disagree (if s.twin.hbSilent then 1 else 2)
  else if !s.twin.claimReleased then s.dropClaim
  else if s.twin.hbSilent then s.startSenior false true
  else if s.twin.partner = some .active then s.dropClaim.disagree 3
  else if s.twin.partner.isSome then s.startSenior false false
  else s.dropClaim

/-- A standby (R470). -/
def State.standBy (s : State) : State :=
  if s.twin.hbSilent && s.tSilent then
    if s.twin.claimReleased then (if s.twin.inSync then s.startSenior true false else s.enterElecting.elect)
    else if s.twin.claimLow && !s.twin.pulling then s.dropClaim.disagree 0 else s
  else
    let s := if s.twin.pulling then s else s.dropClaim
    if s.twin.hbSilent then s.disagree 1
    else if s.tSilent then s.disagree 2
    else if s.twin.claimReleased && decide (s.twin.partner = some .active) then s.disagree 3 else s

/-- All three conditions of a takeover hold: HB_IN and link T silent, and CLAIM released (R470). -/
def State.partnerGone (s : State) : Bool := s.twin.hbSilent && s.tSilent && s.twin.claimReleased

/-- The time since which all three conditions hold; a claim in progress keeps it. -/
def State.noteLoss (s : State) : State :=
  if s.twin.pulling then s
  else { s with twin := { s.twin with lostAt := if s.partnerGone then some (s.twin.lostAt.getD s.tb.now) else none } }

/-- What a part does when a signal of its partner changes (R469, R470). -/
def State.twinCheck (s₀ : State) : State :=
  let s := s₀.noteLoss
  match s.twin.st with
  | .electing => s.elect
  | .standby => s.standBy
  | .active => if s.twin.partnerSeen && decide (s.twin.hbSilent ≠ s.tSilent) then s.disagree (if s.twin.hbSilent then 1 else 2) else s
  | .starting | .yielding => s

/-! ### Giving up (R467, R475, R483) -/

/-- YIELDING: ports muted, HB_OUT stopped, the links idle, CLAIM and ACTIVE_N released, every driven ball as in reset. -/
def State.yieldNow (s : State) : State :=
  let t := s.mutePorts.dropClaim
  let t := { t with
    net := { t.net with ports := t.net.ports.map fun (p : NetPort) => { p with link := false } }
    gath := { t.gath with link := t.gath.link.map fun (l : SpineLink) => { l with st := 0 } }
    desk := t.desk.standBy }
  ({ t with twin := { t.twin with st := .yielding, hbOut := false, linkIdle := true, activeN := false, yieldAt := some s.tb.now } }).noteRole s

/-- An active part whose islands named have failed gives up where its standby is in sync and reports no lasting fault of them;
without such a standby it stays, and says so (R475). -/
def State.giveUp (s : State) (islands : List Nat) : State :=
  if s.twin.st ≠ .active then s
  else if s.synced && islands.all (fun i => !s.twin.partnerLasting.contains i) then s.yieldNow
  else s.twinEvent 4

/-! ### READY (R412 steps 6 and 7, R468) -/

/-- Firmware runs and the store is wiped: the islands start, STORE runs at a pinned point, READY is set and the part starts its election. -/
def State.bootDone (s : State) : State :=
  if !s.pwr.booted || s.top.wiping || s.top.ready then s
  else
    let p := s.store.pinned.getD s.store.point
    (({ s.storeAt p (TimingSet.ofDie p) with
      top := { s.top with ready := true }
      twin := { s.twin with st := .electing } }).change 0b000001).twinCheck

end Sys2Proof.Machine
end

