-- ==== Sys2Proof/Machine/Ageing.lean ====
section
/-!
DEFINITION. How an island's ageing is measured and its voltage planned (15_clocks_power_ageing.md R537–R540, R542). Everything is
exact arithmetic on whole numbers; only what the spec reports is rounded, down.
-/

namespace Sys2Proof.Machine

/-! ### Temperature (R535, R540) -/

/-- The readings of a sensor in the last 24 h. -/
def State.dayTemps (s : State) (sensor : Nat) : List Int :=
  ((s.pwr.tempLog.getD sensor []).filter fun x => decide (s.tb.now < x.1 + 86400000000000)).map (·.2)

/-- The mean temperature of an island's sensor over the last 24 h, in whole °C (DESIGN CHOICE, log entry 43). -/
def State.meanTemp (s : State) (i : Nat) : Int :=
  let l := s.dayTemps (s.pwr.nearest.getD i 0)
  if l.isEmpty then s.pwr.temp.getD (s.pwr.nearest.getD i 0) 25 else (l.foldl (· + ·) 0).fdiv (l.length : Int)

/-! ### The life of an island (R540) -/

/-- The effective degradation D_E in ppm: the pairs' D, or the voltage rise where it runs ahead of D by more than 20 mV. -/
def effectiveDrift (vInit vPlan drift : Nat) : Nat :=
  if 4 * drift + 20000 < (vPlan - vInit) * 1000 then (vPlan - vInit) * 250 else drift

/-- 30,000 ppm to the fourth, the denominator of every age. -/
def lifeDen : Nat := 30000 ^ 4

/-- The equivalent age t_E in hours. -/
def ageHours (vInit vPlan drift : Nat) : Nat := 15 * 8766 * effectiveDrift vInit vPlan drift ^ 4 / lifeDen

/-- The remaining margin at +95 °C, R_95, in units of 15 years / 30,000^4. -/
def margin95 (vInit vPlan drift : Nat) : Nat := ((835 - vInit) * 250) ^ 4 - effectiveDrift vInit vPlan drift ^ 4

/-- R_95 in tenths of a year. -/
def margin95Tenths (vInit vPlan drift : Nat) : Nat := 150 * margin95 vInit vPlan drift / lifeDen

/-- `k` tenths of a year are no more than the margin at temperature `t`: R_95 / 2^((t − 95) / 10), to the tenth power. -/
def withinMargin (vInit vPlan drift : Nat) (t : Int) (k : Nat) : Bool :=
  decide ((k * lifeDen) ^ 10 * 2 ^ (t - 95).toNat ≤ (150 * margin95 vInit vPlan drift) ^ 10 * 2 ^ (95 - t).toNat)

/-- The largest number under 2^n that a test that falls once passes, found from its top bit down. -/
def largestBelow (test : Nat → Bool) : Nat → Nat → Nat
  | 0, acc => acc
  | n + 1, acc => largestBelow test n (if test (acc + 2 ^ n) then acc + 2 ^ n else acc)

/-- The remaining margin at current conditions in tenths of a year, held at two bytes. -/
def marginNowTenths (vInit vPlan drift : Nat) (t : Int) : Nat := largestBelow (withinMargin vInit vPlan drift t) 16 0

/-- That of an island. -/
def State.marginNow (s : State) (i : Nat) : Nat :=
  let x := s.island i
  marginNowTenths x.vInit x.vPlan x.drift (s.meanTemp i)

/-- The smallest of all islands, as the health report carries it (R540). -/
def State.leastMargin (s : State) : Nat := min 255 (((List.range 43).map s.marginNow).foldl min 255)

/-! ### Measuring and planning (R537–R539) -/

/-- A sensor pair's degradation in whole ppm. -/
def pairDrift (p : PairIn) : Int := (((p.unstressed : Int) - p.stressed) * 1000000).fdiv (p.unstressed : Int) - p.offset

/-- The island's degradation: the largest of its pairs, not below 0. -/
def driftOf (pairs : List PairIn) : Nat := (pairs.foldl (fun (a : Int) p => max a (pairDrift p)) 0).toNat

/-- V_PLAN of an island takes a step: MARGIN at most once per hour and island; at the ceiling, EXHAUSTED once per day and bit 13 (R539). -/
def State.planStep (s : State) (i : Nat) (step : Int) : State :=
  let x := s.island i
  let want := (x.vPlan : Int) + step
  let v := min 860 (max x.vInit want.toNat)
  let s := s.modIsland i fun y => { y with
    vPlan := v, raises := if x.vPlan < v then sat 16 (y.raises + 1) else y.raises, lowers := if v < x.vPlan then sat 16 (y.lowers + 1) else y.lowers }
  let s := if v = x.vPlan then s
    else
      let due := s.since (s.pwr.marginAt.getD i none) 3600000000000
      let t := s.powerEvent 5 i v due
      if due then { t with pwr := { t.pwr with marginAt := t.pwr.marginAt.modify i fun _ => some t.tb.now } } else t
  if want ≤ 860 then s
  else
    let due := s.since (s.pwr.exhaustedAt.getD i none) 86400000000000
    let t := s.powerEvent 7 i 0 due
    let t := if due then { t with pwr := { t.pwr with exhaustedAt := t.pwr.exhaustedAt.modify i fun _ => some t.tb.now } } else t
    { t with pwr := { t.pwr with clockLasting := true } }.refreshFaults

/-- What a canary slack calls for (R539): the first condition of its table that holds. -/
def State.judgeSlack (s : State) (i : Nat) (slack : Int) : State :=
  let x := s.island i
  let s := s.modIsland i fun y => { y with slack := slack, recheck := decide (slack < 25) }
  let s := if slack ≤ 45 then s.modIsland i fun y => { y with aboveSince := none } else s
  if slack < 0 then
    ((s.modIsland i fun y => { y with canaryFails := sat 16 (y.canaryFails + 1) }).planStep i 10).fault 10 i 0 0 0
  else if slack < 25 then s.planStep i 5
  else if slack ≤ 45 then s
  else
    let from_ := x.aboveSince.getD s.tb.now
    if from_ + 86400000000000 ≤ s.tb.now then (s.modIsland i fun y => { y with aboveSince := some s.tb.now }).planStep i (-5)
    else s.modIsland i fun y => { y with aboveSince := some from_ }

/-- MARGIN_LOW where less than a year is left at +95 °C, once per day and island (R540). -/
def State.judgeMargin (s : State) (i : Nat) : State :=
  let x := s.island i
  if lifeDen ≤ 15 * margin95 x.vInit x.vPlan x.drift then s
  else
    let due := s.since (s.pwr.marginLowAt.getD i none) 86400000000000
    let t := s.powerEvent 6 i 0 due
    if due then { t with pwr := { t.pwr with marginLowAt := t.pwr.marginLowAt.modify i fun _ => some t.tb.now } } else t

/-- AGEING_MEASURE: firmware counts an island's pairs, finds its canary slack and re-plans V_PLAN (R537–R540). -/
def execAgeingMeasure (dt island : Nat) (pairs : List PairIn) (slack : Int) (s : State) : Out :=
  let s := s.elapse dt
  if !s.pwr.booted ∨ 43 ≤ island ∨ pairs.isEmpty ∨ (s.island island).power = .off then .next s
  else .next (((s.modIsland island fun x => { x with drift := driftOf pairs, measuredAt := s.tb.now }).judgeSlack island slack).judgeMargin island)

/-- MARGIN_RECHECK: a slack below 25 mV is measured again after 1 s (R539). -/
def execMarginRecheck (dt island : Nat) (slack : Int) (s : State) : Out :=
  let s := s.elapse dt
  if (s.island island).recheck then .next ((s.judgeSlack island slack).judgeMargin island) else .next s

/-! ### MARGIN_STATE (R542) -/

/-- The block of an island's margin. -/
def State.marginBlock (s : State) (i : Nat) : List Byte :=
  let x := s.island i
  layout 256 [(0, leBytes 1 i), (2, leBytes 2 x.vInit), (4, leBytes 2 x.vPlan), (6, leBytes 2 860), (8, leBytes 2 (wordOf 16 x.slack)),
    (0x0A, leBytes 2 (sat 16 (4 * x.drift / 1000))), (0x0C, leBytes 4 (sat 32 x.drift)), (0x10, leBytes 4 (sat 32 (ageHours x.vInit x.vPlan x.drift))),
    (0x14, leBytes 2 (sat 16 (margin95Tenths x.vInit x.vPlan x.drift))), (0x16, leBytes 2 (s.marginNow i)),
    (0x18, leBytes 1 (wordOf 8 (s.meanTemp i))), (0x1A, leBytes 2 x.raises), (0x1C, leBytes 2 x.lowers), (0x1E, leBytes 2 x.canaryFails)]

/-- MARGIN_STATE. -/
def bodyMarginState (c : FCtx) (s : State) : FRes :=
  let i := c.u 0x11 1
  .checks ((decide (i < 43), .param) :: blockChecks c s (c.u 0x12 1) (c.u 0x14 4) 256) s (writeBlock s (c.u 0x12 1) (c.u 0x14 4) (s.marginBlock i))

/-- MARGIN_STATE (R542). -/
def execMarginState (dt ring : Nat) (s : State) : Out := .next ((s.elapse dt).runFolio ring 0x0E03 bodyMarginState)

end Sys2Proof.Machine
end

