-- ==== Sys2Proof/Machine/Inflate.lean ====
section
/-!
DEFINITION. The raw DEFLATE format of RFC 1951 as the compression engines read it, with the errors that R583 names, and the stored
blocks they write (17_faults_replay.md R578–R583). Everything is structural on lists or on a bound.
-/

namespace Sys2Proof.Machine

/-! ### Bits -/

/-- The bits of bytes, least significant first (RFC 1951, 3.1.1). -/
def bitsOfBytes (bs : List Byte) : List Bool := bs.flatMap fun b => (List.range 8).map fun i => b.getLsbD i

/-- `n` bits as a number, least significant first, and what follows. -/
def takeBits : Nat → List Bool → Option (Nat × List Bool)
  | 0, bs => some (0, bs)
  | _ + 1, [] => none
  | n + 1, b :: bs => match takeBits n bs with | some (v, rest) => some (b2n b + 2 * v, rest) | none => none

/-! ### Codes (RFC 1951, 3.2.2) -/

/-- A code word: its length, its value and its symbol. -/
abbrev CodeWord := Nat × Nat × Nat

/-- The first code of each length, from the count of the lengths below it. -/
def firstCode (lens : List Nat) : Nat → Nat
  | 0 => 0
  | n + 1 => (firstCode lens n + (if n = 0 then 0 else (lens.filter (· = n)).length)) * 2

/-- The code that a set of lengths spells. -/
def codesOf (lens : List Nat) : List CodeWord :=
  (List.range 15).flatMap fun k =>
    let n := k + 1
    let syms := (lens.zipIdx.filter fun x => x.1 = n).map (·.2)
    syms.zipIdx.map fun x => (n, firstCode lens n + x.2, x.1)

/-- What the lengths use up of the codes of 15 bits. -/
def kraft (lens : List Nat) : Nat := (lens.map fun n => if n = 0 then 0 else 2 ^ (15 - n)).foldl (· + ·) 0

/-- A set of lengths is complete and not over-subscribed. -/
def completeSet (lens : List Nat) : Bool := decide (kraft lens = 2 ^ 15)

/-- A distance set may also hold one code of one bit, or none (RFC 1951, 3.2.7). -/
def distanceSet (lens : List Nat) : Bool := completeSet lens || (lens.filter (· ≠ 0) == [1]) || (lens.filter (· ≠ 0)).isEmpty

/-- What reading a symbol gives. -/
inductive SymRead where
  | sym (n : Nat) (rest : List Bool)
  | truncated
  | none
  deriving DecidableEq, Repr, Inhabited

/-- The next symbol of a code, of at most `fuel` more bits. -/
def readSym (codes : List CodeWord) : Nat → Nat → Nat → List Bool → SymRead
  | 0, _, _, _ => .none
  | _ + 1, _, _, [] => .truncated
  | fuel + 1, len, acc, b :: bs =>
    let v := 2 * acc + b2n b
    match codes.find? fun c => c.1 = len + 1 ∧ c.2.1 = v with
    | some c => .sym c.2.2 bs
    | none => readSym codes fuel (len + 1) v bs

/-! ### Blocks (RFC 1951, 3.2.3–3.2.7) -/

/-- Where a decompression stands: bits left, bytes written newest first, room left, the error it stopped at, the longest distance that a match has
reached back, and whether a block had dynamic codes. -/
structure Inflate where
  bits : List Bool
  out  : List Byte
  room : Nat
  err  : Nat
  far  : Nat
  dyn  : Bool
  deriving DecidableEq, Repr, Inhabited

/-- It stops at an error (R583). -/
def Inflate.stop (x : Inflate) (e : Nat) : Inflate := { x with err := e }

/-- Bytes are copied one by one from a distance back, while there is room. -/
def Inflate.copy : Nat → Nat → Inflate → Inflate
  | 0, _, x => x
  | n + 1, d, x =>
    if x.room = 0 then x.stop 7
    else Inflate.copy n d { x with out := x.out.getD (d - 1) 0 :: x.out, room := x.room - 1 }

/-- Length codes 257–285 and distance codes 0–29: base and extra bits. -/
def lengthBase : List (Nat × Nat) :=
  [(3, 0), (4, 0), (5, 0), (6, 0), (7, 0), (8, 0), (9, 0), (10, 0), (11, 1), (13, 1), (15, 1), (17, 1), (19, 2), (23, 2), (27, 2), (31, 2),
   (35, 3), (43, 3), (51, 3), (59, 3), (67, 4), (83, 4), (99, 4), (115, 4), (131, 5), (163, 5), (195, 5), (227, 5), (258, 0)]
def distanceBase : List (Nat × Nat) :=
  [(1, 0), (2, 0), (3, 0), (4, 0), (5, 1), (7, 1), (9, 2), (13, 2), (17, 3), (25, 3), (33, 4), (49, 4), (65, 5), (97, 5), (129, 6), (193, 6),
   (257, 7), (385, 7), (513, 8), (769, 8), (1025, 9), (1537, 9), (2049, 10), (3073, 10), (4097, 11), (6145, 11), (8193, 12), (12289, 12),
   (16385, 13), (24577, 13)]

/-- A length and distance after their length symbol, and the copy they call for. -/
def Inflate.match_ (x : Inflate) (sym : Nat) (dist : List CodeWord) : Inflate :=
  let l := lengthBase.getD (sym - 257) (0, 0)
  match takeBits l.2 x.bits with
  | none => x.stop 6
  | some (e, bits) =>
    match readSym dist 15 0 0 bits with
    | .truncated => x.stop 6
    | .none => { x with bits := bits }.stop 4
    | .sym ds bits =>
      if 30 ≤ ds then { x with bits := bits }.stop 4
      else
        let d := distanceBase.getD ds (0, 0)
        match takeBits d.2 bits with
        | none => x.stop 6
        | some (f, bits) =>
          let x := { x with bits := bits }
          if x.out.length < d.1 + f then x.stop 5 else Inflate.copy (l.1 + e) (d.1 + f) { x with far := max x.far (d.1 + f) }

/-- Symbols of a block until its end, at most `fuel` of them. -/
def Inflate.symbols (lit dist : List CodeWord) : Nat → Inflate → Inflate
  | 0, x => x.stop 6
  | fuel + 1, x =>
    match readSym lit 15 0 0 x.bits with
    | .truncated => x.stop 6
    | .none => x.stop 4
    | .sym n bits =>
      let x := { x with bits := bits }
      if n = 256 then x
      else if n < 256 then
        if x.room = 0 then x.stop 7
        else Inflate.symbols lit dist fuel { x with out := BitVec.ofNat 8 n :: x.out, room := x.room - 1 }
      else if 286 ≤ n then x.stop 4
      else
        let y := x.match_ n dist
        if y.err ≠ 0 then y else Inflate.symbols lit dist fuel y

/-- The order of the code lengths of the code-length code. -/
def clOrder : List Nat := [16, 17, 18, 0, 8, 7, 9, 6, 10, 5, 11, 4, 12, 3, 13, 2, 14, 1, 15]

/-- `n` numbers of 3 bits. -/
def takeThrees : Nat → List Bool → Option (List Nat × List Bool)
  | 0, bs => some ([], bs)
  | n + 1, bs => match takeBits 3 bs with
    | none => none
    | some (v, bs) => match takeThrees n bs with | some (l, rest) => some (v :: l, rest) | none => none

/-- Code lengths up to a count, read with the code-length code; the lengths so far, newest first. Gives them, or the error. -/
def readLengths (codes : List CodeWord) (count : Nat) : Nat → List Nat → List Bool → (Nat × List Nat × List Bool)
  | 0, acc, bits => (6, acc, bits)
  | fuel + 1, acc, bits =>
    if acc.length = count then (0, acc, bits)
    else match readSym codes 15 0 0 bits with
      | .truncated => (6, acc, bits)
      | .none => (4, acc, bits)
      | .sym n rest =>
        if n < 16 then readLengths codes count fuel (n :: acc) rest
        else
          let r : Nat × Nat × Nat := if n = 16 then (2, 3, acc.headD 0) else if n = 17 then (3, 3, 0) else (7, 11, 0)
          if n = 16 ∧ acc = [] then (4, acc, rest)
          else match takeBits r.1 rest with
            | none => (6, acc, rest)
            | some (e, rest) =>
              if count < acc.length + r.2.1 + e then (4, acc, rest)
              else readLengths codes count fuel (List.replicate (r.2.1 + e) r.2.2 ++ acc) rest

/-- The fixed codes (RFC 1951, 3.2.6). -/
def fixedLit : List CodeWord :=
  codesOf (List.replicate 144 8 ++ List.replicate 112 9 ++ List.replicate 24 7 ++ List.replicate 8 8)
def fixedDist : List CodeWord := codesOf (List.replicate 32 5)

/-- A block with dynamic codes. -/
def Inflate.dynamic (x : Inflate) : Inflate :=
  match takeBits 5 x.bits with
  | none => x.stop 6
  | some (hlit, b1) => match takeBits 5 b1 with
    | none => x.stop 6
    | some (hdist, b2) => match takeBits 4 b2 with
      | none => x.stop 6
      | some (hclen, b3) => match takeThrees (hclen + 4) b3 with
        | none => x.stop 6
        | some (l, b4) =>
          let cl := (List.range 19).map fun i => match (clOrder.zip l).find? fun p => p.1 = i with | some p => p.2 | none => 0
          if !completeSet cl then { x with bits := b4 }.stop 3
          else
            let r := readLengths (codesOf cl) (hlit + 257 + hdist + 1) 400 [] b4
            let lens := r.2.1.reverse
            let y := { x with bits := r.2.2 }
            if r.1 ≠ 0 then y.stop r.1
            else if !completeSet (lens.take (hlit + 257)) || !distanceSet (lens.drop (hlit + 257)) then y.stop 3
            else y.symbols (codesOf (lens.take (hlit + 257))) (codesOf (lens.drop (hlit + 257))) (y.bits.length + 1)

/-- Stored bytes, while there is room. -/
def Inflate.literal : Nat → Inflate → Inflate
  | 0, x => x
  | n + 1, x => match takeBits 8 x.bits with
    | none => x.stop 6
    | some (v, bits) =>
      if x.room = 0 then x.stop 7
      else Inflate.literal n { x with bits := bits, out := BitVec.ofNat 8 v :: x.out, room := x.room - 1 }

/-- A stored block, from the next byte boundary on. -/
def Inflate.stored (x : Inflate) : Inflate :=
  let bits := x.bits.drop (x.bits.length % 8)
  match takeBits 16 bits with
  | none => x.stop 6
  | some (n, b1) => match takeBits 16 b1 with
    | none => x.stop 6
    | some (m, b2) =>
      let y := { x with bits := b2 }
      if n + m ≠ 65535 then y.stop 2 else y.literal n

/-- Blocks until one with BFINAL, at most `fuel` of them. -/
def Inflate.blocks : Nat → Inflate → Inflate
  | 0, x => x.stop 6
  | fuel + 1, x => match takeBits 3 x.bits with
    | none => x.stop 6
    | some (h, bits) =>
      let y := { x with bits := bits }
      let z : Inflate := match h / 2 with
        | 0 => y.stored
        | 1 => y.symbols fixedLit fixedDist (y.bits.length + 1)
        | 2 => { y with dyn := true }.dynamic
        | _ => y.stop 1
      if z.err ≠ 0 ∨ h % 2 = 1 then z else Inflate.blocks fuel z

/-- A stream decompressed into room for `room` bytes. -/
def inflate (bs : List Byte) (room : Nat) : Inflate :=
  Inflate.blocks (8 * bs.length + 1) { bits := bitsOfBytes bs, out := [], room := room, err := 0, far := 0, dyn := false }

/-- What it has written, oldest first, and how many of the input's bytes it has used. -/
def Inflate.bytes (x : Inflate) : List Byte := x.out.reverse
def Inflate.used (x : Inflate) (inputLen : Nat) : Nat := inputLen - x.bits.length / 8

/-! ### Stored blocks (R580) -/

/-- At most 65,535 bytes as one stored block. -/
def storedBlock (final : Bool) (bs : List Byte) : List Byte :=
  leBytes 1 (b2n final) ++ leBytes 2 bs.length ++ leBytes 2 (65535 - bs.length) ++ bs

/-- A chunk as stored blocks: a full chunk takes two. -/
def storedChunk (bs : List Byte) : List Byte :=
  if bs.length ≤ 65535 then storedBlock true bs else storedBlock false (bs.take 65535) ++ storedBlock true (bs.drop 65535)

/-- A list cut into pieces of `n`, at most `k` of them. -/
def cutEvery (n : Nat) : Nat → List Byte → List (List Byte)
  | 0, _ => []
  | k + 1, bs => if bs.isEmpty then [] else bs.take n :: cutEvery n k (bs.drop n)

end Sys2Proof.Machine
end

