-- ==== Sys2Proof/Machine/Check.lean ====
section
/-!
DEFINITION. The check-value units, what they do to a launched frame, and the compression engines (17_faults_replay.md R572–R585;
03_ingest_time.md R158).
-/

namespace Sys2Proof.Machine

/-! ### The CRCs (R572) -/

/-- The context a calculation starts from. -/
def cvInit (poly : Nat) : Nat := if poly < 2 then 0xFFFFFFFF else if poly = 2 then 0xFFFF else 0

/-- The context after bytes. -/
def cvOver (poly context : Nat) (bs : List Byte) : Nat :=
  let step : Nat → Byte → Nat := match poly with
    | 0 => crcByteR 0xEDB88320
    | 1 => crcByteR 0x82F63B78
    | 2 => crcByteN 16 0x1021
    | _ => crcByteN 64 0x42F0E1EBA9EA3693
  bs.foldl step context

/-- The final value of a context. -/
def cvFinal (poly context : Nat) : Nat := if poly < 2 then context ^^^ 0xFFFFFFFF else context

/-! ### EV_CHECK (R575) -/

/-- A record enters a ring's queue and its write raises the ring's source regardless of moderation (R348). -/
def State.postNow (s : State) (n code : Nat) (body : List Byte) : State :=
  if s.twin.st = .standby ∨ 256 ≤ n then s.post n code 0 body
  else
    let s := if (s.evtQ n).tickDue s.tb.dev then s.tick n else s
    s.enqueue n { Held.of code 0 s.tb.dev n s.top.gatherId.toNat body with irq := true }

/-- EV_CHECK: 0 COMPARE, 1 ALIVE, 2 MIXED. -/
def State.checkEvent (s : State) (unit kind alive value : Nat) : State :=
  s.postNow (s.cvUnit unit).ring 0x9010 (leBytes 1 unit ++ leBytes 1 kind ++ leBytes 2 0 ++ leBytes 4 alive ++ leBytes 8 value)

/-! ### CV_CONFIG (R573) -/

/-- A unit may be named by a folio of a colour: CV7 belongs to colour 0. -/
def State.cvOwn (s : State) (unit colour : Nat) : Bool :=
  decide (unit < 7) && (match (s.cvUnit unit).owner with | some o => decide (o = colour) | none => true)

/-- The launch queues that a unit is bound to lose it. -/
def State.cvUnbind (s : State) (unit : Nat) : State :=
  { s with net := { s.net with ports := s.net.ports.map fun (p : NetPort) =>
    { p with cv := p.cv.map fun (u : Option Nat) => if u = some unit then none else u } } }

/-- CV_CONFIG. -/
def bodyCvConfig (c : FCtx) (s : State) : FRes :=
  let u := c.u
  let unit := u 0x10 1
  let free := bitOf (u 0x11 1) 0
  let width := u 0x13 1
  let step := u 0x18 4
  .checks [(decide (unit < 8) && decide (u 0x11 1 < 2) && (free || (decide (u 0x12 1 < 4) && [0, 1, 2, 4].contains width
        && (decide (width = 0) || (decide (1 ≤ step) && decide (step ≤ 2 ^ (8 * width) - 1))) && decide (u 0x1C 1 < 32))), .param),
      (s.cvOwn unit c.colour && (free || evOk c s (u 0x1C 1)), .colour)] s <|
    if free then .ok ((s.cvUnbind unit).modCv unit fun _ => CvUnit.reset)
    else .ok (s.modCv unit fun x => { x with
      owner := some c.colour, poly := u 0x12 1, aliveWidth := width, aliveOffset := u 0x14 4, aliveStep := step, ring := c.ev (u 0x1C 1)
      context := BitVec.ofNat 64 (cvInit (u 0x12 1)), lastAlive := none, txAlive := 0 })

/-- CV_CONFIG (R573). -/
def execCvConfig (dt ring : Nat) (s : State) : Out := .next ((s.elapse dt).runFolio ring 0x1010 bodyCvConfig)

/-! ### CV_RUN (R574, R575) -/

/-- The events that a run's checks call for. -/
def State.cvChecks (s : State) (unit mode expect alive final : Nat) : State :=
  let x := s.cvUnit unit
  let bad : Bool := match x.lastAlive with
    | some a => decide (alive ≠ (a + x.aliveStep) % 2 ^ (8 * x.aliveWidth))
    | none => false
  let s := if bitOf mode 1 && decide (final ≠ expect) then s.checkEvent unit 0 alive final else s
  if !bitOf mode 2 then s
  else (if bad then s.checkEvent unit 1 alive final else s).modCv unit fun y => { y with lastAlive := some alive }

/-- CV_RUN. -/
def bodyCvRun (c : FCtx) (s : State) : FRes :=
  let u := c.u
  let unit := u 0x10 1
  let mode := u 0x11 1
  let w := u 0x12 1
  let off := u 0x14 4
  let n := u 0x18 4
  let x := s.cvUnit unit
  let alive := bitOf mode 2
  .checks [(decide (unit < 8) && decide (mode < 8) && decide (w < 8) && decide (1 ≤ n) && decide (n ≤ 16777216)
        && (!alive || decide (x.aliveOffset + x.aliveWidth ≤ n)), .param),
      (s.cvOwn unit c.colour && s.winOk w c.colour && s.winSpan w off n false, .colour),
      (x.owner.isSome && (!alive || decide (x.aliveWidth ≠ 0)), .state), (!s.winDamaged w off n, .fault)] s <|
    let bs := s.winRead w off n
    let context := cvOver x.poly (if bitOf mode 0 then u 0x20 8 % 2 ^ (if x.poly < 2 then 32 else if x.poly = 2 then 16 else 64) else x.context.toNat) bs
    let final := cvFinal x.poly context
    let counter := if alive then leNat ((bs.drop x.aliveOffset).take x.aliveWidth) else 0
    .done .ok final (s.modCv unit fun y => { y with context := BitVec.ofNat 64 context })
      fun t => t.cvChecks unit mode (u 0x28 8) counter final

/-- CV_RUN (R574). -/
def execCvRun (dt ring : Nat) (s : State) : Out := .next ((s.elapse dt).runFolio ring 0x1011 bodyCvRun)

/-! ### CV_ATTACH and launches (R576, R158) -/

/-- CV_ATTACH. -/
def bodyCvAttach (c : FCtx) (s : State) : FRes :=
  let u := c.u
  let unit := u 0x10 1
  let p := u 0x11 1
  let q := u 0x12 1
  let unbind := bitOf (u 0x1A 1) 0
  let x := s.cvUnit unit
  let bind (v : Option Nat) (t : State) : State := t.modPort p fun y => { y with cv := y.cv.set q v }
  .checks [(decide (unit < 8) && decide (p < 4) && decide (q < 8) && decide (u 0x1A 1 < 2) && (unbind || decide (u 0x14 2 < u 0x16 2)), .param),
      (s.cvOwn unit c.colour, .colour),
      (x.owner.isSome && (unbind || (decide (x.poly < 2) && decide (x.aliveWidth ≠ 0) && decide ((s.port p).mode ≠ 0))), .state)] s <|
    if unbind then .ok (if (s.port p).cv.getD q none = some unit then bind none s else s)
    else .ok ((bind (some unit) s).modCv unit fun y => { y with start := u 0x14 2, end_ := u 0x16 2, checkOffset := u 0x18 2 })

/-- CV_ATTACH (R576). -/
def execCvAttach (dt ring : Nat) (s : State) : Out := .next ((s.elapse dt).runFolio ring 0x1012 bodyCvAttach)

/-- Bytes of a list replaced from an offset. -/
def putAt (bs : List Byte) (off : Nat) (v : List Byte) : List Byte := padTo bs.length (bs.take off ++ v ++ bs.drop (off + v.length))

/-- The frame as NET sends it: with the unit's alive counter advanced where the host's CRC agrees, else with the one before, and MIXED. -/
def State.cvLaunch (s : State) (unit : Nat) (bs : List Byte) : List Byte × State :=
  let x := s.cvUnit unit
  let final := cvFinal x.poly (cvOver x.poly (cvInit x.poly) ((bs.drop x.start).take (x.end_ - x.start)))
  let good := decide (leNat ((bs.drop x.checkOffset).take 4) = final) && decide (x.end_ ≤ bs.length) && decide (x.checkOffset + 4 ≤ bs.length)
  let alive := if good then (x.txAlive + x.aliveStep) % 2 ^ (8 * x.aliveWidth) else x.txAlive
  let s := s.modCv unit fun y => { y with txAlive := alive }
  (putAt bs x.aliveOffset (leBytes x.aliveWidth alive), if good then s else s.checkEvent unit 2 alive final)

/-- LAUNCH_READ: NET reads a frame's blocks 20 µs before its launch (R158), and a bound unit checks it (R576). -/
def execLaunchRead (dt port queue : Nat) (s : State) : Out :=
  let s := s.elapse dt
  match nextLaunch (s.queue port queue) with
  | none => .next s
  | some e =>
    if e.frame.isSome || e.bad || decide (s.tb.dev + 20000 < e.due) || (s.island islNet).isolated || !s.sendsNet then .next s
    else if !s.winSpan e.window e.offset e.length false || s.winDamaged e.window e.offset e.length then
      .next (s.setLaunch port queue e.order fun x => { x with bad := true })
    else
      let bs := s.winRead e.window e.offset e.length
      let r : List Byte × State := match (s.port port).cv.getD queue none with
        | some u => if (s.island islSvc).isolated then (bs, s) else s.cvLaunch u bs
        | none => (bs, s)
      .next (r.2.setLaunch port queue e.order fun x => { x with frame := some r.1 })

/-! ### Compression engines (R578–R585) -/

/-- The engine a job goes to: the one named, or the idle one, ZE1 when both are busy; the other where it is disabled. -/
def State.zePick (s : State) (want : Nat) : Option Nat :=
  let up (e : Nat) : Bool := !(s.zeEngine e).disabled
  let idle (e : Nat) : Bool := (s.zeEngine e).jobs.isEmpty
  let first := if want < 2 then want else if up 0 && idle 0 then 0 else 1
  if up first then some first else if up (1 - first) then some (1 - first) else none

/-- ZE_RUN: the job joins an engine's queue. -/
def bodyZeRun (c : FCtx) (s : State) : FRes :=
  let u := c.u
  let op := u 0x11 1
  let n := u 0x1C 4
  let iw := u 0x14 1
  let ow := u 0x15 1
  let index := u 0x28 4
  .checks [((decide (u 0x10 1 < 2) || decide (u 0x10 1 = 0xFF)) && decide (op < 2) && (decide (op = 1) || decide (u 0x12 1 < 4)) && decide (u 0x13 1 < 4)
        && decide (iw < 8) && decide (ow < 8) && decide (u 0x16 2 = 0) && decide (1 ≤ n) && decide (n ≤ 16777215) && decide (u 0x20 4 % 256 = 0)
        && decide (256 ≤ u 0x24 4), .param),
      (s.winOk iw c.colour && s.winSpan iw (u 0x18 4) n false && s.winOk ow c.colour && s.winSpan ow (u 0x20 4) (u 0x24 4) true
        && (decide (op = 1) || decide (index = 0) || s.winSpan ow index (16 * ceilDiv n 65536) true), .colour),
      ((s.zePick (u 0x10 1)).isSome, .fault)] s <|
    match s.zePick (u 0x10 1) with
    | some e => .wait (.ze e) (s.modZe e fun x => { x with jobs := x.jobs ++ [{ ring := c.slot, op := op, level := u 0x12 1 }] })
    | none => .ok s

/-- ZE_RUN (R584). -/
def execZeRun (dt ring : Nat) (s : State) : Out := .next ((s.elapse dt).runFolio ring 0x1020 bodyZeRun)

/-- RESULT: output bytes written, input bytes consumed, error code. -/
def zeResult (out used err : Nat) : Nat := out + used * 2 ^ 32 + err * 2 ^ 56

/-- The status of an error (R583). -/
def zeStatus (err : Nat) : Status := if err = 0 then .ok else if err = 7 then .nospace else .param

/-- A decompression job as it ends: it stops at the first error, at a poisoned block of the input, or at the end of the BFINAL block. -/
def State.zeInflate (s : State) (slot : Nat) (c : FCtx) : State :=
  let u := c.u
  let n := u 0x1C 4
  let w := u 0x14 1
  let off := u 0x18 4
  let clean := ((List.range n).find? fun i => s.winDamaged w (off + i) 1).getD n
  let bs := s.winRead w off clean
  let r := inflate bs (u 0x24 4)
  let out := r.bytes
  let used := r.used clean
  let t := s.winWrite (u 0x15 1) (u 0x20 4) out
  if r.err = 6 ∧ clean < n then t.finish slot .fault (zeResult out.length used 0) id
  else
    let err := if r.err ≠ 0 then r.err
      else if bitOf (u 0x13 1) 0 ∧ (crc32c out).toNat ≠ u 0x2C 4 then 8
      else if bitOf (u 0x13 1) 1 ∧ used < n then 9 else 0
    t.finish slot (zeStatus err) (zeResult out.length used err) id

/-- What a level may use: at LEVEL 1 no dynamic codes, and no match from further back than 4 KiB (R578). -/
def Inflate.allows (x : Inflate) (level : Nat) : Bool := decide (2 ≤ level) || (!x.dyn && decide (x.far ≤ 4096))

/-- The encoding of a chunk at the start of what an engine coded: what decompresses to the chunk. None where the self-verification of R581 fails.
At LEVEL 0, and where stored blocks are shorter than what was coded as the level allows, it is stored blocks (R578, R580). -/
def chunkCoded (level : Nat) (chunk coded : List Byte) : Option (List Byte) :=
  let r := inflate coded chunk.length
  let code := coded.take (r.used coded.length)
  if level = 0 then some (storedChunk chunk)
  else if r.err ≠ 0 ∨ r.bytes ≠ chunk then none
  else some (if r.allows level && decide (code.length ≤ (storedChunk chunk).length) then code else storedChunk chunk)

/-- Where a compression job stands. -/
structure ZeRun where
  coded : List Byte
  out   : List Byte
  index : List Byte
  used  : Nat
  full  : Bool
  bad   : Nat
  deriving DecidableEq, Repr, Inhabited

/-- How much of what an engine coded its encoding of a chunk took up. -/
def codedUsed (level : Nat) (chunk coded : List Byte) : Nat := if level = 0 then 0 else (inflate coded chunk.length).used coded.length

/-- One chunk of a compression job (R579–R582): it is written whole, or the job stops before it. -/
def ZeRun.chunk (level room : Nat) (x : ZeRun) (chunk : List Byte) : ZeRun :=
  if x.full then x
  else
    let r := chunkCoded level chunk x.coded
    let code := r.getD (storedChunk chunk)
    if room < x.out.length + code.length then { x with full := true }
    else { x with
      coded := x.coded.drop (codedUsed level chunk x.coded)
      out := x.out ++ code, used := x.used + chunk.length, bad := x.bad + b2n r.isNone
      index := x.index ++ leBytes 4 x.used ++ leBytes 4 x.out.length ++ leBytes 4 code.length ++ leBytes 4 (crc32c chunk).toNat }

/-- A compression job as it ends, with the bytes its engine coded (R580 leaves the choice among encodings of equal length open). -/
def State.zeDeflate (s : State) (slot engine : Nat) (c : FCtx) (level : Nat) (coded : List Byte) : State :=
  let u := c.u
  let n := u 0x1C 4
  let w := u 0x14 1
  let off := u 0x18 4
  let clean := ((List.range n).find? fun i => s.winDamaged w (off + i) 1).getD n
  let whole := if clean = n then n else clean / 65536 * 65536
  let chunks := cutEvery 65536 (n / 65536 + 1) (s.winRead w off whole)
  let r := chunks.foldl (fun (x : ZeRun) k => x.chunk level (u 0x24 4) k) { coded := coded, out := [], index := [], used := 0, full := false, bad := 0 }
  let t := s.winWrite (u 0x15 1) (u 0x20 4) r.out
  let t := if u 0x28 4 = 0 then t else t.winWrite (u 0x15 1) (u 0x28 4) r.index
  let t := (List.range r.bad).foldl (fun (a : State) _ => a.fault 14 islSvc 0 engine 0) t
  if r.full then t.finish slot .nospace (zeResult r.out.length r.used 7) id
  else if clean < n then t.finish slot .fault (zeResult r.out.length r.used 0) id
  else t.finish slot .ok (zeResult r.out.length r.used 0) id

/-- The job at the head of an engine's queue ends; any other waits for its turn. -/
def State.zeDone (s : State) (slot engine : Nat) (o : WaitIn) : State :=
  match (s.cmdQ slot).begun, (s.zeEngine engine).jobs with
  | some b, j :: rest =>
    if j.ring ≠ slot then s
    else
      let s := s.modZe engine fun x => { x with jobs := rest }
      let c := s.fctx slot b
      if (s.island islSvc).isolated then s.finish slot .fault 0 id
      else if j.op = 1 then s.zeInflate slot c
      else s.zeDeflate slot engine c j.level (match o with | .coded bs => bs | _ => [])
  | _, _ => s

end Sys2Proof.Machine
end

