-- ==== Sys2Proof/Machine/Flips.lean ====
section
/-!
DEFINITION. Flip groups, fences and the press cache (06_flips_plate_press.md R237–R249, R261–R264).
-/

namespace Sys2Proof.Machine

/-! ### Groups and their staged folios -/

/-- The staged folios of a group, in staging order. -/
def State.staged (s : State) (g : Nat) : List Pend := s.comp.pend.filter fun p => p.group = some g

/-- The heads a group names. -/
def State.groupHeads (s : State) (g : Nat) : List Nat := ((s.staged g).flatMap Pend.heads).eraseDups

/-- The heads whose press image a group needs flattened. -/
def State.groupFlat (s : State) (g : Nat) : List Nat := ((s.staged g).flatMap Pend.flat).eraseDups

/-- A queued group of a ring changed. -/
def State.modGroup (s : State) (r id : Nat) (f : Group → Group) : State :=
  s.modCmdQ r fun q => { q with groups := q.groups.map fun g => if g.id = id then f g else g }

/-- The body of EV_FLIP (R248). -/
def Group.body (g : Group) (result : Nat) : List Byte :=
  leBytes 1 result ++ leBytes 1 (b2n g.deferred + 2 * b2n g.sourceLate) ++ leBytes 2 ((g.heads.map fun h => 2 ^ h).foldl (· ||| ·) 0)
    ++ leBytes 4 g.frame.toNat ++ leBytes 8 g.epoch

/-- The outcome of a group is posted on the ring of its FLIP_COMMIT. -/
def State.postFlip (s : State) (g : Group) (result : Nat) : State := s.post g.ring 0x8600 g.tag.toNat (g.body result)

/-- A press image flattened, or being flattened, for a change that is given up is not shown. -/
def State.dropFlatten (s : State) (order : Nat) : State :=
  { s with
    comp := { s.comp with
      head := s.comp.head.map fun (h : Head) =>
        if h.press.forOrder = some order then { h with press := { h.press with nextReady := false, busy := false, forOrder := none } } else h } }

/-- EV_FLIP for the groups of a ring that have been discarded, or have committed and whose commit frames have all begun, in the order of commitment
or discard (R248). -/
def State.flushFlips (s : State) (r : Nat) : State :=
  let l := (s.cmdQ r).groups
  let ready := l.takeWhile fun g => g.committed && (decide (g.result ≠ 0) || g.heads.all fun k => g.begun.contains k)
  ready.foldl (fun (t : State) g => t.postFlip g g.result) (s.modCmdQ r fun q => { q with groups := q.groups.drop ready.length })

/-- A group that is over takes its place behind those of its ring that have committed or been discarded before it. -/
def Group.ended (g : Group) (result : Nat) (l : List Group) : List Group :=
  let rest := l.filter fun x => x.id ≠ g.id
  rest.takeWhile (·.committed) ++ [{ g with committed := true, result := result, fences := [], flattenHeads := [] }] ++ rest.dropWhile (·.committed)

/-- A queued group is discarded: its staged folios leave the pending configuration, and EV_FLIP says why (R238–R244). -/
def State.discardGroup (s : State) (r : Nat) (g : Group) (result : Nat) : State :=
  let s := (s.dropStaged g.id).dropFlatten g.order
  (s.modCmdQ r fun q => { q with groups := g.ended result q.groups }).flushFlips r

/-! ### Readiness (R242, R243) -/

/-- What the fences of a group read: none where a read is refused or a block is poisoned, else whether every fence is signalled. -/
def State.readFences (s : State) (colour : Nat) (l : List Fence) : Option Bool :=
  if l.all (fun f => s.winOk f.window colour && s.winSpan f.window f.offset 8 false && !s.winDamaged f.window f.offset 8) then
    some (l.all fun f => decide (f.target ≤ leNat (s.winRead f.window f.offset 8)))
  else none

/-- The video layers that a group gives a new stream context or SRC_MEMBER, as the group leaves them. -/
def State.newSources (s : State) (g : Nat) : List (Nat × LayerCfg) :=
  let v := s.view (some g)
  (((s.staged g).flatMap fun p => p.change.layers).eraseDups.filter isVideo).filterMap fun i =>
    let new := v.layer i
    let old := s.layer i
    if new.st = .active ∧ !(decide (old.st = .active) && decide (old.cfg.context = new.cfg.context) && decide (old.cfg.srcMember = new.cfg.srcMember))
    then some (i, new.cfg) else none

/-- Every new source has a picture that would qualify at its layer's head. -/
def State.sourcesReady (s : State) (g : Nat) : Bool :=
  (s.newSources g).all fun x => match x.2.head with
    | some h => (s.pickFor (s.shownOf x.1 x.2) (((s.timings h).getLast?).getD Timing.reset) none).isSome
    | none => true

/-- A pairing's partner is on no other head (R222). -/
def State.partnerClear (s : State) (p : Pend) : Bool :=
  match p.change with
  | .layer i k true => (List.range 16).all fun h => decide (k.head = some h) || !((s.head h).on_.any fun x => x.index = partnerOf i)
  | _ => true

/-- The conditions of a group other than its fences hold: it is the first of its ring that has not committed, its sources qualify, its
press images are flattened, and its pairings' partners are free. -/
def State.groupReady (s : State) (r : Nat) (g : Group) : Bool :=
  (match (s.cmdQ r).groups.find? fun x => !x.committed with | some x => decide (x.id = g.id) | none => false)
    && (!g.waitSource || g.expired || s.sourcesReady g.id) && g.flattenHeads.isEmpty && (s.staged g.id).all s.partnerClear

/-! ### The press image (R261–R264) -/

/-- The configuration with the changes that a predicate picks applied. -/
def State.viewWith (s : State) (pick : Pend → Bool) : View := (s.comp.pend.filter pick).foldl (fun v p => v.apply p true) s.viewNow

/-- The STATIC layers of a head in a configuration, bottom first. -/
def View.statics (v : View) (h : Nat) : List (Nat × LayerCfg) := (stackOrder (v.mode.getD h 0) (v.head h)).filter fun x => x.2.static

/-- What a flatten for the change of an order includes: earlier folios that wait for nothing else, and the change itself. -/
def State.flattenPick (s : State) (order : Nat) (p : Pend) : Bool :=
  match s.host.cmdq.findSome? fun (q : CmdQ) => q.groups.find? fun g => g.order = order with
  | some g => decide (p.group = some g.id) || (p.group.isNone && p.flat.isEmpty && decide (p.order < order))
  | none => decide (p.order = order) || (p.group.isNone && p.flat.isEmpty && decide (p.order < order))

/-- The timing a flatten for the change of an order is made for. -/
def State.flattenTiming (s : State) (h order : Nat) : Timing :=
  match s.comp.pend.findSome? fun (p : Pend) => if p.order = order then (match p.change with | .timing g t => if g = h then some t else none | _ => none)
      else none with
  | some t => t
  | none => (s.head h).timing

/-- A surface's planes can be read: the window serves the layer's colour, nothing refuses them, and no block of them is damaged. -/
def State.surfaceReads (s : State) (colour : Nat) (k : LayerCfg) : Bool :=
  k.planes.all fun p =>
    let need := planeNeed k.format p.1 k.surfW k.surfH
    let n := p.2.2 * (need.2 - 1) + need.1
    s.winOk k.window colour && s.winSpan k.window p.2.1 n false && !s.winDamaged k.window p.2.1 n

/-- A STATIC layer's pixel at head coordinates over the accumulator. -/
def State.flattenAt (s : State) (x y : Nat) (acc : Rgb × Nat) (l : Nat × LayerCfg) : Rgb × Nat :=
  let k := l.2
  let i : Int := (x : Int) - k.dstX
  let j : Int := (y : Int) - k.dstY
  if i < 0 ∨ j < 0 ∨ (k.dstW : Int) ≤ i ∨ (k.dstH : Int) ≤ j then acc
  else
    let (pa, v) := s.surfacePixel k (k.srcX + i.toNat) (k.srcY + j.toNat)
    flattenStep k (convertPixel (resolveGraphic k.matrix k.format) (s.slotCoef k) v) pa acc

/-- The press image of STATIC layers over a rectangle: its words row by row. -/
def State.flattenImage (s : State) (l : List (Nat × LayerCfg)) (e : Edges) : List (BitVec 32) :=
  (List.range e.height).flatMap fun j => (List.range e.width).map fun i =>
    pressWord (l.foldl (s.flattenAt (e.1 + i) (e.2.1 + j)) ((0, 0, 0), 0))

/-- Whether a ring has an earlier group or folio that still needs a flatten of the same head. -/
def State.flattenBefore (s : State) (ring h order : Nat) : Bool :=
  s.comp.pend.any (fun p => p.group.isNone && decide (p.ring = ring) && decide (p.order < order) && p.flat.contains h)
    || (s.cmdQ ring).groups.any fun g => decide (g.order < order) && g.flattenHeads.contains h

/-- The changes that a flatten of a head could start for, by their place in completion order. -/
def State.flattenWants (s : State) (h : Nat) : List Nat :=
  let solos := (s.comp.pend.filter fun p => p.group.isNone && p.flat.contains h).map fun p => p.order
  let groups := (List.range 48).flatMap fun r => ((s.cmdQ r).groups.filter fun g =>
    g.flattenHeads.contains h && g.fencesRead && !s.flattenBefore r h g.order).map fun g => g.order
  solos ++ groups

/-- COMP starts the next flatten: one head at a time, on a head whose last flattened image has been shown (R263). -/
def State.startFlatten (s : State) : State :=
  if s.comp.head.any fun h => h.press.busy then s
  else
    let free := (List.range 16).filter fun h => !(s.head h).press.nextReady
    let cands := free.flatMap fun h => (s.flattenWants h).map fun o => (o, h)
    match cands.foldl (fun (a : Option (Nat × Nat)) c => match a with | none => some c | some b => if c.1 < b.1 then some c else some b) none with
    | some (o, h) => s.modHead h fun x => { x with press := { x.press with busy := true, forOrder := some o } }
    | none => s

/-- The head no longer waits for the flatten of a change. -/
def State.flattened (s : State) (h order : Nat) : State :=
  let without (l : List Nat) : List Nat := l.filter fun g => g ≠ h
  { s with
    comp := { s.comp with pend := s.comp.pend.map fun (p : Pend) => if p.order = order then { p with flat := without p.flat } else p }
    host := { s.host with cmdq := s.host.cmdq.map fun (q : CmdQ) =>
      { q with groups := q.groups.map fun g => if g.order = order then { g with flattenHeads := without g.flattenHeads } else g } } }

/-- A change whose flatten met a refused or poisoned block is given up with result FAULT (R244). -/
def State.faultFlatten (s : State) (order : Nat) : State :=
  match (List.range 48).findSome? fun r => ((s.cmdQ r).groups.find? fun g => g.order = order).map fun g => (r, g) with
  | some (r, g) => s.discardGroup r g 2
  | none =>
    match s.comp.pend.find? fun p => p.order = order with
    | some p =>
      let g : Group := { Group.reset with ring := p.ring, tag := p.tag, heads := p.heads }
      ({ s with comp := { s.comp with pend := s.comp.pend.filter fun q => q.order ≠ order } }.dropFlatten order).postFlip g 2
    | none => s.dropFlatten order

/-! ### Groups that name no head (R247) -/

/-- A change that concerns no head takes effect. -/
def State.effectNone (s : State) (p : Pend) : State :=
  let t := s.effect p none
  { t with comp := { t.comp with pend := t.comp.pend.filter fun q => q.order ≠ p.order } }

/-- The first group of a ring commits where it names no head and is ready; the next one may follow. -/
def State.commitHeadless (s : State) (r : Nat) : State :=
  (List.range 4).foldl (fun t _ =>
    match (t.cmdQ r).groups.find? fun x => !x.committed with
    | some g =>
      if !g.heads.isEmpty ∨ !t.groupReady r g then t
      else match t.readFences g.colour g.fences with
        | none => t.discardGroup r g 2
        | some false => t
        | some true =>
          let late := g.expired && g.waitSource && !t.sourcesReady g.id
          let t := (t.staged g.id).foldl State.effectNone t
          (t.modCmdQ r fun q => { q with groups := { g with sourceLate := late }.ended 0 q.groups }).flushFlips r
    | none => t) s

/-- What a change to groups, fences or the pending configuration may set going: groups without heads, and the next flatten. -/
def State.advance (s : State) : State := ((List.range 48).foldl State.commitHeadless s).startFlatten

/-! ### FLIP_BEGIN, FLIP_COMMIT, FLIP_CANCEL, PRESS_TOUCH (R238, R240, R241, R264) -/

/-- FLIP_BEGIN (R240). -/
def bodyFlipBegin (c : FCtx) (s : State) : FRes :=
  .checks [((s.cmdQ c.slot).groupOpen.isNone, .state)] s <|
    .ok ({ s with host := { s.host with groupNo := s.host.groupNo + 1 } }.modCmdQ c.slot fun q => { q with groupOpen := some s.host.groupNo, broken := false })

/-- FLIP_BEGIN (R240). -/
def execFlipBegin (dt ring : Nat) (s : State) : Out := .next ((s.elapse dt).runFolio ring 0x0600 bodyFlipBegin)

/-- The fences of a FLIP_COMMIT. -/
def fencesOf (c : FCtx) (n : Nat) : List Fence :=
  (List.range n).map fun k => { window := c.u (0x18 + 16 * k) 1, offset := c.u (0x1C + 16 * k) 4, target := c.u (0x20 + 16 * k) 8 }

/-- FLIP_COMMIT (R240). -/
def bodyFlipCommit (c : FCtx) (s : State) : FRes :=
  let f := c.u 0x10 1
  let n := c.u 0x11 1
  let tmo := c.u 0x12 2
  let fs := fencesOf c (min n 8)
  let q := s.cmdQ c.slot
  .checks [(decide (f < 2) && decide (n < 9) && decide (1 ≤ tmo) && decide (tmo ≤ 10000) && decide (c.u 0x14 4 = 0)
        && ((List.range (min n 8)).all fun k => decide (c.u (0x19 + 16 * k) 3 = 0)) && (fs.all fun x => decide (x.window < 8) && decide (x.offset % 8 = 0)), .param),
      (fs.all fun x => s.winOk x.window c.colour, .colour), (q.groupOpen.isSome, .state)] s <|
    match q.groupOpen with
    | none => .ok s
    | some g =>
      if q.broken then .done .state 0 ((s.dropStaged g).modCmdQ c.slot fun q => { q with groupOpen := none, broken := false }) State.advance
      else if 4 ≤ (q.groups.filter fun x => !x.committed).length then .done .busy 0 s id
      else
        let x : Group :=
          { Group.reset with
            colour := c.colour, id := g, ring := c.ev c.ring, tag := BitVec.ofNat 16 c.tag, waitSource := bitOf f 0, order := s.comp.pendNo, fences := fs
            due := s.tb.now + tmo * 1000000, heads := s.groupHeads g, flattenHeads := s.groupFlat g, fencesRead := fs.isEmpty }
        let s := { s with comp := { s.comp with pendNo := s.comp.pendNo + 1 } }
        .done .ok 0 (s.modCmdQ c.slot fun q => { q with groupOpen := none, groups := q.groups ++ [x] }) State.advance

/-- FLIP_COMMIT (R240). -/
def execFlipCommit (dt ring : Nat) (s : State) : Out := .next ((s.elapse dt).runFolio ring 0x0601 bodyFlipCommit)

/-- FLIP_CANCEL (R241). -/
def bodyFlipCancel (c : FCtx) (s : State) : FRes :=
  match (s.cmdQ c.slot).groups.find? fun g => decide (g.tag.toNat = c.u 0x10 2) && !g.committed && g.doneHeads.isEmpty with
  | none => .done .state 0 s id
  | some g => .done .ok 0 s fun t => (t.discardGroup c.slot g 3).advance

/-- FLIP_CANCEL (R241). -/
def execFlipCancel (dt ring : Nat) (s : State) : Out := .next ((s.elapse dt).runFolio ring 0x0602 bodyFlipCancel)

/-- PRESS_TOUCH (R264). -/
def bodyPressTouch (c : FCtx) (s : State) : FRes :=
  let h := c.u 0x10 1
  .checks [(decide (h < 16), .param), ((s.head h).admits c.colour, .colour), (!(s.head h).stopped, .state)] s <|
    .done .ok 0 (s.enter c (.press h) [h] (some h) true) State.advance

/-- PRESS_TOUCH (R264). -/
def execPressTouch (dt ring : Nat) (s : State) : Out := .next ((s.elapse dt).runFolio ring 0x0620 bodyPressTouch)

/-- LAYER_SET (R213). -/
def execLayerSet (dt ring : Nat) (s : State) : Out := .next ((s.elapse dt).runRaising ring 0x0400 true bodyLayerSet).advance

/-- COLOUR_MATRIX (R227). -/
def execColourMatrix (dt ring : Nat) (s : State) : Out := .next ((s.elapse dt).runFolio ring 0x0402 bodyColourMatrix).advance

/-- LAYER_RELEASE (R235). -/
def execLayerRelease (dt ring : Nat) (s : State) : Out := .next ((s.elapse dt).runFolio ring 0x0401 bodyLayerRelease).advance

/-! ### FENCE_POLL, FLIP_TIMEOUT, FLATTEN_DONE (R242–R244, R263) -/

/-- One group's fences are read so that its flatten may start. -/
def State.pollGroup (s : State) (r : Nat) (g : Group) : State :=
  if g.fencesRead ∨ g.flattenHeads.isEmpty ∨ g.flattenHeads.any (fun h => s.flattenBefore r h g.order) then s
  else match s.readFences g.colour g.fences with
    | none => s.discardGroup r g 2
    | some ok => s.modGroup r g.id fun x => { x with fencesRead := ok }

/-- FENCE_POLL: the 100 µs reading of the fences of a ring's groups that need a flatten (R242). -/
def execFencePoll (dt ring : Nat) (s : State) : Out :=
  let s := s.elapse dt
  .next ((s.cmdQ ring).groups.foldl (fun t g => t.pollGroup ring g) s).advance

/-- A group whose TIMEOUT has expired: discarded where a fence is not signalled or cannot be read; else it stops waiting for sources
(R243, R244). -/
def State.timeoutGroup (s : State) (r : Nat) (g : Group) : State :=
  if g.committed ∨ !g.doneHeads.isEmpty ∨ g.expired ∨ s.tb.now < g.due then s
  else match s.readFences g.colour g.fences with
    | none => s.discardGroup r g 2
    | some false => s.discardGroup r g 1
    | some true => s.modGroup r g.id fun x => { x with expired := true }

/-- FLIP_TIMEOUT (R243). -/
def execFlipTimeout (dt ring : Nat) (s : State) : Out :=
  let s := s.elapse dt
  .next ((s.cmdQ ring).groups.foldl (fun t g => t.timeoutGroup ring g) s).advance

/-- FLATTEN_DONE: COMP has read the STATIC surfaces of a head and formed its press image (R244, R262, R263). -/
def execFlattenDone (dt h : Nat) (s : State) : Out :=
  let s := s.elapse dt
  let x := s.head h
  match x.press.forOrder with
  | none => .next s
  | some o =>
    if !x.press.busy then .next s
    else
      let v := s.viewWith (s.flattenPick o)
      let l := v.statics h
      let e := (staticRect (l.map (·.2)) (s.flattenTiming h o)).getD (0, 0, 0, 0)
      if l.all (fun k => s.surfaceReads (v.layer k.1).owner k.2) then
        let s := s.modHead h fun x => { x with press := { x.press with
          busy := false, nextReady := true, nextRect := (e.1, e.2.1, e.width, e.height), nextImage := s.flattenImage l e } }
        .next (s.flattened h o).advance
      else .next ((s.modHead h fun x => { x with press := { x.press with busy := false } }).faultFlatten o).advance

end Sys2Proof.Machine
end

