-- ==== Sys2Proof/Machine/Streams.lean ====
section
/-!
DEFINITION. Stream contexts: their folios, the packets that reach them, loss, silence and RTCP (03_ingest_time.md R121–R139, R155;
04_decode.md R177, R178).
-/

namespace Sys2Proof.Machine

/-! ### Events of a context and of a plan -/

/-- The code of a plan state (R105). -/
def PlanSt.code : PlanSt → Nat
  | .off => 0 | .learning => 1 | .slewing => 2 | .planned => 3 | .unplannable => 4

/-- EV_PLAN (R343) on a head's event ring. -/
def State.postPlan (s : State) (h kind st : Nat) (err : Int) : State :=
  match (s.head h).freshRing with
  | some n => s.post n 0x8210 0 (leBytes 1 h ++ leBytes 1 kind ++ leBytes 1 st ++ leBytes 1 0 ++ leBytes 4 (s.head h).frame.toNat
      ++ leBytes 8 (wordOf 64 (max (-(2 ^ 63)) (min err (2 ^ 63 - 1)))))
  | none => s

/-- How far a head's epoch lies from the planned one. -/
def Head.planErr (h : Head) : Int := if h.plan.held then (h.epoch : Int) - h.plan.target else 0

/-- A head's plan changes state (R109). -/
def State.planTo (s : State) (h : Nat) (st : PlanSt) : State :=
  if (s.head h).plan.st = st then s
  else (s.modHead h fun x => { x with plan := { x.plan with st := st } }).postPlan h 0 st.code (s.head h).planErr

/-- A picture of a context. -/
def Context.pic (x : Context) (id : Nat) : Option Picture := x.pics.find? fun p => p.id = id
def Context.modPic (x : Context) (id : Nat) (f : Picture → Picture) : Context :=
  { x with pics := x.pics.map fun p => if p.id = id then f p else p }

/-- Pictures that the decoding process has still to output. -/
def Context.unshown (x : Context) : List Picture := x.pics.filter fun p => !p.output && !p.hidden && decide (x.firstPic ≤ p.id)

/-- FRAME of an event with its place in output order, once they are known: those of its picture, or of the next picture where it has none. -/
def Context.place (x : Context) (e : DecEvt) : Option (Nat × BitVec 32) :=
  match e.pic with
  | none => some (e.ord, e.frame)
  | some id => match x.pic id with
    | some p => if p.output then some (p.ord, p.frame.getD 0) else if p.hidden then some (x.ordNext, x.frameNext) else none
    | none => some (x.ordNext, x.frameNext)

/-- Another picture with an earlier FRAME than an event may still have events to come (R191). -/
def Context.precedes (x : Context) (e : DecEvt) (ord : Nat) : Bool :=
  x.pics.any fun q => decide (x.firstPic ≤ q.id) && decide (e.pic ≠ some q.id) && !q.hidden && decide ((if q.output then q.ord else x.ordNext) < ord)
    && (!q.decodedAll || x.held.any fun (k : DecEvt) => decide (k.pic = some q.id))

/-- The events whose turn has come, in FRAME order; all of them on a context that decodes no more. -/
def Context.dueEvents (x : Context) : List (Nat × BitVec 32 × DecEvt) :=
  let done := !x.opened || decide (x.st = .shed)
  let due := x.held.filterMap fun e => match x.place e with
    | some (n, f) => if done || !x.precedes e n then some (n, f, e) else none
    | none => if done then some (x.ordNext, x.frameNext, e) else none
  due.foldl (fun acc q => acc.takeWhile (fun r => decide (r.1 ≤ q.1)) ++ [q] ++ acc.dropWhile (fun r => decide (r.1 ≤ q.1))) []

/-- EV_DECODE on the context's ring (R191). -/
def State.postDecode (s : State) (c : Nat) (frame : BitVec 32) (e : DecEvt) : State :=
  s.post (s.ctx c).cfg.ring 0x8300 0 (leBytes 1 c ++ leBytes 1 e.kind ++ leBytes 1 e.engine ++ leBytes 1 e.state ++ leBytes 4 frame.toNat
    ++ leBytes 2 e.first ++ leBytes 2 e.leaves ++ leBytes 4 e.detail)

/-- The events of a context that are due reach its ring (R191). -/
def State.flushEvents (s : State) (c : Nat) : State :=
  let due := (s.ctx c).dueEvents
  due.foldl (fun t q => t.postDecode c q.2.1 q.2.2) (s.modCtx c fun x => { x with held := x.held.filter fun e => !due.any fun q => q.2.2 = e })

/-- An error of a context counts (R204). -/
def Context.countErr (x : Context) (kind : Nat) : Context := { x with errs := x.errs.modify kind fun n => sat 16 (n + 1) }

/-- EV_DECODE of a picture that is not decoded, or of the context: FRAME is that of the next picture to be decoded, which follows those that wait to
be output (R191). -/
def State.decEvent (s : State) (c kind state detail : Nat) : State :=
  (s.modCtx c fun x => { x.countErr kind with
    held := x.held ++ [{ DecEvt.reset with
      kind := kind, engine := 0xFF, state := state, detail := detail, ord := x.ordNext + x.unshown.length
      frame := x.frameNext + BitVec.ofNat 32 x.unshown.length }] }).flushEvents c

/-- EV_DECODE of a picture: each error counts, and the event is posted at most once per kind and picture. -/
def State.decEventPic (s : State) (c pic kind engine state first leaves detail : Nat) : State :=
  if (s.ctx c).posted.contains (kind, pic) then s.modCtx c fun x => x.countErr kind
  else (s.modCtx c fun x => { x.countErr kind with
    posted := ((kind, pic) :: x.posted).take 64
    held := x.held ++ [{ DecEvt.reset with
      kind := kind, engine := engine, state := state, pic := some pic, first := first, leaves := leaves, detail := detail }] }).flushEvents c

/-- EV_STREAM (R139). -/
def State.postStream (s : State) (c kind state : Nat) : State :=
  let x := s.ctx c
  s.post x.cfg.ring 0x8101 0 (leBytes 1 c ++ leBytes 1 kind ++ leBytes 1 state ++ leBytes 1 0
    ++ leBytes 4 (match x.ssrc with | some v => v.toNat | none => 0))

/-! ### RTCP the device sends (R125, R195, R196) -/

/-- The port RTCP of a context leaves by: the lowest of its PORTS with a link; the spec does not say which of several it is (DESIGN CHOICE, log
entry 70). -/
def State.rtcpPort (s : State) (c : Nat) : Nat :=
  ((List.range 4).find? fun p => (s.ctx c).cfg.ports.getLsbD p && (s.port p).link).getD 0

/-- An RTCP message of a context goes out, protected with the context's profile and key slot (R131). RR, PLI and FIR all go to the address the sender
reports came from; before any has come, the only address known of the source is SRC_IP, with RTCP_UDP, and a message to any source (0) has no way to go (DESIGN
CHOICE, log entry 70). -/
def State.sendRtcp (s : State) (c : Nat) (kind : NetTxKind) (info : List Nat) : State :=
  let x := s.ctx c
  if x.cfg.hostFed || !s.sendsNet then s
  else
    let peer := x.srPeer.getD (x.cfg.srcIp.toNat, x.cfg.rtcpUdp)
    (s.modCtx c fun y => { y with srtcpIndex := if y.cfg.srtp = 0 then 0 else (y.srtcpIndex + 1) % 2 ^ 31 }).sendTo peer.1 { NetTx.reset with
      kind := kind, port := s.rtcpPort c, info := [c, peer.1, peer.2, match x.ssrc with | some v => v.toNat | none => 0] ++ info
      srtp := if x.cfg.srtp = 0 then none else some (x.cfg.srtp, x.cfg.keySlot, x.srtcpIndex) }

/-- A PLI goes out, where FEEDBACK is set: at most one per context per 100 ms (R195, R196). -/
def State.sendPli (s : State) (c : Nat) : State :=
  if (s.ctx c).cfg.feedback && s.since (s.ctx c).pliAt 100000000 then (s.sendRtcp c .pli []).modCtx c fun x => { x with pliAt := some s.tb.now } else s

/-- The context waits for a random-access picture (R195): a PLI at once, a FIR 500 ms later, counted from the first of several waits in a row. -/
def State.askRandomAccess (s : State) (c why : Nat) : State :=
  (s.modCtx c fun x => { x with
    st := if x.decl.startAny then .decoding else .waitRa, waitWhy := why, startedRa := false
    firAt := if x.cfg.feedback then some (x.firAt.getD (s.tb.now + 500000000)) else none
    coldWait := some s.tb.now }).sendPli c

/-! ### STREAM_OPEN (R122, R135, R180) -/

/-- Two sets of settings meet under R122, or bind the same stream ring (R347). -/
def CtxCfg.overlaps (a b : CtxCfg) : Bool :=
  if a.hostFed || b.hostFed then a.hostFed && b.hostFed && decide (a.stm = b.stm)
  else
    decide (a.ports &&& b.ports ≠ 0) && decide (a.dstIp = b.dstIp) && decide (a.vlan &&& 0x8FFF = b.vlan &&& 0x8FFF)
      && ((decide (a.dstUdp = b.dstUdp) && decide (a.pt = b.pt)) || decide (a.rtcpUdp = b.rtcpUdp) || decide (a.rtcpUdp = b.dstUdp)
        || decide (b.rtcpUdp = a.dstUdp))
      && (decide (a.srcIp = b.srcIp) || decide (a.srcIp = 0) || decide (b.srcIp = 0))
      && (decide (a.ssrc = b.ssrc) || a.ssrcLearn || b.ssrcLearn)

/-- The settings of a STREAM_OPEN (R122). -/
def openCfg (c : FCtx) : CtxCfg :=
  let u := c.u
  let kind := u 0x11 1
  let flags := u 0x28 2
  { hostFed := bitOf kind 0, hevc := bitOf kind 1, cls := if kind / 4 % 4 = 0 then .urgent else if kind / 4 % 4 = 1 then .live else .review
    ports := BitVec.ofNat 8 (u 0x12 1), stm := u 0x13 1, dstIp := c.folio.ip 0x14, srcIp := c.folio.ip 0x18, dstUdp := u 0x1C 2
    rtcpUdp := u 0x1E 2, vlan := BitVec.ofNat 16 (u 0x20 2), pt := u 0x22 1, ring := c.ev (u 0x23 1), ssrc := BitVec.ofNat 32 (u 0x24 4)
    ssrcLearn := bitOf flags 0, sendRr := bitOf flags 1, feedback := bitOf flags 2, refclkPtp := bitOf flags 3, srtp := u 0x2A 1
    keySlot := u 0x2B 1, gmId := BitVec.ofNat 64 (beNat (c.folio.bytesAt 0x2C 8)), domain := u 0x34 1, reorder := u 0x36 2
    maxRate := u 0x38 4, burst := u 0x3C 4, buffer := u 0x40 4, srWindow := u 0x44 2, rrInterval := u 0x46 2 }

/-- Every field of a STREAM_OPEN lies in its range. -/
def openRanges (c : FCtx) : Bool :=
  let u := c.u
  let kind := u 0x11 1
  decide (u 0x10 1 < 64) && decide (kind < 16) && decide (kind / 4 % 4 ≠ 3) && (bitOf kind 0 || decide (u 0x12 1 < 16))
    && (!bitOf kind 0 || decide (u 0x13 1 < 64)) && decide (1024 ≤ u 0x1C 2) && decide (u 0x20 2 / 2 ^ 12 % 8 = 0) && decide (u 0x22 1 < 128)
    && decide (u 0x23 1 < 32) && decide (u 0x28 2 < 16) && decide (u 0x2A 1 ≤ 5) && (decide (u 0x2A 1 = 0) || decide (u 0x2B 1 < 128))
    && decide (u 0x34 1 < 128) && decide (u 0x35 1 = 0) && decide (u 0x36 2 ≤ 2000) && decide (1 ≤ u 0x38 4) && decide (u 0x38 4 ≤ 8000000)
    && decide (65536 ≤ u 0x3C 4) && decide (u 0x3C 4 ≤ 8388608) && decide (4096 ≤ u 0x40 4) && decide (u 0x40 4 ≤ 65536)
    && decide (10 ≤ u 0x44 2) && decide (u 0x44 2 ≤ 10000) && decide (1 ≤ u 0x46 2) && decide (u 0x46 2 ≤ 60)

/-- The declaration a STREAM_OPEN is admitted against: the one its colour keeps, else the default (R177, R179). -/
def Context.openDecl (x : Context) (colour : Nat) (hevc : Bool) : Decl :=
  match x.kept with
  | some (k, d) => if k = colour then d else defaultDecl hevc
  | none => defaultDecl hevc

/-- PROFILES names profiles of the codec only. -/
def profilesMatch (profiles : BitVec 16) (hevc : Bool) : Bool :=
  if hevc then decide (profiles &&& 0b00111 = 0) else decide (profiles &&& 0b11000 = 0)

/-- The context right after it opens, as far as the folio gives it: counters and FRAME from zero, the pictures that a layer still
selects or an engine still works on, and the settings of FRESH_SOURCE at their defaults (R68, R76, R123). -/
def Context.opening (x : Context) (colour : Nat) (cfg : CtxCfg) (d : Decl) (now : Nat) (pics : List Picture) (old : Nat) : Context :=
  { Context.reset with
    opened := true, everOpened := true, owner := colour, cfg := cfg, decl := d, kept := none, st := .waitRa, engine := x.engine
    picNext := x.picNext, firstPic := x.picNext, oldBuffers := old, cvs := x.cvs, ordNext := x.ordNext, pics := pics, lastPkt := some now, coldWait := some now
    ssrc := if cfg.hostFed || cfg.ssrcLearn then none else some cfg.ssrc
    tokens := List.replicate 4 (cfg.burst * tokenUnit), tokenAt := List.replicate 4 now }

/-- Group memberships of every port stay within R135. -/
def State.groupsFit (s : State) : Bool :=
  (List.range 4).all fun p =>
    let m := s.memberships p
    decide (m.length ≤ 64) && m.all fun g => decide ((g.2.filter (· ≠ 0)).length ≤ 8)

/-- The SRTP slot serves: it holds keys of the profile, from a ring of the colour (R122, R426). -/
def State.slotOk (s : State) (colour srtp slot : Nat) : Bool :=
  let k := s.sec.srtp.getD slot SrtpSlot.reset
  decide (srtp = 0) || (k.full && decide (k.profile = srtp) && decide (k.colour = colour))

/-- A port's memberships change when a context opens or closes: those that came are reported, those that went are left. -/
def State.igmpChange (old : State) (s : State) : State :=
  (List.range 4).foldl (fun t p =>
    let a := old.memberships p
    let b := s.memberships p
    let t := (b.filter fun g => !a.contains g).foldl (fun t g => t.igmpUnsolicited p g false) t
    (a.filter fun g => !(b.any fun x => x.1 = g.1)).foldl (fun t g => t.igmpUnsolicited p g true) t) s

/-- A picture of a closed context stays: a layer selects it, or an engine has started a slice of it (R203). -/
def State.keepsPic (s : State) (i pic : Nat) : Bool :=
  s.selects i pic || s.dec.de.any fun e => (e.jobs ++ e.cur.toList).any fun j => decide (j.ctx = i) && decide (j.pic = pic)

/-- The contexts with the one that a STREAM_OPEN names opened, before it has a home engine. -/
def State.openList (s : State) (c : FCtx) : List Context :=
  let i := c.u 0x10 1
  let cfg := openCfg c
  let x := s.ctx i
  let d := x.openDecl c.colour cfg.hevc
  let y := x.opening c.colour { cfg with ports := if cfg.hostFed then 0 else cfg.ports } d s.tb.now (x.pics.filter fun p => s.keepsPic i p.id)
    (s.heldBuffers i x)
  let y := if cfg.srtp = 0 then y else { y with roc := (s.sec.srtp.getD cfg.keySlot SrtpSlot.reset).roc }
  s.dec.ctx.modify i fun _ => y

/-- STREAM_OPEN (R122). -/
def bodyStreamOpen (c : FCtx) (s : State) : FRes :=
  let i := c.u 0x10 1
  let cfg := openCfg c
  let x := s.ctx i
  let d := x.openDecl c.colour cfg.hevc
  let others := s.dec.ctx.filter (·.opened)
  let l := s.openList c
  let opened := { s with dec := { s.dec with ctx := l } }
  let placed := s.admitContext l i false
  .checks [(openRanges c && profilesMatch d.profiles cfg.hevc, .param),
      ((!x.opened || decide (x.owner = c.colour)) && evOk c s (c.u 0x23 1), .colour),
      (!x.opened && s.slotOk c.colour cfg.srtp cfg.keySlot, .state), (!(others.any fun o => o.cfg.overlaps cfg), .busy),
      (decide ((others.map fun o => o.cfg.maxRate).sum + cfg.maxRate ≤ 8000000) && opened.groupsFit, .nospace),
      (placed.isSome, .capacity)] s <|
    match placed with
    | none => .ok s
    | some l' =>
      let t := { s with dec := { s.dec with ctx := l' } }
      let t := if cfg.hostFed then
          { t with host := { t.host with stmq := t.host.stmq.modify cfg.stm fun _ =>
            { ctx := some i, tokens := cfg.burst * tokenUnit, at_ := s.tb.now } } }
        else t
      .ok ((s.igmpChange t).askRandomAccess i 0)

/-- A STREAM_OPEN from another colour than the one that keeps a declaration on the context discards it, whatever its status (R177). -/
def State.discardKept (s : State) (c : FCtx) : State :=
  s.modCtx (c.u 0x10 1) fun x => match x.kept with
    | some (k, _) => if k = c.colour then x else { x with kept := none }
    | none => x

/-- STREAM_OPEN (R122). -/
def execStreamOpen (dt ring : Nat) (s : State) : Out :=
  .next ((s.elapse dt).runFolio ring 0x0101 fun c t =>
    ((bodyStreamOpen c (t.discardKept c)).guardDemand (t.discardKept c) true).noteDemand)

/-! ### STREAM_CLOSE, STREAM_SPROP, DEC_DECLARE (R123, R128, R177, R178, R203) -/

/-- The contexts that have resumed report SHED with STATE 1 and wait for a random-access picture (R202). -/
def State.resumed (s : State) (cs : List Nat) : State :=
  cs.foldl (fun t c => (t.askRandomAccess c 13).decEvent c 13 1 0) s

/-- Shed contexts are tried again (R202). -/
def State.retryShed (s : State) : State :=
  let r := s.resumeShed s.dec.ctx
  { s with dec := { s.dec with ctx := r.1 } }.resumed r.2

/-- The rank of a class: live-urgent, live, review. -/
def StreamClass.rank : StreamClass → Nat
  | .urgent => 0 | .live => 1 | .review => 2

/-- A context's backlog: pictures whose last slice is complete at the port and not yet decoded (R197). -/
def Context.backlog (x : Context) : Nat :=
  (x.ready.filter (·.lastOfPicture)).length + (x.pics.filter fun p => p.lastSlice && !p.decodedAll && decide (x.firstPic ≤ p.id)).length

/-- The block of DEC_STATE of a context (R204). -/
def Context.decBlock (x : Context) : List Byte :=
  let load := x.load
  let st := match x.st with | .closed => 0 | .waitRa => 1 | .decoding => 2 | .shed => 3
  let taint := match x.pics with | p :: _ => (p.leaves.filter (·.taint)).length | [] => 0
  layout 256 [(0x00, leBytes 1 st), (0x01, leBytes 1 x.engine), (0x02, leBytes 1 x.cfg.cls.rank), (0x04, leBytes 4 (load.1 / (max 1 load.2 * 1000))),
    (0x08, leBytes 4 x.decoded), (0x0C, leBytes 4 x.slicesDec), (0x10, leBytes 4 x.slicesConc), (0x14, leBytes 4 x.skipped),
    (0x18, leBytes 4 x.leavesConc), (0x1C, leBytes 4 x.leavesRef), (0x20, leBytes 4 x.newestFrame.toNat), (0x24, leBytes 2 (sat 16 x.backlog)),
    (0x26, leBytes 2 taint), (0x28, leBytes 4 (x.longSlice / 1000)), (0x2C, leBytes 4 (x.longWait / 1000)), (0x40, x.errs.flatMap (leBytes 2))]

/-- A job that its engine has started, preempted or not. -/
def Job.begun (j : Job) : Bool := decide (j.row ≠ 0) || j.started.isSome

/-- A context closes: what read-back gives of it stays as it stood (R139), its packets are unmatched from then on, jobs not started are discarded, and
pictures stay that a layer selects or a started slice belongs to (R123, R203); its declaration is kept (R177). -/
def State.closeContext (s : State) (i : Nat) : State :=
  let s := { s with dec := { s.dec with de := s.dec.de.map fun (e : Engine) => { e with jobs := e.jobs.filter fun j => j.ctx ≠ i || j.begun } } }
  let t := s.modCtx i fun (x : Context) => { x with
    opened := false, st := .closed, closedBlock := { x with st := .closed }.decBlock, closedDev := s.tb.dev
    kept := some (x.owner, x.decl), next := none, missing := [], pkts := [], ready := [], lostSeqs := [], tail := [], tailPkts := [], tailLost := none
    mid := none, dropping := false, firAt := none, coldWait := none, share := 0, pics := x.pics.filter fun p => s.keepsPic i p.id }
  let t := t.flushEvents i
  let t := { t with
    host := { t.host with stmq := t.host.stmq.map fun (q : StmQ) => if q.ctx = some i then { q with ctx := none } else q } }
  let t := s.igmpChange t
  let t := (List.range 16).foldl (fun t h =>
    let p := (t.head h).plan
    if p.anchors.contains i ∧ p.st ≠ .off then t.planTo h .unplannable else t) t
  t.retryShed

/-- STREAM_CLOSE (R123). -/
def bodyStreamClose (c : FCtx) (s : State) : FRes :=
  let i := c.u 0x10 1
  let x := s.ctx i
  .checks [(decide (i < 64), .param), (!x.opened || decide (x.owner = c.colour), .colour), (x.opened, .state)] s <|
    .done .ok 0 s fun t => t.closeContext i

/-- STREAM_CLOSE (R123). -/
def execStreamClose (dt ring : Nat) (s : State) : Out := .next ((s.elapse dt).runFolio ring 0x0102 bodyStreamClose)

/-- The declaration of a DEC_DECLARE (R177). -/
def declOf (c : FCtx) : Decl :=
  let u := c.u
  { output := if u 0x11 1 = 0 then .nv12 else if u 0x11 1 = 1 then .i420 else .p010, profiles := BitVec.ofNat 16 (u 0x12 2)
    maxW := u 0x14 2, maxH := u 0x16 2, rateNum := u 0x18 4, rateDen := u 0x1C 4, sliceLines := u 0x20 2, maxSlices := u 0x22 1
    priority := u 0x23 1, dpb := u 0x24 1, startAny := bitOf (u 0x25 1) 0, refreshTrust := bitOf (u 0x25 1) 1
    skipNonref := bitOf (u 0x25 1) 2 }

/-- Every field of a DEC_DECLARE lies in its range (R177, R178). -/
def declRanges (c : FCtx) : Bool :=
  let u := c.u
  let p := u 0x12 2
  let d := declOf c
  decide (u 0x10 1 < 64) && decide (u 0x11 1 ≤ 2) && decide (p ≠ 0) && decide (p < 32) && (decide (p % 8 = 0) || decide (p / 8 = 0))
    && decide (bitOf p 4 = decide (u 0x11 1 = 2)) && decide (64 ≤ u 0x14 2) && decide (u 0x14 2 ≤ 4096) && decide (64 ≤ u 0x16 2)
    && decide (u 0x16 2 ≤ 2176) && decide (1 ≤ u 0x18 4) && decide (1 ≤ u 0x1C 4) && decide (u 0x1C 4 ≤ 1001000)
    && decide (u 0x18 4 ≤ 300 * u 0x1C 4) && decide (16 ≤ u 0x20 2) && decide (u 0x20 2 ≤ 2176) && decide (1 ≤ u 0x22 1) && decide (u 0x22 1 ≤ 136)
    && decide (1 ≤ u 0x24 1) && decide (u 0x24 1 ≤ 16) && decide (u 0x25 1 < 8) && decide (u 0x26 2 = 0)
    && decide (d.maxW * d.maxH * d.rateNum ≤ lumaRate (decide (p % 8 = 0)) * d.rateDen)

/-- A change of OUTPUT takes no head over its fetch budget (R231). -/
def State.declChargesOk (s : State) (i : Nat) (d : Decl) : Bool :=
  let t := s.modCtx i fun x => { x with next := some d }
  decide (d.output = (s.ctx i).decl.output) || t.chargesOk (t.view none) (List.range 16)

/-- DEC_DECLARE (R177): kept on a closed context, checked against A4 and A5 on a shed one, admitted again on an open one. -/
def bodyDecDeclare (c : FCtx) (s : State) : FRes :=
  let i := c.u 0x10 1
  let d := declOf c
  let x := s.ctx i
  let l := s.dec.ctx.modify i fun x => { x with next := some d }
  let shed := decide (x.st = .shed)
  let lShed := s.dec.ctx.modify i fun x => { x with decl := d, next := none }
  let placed := if shed then (if s.deviceOk lShed then some l else none) else s.admitContext l i true
  .checks [(declRanges c && (!x.opened || profilesMatch d.profiles x.cfg.hevc), .param), (!x.opened || decide (x.owner = c.colour), .colour),
      ((!x.opened || placed.isSome) && s.declChargesOk i d, .capacity)] s <|
    if !x.opened then .ok (s.modCtx i fun x => { x with kept := some (c.colour, d) })
    else match placed with
      | some l' => .ok { s with dec := { s.dec with ctx := l' } }
      | none => .ok s

/-- DEC_DECLARE (R177). -/
def execDecDeclare (dt ring : Nat) (s : State) : Out := .next ((s.elapse dt).runRaising ring 0x0300 true bodyDecDeclare)

/-! ### Read-back of a context (R139) -/

/-- The colours that may request a context's read-back. -/
def mayRead (c : FCtx) (s : State) (i : Nat) : Bool :=
  let x := s.ctx i
  if x.everOpened then decide (x.owner = c.colour) else isAdmin c s

/-- The block of STREAM_STATE (R139). -/
def Context.streamBlock (x : Context) : List Byte :=
  let k := x.count
  layout 256 [(0x00, leBytes 4 k.received), (0x04, leBytes 4 k.lost), (0x08, leBytes 4 k.late), (0x0C, leBytes 4 k.dup), (0x10, leBytes 4 k.ooo),
    (0x14, leBytes 4 k.rate), (0x18, leBytes 4 k.nospace), (0x1C, leBytes 4 k.auth), (0x20, leBytes 4 k.replay), (0x24, leBytes 4 k.format),
    (0x28, leBytes 4 (match x.ssrc with | some v => v.toNat | none => 0)), (0x2C, leBytes 4 (x.highest.getD 0)), (0x30, leBytes 4 (x.jitter16 / 16)),
    (0x34, leBytes 4 x.roc.toNat), (0x38, leBytes 4 k.slices), (0x3C, leBytes 4 k.srOk), (0x40, leBytes 4 k.srBad), (0x48, leBytes 8 x.lastStamp)]

/-- STREAM_STATE (R139): a context never opened gives a block of zeros. -/
def bodyStreamState (c : FCtx) (s : State) : FRes :=
  let i := c.u 0x10 1
  let w := c.u 0x12 1
  let off := c.u 0x14 4
  .checks ((decide (i < 64), .param) :: (blockChecks c s w off 256).take 1 ++ [(mayRead c s i, .colour)] ++ (blockChecks c s w off 256).drop 1) s
    (writeBlock s w off (if (s.ctx i).everOpened then (s.ctx i).streamBlock else List.replicate 256 0))

/-- STREAM_STATE (R139). -/
def execStreamState (dt ring : Nat) (s : State) : Out := .next ((s.elapse dt).runFolio ring 0x0104 bodyStreamState)

/-! ### Received frames (R118, R121, R124–R136) -/

/-- `n` bytes of a frame at an offset, most significant first. -/
def fb (bs : List Byte) (off n : Nat) : Nat := beNat ((bs.drop off).take n)

/-- What R118 makes of a frame: the VLAN tag, and where the network header starts; or the reason it is dropped for. -/
def frameHead (bs : List Byte) : Option Nat × Nat :=
  if fb bs 12 2 = 0x8100 then (some (fb bs 14 2), 18) else (none, 14)

/-- An IPv4/UDP datagram in a frame. -/
structure Dgram where
  tag     : Option Nat
  srcIp   : Nat
  dstIp   : Nat
  srcUdp  : Nat
  dstUdp  : Nat
  payload : List Byte
  deriving DecidableEq, Repr, Inhabited

/-- Why a frame is dropped at the port, as an index of the port's counters: FCS, too long, two tags or more, not IPv4, fragment,
unmatched, replay mode, pause. -/
inductive FrameKind where
  | drop (reason : Nat)
  | firmware
  | arpReply (ip : Nat) (mac : BitVec 48)
  | ptp (payload : List Byte)
  | udp (d : Dgram)
  deriving DecidableEq, Repr, Inhabited

/-- The frame as the port's filter sees it (R118, R121). -/
def classify (maxFrame : Nat) (fcsOk : Bool) (bs : List Byte) : FrameKind :=
  let (tag, o) := frameHead bs
  let et := fb bs (o - 2) 2
  let ihl := fb bs o 1 % 16 * 4
  let frag := fb bs (o + 6) 2
  let u := o + ihl
  if !fcsOk then .drop 0
  else if maxFrame < bs.length + 4 then .drop 1
  else if et = 0x8100 ∨ et = 0x88A8 ∨ et = 0x9100 then .drop 2
  else if et = 0x8808 then .drop 7
  else if et = 0x0806 then (if fb bs (o + 6) 2 = 2 then .arpReply (fb bs (o + 14) 4) (BitVec.ofNat 48 (fb bs (o + 8) 6)) else .firmware)
  else if et = 0x88F7 then .ptp (bs.drop o)
  else if et ≠ 0x0800 then .drop 3
  else if frag % 0x4000 ≠ 0 then .drop 4
  else if fb bs (o + 9) 1 = 2 then .firmware
  else if fb bs (o + 9) 1 ≠ 17 then .drop 5
  else .udp { tag := tag.map (· % 4096), srcIp := fb bs (o + 12) 4, dstIp := fb bs (o + 16) 4, srcUdp := fb bs u 2, dstUdp := fb bs (u + 2) 2
              payload := ((bs.drop (u + 8)).take (fb bs (u + 4) 2 - 8)) }

/-- The datagram's addresses, port and VLAN match a context (R121). -/
def CtxCfg.reach (x : CtxCfg) (port : Nat) (d : Dgram) (udp : Nat) : Bool :=
  !x.hostFed && x.ports.getLsbD port && decide (x.dstIp.toNat = d.dstIp) && decide (udp = d.dstUdp)
    && decide (d.tag = if x.vlan.getLsbD 15 then some (x.vlan.toNat % 4096) else none) && (decide (x.srcIp = 0) || decide (x.srcIp.toNat = d.srcIp))

/-- Header fields of an RTP packet. -/
def rtpPt (bs : List Byte) : Nat := fb bs 1 1 % 128
def rtpSsrc (bs : List Byte) : Nat := fb bs 8 4
def rtpSeq (bs : List Byte) : Nat := fb bs 2 2
/-- Bytes before the payload: the header, the CSRC list and a header extension, which are skipped (R125). -/
def rtpHead (bs : List Byte) : Nat :=
  let n := 12 + fb bs 0 1 % 16 * 4
  if fb bs 0 1 / 16 % 2 = 1 then n + 4 + fb bs (n + 2) 2 * 4 else n
/-- The payload, without padding. -/
def rtpPayload (bs : List Byte) : List Byte :=
  let p := bs.drop (rtpHead bs)
  if fb bs 0 1 / 32 % 2 = 1 then p.take (p.length - fb bs (bs.length - 1) 1) else p

/-- A context takes the stream an SSRC names: its own SSRC, or any for one that learns it. -/
def Context.ssrcOk (x : Context) (ssrc : Nat) : Bool :=
  match x.ssrc with | some v => decide (v.toNat = ssrc) | none => x.cfg.ssrcLearn

/-- What a context does with the SSRC of a packet (R126): current; new to a context that may take it; or not for it. Every packet of the current
SSRC that reaches the context counts as one from it, stored or not. -/
def Context.mayTake (x : Context) (ssrc now : Nat) : Bool :=
  x.ssrcOk ssrc || (x.cfg.ssrcLearn && (x.bye || (match x.lastPkt with | some t => decide (t + 1000000000 ≤ now) | none => true)))

/-- The consumer of a datagram (R121, steps 1, 2, 4 and 5). -/
inductive Consumer where
  | ptp | channel | rtp (c : Nat) | foreign (c : Nat) | rtcp (c : Nat) | nobody
  deriving DecidableEq, Repr, Inhabited

/-- The SSRC of the first RTCP packet's sender. -/
def rtcpSsrc (bs : List Byte) : Nat := fb bs 4 4

/-- PTP takes a message: it runs here, the port's role is enabled for the transport, and the message is of the configured domain (R121, R142, R143,
R145). A datagram must go to a multicast group or to the port's own address (PRESUMED, IEEE 1588-2019 Annex C, log entry 12). -/
def State.ptpTakes (s : State) (port : Nat) (l2 : Bool) (dst : Option Nat) (bs : List Byte) : Bool :=
  let p := s.ptp port
  p.enable && s.runsPtp && decide (p.l2 = l2) && decide (fb bs 4 1 = s.tb.domain)
    && (match dst with | some ip => isGroup (BitVec.ofNat 32 ip) || decide (ip = (s.portIp (s.port port)).toNat) | none => true)

/-- The consumer of a datagram. Among contexts that all but the SSRC match, the one whose stream it is takes it. -/
def State.consumer (s : State) (port : Nat) (d : Dgram) : Consumer :=
  let opened := (List.range 64).filter fun c => (s.ctx c).opened
  let chan := (List.range 8).any fun ch => (s.chanRing ch).isSome && decide ((s.chan ch).udp = d.dstUdp)
      && (s.chan ch).accepts port (BitVec.ofNat 32 d.srcIp) && s.net.ports.any fun p => decide (p.mode ≠ 0) && decide ((s.portIp p).toNat = d.dstIp)
  let rtp := opened.filter fun c => (s.ctx c).cfg.reach port d (s.ctx c).cfg.dstUdp && decide ((s.ctx c).cfg.pt = rtpPt d.payload)
  let rtcp := opened.filter fun c => (s.ctx c).cfg.reach port d (s.ctx c).cfg.rtcpUdp
  if (d.dstUdp = 319 ∨ d.dstUdp = 320) ∧ s.ptpTakes port false (some d.dstIp) d.payload then .ptp
  else if chan then .channel
  else match rtp.find? (fun c => (s.ctx c).ssrcOk (rtpSsrc d.payload)), rtp with
    | some c, _ => .rtp c
    | none, c :: _ => if (s.ctx c).mayTake (rtpSsrc d.payload) s.tb.now then .rtp c else .foreign c
    | none, [] =>
      match rtcp.find? (fun c => (s.ctx c).ssrcOk (rtcpSsrc d.payload)), rtcp with
      | some c, _ => .rtcp c
      | none, c :: _ => .rtcp c
      | none, [] => .nobody

/-- A packet is dropped for a reason of R138: bits 1 LATE, 2 RATE, 3 NOSPACE, 4 AUTH, 5 REPLAY, 6 FORMAT. -/
def Context.dropFor (x : Context) (bit : Nat) : Context :=
  let k := x.count
  { x with
    intReasons := x.intReasons ||| BitVec.ofNat 8 (2 ^ bit), intDropped := sat 32 (x.intDropped + 1)
    count := { k with
      late := if bit = 1 then sat 32 (k.late + 1) else k.late, rate := if bit = 2 then sat 32 (k.rate + 1) else k.rate
      nospace := if bit = 3 then sat 32 (k.nospace + 1) else k.nospace, auth := if bit = 4 then sat 32 (k.auth + 1) else k.auth
      replay := if bit = 5 then sat 32 (k.replay + 1) else k.replay, format := if bit = 6 then sat 32 (k.format + 1) else k.format } }

/-- The tokens of a port's bucket now (R124). -/
def Context.credit (x : Context) (port now : Nat) : Nat :=
  min (x.cfg.burst * tokenUnit) (x.tokens.getD port 0 + (now - x.tokenAt.getD port 0) * x.cfg.maxRate)

/-- A packet of `n` bytes is policed: the context with its tokens taken, or none where there are too few. -/
def Context.police (x : Context) (port now n : Nat) : Option Context :=
  let have_ := x.credit port now
  if n * tokenUnit ≤ have_ then some { x with tokens := x.tokens.set port (have_ - n * tokenUnit), tokenAt := x.tokenAt.set port now } else none

/-- The extended sequence number nearest to the highest (R136); the first takes the rollover counter under SRTP (R133). -/
def Context.extend (x : Context) (seq : Nat) : Nat :=
  match x.highest with
  | none => (if x.cfg.srtp = 0 then 0 else x.roc.toNat) * 65536 + seq
  | some h =>
    let d := signedOf 16 ((seq + 65536 - h % 65536) % 65536)
    if (h : Int) + d < 0 then seq else ((h : Int) + d).toNat

/-! #### Payload formats (R125, R129) -/

/-- NAL units of an aggregation packet: each behind its 2-byte size (`n` bounds them). -/
def aggregated : Nat → List Byte → List (List Byte)
  | 0, _ => []
  | n + 1, bs => if bs.length < 3 then [] else (bs.drop 2).take (fb bs 0 2) :: aggregated n (bs.drop (2 + fb bs 0 2))

/-- What a payload holds: whole NAL units, or a piece of one, with its start and end. -/
inductive PayKind where
  | units (l : List (List Byte))
  | piece (type : Nat) (start stop : Bool)
  | unsupported
  deriving DecidableEq, Repr, Inhabited

/-- The type of a NAL unit. -/
def nalType (hevc : Bool) (bs : List Byte) : Nat := if hevc then fb bs 0 1 / 2 % 64 else fb bs 0 1 % 32

/-- A NAL unit that is a slice. -/
def isSlice (hevc : Bool) (type : Nat) : Bool := if hevc then decide (type < 32) else decide (1 ≤ type) && decide (type ≤ 5)

/-- A parameter set. -/
def isParamSet (hevc : Bool) (type : Nat) : Bool := if hevc then decide (32 ≤ type) && decide (type ≤ 34) else decide (type = 7) || decide (type = 8)

/-- The payload under RFC 6184 modes 0 and 1, or RFC 7798 without DONL (R125). -/
def payKind (hevc : Bool) (bs : List Byte) : PayKind :=
  let t := nalType hevc bs
  if bs.isEmpty then .unsupported
  else if hevc then
    if t = 48 then .units (aggregated bs.length (bs.drop 2))
    else if t = 49 then .piece (fb bs 2 1 % 64) (fb bs 2 1 / 128 % 2 = 1) (fb bs 2 1 / 64 % 2 = 1)
    else if t = 50 then .unsupported
    else .units [bs]
  else
    if t = 24 then .units (aggregated bs.length (bs.drop 1))
    else if t = 28 then .piece (fb bs 1 1 % 32) (fb bs 1 1 / 128 % 2 = 1) (fb bs 1 1 / 64 % 2 = 1)
    else if 25 ≤ t then .unsupported
    else .units [bs]

/-! #### Slices (R129, R136) -/

/-- A place in a context's sequence: a packet stored, or one declared lost. -/
inductive Item where
  | pkt (p : Pkt)
  | lost (eseq : Nat)
  deriving DecidableEq, Repr, Inhabited

def Item.eseq : Item → Nat
  | .pkt p => p.eseq
  | .lost n => n

/-- An item takes its place in rising order of extended sequence number. -/
def insertItem (i : Item) (l : List Item) : List Item :=
  l.takeWhile (fun q => decide (q.eseq < i.eseq)) ++ [i] ++ l.dropWhile (fun q => decide (q.eseq < i.eseq))

/-- What a context holds that has not been passed on, in sequence. -/
def Context.items (x : Context) : List Item := x.lostSeqs.foldl (fun l n => insertItem (.lost n) l) (x.pkts.map .pkt)

/-- The run that starts here ends a slice with every packet of it there. -/
def runEnds : List Item → Bool
  | .pkt p :: rest =>
    p.last || (match rest with
      | .pkt q :: _ => decide (q.eseq = p.eseq + 1) && !q.first && runEnds rest
      | _ => false)
  | _ => false

/-- The first packet of the newest slice that is complete. -/
def newestComplete : List Item → Option Nat
  | [] => none
  | i :: rest => match newestComplete rest with
    | some e => some e
    | none => match i with
      | .pkt p => if p.slice && p.first && runEnds (i :: rest) then some p.eseq else none
      | .lost _ => none

/-- Items cut into slices as far as no packet is still awaited: `next` is the number that comes next, `group` the slice being
gathered. The slices, the slice still being gathered, what waits behind a gap, and the number that comes next. -/
def cutItems : List Item → Option Nat → List Item → List (List Item) → List (List Item) × List Item × List Item × Option Nat
  | [], next, group, out => (out, group, [], next)
  | i :: rest, next, group, out =>
    if next = none ∨ next = some i.eseq then
      match i with
      | .lost n => cutItems rest (some (n + 1)) (group ++ [i]) out
      | .pkt p =>
        let out := if p.first && !group.isEmpty then out ++ [group] else out
        let group := (if p.first then [] else group) ++ [i]
        if p.last then cutItems rest (some (p.eseq + 1)) [] (out ++ [group]) else cutItems rest (some (p.eseq + 1)) group out
    else (out, group, i :: rest, next)

/-- The packets of a group, and its first lost packet. -/
def groupPkts (g : List Item) : List Pkt := g.filterMap fun i => match i with | .pkt p => some p | .lost _ => none
def groupLost (g : List Item) : Option Nat := g.findSome? fun i => match i with | .lost n => some n | .pkt _ => none

/-- The NAL unit that the fragments of a group carry, its header rebuilt from the first (RFC 6184 section 5.8, RFC 7798 section 4.4.3). -/
def joinPieces (hevc : Bool) (ps : List Pkt) : List Byte :=
  let pay := ps.map fun p => rtpPayload p.bytes
  match pay with
  | [] => []
  | p :: _ =>
    let t := fb p (if hevc then 2 else 1) 1
    let head := if hevc then beBytes 2 (fb p 0 2 / 2 ^ 15 * 2 ^ 15 + t % 64 * 2 ^ 9 + fb p 0 2 % 2 ^ 9) else beBytes 1 (fb p 0 1 / 32 * 32 + t % 32)
    head ++ pay.flatMap fun q => q.drop (if hevc then 3 else 2)

/-- The slices of a group: one of fragments, each slice of an aggregate or single NAL unit packet, or one wholly lost. A marked packet with no
slice gives the end of the access unit alone: no packets, and none lost (R125). -/
def groupSlices (hevc : Bool) (now : Nat) (g : List Item) : List ReadySlice :=
  let ps := groupPkts g
  let mk (l : List Pkt) (last : Bool) (nal : List Byte) : ReadySlice :=
    { pkts := l, lostSeq := groupLost g, completeAt := now, lastOfPicture := last, nal := nal }
  let marked := ps.any (·.marker)
  let none_ : List ReadySlice := if marked then [{ ReadySlice.reset with completeAt := now, lastOfPicture := true }] else []
  match ps with
  | [] => [mk [] false []]
  | p :: _ =>
    match payKind hevc (rtpPayload p.bytes) with
    | .units l =>
      let slices := l.filter fun n => isSlice hevc (nalType hevc n)
      if slices.isEmpty then none_ else slices.zipIdx.map fun x => mk [p] (p.marker && decide (x.2 + 1 = slices.length)) x.1
    | .piece t _ _ => if isSlice hevc t then [mk ps marked (joinPieces hevc ps)] else none_
    | .unsupported => none_

/-- Parameter sets that a group carries: whole, in an aggregate, or in fragments none of which is missing (R128). -/
def groupSets (hevc : Bool) (g : List Item) : List (List Byte) :=
  let ps := groupPkts g
  match ps.map fun p => payKind hevc (rtpPayload p.bytes) with
  | [] => []
  | .units l :: _ => l.filter fun n => isParamSet hevc (nalType hevc n)
  | .piece t _ _ :: _ => if isParamSet hevc t && (groupLost g).isNone && ps.length ≠ 0 then [joinPieces hevc ps] else []
  | .unsupported :: _ => []

/-- An Exp-Golomb number of a bit string: the value, and the bits behind it (`n` bounds the zeros before it). -/
def golomb (bits : List Bool) : Nat × List Bool :=
  let z := (bits.takeWhile fun b => !b).length
  let rest := bits.drop (z + 1)
  (2 ^ z - 1 + (rest.take z).foldl (fun a b => 2 * a + b2n b) 0, rest.drop z)

/-- The bits of a NAL unit from an offset in bytes, most significant first, without the emulation prevention bytes of its first 64 bytes. -/
def nalBits (bs : List Byte) (off : Nat) : List Bool :=
  let raw := (bs.drop off).take 64
  let clean := (raw.zipIdx.filter fun x => !(decide (2 ≤ x.2) && decide (x.1 = 3) && decide (raw.getD (x.2 - 1) 1 = 0) && decide (raw.getD (x.2 - 2) 1 = 0))).map (·.1)
  clean.flatMap fun b => (List.range 8).map fun i => b.getLsbD (7 - i)

/-- The bits of an HEVC profile_tier_level for a number of sub-layers less one: the general part, the presence flags, and what each sub-layer has. -/
def skipPtl (sub : Nat) (bits : List Bool) : List Bool :=
  let rest := bits.drop 96
  if sub = 0 then rest
  else
    let flags := (List.range sub).map fun i => (if rest.getD (2 * i) false then 88 else 0) + (if rest.getD (2 * i + 1) false then 8 else 0)
    rest.drop (16 + flags.sum)

/-- The identifier of a parameter set (H.264 clauses 7.3.2.1, 7.3.2.2; HEVC clauses 7.3.2.1 to 7.3.2.3). -/
def setId (hevc : Bool) (bs : List Byte) : Nat :=
  let t := nalType hevc bs
  if hevc then
    if t = 32 then fb bs 2 1 / 16
    else if t = 33 then
      let bits := nalBits bs 2
      (golomb (skipPtl (fb bs 2 1 / 2 % 8) (bits.drop 8))).1
    else (golomb (nalBits bs 2)).1
  else if t = 7 then (golomb (nalBits bs 4)).1 else (golomb (nalBits bs 1)).1

/-- A parameter set comes into force: it replaces the one of its kind with its identifier (R128). -/
def Context.takeSet (x : Context) (bs : List Byte) : Context :=
  let hevc := x.cfg.hevc
  { x with sprop := bs :: x.sprop.filter fun y => !(decide (nalType hevc y = nalType hevc bs) && decide (setId hevc y = setId hevc bs)) }

/-- The parameter set of a kind with an identifier. -/
def Context.setOf (x : Context) (type id : Nat) : Option (List Byte) :=
  x.sprop.find? fun y => decide (nalType x.cfg.hevc y = type) && decide (setId x.cfg.hevc y = id)

/-- The picture parameter set that a slice header names: behind the first macroblock and the slice type, or behind the flags at its start. -/
def slicePps (hevc : Bool) (nal : List Byte) : Nat :=
  if hevc then (golomb ((nalBits nal 2).drop (if 16 ≤ nalType true nal ∧ nalType true nal ≤ 23 then 2 else 1))).1
  else (golomb (golomb (golomb (nalBits nal 1)).2).2).1

/-- The sequence parameter set that a picture parameter set names. -/
def ppsSps (hevc : Bool) (pps : List Byte) : Nat := (golomb (golomb (nalBits pps (if hevc then 2 else 1))).2).1

/-- The context has the parameter sets that a slice names, by STREAM_SPROP or in-band (R128, R188): its picture set, the sequence set of that, and
for HEVC the video set of that. -/
def Context.setsFor (x : Context) (nal : List Byte) : Bool :=
  let hevc := x.cfg.hevc
  match x.setOf (if hevc then 34 else 8) (slicePps hevc nal) with
  | none => false
  | some pps => match x.setOf (if hevc then 33 else 7) (ppsSps hevc pps) with
    | none => false
    | some sps => !hevc || (x.setOf 32 (fb sps 2 1 / 16)).isSome

/-- STREAM_SPROP (R128). -/
def bodyStreamSprop (c : FCtx) (s : State) : FRes :=
  let i := c.u 0x10 1
  let n := c.u 0x12 2
  let x := s.ctx i
  .checks [(decide (i < 64) && decide (1 ≤ n) && decide (n ≤ 232), .param), (!x.opened || decide (x.owner = c.colour), .colour), (x.opened, .state)] s <|
    .ok (s.modCtx i fun x => x.takeSet (c.folio.bytesAt 0x18 n))

/-- STREAM_SPROP (R128). -/
def execStreamSprop (dt ring : Nat) (s : State) : Out := .next ((s.elapse dt).runFolio ring 0x0103 bodyStreamSprop)

/-- Packets are declared lost (R136). -/
def Context.declareLost (x : Context) (l : List Nat) : Context :=
  match l with
  | [] => x
  | n :: _ =>
    { x with
      missing := x.missing.filter fun m => !l.contains m.eseq, lostSeqs := x.lostSeqs ++ l, lostLog := x.lostLog ++ l
      count := { x.count with lost := sat 32 (x.count.lost + l.length) }
      intReasons := x.intReasons ||| 1, intFirst := if x.intLost = 0 then n else x.intFirst, intLost := sat 32 (x.intLost + l.length) }

/-- Slices complete, or declared to lack packets, are passed on to firmware (R129, R136). -/
def Context.passOn (x : Context) (now : Nat) : Context :=
  let x := match newestComplete x.items with
    | some e => x.declareLost ((x.missing.filter fun (m : Missing) => decide (m.eseq < e)).map Missing.eseq)
    | none => x
  let r := cutItems x.items x.passNext [] []
  let x := (r.1.flatMap (groupSets x.cfg.hevc)).foldl Context.takeSet x
  let slices := r.1.flatMap (groupSlices x.cfg.hevc now)
  let left := r.2.1 ++ r.2.2.1
  let lostLeft : List Nat := left.filterMap fun (i : Item) => match i with | .lost n => some n | .pkt _ => none
  { x with
    pkts := groupPkts left, lostSeqs := lostLeft
    passNext := match r.2.1 with | i :: _ => some i.eseq | [] => r.2.2.2
    ready := x.ready ++ slices
    count := { x.count with slices := sat 32 (x.count.slices + (slices.filter fun r => r.lostSeq.isNone && !r.pkts.isEmpty).length) } }

/-- Where a packet lies: its store address and bytes. -/
def Pkt.place (p : Pkt) : Nat × Nat := (p.addr, p.bytes.length)

/-- The packet blocks a context holds, by address and bytes: of packets stored, slices waiting, and slices being decoded (R123, R124). The slices of
one packet share its blocks. -/
def State.packetBlocks (s : State) (c : Nat) : List (Nat × Nat) :=
  let x := s.ctx c
  (x.pkts.map Pkt.place ++ x.ready.flatMap (fun r => r.pkts.map Pkt.place)
    ++ s.dec.de.flatMap fun e => (e.jobs ++ e.cur.toList).flatMap fun j => if j.ctx = c then j.blocks else []).eraseDups

/-- Bytes a context holds in its packet buffer, in whole blocks. -/
def State.bufUsed (s : State) (c : Nat) : Nat := ((s.packetBlocks c).map fun q => 256 * ceilDiv q.2 256).sum

/-- The packet buffer of a context in the store: 64 MiB, below the picture buffers (DESIGN CHOICE, log entry 66). -/
def packetPool (c : Nat) : Nat := regionHigh + c * 0x4000000

/-- The lowest place of a context's packet buffer for a packet of some bytes. -/
def State.placePacket (s : State) (c n : Nat) : Nat :=
  let size (k : Nat) : Nat := 256 * ceilDiv k 256
  let r := s.packetBlocks c
  ((packetPool c :: r.map fun q => q.1 + size q.2).filter fun b => r.all fun q => decide (b + size n ≤ q.1) || decide (q.1 + size q.2 ≤ b)).min?.getD (packetPool c)

/-! ### Capture times (R74–R80, R156) -/

/-- CAPTURE of a picture with what its flags say of it. -/
structure Capture where
  time    : Nat
  arrival : Bool
  hold    : Bool
  clamped : Bool
  deriving DecidableEq, Repr, Inhabited

/-- The capture time of a picture whose first packet is `p`, under the FRESH_SOURCE settings in force when that packet arrived (R74–R79, R101, R156). -/
def Context.captureOf (x : Context) (p : Pkt) : Capture :=
  let sr := if p.maps then x.srs.find? fun (r : SenderReport) => decide (r.stamp < p.stamp) else none
  match sr with
  | some r =>
    let d := signedOf 32 ((p.rtpTime - r.r0).toNat)
    let t := ((r.t : Int) + d * 1000000000 / 90000).toNat
    { time := min t p.stamp, arrival := false, clamped := decide (p.stamp < t)
      hold := p.holdover || decide (p.holdLimit * 100000 < p.stamp - r.stamp) }
  | none => { time := p.stamp - p.allowance * 100000, arrival := true, hold := p.holdover, clamped := false }

/-! ### Arrival offsets of planned heads (R107, R109) -/

/-- A slice's arrival offset is recorded for a learning head: the smallest and the largest. -/
def Plan.record (p : Plan) (c k : Nat) (off : Int) (last : Bool) (cap : Nat) : Plan :=
  let old := p.slices.find? fun x => decide (x.1 = c) && decide (x.2.1 = k)
  let new := match old with
    | some x => (c, k, min x.2.2.1 off, max x.2.2.2.1 off, x.2.2.2.2)
    | none => (c, k, off, off, 0)
  let n := match p.seen.find? fun x => x.1 = c with | some x => x.2.1 | none => 0
  { p with
    slices := (p.slices.filter fun x => !(decide (x.1 = c) && decide (x.2.1 = k))) ++ [new]
    seen := (p.seen.filter fun x => x.1 ≠ c) ++ [(c, if last then n + 1 else n, cap)] }

/-- The latest arrival the plan allows a slice, after its CAPTURE. -/
def Plan.latest (p : Plan) (c k : Nat) : Option Int :=
  (p.slices.find? fun x => decide (x.1 = c) && decide (x.2.1 = k)).map fun x => x.2.2.2.1 + p.margin * 1000

/-- A head begins to learn afresh. -/
def State.relearn (s : State) (h : Nat) : State :=
  (s.modHead h fun x => { x with plan := { x.plan with slices := [], seen := [], misses := [] } }).planTo h .learning

/-- A plan miss is counted; ten within 10 s send the head back to LEARNING (R109). -/
def State.planMiss (s : State) (h : Nat) : State :=
  let m := s.tb.now :: (s.head h).plan.misses.filter fun t => decide (s.tb.now < t + 10000000000)
  let s := s.modHead h fun x => { x with plan := { x.plan with misses := m } }
  if 10 ≤ m.length then s.relearn h else s

/-- The arrival of a slice of a context reaches the heads with a plan: those that learn record it, those that run to a plan check it. -/
def State.planSlice (s : State) (c k : Nat) (off : Int) (last : Bool) (cap : Nat) : State :=
  (List.range 16).foldl (fun (t : State) h =>
    let q := (t.head h).plan
    if !q.anchors.contains c then t
    else if q.st = .learning then t.modHead h fun x => { x with plan := x.plan.record c k off last cap }
    else if q.st = .planned then (match q.latest c k with | some l => if l < off then t.planMiss h else t | none => t)
    else t) s

/-- The context of another member that an anchor names: one shared with this member, where its own context of the number is not open (R112). -/
def State.rxAnchor (s : State) (a : Nat) : Option RxContext :=
  if (s.ctx a).opened then none else s.gath.rx.find? fun (x : RxContext) => decide (x.context = a) && !x.ended

/-- What an anchor's way over the spine adds, ns: 40 µs for receipt, store write and publication and 2 µs a hop (R112). -/
def State.anchorWay (s : State) (a : Nat) : Nat := match s.rxAnchor a with | some x => 40000 + 2000 * (s.member x.member).hops | none => 0

/-- The last packet of a slice has arrived: heads that learn record it, heads that run to a plan check it. -/
def State.noteSlice (s : State) (c : Nat) (r : ReadySlice) : State :=
  match r.pkts with
  | [] => s
  | p :: _ =>
    let x := s.ctx c
    let new := decide (x.planRtp ≠ some p.rtpTime)
    let first := if new then p.stamp else x.planFirst
    let k := if new then 0 else x.planNo
    let cap := (x.captureOf { p with stamp := first }).time
    let off : Int := ((r.pkts.getLast?.getD p).stamp : Int) - cap
    (s.modCtx c fun x => { x with planRtp := some p.rtpTime, planFirst := first, planNo := k + 1 }).planSlice c k off r.lastOfPicture cap

/-- Slices that a context has just passed on are noted. -/
def State.noteSlices (s : State) (c before : Nat) : State := ((s.ctx c).ready.drop before).foldl (fun t r => t.noteSlice c r) s

/-- The first leaf of a learnt slice, once its header has been parsed. -/
def State.learnLeaf (s : State) (c k leaf : Nat) : State :=
  { s with comp := { s.comp with head := s.comp.head.map fun (h : Head) =>
      { h with plan := { h.plan with slices := h.plan.slices.map fun x =>
        if x.1 = c ∧ x.2.1 = k then (c, k, x.2.2.1, x.2.2.2.1, leaf) else x } } } }

/-! #### RTP packets -/

/-- The context restarts on another SSRC (R126): the decoder starts afresh, FRAME goes on, and the rollover counter is the key slot's initial one
(R132, R133). -/
def State.newSsrc (s : State) (c ssrc : Nat) : State :=
  let first := (s.ctx c).ssrc.isNone
  let s := s.modCtx c fun x => { x with
    ssrc := some (BitVec.ofNat 32 ssrc), bye := false, highest := none, seen := [], missing := [], lostSeqs := [], pkts := [], passNext := none
    transit := none, jitter16 := 0, srs := [], sps := none, crossed := false, reordered := false, lostLog := [], baseSeq := none, rrPrior := (0, 0)
    received := 0, roc := if x.cfg.srtp = 0 then 0 else (s.sec.srtp.getD x.cfg.keySlot SrtpSlot.reset).roc }
  let s := if first || decide ((s.ctx c).st = .shed) then s else s.askRandomAccess c 0
  s.postStream c 0 0

/-- The interarrival jitter of RFC 3550 section 6.4.1, in sixteenths of a 90 kHz unit (R137). -/
def Context.countJitter (x : Context) (stamp rtpTime : Nat) : Context :=
  let t : Int := (stamp * 9 / 100000 : Nat) - (rtpTime : Int)
  match x.transit with
  | none => { x with transit := some t }
  | some p =>
    let d := (signedOf 32 (wordOf 32 (t - p))).natAbs
    { x with transit := some t, jitter16 := x.jitter16 + d - (x.jitter16 + 8) / 16 }

/-- The context names the grandmaster and domain that device time follows; a journal does not hold them (R155, log entry 76). -/
def State.ownClock (s : State) (x : Context) : Bool := s.top.replay || (decide (x.cfg.gmId = s.tb.gm) && decide (x.cfg.domain = s.tb.domain))

/-- The context's capture times are mapped at all (R75), for a picture whose first packet arrived under a FRESH_SOURCE MODE. -/
def State.mapsTime (s : State) (x : Context) (force : Bool) : Bool :=
  !x.cfg.hostFed && !force && x.cfg.refclkPtp && s.ownClock x && s.timeLocked

/-- A packet as NET stores it for a context. -/
def Context.packet (x : Context) (s : State) (e : Nat) (bs : List Byte) (kind : PayKind) : Pkt :=
  let (slice, first, last) := match kind with
    | .units l => (l.any fun n => isSlice x.cfg.hevc (nalType x.cfg.hevc n), true, true)
    | .piece t a b => (isSlice x.cfg.hevc t, a, b)
    | .unsupported => (false, true, true)
  { Pkt.reset with
    eseq := e, rtpTime := BitVec.ofNat 32 (fb bs 4 4), stamp := s.tb.dev, stepNo := s.tb.steps, slice := slice, first := first, last := last
    marker := decide (128 ≤ fb bs 1 1), bytes := bs, holdover := decide (s.tb.lock = .holdover), maps := s.mapsTime x x.forceArrival, force := x.forceArrival, allowance := x.allowance
    holdLimit := x.holdLimit }

/-- A packet takes its place among those stored. -/
def insertPkt (p : Pkt) (l : List Pkt) : List Pkt :=
  l.takeWhile (fun q => decide (q.eseq < p.eseq)) ++ [p] ++ l.dropWhile (fun q => decide (q.eseq < p.eseq))

/-- A packet is taken into the context: the sequence goes on, packets missing before it are awaited for REORDER µs, and it is stored. -/
def Context.store (x : Context) (s : State) (port : Nat) (p : Pkt) : Context :=
  let e := p.eseq
  let high := match x.highest with | none => e | some h => max h e
  let gap : List Missing := match x.highest with
    | none => []
    | some h => if h < e then (List.range (e - h - 1)).map fun i => { eseq := h + 1 + i, deadline := s.tb.now + x.cfg.reorder * 1000 } else []
  let late := x.missing.any fun m => m.eseq = e
  { x with
    highest := some high, roc := BitVec.ofNat 32 (high / 65536), missing := (x.missing.filter fun m => m.eseq ≠ e) ++ gap
    seen := ((e, port) :: x.seen).filter fun n => decide (high < n.1 + 128), pkts := insertPkt p x.pkts
    count := { x.count with ooo := if late then sat 32 (x.count.ooo + 1) else x.count.ooo } }

/-- A packet of the current SSRC has reached the context: the SSRC is live and not silent (R126, R139). -/
def Context.heard (x : Context) (s : State) : Context := { x with lastPkt := some s.tb.now, lastStamp := s.tb.dev, silent := false }

/-- What becomes of an authentic packet of a context (R125, R126, R130, R133, R136): the reason of R138 it is dropped for, a later copy of one
received, or one to be stored. A packet that is not awaited and not newer than the highest is a copy, unless it has been declared lost, or belongs
before the first one. -/
inductive Fate where
  | drop (bit : Nat)
  | copy
  | store
  deriving DecidableEq, Repr, Inhabited

def Context.fate (x : Context) (port e : Nat) (kind : PayKind) : Fate :=
  let copies := x.seen.filter fun n => n.1 = e
  let srtp := decide (x.cfg.srtp ≠ 0)
  match x.highest with
  | none => if kind = .unsupported then .drop 6 else .store
  | some h =>
    let fresh := decide (h < e) || x.missing.any fun m => m.eseq = e
    if srtp && copies.any (fun n => n.2 = port) then .drop 5
    else if !copies.isEmpty then .copy
    else if fresh then (if kind = .unsupported then .drop 6 else .store)
    else if srtp && decide (e + 128 ≤ h) then .drop 5
    else if x.lostLog.contains e || (match x.baseSeq with | some b => decide (e < b) | none => false) then .drop 1
    else .copy

/-- The MKI at the end of a protected packet, before the tag of an AES-CM profile, belongs to a key of the slot (R132, R133). -/
def SrtpSlot.knowsMki (k : SrtpSlot) (profile : Nat) (bs : List Byte) : Bool :=
  let tag := if profile = 2 then 4 else if profile = 1 ∨ profile = 3 then 10 else 0
  k.keys.any fun q => decide ((bs.drop (bs.length - tag - q.mki.length)).take q.mki.length = q.mki)

/-- A packet or report of a context is authentic: it carries no protection, or a key of its slot with the packet's MKI authenticates it (R131,
R133). What removing the protection gives comes with the frame (log entry 2). -/
def State.authentic (s : State) (x : Context) (f : FrameIn) (bs : List Byte) : Bool :=
  decide (x.cfg.srtp = 0) || (f.authOk && (s.sec.srtp.getD x.cfg.keySlot SrtpSlot.reset).knowsMki x.cfg.srtp bs)

/-- An authentic RTP packet, without its protection (R124–R137). -/
def State.takeRtp (s : State) (c port : Nat) (bs : List Byte) (policed : Bool) : State :=
  let dropFor (s : State) (bit : Nat) : State := s.modCtx c fun x => x.dropFor bit
  if fb bs 0 1 / 64 ≠ 2 then dropFor s 6
  else
    let s := if (s.ctx c).ssrcOk (rtpSsrc bs) && (s.ctx c).ssrc.isSome then s else s.newSsrc c (rtpSsrc bs)
    let s := s.modCtx c fun x => x.heard s
    let x := s.ctx c
    let e := x.extend (rtpSeq bs)
    let kind := payKind x.cfg.hevc (rtpPayload bs)
    match x.fate port e kind with
    | .copy => s.modCtx c fun x => { x with seen := (e, port) :: x.seen, count := { x.count with dup := sat 32 (x.count.dup + 1) } }
    | .drop 5 => dropFor s 5
    | .drop 6 => dropFor s 6
    | .drop bit => dropFor (s.modCtx c fun x => x.countJitter s.tb.dev (fb bs 4 4)) bit
    | .store =>
      let s := s.modCtx c fun x => { x.countJitter s.tb.dev (fb bs 4 4) with received := x.received + 1, baseSeq := some (x.baseSeq.getD e) }
      if !policed then dropFor s 2
      else if (s.ctx c).st = .shed then s.modCtx c fun x => { x with highest := some (max e (x.highest.getD e)) }
      else if (s.ctx c).cfg.buffer * 1024 < s.bufUsed c + 256 * ceilDiv bs.length 256 then dropFor s 3
      else
        let p := { x.packet s e bs kind with addr := s.placePacket c bs.length }
        let s := s.storeWrite p.addr (padTo (256 * ceilDiv bs.length 256) bs)
        (s.modCtx c fun x => (x.store s port p).passOn s.tb.now).noteSlices c (s.ctx c).ready.length

/-- An RTP packet of a context (R124–R136): policed on its own port, unprotected, checked against the replay window and the features
of R125, merged with the other copies, and stored. One that the policer drops still counts as a packet of its SSRC where its header is in the clear. -/
def State.receiveRtp (s : State) (c port : Nat) (f : FrameIn) (d : Dgram) : State :=
  let s := s.modCtx c fun x => { x with count := { x.count with received := sat 32 (x.count.received + 1) } }
  let x := s.ctx c
  let bs := if x.cfg.srtp = 0 then d.payload else f.plain
  match x.police port s.tb.now d.payload.length with
  | none => if s.authentic x f d.payload && x.ssrc.isSome && x.ssrcOk (rtpSsrc bs) then s.takeRtp c port bs false else s.modCtx c fun x => x.dropFor 2
  | some y =>
    let s := s.modCtx c fun _ => y
    if s.authentic y f d.payload then s.takeRtp c port bs true
    else s.modCtx c fun x => (if x.ssrc.isSome && x.ssrcOk (rtpSsrc d.payload) then x.heard s else x).dropFor 4

/-! #### RTCP (R125, R139, R155) -/

/-- The sender report's time: the NTP-format timestamp read as PTP time, ns (R156). -/
def srTime (sec frac : Nat) : Int := ((sec : Int) - 2208988800) * 1000000000 + (frac * 1000000000 / 2 ^ 32 : Nat)

/-- A sender report of the context is accepted (R155). -/
def State.srOk (s : State) (x : Context) (t : Int) : Bool :=
  x.cfg.refclkPtp && s.ownClock x && s.timeLocked && decide (0 ≤ t)
    && decide ((t - s.tb.dev).natAbs ≤ x.cfg.srWindow * 1000000)

/-- One packet of a compound RTCP datagram. -/
def State.rtcpPacket (s : State) (c : Nat) (bs : List Byte) : State :=
  let x := s.ctx c
  let pt := fb bs 1 1
  if pt = 200 then
    if !x.ssrcOk (fb bs 4 4) then s
    else
      let t := srTime (fb bs 8 4) (fb bs 12 4)
      if s.srOk x t then
        s.modCtx c fun x => { x with
          srs := { t := t.toNat, r0 := BitVec.ofNat 32 (fb bs 16 4), stamp := s.tb.dev, ntp := BitVec.ofNat 32 (fb bs 10 4) } :: x.srs
          count := { x.count with srOk := sat 32 (x.count.srOk + 1) } }
      else s.modCtx c fun x => { x with count := { x.count with srBad := sat 32 (x.count.srBad + 1) } }
  else if pt = 203 then
    let who := (List.range (fb bs 0 1 % 32)).map fun i => fb bs (4 + 4 * i) 4
    if x.ssrc.isSome && who.any (fun v => x.ssrcOk v) then (s.modCtx c fun x => { x with bye := true }).postStream c 1 0 else s
  else s

/-- The packets of a compound datagram (`n` bounds them). -/
def State.rtcpAll (s : State) (c : Nat) : Nat → List Byte → State
  | 0, _ => s
  | n + 1, bs =>
    if bs.length < 4 ∨ fb bs 0 1 / 64 ≠ 2 then s
    else (s.rtcpPacket c bs).rtcpAll c n (bs.drop (4 + 4 * fb bs 2 2))

/-- RTCP of a context: under SRTP only what authenticates counts (R133). -/
def State.receiveRtcp (s : State) (c : Nat) (f : FrameIn) (d : Dgram) : State :=
  let x := s.ctx c
  if !s.authentic x f d.payload then
    s.modCtx c fun x => { x with count := { x.count with srBad := sat 32 (x.count.srBad + 1) } }
  else
    let bs := if x.cfg.srtp = 0 then d.payload else f.plain
    let s := if fb bs 1 1 = 200 then s.modCtx c fun x => { x with srPeer := some (d.srcIp, d.srcUdp) } else s
    s.rtcpAll c bs.length bs

/-- A frame dropped at its port is counted per reason (R118). -/
def State.dropFrame (s : State) (port reason : Nat) : State := s.modPort port fun p => { p with drops := p.drops.modify reason (· + 1) }

/-- PACKET_RECEIVE (R118, R121): frames for PTP, the command channels, IGMP and ARP reach firmware by rows of their own; in replay mode
stream traffic is dropped and counted (R595). -/
def execPacketReceive (dt : Nat) (frame : FrameIn) (s : State) : Out :=
  let s := s.elapse dt
  let p := s.port frame.port
  if !p.link || decide (p.mode = 0) || (s.island islNet).isolated then .next s
  else match classify p.maxFrame frame.fcsOk frame.bytes with
    | .drop r => .next (s.dropFrame frame.port r)
    | .firmware => .next s
    | .arpReply ip mac => .next (s.arpLearnt frame.port ip mac)
    | .ptp bs => .next (if s.ptpTakes frame.port true none bs then s else s.dropFrame frame.port 5)
    | .udp d =>
      match s.consumer frame.port d with
      | .ptp | .channel => .next s
      | .nobody => .next (s.dropFrame frame.port 5)
      | .rtp c => .next (if s.top.replay then s.dropFrame frame.port 6 else s.receiveRtp c frame.port frame d)
      | .foreign c => .next (if s.top.replay then s.dropFrame frame.port 6 else (s.modCtx c fun x => x.dropFor 6))
      | .rtcp c => .next (if s.top.replay then s.dropFrame frame.port 6 else s.receiveRtcp c frame d)

/-! ### Host-fed contexts (R140, R141, R347) -/

/-- One byte of an Annex B byte stream: the NAL units that have ended, and the one under way with its last byte first. A start code ends a unit,
with the zeros before it. -/
def annexStep (a : List (List Byte) × List Byte) (b : Byte) : List (List Byte) × List Byte :=
  match a.2 with
  | 0 :: 0 :: rest => if b = 1 then (a.1 ++ [(rest.dropWhile fun z => z = 0).reverse], []) else (a.1, b :: a.2)
  | _ => (a.1, b :: a.2)

/-- The NAL units that end in some bytes, the first of which begins with `cur`, and the one then under way. -/
def annexB (cur bs : List Byte) : List (List Byte) × List Byte :=
  let r := bs.foldl annexStep ([], cur.reverse)
  (r.1, r.2.reverse)

/-- A NAL unit of a byte stream has ended: a parameter set comes into force, a slice waits for its header to be parsed. -/
def Context.feedNal (x : Context) (now : Nat) (pkts : List Pkt) (lost : Option Nat) (nal : List Byte) : Context :=
  let t := nalType x.cfg.hevc nal
  if isParamSet x.cfg.hevc t && lost.isNone then x.takeSet nal
  else if isSlice x.cfg.hevc t && !nal.isEmpty then
    { x with
      ready := x.ready ++ [{ ReadySlice.reset with pkts := pkts, lostSeq := lost, completeAt := now, nal := nal }]
      count := if lost.isNone then { x.count with slices := sat 32 (x.count.slices + 1) } else x.count }
  else x

/-- The NAL unit under way ends. -/
def Context.endNal (x : Context) (now : Nat) : Context :=
  if x.tailPkts.isEmpty then x
  else
    { x.feedNal now x.tailPkts x.tailLost ((x.tail.reverse.dropWhile fun z => z = 0).reverse) with tail := [], tailPkts := [], tailLost := none }

/-- The access unit under way ends with the NAL unit under way (R140, R347). -/
def Context.endUnit (x : Context) (now : Nat) : Context :=
  let y := x.endNal now
  if x.highest.isNone then y else { y with ready := y.ready ++ [{ ReadySlice.reset with completeAt := now, lastOfPicture := true }] }

/-- The bytes of an entry reach the context: the NAL units that end in them, and the one that they begin or go on with. `ends` says that the last of
them ends with the entry (R140). -/
def Context.feed (x : Context) (now : Nat) (p : Pkt) (ends : Bool) : Context :=
  let r := annexB x.tail p.bytes
  let pkts := if r.1.isEmpty then (if x.tailPkts.isEmpty then [] else x.tailPkts ++ [p]) else [p]
  let closed : List (List Byte × Nat) := if x.tailPkts.isEmpty then r.1.zipIdx.drop 1 else r.1.zipIdx
  let y := closed.foldl (fun (y : Context) q =>
    y.feedNal now (if q.2 = 0 then x.tailPkts ++ [p] else [p]) (if q.2 = 0 then x.tailLost else none) q.1) x
  let y := { y with tail := r.2, tailPkts := pkts, tailLost := if r.1.isEmpty then x.tailLost else none }
  if ends then y.endNal now else y

/-- An entry that is skipped: its bytes are lost, those of the NAL unit under way or of slices wholly in it (R347). -/
def Context.skipEntry (x : Context) (now : Nat) : Context :=
  let e := match x.highest with | some h => h + 1 | none => 0
  let y := { x with
    highest := some e, count := { x.count with format := sat 32 (x.count.format + 1) }, intReasons := x.intReasons ||| 0x40
    intDropped := sat 32 (x.intDropped + 1) }
  if x.tailPkts.isEmpty then { y with ready := y.ready ++ [{ ReadySlice.reset with lostSeq := some e, completeAt := now }] }
  else { y with tailLost := some (x.tailLost.getD e) }

/-- An entry as HOST stores it for a context: it counts as one packet, stamped when its first block reached HOST (R79, R140). -/
def Context.entryPkt (x : Context) (s : State) (e : StmEntry) (bs : List Byte) (bad : Bool) : Pkt :=
  let n := match x.highest with | some h => h + 1 | none => 0
  { Pkt.reset with
    eseq := n, rtpTime := if bitOf e.flags 0 then BitVec.ofNat 32 n else x.auTag, stamp := s.tb.dev, stepNo := s.tb.steps, first := bitOf e.flags 0
    bytes := bs, holdover := decide (s.tb.lock = .holdover), poisoned := bad, force := x.forceArrival, allowance := x.allowance
    holdLimit := x.holdLimit }

/-- The bytes of a good entry reach the context: RESTART makes the decoder wait for a random-access picture (R195, R347), AU_START ends the access unit
before, and a shed context drops them (R202). -/
def State.feedEntry (s : State) (c : Nat) (e : StmEntry) (bs : List Byte) (bad ends : Bool) : State :=
  let p := (s.ctx c).entryPkt s e bs bad
  let s := s.modCtx c fun x => { x.heard s with highest := some p.eseq, auTag := p.rtpTime, count := { x.count with received := sat 32 (x.count.received + 1) } }
  if (s.ctx c).st = .shed then s.modCtx c fun x => { x with tail := [], tailPkts := [], tailLost := none }
  else
    let n := (s.ctx c).ready.length
    let s := if bitOf e.flags 0 then s.modCtx c fun x => x.endUnit s.tb.now else s
    let s := if bitOf e.flags 1 then s.askRandomAccess c 0 else s
    let p := { p with addr := s.placePacket c bs.length }
    let s := s.storeWrite p.addr (padTo (256 * ceilDiv bs.length 256) bs)
    (s.modCtx c fun x => x.feed s.tb.now p ends).noteSlices c n

/-- STM_FETCH: HOST reads the next entry of a stream ring and the bytes it describes, no faster than MAX_RATE, and while the packet buffer has room for
them (R141, R330, R331, R347). An entry in bad form is skipped and counted under FORMAT. -/
def execStmFetch (dt k : Nat) (entry data : Dma) (ends : Bool) (s : State) : Out :=
  let s := s.elapse dt
  let r := s.ring (64 + k)
  let q := s.host.stmq.getD k StmQ.reset
  let can := decide (k < 64) && s.hostUp && s.top.ready && decide (s.role ≠ 2) && !s.top.replay && decide (r.state = .running) && decide (r.used ≠ 0)
  match q.ctx with
  | none => .next s
  | some c =>
    let x := s.ctx c
    if !can || !x.opened || decide (s.tb.now < q.at_) then .next s
    else match entry with
      | .pcieError => .next (s.haltRing (64 + k) false)
      | .poisoned _ => .next ((s.modCtx c fun x => x.skipEntry s.tb.now).passEntry k)
      | .good eb =>
        let e := stmEntryOf eb
        if !e.good then .next ((s.modCtx c fun x => x.skipEntry s.tb.now).passEntry k)
        else if q.credit s.tb.now x.cfg.maxRate x.cfg.burst < min e.len x.cfg.burst * tokenUnit
            ∨ x.cfg.buffer * 1024 < s.bufUsed c + 256 * ceilDiv e.len 256 then .next s
        else match data with
          | .pcieError => .next (s.haltRing (64 + k) false)
          | .good bs | .poisoned bs =>
            let bad := match data with | .poisoned _ => true | _ => false
            let s := { s with host := { s.host with stmq := s.host.stmq.modify k fun q => q.spend s.tb.now x.cfg.maxRate x.cfg.burst e.len } }
            .next ((s.feedEntry c e (padTo e.len bs) bad ends).passEntry k)

/-- REORDER_TIMEOUT: packets whose wait has run out are declared lost (R136); in replay the journal decides (R596). -/
def execReorderTimeout (dt c : Nat) (s : State) : Out :=
  let s := s.elapse dt
  let due := ((s.ctx c).missing.filter fun m => decide (m.deadline ≤ s.tb.now)).map (·.eseq)
  if due.isEmpty ∨ s.top.replay then .next s else .next ((s.modCtx c fun x => (x.declareLost due).passOn s.tb.now).noteSlices c (s.ctx c).ready.length)

/-- STREAM_SILENCE: 1.0 s without packets (R139). -/
def execStreamSilence (dt c : Nat) (s : State) : Out :=
  let s := s.elapse dt
  let x := s.ctx c
  if x.opened ∧ !x.silent ∧ s.since x.lastPkt 1000000000 then .next ((s.modCtx c fun x => { x with silent := true }).postStream c 3 0) else .next s

/-- EV_LOSS: at most one a second, and only after a drop or a loss (R138). -/
def execEvLoss (dt c : Nat) (s : State) : Out :=
  let s := s.elapse dt
  let x := s.ctx c
  if x.opened ∧ x.intReasons ≠ 0 ∧ s.since x.lossAt 1000000000 then
    let t := s.post x.cfg.ring 0x8102 0 (leBytes 1 c ++ leBytes 1 x.intReasons.toNat ++ leBytes 2 0 ++ leBytes 4 x.intLost ++ leBytes 4 x.intFirst
      ++ leBytes 4 x.intDropped)
    .next (t.modCtx c fun x => { x with intReasons := 0, intLost := 0, intFirst := 0, intDropped := 0, lossAt := some s.tb.now })
  else .next s

/-- The fraction of packets lost since the last receiver report, in 256ths (RFC 3550 section 6.4.1). -/
def Context.fraction (x : Context) : Nat :=
  let expected := match x.highest, x.baseSeq with | some h, some b => h + 1 - b | _, _ => 0
  let e := expected - x.rrPrior.1
  let r := x.received - x.rrPrior.2
  if e ≤ r then 0 else (e - r) * 256 / e

/-- The same packet counts at a receiver report. -/
def Context.reported (x : Context) : Nat × Nat := ((match x.highest, x.baseSeq with | some h, some b => h + 1 - b | _, _ => 0), x.received)

/-- RR_SEND: a receiver report every RR_INTERVAL to the address the sender reports came from, with its fields in the order of RFC 3550: fraction
lost, packets lost, highest sequence number, jitter, LSR and DLSR (R125). -/
def execRrSend (dt c : Nat) (s : State) : Out :=
  let s := s.elapse dt
  let x := s.ctx c
  if x.opened ∧ x.cfg.sendRr ∧ x.srPeer.isSome ∧ x.rrAt + x.cfg.rrInterval * 1000000000 ≤ s.tb.now then
    let sr := match x.srs with | r :: _ => [r.ntp.toNat, (s.tb.dev - r.stamp) * 65536 / 1000000000] | [] => [0, 0]
    .next ((s.sendRtcp c .rr ([x.fraction, x.count.lost, x.highest.getD 0, x.jitter16 / 16] ++ sr)).modCtx c fun x => { x with
      rrAt := s.tb.now, rrPrior := x.reported })
  else .next s

end Sys2Proof.Machine
end

