-- ==== Sys2Proof/Machine/Engines.lean ====
section
/-!
DEFINITION. Header parsing, decode jobs, engines and leaves (04_decode.md; 02_freshness.md R65–R80).
-/

namespace Sys2Proof.Machine

/-! ### Pictures and their buffers (R68, R71, R175, R176) -/

/-- A picture's buffer may be used again: decoded or given up, output, no reference, no layer selects it, and no receiver of its leaves has one still
to acknowledge; receiving members select their own copies (R176, R460, R462). -/
def State.reusable (s : State) (c : Nat) (p : Picture) : Bool :=
  (p.output || p.hidden) && p.decodedAll && decide (p.slicesLeft = 0) && !p.isRef && !s.selects c p.id
    && !(s.ctx c).unackedLeaves.any fun q => decide (p.frame = some (BitVec.ofNat 32 q.2.1))

/-- The pictures of a context since it opened. -/
def Context.own (x : Context) : List Picture := x.pics.filter fun p => decide (x.firstPic ≤ p.id)

/-- A buffer is free, or one may be used again. -/
def State.bufFree (s : State) (c : Nat) : Bool :=
  let x := s.ctx c
  decide (x.own.length < x.decl.dpb + 3) || x.own.any fun p => s.reusable c p

/-- Room for one more picture: the oldest buffer that may be used again gives way, and so do pictures from before the context opened that nothing
keeps. -/
def State.takeBuffer (s : State) (c : Nat) : State :=
  let s := s.modCtx c fun x => { x with pics := x.pics.filter fun p => decide (x.firstPic ≤ p.id) || s.keepsPic c p.id }
  let x := s.ctx c
  if x.own.length < x.decl.dpb + 3 then s
  else
    match (x.own.filter fun p => s.reusable c p).getLast? with
    | some old => s.modCtx c fun x => { x with pics := x.pics.filter fun p => p.id ≠ old.id }
    | none => s

/-- The decoding process outputs a picture: it takes the next FRAME, and its acknowledged leaves become VALID (R68, R175). The first picture stamped
after a step of device time is noted for the receivers of its leaves (R80). -/
def Context.output (x : Context) (id : Nat) : Context :=
  let n := match x.pic id with | some p => p.stepNo | none => 0
  { x.modPic id (fun p => { p with
      output := true, frame := some x.frameNext, ord := x.ordNext, leaves := p.leaves.map fun l => { l with valid := l.valid || l.acked } }) with
    frameNext := x.frameNext + 1, ordNext := x.ordNext + 1, newestFrame := if x.newestPic = some id then x.frameNext else x.newestFrame
    stepSeen := max x.stepSeen n, stepFrame := if x.stepSeen < n then some x.frameNext else x.stepFrame }

/-- Pictures not yet output, in output order: a coded video sequence follows the one before it. -/
def Context.waitingOut (x : Context) : List Picture :=
  let le (a b : Picture) : Bool := decide (a.cvs < b.cvs) || (decide (a.cvs = b.cvs) && decide (a.poc ≤ b.poc))
  x.unshown.foldl (fun acc p => acc.takeWhile (fun q => le q p) ++ [p] ++ acc.dropWhile (fun q => le q p)) []

/-- Pictures are output in output order until at most `n` wait (R175). -/
def Context.bump (x : Context) (n : Nat) : Context :=
  (x.waitingOut.take (x.waitingOut.length - n)).foldl (fun y p => y.output p.id) x

/-- Annex C asks for a picture to be output: more wait than the reordering allows, one has waited as long as it may, or the decoded picture buffer is
full. -/
def Context.mustBump (x : Context) (h : SliceIn) (full : Bool) : Bool :=
  let w := x.waitingOut
  !w.isEmpty && (decide (h.maxReorder < w.length) || (match h.maxLatency with | some m => w.any fun p => decide (m ≤ p.latency) | none => false)
    || (full && decide (h.dpbNeed ≤ (x.own.filter fun p => p.isRef || (!p.output && !p.hidden)).length)))

/-- The bumping process of Annex C, as firmware runs it (R175). -/
def Context.bumping (x : Context) (h : SliceIn) (full : Bool) : Context :=
  (List.range x.pics.length).foldl (fun y _ => if y.mustBump h full then y.bump (y.waitingOut.length - 1) else y) x

/-- SOURCE of a context of this part. -/
def State.sourceOf (s : State) (c : Nat) : Nat := sourceWord s.top.gatherId.toNat (s.ctx c).cfg.hostFed c

/-- A context changes, and the colophons of the pictures it has thereby output are written (R71, R175). -/
def State.outputs (s : State) (c : Nat) (f : Context → Context) : State :=
  let old := s.ctx c
  let t := s.modCtx c f
  ((t.ctx c).pics.filter fun p => p.output && old.pics.any fun q => decide (q.id = p.id) && !q.output).foldl (fun u p =>
    u.putColophons p (u.sourceOf c) ((List.range (ceilDiv p.leaves.length 8)).filter fun k => ((p.leaves.drop (8 * k)).take 8).any (·.valid))) t

/-! ### Header parsing (R167, R168, R187, R188, R195–R198) -/

/-- A context has a slice that firmware can parse now. -/
def State.parsable (s : State) (c : Nat) : Bool :=
  let x := s.ctx c
  x.opened && decide (x.st ≠ .shed) && !x.ready.isEmpty && (x.mid.isSome || x.dropping || s.bufFree c)

/-- When the oldest slice of a context became complete. -/
def Context.oldest (x : Context) : Nat := match x.ready with | r :: _ => r.completeAt | [] => 0

/-- The class a context's next slice is parsed in: review beyond MAX_SLICES (R168, R187). -/
def Context.parseRank (x : Context) : Nat :=
  match x.mid.bind x.pic with
  | some p => if x.decl.maxSlices ≤ p.slices then StreamClass.review.rank else x.cfg.cls.rank
  | none => x.cfg.cls.rank

/-- The context whose slice is parsed next: by class, then by the order in which slices became complete (R168). -/
def State.nextParse (s : State) : Option Nat :=
  ((List.range 64).filter s.parsable).foldl (fun a c => match a with
    | none => some c
    | some b =>
      let x := s.ctx c
      let y := s.ctx b
      if x.parseRank < y.parseRank ∨ (x.parseRank = y.parseRank ∧ x.oldest < y.oldest) then some c else a) none

/-- Leaves of a picture of a height (R62). -/
def leafCount (h : Nat) : Nat := ceilDiv h 16

/-- A decode job goes to its engine's queue. -/
def State.queueJob (s : State) (e : Nat) (j : Job) : State := s.modEngine e fun x => { x with jobs := x.jobs ++ [j] }

/-- A job of a picture goes to its engine's queue: the picture has one slice more. -/
def State.addJob (s : State) (c : Nat) (j : Job) : State :=
  (s.modCtx c fun x => x.modPic j.pic fun p => { p with slicesLeft := p.slicesLeft + 1, slices := p.slices + 1 }).queueJob (s.ctx c).picEngine j

/-- A job that only conceals: leaves of slices that were lost or could not be parsed. Its age is the completion of the slice that showed it. -/
def State.concealJob (s : State) (c pic first count age : Nat) (lost : Option Nat) : State :=
  let x := s.ctx c
  let p := (x.pic pic).getD Picture.reset
  s.addJob c { Job.reset with
    ctx := c, pic := pic, cls := if p.review then .review else x.cfg.cls, age := age, formed := s.tb.now, first := first, count := count
    rows := max 1 (ceilDiv (count * 16) (max 16 p.rowLines)), rowLines := p.rowLines, lostSeq := lost, conceal := true, list0 := p.list0 }

/-- The last slice of a picture has been decoded: statistics and RECOVERED (R188, R194, R204). A picture that is both the first random-access picture
and the first untainted one after a tainted one posts RECOVERED with STATE 0 only, one event of a kind a picture (DESIGN CHOICE, log entry 73). -/
def State.pictureDone (s : State) (c id : Nat) : State :=
  let x := s.ctx c
  match x.pic id with
  | none => s
  | some p =>
    let s := s.modCtx c fun x => x.modPic id fun p => { p with decodedAll := true }
    if p.decodedAll ∨ id < x.firstPic then s
    else
      let tainted := p.leaves.any (·.taint)
      let s := s.modCtx c fun x => { x with
        decoded := sat 32 (x.decoded + 1), newestPic := some id, newestFrame := p.frame.getD x.newestFrame, tainted := tainted
        startedRa := x.startedRa || p.randomAccess }
      (if !x.startedRa ∧ p.randomAccess then s.decEventPic c id 12 0xFF 0 0 p.leaves.length 0
      else if x.tainted ∧ !tainted then s.decEventPic c id 12 0xFF 1 0 p.leaves.length 0
      else s).flushEvents c

/-- A picture whose last slice has been parsed is done once no slice is left. -/
def State.settlePicture (s : State) (c id : Nat) : State :=
  match (s.ctx c).pic id with
  | some p => if p.lastSlice && decide (p.slicesLeft = 0) then s.pictureDone c id else s
  | none => s

/-- The picture being parsed has had its last slice: what of it never arrived is concealed. -/
def State.endPicture (s : State) (c age : Nat) : State :=
  let x := s.ctx c
  match x.mid with
  | none => s
  | some id =>
    let n := match x.pic id with | some p => p.leaves.length | none => 0
    let s := if x.nextLeaf < n then s.concealJob c id x.nextLeaf (n - x.nextLeaf) age x.lostGap else s
    (s.modCtx c fun x => { x.modPic id (fun p => { p with lastSlice := true }) with mid := none, lostGap := none }).settlePicture c id

/-- An access unit ends: the picture being parsed, or one none of whose slices could be parsed, which is not decoded (R188 PARAMSET). -/
def State.endAccess (s : State) (c age : Nat) : State :=
  let s := s.endPicture c age
  let s := if (s.ctx c).unparsed then s.decEvent c 2 0 0 else s
  s.modCtx c fun x => { x with dropping := false, unparsed := false }

/-- A picture is not decoded: its slices are dropped (R190). -/
def State.dropPicture (s : State) (c : Nat) : State := s.modCtx c fun x => { x with dropping := true, mid := none }

/-- A picture skipped or discarded for the backlog (R197). -/
def State.behind (s : State) (c : Nat) : State :=
  ((s.modCtx c fun x => { x with skipped := sat 32 (x.skipped + 1) }).dropPicture c).decEvent c 9 0 0

/-- The pictures of the last second, the newest among them, are more than the declared rate allows in a second (R198). -/
def State.overRate (s : State) (c : Nat) : Bool :=
  let x := s.ctx c
  decide (ceilDiv x.decl.rateNum x.decl.rateDen < (x.rateTimes.filter fun t => decide (s.tb.now < t + 1000000000)).length)

/-- The picture is within the declaration (R188 LIMIT). -/
def Decl.admits (d : Decl) (h : SliceIn) : Bool :=
  decide (h.width ≤ d.maxW) && decide (h.height ≤ d.maxH) && decide (h.width ≤ 4096) && decide (h.height ≤ 2176) && decide (h.dpbNeed ≤ d.dpb)

/-- The engines decode a picture: it uses no feature of R164, its profile is declared, and it is of Level 5.1 at most and of 64×64 at least (R163; the
kind under which a picture beyond these two bounds is refused is a DESIGN CHOICE, log entry 74). -/
def Decl.decodes (d : Decl) (h : SliceIn) : Bool :=
  h.supported && d.profiles.getLsbD h.profile && decide (h.level ≤ 51) && decide (64 ≤ h.width) && decide (64 ≤ h.height)

/-- DETAIL of LIMIT (R191). -/
def limitDetail (h : SliceIn) : Nat := h.width % 65536 + 65536 * (h.height % 65536)

/-- A head with a phase plan has the context as an anchor (R174). -/
def State.isAnchor (s : State) (c : Nat) : Bool :=
  s.comp.head.any fun h => decide (h.plan.st ≠ .off) && h.plan.anchors.contains c

/-- The context is mapped or arrival-timed by its last picture; one with none yet is arrival-timed (R155). A change posts
EV_STREAM. -/
def State.noteTiming (s : State) (c : Nat) (arrival : Bool) : State :=
  let was := (s.ctx c).timing.getD true
  let s := s.modCtx c fun x => { x with timing := some arrival }
  if was = arrival then s else s.postStream c 2 (b2n arrival)

/-! #### Reference pictures (R167, R192) -/

/-- The picture that an order count names: a reference of the same coded video sequence. -/
def Context.refPic (x : Context) (cur : Nat) (poc : Int) : Option Picture :=
  x.pics.find? fun q => q.isRef && decide (q.id ≠ cur) && decide (q.cvs = x.cvs) && decide (q.poc = poc)

/-- An entry of a reference list: the picture it names, or its stand-in, the newest decoded picture that precedes it in output order, and a grey one
where there is none (R192). -/
def Context.refFor (x : Context) (cur : Nat) (poc : Int) : RefPic :=
  match x.refPic cur poc with
  | some q => { RefPic.reset with poc := poc, pic := some q.id }
  | none => { RefPic.reset with
      poc := poc, standIn := true
      pic := (x.own.find? fun q => decide (q.id < cur) && !q.hidden && (decide (q.cvs < x.cvs) || decide (q.poc < poc))).map (·.id) }

/-- The taint maps of a list's pictures, as the engine takes the job (R169, R193). -/
def Context.withTaint (x : Context) (l : List RefPic) : List RefPic :=
  l.map fun r => { r with taint := match r.pic.bind x.pic with | some q => q.leaves.map (·.taint) | none => [] }

/-- References that a slice names and that are absent: the RPS counts with the first slice. -/
def Context.absent (x : Context) (cur : Nat) (h : SliceIn) : List Int :=
  if h.idr then [] else ((if h.firstOfPicture then h.keep else []) ++ h.list0 ++ h.list1).filter fun n => (x.refPic cur n).isNone

/-! #### Pictures begin and end -/

/-- The references a picture leaves; earlier pictures that are never output where it says so; and what Annex C outputs before it is stored: all of them
before an IDR, else until there is room, but an H.264 picture that is no reference and precedes all that wait goes first (R167, R175, R194). -/
def Context.beforePicture (x : Context) (h : SliceIn) : Context :=
  let y := { x with
    cvs := if h.idr then x.cvs + 1 else x.cvs
    pics := x.pics.map fun q => { q with
      isRef := q.isRef && !h.idr && decide (q.cvs = x.cvs) && h.keep.contains q.poc
      leaves := if h.idr then q.leaves.map fun l => { l with taint := false } else q.leaves
      hidden := q.hidden || (h.dropPrior && !q.output)
      latency := if h.shown && !q.output && decide (q.cvs = x.cvs) && decide (h.poc < q.poc) then q.latency + 1 else q.latency } }
  if h.idr then y.bump 0
  else if !x.cfg.hevc && !h.isRef && y.waitingOut.all (fun p => decide (p.cvs = y.cvs) && decide (h.poc < p.poc)) then y
  else y.bumping h true

/-- What Annex C outputs once the picture is stored. -/
def Context.afterPicture (x : Context) (h : SliceIn) : Context :=
  x.bumping h (!x.cfg.hevc && !h.isRef)

/-- A picture begins: a random-access picture ends a wait and brings a re-declaration into force; the references it leaves, the output
process, its capture time and its buffer (R167, R175–R177, R194, R195). -/
def State.startPicture (s : State) (c : Nat) (h : SliceIn) (p : Pkt) : State :=
  let s := if h.randomAccess then
      s.modCtx c fun x => { x with st := .decoding, firAt := none, coldWait := none, discarding := false, decl := x.next.getD x.decl, next := none }
    else s
  let newSps := decide ((s.ctx c).sps ≠ some h.sps)
  let s := s.modCtx c fun x => { x with
    sps := some h.sps, crossed := x.crossed && !newSps, reordered := x.reordered && !newSps, picEngine := x.engine
    rateTimes := s.tb.now :: x.rateTimes.filter fun t => decide (s.tb.now < t + 1000000000) }
  let tooFast := s.overRate c
  let s := (s.outputs c fun x => x.beforePicture h).takeBuffer c
  let x := s.ctx c
  let cap := x.captureOf p
  let id := x.picNext
  let pic : Picture :=
    { Picture.reset with
      id := id, capture := cap.time, arrivalTimed := cap.arrival, holdover := cap.hold, clamped := cap.clamped, randomAccess := h.randomAccess
      poc := h.poc, cvs := x.cvs, stamp := p.stamp, stepNo := p.stepNo, width := h.width, height := h.height, fmt := x.decl.output, matrix := h.matrix
      fullRange := h.fullRange, leaves := List.replicate (leafCount h.height) Leaf.reset, isRef := h.isRef, recovery := h.recovery, review := tooFast
      hidden := !h.shown, rowLines := max 16 h.rowLines, colour := x.owner }
  let size := max (x.decl.buffer x.cfg.hevc) pic.bytes
  let pic := { pic with base := s.placePicture size, size := size }
  let s := s.outputs c fun x => ({ x with
    pics := pic :: x.pics, picNext := id + 1, mid := some id, nextLeaf := 0, dropping := false
    count := if cap.clamped then { x.count with clamped := sat 32 (x.count.clamped + 1) } else x.count } : Context).afterPicture h
  let s : State := if s.top.replay ∧ h.idr ∧ s.jrn.loadedAt ≤ p.stamp ∧ !s.jrn.exact.contains c then
      { s with jrn := { s.jrn with exact := s.jrn.exact ++ [c] } } else s
  let s := s.noteTiming c cap.arrival
  let s := if tooFast ∧ s.since (s.ctx c).limitAt 1000000000 then
      (s.modCtx c fun x => { x with limitAt := some s.tb.now }).decEventPic c id 5 0xFF 0 0 0 (limitDetail h) else s
  if h.maxReorder ≠ 0 ∧ (s.ctx c).cfg.cls = .urgent ∧ !(s.ctx c).reordered then
    (s.modCtx c fun x => { x with reordered := true }).decEventPic c id 11 0xFF 0 0 0 0
  else s

/-- Whether a picture that begins with this slice is decoded, and what happens where it is not (R188, R190, R194, R195, R197): `n` is the backlog. In
replay a picture is skipped or discarded where the journal has that it was (R596). -/
def State.admitPicture (s : State) (c n : Nat) (p : Pkt) (h : SliceIn) : Option State :=
  let s := s.modCtx c fun x => { x with
    skipping := if n ≤ 1 then false else x.skipping || (decide (2 < n) && x.decl.skipNonref) }
  let x := s.ctx c
  let d := if h.randomAccess then x.next.getD x.decl else x.decl
  if !h.randomAccess && (if s.top.replay then s.decided 1 c p.rtpTime.toNat else x.discarding) then some (s.behind c)
  else if !h.randomAccess && (decide (x.st = .waitRa) || h.rasl) then some (s.dropPicture c)
  else if !h.randomAccess && !s.top.replay && decide (4 < n) then some (((s.behind c).modCtx c fun x => { x with
      discarding := true, firAt := if x.cfg.feedback then some (x.firAt.getD (s.tb.now + 500000000)) else none }).sendPli c)
  else if !h.randomAccess && !s.top.replay && x.skipping && !h.isRef then some (s.behind c)
  else if !d.decodes h then some (((s.dropPicture c).decEvent c 4 0 0).askRandomAccess c 4)
  else if !d.admits h then some (((s.dropPicture c).decEvent c 5 0 (limitDetail h)).askRandomAccess c 5)
  else none

/-- A picture under way turns out to use a feature of R164: the rest of it is not decoded, and it takes no place in the output order as long as none
of its leaves is VALID (R164, R190). -/
def State.abandonPicture (s : State) (c : Nat) : State :=
  match (s.ctx c).mid with
  | none => s
  | some id =>
    let keep (j : Job) : Bool := j.ctx ≠ c || j.pic ≠ id
    let s := { s with dec := { s.dec with de := s.dec.de.map fun (e : Engine) => { e with jobs := e.jobs.filter keep, cur := e.cur.filter keep } } }
    let s := s.modCtx c fun x =>
      let p := (x.pic id).getD Picture.reset
      let back := p.output && decide (p.ord + 1 = x.ordNext) && !p.leaves.any (·.valid)
      { x.modPic id (fun p => { p with
          lastSlice := true, slicesLeft := 0, decodedAll := true, isRef := false, output := p.output && !back, hidden := p.hidden || back || !p.output }) with
        frameNext := if back then x.frameNext - 1 else x.frameNext, ordNext := if back then x.ordNext - 1 else x.ordNext }
    ((s.dropPicture c).decEvent c 4 0 0).askRandomAccess c 4

/-- The job of a slice of the picture being parsed, after the concealment of what is missing before it (R169, R174, R187, R188, R198). -/
def State.formJob (s : State) (c : Nat) (r : ReadySlice) (h : SliceIn) : State :=
  match (s.ctx c).mid with
  | none => s
  | some id =>
    let x := s.ctx c
    let lines := max 16 h.rowLines
    let s := s.modCtx c fun x => x.modPic id fun p => { p with rowLines := lines, list0 := if h.parsed then h.list0.map (x.refFor id) else p.list0 }
    let s := if x.nextLeaf < h.firstLeaf ∧ (x.lostGap.isSome ∨ x.unparsed) then
        s.concealJob c id x.nextLeaf (h.firstLeaf - x.nextLeaf) r.completeAt x.lostGap else s
    let pic := ((s.ctx c).pic id).getD Picture.reset
    let excess := decide (x.decl.maxSlices ≤ pic.slices)
    let s := if excess && !x.posted.contains (5, id) then s.decEventPic c id 5 0xFF 0 h.firstLeaf h.leaves (limitDetail h) else s
    let s := if !h.bottomFinal ∧ !(h.lastOfPicture || r.lastOfPicture) ∧ x.cfg.cls = .urgent ∧ !x.crossed ∧ s.isAnchor c then
        (s.modCtx c fun x => { x with crossed := true }).decEventPic c id 10 0xFF 0 h.firstLeaf h.leaves 0 else s
    let s := match if h.parsed then x.absent id h else [] with
      | n :: _ =>
        if x.posted.contains (3, id) then s
        else
          let s := s.decEventPic c id 3 0xFF 0 h.firstLeaf h.leaves (wordOf 32 n)
          if pic.isRef then s.sendPli c else s
      | [] => s
    let rows := max 1 (if h.tiles.isEmpty then h.rows else h.tiles.sum * max 1 h.cols)
    let s := (s.learnLeaf c pic.slices h.firstLeaf).addJob c { Job.reset with
      ctx := c, pic := id, cls := if excess || pic.review then .review else x.cfg.cls, age := r.completeAt, formed := s.tb.now
      first := h.firstLeaf, count := h.leaves, rows := rows, rowLines := lines, lostSeq := r.lostSeq, conceal := !h.parsed
      lateEdge := !h.bottomFinal && !(h.lastOfPicture || r.lastOfPicture), blocks := r.pkts.map Pkt.place, badData := r.pkts.any (·.poisoned)
      list0 := h.list0.map (x.refFor id), list1 := h.list1.map (x.refFor id), tiles := h.tiles, cols := max 1 h.cols, partEnd := h.partEnd }
    s.modCtx c fun y => { y with
      nextLeaf := max x.nextLeaf (h.firstLeaf + h.leaves - if h.partEnd then lines / 16 else 0), lostGap := none, unparsed := false }

/-- Firmware parses a slice's header: a new picture is taken up or not, and a slice of one that is decoded gives its job. -/
def State.parseSlice (s : State) (c n : Nat) (r : ReadySlice) (p : Pkt) (h : SliceIn) : State :=
  if (s.ctx c).dropping then s
  else if (s.ctx c).mid.isSome then
    if h.parsed && !h.supported then s.abandonPicture c else s.formJob c r h
  else if !h.parsed then
    let s := s.modCtx c fun x => { x with unparsed := true }
    if h.isRef then s.sendPli c else s
  else match s.admitPicture c n p h with
    | some t => t
    | none => (s.startPicture c h p).formJob c r h

/-- SLICE_PARSE: firmware parses the headers of the next complete slice and forms its decode job (R167, R168). A slice that begins a picture waits for
a buffer (R176); one that is wholly lost, and the end of an access unit alone, have no header. -/
def execSliceParse (dt c : Nat) (hdr : SliceIn) (s : State) : Out :=
  let s := s.elapse dt
  if !s.top.ready || s.twin.resyncCause1 || decide (s.nextParse ≠ some c) then .next s
  else match (s.ctx c).ready with
    | [] => .next s
    | r :: rest =>
      let x := s.ctx c
      let pop (s : State) : State := s.modCtx c fun x => { x with ready := rest }
      match r.pkts, r.lostSeq with
      | [], some e => .next ((pop s).modCtx c fun x => { x with lostGap := some (x.lostGap.getD e) })
      | [], none => .next (((pop s).endAccess c r.completeAt).flushEvents c)
      | p :: _, _ =>
        let h := { hdr with parsed := hdr.parsed && x.setsFor r.nal }
        if h.firstOfPicture && !s.bufFree c then .next s
        else
          let s := if h.firstOfPicture then (pop s).endAccess c r.completeAt else pop s
          let s := s.parseSlice c x.backlog r p h
          .next ((if r.lastOfPicture || h.lastOfPicture then s.endAccess c r.completeAt else s).flushEvents c)

/-- FIR_REPEAT: every 500 ms until a random-access picture arrives (R195). -/
def execFirRepeat (dt c : Nat) (s : State) : Out :=
  let s := s.elapse dt
  match (s.ctx c).firAt with
  | some t =>
    if (s.ctx c).opened ∧ t ≤ s.tb.now then
      .next ((s.sendRtcp c .fir []).modCtx c fun x => { x with firAt := some (s.tb.now + 500000000) })
    else .next s
  | none => .next s

/-! ### Engines (R170–R173, R183–R187) -/

/-- The next job of an engine: by class, then by the slice's completion at the port (R183). -/
def Engine.nextJob (e : Engine) : Option Job :=
  e.jobs.foldl (fun a j => match a with
    | none => some j
    | some b => if j.cls.rank < b.cls.rank ∨ (j.cls.rank = b.cls.rank ∧ j.age < b.age) then some j else a) none

/-- The job as its engine takes it: with the taint maps of its references, and with what of its packet data reads poisoned. -/
def State.takeJob (s : State) (j : Job) : Job :=
  let x := s.ctx j.ctx
  { j with
    started := some s.tb.now, list0 := x.withTaint j.list0, list1 := x.withTaint j.list1
    badData := j.badData || j.blocks.any fun q => (blocksOf q.1 q.2).any fun b => s.store.damagedAt b }

/-- JOB_START: an engine takes its next job. One that arrived poisoned is formed again and sent once more; if that also ends poisoned
the slice is concealed as LOST (R34). -/
def execJobStart (dt e : Nat) (poisoned : Bool) (s : State) : Out :=
  let s := s.elapse dt
  let x := s.engine e
  match x.cur, x.nextJob with
  | none, some j =>
    if x.st ≠ .active then .next s
    else if poisoned ∧ !j.sentTwice then
      .next (s.modEngine e fun x => { x with jobs := x.jobs.map fun k => if k = j then { k with sentTwice := true, formed := s.tb.now } else k })
    else
      let k := if poisoned then { j with conceal := true, lostSeq := some (j.lostSeq.getD 0) } else j
      let s := s.modEngine e fun x => { x with jobs := x.jobs.erase j, cur := some (s.takeJob k) }
      .next (if j.row = 0 ∧ (s.ctx j.ctx).firstPic ≤ j.pic then s.modCtx j.ctx fun x => { x with longWait := max x.longWait (s.tb.now - j.formed) } else s)
  | _, _ => .next s

/-! #### Which leaves a row makes final (R172, R173) -/

/-- Leaves of a whole row. -/
def Job.leavesPerRow (j : Job) : Nat := max 1 (j.rowLines / 16)

/-- The steps of a slice: the row each decodes, and whether every tile column of that row is decoded with it. Tiles come row of tiles by row, and in
each of those column by column. -/
def Job.steps (j : Job) : List (Nat × Bool) :=
  if j.tiles.isEmpty then (List.range j.rows).map fun r => (r, true)
  else (j.tiles.foldl (fun (a : Nat × List (Nat × Bool)) n =>
    (a.1 + n, a.2 ++ (List.range j.cols).flatMap fun k => (List.range n).map fun r => (a.1 + r, decide (k + 1 = j.cols)))) (0, [])).2

/-- The row that the next step decodes, and whether it is then whole. -/
def Job.step (j : Job) : Nat × Bool := j.steps.getD j.row (0, false)

/-- Rows of the slice. -/
def Job.lineRows (j : Job) : Nat := if j.tiles.isEmpty then j.rows else j.tiles.sum

/-- The leaves of a row of the slice. -/
def Job.rowLeaves (j : Job) (r : Nat) : List Nat :=
  ((List.range j.leavesPerRow).map fun i => j.first + r * j.leavesPerRow + i).filter fun l => decide (l < j.first + j.count)

/-- The leaves that the next step makes final. All of a row but its bottom one; the bottom one of the row above, which for a slice's first row is that
of the slice before, where it waits; and the slice's bottom leaf with its last row, where R173 holds. A last row that the next slice goes on with
makes none of its own final. -/
def Job.finals (j : Job) (edgeWaits : Bool) : List Nat :=
  let r := j.step.1
  let own := j.rowLeaves r
  let last := decide (r + 1 = j.lineRows)
  if !j.step.2 then []
  else (if r = 0 then (if 0 < j.first ∧ edgeWaits then [j.first - 1] else []) else [j.first + r * j.leavesPerRow - 1])
    ++ (if last && j.partEnd then [] else own.dropLast ++ if last && !j.lateEdge then own.getLast?.toList else [])

/-! #### Concealment, taint and samples (R188, R189, R192, R193) -/

/-- Mid-grey samples of a leaf: 128 at 8 bits, 512 at 10 bits. -/
def greyLeaf (p : Picture) (leaf : Nat) : List Byte :=
  if p.fmt = .p010 then (List.replicate (p.leafBytes leaf / 2) [0x00, 0x80]).flatten else List.replicate (p.leafBytes leaf) 0x80

/-- The context's output picture before a picture. -/
def Context.prevOutput (x : Context) (p : Picture) : Option Picture :=
  (x.own.filter fun q => q.output && decide (q.id ≠ p.id) && (!p.output || decide (q.ord < p.ord))).foldl (fun a q => match a with
    | none => some q
    | some b => if b.ord < q.ord then some q else a) none

/-- The fill of a concealed leaf: co-located samples of entry 0 of list 0, or of the previous output picture where there is no such entry or it is a
grey stand-in; mid-grey where no picture exists (R189), and where that picture has other dimensions (DESIGN CHOICE, log entry 75). -/
def Context.fill (x : Context) (j : Job) (p : Picture) (leaf : Nat) : List Byte :=
  let src := match j.list0.head? with
    | some r => (match r.pic with | some q => x.pic q | none => x.prevOutput p)
    | none => x.prevOutput p
  match src with
  | some q =>
    let px := (q.leaves.getD leaf Leaf.reset).pixels
    if q.width = p.width ∧ q.height = p.height ∧ q.fmt = p.fmt ∧ px.length = p.leafBytes leaf then px else greyLeaf p leaf
  | none => greyLeaf p leaf

/-- The leaves that a prediction block reads, with the reach of 3 lines above and 4 below. -/
def predLeaves (b : PredIn) (height : Nat) : List Nat :=
  let lo := (b.top - 3).toNat / 16
  let hi := min (b.top + b.lines + 3).toNat (height - 1) / 16
  (List.range (hi + 1)).drop lo

/-- The list entries that a prediction block names. -/
def Job.entries (j : Job) (b : PredIn) : List RefPic := (j.list0 ++ j.list1).filter fun r => r.poc = b.poc

/-- A leaf is predicted directly from a stand-in. -/
def Job.fromStandIn (j : Job) (l : LeafOut) : Bool := l.preds.any fun b => (j.entries b).any (·.standIn)

/-- A leaf is predicted from a tainted leaf. -/
def Job.fromTaint (j : Job) (height : Nat) (l : LeafOut) : Bool :=
  l.preds.any fun b => (j.entries b).any fun r => (predLeaves b height).any fun i => r.taint.getD i false

/-- A leaf is predicted from reference data that is damaged in the store or arrives poisoned (R34). -/
def State.fromPoison (s : State) (j : Job) (height : Nat) (l : LeafOut) : Bool :=
  l.preds.any fun b => b.poisoned || (j.entries b).any fun r =>
    match r.pic.bind (s.ctx j.ctx).pic with
    | some q => (predLeaves b height).any fun i => s.leafDamaged q i
    | none => false

/-- The kind of error at which decoding stops in the row a step decodes (R188): as the engine reports it, LOST only where NET declared a packet lost; and
at the latest in the last row where data of the slice is missing or reads poisoned. -/
def Job.failure (j : Job) (out : RowIn) : Option Nat :=
  if j.conceal || j.failRow.isSome then none
  else match out.fail with
    | some k => some (if k = 6 then 6 else if k = 0 ∧ j.lostSeq.isSome then 0 else 1)
    | none => if j.row + 1 < j.rows then none else if j.lostSeq.isSome then some 0 else if j.badData then some 6 else none

/-- What a step conceals of the row it decodes: the leaves of a row wholly concealed get their fill, and every leaf that holds a concealed sample
carries CONCEALED (R189). A leaf whose VALID is set stands (R201). -/
def Context.concealRow (x : Context) (j : Job) (failed : Bool) : Context :=
  let r := j.step.1
  let whole := j.conceal || (match j.failRow with | some n => decide (n < r) | none => false)
  if !whole && !failed && j.failRow.isNone then x
  else
    let p := (x.pic j.pic).getD Picture.reset
    (j.rowLeaves r).foldl (fun y leaf => y.modPic j.pic fun p' => { p' with leaves := p'.leaves.modify leaf fun f =>
      if f.valid then f else { f with concealed := true, pixels := if whole then x.fill j p leaf else f.pixels } }) x

/-- A leaf is final: its samples and flags (R192–R194). Samples that concealment has filled in are its samples. A leaf whose VALID is set is not written
again (R201). -/
def Context.finalLeaf (x : Context) (j : Job) (leaf : Nat) (l : LeafOut) (poison : Bool) : Context :=
  x.modPic j.pic fun p => { p with leaves := p.leaves.modify leaf fun f =>
    if f.valid then f
    else
      let conc := f.concealed || j.fromStandIn l || poison
      let ref := j.fromTaint p.height l && !(p.recovery && x.decl.refreshTrust)
      { f with
        pixels := if f.pixels.isEmpty then l.pixels else f.pixels
        concealed := conc, refConcealed := ref, taint := conc || ref, ready := true, acked := false } }

/-- Bits of a row above which it is oversize (R171). -/
def oversizeBits : Nat := 1500000

/-- The first leaf that a step's row touches. -/
def Job.at_ (j : Job) : Nat := j.first + j.step.1 * j.leavesPerRow

/-- Errors that a row brings to light (R188, R191): a slice that is concealed whole reports with its first row. An error in a reference picture asks
for a refresh, and one of poisoned data as the LOST or REF_MISSING it acts as (R196). -/
def State.rowErrors (s : State) (e : Nat) (j : Job) (out : RowIn) (poison : List Nat) : State :=
  let p := ((s.ctx j.ctx).pic j.pic).getD Picture.reset
  let report (s : State) (kind first n detail : Nat) : State :=
    let s := s.decEventPic j.ctx j.pic kind e 0 first n detail
    if p.isRef ∧ kind ≠ 8 then s.sendPli j.ctx else s
  let s := if j.conceal ∧ j.row = 0 then report s (if j.lostSeq.isSome then 0 else 2) j.first j.count (j.lostSeq.getD 0) else s
  let s := match j.failure out with
    | some k => report s k j.at_ (j.first + j.count - j.at_) (if k = 0 then j.lostSeq.getD 0 else 0)
    | none => s
  let s := match poison with | l :: _ => report s 6 l poison.length 0 | [] => s
  if oversizeBits < out.bits then report s 8 j.at_ (j.rowLeaves j.step.1).length 0 else s

/-- The longest time R170 gives a row of so many bits, ns. -/
def State.rowNs (s : State) (j : Job) (bits : Nat) : Nat :=
  let w := match (s.ctx j.ctx).pic j.pic with | some p => p.width | none => 0
  max (ceilDiv (w * j.rowLines * 5) (7 * max 1 j.cols)) (ceilDiv bits 8)

/-- The samples a step gives: concealment, the leaves it makes final, and what lies outside the window, all written into the picture's buffer. -/
def State.decodeRow (s : State) (j : Job) (out : RowIn) (poison : List Nat) : State :=
  let p := ((s.ctx j.ctx).pic j.pic).getD Picture.reset
  let finals := j.finals (!(p.leaves.getD (j.first - 1) Leaf.reset).ready)
  let leafOut (l : Nat) : LeafOut := (out.leaves.find? fun q => decide (q.leaf = l)).getD { leaf := l, pixels := [], preds := [] }
  let s := s.modCtx j.ctx fun x =>
    let x := finals.foldl (fun y l => y.finalLeaf j l (leafOut l) (poison.contains l)) (x.concealRow j (j.failure out).isSome)
    x.modPic j.pic fun q => { q with outside := (q.outside.filter fun b => !out.outside.any fun n => decide (n.1 = b.1)) ++ out.outside }
  match (s.ctx j.ctx).pic j.pic with
  | none => s
  | some q => (finals.filter fun l => !(p.leaves.getD l Leaf.reset).valid).foldl (fun t l => t.putLeaf q l) (s.putOutside q q.outside)

/-- A slice has ended: it is counted, and its job is kept until every leaf of it is acknowledged (R200, R204). -/
def State.endJob (s : State) (e : Nat) (j : Job) : State :=
  let s := s.modEngine e fun x => { x with cur := none, completed := sat 32 (x.completed + 1), unacked := x.unacked ++ [j] }
  let s := s.modCtx j.ctx fun x =>
    let y := x.modPic j.pic fun p => { p with slicesLeft := p.slicesLeft - 1 }
    if j.pic < x.firstPic then y
    else { y with
      slicesDec := sat 32 (x.slicesDec + 1), slicesConc := if j.conceal || j.failRow.isSome then sat 32 (x.slicesConc + 1) else x.slicesConc
      longSlice := max x.longSlice (j.ranNs + 10000) }
  (s.settlePicture j.ctx j.pic).flushEvents j.ctx

/-- ROW_COMPLETE: an engine finishes a row of its job, completes leaves, and may be preempted at the row's end (R172, R184). -/
def execRowComplete (dt e : Nat) (out : RowIn) (s : State) : Out :=
  let s := s.elapse dt
  match (s.engine e).cur with
  | none => .next s
  | some j =>
    if (s.engine e).st ≠ .active then .next s
    else
      let p := ((s.ctx j.ctx).pic j.pic).getD Picture.reset
      let poison := (out.leaves.filter fun l => s.fromPoison j p.height l).map (·.leaf)
      let j' := { j with
        row := j.row + 1, failRow := if (j.failure out).isSome then some j.step.1 else j.failRow
        budgetNs := j.budgetNs + s.rowNs j out.bits, ranNs := j.ranNs + out.ns }
      let s := (s.decodeRow j out poison).rowErrors e j out poison
      let s := s.modEngine e fun x => { x with busy := (s.tb.now, out.ns) :: x.busy.filter fun b => decide (s.tb.now < b.1 + 1000000000) }
      if j.rows ≤ j.row + 1 then .next (s.endJob e j')
      else if (s.engine e).jobs.any fun k => decide (k.cls.rank < j.cls.rank) then
        let ran := match j.started with | some t => s.tb.now - t | none => 0
        .next (s.modEngine e fun x => { x with
          cur := none, jobs := x.jobs ++ [{ j' with started := none, priorNs := j.priorNs + ran }], preemptions := sat 32 (x.preemptions + 1) })
      else .next (s.modEngine e fun x => { x with cur := some j' })

/-- Every leaf of a job is acknowledged, or its picture is gone. -/
def State.jobAcked (s : State) (j : Job) : Bool :=
  match (s.ctx j.ctx).pic j.pic with
  | some p => ((p.leaves.drop j.first).take j.count).all (·.acked)
  | none => true

/-- LEAF_COMPLETE: every block of a leaf's pixels is acknowledged, and the block of its colophon is written; VALID waits for the picture's output
(R46, R69–R71, R175). -/
def execLeafComplete (dt c pic leaf : Nat) (s : State) : Out :=
  let s := s.elapse dt
  match (s.ctx c).pic pic with
  | none => .next s
  | some p =>
    let l := p.leaves.getD leaf Leaf.reset
    if !l.ready || l.acked then .next s
    else
      let count := decide ((s.ctx c).firstPic ≤ pic)
      let s := s.modCtx c fun x => { x.modPic pic (fun p => { p with leaves := p.leaves.modify leaf fun l =>
          { l with acked := true, valid := p.output, decoded := s.workTime, signature := crc32c l.pixels } }) with
        leavesConc := if l.concealed && count then sat 32 (x.leavesConc + 1) else x.leavesConc
        leavesRef := if l.refConcealed && count then sat 32 (x.leavesRef + 1) else x.leavesRef }
      let s := match (s.ctx c).pic pic with | some q => s.putColophons q (s.sourceOf c) [leaf / 8] | none => s
      .next { s with dec := { s.dec with de := s.dec.de.map fun (e : Engine) => { e with unacked := e.unacked.filter fun j => !s.jobAcked j } } }

/-! ### Time-out, isolation and return (R199–R202) -/

/-- The R170 time of a job, ns: the rows it has decoded, and those left with the coded bits that each holds, with 10 µs for starting. -/
def State.jobNs (s : State) (j : Job) (bits : List Nat) : Nat :=
  j.budgetNs + ((List.range (j.rows - j.row)).map fun i => s.rowNs j (bits.getD i 0)).sum + 10000

/-- DECODE_TIMEOUT: a job has run longer than four times its R170 time, and at least 1 ms (R199). -/
def execDecodeTimeout (dt : Nat) (job : OverdueIn) (s : State) : Out :=
  let s := s.elapse dt
  let e := job.engine
  match (s.engine e).cur with
  | none => .next s
  | some j =>
    match j.started with
    | none => .next s
    | some t =>
      if (s.engine e).st ≠ .active ∨ j.priorNs + (s.tb.now - t) < max (4 * s.jobNs j job.bits) 1000000 then .next s
      else
        let s := s.modEngine e fun x => { x with timeouts := sat 32 (x.timeouts + 1) }
        let s := s.decEventPic j.ctx j.pic 7 e 0 j.at_ (j.first + j.count - j.at_) 0
        .next (s.fault 2 (islDe e) 0 0 j.ctx)

/-- A shed context's packets, slices and jobs go, and pictures under way are given up (R202). -/
def State.shedContext (s : State) (c : Nat) : State :=
  let s := { s with dec := { s.dec with de := s.dec.de.map fun (e : Engine) => { e with jobs := e.jobs.filter fun j => j.ctx ≠ c || j.begun } } }
  let left (id : Nat) : Nat := ((s.dec.de.flatMap fun (e : Engine) => e.jobs ++ e.cur.toList).filter fun j => decide (j.ctx = c) && decide (j.pic = id)).length
  let s := s.modCtx c fun x => { x with
    st := .shed, pkts := [], missing := [], lostSeqs := [], ready := [], mid := none, dropping := false, firAt := none, passNext := none
    tail := [], tailPkts := [], tailLost := none
    pics := x.pics.map fun p => { p with lastSlice := true, slicesLeft := left p.id, decodedAll := p.decodedAll || decide (left p.id = 0) } }
  s.decEvent c 13 0 0

/-- An interrupted job goes to its context's new engine: what had started restarts from its first row, and is decoded whole (R200, R201). -/
def State.moveJob (s : State) (j : Job) (again : Bool) : State :=
  let x := s.ctx j.ctx
  if !x.opened ∨ x.st = .shed ∨ j.pic < x.firstPic then s
  else
    let began := j.begun || again
    let k := { j with row := 0, started := none, restarted := began, failRow := none, formed := s.tb.now, budgetNs := 0, ranNs := 0, priorNs := 0 }
    let s := if again then s.modCtx j.ctx fun x => x.modPic j.pic fun p => { p with slicesLeft := p.slicesLeft + 1 } else s
    (s.modEngine x.engine fun y => { y with restarts := if began then sat 32 (y.restarts + 1) else y.restarts }).queueJob x.engine k

/-- The blocks of an isolated engine's leaves that are not acknowledged are discarded (R35, R36, R200): those leaves are to be decoded again. -/
def State.dropUnacked (s : State) (jobs : List Job) : State :=
  let drop (j : Job) (l : Leaf × Nat) : Leaf :=
    if !l.1.acked && decide (j.first ≤ l.2) && decide (l.2 < j.first + j.count) then
      { l.1 with ready := false, pixels := [], concealed := false, refConcealed := false, taint := false }
    else l.1
  jobs.foldl (fun (t : State) j => t.modCtx j.ctx fun x => x.modPic j.pic fun p => { p with leaves := p.leaves.zipIdx.map (drop j) }) s

/-- ENGINE_ISOLATE: an isolated engine's contexts are placed on the others, or shed until the rest fit, and its jobs go with them; the
engine is then reset and tested (R200, R202). -/
def execEngineIsolate (dt e : Nat) (s : State) : Out :=
  let s := s.elapse dt
  let x := s.engine e
  if x.st ≠ .isolated then .next s
  else
    let ended := x.unacked.filter fun j => !s.jobAcked j
    let s := s.dropUnacked (x.cur.toList ++ x.jobs ++ ended)
    let r := shedUntilFit s.activeEngines 64 s.dec.ctx []
    let s := { s with dec := { s.dec with ctx := r.1.map fun (c : Context) => if c.picEngine = e then { c with picEngine := c.engine } else c } }
    let s := s.modEngine e fun y => { y with cur := none, jobs := [], unacked := [], st := .testing }
    let s := ended.foldl (fun t j => t.moveJob j true) s
    let s := (x.cur.toList ++ x.jobs).foldl (fun t j => t.moveJob j false) s
    .next ((r.2.foldl (fun t c => t.shedContext c) s).rateIslands)

/-- An island is back in service: the quiet window of its faults runs from now (R567). -/
def State.islandBack (s : State) (i : Nat) : State :=
  { (s.modIsland i fun x => { x with isolated := false }) with
    flt := { s.flt with inst := s.flt.inst.map fun f => if f.island = i ∨ f.src = 0 ∧ f.unit = i then { f with sinceUp := some s.tb.now } else f } }

/-- An engine's self-test ends: one that passes returns to ACTIVE, and shed contexts are tried again; one that fails, or that a lasting
ISOLATION fault keeps out, stays isolated (R202, R566). -/
def State.engineTested (s : State) (e : Nat) (passed : Bool) : State :=
  let x := s.engine e
  if x.st ≠ .testing ∨ x.barred ∨ (s.island (islDe e)).barred then s
  else if passed then ((s.modEngine e fun y => { y with st := .active }).islandBack (islDe e)).retryShed
  else (s.modEngine e fun y => { y with st := .isolated, barred := true }).fault 3 (islDe e) 0 0 0

/-- ENGINE_RETURN (R202). -/
def execEngineReturn (dt e : Nat) (passed : Bool) (s : State) : Out := .next ((s.elapse dt).engineTested e passed)

/-! ### DEC_STATE (R204) -/

/-- The block of an engine. -/
def State.decEngBlock (s : State) (e : Nat) : List Byte :=
  let x := s.engine e
  let l := onEngine s.dec.ctx e
  let load := fracSum (l.map Context.load)
  let both : List Nat := (l.filter fun y => y.cfg.cls ≠ .review).map Context.sliceTime
  let st := match x.st with | .active => 0 | .isolated => 1 | .testing => 2
  let busy := ((x.busy.filter fun b => decide (s.tb.now < b.1 + 1000000000)).map (·.2)).sum
  layout 256 [(0x00, leBytes 1 st), (0x01, leBytes 1 l.length),
    (0x04, leBytes 4 (load.1 / (max 1 load.2 * 1000))), (0x08, leBytes 4 (both.sum / 7000)), (0x0C, leBytes 2 (min 1000 (busy / 1000000))),
    (0x10, leBytes 4 x.completed), (0x14, leBytes 4 x.preemptions), (0x18, leBytes 4 x.restarts), (0x1C, leBytes 4 x.timeouts),
    (0x20, leBytes 4 x.isolations)]

/-- DEC_STATE (R204). -/
def bodyDecState (c : FCtx) (s : State) : FRes :=
  let kind := c.u 0x10 1
  let i := c.u 0x11 1
  let w := c.u 0x12 1
  let off := c.u 0x14 4
  let b := blockChecks c s w off 256
  let block := if kind = 0 then (if (s.ctx i).everOpened then (if (s.ctx i).opened then (s.ctx i).decBlock else (s.ctx i).closedBlock) else List.replicate 256 0) else s.decEngBlock i
  .checks ((decide (kind < 2) && decide (i < if kind = 0 then 64 else 8), .param) :: b.take 1
      ++ [(decide (kind = 1) || mayRead c s i, .colour)] ++ b.drop 1) s (writeBlock s w off block)

/-- DEC_STATE (R204). -/
def execDecState (dt ring : Nat) (s : State) : Out := .next ((s.elapse dt).runFolio ring 0x0302 bodyDecState)

end Sys2Proof.Machine
end

