-- ==== Sys2Proof/Machine/Fresh.lean ====
section
/-!
DEFINITION. Freshness folios, phase plans and genlock (02_freshness.md R76, R79, R93, R101–R109; 03_ingest_time.md R161, R162).
-/

namespace Sys2Proof.Machine

/-! ### FRESH_SOURCE (R101) -/

/-- FRESH_SOURCE (R101). -/
def bodyFreshSource (c : FCtx) (s : State) : FRes :=
  let i := c.u 0x10 1
  let x := s.ctx i
  let allow := c.u 0x14 4
  let hold := c.u 0x18 4
  .checks [(decide (i < 64) && decide (c.u 0x11 1 < 2) && decide (c.u 0x12 2 = 0) && decide (allow ≤ 20000) && decide (10000 ≤ hold)
        && decide (hold ≤ 600000), .param),
      (!x.opened || decide (x.owner = c.colour), .colour), (x.opened, .state)] s <|
    .ok (s.modCtx i fun x => { x with forceArrival := decide (c.u 0x11 1 = 1), allowance := allow, holdLimit := hold })

/-- FRESH_SOURCE (R101). -/
def execFreshSource (dt ring : Nat) (s : State) : Out := .next ((s.elapse dt).runFolio ring 0x0210 bodyFreshSource)

/-! ### FRESH_LAYER (R93, R102) -/

/-- The settings a FRESH_LAYER carries. -/
def freshCfgOf (c : FCtx) : FreshCfg :=
  let p := c.u 0x12 2
  { markConcealed := bitOf p 0, markRefConcealed := bitOf p 1, markArrival := bitOf p 2, markHoldover := bitOf p 3, markFrozen := bitOf p 4
    race := bitOf p 5, opaque_ := bitOf p 6, budget := c.u 0x14 4, deckle := BitVec.ofNat 24 (c.u 0x18 4), fill := BitVec.ofNat 24 (c.u 0x1C 4)
    opacity := c.u 0x20 1, hatch := c.u 0x21 1, freezeN := c.u 0x22 2, winX := c.u 0x24 2, winY := c.u 0x26 2, winW := c.u 0x28 2, winH := c.u 0x2A 2
    interval := c.u 0x2C 4 }

/-- A watch window lies within a layer's destination and the active area (R93). -/
def FreshCfg.inside (f : FreshCfg) (k : LayerCfg) (t : Option Timing) : Bool :=
  decide (f.winX + f.winW ≤ k.dstW) && decide (f.winY + f.winH ≤ k.dstH) && (match t with
    | none => true
    | some t =>
      let x := k.dstX + f.winX
      let y := k.dstY + f.winY
      decide (0 ≤ x) && decide (0 ≤ y) && decide (x + f.winW ≤ t.hActive) && decide (y + f.winH ≤ t.vActive))

/-- The ranges of FRESH_LAYER (R102). -/
def freshRanges (c : FCtx) (f : FreshCfg) : Bool :=
  decide (c.u 0x10 1 < 64) && decide (c.u 0x11 1 = 0) && decide (c.u 0x12 2 < 128) && decide (10 ≤ f.budget) && decide (f.budget ≤ 100000)
    && decide (c.u 0x18 4 < 2 ^ 24) && decide (c.u 0x1C 4 < 2 ^ 24) && decide (64 ≤ f.opacity) && decide (1 ≤ f.hatch) && decide (f.hatch ≤ 4)
    && (decide (f.freezeN = 0) || (decide (2 ≤ f.freezeN) && decide (f.freezeN ≤ 1000))) && decide (f.interval ≤ 60000)

/-- The size of a watch window (R93). -/
def FreshCfg.sizeOk (f : FreshCfg) : Bool := decide (16 ≤ f.winW) && decide (f.winW ≤ 1024) && decide (16 ≤ f.winH) && decide (f.winH ≤ 256)

/-- FRESH_LAYER (R102). -/
def bodyFreshLayer (c : FCtx) (s : State) : FRes :=
  let i := c.u 0x10 1
  let f := freshCfgOf c
  let g := c.group s
  let old := (s.view g).layer i
  let t := match old.head with | some h => (s.timings h).getLast? | none => none
  let heads := s.touched old i none
  .checks [(freshRanges c f && (decide (f.freezeN = 0) || (f.sizeOk && (decide (old.st = .free) || f.inside old.cfg t))), .param),
      (decide (old.st = .free) || decide (old.owner = c.colour), .colour), (decide (old.st ≠ .free), .state),
      (decide (old.st ≠ .held) && !s.layerReserved i g, .busy)] s <|
    .ok (s.enter c (.fresh i f) heads heads.head? false)

/-- FRESH_LAYER (R102). -/
def execFreshLayer (dt ring : Nat) (s : State) : Out := .next ((s.elapse dt).runFolio ring 0x0211 bodyFreshLayer)

/-! ### GENLOCK (R161, R162) -/

/-- Two frame periods differ by at most 200 ppm: NUM / DEN s against a timing's nominal period. -/
def within200 (num den : Nat) (t : Timing) : Bool :=
  let a := num * t.pclk * 1000
  let b := den * t.hTotal * t.vTotal
  decide (0 < den) && decide (0 < num) && decide ((max a b - min a b) * 1000000 ≤ 200 * b)

/-- GENLOCK (R161). A LOCKED head that MODE 0 sets free-running is no longer locked, which EV_PLAN with kind 1 and state 0 reports (DESIGN CHOICE,
log entry 72). -/
def bodyGenlock (c : FCtx) (s : State) : FRes :=
  let h := c.u 0x10 1
  let mode := c.u 0x11 1
  let num := c.u 0x14 4
  let den := c.u 0x18 4
  let off := c.u 0x20 8
  let x := s.head h
  let t := ((s.timings h).getLast?).getD Timing.reset
  .checks [(decide (h < 16) && decide (mode < 3) && decide (c.u 0x12 2 = 0) && decide (c.u 0x1C 4 = 0)
        && decide (0 < den) && decide (off * den < num * 1000000000) && (decide (x.st = .off) || within200 num den t), .param),
      (decide (x.owner = some c.colour), .colour), (!x.stopped && !(decide (mode = 0) && decide (x.plan.st ≠ .off)), .state)] s <|
    let lost := decide (mode = 0) && x.genlock.locked
    let s := s.modHead h fun x => { x with
      genlock := { mode := mode, num := num, den := den, offset := off, locked := x.genlock.locked && decide (mode ≠ 0) }
      trim := if mode = 0 then 0 else x.trim }
    .done .ok 0 s fun t => if lost then t.postPlan h 1 0 0 else t

/-- GENLOCK (R161). -/
def execGenlock (dt ring : Nat) (s : State) : Out := .next ((s.elapse dt).runFolio ring 0x0130 bodyGenlock)

/-- The frame period a head runs to, as a fraction of ns: its genlock's, else its nominal one. -/
def Head.periodNs (x : Head) : Frac :=
  if x.genlock.mode ≠ 0 then (x.genlock.num * 1000000000, max 1 x.genlock.den)
  else (x.timing.hTotal * x.timing.vTotal * 1000000, max 1 x.timing.pclk)

/-- Where the grid of a head's epochs lies: its genlock offset, or the epoch of the plan it last accepted, which it also keeps while it learns
again or is UNPLANNABLE (R107, R109). -/
def Head.grid (x : Head) : Nat := if x.plan.held then x.plan.target else x.genlock.offset

/-- How far an epoch lies from the nearest point of a grid with a period: the signed error in ns. -/
def gridError (e base : Nat) (p : Frac) : Int :=
  let d : Int := ((e : Int) - base) * p.2
  let r := d % (p.1 : Int)
  (if 2 * r ≤ p.1 then r else r - p.1) / (max 1 p.2 : Nat)

/-- The epoch error of a head. -/
def Head.epochError (x : Head) : Int := gridError x.epoch x.grid x.periodNs

/-- An error is removed by lengthening one frame: under genlock MODE 2 above 1 ms (R162), and under the plan's method JUMP to reach the planned
epoch, as far as whole lines go (R108). -/
def Head.jumps (x : Head) (err : Int) : Bool :=
  (decide (x.genlock.mode = 2) && decide (1000000 < err.natAbs)) || (x.plan.jump && decide (x.plan.st = .slewing) && decide (x.timing.linesNs 1 ≤ err.natAbs))

/-- GENLOCK_PULL: the clock is trimmed towards the grid, by an amount within ±200 ppm that the spec leaves open; a larger error is
jumped where that is allowed; and the head changes between PULLING and LOCKED (R162). -/
def execGenlockPull (dt h : Nat) (s : State) : Out :=
  let s := s.elapse dt
  let x := s.head h
  if x.genlock.mode = 0 ∨ x.st = .off ∨ x.st = .starting ∨ x.isolated then .next s
  else
    let err := x.epochError
    let locked := if x.genlock.locked then decide (err.natAbs ≤ 200) else decide (err.natAbs ≤ 50)
    let jump := x.jumps err
    let line := max 1 (x.timing.linesNs 1)
    let late := if err < 0 then err.natAbs else x.timing.periodNs - err.natAbs
    let (v, s) := s.open_
    let amount : Int := ((v % 200001 : Nat) : Int)
    let s := s.modHead h fun x => { x with
      genlock := { x.genlock with locked := locked }
      trim := if err = 0 ∨ jump then 0 else if 0 < err then amount else -amount
      lengthen := if jump then min (late / line) x.timing.vTotal else 0 }
    .next (if locked = x.genlock.locked then s else s.postPlan h 1 (b2n locked) err)

/-! ### FRESH_HEAD (R98, R103, R106) -/

/-- Blocks of one record of a signature log (R98). -/
def recordBlocks (leaves : Nat) : Nat := ceilDiv (32 + 4 * leaves) 256

/-- The anchors of a FRESH_HEAD. -/
def anchorsOf (c : FCtx) : List Nat := ((List.range 4).map fun k => c.u (0x14 + k) 1).filter fun a => a ≠ 0xFF

/-- An anchor can be planned for: open, mapped-timed, live-urgent, at the head's rate or half of it (R106); a context of another member where
that is shared with this one (R112). -/
def State.anchorOk (s : State) (h a : Nat) : Bool :=
  let g := (s.head h).genlock
  let fits (d : Decl) : Bool := decide (d.rateNum * g.num = d.rateDen * g.den) || decide (2 * d.rateNum * g.num = d.rateDen * g.den)
  match s.rxAnchor a with
  | some x => x.refPtp && decide (x.cls = .urgent) && fits x.decl
  | none => (s.ctx a).opened && decide ((s.ctx a).timing = some false) && decide ((s.ctx a).cfg.cls = .urgent) && fits (s.ctx a).decl

/-- FRESH_HEAD (R103). -/
def bodyFreshHead (c : FCtx) (s : State) : FRes :=
  let h := c.u 0x10 1
  let p := c.u 0x11 1
  let plan := bitOf p 0
  let anchors := anchorsOf c
  let ring := c.u 0x1A 1
  let l := c.u 0x1B 1
  let log := bitOf l 3
  let w := l % 8
  let off := c.u 0x1C 4
  let blocks := c.u 0x20 4
  let x := s.head h
  let size := recordBlocks x.timing.leaves
  .checks [(decide (h < 16) && decide (p < 4) && decide (ring < 32) && decide (l < 16)
        && decide (60 ≤ c.u 0x12 2) && decide (c.u 0x12 2 ≤ 600) && anchors.all (fun a => decide (a < 64)) && decide (c.u 0x18 2 ≤ 1000)
        && decide (off % 256 = 0) && decide (blocks % size = 0) && decide (2 * size ≤ blocks), .param),
      (decide (x.owner = some c.colour) && evOk c s ring && (!log || (s.winOk w c.colour && s.winSpan w off (blocks * 256) true)), .colour),
      (!x.stopped && (!plan || (decide (x.genlock.mode ≠ 0) && anchors.all (s.anchorOk h))), .state)] s <|
    let s := s.modHead h fun x => { x with
      freshRing := some (c.ev ring)
      plan := if plan then { x.plan with jump := bitOf p 1, learn := c.u 0x12 2, anchors := anchors, margin := c.u 0x18 2 } else x.plan
      log := { st := if log then .logging else .off, window := w, offset := off, blocks := blocks, recSize := if log then size else 0, leaves := x.timing.leaves, next := 0 } }
    .done .ok 0 s fun t => if plan then t.relearn h
      else (t.modHead h fun x => { x with plan := { x.plan with held := false } }).planTo h .off

/-- FRESH_HEAD (R103). -/
def execFreshHead (dt ring : Nat) (s : State) : Out := .next ((s.elapse dt).runFolio ring 0x0212 bodyFreshHead)

/-! ### PLAN_LEARNED (R107) -/

/-- The time from the epoch to the first output line of a leaf of an anchor on a head. -/
def State.leafOffset (s : State) (h a leaf : Nat) : Option Nat :=
  let x := s.head h
  let member := match s.rxAnchor a with | some y => y.member | none => s.top.gatherId.toNat
  match x.on_.find? fun k => isVideo k.index && decide (k.cfg.context = a) && decide (k.cfg.srcMember = member) with
  | some k => ((k.linesOf x.timing leaf).head?).map fun y => x.timing.linesNs y
  | none => none

/-- A learnt slice as the plan needs it. -/
structure PlanSlice where
  /-- CAPTURE of its anchor's last picture. -/
  cap    : Nat
  /-- e_k, ns. -/
  early  : Int
  /-- l_k, ns. -/
  late   : Int
  /-- Time from the epoch to its first leaf, ns. -/
  offset : Nat
  /-- What its way over the spine adds, ns: 0 for a context of this member, else 40 µs and 2 µs a hop (R112). -/
  way    : Nat
  deriving DecidableEq, Repr, Inhabited

/-- The learnt slices of the anchors that layers of the head show; slices of an anchor that no layer of it shows are left out, since they have no
scan time (DESIGN CHOICE, log entry 24). -/
def State.planSlices (s : State) (h : Nat) : List PlanSlice :=
  let p := (s.head h).plan
  p.slices.filterMap fun x =>
    match p.seen.find? (fun y => y.1 = x.1), s.leafOffset h x.1 x.2.2.2.2 with
    | some y, some o => some { cap := y.2.2, early := x.2.2.1, late := x.2.2.2.1, offset := o, way := s.anchorWay x.1 }
    | _, _ => none

/-- The earliest epoch at which a slice of the last picture is met: CAPTURE + l_k + MARGIN + 1,460 µs at its first leaf, and the way over the
spine (R107, R112). -/
def sliceEpoch (margin : Nat) (x : PlanSlice) : Int := (x.cap : Int) + x.late + margin * 1000 + 1460000 + x.way - x.offset

/-- The planned added latency of a slice at an epoch, with the newest picture that meets it: scan time + 40 µs − (CAPTURE + e_k). -/
def sliceLatency (epoch : Int) (need : Int) (period : Frac) (x : PlanSlice) : Int :=
  let n := (epoch - need) * period.2 / max 1 period.1
  epoch + x.offset + 40000 - ((x.cap : Int) + n * period.1 / max 1 period.2 + x.early)

/-- Every anchor has recorded LEARN pictures. -/
def Plan.learned (p : Plan) : Bool := p.anchors.all fun a => p.seen.any fun x => decide (x.1 = a) && decide (p.learn ≤ x.2.1)

/-- The picture period of an anchor with a CAPTURE, ns. -/
def State.anchorPeriod (s : State) (h cap : Nat) : Frac :=
  match (s.head h).plan.seen.find? fun x => x.2.2 = cap with
  | some x =>
    let d := match s.rxAnchor x.1 with | some y => y.decl | none => (s.ctx x.1).decl
    (d.rateDen * 1000000000, max 1 d.rateNum)
  | none => (1, 1)

/-- PLAN_LEARNED: the earliest epoch that every anchor slice allows is the plan's, if no planned latency exceeds 3,000 µs. FRESH_STATE then
reports how far that epoch lies from the grid of GENLOCK's OFFSET: the spec does not say what the plan's reference is (DESIGN CHOICE, log entry 68). -/
def execPlanLearned (dt h : Nat) (s : State) : Out :=
  let s := s.elapse dt
  let x := s.head h
  if x.plan.st ≠ .learning ∨ !x.plan.learned then .next s
  else
    let l := s.planSlices h
    let epoch := (l.map (sliceEpoch x.plan.margin)).foldl max 0
    let worst := (l.map fun k =>
      let same := (l.filter fun j => j.cap = k.cap).map (sliceEpoch x.plan.margin)
      sliceLatency epoch (same.foldl max 0) (s.anchorPeriod h k.cap) k).foldl max 0
    let ok := !l.isEmpty && decide (worst ≤ 3000000)
    let s := s.modHead h fun y => { y with plan := { y.plan with
      latency := (worst / 1000).toNat
      target := if ok then epoch.toNat else y.plan.target, held := ok || y.plan.held
      epochOff := if ok then gridError epoch.toNat y.genlock.offset y.periodNs else y.plan.epochOff } }
    .next (s.planTo h (if ok then .slewing else .unplannable))

/-! ### FRESH_STATE (R104, R105, R300) -/

/-- The block of a layer. While no picture of its source has qualified yet, FRAME, SOURCE and CAPTURE read zero (DESIGN CHOICE, log entry 69). -/
def Layer.freshBlock (x : Layer) : List Byte :=
  let p := x.sel.getD SelPic.reset
  let st := match x.det with | .off => 0 | .watching => 1 | .frozen => 2 | .suspended => 3
  layout 256 [(0x00, leBytes 4 p.frame.toNat), (0x04, leBytes 2 p.source.toNat), (0x06, leBytes 2 x.reasons.toNat), (0x08, leBytes 8 p.capture),
    (0x10, leBytes 4 x.worst), (0x14, leBytes 4 x.failFrames), (0x18, leBytes 2 (sat 16 x.run_)), (0x1A, leBytes 1 st), (0x1C, leBytes 4 x.lastSig.toNat)]

/-- The block of a head. -/
def State.freshHeadBlock (s : State) (h : Nat) : List Byte :=
  let x := s.head h
  let misses := (x.plan.misses.filter fun t => decide (s.tb.now < t + 10000000000)).length
  let log := match x.log.st with | .off => 0 | .logging => 1 | .stopped => 2
  layout 256 [(0x00, leBytes 1 x.plan.st.code), (0x04, leBytes 4 (sat 32 x.plan.latency)), (0x08, leBytes 8 (wordOf 64 x.plan.epochOff)),
    (0x10, leBytes 4 misses), (0x14, leBytes 4 x.frame.toNat), (0x18, leBytes 1 log), (0x1A, leBytes 2 x.log.recSize)]

/-- The block of a stream context; the age of a sender report that has never come is open. -/
def State.freshCtxBlock (s : State) (i : Nat) (none_ : Nat) : List Byte :=
  let x := s.ctx i
  let age := match x.srs with | r :: _ => ((if x.opened then s.tb.dev else x.closedDev) - r.stamp) / 1000000 | [] => none_
  layout 256 [(0x00, leBytes 1 (b2n (x.timing.getD true))), (0x04, leBytes 4 (sat 32 age)), (0x08, leBytes 4 x.count.clamped)]

/-- FRESH_STATE (R104). -/
def bodyFreshState (c : FCtx) (s : State) : FRes :=
  let kind := c.u 0x10 1
  let n := c.u 0x11 1
  let w := c.u 0x12 1
  let off := c.u 0x14 4
  let b := blockChecks c s w off 256
  let (v, s') := s.open_
  .checks ((decide (kind < 3) && decide (n < if kind = 1 then 16 else 64), .param) :: b.take 1
      ++ [((if kind = 0 then s.layerReader c n else if kind = 1 then s.headReader c n else mayRead c s n), .colour)] ++ b.drop 1) s
    (writeBlock s' w off (if kind = 0 then (s.layer n).freshBlock else if kind = 1 then s.freshHeadBlock n else if (s.ctx n).everOpened then s.freshCtxBlock n v else List.replicate 256 0))

/-- FRESH_STATE (R104). -/
def execFreshState (dt ring : Nat) (s : State) : Out := .next ((s.elapse dt).runFolio ring 0x0213 bodyFreshState)

end Sys2Proof.Machine
end

