-- ==== Sys2Proof/Machine/Heads.lean ====
section
/-!
DEFINITION. Heads: their folios and the latch (07_heads.md R265–R267, R277–R279, R282, R283, R286–R290, R295, R298, R300).
-/

namespace Sys2Proof.Machine

/-! ### HEAD_TIMING (R277–R279) -/

/-- The settings a HEAD_TIMING carries. -/
def timingOf (c : FCtx) : Timing :=
  let f := c.u 0x28 2
  { port := if c.u 0x11 1 = 0xFF then none else some (c.u 0x11 1), stream := c.u 0x12 1, mstPort := c.u 0x13 1, pclk := c.u 0x14 4
    hActive := c.u 0x18 2, hFront := c.u 0x1A 2, hSync := c.u 0x1C 2, hBack := c.u 0x1E 2, vActive := c.u 0x20 2, vFront := c.u 0x22 2
    vSync := c.u 0x24 2, vBack := c.u 0x26 2, hPos := bitOf f 0, vPos := bitOf f 1, deep := bitOf f 2, limited := bitOf f 3
    commitEvents := bitOf f 4, ring := c.ev (c.u 0x2A 1), frameEvents := c.u 0x2B 1 }

/-- The ranges of R277 and R278. -/
def timingRanges (c : FCtx) (t : Timing) : Bool :=
  decide (c.u 0x10 1 < 16) && (match t.port with | some p => decide (p < 8) | none => true) && decide (t.stream < 2) && decide (t.mstPort < 16)
    && decide (25000 ≤ t.pclk) && decide (t.pclk ≤ 600000) && decide (t.hActive % 2 = 0) && decide (640 ≤ t.hActive) && decide (t.hActive ≤ 8192)
    && decide (8 ≤ t.hFront) && decide (8 ≤ t.hSync) && decide (8 ≤ t.hBack) && decide (480 ≤ t.vActive) && decide (t.vActive ≤ 4352)
    && decide (1 ≤ t.vFront) && decide (1 ≤ t.vSync) && decide (1 ≤ t.vBack) && decide (c.u 0x28 2 < 32) && decide (c.u 0x2A 1 < 32)
    && decide (c.u 0x2C 4 = 0) && decide (t.hActive + 80 ≤ t.hTotal) && decide (t.hTotal ≤ 16384) && decide (t.vActive + 8 ≤ t.vTotal)
    && decide (t.vTotal ≤ 8192) && decide (24 * (t.hTotal * t.vTotal) ≤ t.pclk * 1000) && decide (t.pclk * 1000 ≤ 120 * (t.hTotal * t.vTotal))

/-- The port rules of R279 for a head and a new timing. -/
def State.routeOk (s : State) (h : Nat) (t : Timing) : Bool :=
  match t.port with
  | none => true
  | some p =>
    let x := s.dpPort p
    let others := (s.routed p).filter fun g => g ≠ h
    decide (x.st ≠ .off) && !(decide (x.mode = 1) && (!others.isEmpty || decide (t.stream = 1) || decide (t.mstPort ≠ 0)))
      && !(others.any fun g => (s.routeTimings p g).any fun k => decide (k.stream = t.stream))

/-- HEAD_TIMING (R277). -/
def bodyHeadTiming (c : FCtx) (s : State) : FRes :=
  let h := c.u 0x10 1
  let t := timingOf c
  let x := s.head h
  let v := s.view none
  let portColour := match t.port with
    | some p => (match (s.dpPort p).owner with | some o => decide (o = c.colour) | none => true)
    | none => true
  let room := match t.port with
    | some p => s.fits p (s.dpPort p).mode (s.dpPort p).rate (some (h, t))
    | none => true
  let earlier := s.comp.pend.any fun p => match p.change with | .timing g _ => decide (g = h) | _ => false
  .checks [(timingRanges c t, .param),
      ((decide (x.owner = none) || decide (x.owner = some c.colour)) && portColour && evOk c s (c.u 0x2A 1), .colour),
      (s.routeOk h t && !x.stopped && (decide (x.genlock.mode = 0) || within200 x.genlock.num x.genlock.den t), .state),
      (!s.headReserved h none && !earlier, .busy), (pressFits (v.head h) t, .nospace), (room && fracLe (s.headCharge (v.head h) t) 2500000000, .capacity)] s <|
    let off := decide (x.st = .off)
    let s := if off then s.modHead h fun x => { x with st := .starting, owner := some c.colour, timing := t, vpll := t.vpll } else s
    let active := decide (t.hActive ≠ x.timing.hActive) || decide (t.vActive ≠ x.timing.vActive)
    let static := (v.head h).any fun k => k.2.static
    .ok (s.enter c (.timing h t) [h] (some h) (!off && active && static))

/-- HEAD_TIMING: a head that leaves OFF asks for its payload at once (R275, R277, R283). -/
def execHeadTiming (dt ring : Nat) (s : State) : Out :=
  let s := s.elapse dt
  let t := s.runRaising ring 0x0700 false bodyHeadTiming
  let started := (List.range 16).filter fun h => decide ((s.head h).st = .off) && decide ((t.head h).st = .starting)
  .next ((started.foldl (fun (u : State) h =>
    let u := match (u.head h).timing.port with | some p => u.grant p [h] | none => u
    u.retimeEncode h) t).advance)

/-! ### HEAD_STOP, HEAD_GUESTS (R267, R282) -/

/-- HEAD_STOP (R282). -/
def bodyHeadStop (c : FCtx) (s : State) : FRes :=
  let h := c.u 0x10 1
  let x := s.head h
  .checks [(decide (h < 16), .param), (decide (x.owner = some c.colour), .colour),
      (!((s.view none).lay.any fun l => l.head = some h) && !s.headReserved h none, .busy)] s <|
    .ok ((s.enter c (.stop h) [h] (some h) false).modHead h fun x => { x with stopping := true })

/-- HEAD_STOP (R282). -/
def execHeadStop (dt ring : Nat) (s : State) : Out := .next ((s.elapse dt).runFolio ring 0x0701 bodyHeadStop)

/-- The colours with a layer on a head, in force or in the pending configuration. -/
def State.coloursOn (s : State) (h : Nat) : List Nat :=
  let of (v : View) : List Nat := (v.head h).map fun k => (v.layer k.1).owner
  of s.viewNow ++ of (s.view none)

/-- HEAD_GUESTS (R267). -/
def bodyHeadGuests (c : FCtx) (s : State) : FRes :=
  let h := c.u 0x10 1
  let mask := BitVec.ofNat 64 (c.u 0x18 8)
  let x := s.head h
  .checks [(decide (h < 16), .param), (decide (x.owner = some c.colour), .colour), (!x.stopped, .state),
      (!((s.coloursOn h).any fun n => x.guests.getLsbD n && !mask.getLsbD n), .busy)] s <|
    .ok (s.modHead h fun x => { x with guests := mask })

/-- HEAD_GUESTS (R267). -/
def execHeadGuests (dt ring : Nat) (s : State) : Out := .next ((s.elapse dt).runFolio ring 0x0702 bodyHeadGuests)

/-! ### HEAD_STATE (R298, R300) -/

/-- The code of a head state. -/
def HeadSt.code : HeadSt → Nat
  | .off => 0 | .starting => 1 | .running => 2 | .changing => 3

/-- The pixel clock that a timing and a trim give, in Hz. -/
def achievedHz (t : Timing) (trim : Int) : Nat := ((t.pclk : Int) * 1000 + (t.pclk : Int) * trim / 1000000).toNat

/-- The block of a head. -/
def State.headBlock (s : State) (h : Nat) : List Byte :=
  let x := s.head h
  let t := x.timing
  let up := match t.port with | some p => decide ((s.dpPort p).st = .up) | none => false
  let on := decide (x.st ≠ .off)
  layout 256 [(0x00, leBytes 1 x.st.code), (0x01, leBytes 1 (x.owner.getD 0xFF)), (0x02, leBytes 1 (t.port.getD 0xFF)), (0x03, leBytes 1 t.stream),
    (0x04, leBytes 4 x.frame.toNat), (0x08, leBytes 8 x.epoch), (0x10, leBytes 4 (if on then t.periodNs else 0)),
    (0x14, leBytes 4 (if on then t.hTotal * 1000000000 / max 1 t.pclk else 0)), (0x18, leBytes 2 (if on then t.latchLine else 0)),
    (0x1A, leBytes 1 x.slots), (0x1B, leBytes 1 (b2n up + 2 * b2n x.payload)), (0x1C, leBytes 4 (if on then achievedHz t x.trim else 0)),
    (0x20, leBytes 8 x.guests.toNat), (0x28, leBytes 4 x.deferredCount), (0x2C, leBytes 4 x.noOutput), (0x30, leBytes 4 (wordOf 32 x.trim))]

/-- HEAD_STATE (R298). -/
def bodyHeadState (c : FCtx) (s : State) : FRes :=
  let h := c.u 0x10 1
  let w := c.u 0x12 1
  let off := c.u 0x14 4
  let b := blockChecks c s w off 256
  .checks ((decide (h < 16), .param) :: b.take 1 ++ [(s.headReader c h, .colour)] ++ b.drop 1) s
    (writeBlock s w off (s.headBlock h))

/-- HEAD_STATE (R298). -/
def execHeadState (dt ring : Nat) (s : State) : Out := .next ((s.elapse dt).runFolio ring 0x0703 bodyHeadState)

/-! ### What takes effect at a latch (R245, R246, R287–R289) -/

/-- The press image flattened for a change is shown from now on (R263). -/
def State.showPress (s : State) (h order : Nat) : State :=
  s.modHead h fun x =>
    if x.press.forOrder = some order ∧ x.press.nextReady then
      { x with press := { x.press with
          valid := true, rect := x.press.nextRect, image := x.press.nextImage, nextReady := false, forOrder := none } }
    else x

/-- A folio's commit is noted for the ring's EV_COMMIT (R290). -/
def Head.note (x : Head) (p : Pend) (deferred timing : Bool) : Head :=
  let old := x.commits.find? fun r => r.ring = p.ring
  let base : CommitRec := old.getD { CommitRec.reset with ring := p.ring }
  let new : CommitRec :=
    { base with
      count := base.count + 1, lastSeq := p.seq, tag := p.tag, deferred := base.deferred || deferred, timing := base.timing || timing }
  { x with
    commits := if old.isSome then x.commits.map fun r => if r.ring = p.ring then new else r else x.commits ++ [new]
    deferredCount := if deferred then sat 32 (x.deferredCount + 1) else x.deferredCount }

/-- The heads are genlocked with the same NUM, DEN and OFFSET (R246). -/
def State.lockedSet (s : State) (heads : List Nat) : Bool :=
  match heads with
  | [] => false
  | h :: rest =>
    let g := (s.head h).genlock
    decide (g.mode ≠ 0) && rest.all fun k =>
      let u := (s.head k).genlock
      decide (u.mode ≠ 0) && decide (u.num = g.num) && decide (u.den = g.den) && decide (u.offset = g.offset)

/-- COMP reads the fences of every queued group that names a head; the groups whose fences are all signalled, and the state with those
discarded whose fences cannot be read (R242, R244). -/
def State.latchFences (s : State) (h : Nat) : State × List Nat :=
  (List.range 48).foldl (fun a r => (a.1.cmdQ r).groups.foldl (fun (b : State × List Nat) g =>
    if g.committed || !g.doneHeads.isEmpty || !g.heads.contains h then b
    else match b.1.readFences g.colour g.fences with
      | none => (b.1.discardGroup r g 2, b.2)
      | some true => (b.1, g.id :: b.2)
      | some false => b) a) (s, [])

/-- A group commits on a head at this latch: one that has begun to commit goes on; else it is ready, and no head of a genlocked set that
must commit together has its window open already (R242, R245, R246). -/
def State.groupDue (s : State) (h r : Nat) (g : Group) (signalled : List Nat) : Bool :=
  !g.committed && g.heads.contains h && !g.doneHeads.contains h
    && (!g.doneHeads.isEmpty || (signalled.contains g.id && s.groupReady r g
      && !(s.lockedSet g.heads && g.heads.any fun k => decide (k ≠ h) && (s.head k).windowOpen)))

/-- A group commits on a head: its staged folios take effect, those that concern no head with the first. -/
def State.commitGroup (s : State) (h r : Nat) (g : Group) : State :=
  let first := g.doneHeads.isEmpty
  let late := first && g.expired && g.waitSource && !s.sourcesReady g.id
  let s := (s.staged g.id).foldl (fun (t : State) p =>
    if p.heads.contains h then (t.effect p (some h)).donePend p.order h
    else if first ∧ p.heads.isEmpty then t.effectNone p else t) s
  let done := g.doneHeads ++ [h]
  (s.showPress h g.order).modGroup r g.id fun x => { x with
    doneHeads := done, sourceLate := x.sourceLate || late, committed := x.heads.all fun k => done.contains k }

/-- Numbers in rising order with one more. -/
def insertNat (n : Nat) : List Nat → List Nat
  | [] => [n]
  | m :: l => if n ≤ m then n :: m :: l else m :: insertNat n l

/-- Where the work of a latch stands: the state, the layers with an earlier folio that could not take effect, and whether there is one. -/
abbrev LatchAcc := State × List Nat × Bool

/-- An ungrouped folio of a head that can take effect now does; a HEAD_STOP comes after everything before it (R282, R287, R289). -/
def LatchAcc.solo (a : LatchAcc) (h : Nat) (p : Pend) : LatchAcc :=
  let s := a.1
  let stop := match p.change with | .stop _ => true | _ => false
  let due := decide (p.at_ < s.tb.now) && p.flat.isEmpty && s.partnerClear p && !(p.change.layers.any fun i => a.2.1.contains i) && !(stop && a.2.2)
  if due then
    let deferred := p.deferred.contains h
    ((((s.effect p (some h)).showPress h p.order).modHead h fun x => x.note p deferred false).donePend p.order h, a.2)
  else (s, p.change.layers ++ a.2.1, true)

/-- One place of the completion order at a latch: an ungrouped folio, or a group. -/
def LatchAcc.item (a : LatchAcc) (h : Nat) (signalled : List Nat) (order : Nat) : LatchAcc :=
  match a.1.comp.pend.find? fun p => decide (p.order = order) && p.group.isNone with
  | some p => a.solo h p
  | none =>
    match (List.range 48).findSome? fun r => ((a.1.cmdQ r).groups.find? fun g => g.order = order).map fun g => (r, g) with
    | some (r, g) => if a.1.groupDue h r g signalled then (a.1.commitGroup h r g, a.2) else a
    | none => a

/-- The places of the completion order that concern a head: ungrouped folios other than its HEAD_TIMING, and groups. -/
def State.latchOrders (s : State) (h : Nat) : List Nat :=
  let solos := s.comp.pend.filterMap fun p =>
    let timing := match p.change with | .timing _ _ => true | _ => false
    if p.group.isNone && p.heads.contains h && !timing then some p.order else none
  let groups := s.host.cmdq.flatMap fun (q : CmdQ) => q.groups.filterMap fun g => if g.heads.contains h then some g.order else none
  (solos ++ groups).foldr insertNat []

/-! ### The timing change (R289, R295) -/

/-- A HEAD_TIMING latched for a head takes effect: payload moves, and the counted frames start anew (R291). -/
def State.latchTiming (s : State) (h : Nat) : State :=
  match s.comp.pend.find? fun p => (match p.change with | .timing g _ => decide (g = h) | _ => false) && decide (p.at_ < s.tb.now) && p.flat.isEmpty with
  | none => s
  | some p =>
    match p.change with
    | .timing _ t =>
      let old := (s.head h).timing
      let s := (s.modHead h fun x => { x.note p (p.deferred.contains h) true with
        timing := t, vpll := t.vpll, evLeft := 0, st := if x.st = .running then .changing else x.st }).donePend p.order h
      let s := s.showPress h p.order
      let s := if old.port ≠ t.port then (match old.port with | some q => s.grant q [] | none => s) else s
      let s := match t.port with
        | some q => s.grant q (if (s.head h).st = HeadSt.starting then [] else [h])
        | none => s.modHead h fun x => { x with payload := false, slots := 0 }
      s
    | _ => s

/-! ### Watch windows (R93, R96) -/

/-- EV_FROZEN or EV_THAW for a layer on a head (R343). -/
def State.postFreeze (s : State) (h i code flags : Nat) : State :=
  let x := s.layer i
  match (s.head h).freshRing with
  | some n => s.post n code 0 (leBytes 1 h ++ leBytes 1 i ++ leBytes 2 flags ++ leBytes 2 (sat 16 x.run_) ++ leBytes 2 0
      ++ leBytes 4 (s.head h).frame.toNat ++ leBytes 4 x.lastSig.toNat)
  | none => s

/-- A watch window is judged again after a change of layout. -/
def State.recheckWindow (s : State) (h : Nat) (k : Shown) : State :=
  let x := s.layer k.index
  if !isVideo k.index ∨ k.fresh.winW = 0 ∨ k.fresh.freezeN = 0 then s
  else if k.fresh.inside k.cfg (some (s.head h).timing) then
    if x.det = .suspended then s.modLayer k.index fun y => { y with det := .watching, run_ := 0 } else s
  else if x.det = .watching ∨ x.det = .frozen then (s.modLayer k.index fun y => { y with det := .suspended }).postFreeze h k.index 0x8202 1
  else s

/-! ### LATCH (R286–R289) -/

/-- The layers that the coming frame scans, bottom first: every video and graphic layer, and the press image, index 128, in the place
of the lowest STATIC layer (R261). -/
def Head.scans (x : Head) : List Scan :=
  x.stack.foldl (fun acc k =>
    if k.2.static then
      if acc.any fun (y : Scan) => y.shown.index = 128 then acc else acc ++ [{ Scan.reset with shown := { Shown.reset with index := 128 } }]
    else acc ++ ((x.on_.filter fun y => y.index = k.1).map fun y => { Scan.reset with shown := y })) []

/-- A folio that completed at the latch itself counts as after it: it takes effect at the next one, deferred (R287). -/
def Pend.missed (p : Pend) (h now : Nat) : Pend :=
  if p.group.isNone ∧ p.heads.contains h ∧ p.at_ = now ∧ !p.deferred.contains h then { p with deferred := h :: p.deferred } else p

/-- LATCH: the window of the coming frame opens, and everything due takes effect (R286–R289). A head that is OFF, whose window is open,
that is isolated, or that scans its last frame has no latch. -/
def execLatch (dt h : Nat) (s : State) : Out :=
  let s := s.elapse dt
  let x := s.head h
  if x.st = .off ∨ x.windowOpen ∨ x.isolated ∨ x.ending ∨ 16 ≤ h then .next s
  else
    let s := s.modHead h fun x => { x with latchAt := s.tb.dev }
    let s := s.latchTiming h
    let f := s.latchFences h
    let a := (f.1.latchOrders h).foldl (fun (a : LatchAcc) o => a.item h f.2 o) (f.1, [], false)
    let s := a.1
    let ready := (List.range 48).foldl (fun (t : State) r => (t.cmdQ r).groups.foldl (fun (u : State) g =>
      if !g.heads.contains h || g.doneHeads.contains h then u
      else
        let ok := u.groupReady r g
        u.modGroup r g.id fun x => { x with okAtLatch := if ok then h :: (x.okAtLatch.filter fun k => k ≠ h) else x.okAtLatch.filter fun k => k ≠ h }) t) s
    let ready := { ready with comp := { ready.comp with pend := ready.comp.pend.map fun (p : Pend) => p.missed h s.tb.now } }
    let s := (ready.head h).on_.foldl (fun (t : State) k => t.recheckWindow h k) ready
    let s := s.modHead h fun x => { x with windowOpen := true, next := x.scans }
    .next ((s.modPlate h fun p => { p with latchedFrame := true }).advance)

end Sys2Proof.Machine
end

