-- ==== Sys2Proof/Machine/Scan.lean ====
section
/-!
DEFINITION. Scan-out: picks, fetches, bands, the checks of leaves, composition, signatures and the encoders' tap (02_freshness.md
R81–R97; 05_layers.md R215, R226, R228, R232–R234; 06_flips_plate_press.md R251, R258, R259; 07_heads.md R281, R284, R292–R294;
08_encode_record.md R303).
-/

namespace Sys2Proof.Machine

/-! ### The two frames a head works on -/

/-- A layer's place in the frame being scanned, or in the coming one. -/
def Head.scanOf (x : Head) (coming : Bool) (i : Nat) : Option Scan :=
  (if coming then x.next else x.cur).find? fun k => k.shown.index = i

/-- That place changed. -/
def State.modScan (s : State) (h : Nat) (coming : Bool) (i : Nat) (f : Scan → Scan) : State :=
  s.modHead h fun x =>
    if coming then { x with next := x.next.map fun k => if k.shown.index = i then f k else k }
    else { x with cur := x.cur.map fun k => if k.shown.index = i then f k else k }

/-- The frame that a step of a layer belongs to: the one being scanned where it is still to come there, else the coming one. -/
def Head.frameFor (x : Head) (i : Nat) (todo : Scan → Bool) : Option Bool :=
  if (match x.scanOf false i with | some k => todo k | none => false) then some false
  else if x.windowOpen && (match x.scanOf true i with | some k => todo k | none => false) then some true
  else none

/-- The timing of a frame. -/
def Head.timingFor (x : Head) (coming : Bool) : Timing := if coming then x.timing else x.set_.timing

/-! ### EV_LAYER (R234) -/

/-- An occurrence for EV_LAYER: posted at most once per second and kind, with the occurrences since the last. One of the coming frame waits for
the epoch, so that the events of a head reach their ring in frame order. -/
def State.layerEvent (s : State) (h i kind value frame : Nat) : State :=
  let x := s.layer i
  let q := x.ev.getD kind EvLim.reset
  if s.since q.last 1000000000 then
    let s := s.modLayer i fun y => { y with ev := y.ev.modify kind fun _ => { last := some s.tb.now, count := 0 } }
    let body := leBytes 1 (layerCode i) ++ leBytes 1 h ++ leBytes 1 kind ++ leBytes 1 value ++ leBytes 4 frame ++ leBytes 4 (sat 32 (q.count + 1))
    if frame = (s.head h).frame.toNat then s.post x.cfg.ring 0x8400 0 body
    else s.modHead h fun y => { y with later := y.later ++ [(x.cfg.ring, body)] }
  else s.modLayer i fun y => { y with ev := y.ev.modify kind fun e => { e with count := e.count + 1 } }

/-- The EV_LAYER records of a frame that has now begun reach their rings. -/
def State.flushLater (s : State) (h : Nat) : State :=
  (s.head h).later.foldl (fun (t : State) q => t.post q.1 0x8400 0 q.2) (s.modHead h fun x => { x with later := [] })

/-- The head frame counter a frame has or will have (R285). -/
def Head.counter (x : Head) (coming : Bool) : Nat :=
  if coming then (if x.frame = BitVec.allOnes 32 then 1 else x.frame.toNat + 1) else x.frame.toNat

/-- The conversion that AUTO resolves to for a layer's picture, reported where it changes (R226; log entry 28). -/
def State.resolveTo (s : State) (h i code frame : Nat) : State :=
  if (s.layer i).resolved = code then s
  else (s.modLayer i fun x => { x with resolved := code }).layerEvent h i 2 code frame

/-! ### PICK_POINT (R81, R114, R226) -/

/-- PICK_POINT: the layer's picture for the frame is selected. -/
def execPickPoint (dt h layer : Nat) (s : State) : Out :=
  let s := s.elapse dt
  let x := s.head h
  match x.frameFor layer fun k => !k.picked with
  | none => .next s
  | some coming =>
    if 64 ≤ layer ∨ x.isolated then .next s
    else
      match x.scanOf coming layer with
      | none => .next s
      | some k =>
        let last := match (s.layer layer).sel with
          | some p => if p.context = k.shown.cfg.context ∧ p.member = k.shown.cfg.srcMember then some p else none
          | none => none
        let sel := s.pickFor k.shown (x.timingFor coming) last
        let s := (s.modScan h coming layer fun k => { k with picked := true, sel := sel }).modLayer layer fun y => { y with sel := sel }
        match sel.bind s.picOf with
        | some p => .next (if k.shown.cfg.matrix = 0 then s.resolveTo h layer (resolveVideo 0 p) (x.counter coming) else s)
        | none => .next s

/-! ### FETCH_INSTANT (R82, R232, R292) -/

/-- A leaf of a layer in a frame is still to be fetched. -/
def Scan.unfetched (k : Scan) (t : Timing) (leaf : Nat) : Bool :=
  k.picked && (k.shown.needed t).contains leaf && !k.checks.any fun c => c.leaf = leaf

/-- A layer fetches the whole width of a picture's leaves, so that COMP can check their signature (R73). -/
def LayerCfg.wholeWidth (c : LayerCfg) (p : Picture) : Bool := decide (c.srcX = 0) && decide (p.width ≤ c.srcW)

/-- The access table permits COMP's fetch of a leaf under its layer's colour: firmware has granted the buffers of a context to the context's
own colour (R232, R428; DESIGN CHOICE, log entry 66). -/
def State.fetchPermitted (s : State) (colour : Nat) (p : Picture) (leaf : Nat) : Bool :=
  decide (p.colour = colour) || s.permits colour (p.leafAddr leaf) (p.leafBytes leaf) false

/-- What COMP finds of a leaf at its fetch instant, on behalf of a layer of a colour: NOT_READY, or fetched, and poisoned where a block, its signature
or the access table says so (R34, R73, R82, R232). A COMP that is isolated delivers nothing. -/
def State.fetchLeaf (s : State) (colour : Nat) (cfg : LayerCfg) (sel : Option SelPic) (leaf : Nat) : LeafCheck :=
  let base : LeafCheck := { LeafCheck.reset with leaf := leaf }
  match sel.bind s.picOf with
  | none => { base with notReady := true }
  | some p =>
    let l := p.leaves.getD leaf Leaf.reset
    if l.valid && !(s.island islComp).isolated then
      { base with fetched := true, poisoned := l.poisoned || s.leafDamaged p leaf || !s.fetchPermitted colour p leaf
                                               || (cfg.wholeWidth p && decide (crc32c l.pixels ≠ l.signature)) }
    else { base with notReady := true }

/-- FETCH_INSTANT: 80 µs before a leaf's first output line. A leaf the picture does not have is not fetched (R215). -/
def execFetchInstant (dt h layer leaf : Nat) (s : State) : Out :=
  let s := s.elapse dt
  let x := s.head h
  let which := if (match x.scanOf false layer with | some k => k.unfetched (x.timingFor false) leaf | none => false) then some false
    else if x.windowOpen && (match x.scanOf true layer with | some k => k.unfetched (x.timingFor true) leaf | none => false) then some true
    else none
  match which with
  | none => .next s
  | some coming =>
    match x.scanOf coming layer with
    | none => .next s
    | some k =>
      let has := match k.sel.bind s.picOf with | some p => decide (leaf < p.leaves.length) | none => true
      if x.isolated ∨ !has ∨ 64 ≤ layer then .next s
      else .next (s.modScan h coming layer fun k => { k with checks := k.checks ++ [s.fetchLeaf (s.layer layer).owner k.shown.cfg k.sel leaf] })

/-! ### BAND_REQUEST (R217, R233, R293) -/

/-- The lines of a layer's clipped destination that lie in an output leaf. -/
def bandLines (e : Edges) (band : Nat) : List Nat := ((List.range 16).map fun k => 16 * band + k).filter fun y => decide (e.2.1 ≤ y) && decide (y < e.2.2.2)

/-- What a layer's band reads of one plane of its surface: the first byte and the number of bytes of each of its lines (R216, R233). -/
def LayerCfg.planeSpans (k : LayerCfg) (p : Nat × Nat × Nat) (x w y : Nat) : Nat × Nat :=
  match k.format, p.1 with
  | 0, 1 => (p.2.1 + y / 2 * p.2.2 + x / 2 * 2, 2 * ((x % 2 + w + 1) / 2))
  | 1, 1 | 1, 2 => (p.2.1 + y / 2 * p.2.2 + x / 2, (x % 2 + w + 1) / 2)
  | 2, 1 => (p.2.1 + y * p.2.2 + x / 2 * 2, 2 * ((x % 2 + w + 1) / 2))
  | 3, _ => (p.2.1 + y * p.2.2 + 2 * x, 2 * w)
  | 4, _ => (p.2.1 + y * p.2.2 + 3 * x, 3 * w)
  | 5, _ => (p.2.1 + y * p.2.2 + 4 * x, 4 * w)
  | _, _ => (p.2.1 + y * p.2.2 + x, w)

/-- COMP can read what a band needs of a layer's surface: the window serves the layer's colour, the table refuses no byte of it, and no block of it
is damaged (R233). -/
def State.bandReads (s : State) (colour : Nat) (k : LayerCfg) (e : Edges) (band : Nat) : Bool :=
  let x := k.srcX + ((e.1 : Int) - k.dstX).toNat
  s.winOk k.window colour && (bandLines e band).all fun (y : Nat) => k.planes.all fun p =>
    let q := k.planeSpans p x e.width (k.srcY + ((y : Int) - k.dstY).toNat)
    s.winSpan k.window q.1 q.2 false && !s.winDamaged k.window q.1 q.2

/-- The pixels of a graphic layer in a band, line by line. -/
def State.bandPixels (s : State) (k : LayerCfg) (e : Edges) (band : Nat) : List (List (Nat × Nat × Nat × Nat)) :=
  (bandLines e band).map fun (y : Nat) => (List.range e.width).map fun (i : Nat) =>
    s.surfacePixel k (k.srcX + (((e.1 + i : Nat) : Int) - k.dstX).toNat) (k.srcY + ((y : Int) - k.dstY).toNat)

/-- A band could not be shown: LATE, or FAULT (R233). -/
def State.bandMissing (s : State) (h i : Nat) (delivered : Bool) (frame : Nat) : State :=
  let s := s.modLayer i fun x =>
    if delivered then { x with faultBands := sat 32 (x.faultBands + 1) } else { x with lateBands := sat 32 (x.lateBands + 1) }
  s.layerEvent h i (if delivered then 1 else 0) 0 frame

/-- BAND_REQUEST: a graphic band, or one of the press image, is fetched; late, refused or poisoned it is transparent for the frame. -/
def execBandRequest (dt h layer band : Nat) (inTime good : Bool) (s : State) : Out :=
  let s := s.elapse dt
  let delivered := inTime && !(s.island islComp).isolated
  let x := s.head h
  match x.frameFor layer fun k => !k.bands.any fun b => b.band = band with
  | none => .next s
  | some coming =>
    let t := x.timingFor coming
    let frame := x.counter coming
    if layer < 64 ∨ t.leaves ≤ band ∨ x.isolated then .next s
    else if layer = 128 then
      let s := s.modScan h coming 128 fun k => { k with bands := k.bands ++ [{ band := band, delivered := delivered && good, px := [] }] }
      if delivered && good then .next s
      else .next ((x.on_.filter fun k => k.cfg.static).foldl (fun (u : State) k => u.bandMissing h k.index delivered frame) s)
    else
      match x.scanOf coming layer with
      | none => .next s
      | some k =>
        match k.shown.cfg.clip t with
        | none => .next s
        | some e =>
          if (bandLines e band).isEmpty then .next s
          else
            let c := k.shown.cfg
            let ok := delivered && good && s.bandReads (s.layer layer).owner c e band
            let px := if ok then s.bandPixels c e band else []
            let s := s.modScan h coming layer fun k => { k with bands := k.bands ++ [{ band := band, delivered := ok, px := px }] }
            .next (if ok then s else s.bandMissing h layer delivered frame)

/-! ### OUTPUT_LEAF_START (R258, R259) -/

/-- The head reads the plate for an output leaf; each sheet shown for the first time is reported. -/
def State.readPlate (s : State) (h leaf : Nat) : State :=
  let p := s.plate h
  let frame := (s.head h).frame.toNat
  let s := { s with comp := { s.comp with plateRead := s.comp.plateRead.modify h fun _ => p } }
  let s := (s.modPlate h fun p => { p with shown := [] }).modHead h fun x =>
    { x with plateLeaf := some leaf, plateShown := x.plateShown || !p.shown.isEmpty }
  p.shown.foldl (fun (t : State) q => t.post q.1 0x8610 q.2.2.1.toNat
    (leBytes 1 h ++ leBytes 1 q.2.1 ++ leBytes 2 leaf ++ leBytes 4 q.2.2.2 ++ leBytes 4 frame)) s

/-- A head scans a frame: it has had an epoch of its timing, and is neither OFF, STARTING, CHANGING to a new timing, nor isolated. -/
def Head.scanning (x : Head) : Bool := (decide (x.st = .running) || decide (x.st = .changing)) && !x.isolated && decide (x.frame ≠ 0)

/-- OUTPUT_LEAF_START. -/
def execOutputLeafStart (dt h leaf : Nat) (s : State) : Out :=
  let s := s.elapse dt
  let x := s.head h
  .next (if x.scanning ∧ leaf < x.set_.timing.leaves ∧ leaf = x.outSigs.length ∧ x.plateLeaf ≠ some leaf then s.readPlate h leaf else s)

/-! ### The check of a leaf (R83, R86) -/

/-- The time of `n` lines at a head's trimmed clock, ns. -/
def Head.scanNs (x : Head) (n : Nat) : Nat :=
  n * x.set_.timing.hTotal * 1000000000000000 / (max 1 x.set_.timing.pclk * (1000000000 + x.trim).toNat)

/-- The reasons a leaf fails for, as the bits of R86. -/
def reasonBits (l : List Bool) : BitVec 9 := BitVec.ofNat 9 ((l.zipIdx.map fun b => if b.1 then 2 ^ b.2 else 0).foldl (· + ·) 0)

/-- The picture predates a step of device time (R80): it was stamped, or stored here, before this part's last step, or its FRAME is earlier than the
first one after its decoding member's. -/
def State.predates (s : State) (sel : Option SelPic) (p : Picture) : Bool :=
  decide (p.stepNo < s.tb.steps) || (match sel with
    | some q => if q.member = s.top.gatherId.toNat then false
      else match (s.rxOf q.member q.context).bind fun x => x.stepFrame, p.frame with
        | some f, some n => decide (signedOf 32 (n - f).toNat < 0)
        | _, _ => false
    | none => false)

/-- A leaf at its scan time: its reasons, and its age and span. WORST is the age and span rounded to whole µs, halves up, and 0 where it is
negative (DESIGN CHOICE, log entry 64). -/
def State.judgeLeaf (s : State) (h : Nat) (k : Scan) (leaf : Nat) : LeafCheck :=
  let x := s.head h
  let f := k.shown.fresh
  let found := (k.checks.find? fun c => c.leaf = leaf).getD { LeafCheck.reset with leaf := leaf, notReady := true }
  let frozen := decide ((s.layer k.shown.index).det = .frozen) && f.markFrozen
  match k.sel.bind s.picOf with
  | none => { found with checked := true, reasons := reasonBits [false, true, false, false, false, false, frozen, false, false] }
  | some p =>
    let lines := k.shown.linesOf x.set_.timing leaf
    let scan := x.epoch + x.scanNs (lines.head?.getD 0)
    let age : Int := (scan : Int) - p.capture
    let end_ : Int := age + x.scanNs lines.length
    let flag (i : Nat) : Bool := found.fetched && (p.flagsAt leaf).getLsbD i
    { found with
      checked := true, worst := sat 32 ((end_ + 500).toNat / 1000)
      reasons := reasonBits [decide ((f.budget * 100000 : Nat) < end_), found.notReady, found.poisoned, flag 2 && f.markConcealed,
        flag 3 && f.markRefConcealed, flag 1 && f.markArrival, frozen, s.predates k.sel p || decide (age < 0), flag 4 && f.markHoldover] }

/-- The leaves of a layer whose scan time lies in an output leaf: those whose first output line does, and which the picture has. -/
def State.leavesDue (s : State) (h : Nat) (k : Scan) (leaf : Nat) : List Nat :=
  let t := (s.head h).set_.timing
  let n := match k.sel.bind s.picOf with | some p => p.leaves.length | none => 4096
  (k.shown.needed t).filter fun l => decide (l < n) && !(k.checks.any fun c => decide (c.leaf = l) && c.checked)
    && (match (k.shown.linesOf t l).head? with | some y => decide (y / 16 = leaf) | none => false)

/-- Every leaf whose scan time lies in an output leaf is checked. -/
def State.judgeLeaves (s : State) (h leaf : Nat) : State :=
  s.modHead h fun x => { x with
    cur := x.cur.map fun k => if isVideo k.shown.index then
      (s.leavesDue h k leaf).foldl (fun (a : Scan) l => { a with checks := a.checks.filter (fun c => c.leaf ≠ l) ++ [s.judgeLeaf h k l] }) k
    else k }

/-! ### Composition (R87–R92, R215, R228, R251, R262) -/

/-- The checks of the leaves that an output line uses and that failed. -/
def Scan.failsAt (k : Scan) (y : Nat) : List LeafCheck :=
  let used := k.shown.leavesAt y
  k.checks.filter fun c => used.contains c.leaf && decide (c.reasons ≠ 0)

/-- Every leaf that an output line uses, and that the picture has, was fetched good. -/
def Scan.lineGood (k : Scan) (p : Picture) (y : Nat) : Bool :=
  ((k.shown.leavesAt y).filter fun l => decide (l < p.leaves.length)).all fun l => k.checks.any fun c =>
    decide (c.leaf = l) && c.fetched && !c.poisoned

/-- A place lies in a layer's clipped destination; its column and row there. -/
def LayerCfg.placeAt (c : LayerCfg) (t : Timing) (x y : Nat) : Option (Nat × Nat) :=
  match c.clip t with
  | some e => if e.1 ≤ x ∧ x < e.2.2.1 ∧ e.2.1 ≤ y ∧ y < e.2.2.2 then some (((x : Int) - c.dstX).toNat, ((y : Int) - c.dstY).toNat) else none
  | none => none

/-- A video layer's converted pixel at a place of its destination (R220, R225). -/
def State.videoAt (s : State) (k : Scan) (y i j : Nat) : Option Rgb :=
  match k.sel.bind s.picOf with
  | some p => if k.lineGood p y then (videoPixel p k.shown i j).map fun v => convertPixel (resolveVideo k.shown.cfg.matrix p) k.shown.matrix v else none
  | none => none

/-- One layer of the stack over the result below it. -/
def State.stackPixel (s : State) (set_ : FrameSet) (x y : Nat) (below : Rgb) (k : Scan) : Rgb :=
  let c := k.shown.cfg
  if k.shown.index = 128 then
    let r := set_.pressRect
    let shown := k.bands.any fun b => decide (b.band = y / 16) && b.delivered
    if shown ∧ r.1 ≤ x ∧ x < r.1 + r.2.2.1 ∧ r.2.1 ≤ y ∧ y < r.2.1 + r.2.2.2 then
      blendPress (set_.pressImage.getD ((y - r.2.1) * r.2.2.1 + (x - r.1)) 0) below
    else below
  else
    match c.placeAt set_.timing x y with
    | none => below
    | some (i, j) =>
      if isVideo k.shown.index then
        match s.videoAt k y i j with
        | some v => blendLayer c v 255 below
        | none => below
      else
        match c.clip set_.timing, k.bands.find? fun b => decide (b.band = y / 16) && b.delivered with
        | some e, some b =>
          let q := (b.px.getD (y - max (16 * b.band) e.2.1) []).getD (x - e.1) (0, 0, 0, 0)
          blendLayer c (convertPixel (resolveGraphic c.matrix c.format) k.shown.matrix q.2) q.1 below
        | _, _ => below

/-- A layer has a failing leaf over an output pixel: those failures. -/
def State.failsOver (s : State) (set_ : FrameSet) (x y : Nat) (k : Scan) : List LeafCheck :=
  if !isVideo k.shown.index then []
  else match k.shown.cfg.placeAt set_.timing x y with
    | none => []
    | some (i, j) =>
      let inside := match k.sel.bind s.picOf with | some p => p.holds k.shown.cfg i j | none => true
      if inside then k.failsAt y else []

/-- A failure that calls for the opaque deckle: NOT_READY or POISONED always, the others by the layer's policy (R86, R90). -/
def LeafCheck.opaque_ (c : LeafCheck) (f : FreshCfg) : Bool :=
  c.reasons.getLsbD 1 || c.reasons.getLsbD 2 || f.opaque_

/-- The deckle over a composed pixel, by the topmost failing layer's settings (R91). -/
def State.deckleAt (s : State) (cur : List Scan) (set_ : FrameSet) (x y : Nat) (d : Rgb) : Rgb :=
  let hit := (cur.map fun k => (k, s.failsOver set_ x y k)).filter fun q => !q.2.isEmpty
  match hit.getLast? with
  | none => d
  | some top => deckle top.1.shown.fresh (hit.any fun q => q.2.any fun c => c.opaque_ q.1.shown.fresh) x y d

/-- A pane's pixel over a composed pixel (R251, R252). -/
def paneAt (p : PlateHead) (x y : Nat) (d : Rgb) (q : Pane) : Rgb :=
  if q.enabled ∧ q.x ≤ x ∧ x < q.x + q.w ∧ q.y ≤ y ∧ y < q.y + q.h then
    let b := (p.mem.read (q.base * 256 + (y - q.y) * (q.w / 2) + (x - q.x) / 2)).toNat
    blendPlate (p.palette.getD (if (x - q.x) % 2 = 0 then b % 16 else b / 16) 0) d
  else d

/-- The composed pixel of a head: background, layers, deckle, plate. -/
def State.composed (s : State) (h : Nat) (x y : Nat) : Rgb :=
  let v := s.head h
  let layers := v.cur.foldl (s.stackPixel v.set_ x y) (widenRgb v.set_.background.toNat)
  let p := s.comp.plateRead.getD h PlateHead.reset
  p.panes.foldl (paneAt p x y) (s.deckleAt v.cur v.set_ x y layers)

/-- The lines of an output leaf. -/
def outLines (t : Timing) (leaf : Nat) : List Nat := (List.range (min 16 (t.vActive - 16 * leaf))).map fun k => 16 * leaf + k

/-- The composed lines of an output leaf. -/
def State.composeLeaf (s : State) (h leaf : Nat) : List (List Rgb) :=
  let t := (s.head h).set_.timing
  (outLines t leaf).map fun y => (List.range t.hActive).map fun x => s.composed h x y

/-- An output leaf holds deckle: some leaf that failed covers a pixel of it. -/
def State.leafDeckled (s : State) (h leaf : Nat) : Bool :=
  let v := s.head h
  (outLines v.set_.timing leaf).any fun y => v.cur.any fun k =>
    (List.range v.set_.timing.hActive).any fun x => !(s.failsOver v.set_ x y k).isEmpty

/-! ### The watch window's signature (R94, R95) -/

/-- The signature of a layer's watch window: none where it is not watched, no picture is selected, or a leaf under it failed for
NOT_READY or POISONED. A pixel whose source lies outside the picture is not signed. -/
def State.windowSig (s : State) (k : Scan) : Option (BitVec 32) :=
  let f := k.shown.fresh
  let x := s.layer k.shown.index
  let ys := (List.range f.winH).map fun j => f.winY + j
  let bad := ys.any fun (j : Nat) => (k.failsAt (k.shown.cfg.dstY + j).toNat).any fun c => c.reasons.getLsbD 1 || c.reasons.getLsbD 2
  if f.winW = 0 ∨ f.freezeN = 0 ∨ (x.det ≠ .watching ∧ x.det ≠ .frozen) ∨ k.sel.isNone ∨ bad then none
  else some (signPixels (ys.flatMap fun (j : Nat) => (List.range f.winW).filterMap fun i => s.videoAt k (k.shown.cfg.dstY + j).toNat (f.winX + i) j))

/-! ### The tap (R303) -/

/-- The tap's luma and chroma of a composed pixel. -/
def tapYcc (v : Rgb) : Int × Int × Int :=
  let r : Int := outCode false false v.1
  let g : Int := outCode false false v.2.1
  let b : Int := outCode false false v.2.2
  (16 + (748 * r + 2516 * g + 254 * b + 2048) / 4096, 128 + (-412 * r - 1387 * g + 1799 * b + 2048) / 4096,
    128 + (1799 * r - 1634 * g - 165 * b + 2048) / 4096)

/-- Two lines of a rectangle as the tap stores them: both luma lines, then Cb and Cr of each 2×2 group. -/
def tapPair (a b : List Rgb) : List Byte :=
  let ya := a.map tapYcc
  let yb := b.map tapYcc
  let byte (i : Int) : Byte := BitVec.ofNat 8 (wordOf 8 i)
  let z : Int × Int × Int := (0, 0, 0)
  (ya ++ yb).map (fun p => byte p.1) ++ (List.range (a.length / 2)).flatMap fun i =>
    let g := [ya.getD (2 * i) z, ya.getD (2 * i + 1) z, yb.getD (2 * i) z, yb.getD (2 * i + 1) z]
    [byte (((g.map (·.2.1)).foldl (· + ·) 2) / 4), byte (((g.map (·.2.2)).foldl (· + ·) 2) / 4)]

/-- A session encodes the head frame being scanned: it is coding, and its divisor has come round (R304, R320). -/
def EncSession.takesFrame (x : EncSession) : Bool := x.carried && !x.offRect && decide (x.joins = 0) && decide (x.phase = 0)

/-- The tap writes what a session's rectangle has of an output leaf. -/
def EncSession.tap (x : EncSession) (h leaf : Nat) (lines : List (List Rgb)) : EncSession :=
  if x.cfg.head = h ∧ x.takesFrame then
    let rows := (lines.zipIdx.filter fun q => decide (x.cfg.srcY ≤ 16 * leaf + q.2) && decide (16 * leaf + q.2 < x.cfg.srcY + x.cfg.srcH)).map fun q =>
      (q.1.drop x.cfg.srcX).take x.cfg.srcW
    { x with source := x.source ++ (List.range (rows.length / 2)).map fun k => tapPair (rows.getD (2 * k) []) (rows.getD (2 * k + 1) []) }
  else x

/-! ### Side records (R314, R315) -/

/-- FRAME_SIG: the signature over a frame's output signatures (R314). -/
def frameSig (sigs : List (BitVec 32)) : BitVec 32 := crc32c (sigs.flatMap fun v => leBytes 4 v.toNat)

/-- The entry of a video layer in a side record (R315). -/
def sideEntry (k : Scan) : List Byte :=
  let failed := k.checks.filter fun c => c.checked && decide (c.reasons ≠ 0)
  let p := k.sel.getD SelPic.reset
  let first := (failed.map fun c => c.leaf).foldl min 0xFFFF
  layout 32 [(0x00, leBytes 1 k.shown.index), (0x02, leBytes 2 (failed.foldl (fun (a : BitVec 9) c => a ||| c.reasons) 0).toNat),
    (0x04, leBytes 2 p.source.toNat), (0x06, leBytes 2 first), (0x08, leBytes 4 p.frame.toNat),
    (0x0C, leBytes 4 ((k.checks.map fun c => if c.checked then c.worst else 0).foldl max 0)), (0x10, leBytes 8 p.capture)]

/-- The side record of a frame that has just been scanned waits for its session, a session without side records keeps none. -/
def EncSession.queueSide (e : EncSession) (h : Nat) (x : Head) : EncSession :=
  if e.st = EncSt.closed ∨ e.cfg.head ≠ h ∨ e.cfg.sideBlocks = 0 ∨ e.joins = 1 then e
  else
    let video := x.cur.filter fun k => isVideo k.shown.index
    let stopped := decide (e.st = EncSt.suspended) || e.offRect || decide (e.joins = 2)
    let skipped := !stopped && decide (e.phase ≠ 0)
    let demoted := skipped && decide (e.cfg.divisor < e.eff)
    { e with sides := e.sides ++ [{ SideRec.reset with
      frame := x.frame, epoch := x.epoch, failed := x.failedLeaves, sig := frameSig x.outSigs, count := video.length
      flags := b2n skipped + 4 * b2n demoted + 32 * b2n stopped + 64 * b2n x.plateShown
      layers := video.flatMap sideEntry, coded := e.takesFrame }] }

/-! ### LEAF_SCAN (R83–R97, R281, R294) -/

/-- After the last output leaf of a frame: the watch windows are signed, and the side records of the frame wait. -/
def State.lastLeaf (s : State) (h : Nat) : State :=
  let s := s.modHead h fun x => { x with cur := x.cur.map fun k => if isVideo k.shown.index then { k with sig := s.windowSig k } else k }
  if s.role = 2 then s
  else { s with enc := { s.enc with session := s.enc.session.map fun (e : EncSession) => e.queueSide h (s.head h) } }

/-- LEAF_SCAN: an output leaf leaves the head. The leaves whose scan time lies in it are checked, its pixels are composed and signed, and
the tap takes what the encoders need (a standby runs no encode session, R472). -/
def execLeafScan (dt h leaf : Nat) (s : State) : Out :=
  let s := s.elapse dt
  let x := s.head h
  if !x.scanning ∨ x.set_.timing.leaves ≤ leaf ∨ leaf ≠ x.outSigs.length then .next s
  else
    let s := if x.plateLeaf = some leaf then s else s.readPlate h leaf
    let s := s.judgeLeaves h leaf
    let lines := s.composeLeaf h leaf
    let out := outCode x.set_.timing.deep x.set_.timing.limited
    let sig := signPixels (lines.flatten.map fun (v : Rgb) => (out v.1, out v.2.1, out v.2.2))
    let failed := s.leafDeckled h leaf
    let tap (e : EncSession) : EncSession := if s.role = 2 then e else e.tap h leaf lines
    let s := { s with enc := { s.enc with session := s.enc.session.map tap } }
    let s := s.modHead h fun x => { x with outSigs := x.outSigs ++ [sig], failedLeaves := x.failedLeaves + b2n failed }
    .next (if leaf + 1 = x.set_.timing.leaves then s.lastLeaf h else s)

end Sys2Proof.Machine
end

