-- ==== Sys2Proof/Machine/Epoch.lean ====
section
/-!
DEFINITION. The epoch: what a finished frame leaves behind, and what begins with the next (02_freshness.md R95–R100, R108, R109;
06_flips_plate_press.md R248; 07_heads.md R282–R285, R290, R291, R295, R296).
-/

namespace Sys2Proof.Machine

/-! ### The finished frame of a layer (R95, R96, R99, R105, R215) -/

/-- The failing checks of a layer's frame. -/
def Scan.failed (k : Scan) : List LeafCheck := k.checks.filter fun c => c.checked && decide (c.reasons ≠ 0)

/-- Every reason of a frame. -/
def Scan.reasons (k : Scan) : BitVec 9 := k.failed.foldl (fun a c => a ||| c.reasons) 0

/-- The largest age and span of a frame, µs. -/
def Scan.worst (k : Scan) : Nat := (k.checks.map fun c => if c.checked then c.worst else 0).foldl max 0

/-- EV_STALE, or EV_FRESH, for a layer's frame. Before any FRESH_HEAD has named the head's event ring the event is dropped: the spec names no ring
for it (DESIGN CHOICE, log entry 67). -/
def State.postStale (s : State) (h : Nat) (k : Scan) (code : Nat) : State :=
  let f := k.failed
  let first := (f.map fun c => c.leaf).foldl min 0xFFFF
  match (s.head h).freshRing with
  | some n => s.post n code 0 (leBytes 1 h ++ leBytes 1 k.shown.index ++ leBytes 2 k.reasons.toNat ++ leBytes 2 (if f.isEmpty then 0 else first)
      ++ leBytes 2 f.length ++ leBytes 4 (s.head h).frame.toNat ++ leBytes 4 k.worst)
  | none => s

/-- EV_STALE in the first failing frame and then at the report interval; EV_FRESH in the first good frame after one (R99). -/
def State.judgeStale (s : State) (h : Nat) (k : Scan) : State :=
  let i := k.shown.index
  let x := s.layer i
  let failing := !k.failed.isEmpty
  let s := s.modLayer i fun y => { y with
    reasons := k.reasons, worst := k.worst, failing := failing, failFrames := sat 32 (y.failFrames + b2n failing) }
  if failing then
    if !x.failing ∨ s.since x.staleAt (k.shown.fresh.interval * 1000000) then
      (s.modLayer i fun y => { y with staleAt := some s.tb.now }).postStale h k 0x8200
    else s
  else if x.failing then (s.modLayer i fun y => { y with staleAt := none }).postStale h k 0x8201
  else s

/-- The freeze detector counts a frame whose picture is new and whose window was signed (R95, R96). -/
def State.judgeFreeze (s : State) (h : Nat) (k : Scan) : State :=
  let i := k.shown.index
  let x := s.layer i
  match k.sig, k.sel with
  | some sig, some p =>
    if (x.det ≠ .watching ∧ x.det ≠ .frozen) ∨ x.lastCounted = some p.frame then s
    else
      let same := x.lastCounted.isSome && decide (x.lastSig = sig)
      let run := if same then x.run_ + 1 else 1
      let s := s.modLayer i fun y => { y with run_ := run, lastSig := sig, lastCounted := some p.frame }
      if x.det = .watching ∧ k.shown.fresh.freezeN ≤ run ∧ k.shown.fresh.freezeN ≠ 0 then
        (s.modLayer i fun y => { y with det := .frozen }).postFreeze h i 0x8202 0
      else if x.det = .frozen ∧ !same then (s.modLayer i fun y => { y with det := .watching }).postFreeze h i 0x8203 0
      else s
  | _, _ => s

/-- A picture smaller than its source rectangle is SHORT (R215). -/
def State.judgeShort (s : State) (h : Nat) (k : Scan) : State :=
  match k.sel.bind s.picOf with
  | some p =>
    let c := k.shown.cfg
    if p.width < c.srcX + c.srcW ∨ p.height < c.srcY + c.srcH then
      (s.modLayer k.shown.index fun y => { y with shortFrames := sat 32 (y.shortFrames + 1) }).layerEvent h k.shown.index 3 0 (s.head h).frame.toNat
    else s
  | none => s

/-- What a layer's finished frame leaves behind. -/
def State.judgeLayer (s : State) (h : Nat) (k : Scan) : State :=
  let i := k.shown.index
  if i = 128 then s
  else
    let fetched := k.checks.any (fun c => c.fetched) || k.bands.any fun b => b.delivered
    let s := s.modLayer i fun y => { y with framesFetched := sat 32 (y.framesFetched + b2n fetched) }
    if isVideo i then ((s.judgeStale h k).judgeFreeze h k).judgeShort h k else s

/-! ### The signature log (R98) -/

/-- A record of the signature log. -/
def logRecord (frame epoch failed : Nat) (sigs : List (BitVec 32)) : List Byte :=
  let n := recordBlocks sigs.length * 256
  layout n [(0x00, leBytes 4 frame), (0x04, leBytes 2 sigs.length), (0x08, leBytes 8 epoch), (0x10, leBytes 2 failed),
    (0x20, sigs.flatMap fun v => leBytes 4 v.toNat)]

/-- The finished frame is logged; the region takes whole records and the oldest is overwritten. -/
def State.logFrame (s : State) (h : Nat) : State :=
  let x := s.head h
  let l := x.log
  if l.st ≠ .logging ∨ x.outSigs.length ≠ x.set_.timing.leaves ∨ l.recSize = 0 then s
  else
    let off := l.offset + l.next % (l.blocks / l.recSize) * l.recSize * 256
    let n := l.recSize * 256
    let s := s.modHead h fun x => { x with log := { x.log with next := (l.next + 1) % max 1 (l.blocks / l.recSize) } }
    if s.winOk l.window (x.owner.getD 64) && s.winSpan l.window off n true then
      s.winWrite l.window off (logRecord x.frame.toNat x.epoch x.failedLeaves x.outSigs)
    else s

/-- Where a new timing has another number of output leaves, the log moves to its record size at the first block of its region, or stops where the
region is too small (R98). -/
def SigLog.resize (l : SigLog) (leaves : Nat) : SigLog :=
  let n := recordBlocks leaves
  if l.st ≠ .logging ∨ leaves = l.leaves then l
  else if l.blocks < 2 * n then { l with st := .stopped }
  else { l with recSize := n, leaves := leaves, next := 0 }

/-- A finished frame: every layer is judged, the log is written, and its signatures are kept. -/
def State.finishFrame (s : State) (h : Nat) : State :=
  let x := s.head h
  if !x.scanning then s
  else
    let s := x.cur.foldl (fun (t : State) k => t.judgeLayer h k) s
    let s := s.logFrame h
    s.modHead h fun y => if y.outSigs.length = y.set_.timing.leaves then { y with lastSigs := y.outSigs, lastFailed := y.failedLeaves } else y

/-! ### HEAD_STOP's end (R282, R283) -/

/-- Everything that still names a head leaves the pending configuration. -/
def State.dropHead (s : State) (h : Nat) : State :=
  { s with
    comp := { s.comp with pend := (s.comp.pend.map fun (p : Pend) => { p with heads := p.heads.filter fun g => g ≠ h }).filter fun p => !p.heads.isEmpty || p.group.isSome } }

/-- A head enters OFF: owner, guests and payload are given up; its frame counter goes on (R282, R285). -/
def State.headOff (s : State) (h : Nat) : State :=
  let x := s.head h
  let s := (s.modHead h fun y => { Head.reset with frame := y.frame, epoch := y.epoch, latchAt := y.latchAt, deferredCount := y.deferredCount, noOutput := y.noOutput
                                                   lastSigs := y.lastSigs, lastFailed := y.lastFailed }).dropHead h
  let s := match x.timing.port with | some p => s.grant p [] | none => s
  let s := s.modPlate h fun p => { p with latchedFrame := false }
  s.retimeEncode h

/-! ### Events of the epoch (R248, R290, R291) -/

/-- EV_COMMIT to each ring whose ungrouped folios took effect, where COMMIT_EVENTS is set (R290). -/
def State.postCommits (s : State) (h : Nat) : State :=
  let x := s.head h
  let s := s.modHead h fun y => { y with commits := [] }
  if !x.timing.commitEvents then s
  else x.commits.foldl (fun (t : State) r => t.post r.ring 0x8701 r.tag.toNat
    (leBytes 1 h ++ leBytes 1 (b2n r.deferred + 2 * b2n r.timing) ++ leBytes 2 r.count ++ leBytes 4 r.lastSeq.toNat ++ leBytes 4 x.frame.toNat
      ++ leBytes 4 (shortTime x.epoch))) s

/-- The groups that have committed on a head begin their frame on it (R248). -/
def State.beginGroups (s : State) (h : Nat) : State :=
  let x := s.head h
  let mark (g : Group) : Group :=
    if g.doneHeads.contains h ∧ !g.begun.contains h then
      let low := g.heads.all fun k => decide (h ≤ k)
      { g with begun := g.begun ++ [h], frame := if low then x.frame else g.frame, epoch := if low then x.epoch else g.epoch }
    else g
  let s := { s with host := { s.host with cmdq := s.host.cmdq.map fun (q : CmdQ) => { q with groups := q.groups.map mark } } }
  (List.range 48).foldl State.flushFlips s

/-- A group whose conditions other than fences came to hold while the window of a head was open is deferred by it (R288). -/
def State.deferGroups (s : State) (h : Nat) : State :=
  (List.range 48).foldl (fun (t : State) r => (t.cmdQ r).groups.foldl (fun (u : State) g =>
    if g.committed || !g.doneHeads.isEmpty || !g.heads.contains h || g.okAtLatch.contains h || !u.groupReady r g then u
    else (u.modGroup r g.id fun y => { y with deferred := true }).modHead h fun y => { y with deferredCount := sat 32 (y.deferredCount + 1) }) t) s

/-- EV_FRAME for a counted frame (R291). -/
def State.postFrame (s : State) (h : Nat) : State :=
  let x := s.head h
  if x.timing.frameEvents = 0 then s
  else if x.evLeft = 0 then
    (s.modHead h fun y => { y with evLeft := y.timing.frameEvents - 1 }).post x.timing.ring 0x8702 0
      (leBytes 1 h ++ leBytes 1 (b2n x.genlock.locked + 2 * b2n (decide (x.plan.st = .planned)) + 4 * b2n x.output + 8 * b2n x.lengthened)
        ++ leBytes 2 0 ++ leBytes 4 x.frame.toNat ++ leBytes 8 x.epoch)
  else s.modHead h fun y => { y with evLeft := y.evLeft - 1 }

/-! ### HEAD_EPOCH (R283–R285) -/

/-- A head's counters and lists at the start of a frame. -/
def Head.fresh (x : Head) (dev : Nat) : Head :=
  { x with
    st := .running, frame := BitVec.ofNat 32 (x.counter true), epoch := dev, windowOpen := false, cur := x.next, next := []
    set_ := { mode := x.mode, background := x.background, timing := x.timing, pressRect := x.press.rect, pressImage := x.press.image } }

/-- What a head counts of a frame starts anew; the frame reaches the lane or it does not. -/
def Head.recount (x : Head) (up : Bool) : Head :=
  let y := { x with outSigs := [], failedLeaves := 0, plateLeaf := none, plateShown := false, log := x.log.resize x.timing.leaves }
  { y with lengthened := decide (x.lengthen ≠ 0), lengthen := 0, output := up, noOutput := if up then x.noOutput else sat 32 (x.noOutput + 1) }

/-- An encode session of the head counts its frames against its divisor, and its tap starts anew. -/
def EncSession.nextFrame (e : EncSession) (h : Nat) : EncSession :=
  if e.st ≠ EncSt.closed ∧ e.cfg.head = h then
    { e with phase := if e.phase + 1 < max 1 e.eff then e.phase + 1 else 0, source := [], joins := 0 }
  else e

/-- The sessions of a head whose next frame begins: each counts it, and a picture of which not every row was queued in its own frame is lost (DESIGN
CHOICE, log entry 30). -/
def State.nextEncFrame (s : State) (h : Nat) : State :=
  let queued (i : Nat) : Nat := (s.enc.ee.map fun (e : Encoder) => (e.waiting.filter fun r => r.session = i).length).sum
  { s with enc := { s.enc with session := s.enc.session.mapIdx fun i (e : EncSession) =>
    let whole := match e.cur with | some c => decide (e.cfg.rows ≤ c.rows.length + queued i) | none => true
    (if e.cfg.head = h ∧ !whole then (if e.closing then EncSession.reset else e.lost) else e).nextFrame h } }.dropRows

/-- The head's frames reach the lane: its port is UP and it holds payload. -/
def State.reaches (s : State) (x : Head) : Bool :=
  x.payload && (match x.timing.port with | some p => decide ((s.dpPort p).st = .up) | none => false)

/-- A slewing head whose epoch has reached the plan's, to within 50 ns, is PLANNED (R109, log entry 24). -/
def State.reachPlan (s : State) (h : Nat) : State :=
  if (s.head h).plan.st = .slewing ∧ (s.head h).epochError.natAbs ≤ 50 then s.planTo h .planned else s

/-- A head's next frame begins now. -/
def State.beginFrame (s : State) (h : Nat) : State :=
  let s := s.deferGroups h
  let retimed := decide ((s.head h).st ≠ .running)
  let s := s.modHead h fun x => (x.fresh s.tb.dev).recount (s.reaches x)
  let s := s.modPlate h fun p => { p with latchedFrame := false }
  let s := (if retimed then s.retimeEncode h else s).nextEncFrame h
  ((((s.flushLater h).reachPlan h).postCommits h).beginGroups h).postFrame h

/-- HEAD_EPOCH: the frame being scanned ends, and active line 0 of the next is scanned; after a HEAD_STOP the head enters OFF instead. -/
def execHeadEpoch (dt h : Nat) (s : State) : Out :=
  let s := s.elapse dt
  let x := s.head h
  if x.st = .off ∨ x.isolated ∨ !x.windowOpen ∨ 16 ≤ h then .next s
  else
    let s := s.finishFrame h
    .next ((if x.ending then s.headOff h else s.beginFrame h).advance)

/-! ### HEAD_ISOLATE (R296) -/

/-- A head that returns from isolation resumes at a new epoch: it latches anew, and the frame that was cut off is not counted. -/
def State.headReturns (s : State) (h : Nat) : State :=
  s.modHead h fun x => { x with
    isolated := false, windowOpen := false, cur := [], next := [], later := [], outSigs := [], failedLeaves := 0, plateLeaf := none }

/-- HEAD_ISOLATE: the island is isolated and self-tested, and resumes where it passes; the port is told (R296). -/
def execHeadIsolate (dt h : Nat) (passed : Bool) (s : State) : Out :=
  let s := s.elapse dt
  if 16 ≤ h ∨ (s.island (islHead h)).isolated then .next s
  else
    let s := s.isolate (islHead h)
    let s := match (s.head h).timing.port with
      | some p => if (s.head h).st = HeadSt.off then s else s.postPort p 0
      | none => s
    .next (if passed ∧ !(s.island (islHead h)).barred then
      ((s.modIsland (islHead h) fun x => { x with isolated := false }).headReturns h).refreshFaults
    else if passed then s else s.fault 3 (islHead h) 0 0 0)

end Sys2Proof.Machine
end

