-- ==== Sys2Proof/Machine/Encode.lean ====
section
/-!
DEFINITION. Encoders and evidence recording (08_encode_record.md R301–R323).
-/

namespace Sys2Proof.Machine

/-! ### ENC_OPEN (R305, R318) -/

/-- The settings an ENC_OPEN carries. -/
def encCfgOf (c : FCtx) : EncCfg :=
  let k := c.u 0x12 1
  { head := c.u 0x11 1, hevc := bitOf k 0, record := bitOf k 1, sliceEvents := bitOf k 2, column := bitOf k 3, divisor := c.u 0x13 1
    srcX := c.u 0x14 2, srcY := c.u 0x16 2, srcW := c.u 0x18 2, srcH := c.u 0x1A 2, bitrate := c.u 0x1C 4, vbv := c.u 0x20 4
    qpMin := c.u 0x24 1, qpMax := c.u 0x25 1, gop := c.u 0x26 2, sliceRows := c.u 0x28 1, ring := c.ev (c.u 0x29 1), outWin := c.u 0x2A 1
    auxWin := c.u 0x2B 1, outOffset := c.u 0x2C 4, outBlocks := c.u 0x30 4, statsOffset := c.u 0x34 4, statsBlocks := c.u 0x38 4
    sideOffset := c.u 0x3C 4, sideBlocks := c.u 0x40 4 }

/-- 16×16 blocks of a rectangle, across and down. -/
def EncCfg.blocksW (k : EncCfg) : Nat := ceilDiv k.srcW 16
def EncCfg.blocksH (k : EncCfg) : Nat := ceilDiv k.srcH 16

/-- Blocks of a statistics record (R313). -/
def EncCfg.statsSize (k : EncCfg) : Nat := 1 + ceilDiv (8 * k.blocksW * k.blocksH) 256

/-- BITRATE and VBV within R305, for a divisor and a frame rate. -/
def rateRanges (bitrate vbv divisor : Nat) (r : Frac) : Bool :=
  decide (100 ≤ bitrate) && decide (bitrate ≤ 200000) && decide (50 ≤ vbv) && decide (vbv ≤ 400000)
    && decide (bitrate * divisor * r.2 ≤ vbv * r.1)

/-- The ranges of R305; those that rest on the head's timing are judged while it runs. -/
def encRanges (c : FCtx) (k : EncCfg) (h : Head) : Bool :=
  decide (c.u 0x10 1 < 16) && decide (k.head < 16) && decide (c.u 0x12 1 < 16) && decide (1 ≤ k.divisor) && decide (k.divisor ≤ 8)
    && decide (k.srcX % 2 = 0) && decide (k.srcY % 2 = 0) && decide (k.srcW % 2 = 0) && decide (k.srcH % 2 = 0) && decide (64 ≤ k.srcW)
    && decide (k.srcW ≤ 3840) && decide (64 ≤ k.srcH) && decide (k.srcH ≤ 2160) && decide (k.qpMax ≤ 51) && decide (k.qpMin ≤ k.qpMax)
    && decide (k.gop ≤ 3600) && decide (k.sliceRows ≤ 34) && decide (c.u 0x29 1 < 32) && decide (k.outWin < 8) && decide (k.auxWin < 8)
    && decide (k.outOffset % 256 = 0) && decide (64 ≤ k.outBlocks) && decide (k.outBlocks ≤ 1048576) && decide (k.statsOffset % 256 = 0)
    && (decide (k.statsBlocks = 0) || decide (2 * k.statsSize ≤ k.statsBlocks)) && decide (k.sideOffset % 256 = 0)
    && (decide (k.sideBlocks = 0) || (decide (k.sideBlocks % 2 = 0) && decide (4 ≤ k.sideBlocks)))
    && (decide (h.st = .off) || (decide (k.srcX + k.srcW ≤ h.timing.hActive) && decide (k.srcY + k.srcH ≤ h.timing.vActive)))
    && rateRanges k.bitrate k.vbv k.divisor (if h.st = .off then (120, 1) else h.timing.rate)

/-- The windows of a session serve its colour, and its regions lie in them; the second only where it is used. -/
def State.encWindows (s : State) (colour : Nat) (k : EncCfg) : Bool :=
  s.winOk k.outWin colour && s.winSpan k.outWin k.outOffset (k.outBlocks * 256) true
    && ((decide (k.statsBlocks = 0) && decide (k.sideBlocks = 0)) || s.winOk k.auxWin colour)
    && s.winSpan (if k.statsBlocks = 0 then k.outWin else k.auxWin) (if k.statsBlocks = 0 then 0 else k.statsOffset) (k.statsBlocks * 256) true
    && s.winSpan (if k.sideBlocks = 0 then k.outWin else k.auxWin) (if k.sideBlocks = 0 then 0 else k.sideOffset) (k.sideBlocks * 256) true

/-- ENC_OPEN (R305). -/
def bodyEncOpen (c : FCtx) (s : State) : FRes :=
  let i := c.u 0x10 1
  let k := encCfgOf c
  let h := s.head k.head
  let feeds := (s.enc.session.filter fun (x : EncSession) => decide (x.st ≠ .closed) && decide (x.cfg.head = k.head)).length
  let new : EncSession :=
    { EncSession.reset with st := .coding, owner := c.colour, cfg := k, eff := k.divisor, phase := k.divisor - 1, joins := 1 }
  let placed := placeSession s.headRates (s.enc.session.modify i fun _ => new) i s.encodersUp
  .checks [(encRanges c k h, .param), (decide (h.owner = some c.colour) && s.encWindows c.colour k && evOk c s (c.u 0x29 1), .colour),
      (decide ((s.session i).st = .closed) && decide (h.st ≠ .off), .state), (decide (feeds < 2), .nospace), (placed.isSome, .capacity)] s <|
    match placed with
    | some p => .done .ok 0 { s with enc := { s.enc with session := p.1 } } fun t => t.takeSteps t.enc.session p.2
    | none => .ok s

/-- ENC_OPEN (R305). -/
def execEncOpen (dt ring : Nat) (s : State) : Out := .next ((s.elapse dt).runRaising ring 0x0800 true bodyEncOpen)

/-! ### ENC_CLOSE, ENC_CONSUME, ENC_KEY, ENC_RATE (R306) -/

/-- A session ends: its capacity and the records not yet written are given up, and RECORD sessions are restored after a LIVE one (R306,
R319). -/
def State.endSession (s : State) (i : Nat) : State :=
  let x := s.session i
  let s := s.modSession i fun _ => EncSession.reset
  let s := { s with enc := { s.enc with
    ee := s.enc.ee.map fun (e : Encoder) => { e with waiting := e.waiting.filter fun r => r.session ≠ i }
    demotions := s.enc.demotions.filter fun d => d.1 ≠ i } }
  if x.cfg.record then s else s.restoreSessions

/-- The checks the session folios share. -/
def sessionChecks (c : FCtx) (s : State) (param : Bool) : List (Bool × Status) :=
  let x := s.session (c.u 0x10 1)
  [(decide (c.u 0x10 1 < 16) && param, .param), (decide (x.st = .closed) || decide (x.owner = c.colour), .colour), (decide (x.st ≠ .closed), .state)]

/-- ENC_CLOSE (R306). -/
def bodyEncClose (c : FCtx) (s : State) : FRes :=
  let i := c.u 0x10 1
  .checks (sessionChecks c s true) s <|
    .done .ok 0 (s.modSession i fun x => { x with closing := true }) fun t => if (t.session i).cur.isNone then t.endSession i else t

/-- ENC_CLOSE (R306). -/
def execEncClose (dt ring : Nat) (s : State) : Out := .next ((s.elapse dt).runFolio ring 0x0801 bodyEncClose)

/-- ENC_CONSUME (R306): an offset not on a reported access unit is E_PARAM, judged once the session is known to be the colour's. -/
def bodyEncConsume (c : FCtx) (s : State) : FRes :=
  let i := c.u 0x10 1
  let read := c.u 0x14 4
  let x := s.session i
  let ends := x.aus.map (·.1)
  .checks (sessionChecks c s true ++ [(ends.contains read || (decide (read = x.readOff) && decide (0 < x.coded)), .param)]) s <|
    let n := if ends.contains read then (ends.findIdx fun e => e = read) + 1 else 0
    .ok (s.modSession i fun x => { x with
      readOff := read, used := x.used - ((x.aus.take n).map (·.2)).sum, aus := x.aus.drop n })

/-- ENC_CONSUME (R306). -/
def execEncConsume (dt ring : Nat) (s : State) : Out := .next ((s.elapse dt).runFolio ring 0x0802 bodyEncConsume)

/-- ENC_KEY (R306). -/
def bodyEncKey (c : FCtx) (s : State) : FRes :=
  .checks (sessionChecks c s true) s (.ok (s.modSession (c.u 0x10 1) fun x => { x with keyReq := true }))

/-- ENC_KEY (R306). -/
def execEncKey (dt ring : Nat) (s : State) : Out := .next ((s.elapse dt).runFolio ring 0x0803 bodyEncKey)

/-- ENC_RATE (R306): new values for the next picture. -/
def bodyEncRate (c : FCtx) (s : State) : FRes :=
  let x := s.session (c.u 0x10 1)
  let h := s.head x.cfg.head
  .checks (sessionChecks c s (rateRanges (c.u 0x14 4) (c.u 0x18 4) x.cfg.divisor (if h.st = .off then (120, 1) else h.timing.rate))) s
    (.ok (s.modSession (c.u 0x10 1) fun x => { x with newRate := some (c.u 0x14 4, c.u 0x18 4) }))

/-- ENC_RATE (R306). -/
def execEncRate (dt ring : Nat) (s : State) : Out := .next ((s.elapse dt).runFolio ring 0x0804 bodyEncRate)

/-! ### ENC_STATE (R323) -/

/-- The code a session's state reads as; one whose rectangle lies outside its head is suspended (R320). -/
def EncSession.stateCode (x : EncSession) : Nat :=
  match x.st with | .closed => 0 | .coding => if x.offRect then 3 else 1 | .demoted => if x.offRect then 3 else 2 | .suspended => 3

/-- The block of a session. -/
def State.sessionBlock (s : State) (i : Nat) : List Byte :=
  let x := s.session i
  let load := x.load s.headRates
  layout 256 (if x.st = .closed then [] else
    [(0x00, leBytes 1 x.stateCode), (0x01, leBytes 1 x.encoder), (0x02, leBytes 1 x.eff), (0x04, leBytes 4 (load.1 / (max 1 load.2 * 1000))),
     (0x08, leBytes 4 (sat 32 x.fullness)), (0x0C, leBytes 4 (sat 32 x.coded)), (0x10, leBytes 4 (sat 32 x.dropped)), (0x14, leBytes 4 (sat 32 x.heldPics)),
     (0x18, leBytes 4 (sat 32 x.longRow)), (0x1C, leBytes 4 x.writeOff)])

/-- ENC_STATE (R323). -/
def bodyEncState (c : FCtx) (s : State) : FRes :=
  let i := c.u 0x10 1
  let w := c.u 0x12 1
  let off := c.u 0x14 4
  .checks ((decide (i < 16), .param) :: blockChecks c s w off 256) s
    (writeBlock s w off (s.sessionBlock i))

/-- ENC_STATE (R323). -/
def execEncState (dt ring : Nat) (s : State) : Out := .next ((s.elapse dt).runFolio ring 0x0805 bodyEncState)

/-! ### A picture begins (R307, R309) -/

/-- T of R309, rounded to whole bits. -/
def EncSession.frameBits (x : EncSession) (r : Frac) : Nat := (2 * x.cfg.bitrate * 1000 * x.eff * r.2 + r.1) / (2 * max 1 r.1)

/-- T' of R309. -/
def targetBits (t f vbv : Nat) : Nat :=
  let raw : Int := (8 * (t : Int) - ((f : Int) - vbv / 2)) / 8
  (min (max raw (t / 4)) ((vbv : Int) - f)).toNat

/-- The kind of the next picture: an IDR where there is no reference, or a refresh is due (R305–R307). -/
def EncSession.nextKind (x : EncSession) : PicType :=
  if x.coded = 0 then .idr
  else if x.cfg.column then (if x.cfg.gop = 0 then (if x.keyReq then .pRefresh else .p) else .pRefresh)
  else if x.keyReq ∨ (x.cfg.gop ≠ 0 ∧ x.cfg.gop ≤ x.sinceKey) then .idr else .p

/-- A picture's settings: a new rate comes into force, and the buffer drains by one picture's share. -/
def EncSession.drain (x : EncSession) (r : Frac) : EncSession :=
  let x := match x.newRate with
    | some n => { x with cfg := { x.cfg with bitrate := n.1, vbv := n.2 }, fullness := min x.fullness (n.2 * 1000), newRate := none }
    | none => x
  if x.coded = 0 ∧ x.dropped = 0 then x else { x with fullness := x.fullness - x.frameBits r }

/-- A picture begins, or is dropped because its worst case does not fit in the free space of the output region (R307); in replay it is dropped where
the journal has that it was (R596). -/
def State.beginPicture (s : State) (i : Nat) : State :=
  let h := s.head (s.session i).cfg.head
  let s := s.modSession i fun x => x.drain h.timing.rate
  let x := s.session i
  let vbv := x.cfg.vbv * 1000
  let full := decide (x.cfg.outBlocks * 256 - x.used < ceilDiv (ceilDiv vbv 8) 256 * 256)
  if if s.top.replay then s.decided 2 i h.frame.toNat else full then
    let s := s.modSession i fun x => { x with
      dropped := x.dropped + 1, last := { LastPic.reset with dropped := true, frame := h.frame } }
    s.postEncode i 2 x.nextKind.code x.coded 0 0
  else s.modSession i fun x => { x with
    cur := some { CurPic.reset with
      frame := h.frame, epoch := h.epoch, kind := x.nextKind, target := targetBits (x.frameBits h.timing.rate) x.fullness vbv
      cap := vbv - x.fullness, start := x.writeOff } }

/-! ### Motion search (R308) -/

/-- A number held within a distance of 0. -/
def reach (n : Nat) (i : Int) : Int := max (-(n : Int)) (min i n)

/-- Rows of 16×16 blocks in a rate row. -/
def EncCfg.blockRows (k : EncCfg) (row : Nat) : Nat := min 4 (k.blocksH - 4 * row)

/-- A vector in quarter pixels. -/
abbrev Mv := Int × Int

/-- First stage: the best four of a 64×64 area, at 1/4 resolution, within ±64 and ±32. -/
def searchArea (q : SearchIn) (k : EncCfg) (x : Nat) : List Mv :=
  ((q.areas.getD (x / 64) []).take 4).map fun v => if k.srcW ≤ x then (0, 0) else (16 * reach 64 v.1, 16 * reach 32 v.2)

/-- Second stage: the best two of each 32×32 area of a rate row, at 1/2 resolution, within ±8 of a candidate of the first, of the co-located vector of
the previous picture, or of the left or upper neighbour's. `above` are the blocks of the row above, `before` those of the previous picture. -/
def searchHalves (q : SearchIn) (k : EncCfg) (row : Nat) (above before : List Motion) : List (List Mv) :=
  let w := ceilDiv k.srcW 32
  let mv (l : List Motion) (i : Nat) : Mv := match l[i]? with | some m => (m.mvx, m.mvy) | none => (0, 0)
  (List.range (w * ceilDiv (k.blockRows row) 2)).foldl (fun acc n =>
    let x := n % w
    let y := n / w
    let first (l : List Mv) : Mv := l.headD (0, 0)
    let from_ (b : Nat) : Mv :=
      if b < 4 then (searchArea q k (32 * x)).getD b (0, 0)
      else if b = 4 then mv before (2 * y * k.blocksW + 2 * x)
      else if b = 5 then (if x = 0 then (0, 0) else first (acc.getD (n - 1) []))
      else if y = 0 then mv above ((k.blockRows (row - 1) - 1) * k.blocksW + 2 * x) else first (acc.getD (n - w) [])
    acc ++ [((q.halves.getD n []).take 2).map fun p => ((from_ p.base).1 + 8 * reach 8 p.dx, (from_ p.base).2 + 8 * reach 8 p.dy)]) []

/-- What the search of a rate row ends with: a vector, its cost and an intra cost for every 16×16 block in raster order, the costs saturating. The third
stage is ±4 full pixels and then half and quarter pixels. An IDR has no vectors, and the vector cost 0xFFFF (R313). How the encoder measures a match is not in
the spec: its choices and costs come with the command (DESIGN CHOICE, log entry 77). -/
def runSearch (q : SearchIn) (k : EncCfg) (kind : PicType) (row : Nat) (above before : List Motion) : List Motion :=
  let half := if kind = .idr then [] else searchHalves q k row above before
  (List.range (k.blocksW * k.blockRows row)).map fun n =>
    let x := n % max 1 k.blocksW
    let y := n / max 1 k.blocksW
    let m := q.blocks.getD n default
    if kind = .idr then { mvx := 0, mvy := 0, vcost := 0xFFFF, icost := sat 16 m.intraCost }
    else
      let b := (half.getD (y / 2 * ceilDiv k.srcW 32 + x / 2) []).getD m.base (0, 0)
      { mvx := b.1 + 4 * reach 4 m.dx + reach 3 m.qx, mvy := b.2 + 4 * reach 4 m.dy + reach 3 m.qy
        vcost := sat 16 m.vectorCost, icost := sat 16 m.intraCost }

/-- A row's complexity: the sum over its blocks of the lesser of vector cost and intra cost (R309). -/
def rowCplx (l : List Motion) : Nat := (l.map fun m => min m.vcost m.icost).sum

/-! ### RATE_ROW_READY (R303, R308, R312) -/

/-- The rows of a session that wait on its encoder. -/
def State.waitingRows (s : State) (i : Nat) : List EncRow := (s.encoder (s.session i).encoder).waiting.filter fun r => r.session = i

/-- The row a session queues next. -/
def State.nextRow (s : State) (i : Nat) : Nat :=
  (match (s.session i).cur with | some c => c.rows.length | none => 0) + (s.waitingRows i).length

/-- The tap has written a row's last line of the frame being scanned. -/
def EncSession.rowTapped (x : EncSession) (row : Nat) : Bool := decide (min (64 * (row + 1)) x.cfg.srcH ≤ 2 * x.source.length)

/-- The session may queue a row: it codes, its encoder is in service, the row is its next, and the tap has written it. -/
def State.rowReady (s : State) (i row : Nat) : Bool :=
  let x := s.session i
  let h := s.head x.cfg.head
  x.takesFrame && h.scanning && !(s.encoder x.encoder).isolated && decide (row < x.cfg.rows) && decide (row = s.nextRow i) && x.rowTapped row
    && (match x.cur with
        | some c => decide (0 < row) && decide (c.frame = h.frame)
        | none => decide (row = 0) && !x.closing && decide (x.last.frame ≠ h.frame))

/-- RATE_ROW_READY: the row is searched and queued for coding; the first one begins the picture. -/
def execRateRowReady (dt session row : Nat) (lastRow : Bool) (search : SearchIn) (s : State) : Out :=
  let s := s.elapse dt
  if !s.rowReady session row ∨ 16 ≤ session ∨ lastRow ≠ decide (row + 1 = (s.session session).cfg.rows) then .next s
  else
    let s := if row = 0 then s.beginPicture session else s
    let x := s.session session
    match x.cur with
    | none => .next s
    | some c =>
      let done := (c.rows.map fun r => r.blocks) ++ (s.waitingRows session).map fun r => r.blocks
      let blocks := runSearch search x.cfg c.kind row (done.getD (row - 1) []) (x.lastBlocks.getD row [])
      let r : EncRow := { session := session, row := row, frame := c.frame, at_ := s.tb.now, lastRow := lastRow, blocks := blocks }
      .next (s.modEncoder x.encoder fun e => { e with waiting := e.waiting ++ [r] })

/-! ### RATE_ROW_CODED (R309–R312, R317) -/

/-- The row an encoder codes next: LIVE before RECORD, each in the order its last line was written (R317). -/
def State.rowPick (s : State) (e : Nat) : Option EncRow :=
  let w := (s.encoder e).waiting
  match w.find? fun r => !(s.session r.session).cfg.record with
  | some r => some r
  | none => w.head?

/-- round(6 × log2(a / b)) exactly: the largest k with 2^(2k − 1) ≤ (a / b)^12. -/
def sixLog2 (a b : Nat) : Int :=
  (List.range 400).foldl (fun (acc : Int) (n : Nat) =>
    let k : Int := (n : Int) - 200
    let ok := if 0 < k then decide (b ^ 12 * 2 ^ (2 * k - 1).toNat ≤ a ^ 12) else decide (b ^ 12 ≤ a ^ 12 * 2 ^ (1 - 2 * k).toNat)
    if ok then k else acc) (-200)

/-- A QP held within a session's range. -/
def EncCfg.holdQp (k : EncCfg) (q : Int) : Nat := (min (max q k.qpMin) k.qpMax).toNat

/-- The bits planned so far, as a fraction: T' split over the rows by complexity, evenly where none is known (R309). -/
def plannedBits (target : Nat) (before after : List Nat) : Frac :=
  let total := before.sum + after.sum
  if total = 0 then (target * before.length, max 1 (before.length + after.length)) else (target * before.sum, total)

/-- How the bits spent move the QP (R310). -/
def qpStep (spent : Nat) (planned : Frac) : Int :=
  let a := spent * planned.2 * 100
  if 125 * planned.1 < a then 2
  else if 110 * planned.1 < a then 1
  else if a < 75 * planned.1 then -2
  else if a < 90 * planned.1 then -1
  else 0

/-- The complexities of the rows from one on: those searched, else those of the previous picture (R309). -/
def EncSession.cplxFrom (x : EncSession) (row : Nat) (known : List Nat) : List Nat :=
  known ++ ((x.lastBlocks.map rowCplx).drop (row + known.length)).take (x.cfg.rows - row - known.length)

/-- The QP of a row (R310, R311). `open_` is the value that the first row of a session's first picture leaves open. -/
def EncSession.rowQp (x : EncSession) (c : CurPic) (known : List Nat) (open_ : Nat) : Nat :=
  let spent := (c.rows.map fun r => r.bits).sum
  let row := c.rows.length
  if 85 * c.cap ≤ 100 * spent then x.cfg.qpMax
  else if row = 0 then
    if x.coded = 0 then x.cfg.qpMin + open_ % (x.cfg.qpMax - x.cfg.qpMin + 1)
    else x.cfg.holdQp ((x.lastQp : Int) + sixLog2 x.lastBits (max 1 c.target))
  else x.cfg.holdQp ((c.qp : Int) + qpStep spent (plannedBits c.target (c.rows.map fun r => rowCplx r.blocks) (x.cplxFrom row known)))

/-- The samples of a held row: in a P picture every block is skipped with a zero vector and repeats the reference (R311). -/
def EncSession.heldRecon (x : EncSession) (c : CurPic) (r : RateRowIn) : List Byte :=
  if c.kind = .idr then r.heldRecon else x.ref.getD c.rows.length []

/-- A row is committed: clamped, held, or as coded (R311). -/
def EncSession.commitRow (x : EncSession) (c : CurPic) (r : RateRowIn) (blocks : List Motion) (qp : Nat) : CurPic :=
  let spent := (c.rows.map fun r => r.bits).sum
  let row := c.rows.length
  let clamped := decide (85 * c.cap ≤ 100 * spent)
  let held := c.heldRow.isSome || decide (c.cap < spent + r.bits + (x.cfg.rows - row - 1) * 256)
  let out : RowOut := { bits := if held then min r.heldBits 256 else r.bits, qp := qp, coded := if held then r.heldCoded else r.coded, blocks := blocks, recon := if held then x.heldRecon c r else r.recon }
  { c with
    rows := c.rows ++ [out], qp := qp, params := if row = 0 ∧ c.kind ≠ .p then r.params else c.params
    clampRow := if c.clampRow.isNone && clamped then some row else c.clampRow
    heldRow := if c.heldRow.isNone && held then some row else c.heldRow }

/-- The bytes of rows. -/
def rowBytes (l : List RowOut) : Nat := (l.map fun r => r.coded.length).sum

/-- A slice is complete: EV_ENCODE SLICE, where the session asks for it (R312, R322). -/
def State.postSlice (s : State) (i : Nat) (c : CurPic) : State :=
  let x := s.session i
  let n := c.rows.length
  let per := if x.cfg.sliceRows = 0 then x.cfg.rows else x.cfg.sliceRows
  if !x.cfg.sliceEvents ∨ !(decide (n % per = 0) || decide (n = x.cfg.rows)) then s
  else
    let first := (n - 1) / per * per
    let off := (c.start + c.params.length + rowBytes (c.rows.take first)) % max 1 (x.cfg.outBlocks * 256)
    s.postEncode i 1 c.kind.code x.coded off (rowBytes (c.rows.drop first))

/-- RATE_ROW_CODED: the encoder codes the row whose turn it is (R311, R317). -/
def execRateRowCoded (dt e : Nat) (row : RateRowIn) (s : State) : Out :=
  let s := s.elapse dt
  match s.rowPick e with
  | none => .next s
  | some w =>
    let x := s.session w.session
    match x.cur with
    | none => .next s
    | some c =>
      if w.session ≠ row.session ∨ (s.encoder e).isolated then .next s
      else
        let known := (s.waitingRows w.session).map fun r => rowCplx r.blocks
        let (v, s) := s.open_
        let c' := x.commitRow c row w.blocks (x.rowQp c known v)
        let s := s.modEncoder e fun y => { y with waiting := y.waiting.filter fun r => !(decide (r.session = w.session) && decide (r.row = w.row)) }
        let s := s.modSession w.session fun x => { x with
          cur := some c', longRow := if x.cfg.record then x.longRow else max x.longRow row.us }
        .next (s.postSlice w.session c')

/-! ### PICTURE_CODED (R302, R307, R313, R314, R322) -/

/-- Emulation prevention of an Annex B byte stream: a byte of 3 or less after two zero bytes is preceded by 3. -/
def emulate : Nat → List Byte → List Byte
  | _, [] => []
  | z, b :: l =>
    if 2 ≤ z ∧ b.toNat ≤ 3 then 3 :: b :: emulate (if b = 0 then 1 else 0) l
    else b :: emulate (if b = 0 then z + 1 else 0) l

/-- The UUID of the SEI message, in wire order (R314). -/
def seiUuid : List Byte := beBytes 16 0x7A3C51E09B244D6FA8132C57E09D4B61

/-- The SEI message of an access unit (R314): an Annex B NAL unit with a user_data_unregistered message of 40 bytes. -/
def seiNal (hevc : Bool) (payload : List Byte) : List Byte :=
  let nal : List Byte := if hevc then [0x50, 0x01] else [0x06]
  [0, 0, 0, 1] ++ nal ++ emulate 0 ([5, 40] ++ seiUuid ++ payload ++ [0x80])

/-- The mean of the rows' QP, rounded. -/
def meanQp (l : List RowOut) : Nat := (2 * (l.map fun r => r.qp).sum + l.length) / (2 * max 1 l.length)

/-- A block's entry of a statistics record (R313). -/
def Motion.entry (m : Motion) : List Byte := leBytes 2 (wordOf 16 m.mvx) ++ leBytes 2 (wordOf 16 m.mvy) ++ leBytes 2 m.vcost ++ leBytes 2 m.icost

/-- The statistics record of a picture (R313). -/
def EncSession.statsRecord (x : EncSession) (c : CurPic) : List Byte :=
  let row (o : Option Nat) : Nat := o.getD 0xFF
  let cost := (c.rows.map fun r => rowCplx r.blocks).sum
  layout 256 [(0x00, leBytes 4 x.coded), (0x04, leBytes 4 c.frame.toNat), (0x08, leBytes 8 c.epoch), (0x10, leBytes 4 (c.rows.map fun r => r.bits).sum),
      (0x14, leBytes 1 c.kind.code), (0x15, leBytes 1 (meanQp c.rows)), (0x16, leBytes 1 (row c.clampRow)), (0x17, leBytes 1 (row c.heldRow)),
      (0x18, leBytes 2 x.cfg.rows), (0x1A, leBytes 2 x.cfg.blocksW), (0x1C, leBytes 2 x.cfg.blocksH), (0x20, leBytes 4 cost),
      (0x30, (c.rows.take 34).flatMap fun r => leBytes 4 r.bits), (0xB8, (c.rows.take 34).flatMap fun r => leBytes 2 (sat 16 (rowCplx r.blocks / 1024)))]
    ++ padTo ((x.cfg.statsSize - 1) * 256) (c.rows.flatMap fun r => r.blocks.flatMap Motion.entry)

/-- Bytes written into a circular region of a window from an offset in it; a window that no longer serves the colour takes nothing. -/
def State.writeCircular (s : State) (colour w base size off : Nat) (bs : List Byte) : State :=
  if s.winOk w colour && s.winSpan w base size true then
    let n := size - off
    (s.winWrite w (base + off) (bs.take n)).winWrite w base (bs.drop n)
  else s

/-- Every row of the picture has been committed, and the frame's output signatures are complete. -/
def State.pictureSigs (s : State) (x : EncSession) (c : CurPic) : Option (List (BitVec 32)) :=
  let h := s.head x.cfg.head
  if c.rows.length ≠ x.cfg.rows then none
  else if c.frame = h.frame then (if h.outSigs.length = h.set_.timing.leaves then some h.outSigs else none)
  else some h.lastSigs

/-- What a session keeps of a picture that it has coded. -/
def EncSession.coded_ (x : EncSession) (c : CurPic) (len padded : Nat) : EncSession :=
  let size := max 1 (x.cfg.outBlocks * 256)
  let bits := (c.rows.map fun r => r.bits).sum
  let end_ := (c.start + padded) % size
  let y := { x with coded := x.coded + 1, heldPics := x.heldPics + b2n c.heldRow.isSome, fullness := x.fullness + bits, writeOff := end_, used := x.used + padded
                    aus := x.aus ++ [(end_, padded)], cur := none }
  let refresh := decide (c.kind = .idr) || (decide (c.kind = .pRefresh) && (x.keyReq || decide (x.cfg.gop ≤ x.sinceKey)))
  { y with
    keyReq := x.keyReq && decide (c.kind = .p), sinceKey := if refresh then 1 else x.sinceKey + 1, lastQp := meanQp c.rows, lastBits := bits
    lastBlocks := c.rows.map (fun r => r.blocks), ref := c.rows.map fun r => r.recon
    statsNext := if x.cfg.statsBlocks = 0 then 0 else (x.statsNext + 1) % max 1 (x.cfg.statsBlocks / x.cfg.statsSize)
    last := { picture := BitVec.ofNat 32 x.coded, dropped := false, held := c.heldRow, clamped := c.clampRow.isSome && decide (0 < len), frame := c.frame } }

/-- PICTURE_CODED: the access unit, its SEI and its statistics are written, and EV_ENCODE reports it. -/
def execPictureCoded (dt session : Nat) (s : State) : Out :=
  let s := s.elapse dt
  let x := s.session session
  match x.cur with
  | none => .next s
  | some c =>
    match s.pictureSigs x c with
    | none => .next s
    | some sigs =>
      let payload := leBytes 4 c.frame.toNat ++ leBytes 8 c.epoch ++ leBytes 4 (frameSig sigs).toNat ++ leBytes 1 s.top.gatherId.toNat ++ leBytes 1 x.cfg.head
        ++ leBytes 1 session ++ leBytes 1 (b2n c.clampRow.isSome + 2 * b2n c.heldRow.isSome) ++ leBytes 4 0
      let au := c.params ++ (c.rows.flatMap fun r => r.coded) ++ seiNal x.cfg.hevc payload
      let padded := ceilDiv au.length 256 * 256
      let s := s.writeCircular x.owner x.cfg.outWin x.cfg.outOffset (x.cfg.outBlocks * 256) c.start (padTo padded au)
      let s := if x.cfg.statsBlocks = 0 then s else
        s.writeCircular x.owner x.cfg.auxWin x.cfg.statsOffset (x.cfg.statsBlocks * 256) (x.statsNext * x.cfg.statsSize * 256) (x.statsRecord c)
      let s := s.modSession session fun y => y.coded_ c au.length padded
      let s := s.postEncode session 0 c.kind.code x.coded c.start au.length
      let s := match c.heldRow with
        | some r => s.postEncode session 6 c.kind.code x.coded r 0
        | none => s
      .next (if x.closing then s.endSession session else s)

/-! ### SIDE_RECORD (R315, R319) -/

/-- A side record waits for the picture of its frame. -/
def EncSession.sideWaits (x : EncSession) (r : SideRec) : Bool :=
  r.coded && decide (x.last.frame ≠ r.frame) && (match x.cur with | some c => decide (c.frame = r.frame) | none => false)

/-- The two blocks of a side record. -/
def EncSession.sideBytes (x : EncSession) (r : SideRec) : List Byte :=
  let mine := decide (x.last.frame = r.frame)
  let p := if mine then x.last else LastPic.reset
  let flags := r.flags + 2 * b2n p.dropped + 8 * b2n p.held.isSome + 16 * b2n p.clamped
  layout 512 [(0x00, leBytes 4 r.frame.toNat), (0x04, leBytes 4 p.picture.toNat), (0x08, leBytes 8 r.epoch), (0x10, leBytes 1 x.cfg.head),
    (0x11, leBytes 1 r.count), (0x12, leBytes 2 flags), (0x14, leBytes 2 r.failed), (0x16, leBytes 2 (match p.held with | some n => 64 * n | none => 0xFFFF)),
    (0x18, leBytes 4 r.sig.toNat), (0x20, r.layers)]

/-- SIDE_RECORD: the oldest side record of a session is written, in frame order, once its picture has ended. -/
def execSideRecord (dt session : Nat) (s : State) : Out :=
  let s := s.elapse dt
  let x := s.session session
  match x.sides with
  | [] => .next s
  | r :: rest =>
    if x.sideWaits r then .next s
    else
      let s := s.writeCircular x.owner x.cfg.auxWin x.cfg.sideOffset (x.cfg.sideBlocks * 256) (x.sideNext * 512) (x.sideBytes r)
      .next (s.modSession session fun y => { y with sides := rest, sideNext := (y.sideNext + 1) % max 1 (y.cfg.sideBlocks / 2) })

/-! ### ENCODER_ISOLATE and the return of an encoder (R319, R321) -/

/-- A session of an encoder that is out of service: its picture is lost, and it will resume with a refresh. -/
def EncSession.displaced (x : EncSession) (e : Nat) : EncSession :=
  if x.carried ∧ x.encoder = e then
    { x.lost with keyReq := true }
  else x

/-- One displaced session is moved to an encoder in service, or suspended; a suspension is a step that the return of an encoder undoes. -/
def State.moveSession (s : State) (i : Nat) : State :=
  match placeSession s.headRates s.enc.session i s.encodersUp with
  | some p => s.takeSteps p.1 p.2
  | none => s.takeSteps (s.enc.session.modify i fun x => { x with st := .suspended }) [(i, (s.session i).eff)]

/-- The sessions of an encoder that has been isolated are moved: LIVE first. -/
def State.moveSessions (s : State) (e : Nat) : State :=
  let on := (List.range 16).filter fun i => (s.session i).carried && decide ((s.session i).encoder = e)
  let order := (on.filter fun i => !(s.session i).cfg.record) ++ on.filter fun i => (s.session i).cfg.record
  let s := { s with enc := { s.enc with session := s.enc.session.map fun (x : EncSession) => x.displaced e } }
  let s := s.modEncoder e fun y => { y with waiting := [] }
  let s := order.foldl State.moveSession s
  ((order.filter fun i => (s.session i).closing).foldl State.endSession s).rateIslands

/-- ENCODER_ISOLATE (R321). -/
def execEncoderIsolate (dt e : Nat) (s : State) : Out :=
  let s := s.elapse dt
  let left := s.enc.session.any fun (x : EncSession) => x.carried && decide (x.encoder = e)
  if 2 ≤ e ∨ ((s.encoder e).isolated && !left) then .next s else .next ((s.isolate (islEe e)).moveSessions e)

/-- An encoder is in service again: sessions are restored (R319, R321). -/
def State.encoderReturns (s : State) (e : Nat) : State := (s.modEncoder e fun y => { y with isolated := false }).restoreSessions

end Sys2Proof.Machine
end

