-- ==== Sys2Proof/Machine/Gather.lean ====
section
/-!
DEFINITION. The gathering: spine links, members, the lead's time and table, and shared leaves (13_gathering_twin.md R452–R465;
10_ordering_recovery.md R370).
-/

namespace Sys2Proof.Machine

/-! ### EV_GATHER (R465) -/

/-- An occurrence of an EV_GATHER kind: posted to the watching rings with the occurrences since the last. -/
def State.gatherEvent (s : State) (kind link member context : Nat) : State :=
  let rings := watchers s.gath.watch 0
  let n := s.gath.evCount.getD kind 0 + 1
  let s := { s with gath := { s.gath with evCount := s.gath.evCount.modify kind fun _ => if rings.isEmpty then sat 32 n else 0 } }
  s.postAll rings 0x8C10 (leBytes 1 kind ++ leBytes 1 link ++ leBytes 1 member ++ leBytes 1 context ++ leBytes 4 (sat 32 n)
    ++ leBytes 1 (s.gath.lead.getD 0xFF))

/-- The place of EV_GATHER that names nothing. -/
def noOne : Nat := 0xFF

/-! ### Members, the ring and the lead (R455–R457, R462, R463) -/

/-- A member by the ways to it: reachable, or known and out of reach. -/
def Member.settle (x : Member) : Member :=
  if x.st = 0 ∨ x.st = 3 then x
  else match x.hopsA, x.hopsB with
    | none, none => { x with st := 2 }
    | some a, none => { x with st := 1, hops := a, dirB := false }
    | none, some b => { x with st := 1, hops := b, dirB := true }
    | some a, some b => { x with st := 1, hops := min a b, dirB := decide (b < a) }

/-- The ring as this part sees it: SPLIT with a member out of reach, REVERSED with a way to some member cut, else WHOLE. -/
def ringOf (l : List Member) : Nat :=
  if l.any (fun x => decide (x.st = 2)) then 2
  else if l.any (fun x => decide (x.st = 1) && (x.hopsA.isNone || x.hopsB.isNone)) then 1 else 0

/-- The lead: member 0 with its active part, where this part is of member 0 or reaches it (R457). -/
def State.leadNow (s : State) : Option Nat :=
  if s.top.gatherId = 0 then (if s.twin.st = .active ∨ s.twin.st = .standby then some 0 else none)
  else if (s.member 0).st = 1 ∧ (s.member 0).role ≤ 1 then some 0 else none

/-- Shares of this part's contexts with a member that is out of reach are cut (R463). -/
def State.cutShares (s : State) (m : Nat) : State :=
  (List.range 64).foldl (fun t c => if (t.ctx c).opened && (t.ctx c).share.getLsbD m then t.gatherEvent 10 noOne m c else t) s

/-- The id of the first picture of a context none of whose leaves has completed (R460). -/
def Context.freshPic (x : Context) : Nat :=
  ((x.pics.filter fun (p : Picture) => p.leaves.all fun l => !l.valid).map fun (p : Picture) => p.id).min?.getD x.picNext

/-- Shares with a member that is back in reach resume at the next picture (R463). -/
def State.resumeShares (s : State) (m : Nat) : State :=
  let go (x : Context) : Context := if x.share.getLsbD m then { x with shareFrom := x.shareFrom.modify m fun _ => x.freshPic } else x
  s.modDec fun d => { d with ctx := d.ctx.map go }

/-- One member's change of state is acted on and reported. -/
def State.memberMoved (s : State) (m old new : Nat) : State :=
  if old = new then s
  else if new = 1 then
    (({ s with gath := { s.gath with noPathSince := s.gath.noPathSince.modify m fun _ => none } }.resumeShares m)).gatherEvent 4 noOne m noOne
  else if old = 1 then
    let s := { s with gath := { s.gath with noPathSince := s.gath.noPathSince.modify m fun _ => some s.tb.now } }
    (s.gatherEvent 5 noOne m noOne).cutShares m
  else s

/-- The members, the ring and the lead after a change of the ways to some members. -/
def State.regather (s : State) : State :=
  let old : Gath := s.gath
  let mem := s.gath.mem.map Member.settle
  let s := { s with gath := { s.gath with mem := mem, ring := ringOf mem } }
  let s : State := (List.range 8).foldl (fun (t : State) (m : Nat) => t.memberMoved m (old.mem.getD m Member.reset).st (mem.getD m Member.reset).st) s
  let s : State := if s.gath.ring = old.ring then s
    else if s.gath.ring = 2 then s.gatherEvent 6 noOne noOne noOne
    else if !s.isLead then s
    else s.gatherEvent (if s.gath.ring = 1 then 2 else 3) noOne noOne noOne
  let lead : Option Nat := s.leadNow
  if lead = old.lead then s else ({ s with gath := { s.gath with lead := lead } }).gatherEvent 9 noOne (lead.getD 0xFF) noOne

/-- The body of EV_RESYNC for a ring pair (R343). -/
def State.resyncFor (s : State) (cause n discarded : Nat) : List Byte := resyncBody cause n (s.ring n).seq (s.cmdQ n).lastDone discarded

/-- EV_RESYNC enters a pair's record order, and `TOP.CHANGE` bit 4 shows it. -/
def State.postResync (s : State) (n cause discarded : Nat) : State :=
  (s.post n 0x8000 0 (s.resyncFor cause n discarded)).change 0b010000

/-- Every enabled event ring. -/
def State.enabledEvents (s : State) : List Nat := (List.range 32).filter fun n => (s.ring (32 + n)).enable

/-- A member's twin has taken it over: each ring whose folio forwarded there is unanswered gets EV_RESYNC, with FORWARDED and that
member's number (R370). -/
def State.memberTakenOver (s : State) (m : Nat) (resync : BitVec 32) : State :=
  (List.range 32).foldl (fun (t : State) n =>
    match (t.cmdQ n).begun with
    | some b =>
      if b.wait = .forward m then
        (t.enqueue n { Held.of 0x8000 0 t.tb.dev n m (t.resyncFor 0 n (b2n (resync.getLsbD n))) with flags := 1 }).change 0b010000
      else t
    | none => t) s

/-- Two parts claim one GATHER_ID: the one with the larger DEVICE_ID only relays (R456). -/
def State.conflict (s : State) (m : Nat) (devId : List Byte) : State :=
  let own := decide (m = s.top.gatherId.toNat)
  let s := s.modMember m fun x => { x with st := 3 }
  let larger := decide (beNat devId < beNat s.deviceId)
  let old := s
  let s := if own ∧ larger then { s with gath := { s.gath with relayOnly := true } } else s
  (s.gatherEvent 7 noOne m noOne).noteRole old

/-- A part announces itself along the ring (R456). -/
def State.announced (s : State) (a : MemberIn) : State :=
  let m := a.gatherId
  let x := s.member m
  if m = s.top.gatherId.toNat then
    if a.devId = s.deviceId then s
    else if a.twin ∨ (s.twin.partnerSeen ∧ a.devId = s.twin.partnerDevId) then s.modMember m fun x => { x with parts := 2 }
    else if x.st = 3 then s else s.conflict m a.devId
  else if x.st = 3 then s
  else if x.st = 1 ∧ !a.twin ∧ x.devId ≠ a.devId then s.conflict m a.devId
  else
    let took := decide (x.st = 1) && decide (a.role ≤ 1) && decide (x.role ≤ 1) && decide (x.devId ≠ a.devId)
    let s := s.modMember m fun x =>
      if a.role ≤ 1 ∨ x.devId = a.devId ∨ x.devId = [] then
        { x with st := 1, role := a.role, devId := a.devId, hopsA := a.hopsA, hopsB := a.hopsB, parts := if a.twin then 2 else 1 }
      else { x with parts := 2 }
    if took ∧ m ≠ 0 ∧ s.isLead then s.memberTakenOver m a.resync else s

/-- A spine link of the ring carries traffic. -/
def State.ringUp (s : State) : Bool := decide ((s.spineLink 0).st = 2) || decide ((s.spineLink 1).st = 2)

/-- MEMBER_ANNOUNCE (R456). -/
def execMemberAnnounce (dt : Nat) (member : MemberIn) (s : State) : Out :=
  let s := s.elapse dt
  .next (if s.ringUp ∧ member.gatherId < 8 then (s.announced member).regather else s)

/-! ### Links (R452–R454, R462, R463) -/

/-- The peer's report satisfies R453 for a link. -/
def State.peerAccepted (s : State) (link : Nat) (p : PeerIn) : Bool :=
  p.chainOk && (match s.owner with | some d => decide (padTo 48 d = padTo 48 p.ownerDigest) | none => false)
    && (decide (s.lifecycle = .develop) || decide (s.lifecycle = .field)) && decide (p.lifecycle = s.lifecycle.code) && decide (p.gatherId < 8)
    && (decide (link ≠ 2) || (decide (p.gatherId = s.top.gatherId.toNat)
      && decide (padTo 48 p.recordDigest = padTo 48 (Config.sha384 s.sec.record.publicBytes))))

/-- The lanes of a spine link adapt anew as it trains (R550). -/
def State.trainSpine (s : State) (link : Nat) : State :=
  s.modQuad (9 + link) fun u => { u with lane := u.lane.map fun (x : Lane) =>
    if x.test.isSome then x else { x with ctle := 8, cdr := true, frozen := false, lost := false, saved := none } }

/-- The keys of a link (R453): derived from this part's ephemeral key and the peer's, with both nonces as salt, that of the smaller DEVICE_ID first
(DESIGN CHOICE, log entry 79). -/
def State.linkKey (s : State) (p : PeerIn) (priv nonce : List Byte) : List Byte :=
  let mine := decide (beNat s.deviceId < beNat p.devId)
  Config.hkdf (Config.ecdh priv (padTo 97 p.eph)) (if mine then nonce ++ padTo 32 p.challenge else padTo 32 p.challenge ++ nonce)
    (("wp1664-sp".toList).map fun c => BitVec.ofNat 8 c.toNat) 32

/-- Both ends have drawn what the handshake needs, and the link has its keys (R453). -/
def State.keyLink (s : State) (link : Nat) (p : PeerIn) : State :=
  let r := s.draw 48
  let q := r.2.draw 32
  q.2.modLink link fun x => { x with key := s.linkKey p r.1 q.1 }

/-- A link reaches its authenticated state: link T shows a partner; a link of the ring shows the neighbour. -/
def State.linkUp (s : State) (link : Nat) (p : PeerIn) : State :=
  let old := s
  let s := s.keyLink link p
  let s := ((s.modLink link fun x => { x with st := 2, tryAt := none }).trainSpine link).linkBack (9 + link)
  if link = 2 then
    let s := if s.twin.st = .standby then s.loseSync else s
    let said : TwinSt := if p.role ≤ 1 then .active else if p.role = 2 then .standby else .electing
    let s := { s with twin := { s.twin with partnerSeen := true, partnerDevId := p.devId, partner := some said } }
    let s := (List.range 4).foldl (fun t i => t.seeNonce (4 + i) p.nonce) s
    (s.noteRole old).twinCheck
  else
    let s := s.gatherEvent 0 link p.gatherId noOne
    let s := if p.role = 2 ∨ p.gatherId = s.top.gatherId.toNat then s else s.seeNonce (8 + p.gatherId) p.nonce
    let x := s.member p.gatherId
    (s.announced { gatherId := p.gatherId, role := p.role, devId := p.devId
                   hopsA := if link = 0 then some 1 else x.hopsA, hopsB := if link = 1 then some 1 else x.hopsB
                   twin := decide (x.parts = 2), resync := 0 }).regather

/-- LINK_AUTHENTICATED: a handshake ends (R453); a part that fails it, or cannot draw its ephemeral key (R406), reports AUTH and tries again. -/
def execLinkAuthenticated (dt link : Nat) (peer : PeerIn) (s : State) : Out :=
  let s := s.elapse dt
  if 3 ≤ link ∨ (s.spineLink link).st = 2 ∨ !s.pwr.booted ∨ s.twin.linkIdle ∨ (s.island islSpine).isolated then .next s
  else if s.peerAccepted link peer && !s.sec.entropyBad then .next (s.linkUp link peer)
  else
    let s := s.modLink link fun x => { x with st := 1, tryAt := some s.tb.now }
    .next (if link = 2 then s.twinEvent 5 else s.gatherEvent 8 link peer.gatherId noOne)

/-- LINK_HANDSHAKE_RETRY: a part that is not authenticated tries again every second (R453). -/
def execLinkHandshakeRetry (dt link : Nat) (s : State) : Out :=
  let s := s.elapse dt
  let x := s.spineLink link
  if link < 3 ∧ x.st ≠ 2 ∧ s.pwr.booted ∧ s.since x.tryAt 1000000000 then
    .next (s.modLink link fun x => { x with st := 1, tryAt := some s.tb.now })
  else .next s

/-- The direction a leaf takes to a member: the one with fewer hops, link A where they are equal (R460). -/
def State.dirTo (s : State) (m : Nat) : Bool := (s.member m).dirB

/-- Every unacknowledged leaf whose way ran over a lost link and that has another is sent again, in order (R462). -/
def State.resendLeaves (s : State) (before : List Member) (lostB : Bool) : State :=
  (List.range 64).foldl (fun (t : State) c =>
    (t.ctx c).unackedLeaves.foldl (fun (u : State) q =>
      let was := before.getD q.1 Member.reset
      if was.st = 1 ∧ was.dirB = lostB ∧ (u.member q.1).st = 1 then
        { u with gath := { u.gath with
          resent := sat 32 (u.gath.resent + 1)
          sent := { member := u.top.gatherId.toNat, context := c, frame := BitVec.ofNat 32 q.2.1, leaf := q.2.2, dst := q.1
                    dirB := (u.member q.1).dirB, poisoned := false, stepFrame := (u.ctx c).stepFrame } :: u.gath.sent } }
      else u) t) s

/-- A spine link is lost: traffic of the ring reverses; on link T the partner is lost (R454, R462, R463). -/
def State.linkLost (s : State) (link : Nat) : State :=
  if 3 ≤ link ∨ (s.spineLink link).st ≠ 2 then s
  else
    let s := s.modLink link fun x => { x with st := 0, losses := sat 32 (x.losses + 1), tryAt := none, key := [] }
    let s := s.modQuad (9 + link) fun u => { u with lane := u.lane.map fun (x : Lane) => { x with lost := true } }
    if link = 2 then
      let s := s.twinEvent 6
      let s := if s.twin.st = .standby then s else s.loseSync
      { s with twin := { s.twin with partner := none } }.twinCheck
    else
      let before := s.gath.mem
      let cut (x : Member) : Member := if link = 0 then { x with hopsA := none } else { x with hopsB := none }
      let s := { s with gath := { s.gath with mem := s.gath.mem.map cut } }.gatherEvent 1 link noOne noOne
      s.regather.resendLeaves before (decide (link = 1))

/-- LINK_LOST (R454). -/
def execLinkLost (dt link : Nat) (s : State) : Out := .next ((s.elapse dt).linkLost link)

/-! ### Time over the spine (R148, R149, R457) -/

/-- The lock state of a code. -/
def lockOf (n : Nat) : LockState := if n = 1 then .acquiring else if n = 2 then .locked else if n = 3 then .holdover else .freerun

/-- Device time follows the lead's, which has its grandmaster and domain (R155): the first time after reset, and beyond STEP_LIMIT, it steps; the lock state is the lead's. -/
def State.followLead (s : State) (offset freqAdj : Int) (lock : Nat) (gm : BitVec 64) (domain : Nat) : State :=
  let first := !s.tb.acquired
  let s := { s with
    tb := { s.tb with offset := offset, freqAdj := max (-100000) (min freqAdj 100000), acquired := true, frameAt := some s.tb.now, gm := gm, domain := domain }
    gath := { s.gath with frameNo := s.gath.frameNo + 1 } }
  let s := if first ∨ s.tb.stepLimit < offset.natAbs then s.stepTime (-offset) else s
  s.setLock (lockOf lock)

/-- TIME_FRAME: the lead sends one on both links; every other member follows it (R457). -/
def execTimeFrame (dt : Nat) (frame : TimeFrameIn) (s : State) : Out :=
  let s := s.elapse dt
  match frame with
  | .send => .next (if s.isLead ∧ s.ringUp then { s with gath := { s.gath with frameNo := s.gath.frameNo + 1 } } else s)
  | .receive offset freqAdj lock lead gm domain =>
    .next (if s.ringUp ∧ !s.runsPtp ∧ s.gath.lead = some lead then s.followLead offset freqAdj lock gm domain else s)

/-- TIME_FRAME_LOSS: 4 ms without a time frame count as a lost slave port (R148, R457). -/
def execTimeFrameLoss (dt : Nat) (s : State) : Out :=
  let s := s.elapse dt
  match s.tb.frameAt with
  | some t =>
    if t + 4000000 ≤ s.tb.now ∧ s.top.gatherId ≠ 0 then .next { s with tb := { s.tb with frameAt := none } }.loseSlave else .next s
  | none => .next s

/-! ### The gathering table (R370, R457, R459) -/

/-- A class by its code. -/
def classOf (n : Nat) : StreamClass := if n = 0 then .urgent else if n = 1 then .live else .review

/-- A share that the table names, as the receiver holds it: its reservation, with the pictures it has. One that had ended starts anew: FRAME
counts from 0 again, and its pictures come after those it left (R68, R81). -/
def State.shareOf (s : State) (k : ShareIn) : RxContext :=
  let was := (s.rxOf k.member k.context).getD RxContext.reset
  let old := if was.ended then { was with
      last := none, floor := (was.pics.map fun (p : Picture) => p.ord + 1).foldl max was.floor, got := [], stepFrame := none } else was
  { old with
    member := k.member, context := k.context, colour := k.colour, hostFed := k.hostFed, cls := classOf k.cls, refPtp := k.ptp, ended := false
    decl := { Decl.reset with output := if k.p010 then .p010 else .nv12, maxW := k.width, maxH := k.height, rateNum := k.rateNum, rateDen := k.rateDen } }

/-- The shares this part receives, after a table: new and continued ones, and those that have ended (R461). -/
def State.takeShares (s : State) (l : List ShareIn) : State :=
  let own := s.top.gatherId.toNat
  let mine := (l.filter fun k => k.receivers.getLsbD own && decide (k.member ≠ own)).map s.shareOf
  let gone := (s.gath.rx.filter fun (x : RxContext) => !mine.any fun y => decide (y.member = x.member) && decide (y.context = x.context)).map
    fun (x : RxContext) => { x with ended := true }
  { s with gath := { s.gath with rx := mine ++ gone } }

/-- The members of a table; a known member that it does not name is absent. -/
def State.takeMembers (s : State) (l : List MemberIn) : State :=
  let s := l.foldl (fun (t : State) a => if a.gatherId < 8 ∧ a.gatherId ≠ t.top.gatherId.toNat then t.announced a else t) s
  { s with gath := { s.gath with mem := s.gath.mem.zipIdx.map fun q =>
      if q.2 ≠ s.top.gatherId.toNat ∧ q.1.st ≠ 0 ∧ !(l.any fun a => decide (a.gatherId = q.2)) then Member.reset else q.1 } }

/-- GATHERING_TABLE: the lead's table arrives; a takeover of the lead shows in EV_RESYNC with CAUSE 2 on every enabled event ring. -/
def execGatheringTable (dt : Nat) (table : TableIn) (s : State) : Out :=
  let s := s.elapse dt
  if !s.ringUp then .next s
  else
    let s := s.takeShares table.shares
    if s.isLead then .next s
    else
      let s := (s.takeMembers table.members).regather
      match table.leadTakeover with
      | some mask => .next (s.enabledEvents.foldl (fun t n => t.postResync n 2 (b2n (mask.getLsbD n))) s)
      | none => .next s

/-! ### Sharing (R459) -/

/-- Shared payload of a declaration in bytes per second. -/
def Decl.payload (d : Decl) : Frac := (d.pixelRate.1 * d.output.half, d.pixelRate.2 * 2)

/-- Shared payload of this part's contexts in one direction, were one context's set replaced. -/
def State.payloadOut (s : State) (dirB : Bool) (ctx : List Context) : Frac :=
  fracSum ((ctx.filter fun x => x.opened).map fun (x : Context) =>
    fracScale ((List.range 8).filter fun m => x.share.getLsbD m && decide ((s.member m).st = 1) && decide ((s.member m).dirB = dirB)).length x.decl.payload)

/-- A member whose leaves reach this part over link A: their way here has fewer hops by its link B, so by link A from here. -/
def Member.comesByA (x : Member) : Bool :=
  match x.hopsA, x.hopsB with
  | some a, some b => decide (a < b)
  | some _, none => true
  | _, _ => false

/-- Shared payload that arrives over a link. -/
def State.payloadIn (s : State) (byA : Bool) : Frac :=
  fracSum ((s.gath.rx.filter fun (x : RxContext) => !x.ended && decide ((s.member x.member).comesByA = byA)).map fun (x : RxContext) => x.decl.payload)

/-- GATHER_SHARE. -/
def bodyGatherShare (answers : ShareAnswers) (c : FCtx) (s : State) : FRes :=
  let i := c.u 0x10 1
  let new := BitVec.ofNat 8 (c.u 0x11 1)
  let x := s.ctx i
  let added := new &&& ~~~x.share
  let removed := x.share &&& ~~~new
  let ctx := s.dec.ctx.modify i fun y => { y with share := new }
  let crowded := [false, true].any fun d => ((List.range 8).any fun m => added.getLsbD m && decide ((s.member m).dirB = d))
    && !fracLe (s.payloadOut d ctx) 10000000000
  .checks [(decide (i < 64) && !new.getLsbD s.top.gatherId.toNat && decide (c.u 0x12 2 = 0), .param),
      (!x.opened || decide (x.owner = c.colour), .colour), (x.opened, .state),
      ((List.range 8).all fun m => !added.getLsbD m || decide ((s.member m).st = 1), .unreachable),
      (decide (removed &&& answers.shows = 0), .busy), (decide (added &&& answers.noRoom = 0), .nospace),
      (decide (added &&& answers.noRate = 0) && !crowded, .capacity)] s <|
    .ok (s.modCtx i fun y => { y with
      share := new
      shareFrom := y.shareFrom.zipIdx.map fun q => if added.getLsbD q.2 then y.freshPic else q.1
      unackedLeaves := y.unackedLeaves.filter fun q => new.getLsbD q.1 })

/-- GATHER_SHARE (R459): what the members named answer comes with the command (log entry 2). -/
def execGatherShare (dt ring : Nat) (answers : ShareAnswers) (s : State) : Out :=
  .next ((s.elapse dt).runRaising ring 0x0C10 false (bodyGatherShare answers))

/-! ### Leaves on the spine (R460, R462) -/

/-- The direction of a leaf: that of the leaf before it of the same picture while that way stands, else the shorter one (R462). -/
def State.leafDir (s : State) (c : Nat) (frame : BitVec 32) (m : Nat) : Bool :=
  let x := s.member m
  match s.gath.sent.find? fun q => decide (q.context = c) && decide (q.dst = m) with
  | some q => if q.frame = frame ∧ (if q.dirB then x.hopsB.isSome else x.hopsA.isSome) then q.dirB else x.dirB
  | none => x.dirB

/-- LEAF_SEND: the decoding member sends a published leaf toward a receiver; the oldest `acked` leaves sent to it before have been
acknowledged by now. Only the active part of a pair sends (R461). -/
def execLeafSend (dt c pic leaf member acked : Nat) (s : State) : Out :=
  let s := s.elapse dt
  let x := s.ctx c
  let mine := x.unackedLeaves.filter fun q => q.1 = member
  let left := (x.unackedLeaves.filter fun q => q.1 ≠ member) ++ mine.drop acked
  match x.pics.find? fun (p : Picture) => p.id = pic with
  | none => .next s
  | some p =>
    let l := p.leaves.getD leaf Leaf.reset
    let f := p.frame.getD 0
    let again := s.gath.sent.any fun q => decide (q.context = c) && decide (q.frame = f) && decide (q.leaf = leaf) && decide (q.dst = member)
    if s.twin.st ≠ .active ∨ !x.opened ∨ !x.share.getLsbD member ∨ (s.member member).st ≠ 1 ∨ !l.valid ∨ p.frame.isNone
        ∨ pic < x.shareFrom.getD member 0 ∨ again ∨ (s.island islSpine).isolated then .next s
    else
      let msg : LeafMsg := { member := s.top.gatherId.toNat, context := c, frame := f, leaf := leaf, dst := member, dirB := s.leafDir c f member
                             poisoned := l.poisoned || s.leafDamaged p leaf, stepFrame := x.stepFrame }
      let s := s.modCtx c fun y => { y with unackedLeaves := left ++ [(member, f.toNat, leaf)] }
      .next { s with gath := { s.gath with sent := msg :: s.gath.sent } }

/-- A leaf as its receiver stores it, its colophon unchanged (R72, R73). -/
def storeLeaf (l : LeafIn) : Leaf :=
  { Leaf.reset with
    valid := true, given := some (l.flags.setWidth 16), concealed := l.flags.getLsbD 2, refConcealed := l.flags.getLsbD 3, decoded := l.decoded, signature := l.signature
    pixels := l.pixels, poisoned := l.poisoned || decide (crc32c l.pixels ≠ l.signature) }

/-- The place in output order of a picture of a received context: by signed difference from the newest one of the share, whose FRAME may wrap;
the first picture of a share comes after all of an earlier one (R68, R81). -/
def RxContext.place (x : RxContext) (frame : BitVec 32) : Nat :=
  match x.last with
  | some (f, n) => ((n : Int) + signedOf 32 (frame - f).toNat).toNat
  | none => x.floor + 2 ^ 31

/-- The picture that a received leaf begins, at a place in output order. -/
def State.rxPicture (s : State) (l : LeafIn) (ord : Nat) : Picture :=
  let fmt : PixFmt := if l.fmt = 2 then .p010 else if l.fmt = 1 then .i420 else .nv12
  let blocks := l.leaves * ceilDiv (fmtBytes fmt l.width 16) 256 + ceilDiv l.leaves 8
  { Picture.reset with
    id := ord, frame := some l.frame, capture := l.capture, arrivalTimed := l.flags.getLsbD 1, holdover := l.flags.getLsbD 4
    clamped := l.flags.getLsbD 5, randomAccess := l.flags.getLsbD 7, stepNo := s.tb.steps, width := l.width, height := l.height
    fmt := fmt, matrix := l.matrix, fullRange := l.fullRange, output := true, ord := ord, leaves := List.replicate l.leaves Leaf.reset
    base := s.placePicture (256 * blocks), size := 256 * blocks, colour := l.colour }

/-- Three picture buffers of a received context: the newest pictures, and none dropped that a layer has selected. -/
def State.keepThree (s : State) (x : RxContext) (l : List Picture) : List Picture :=
  let held (p : Picture) : Bool := s.comp.layer.any fun (y : Layer) => match y.sel with
    | some q => decide (q.member = x.member) && decide (q.context = x.context) && decide (q.pic = p.id)
    | none => false
  if l.length ≤ 3 then l
  else match (l.reverse.find? fun p => !held p) with
    | some p => l.filter fun q => q.id ≠ p.id
    | none => l.take 3

/-- A received context with a leaf taken. -/
def State.withLeaf (s : State) (x : RxContext) (l : LeafIn) : RxContext :=
  let ord := x.place l.frame
  let pics := if x.pics.any (fun (p : Picture) => p.id = ord) then x.pics else s.keepThree x (s.rxPicture l ord :: x.pics)
  { x with
    pics := pics.map fun (p : Picture) => if p.id = ord then { p with leaves := p.leaves.modify l.leaf fun _ => storeLeaf l } else p
    got := (l.frame, l.leaf) :: x.got.filter fun q => pics.any fun (p : Picture) => p.frame = some q.1
    last := match x.last with | some (f, n) => if n < ord then some (l.frame, ord) else some (f, n) | none => some (l.frame, ord)
    stepFrame := l.stepFrame <|> x.stepFrame }

/-- A received leaf and its colophon reach this member's store (R72, R112). -/
def State.putReceived (s : State) (l : LeafIn) : State :=
  match s.rxOf l.member l.context with
  | none => s
  | some x => match x.pics.find? fun (p : Picture) => p.id = x.place l.frame with
    | some p => (s.putLeaf p l.leaf).putColophons p (sourceWord l.member l.hostFed l.context) [l.leaf / 8]
    | none => s

/-- A received leaf counts as a slice of the plan of heads that have its context as an anchor. The port times of its packets are not known here:
they are taken as its receipt less the bounds of the steps up to it, 810 µs on the decoding member and the way over the spine (R110, R112; DESIGN
CHOICE, log entry 24). -/
def State.noteReceived (s : State) (l : LeafIn) : State :=
  match s.rxAnchor l.context with
  | none => s
  | some x =>
    if x.member ≠ l.member then s
    else (s.planSlice l.context l.leaf ((s.tb.dev : Int) - l.capture - 810000 - s.anchorWay l.context) (decide (l.leaf + 1 = l.leaves)) l.capture).learnLeaf
      l.context l.leaf l.leaf

/-- LEAF_RECEIVE: a receiver stores, checks, publishes and acknowledges a leaf, once (R460). -/
def execLeafReceive (dt : Nat) (leaf : LeafIn) (s : State) : Out :=
  let s := s.elapse dt
  match s.rxOf leaf.member leaf.context with
  | none => .next s
  | some x =>
    if !s.ringUp ∨ x.ended ∨ leaf.leaves ≤ leaf.leaf ∨ (s.island islSpine).isolated then .next s
    else
      let ack : LeafMsg := { member := leaf.member, context := leaf.context, frame := leaf.frame, leaf := leaf.leaf, dst := s.top.gatherId.toNat
                             dirB := false, poisoned := leaf.poisoned, stepFrame := none }
      let s := { s with gath := { s.gath with acks := ack :: s.gath.acks } }
      if x.got.contains (leaf.frame, leaf.leaf) then .next s
      else
        let s := { s with gath := { s.gath with rx := s.gath.rx.map fun (y : RxContext) =>
          if y.member = leaf.member ∧ y.context = leaf.context then s.withLeaf y leaf else y } }
        .next ((s.putReceived leaf).noteReceived leaf)

/-! ### GATHER_STATE and GATHER_WATCH (R464, R465) -/

/-- A rate in MB/s, rounded down, held at 16 bits. -/
def mbPerS (f : Frac) : Nat := sat 16 (f.1 / (max 1 f.2 * 1000000))

/-- The entry of a member in GATHER_STATE. -/
def Member.bytes (x : Member) : List Byte :=
  leBytes 1 x.st ++ leBytes 1 (if x.st = 0 then 0 else x.parts) ++ leBytes 1 x.hops ++ leBytes 1 (b2n x.dirB) ++ leBytes 4 0 ++ (padTo 16 x.devId).take 8

/-- The block of GATHER_STATE. -/
def State.gatherBlock (s : State) : List Byte :=
  layout 256 [(0, leBytes 1 s.top.gatherId.toNat), (1, leBytes 1 (s.gath.lead.getD 0xFF)), (2, leBytes 1 s.gath.ring),
    (3, leBytes 1 ((s.spineLink 0).st + 4 * (s.spineLink 1).st + 16 * (s.spineLink 2).st)),
    (4, leBytes 4 (sat 32 ((s.gath.link.map fun x => x.losses).sum))), (8, leBytes 4 s.gath.resent),
    (0x0C, leBytes 2 (mbPerS (s.payloadOut false s.dec.ctx)) ++ leBytes 2 (mbPerS (s.payloadOut true s.dec.ctx))
      ++ leBytes 2 (mbPerS (s.payloadIn true)) ++ leBytes 2 (mbPerS (s.payloadIn false))),
    (0x20, s.gath.mem.zipIdx.flatMap fun q => if q.2 = s.top.gatherId.toNat ∧ q.1.st ≠ 3 then
      ({ q.1 with st := 1, parts := if s.twin.partnerSeen then 2 else 1, hops := 0, dirB := false, devId := s.deviceId } : Member).bytes else q.1.bytes)]

/-- GATHER_STATE. -/
def bodyGatherState (c : FCtx) (s : State) : FRes :=
  .checks (blockChecks c s (c.u 0x12 1) (c.u 0x14 4) 256) s (writeBlock s (c.u 0x12 1) (c.u 0x14 4) s.gatherBlock)

/-- GATHER_STATE (R464). -/
def execGatherState (dt ring : Nat) (s : State) : Out := .next ((s.elapse dt).runFolio ring 0x0C11 bodyGatherState)

/-- GATHER_WATCH. -/
def bodyGatherWatch (c : FCtx) (s : State) : FRes :=
  let n := c.u 0x10 1
  let mask := c.u 0x11 1
  .checks [(decide (n < 32) && decide (mask < 4), .param), (evOk c s n, .colour)] s <|
    .ok { s with gath := { s.gath with watch := watchSet s.gath.watch (c.ev n) (BitVec.ofNat 8 mask) } }

/-- GATHER_WATCH (R465). -/
def execGatherWatch (dt ring : Nat) (s : State) : Out := .next ((s.elapse dt).runFolio ring 0x0C12 bodyGatherWatch)

end Sys2Proof.Machine
end

