-- ==== Sys2Proof/Machine/Lanes.lean ====
section
/-!
DEFINITION. The serial lanes: freezes and refreshes, lane states, tests, counters and events (16_lanes.md R545–R564; 17_faults_replay.md
R566 for their faults).
-/

namespace Sys2Proof.Machine

/-! ### Who owns a lane -/

/-- The island of a quad (R545, R562). -/
def quadIsland (q : Nat) : Nat := if q < 8 then islTx q else if q = 8 then islNet else if q < 12 then islSpine else islHost

/-- The reading of the sensor nearest to an island (R535). -/
def State.islandTemp (s : State) (i : Nat) : Int := s.pwr.temp.getD (s.pwr.nearest.getD i 0) 25

/-- A lane's link is reported lost to its protocol, which retrains it: DisplayPort, Ethernet, the spine; PCIe recovers by itself (R566). -/
def State.laneLost (s : State) (q l : Nat) : State :=
  if q < 8 then s.portLost q
  else if q = 8 then (if (s.port l).link then s.setLink l false else s)
  else if q < 12 then s.linkLost (q - 9)
  else s.modLane q l fun x => { x with lost := false }

/-- Each lane that has come to be marked lost is reported to its protocol. -/
def State.reportLost (s before : State) : State :=
  (List.range 13).foldl (fun (t : State) q => (List.range 4).foldl (fun (u : State) l =>
    if (u.lane q l).lost && !(before.lane q l).lost then u.laneLost q l else u) t) s

/-- A fault event of a lane or quad, with what a lasting fault does to the links. -/
def State.laneFault (s : State) (src q l : Nat) : State :=
  (s.fault src (quadIsland q) (if src = 7 then 0 else 4 * q + l) (if src = 7 then q else 0) 0).reportLost s

/-! ### EV_LANE (R564) -/

/-- The MASK bit of a kind: test, faults, refresh. -/
def laneBit (kind : Nat) : Nat := if kind = 0 then 0 else if kind = 3 then 2 else 1

/-- An occurrence for EV_LANE: TEST_DONE always goes out, every other kind at most once per second and lane, with the occurrences since. -/
def State.laneEvent (s : State) (q l kind errors bits : Nat) : State :=
  let place := if kind = 2 then 0 else l
  let g := (s.lane q place).ev.getD kind EvGate.reset
  let n := sat 32 (g.count + 1)
  if kind = 0 ∨ s.since g.last 1000000000 then
    (s.modLane q place fun x => { x with ev := x.ev.modify kind fun _ => { count := 0, last := some s.tb.now } }).postAll
      (watchers s.lanes.watch (laneBit kind)) 0x8F00
      (leBytes 1 q ++ leBytes 1 (if kind = 2 then 0xFF else l) ++ leBytes 1 kind ++ leBytes 1 0 ++ leBytes 4 n ++ leBytes 4 (sat 32 errors)
        ++ leBytes 4 (sat 32 bits))
  else s.modLane q place fun x => { x with ev := x.ev.modify kind fun e => { e with count := n } }

/-! ### Freezes (R551, R552) -/

/-- A lane whose receiver listens: in service, or in a test that checks. -/
def Lane.listens (x : Lane) : Bool := decide (x.rx = .active) || decide (x.rx = .sleep) || decide (x.rx = .test)

/-- A test that fixes the CTLE code holds the freeze (R560). -/
def Lane.heldByTest (x : Lane) : Bool := match x.test with | some t => t.ctle.isSome | none => false

/-- FREEZE_ADAPTATION: squelch, or too few transitions (R551). -/
def execFreezeAdaptation (dt q lane : Nat) (s : State) : Out :=
  let s := s.elapse dt
  let x := s.lane q lane
  if !x.listens || x.frozen then .next s
  else .next (s.modLane q lane fun x => { x with frozen := true, frozenAt := s.tb.now, frozenTemp := s.islandTemp (quadIsland q) })

/-- A refresh: counted and reported; the settings before it are kept until it is over (R552, R553). -/
def State.refreshLane (s : State) (q l : Nat) : State :=
  (s.modLane q l fun x => { x with refresh := BitVec.ofNat 16 (sat 16 (x.refresh.toNat + 1)), saved := some (x.ctle, x.vga) }).laneEvent q l 3 0 0

/-- FREEZE_END: adaptation resumes, by way of a refresh after more than 10 ms or a move of more than 10 °C (R552). -/
def execFreezeEnd (dt q lane : Nat) (cdrLocked : Bool) (temp : Int) (s : State) : Out :=
  let s := s.elapse dt
  let x := s.lane q lane
  if !x.frozen || x.heldByTest || !x.listens then .next s
  else
    let long := decide (x.frozenAt + 10000000 < s.tb.now)
    let moved := decide (10 < (temp - x.frozenTemp).natAbs)
    let rx : RxSt := if x.rx = .sleep then .active else x.rx
    let s := s.modLane q lane fun x => { x with frozen := false, cdr := cdrLocked, rx := rx }
    .next (if long || moved then s.refreshLane q lane else s)

/-- CDR_LOCK_FAIL: 5 µs after a freeze the CDR has not locked, so the link is reported lost (R552). -/
def execCdrLockFail (dt q lane : Nat) (s : State) : Out :=
  let s := s.elapse dt
  let x := s.lane q lane
  if !x.listens || x.frozen || x.cdr || x.test.isSome then .next s
  else
    let t := s.modLane q lane fun x => { x with lost := true }
    .next (t.reportLost s)

/-! ### The quad PLL (R546) -/

/-- QUAD_PLL_LOSS: every lane of the quad loses its link, PLL_LOSS is posted, and the fault is counted. -/
def execQuadPllLoss (dt q : Nat) (s : State) : Out :=
  let s := s.elapse dt
  if 13 ≤ q ∨ !(s.quad q).pllLock then .next s
  else
    let t := s.modQuad q fun u => { u with
      pllLock := false, pllLoss := BitVec.ofNat 8 (sat 8 (u.pllLoss.toNat + 1)), lane := u.lane.map fun (x : Lane) => { x with lost := true, cdr := false } }
    .next (((t.reportLost s).laneEvent q 0 2 0 0).laneFault 7 q 0)

/-! ### Lane states (R554, R555) -/

/-- The transmit state a user asks for. -/
def txOf : LaneTarget → TxSt
  | .active => .active | .idle => .idle | .sleep => .sleep | .off => .off

/-- The receive state a user asks for; a receiver has no IDLE. -/
def rxOf : LaneTarget → Option RxSt
  | .active => some .active | .idle => none | .sleep => some .sleep | .off => some .off

/-- A receiver that leaves SLEEP refreshes under R552. -/
def State.wakeRx (s : State) (q l : Nat) (old : Lane) : State :=
  if old.rx = .sleep ∧ old.test.isNone ∧ (s.lane q l).rx = .active
      ∧ (old.frozenAt + 10000000 < s.tb.now ∨ 10 < (s.islandTemp (quadIsland q) - old.frozenTemp).natAbs) then s.refreshLane q l else s

/-- LANE_STATE_CHANGE: the user of a lane sets a direction to the state R555 gives it; PCIe sets its own. -/
def execLaneStateChange (dt q lane : Nat) (rxDir : Bool) (target : LaneTarget) (s : State) : Out :=
  let s := s.elapse dt
  let want := s.laneUser q lane
  if 13 ≤ q ∨ 4 ≤ lane then .next s
  else if rxDir then
    match rxOf target with
    | some t =>
      if (q = 12 ∨ t = want.2) ∧ (s.lane q lane).rx ≠ t then
        let old := s.lane q lane
        let old := if old.rx = .sleep ∧ !old.frozen then { old with frozenAt := s.tb.now, frozenTemp := s.islandTemp (quadIsland q) } else old
        .next (((s.modLane q lane fun x => x.setRx t).modQuad q Quad.settle).wakeRx q lane old)
      else .next s
    | none => .next s
  else if q = 12 ∨ txOf target = want.1 then .next ((s.modLane q lane fun x => x.setTx (txOf target)).modQuad q Quad.settle)
  else .next s

/-! ### LANE_TEST (R556–R561) -/

/-- The rate codes of a quad (R545). -/
def rateGiven (q rate : Nat) : Bool := if q < 9 then decide (rate < 2) else decide (rate = 1)

/-- The test of a LANE_TEST's parameters, started now. -/
def testOf (c : FCtx) (s : State) : LaneTest :=
  { LaneTest.reset with
    mode := c.u 0x12 1, pattern := BitVec.ofNat 8 (c.u 0x13 1), rate := c.u 0x14 1, inject := c.u 0x15 1, injLog2 := c.u 0x16 1
    ctle := if c.u 0x17 1 = 0xFF then none else some (c.u 0x17 1)
    duration := c.u 0x18 4, tag := BitVec.ofNat 16 c.tag, runFrom := if c.u 0x12 1 = 3 then some s.tb.now else none, pend := if c.u 0x15 1 = 1 then 1 else 0 }

/-- A lane enters a test: a refresh is cut off, the counts restart, a direction the test leaves alone is as its user wants it, and a fixed
CTLE code holds code and freeze (R553, R560). -/
def Lane.begin (x : Lane) (t : LaneTest) (want : TxSt × RxSt) : Lane :=
  let x := x.restore
  { x with
    test := some t
    tx := if t.mode = 1 ∨ t.mode = 2 ∨ t.mode = 3 then .test else want.1
    rx := if t.mode = 1 ∨ t.mode = 2 ∨ t.mode = 4 then .test else want.2
    ctle := match t.ctle with | some k => BitVec.ofNat 4 k | none => x.ctle
    frozen := t.ctle.isSome, sync := false, errors := 0, bits := 0, injected := 0 }

/-- A test ends: TEST_DONE, and the lane goes back to its user, which trains it anew (R560). -/
def State.endTest (s : State) (q l : Nat) : State :=
  match (s.lane q l).test with
  | none => s
  | some t =>
    let s := s.modLane q l fun x => { x with test := none, sync := false, frozen := false, tx := .off, rx := .off }
    (s.setLane q l (s.laneUser q l)).laneEvent q l 0 t.errors (t.bits / 2 ^ 20)

/-- The lanes that a LANE_TEST names. -/
def namedLanes (mask : Nat) : List Nat := (List.range 4).filter fun l => bitOf mask l

/-- The users of the lanes are in the way of a test (R559). -/
def State.testBusy (s : State) (q mask : Nat) : Bool :=
  if q < 8 then decide ((s.dpPort q).st ≠ .off)
  else if q = 8 then (namedLanes mask).any fun l => decide ((s.port l).mode ≠ 0)
  else (decide ((s.spineLink (q - 9)).st = 2) && decide (s.lifecycle ≠ .develop))
    || (decide (q = 11) && decide (s.twin.st = .active) && s.twin.inSync)

/-- LANE_TEST: STOP, a single injection on a spine lane in service, or a test. -/
def bodyLaneTest (c : FCtx) (s : State) : FRes :=
  let q := c.u 0x10 1
  let mask := c.u 0x11 1
  let mode := c.u 0x12 1
  let inject := c.u 0x15 1
  let k := c.u 0x16 1
  let ctle := c.u 0x17 1
  let pat := c.u 0x13 1
  let single := decide (mode = 0) && decide (inject = 1)
  let spine := decide (9 ≤ q)
  .checks [(decide (q < 13) && decide (mask < 16) && decide (mode < 5) && decide (pat % 4 < 3) && decide (pat / 4 % 32 = 0) && decide (inject < 3)
        && (decide (inject ≠ 2) || (decide (10 ≤ k) && decide (k ≤ 30))) && (decide (ctle < 16) || decide (ctle = 0xFF))
        && decide (c.u 0x18 4 ≤ 3600000) && !(single && !spine), .param),
      (!single || decide (s.lifecycle = .develop), .lifecycle), (isAdmin c s, .colour),
      (decide (q ≠ 12) && !(decide (q < 8) && (decide (mode = 1) || decide (mode = 4))) && (decide (mode = 0) || rateGiven q (c.u 0x14 1))
        && (!single || decide ((s.spineLink (q - 9)).st = 2)), .state),
      (decide (mode = 0) || !s.testBusy q mask, .busy)] s <|
    if single then
      .ok ((namedLanes mask).foldl (fun (t : State) l => t.modLane q l fun x => { x with injected := BitVec.ofNat 32 (sat 32 (x.injected.toNat + 1)) }) s)
    else if mode = 0 then .done .ok 0 s fun t => (namedLanes mask).foldl (fun (u : State) l => u.endTest q l) t
    else
      let t := (namedLanes mask).foldl (fun (t : State) l => t.modLane q l fun x => x.begin (testOf c s) (s.laneUser q l)) s
      let t := t.modQuad q Quad.settle
      .done .ok 0 t fun u => if spine && !(namedLanes mask).isEmpty then u.linkLost (q - 9) else u

/-- LANE_TEST (R559). -/
def execLaneTest (dt ring : Nat) (s : State) : Out := .next ((s.elapse dt).runFolio ring 0x0F00 bodyLaneTest)

/-- TEST_DONE: the DURATION of a lane's test has run out (R560); the event carries the TAG of the LANE_TEST (R341). -/
def execTestDone (dt q lane : Nat) (s : State) : Out :=
  let s := s.elapse dt
  match (s.lane q lane).test with
  | some t =>
    match t.runFrom with
    | some a => .next (if t.duration ≠ 0 ∧ a + t.duration * 1000000 ≤ s.tb.now then (s.endTest q lane).causedBy s t.tag.toNat else s)
    | none => .next s
  | none => .next s

/-- CHECKER_SYNC: a checker has compared 1,024 bits, some in error: none gives it sync, 64 or more take it away; DURATION runs from the first gain
(R557, R560). -/
def execCheckerSync (dt q lane errors : Nat) (s : State) : Out :=
  let s := s.elapse dt
  match (s.lane q lane).test with
  | some t =>
    let sync := if (s.lane q lane).sync then decide (errors < 64) else decide (errors = 0)
    if t.mode = 3 then .next s
    else .next (s.modLane q lane fun x => { x with
      sync := sync, test := some { t with runFrom := if sync && t.runFrom.isNone then some s.tb.now else t.runFrom } })
  | none => .next s

/-! ### Counters (R562) -/

/-- The bits a generator has flipped while its checker compared some bits more: in near loopback every 2^k-th, from the sync on; else as many as it has
sent give, and a single one at most once (R558). -/
def LaneTest.flips (t : LaneTest) (bits flipped : Nat) : Nat :=
  if t.inject = 2 then (if t.mode = 2 then (t.bits + bits) / 2 ^ t.injLog2 - t.bits / 2 ^ t.injLog2 else flipped)
  else if t.inject = 1 then min t.pend flipped else 0

/-- What a lane has counted, as the wire gave it: errors and bits while in sync, injections while a test makes them, code errors in
service (R557, R558, R562). Adaptation moves the codes, within two of the held code while a refresh runs (R552). -/
def Lane.counted (x : Lane) (r : LaneReadIn) : Lane :=
  let run := x.test.isSome && x.sync
  let errors := if run then r.errors else 0
  let bits := if run then r.bits else 0
  let flips := match x.test with | some t => t.flips bits r.flipped | none => 0
  let ctle := match x.saved with | some p => min (max r.ctle (p.1.toNat - 2)) (p.1.toNat + 2) | none => r.ctle
  let moves := x.listens && !x.frozen && !x.heldByTest
  { x with
    errors := BitVec.ofNat 32 (sat 32 (x.errors.toNat + errors)), bits := BitVec.ofNat 48 (x.bits.toNat + bits)
    injected := BitVec.ofNat 32 (sat 32 (x.injected.toNat + flips))
    codeErr := if x.test.isNone && decide (x.rx = .active) then BitVec.ofNat 16 (sat 16 (x.codeErr.toNat + r.codeErr)) else x.codeErr
    cdrLoss := if x.listens then BitVec.ofNat 16 (sat 16 (x.cdrLoss.toNat + r.cdrLoss)) else x.cdrLoss
    totBits := x.totBits + bits
    ctle := if moves then BitVec.ofNat 4 (min ctle 15) else x.ctle, vga := if moves then BitVec.ofNat 5 (min r.vga 31) else x.vga
    saved := none
    test := x.test.map fun t => { t with errors := t.errors + errors, bits := t.bits + bits, pend := t.pend - (if t.inject = 1 then flips else 0) } }

/-- Firmware reads a lane's RC counters: they clear, and the totals take what they held. -/
def Lane.readAll (x : Lane) : Lane :=
  { x with
    errors := 0, injected := 0, codeErr := 0, cdrLoss := 0, refresh := 0
    totErrors := sat 32 (x.totErrors + x.errors.toNat), totInjected := sat 32 (x.totInjected + x.injected.toNat)
    totCode := sat 32 (x.totCode + x.codeErr.toNat), totCdr := sat 32 (x.totCdr + x.cdrLoss.toNat)
    totRefresh := sat 32 (x.totRefresh + x.refresh.toNat) }

/-- A quad's losses of lock join their total. -/
def Quad.readLoss (u : Quad) : Quad := { u with pllLoss := 0, totPll := sat 32 (u.totPll + u.pllLoss.toNat) }

/-- Fault events of the CDR losses of a reading, one each. -/
def State.cdrFaults (s : State) (q l : Nat) : Nat → State
  | 0 => s
  | n + 1 => (s.laneFault 6 q l).cdrFaults q l n

/-- COUNTER_POLL: the lane's counters of the last 10 ms are read, and the faults they show are counted (R562, R566). -/
def execCounterPoll (dt q lane : Nat) (read : LaneReadIn) (s : State) : Out :=
  let s := s.elapse dt
  if 13 ≤ q ∨ 4 ≤ lane then .next s
  else
    let x := (s.lane q lane).counted read
    let code := decide (x.codeErr ≠ 0) && decide (8 ≤ q)
    let cdr := x.cdrLoss.toNat
    let s := (s.modLane q lane fun _ => x.readAll).modQuad q fun u => { u.readLoss with pllLock := u.settle.pllLock }
    let s := if code then (s.laneEvent q lane 4 0 0).laneFault 5 q lane else s
    .next (if cdr = 0 then s else (s.laneEvent q lane 1 0 0).cdrFaults q lane cdr)

/-- LANE_COUNTER_READ: a read of a read-to-clear register, by firmware, which keeps the total (R562). -/
def execLaneCounterRead (dt q lane : Nat) (counter : LaneCounter) (s : State) : Out :=
  let s := s.elapse dt
  let x := s.lane q lane
  let put (v : Nat) (f : Lane → Lane) : Out := .next ((s.reply (leBytes 4 v)).modLane q lane f)
  match counter with
  | .errors => put x.errors.toNat fun x => { x with errors := 0, totErrors := sat 32 (x.totErrors + x.errors.toNat) }
  | .injected => put x.injected.toNat fun x => { x with injected := 0, totInjected := sat 32 (x.totInjected + x.injected.toNat) }
  | .codeAndCdr => put (x.codeErr.toNat + 2 ^ 16 * x.cdrLoss.toNat) fun x => { x with
      codeErr := 0, cdrLoss := 0, totCode := sat 32 (x.totCode + x.codeErr.toNat), totCdr := sat 32 (x.totCdr + x.cdrLoss.toNat) }
  | .refresh => put x.refresh.toNat fun x => { x with refresh := 0, totRefresh := sat 32 (x.totRefresh + x.refresh.toNat) }
  | .quad =>
    let u := s.quad q
    .next ((s.reply (leBytes 4 (b2n u.pllLock + 2 ^ 8 * u.pllLoss.toNat))).modQuad q Quad.readLoss)

/-- LANE_BITS_LO_READ: the low half of the bits compared; the upper half is latched (R562). -/
def execLaneBitsLoRead (dt q lane : Nat) (s : State) : Out :=
  let s := s.elapse dt
  let x := s.lane q lane
  .next ((s.reply (leBytes 4 x.bits.toNat)).modLane q lane fun x => { x with bitsHi := x.bits.extractLsb' 32 16 })

/-! ### LANE_STATE and LANE_WATCH (R563, R564) -/

/-- The codes of `LANE.TX_STATE` and `LANE.RX_STATE`. -/
def TxSt.code : TxSt → Nat
  | .off => 0 | .sleep => 1 | .idle => 2 | .active => 3 | .test => 4
def RxSt.code : RxSt → Nat
  | .off => 0 | .sleep => 1 | .active => 2 | .test => 3

/-- A lane's 48 bytes of LANE_STATE. -/
def Lane.bytes (x : Lane) : List Byte :=
  leBytes 1 x.tx.code ++ leBytes 1 x.rx.code ++ leBytes 1 x.ctle.toNat ++ leBytes 1 x.vga.toNat ++ leBytes 4 (sat 32 (x.totErrors + x.errors.toNat))
    ++ leBytes 4 (sat 32 (x.totInjected + x.injected.toNat)) ++ leBytes 4 (sat 32 (x.totCode + x.codeErr.toNat))
    ++ leBytes 4 (sat 32 (x.totCdr + x.cdrLoss.toNat)) ++ leBytes 4 (sat 32 (x.totRefresh + x.refresh.toNat)) ++ leBytes 8 x.totBits
    ++ List.replicate 16 0

/-- The block of LANE_STATE. -/
def Quad.block (u : Quad) : List Byte :=
  layout 256 [(0, leBytes 1 (b2n u.pllLock)), (4, leBytes 4 (sat 32 (u.totPll + u.pllLoss.toNat))), (0x10, u.lane.flatMap Lane.bytes)]

/-- LANE_STATE. -/
def bodyLaneState (c : FCtx) (s : State) : FRes :=
  let q := c.u 0x11 1
  .checks ((decide (q < 13), .param) :: blockChecks c s (c.u 0x12 1) (c.u 0x14 4) 256) s (writeBlock s (c.u 0x12 1) (c.u 0x14 4) (s.quad q).block)

/-- LANE_STATE (R563). -/
def execLaneState (dt ring : Nat) (s : State) : Out := .next ((s.elapse dt).runFolio ring 0x0F01 bodyLaneState)

/-- LANE_WATCH. -/
def bodyLaneWatch (c : FCtx) (s : State) : FRes :=
  let n := c.u 0x10 1
  let mask := c.u 0x11 1
  .checks [(decide (n < 32) && decide (mask < 8), .param), (evOk c s n, .colour)] s <|
    .ok { s with lanes := { s.lanes with watch := watchSet s.lanes.watch (c.ev n) (BitVec.ofNat 8 mask) } }

/-- LANE_WATCH (R564). -/
def execLaneWatch (dt ring : Nat) (s : State) : Out := .next ((s.elapse dt).runFolio ring 0x0F02 bodyLaneWatch)

end Sys2Proof.Machine
end

