-- ==== Sys2Proof/Machine/Touch.lean ====
section
/-!
DEFINITION. Touch panels: scan frames, contacts, baselines and reports (14_touch_inputs.md R485–R500, R512).
-/

namespace Sys2Proof.Machine

/-! ### Frames (R490) -/

/-- The value of a list of signed numbers at an index; zero where there is none. -/
def intAt (l : List Int) (i : Nat) : Int := l.getD i 0

def PanelCfg.nodes (c : PanelCfg) : Nat := c.rows * c.cols
def PanelCfg.mutual (c : PanelCfg) : Int := if c.glove then c.gloveMut else c.mutThresh
def PanelCfg.self_ (c : PanelCfg) : Int := if c.glove then c.gloveSelf else c.selfThresh

/-- A node lies on an excluded line (R494). -/
def Panel.excluded (p : Panel) (n : Nat) : Bool := p.exDrive.contains (n / p.cfg.cols) || p.exSense.contains (n % p.cfg.cols)

/-- The mutual deltas of a frame: baseline minus raw; 0 on an excluded line. -/
def Panel.deltas (p : Panel) : List Int :=
  (List.range p.cfg.nodes).map fun n => if p.excluded n then 0 else intAt (p.base.getD p.freqIdx []) n - intAt p.raw n

/-- The self delta of a drive line and of a sense line: raw minus baseline. -/
def Panel.selfD (p : Panel) (d : Nat) : Int := if p.exDrive.contains d then 0 else intAt p.rawD d - intAt (p.baseD.getD p.freqIdx []) d
def Panel.selfS (p : Panel) (k : Nat) : Int := if p.exSense.contains k then 0 else intAt p.rawS k - intAt (p.baseS.getD p.freqIdx []) k

/-- Two nodes touch by a side. -/
def besides (cols a b : Nat) : Bool :=
  (decide (a / cols = b / cols) && (decide (a + 1 = b) || decide (b + 1 = a)))
    || (decide (a % cols = b % cols) && (decide (a + cols = b) || decide (b + cols = a)))

/-- The 4-connected regions of the marked nodes. -/
def regionsOf (cols : Nat) (marked : List Nat) : List (List Nat) :=
  marked.foldl (fun (rs : List (List Nat)) n =>
    let parts := rs.partition fun r => r.any (besides cols n)
    (n :: parts.1.flatten) :: parts.2) []

/-- Indices around one, inside a range. -/
def around (i n : Nat) : List Nat := (if i = 0 then [] else [i - 1]) ++ [i] ++ (if i + 1 < n then [i + 1] else [])

/-- The nodes of the 3×3 block of a node, inside the panel. -/
def block3 (c : PanelCfg) (n : Nat) : List Nat :=
  (around (n / c.cols) c.rows).flatMap fun d => (around (n % c.cols) c.cols).map fun k => d * c.cols + k

/-- A node that no neighbour exceeds; of equal neighbours the one with the lower drive line, then the lower sense line. -/
def isPeak (c : PanelCfg) (dl : List Int) (n : Nat) : Bool :=
  (block3 c n).all fun m => decide (m = n) || decide (intAt dl m < intAt dl n) || (decide (intAt dl m = intAt dl n) && decide (n < m))

/-- Chebyshev distance of two nodes. -/
def chebyshev (cols a b : Nat) : Nat :=
  let f (x y : Nat) : Nat := (x - y) + (y - x)
  max (f (a / cols) (b / cols)) (f (a % cols) (b % cols))

/-- The largest of a list of signed numbers that is not empty. -/
def maxInt (l : List Int) : Int := l.foldl max (l.headD 0)

/-- SELF of a candidate: the lesser of the highest self deltas at its drive line and at its sense line. -/
def Panel.selfOf (p : Panel) (n : Nat) : Int :=
  min (maxInt ((around (n / p.cfg.cols) p.cfg.rows).map p.selfD)) (maxInt ((around (n % p.cfg.cols) p.cfg.cols).map p.selfS))

/-- A touch that a frame shows. -/
structure TouchHit where
  peak   : Nat
  delta  : Int
  self_  : Int
  cd     : Int
  cs     : Int
  region : List Nat
  deriving DecidableEq, Repr, Inhabited

/-- A centroid along one axis in 1/256 line, from the three sums of the peak's block (R492). Sums that add up to zero give no result:
the fraction is then the free value `free`. -/
def centroid (i : Nat) (lo mid hi free : Int) : Int :=
  let sum := lo + mid + hi
  (i : Int) * 256 + (if sum = 0 then free else Int.fdiv ((hi - lo) * 256) sum)

/-- The sum of a drive line, and of a sense line, of a peak's block; lines outside the panel count as 0. -/
def lineSumD (c : PanelCfg) (dl : List Int) (d : Int) (n : Nat) : Int :=
  if d < 0 ∨ (c.rows : Int) ≤ d then 0 else ((around (n % c.cols) c.cols).map fun k => intAt dl (d.toNat * c.cols + k)).sum
def lineSumS (c : PanelCfg) (dl : List Int) (k : Int) (n : Nat) : Int :=
  if k < 0 ∨ (c.cols : Int) ≤ k then 0 else ((around (n / c.cols) c.rows).map fun d => intAt dl (d * c.cols + k.toNat)).sum

/-- The touch at a peak of a region. -/
def Panel.hitAt (p : Panel) (dl : List Int) (free : Nat → Nat) (r : List Nat) (n : Nat) : TouchHit :=
  let c := p.cfg
  let d : Int := (n / c.cols : Nat)
  let k : Int := (n % c.cols : Nat)
  { peak := n, delta := intAt dl n, self_ := p.selfOf n, region := r
    cd := centroid (n / c.cols) (lineSumD c dl (d - 1) n) (lineSumD c dl d n) (lineSumD c dl (d + 1) n) (free (2 * n))
    cs := centroid (n % c.cols) (lineSumS c dl (k - 1) n) (lineSumS c dl k n) (lineSumS c dl (k + 1) n) (free (2 * n + 1)) }

/-- What TOUCH finds in a mutual frame (R490). -/
structure FrameFind where
  large   : List (List Nat)
  water   : List (List Nat)
  hits    : List TouchHit
  deriving DecidableEq, Repr, Inhabited

/-- The steps of R490 on the deltas of a frame. -/
def Panel.find (p : Panel) (dl : List Int) (free : Nat → Nat) : FrameFind :=
  let c := p.cfg
  let rs := regionsOf c.cols ((List.range c.nodes).filter fun n => decide (c.mutual ≤ intAt dl n))
  let large := rs.filter fun r => decide (c.largeNodes < r.length)
  let rest := rs.filter fun r => decide (r.length ≤ c.largeNodes)
  let good (n : Nat) : Bool := decide (c.self_ ≤ p.selfOf n)
  let peaks (r : List Nat) : List Nat := r.filter (isPeak c dl)
  let guarded (n : Nat) : Bool := large.any fun r => r.any fun m => decide (chebyshev c.cols n m ≤ c.guard)
  { large := large, water := rest.filter fun r => !((peaks r).any good)
    hits := rest.flatMap fun r => ((peaks r).filter fun n => good n && !guarded n).map (p.hitAt dl free r) }

/-! ### Contacts (R491, R492) -/

/-- The squared distance of a touch and a contact in 1/256 node. -/
def distance2 (h : TouchHit) (k : Contact) : Nat := ((h.cd - k.cd) * (h.cd - k.cd) + (h.cs - k.cs) * (h.cs - k.cs)).toNat

/-- The next match: the pair at the least distance, then with the lowest ID, then the lowest peak. -/
def nextMatch (ks : List Contact) (hs : List TouchHit) : Option (Nat × Nat × Nat × Nat) :=
  let better (a : Option (Nat × Nat × Nat × Nat)) (x : Nat × Nat × Nat × Nat) : Option (Nat × Nat × Nat × Nat) :=
    match a with
    | none => some x
    | some y => if x.1 < y.1 ∨ (x.1 = y.1 ∧ (x.2.1 < y.2.1 ∨ (x.2.1 = y.2.1 ∧ x.2.2.1 < y.2.2.1))) then some x else a
  (ks.flatMap fun k => (hs.filter fun h => decide (distance2 h k ≤ 2048 * 2048)).map fun h => (distance2 h k, k.id, h.peak, 0)).foldl better none

/-- The matches of the touches and the contacts of the previous report (`n` bounds them): contact ID and peak. -/
def matchAll : Nat → List Contact → List TouchHit → List (Nat × Nat)
  | 0, _, _ => []
  | n + 1, ks, hs =>
    match nextMatch ks hs with
    | none => []
    | some (_, id, peak, _) => (id, peak) :: matchAll n (ks.filter fun k => k.id ≠ id) (hs.filter fun h => h.peak ≠ peak)

/-- A coordinate along one axis, flipped where asked. -/
def coordinate (c256 : Int) (res lines : Nat) (flip : Bool) : Nat :=
  let v := Int.fdiv ((c256 + 128) * res) (256 * lines : Nat)
  let v := (max 0 (min v ((res : Int) - 1))).toNat
  if flip then res - 1 - v else v

/-- A contact at the place of a touch. -/
def Contact.moveTo (k : Contact) (c : PanelCfg) (h : TouchHit) (st : ContactSt) : Contact :=
  let d := h.peak / c.cols
  let e := h.peak % c.cols
  { k with
    st := st, cd := h.cd, cs := h.cs, signal := h.delta, self_ := h.self_, nodes := h.region, peak := h.peak
    x := if c.swapXy then coordinate h.cd c.resX c.rows c.flipX else coordinate h.cs c.resX c.cols c.flipX
    y := if c.swapXy then coordinate h.cs c.resY c.cols c.flipY else coordinate h.cd c.resY c.rows c.flipY
    edge := decide (d = 0) || decide (d + 1 = c.rows) || decide (e = 0) || decide (e + 1 = c.cols) }

/-- The touch of the largest delta, the lowest peak where they are equal, and the others. -/
def takeBest (hs : List TouchHit) : Option (TouchHit × List TouchHit) :=
  let best := hs.foldl (fun (a : Option TouchHit) h =>
    match a with | none => some h | some b => if b.delta < h.delta ∨ (b.delta = h.delta ∧ h.peak < b.peak) then some h else a) none
  best.map fun b => (b, hs.filter fun h => h.peak ≠ b.peak)

/-- The lowest ID from 0 to 15 that none of the contacts has. -/
def freeId (used : List Nat) : Option Nat := (List.range 16).find? fun i => !used.contains i

/-- New touches take the places left, in falling order of their delta: new contacts, and whether some touch found none (`n` bounds them). -/
def newContacts : Nat → PanelCfg → Nat → List TouchHit → List Nat → Nat → List Contact × Bool
  | 0, _, _, hs, _, _ => ([], !hs.isEmpty)
  | n + 1, c, now, hs, used, places =>
    match takeBest hs with
    | none => ([], false)
    | some (h, rest) =>
      if places = 0 then ([], true)
      else match freeId used with
        | none => ([], true)
        | some id =>
          let r := newContacts n c now rest (id :: used) (places - 1)
          ((({ Contact.reset with id := id, since := now } : Contact).moveTo c h .down) :: r.1, r.2)

/-- Contacts in rising ID order. -/
def byId (l : List Contact) : List Contact := (List.range 16).flatMap fun i => l.filter fun k => k.id = i

/-! ### Baselines (R495) -/

/-- A list of signed numbers with some places taken from another list. -/
def takeFrom (l new : List Int) (which : Nat → Bool) : List Int := l.zipIdx.map fun x => if which x.2 then intAt new x.2 else x.1

/-- The drive and sense lines of some nodes. -/
def Panel.onLine (p : Panel) (nodes : List Nat) (drive : Bool) (i : Nat) : Bool :=
  nodes.any fun n => decide ((if drive then n / p.cfg.cols else n % p.cfg.cols) = i)

/-- Contacts held for HOLD_MAX are absorbed: the nodes and electrodes of their regions take their raw values, and they end (R495). -/
def Panel.absorb (p : Panel) (now : Nat) : Panel :=
  let old (k : Contact) : Bool := decide (p.cfg.holdMax ≠ 0) && decide (k.since + p.cfg.holdMax * 1000000000 ≤ now)
  let gone := p.contacts.filter old
  if gone.isEmpty then p
  else
    let ns := gone.flatMap (·.nodes)
    { p with
      base := p.base.modify p.freqIdx fun (l : List Int) => takeFrom l p.raw ns.contains
      baseD := p.baseD.modify p.freqIdx fun (l : List Int) => takeFrom l p.rawD (p.onLine ns true)
      baseS := p.baseS.modify p.freqIdx fun (l : List Int) => takeFrom l p.rawS (p.onLine ns false)
      contacts := p.contacts.filter fun k => !old k
      ending := p.ending ++ gone.map fun k => { k with st := .absorbed }
      absorbed := sat 32 (p.absorbed + gone.length) }

/-- The runs of negative deltas after a frame, the places that reach a length, and the runs with those begun anew. -/
def negRuns (runs : List Nat) (deltas : List Int) (limit : Nat) (len : Nat) : List Nat × List Nat :=
  let r := (List.range deltas.length).map fun i => if intAt deltas i ≤ -(limit : Int) then runs.getD i 0 + 1 else 0
  ((r.zipIdx.filter fun x => decide (len ≤ x.1)).map (·.2), r.map fun n => if len ≤ n then 0 else n)

/-- EV_TOUCH of a panel (R498). -/
def State.touchEvent (s : State) (t kind detail seq offset : Nat) : State :=
  s.post (s.panel t).cfg.ring 0x8D00 0 (leBytes 1 t ++ leBytes 1 kind ++ leBytes 2 detail ++ leBytes 4 seq ++ leBytes 4 offset)

/-- Nodes or electrodes of a panel have been reset: EV_TOUCH REBASE at most once per second. -/
def State.rebased (s : State) (t n : Nat) : State :=
  if n = 0 then s
  else
    let s := s.modPanel t fun p => { p with resets := sat 32 (p.resets + n), rebaseN := p.rebaseN + n }
    if s.since (s.panel t).rebaseAt 1000000000 then
      (s.touchEvent t 1 (sat 16 (s.panel t).rebaseN) 0 0).modPanel t fun p => { p with rebaseAt := some s.tb.now, rebaseN := 0 }
    else s

/-! ### Reports (R497, R498) -/

/-- An entry of a report. -/
def Contact.entry (k : Contact) (glove : Bool) : List Byte :=
  leBytes 1 k.id ++ leBytes 1 (match k.st with | .down => 0 | .move => 1 | .up => 2 | .absorbed => 3) ++ leBytes 1 (b2n glove + 2 * b2n k.edge)
    ++ leBytes 1 0 ++ leBytes 2 k.x ++ leBytes 2 k.y ++ leBytes 2 (sat 16 k.signal.toNat) ++ leBytes 2 (sat 16 k.self_.toNat)
    ++ leBytes 2 k.nodes.length ++ leBytes 2 (sat 16 k.age)

/-- The range a large object takes along one axis, in output coordinates. -/
def boxRange (ns : List Nat) (res lines : Nat) (flip : Bool) : Nat × Nat :=
  let lo := (ns.min?.getD 0) * res / lines
  let hi := ((ns.max?.getD 0) + 1) * res / lines - 1
  if flip then (res - 1 - hi, res - 1 - lo) else (lo, hi)

/-- LARGE_BOX. -/
def PanelCfg.largeBox (c : PanelCfg) (large : List (List Nat)) : List Byte :=
  match large.foldl (fun (a : Option (List Nat)) r => match a with | none => some r | some b => if b.length < r.length then some r else a) none with
  | none => List.replicate 8 0
  | some r =>
    let ds := r.map (· / c.cols)
    let ks := r.map (· % c.cols)
    let x := if c.swapXy then boxRange ds c.resX c.rows c.flipX else boxRange ks c.resX c.cols c.flipX
    let y := if c.swapXy then boxRange ks c.resY c.cols c.flipY else boxRange ds c.resY c.rows c.flipY
    leBytes 2 x.1 ++ leBytes 2 y.1 ++ leBytes 2 x.2 ++ leBytes 2 y.2

/-- A report block. -/
def Panel.report (p : Panel) (t time flags : Nat) (f : FrameFind) (entries : List Contact) : List Byte :=
  layout 256 [(0, leBytes 1 t), (1, leBytes 1 entries.length), (2, leBytes 2 flags), (4, leBytes 4 p.seq.toNat), (8, leBytes 8 time),
    (0x10, p.cfg.largeBox f.large), (0x18, leBytes 2 ((f.water.map List.length).sum)), (0x1A, leBytes 2 (sat 16 p.noise)),
    (0x1C, leBytes 2 (p.cfg.freq.getD p.freqIdx 0)), (0x20, entries.flatMap fun k => k.entry p.cfg.glove)]

/-- A report goes into the region, and EV_TOUCH names it where it must (R497, R498). -/
def State.writeReport (s : State) (t flags : Nat) (f : FrameFind) (entries : List Contact) : State :=
  let p := s.panel t
  let off := p.cfg.repOffset + p.seq.toNat % max 1 p.cfg.repBlocks * 256
  let block := p.report t s.tb.dev flags f entries
  let w := p.cfg.window
  let s := if s.winOk w (p.owner.getD 0) && s.winSpan w off 256 true then s.winWrite w off block
    else s.logRefused islTouch (p.owner.getD 0) ((s.window w).base + off) true
  let s := s.modPanel t fun q => { q with seq := q.seq + 1, reports := sat 32 (q.reports + 1), lastFlags := BitVec.ofNat 16 flags }
  if p.cfg.every || entries.any fun k => decide (k.st ≠ .move) then s.touchEvent t 0 entries.length p.seq.toNat off else s

/-- FLAGS of a report. -/
def Panel.flags (p : Panel) (now : Nat) (f : FrameFind) (overflow hop : Bool) : Nat :=
  b2n overflow + 2 * b2n (!f.large.isEmpty) + 4 * b2n (!f.water.isEmpty) + 8 * b2n p.cfg.glove + 16 * b2n hop
    + 32 * b2n (decide (now < p.reportAt + 1000000000)) + 64 * b2n (!p.exDrive.isEmpty || !p.exSense.isEmpty)

/-- A mutual frame handled: what it finds, the contacts after it, and its report. -/
def State.mutualFrame (s : State) (t : Nat) : State :=
  let p := s.panel t
  let dl := p.deltas
  let f := p.find dl fun i => Config.freeNat (s.tb.freeCtr + i)
  let s := { s with tb := { s.tb with freeCtr := s.tb.freeCtr + 2 * p.cfg.nodes } }
  let pairs := matchAll 16 p.contacts f.hits
  let hitOf (id : Nat) : Option TouchHit := (pairs.find? fun x => x.1 = id).bind fun x => f.hits.find? fun h => h.peak = x.2
  let moved := p.contacts.filterMap fun k => (hitOf k.id).map fun h => { k.moveTo p.cfg h .move with age := sat 16 (k.age + 1) }
  let lifted := (p.contacts.filter fun k => (hitOf k.id).isNone).map fun k => { k with st := .up }
  let ended := (p.ending ++ lifted).map fun (k : Contact) => { k with age := sat 16 (k.age + 1) }
  let fresh := f.hits.filter fun h => !(pairs.any fun x => x.2 = h.peak)
  let new := newContacts 16 p.cfg s.tb.now fresh (moved.map (·.id) ++ ended.map (·.id)) (10 - (moved.length + ended.length))
  let contacts := byId (moved ++ new.1)
  let neg := negRuns p.negRun dl p.cfg.negThresh 5
  let flags := p.flags s.tb.now f new.2 p.hop
  let due := !contacts.isEmpty || !ended.isEmpty || decide (flags / 64 * 64 + flags % 32 ≠ p.lastFlags.toNat / 64 * 64 + p.lastFlags.toNat % 32)
  let s := s.modPanel t fun q => { q with
    base := q.base.modify q.freqIdx fun (l : List Int) => takeFrom l q.raw neg.1.contains
    negRun := neg.2, held := contacts.flatMap (·.nodes) ++ f.large.flatten ++ f.water.flatten, contacts := contacts, ending := [], hop := false
    waterFrames := sat 32 (q.waterFrames + b2n (!f.water.isEmpty)), largeFrames := sat 32 (q.largeFrames + b2n (!f.large.isEmpty)) }
  let s := if due then s.writeReport t flags f (byId (contacts ++ ended)) else s
  s.rebased t neg.1.length

/-- Pointwise sums of two lists of a length. -/
def addLists (n : Nat) (a b : List Int) : List Int := (List.range n).map fun i => intAt a i + intAt b i

/-- A panel of this part scans: RUNNING, on the active part, with TOUCH in service. -/
def State.panelRuns (s : State) (t : Nat) : Bool := decide (t < 4) && decide ((s.panel t).st = .running) && !(s.island islTouch).isolated

/-- The settings a folio left for the next mutual frame apply from it (R486). -/
def Panel.settle (p : Panel) : Panel := { p with cfg := p.next.getD p.cfg, next := none }

/-- MUTUAL_FRAME_END: a mutual frame ends; while a rebase learns, it is only summed (R490, R496). -/
def execMutualFrameEnd (dt t : Nat) (raw : List Int) (s : State) : Out :=
  let s := s.elapse dt
  if !s.panelRuns t then .next s
  else
    let s := s.modPanel t fun p => { p.settle with raw := raw }
    let p := s.panel t
    if p.learn = 1 ∨ p.learn = 2 then
      .next (s.modPanel t fun p => { p with learnSum := addLists p.cfg.nodes p.learnSum raw, learnN := p.learnN + 1 })
    else .next ((s.modPanel t fun p => p.absorb s.tb.now).mutualFrame t)

/-- A self frame's electrodes with long negative runs take their raw values (R495). -/
def State.selfFrame (s : State) (t : Nat) : State :=
  let p := s.panel t
  let d := negRuns p.negRunD ((List.range p.cfg.rows).map p.selfD) p.cfg.negThresh 3
  let k := negRuns p.negRunS ((List.range p.cfg.cols).map p.selfS) p.cfg.negThresh 3
  (s.modPanel t fun p => { p with
    baseD := p.baseD.modify p.freqIdx fun (l : List Int) => takeFrom l p.rawD d.1.contains
    baseS := p.baseS.modify p.freqIdx fun (l : List Int) => takeFrom l p.rawS k.1.contains
    negRunD := d.2, negRunS := k.2 }).rebased t (d.1.length + k.1.length)

/-- SELF_FRAME_END (R488, R495). -/
def execSelfFrameEnd (dt t : Nat) (drive sense : List Int) (s : State) : Out :=
  let s := s.elapse dt
  if !s.panelRuns t then .next s
  else
    let s := s.modPanel t fun p => { p with rawD := drive, rawS := sense }
    let p := s.panel t
    if p.learn = 1 ∨ p.learn = 2 then
      .next (s.modPanel t fun p => { p with
        learnD := addLists p.cfg.rows p.learnD drive, learnS := addLists p.cfg.cols p.learnS sense, learnM := p.learnM + 1 })
    else .next ((s.modPanel t fun p => p.absorb s.tb.now).selfFrame t)

/-- One count toward the raw value. -/
def stepToward (base raw : Int) : Int := if base < raw then base + 1 else if raw < base then base - 1 else base

/-- Baselines with some places moved one count toward the raw values. -/
def drifted (l raw : List Int) (moves : Nat → Bool) : List Int :=
  l.zipIdx.map fun x => if moves x.2 && decide (x.2 < raw.length) then stepToward x.1 (intAt raw x.2) else x.1

/-- BASELINE_DRIFT: every DRIFT ms, what is not held moves one count toward the raw value (R495). -/
def execBaselineDrift (dt t : Nat) (s : State) : Out :=
  let s := s.elapse dt
  if !s.panelRuns t ∨ (s.panel t).learn ≠ 0 then .next s
  else
    let drift (p : Panel) : Panel :=
      let ns := p.contacts.flatMap (·.nodes)
      { p with
        base := p.base.modify p.freqIdx fun (l : List Int) => drifted l p.raw fun n => !p.held.contains n
        baseD := p.baseD.modify p.freqIdx fun (l : List Int) => drifted l p.rawD fun i => !p.onLine ns true i
        baseS := p.baseS.modify p.freqIdx fun (l : List Int) => drifted l p.rawS fun i => !p.onLine ns false i }
    .next (s.modPanel t fun p => drift (p.absorb s.tb.now))

/-! ### Cycles and noise (R488, R489, R496) -/

/-- What two cycles of a rebase have learnt is the baseline at every candidate frequency. -/
def Panel.learnt (p : Panel) : Panel :=
  let mean (l : List Int) (n : Nat) : List Int := l.map fun v => Int.fdiv v n
  { p with
    learn := 0, negRun := [], negRunD := [], negRunS := []
    base := if p.learnN = 0 then p.base else List.replicate 4 (mean p.learnSum p.learnN)
    baseD := if p.learnM = 0 then p.baseD else List.replicate 4 (mean p.learnD p.learnM)
    baseS := if p.learnM = 0 then p.baseS else List.replicate 4 (mean p.learnS p.learnM) }

/-- SCAN_CYCLE: a cycle starts; a rebase waits for it, runs for two cycles, and ends with the one after (R488, R496). -/
def execScanCycle (dt t : Nat) (s : State) : Out :=
  let s := s.elapse dt
  if !s.panelRuns t then .next s
  else .next (s.modPanel t fun p =>
    let p := { p with cycleAt := some s.tb.now, hopped := false }
    match p.learn with
    | 0 => p
    | 1 => p.learnt
    | 2 => { p with learn := 1 }
    | _ => { p with learn := 2, learnSum := [], learnD := [], learnS := [], learnN := 0, learnM := 0 })

/-- The index of the least of some numbers, the lowest where they are equal. -/
def quietest (noise : List Nat) (not : Option Nat) : Option Nat :=
  (List.range 4).foldl (fun (a : Option Nat) i =>
    if not = some i then a
    else match a with | none => some i | some j => if noise.getD i 0 < noise.getD j 0 then some i else a) none

/-- NOISE_LISTEN_END: the front-end may move to the quietest alternate, once per cycle (R489). -/
def execNoiseListenEnd (dt t : Nat) (noise : List Nat) (s : State) : Out :=
  let s := s.elapse dt
  if !s.panelRuns t then .next s
  else
    let p := s.panel t
    let here := noise.getD p.freqIdx 0
    let s := s.modPanel t fun p => { p with noise := here }
    match quietest noise (some p.freqIdx) with
    | some j =>
      if p.cfg.noiseLimit < here ∧ 2 * noise.getD j 0 ≤ here ∧ !p.hopped then
        .next ((s.modPanel t fun p => { p with
          freqIdx := j, noise := noise.getD j 0, hop := true, hopped := true, hops := sat 32 (p.hops + 1) }).touchEvent t 3 (p.cfg.freq.getD j 0) 0 0)
      else .next s
    | none => .next s

/-! ### TOUCH_PANEL, TOUCH_REBASE, TOUCH_STATE (R485, R486, R494, R496, R500) -/

/-- The settings a TOUCH_PANEL asks for. -/
def panelCfgOf (c : FCtx) : PanelCfg :=
  let u := c.u
  let fl := u 0x14 1
  { rows := u 0x12 1, cols := u 0x13 1, glove := bitOf fl 0, swapXy := bitOf fl 1, flipX := bitOf fl 2, flipY := bitOf fl 3, every := bitOf fl 4
    driveV := u 0x15 1, ring := c.ev (u 0x16 1), window := u 0x17 1, repOffset := u 0x18 4, repBlocks := u 0x1C 4
    freq := (List.range 4).map fun i => u (0x20 + 2 * i) 2
    mutThresh := u 0x28 2, selfThresh := u 0x2A 2, gloveMut := u 0x2C 2, gloveSelf := u 0x2E 2, negThresh := u 0x30 2, largeNodes := u 0x32 1
    guard := u 0x33 1, resX := u 0x34 2, resY := u 0x36 2, holdMax := u 0x38 2, drift := u 0x3A 2, noiseLimit := u 0x3C 2 }

/-- A number lies in a range. -/
def within (lo hi v : Nat) : Bool := decide (lo ≤ v) && decide (v ≤ hi)

/-- The settings are in range (R486). -/
def PanelCfg.ok (c : PanelCfg) : Bool :=
  within 8 112 c.rows && decide (c.rows % 8 = 0) && within 8 64 c.cols && decide (c.driveV < 3) && decide (c.ring % 256 < 32) && decide (c.window < 8)
    && decide (c.repOffset % 256 = 0) && within 16 65536 c.repBlocks && c.freq.all (within 100 500)
    && [c.mutThresh, c.selfThresh, c.gloveMut, c.gloveSelf, c.negThresh].all (within 16 4095) && within 4 255 c.largeNodes && decide (c.guard ≤ 8)
    && within 1 16384 c.resX && within 1 16384 c.resY && (decide (c.holdMax = 0) || within 10 7200 c.holdMax) && within 10 10000 c.drift
    && within 1 4095 c.noiseLimit

/-- A change that restarts a running panel. -/
def PanelCfg.restarts (a b : PanelCfg) : Bool :=
  decide (a.rows ≠ b.rows) || decide (a.cols ≠ b.cols) || decide (a.driveV ≠ b.driveV) || decide (a.freq ≠ b.freq)

/-- A panel starts, or starts again: its contacts end, and its baseline is learnt afresh. SEQ counts from the start of the panel. -/
def Panel.start (p : Panel) (cfg : PanelCfg) (owner : Nat) (standby : Bool) : Panel :=
  let again := decide (p.st = .running) || decide (p.st = .starting)
  { Panel.reset with
    st := if standby then .standby else .starting, owner := some owner, cfg := cfg
    seq := if again then p.seq else 0
    ending := if again then p.ending ++ p.contacts.map (fun k => { k with st := .up }) else []
    reports := p.reports, resets := p.resets, absorbed := p.absorbed, waterFrames := p.waterFrames, largeFrames := p.largeFrames, hops := p.hops }

/-- A panel is switched off; its counters stay. -/
def Panel.stop (p : Panel) : Panel :=
  { Panel.reset with reports := p.reports, resets := p.resets, absorbed := p.absorbed, waterFrames := p.waterFrames, largeFrames := p.largeFrames, hops := p.hops }

/-- TOUCH_PANEL's effect on a panel: OFF, a start, a restart, or settings for the next mutual frame. -/
def Panel.configure (p : Panel) (on_ : Bool) (cfg : PanelCfg) (colour : Nat) (standby : Bool) : Panel :=
  if !on_ then p.stop
  else if p.st = .off ∨ p.st = .failed ∨ (p.next.getD p.cfg).restarts cfg then p.start cfg colour standby
  else { p with next := some cfg }

/-- TOUCH_PANEL. -/
def bodyTouchPanel (c : FCtx) (s : State) : FRes :=
  let t := c.u 0x10 1
  let mode := c.u 0x11 1
  let cfg := panelCfgOf c
  let p := s.panel t
  let blocks := cfg.repBlocks * 256
  .checks [(decide (t < 4) && decide (mode < 2) && cfg.ok && decide (c.u 0x14 1 < 32) && decide (c.u 0x3E 2 = 0), .param),
      (p.owner = none || p.owner = some c.colour, .colour), (evOk c s (c.u 0x16 1), .colour),
      (decide (mode = 0) || (s.winOk cfg.window c.colour && s.winSpan cfg.window cfg.repOffset blocks true), .colour),
      (decide (mode = 0) || decide (s.role ≠ 2), .state)] s <|
    .ok (s.modPanel t fun p => p.configure (decide (mode = 1)) cfg c.colour false)

/-- TOUCH_PANEL (R486). -/
def execTouchPanel (dt ring : Nat) (s : State) : Out := .next ((s.elapse dt).runFolio ring 0x0D00 bodyTouchPanel)

/-- PANEL_START: the line test, the noise survey and the learning of the baselines are over (R494). -/
def execPanelStart (dt t : Nat) (openDrive openSense noise : List Nat) (base : List BaseIn) (s : State) : Out :=
  let s := s.elapse dt
  let p := s.panel t
  if 4 ≤ t ∨ p.st ≠ .starting ∨ (s.island islTouch).isolated then .next s
  else
    let ds := (List.range p.cfg.rows).filter openDrive.contains
    let ks := (List.range p.cfg.cols).filter openSense.contains
    let s := s.modPanel t fun p => { p with exDrive := ds, exSense := ks }
    let s := ds.foldl (fun u d => u.touchEvent t 2 d 0 0) s
    let s := ks.foldl (fun u k => u.touchEvent t 2 (0x8000 + k) 0 0) s
    if 16 < ds.length + ks.length then .next ((s.touchEvent t 4 (ds.length + ks.length) 0 0).modPanel t fun p => { p with st := .failed, ending := [] })
    else
      let j := (quietest noise none).getD 0
      .next (s.modPanel t fun p => { p with
        st := .running, freqIdx := j, noise := noise.getD j 0, reportAt := s.tb.now, learn := 0
        base := (List.range 4).map fun i => (base.getD i default).nodes, baseD := (List.range 4).map fun i => (base.getD i default).drive
        baseS := (List.range 4).map fun i => (base.getD i default).sense })

/-- TOUCH_REBASE. -/
def bodyTouchRebase (c : FCtx) (s : State) : FRes :=
  let t := c.u 0x10 1
  let p := s.panel t
  .checks [(decide (t < 4), .param), (p.owner = none || p.owner = some c.colour, .colour), (decide (p.st = .running), .state)] s <|
    .ok (s.modPanel t fun p => { p with
      ending := p.ending ++ p.contacts.map (fun k => { k with st := .absorbed }), contacts := [], held := [], learn := 3
      absorbed := sat 32 (p.absorbed + p.contacts.length) })

/-- TOUCH_REBASE (R496). -/
def execTouchRebase (dt ring : Nat) (s : State) : Out := .next ((s.elapse dt).runFolio ring 0x0D01 bodyTouchRebase)

/-- Bits of a list of numbers. -/
def electrodeBits (l : List Nat) : Nat := l.foldl (fun (a : Nat) i => a ||| 2 ^ i) 0

/-- The block of TOUCH_STATE. -/
def Panel.block (p : Panel) : List Byte :=
  layout 256 [(0, leBytes 1 (match p.st with | .off => 0 | .starting => 1 | .running => 2 | .standby => 3 | .failed => 4)),
    (1, leBytes 1 (p.owner.getD 0xFF)), (2, leBytes 1 p.freqIdx), (3, leBytes 1 (p.exDrive.length + p.exSense.length)), (4, leBytes 4 p.reports),
    (8, leBytes 4 p.resets), (0x0C, leBytes 4 p.absorbed), (0x10, leBytes 4 p.waterFrames), (0x14, leBytes 4 p.largeFrames),
    (0x18, leBytes 4 p.hops), (0x1C, leBytes 1 p.contacts.length), (0x20, leBytes 14 (electrodeBits p.exDrive)), (0x30, leBytes 8 (electrodeBits p.exSense))]

/-- TOUCH_STATE. -/
def bodyTouchState (c : FCtx) (s : State) : FRes :=
  let t := c.u 0x11 1
  let p := s.panel t
  let k := blockChecks c s (c.u 0x12 1) (c.u 0x14 4) 256
  .checks ((decide (t < 4), .param) :: k.take 1 ++ [(p.owner = none || p.owner = some c.colour, .colour)] ++ k.drop 1) s <|
    writeBlock s (c.u 0x12 1) (c.u 0x14 4) p.block

/-- TOUCH_STATE (R500). -/
def execTouchState (dt ring : Nat) (s : State) : Out := .next ((s.elapse dt).runFolio ring 0x0D02 bodyTouchState)

end Sys2Proof.Machine
end

