-- ==== Sys2Proof/Machine/Fabric.lean ====
section
/-!
DEFINITION. Crossings between islands, and islands isolated and returned (01_architecture.md R23–R37; 17_faults_replay.md R566).
-/

namespace Sys2Proof.Machine

/-! ### An island goes out (R566) -/

/-- The registers of a quad as the reset of its island leaves them (R24); the totals that firmware keeps stay. -/
def Quad.islandReset (u : Quad) : Quad :=
  { Quad.reset with
    totPll := u.totPll
    lane := u.lane.map fun (x : Lane) => { Lane.reset with
      totErrors := x.totErrors, totInjected := x.totInjected, totCode := x.totCode, totCdr := x.totCdr, totRefresh := x.totRefresh
      totBits := x.totBits, ev := x.ev } }

/-- The quads of an island, reset with it (R24). -/
def State.resetQuads (s : State) (i : Nat) : State :=
  ((List.range 13).filter fun q => quadIsland q = i).foldl (fun (t : State) q => t.modQuad q Quad.islandReset) s

/-- A ring as a reset of HOST leaves it: disabled as a write of 0 to ENABLE would (R328, R612). -/
def State.hostRing (s : State) (k : Nat) : State :=
  let r := s.ring k
  if r.state = .disabled ∨ r.state = .draining then s
  else if k < 32 then (s.modRing k fun x => { x with enable := false, state := .draining }).drained k
  else s.modRing k fun x => { x with enable := false, state := .disabled }

/-- HOST as its reset leaves it: its crossings cut, every ring disabled, the host end of the mailboxes reset, and the endpoint's interrupt table
and sources as after reset (R35, R36, R442, R612). -/
def State.hostReset (s : State) : State :=
  let s := ((List.range 128).foldl State.hostRing (s.cutCrossings islHost)).hostEndReset
  let sent (v : MsixVector) : MsixVector := { MsixVector.reset with sent := v.sent }
  { s with host := { s.host with msix := s.host.msix.map sent, irq := HostIf.reset.irq } }

/-- What COMP held on its way to the heads is lost with it: what it had fetched and not yet handed over is not ready (R82, R566). -/
def Scan.compLost (k : Scan) : Scan :=
  { k with
    checks := k.checks.map fun (c : LeafCheck) => if c.checked then c else { c with fetched := false, poisoned := false, notReady := true }
    bands := k.bands.map fun (b : Band) => { b with delivered := false, px := [] } }

/-- The reset of an island that is neither an engine, an encoder nor a head: what it holds of its own (R24, R566; what firmware holds for it stays,
DESIGN CHOICE, log entry 36). HOST's rings and tables, SEC's staged words, the leaves COMP has fetched, SVC's contexts and TOUCH's contacts go. -/
def State.unitReset (s : State) (i : Nat) : State :=
  if i = islHost then s.hostReset
  else if i = islSec then { s with sec := { s.sec with actIndex := 0, actWord0 := 0, actWord1 := 0 } }
  else if i = islComp then
    { s with comp := { s.comp with head := s.comp.head.map fun (x : Head) => { x with cur := x.cur.map Scan.compLost, next := x.next.map Scan.compLost } } }
  else if i = islSvc then
    { s with svc := { s.svc with cv := s.svc.cv.map fun (u : CvUnit) =>
      { u with context := BitVec.ofNat 64 (cvInit u.poly), lastAlive := none, txAlive := 0 } } }
  else if i = islTouch then
    { s with desk := { s.desk with panel := s.desk.panel.map fun (p : Panel) =>
      if p.st = .running ∨ p.st = .starting then p.start p.cfg (p.owner.getD 0) false else p } }
  else s

/-- What an island's going out does beyond its crossings: an encoder's sessions move, a head's port is told, NET's ports and SPINE's
links go down, the others lose what they hold, and the registers of its quads are reset. -/
def State.unitOut (s : State) (i : Nat) : State :=
  if 11 ≤ i ∧ i ≤ 12 then s.moveSessions (i - 11)
  else if 14 ≤ i ∧ i ≤ 29 then
    (match (s.head (i - 14)).timing.port with
      | some p => if (s.head (i - 14)).st = HeadSt.off then s else s.postPort p 0
      | none => s)
  else if i = islNet then ((List.range 4).foldl (fun (t : State) p => if (t.port p).link then t.setLink p false else t) s).resetQuads i
  else if i = islSpine then ((List.range 3).foldl (fun (t : State) l => t.linkLost l) s).resetQuads i
  else (s.unitReset i).resetQuads i

/-- Each island that has come to be isolated goes out, and each lane that has come to be lost is reported. -/
def State.goesOut (s before : State) : State :=
  let s := s.reportLost before
  ((List.range 43).filter fun i => (s.island i).isolated && !(before.island i).isolated).foldl State.unitOut s

/-- One event of a fault source, with all that a lasting fault brings about. -/
def State.faultOut (s : State) (src island unit key detail : Nat) : State := (s.fault src island unit key detail).goesOut s

/-! ### Crossings (R25–R33) -/

/-- A crossing between two islands; one that has carried nothing yet is empty. -/
def State.crossing (s : State) (snd rcv : Nat) : Crossing :=
  (s.fab.xing.find? fun (x : Crossing) => decide (x.snd = snd) && decide (x.rcv = rcv)).getD { Crossing.reset with snd := snd, rcv := rcv }

/-- A crossing replaced. -/
def State.setCrossing (s : State) (x : Crossing) : State :=
  { s with fab := { s.fab with
    xing := x :: s.fab.xing.filter fun (y : Crossing) => !(decide (y.snd = x.snd) && decide (y.rcv = x.rcv)) } }

/-- Both ends of a crossing run. -/
def State.endsRun (s : State) (snd rcv : Nat) : Bool :=
  decide (snd < 43) && decide (rcv < 43) && decide (snd ≠ rcv) && !(s.island snd).isolated && !(s.island rcv).isolated
    && decide ((s.island snd).power = .run) && decide ((s.island rcv).power = .run)

/-- Blocks are delivered in the order they were sent: every leading block that is here goes to the consumer (R29). -/
def deliverLeading : List XBlock → List XBlock × List (Nat × Bool)
  | [] => ([], [])
  | b :: l =>
    if b.delivered then ((b :: (deliverLeading l).1), (deliverLeading l).2)
    else if b.here then ({ b with delivered := true } :: (deliverLeading l).1, (b.place, b.poisoned) :: (deliverLeading l).2)
    else (b :: l, [])

/-- The receiver hands on what it can. -/
def Crossing.deliver (x : Crossing) : Crossing :=
  let r := deliverLeading x.unacked
  { x with unacked := r.1, consumed := r.2.reverse ++ x.consumed }

/-- A copy of a block at the receiver: good, asked for again, or poisoned with the fourth bad copy (R28). -/
def XBlock.judge (b : XBlock) (good : Bool) : XBlock :=
  if good then { b with here := true } else if b.asks < 3 then { b with asks := b.asks + 1 } else { b with here := true, poisoned := true }

/-- A copy that arrives, on its crossing: the next block of the sender, or a re-send of one asked for. A good copy brings its payload and check
value (R26); a block that ends poisoned keeps those of its first copy, for the spec names none (DESIGN CHOICE, log entry 63). -/
def Crossing.arrive (x : Crossing) (place : Nat) (payload : List Byte) (crc : BitVec 32) (now : Nat) : Crossing :=
  let good := decide (payload.length = 256) && decide (crc32c payload = crc)
  let fresh := decide (place = x.next)
  let unacked := if fresh then x.unacked ++ [{ XBlock.reset with place := place, payload := payload, crc := crc }] else x.unacked
  let old := (unacked.find? fun (b : XBlock) => b.place = place).getD XBlock.reset
  let new := old.judge good
  let hit := new.poisoned && !old.poisoned
  let x := { x with
    unacked := unacked.map fun (b : XBlock) =>
      if b.place = place then { new with payload := if good then payload else b.payload, crc := if good then crc else b.crc } else b
    next := if fresh then x.next + 1 else x.next
    resends := sat 32 (x.resends + (if good then old.asks else 0))
    poisonedCount := sat 32 (x.poisonedCount + b2n hit), faults := sat 32 (x.faults + b2n hit), lastPoison := if hit then now else x.lastPoison }
  x.deliver

/-- A copy of a block is one the receiver waits for: the next block, with fewer than 16 unacknowledged, or one it has asked for. -/
def Crossing.awaits (x : Crossing) (place : Nat) : Bool :=
  (decide (place = x.next) && decide (x.unacked.length < 16)) || x.unacked.any fun (b : XBlock) => decide (b.place = place) && !b.here

/-- BLOCK_ARRIVE: the receiver checks the block's CRC-32C (R28); a block that ends poisoned is a fault event of the crossing (R566). -/
def execBlockArrive (dt snd rcv place : Nat) (payload : List Byte) (crc : BitVec 32) (s : State) : Out :=
  let s := s.elapse dt
  let x := s.crossing snd rcv
  if !s.endsRun snd rcv || !x.awaits place then .next s
  else
    let y := x.arrive place payload crc s.tb.dev
    let s := s.setCrossing y
    .next (if x.poisonedCount < y.poisonedCount then s.faultOut 0 snd rcv 0 0 else s)

/-- BLOCK_ACK: the sender drops its copy of the oldest block, once it is delivered: blocks are delivered, and so acknowledged, in the order they
were sent (R29, R30). -/
def execBlockAck (dt snd rcv place : Nat) (s : State) : Out :=
  let s := s.elapse dt
  let x := s.crossing snd rcv
  match x.unacked with
  | b :: rest => .next (if b.place = place ∧ b.delivered then s.setCrossing { x with unacked := rest } else s)
  | [] => .next s

/-! ### Isolation and return (R35, R36, R566) -/

/-- ISLAND_ISOLATE: an island is isolated or reset on its own; CTRL restarts instead (R362). -/
def execIslandIsolate (dt island : Nat) (s : State) : Out :=
  let s := s.elapse dt
  if !isolatable island || (s.island island).isolated then .next s
  else if island = islCtrl then .next s.ctrlFault
  else .next ((s.isolate island).unitOut island)

/-- An island that passed its self-test is back: encoders take sessions again, a head starts a new frame, and the quads of NET, SPINE and HOST take
the states their users want. -/
def State.unitBack (s : State) (i : Nat) : State :=
  let s := s.islandBack i
  if 11 ≤ i ∧ i ≤ 12 then s.encoderReturns (i - 11)
  else if 14 ≤ i ∧ i ≤ 29 then s.headReturns (i - 14)
  else if i = islNet then s.quadUser 8
  else if i = islSpine then [9, 10, 11].foldl State.quadUser s
  else if i = islHost then (if s.host.perst then s else (List.range 4).foldl (fun (t : State) l => t.setLane 12 l (.active, .active)) s)
  else s

/-- ISLAND_RETURN: the reset and self-test of an isolated island end; one that fails, or that a lasting fault keeps out, stays isolated. -/
def execIslandReturn (dt island : Nat) (passed : Bool) (s : State) : Out :=
  let s := s.elapse dt
  if !(s.island island).isolated || (s.island island).barred then .next s
  else if 3 ≤ island ∧ island ≤ 10 then .next (s.engineTested (island - 3) passed)
  else if passed then .next ((s.unitBack island).refreshFaults)
  else .next (s.fault 3 island 0 0 0)

end Sys2Proof.Machine
end

