-- ==== Sys2Proof/Machine/Power.lean ====
section
/-!
DEFINITION. Clocks and their supervision, island operating points and power states, supplies and temperature
(15_clocks_power_ageing.md R515–R536, R541–R544; 18_package_startup.md R608–R611, R618).
-/

namespace Sys2Proof.Machine

/-! ### Clock start (R518–R520, R606, R610) -/

/-- Supplies in mV, in the order of R533. -/
def railNominal : List Nat := [950, 850, 1200, 1050, 900, 500, 1800, 3300, 12000, 1800]

/-- SUPPLY_GOOD: every rail has been in its operating range for 2 ms. A rail last read below its range reads its nominal value
(DESIGN CHOICE, log entry 44). -/
def execSupplyGood (dt : Nat) (s : State) : Out :=
  let s := s.elapse dt
  let back (x : Nat × Nat) : Nat := if x.1 * 1000 < x.2 * 975 then x.2 else x.1
  let p : Power := { s.pwr with supplyGood := true, rail := (s.pwr.rail.zip railNominal).map back }
  .next { s with pwr := if s.pwr.supplyGood then p else { p with startAt := s.tb.now, judgedAt := none } }

/-- The lanes of Q12, which PCIe gives their states (R545, R612). -/
def State.pcieLanes (s : State) (st : TxSt × RxSt) : State := (List.range 4).foldl (fun (t : State) l => t.setLane 12 l st) s

/-- T_X of the board fuse in ns (R517). -/
def crystalDelay (code : Nat) : Nat := if code = 0 then 20000000 else 2 ^ (min code 8 - 1) * 1000000

/-- Three consecutive windows of a judge each count in range, and no two of them differ too much (R518, R519). -/
def threeGood (ok : Nat → Bool) (near : Nat → Nat → Bool) : List Nat → Bool
  | a :: b :: c :: l => (ok a && ok b && ok c && near a b && near b c && near a c) || threeGood ok near (b :: c :: l)
  | _ => false

/-- FOSC is good: counts over 64 SOSC cycles from 337,358 to 455,729, no two more than 1 % of the smaller apart (R518; DESIGN CHOICE, log entry 80). -/
def foscJudge (counts : List Nat) : Bool :=
  threeGood (fun n => decide (337358 ≤ n) && decide (n ≤ 455729)) (fun a b => decide ((max a b - min a b) * 100 ≤ min a b)) counts

/-- A crystal is good: edges over 65,536 FOSC cycles from 7,780 to 8,650, no two counts more than 4 apart (R519). -/
def crystalJudge (counts : List Nat) : Bool :=
  threeGood (fun n => decide (7780 ≤ n) && decide (n ≤ 8650)) (fun a b => decide (max a b - min a b ≤ 4)) counts

/-- The crystals of a part whose supplies are good may be judged: for the first time T_X after their drivers started, again every 100 ms (R518–R520). -/
def State.mayJudge (s : State) (again : Bool) : Bool :=
  s.pwr.held && s.pwr.supplyGood && !s.pwr.tripped && (match s.pwr.judgedAt with
    | none => !again && decide (s.pwr.startAt + crystalDelay s.pwr.delay.toNat ≤ s.tb.now)
    | some t => again && decide (t + 100000000 ≤ s.tb.now))

/-- The straps, sampled as device reset is released; until the next device reset a change of them has no effect (R606). -/
def State.sampleStraps (s : State) (x : StrapIn) : State :=
  { s with
    top := { s.top with gatherId := x.gatherId }, twin := { s.twin with secondary := x.secondary }, pwr := { s.pwr with bootHold := x.bootHold } }

/-- Clock start: FOSC and the crystals are judged; with a reference the PLLs lock, the straps are sampled and device reset is released (R520). -/
def State.judgeClocks (s : State) (again : Bool) (fosc xa xb : List Nat) (straps : StrapIn) : State :=
  if !s.mayJudge again then s
  else
    let p : Power := { s.pwr with judgedAt := some s.tb.now, foscGood := foscJudge fosc }
    if !p.foscGood then { s with pwr := p }
    else
      let p : Power := { p with xa := { good := crystalJudge xa, stopped := false }, xb := { good := crystalJudge xb, stopped := false } }
      if !p.xa.good && !p.xb.good then { s with pwr := p }
      else
        let s : State := { s with pwr := { p with clkRef := if p.xa.good then 1 else 2, failover := !p.xa.good, held := false } }
        let s := s.sampleStraps straps
        if s.host.perst then s else s.pcieLanes (.active, .active)

/-- CLOCK_START (R520). -/
def execClockStart (dt : Nat) (fosc : List Nat) (crystals : CrystalIn) (straps : StrapIn) (s : State) : Out :=
  .next ((s.elapse dt).judgeClocks false fosc crystals.xa crystals.xb straps)

/-- CLOCK_JUDGE_RETRY: every 100 ms while FOSC is not good or both crystals have failed (R518, R520). -/
def execClockJudgeRetry (dt : Nat) (fosc : List Nat) (crystals : CrystalIn) (straps : StrapIn) (s : State) : Out :=
  .next ((s.elapse dt).judgeClocks true fosc crystals.xa crystals.xb straps)

/-! ### Supervision and fail-over (R521–R523) -/

/-- A crystal stops or has failed: it is no longer good, and is the reference no longer. The other, where it is good, becomes the
reference; else the device resets itself. -/
def State.crystalLost (s : State) (b stopped : Bool) : State :=
  let bad (x : Crystal) : Crystal := { good := false, stopped := x.stopped || stopped }
  let p := s.pwr
  let p : Power := if b then { p with xb := bad p.xb } else { p with xa := bad p.xa }
  let s := { s with pwr := p }
  if s.pwr.clkRef ≠ (if b then 2 else 1) then s
  else if (if b then p.xa.good else p.xb.good) then
    let s := { s with pwr := { s.pwr with clkRef := if b then 1 else 2, failover := true } }
    (s.powerEvent 0 0xFF 0 true).fault 8 0xFF 0 0 0
  else s.deviceReset

/-- CRYSTAL_STOP: a crystal shows no edge for 200 ns (R521–R523). -/
def execCrystalStop (dt : Nat) (b : Bool) (s : State) : Out :=
  let s := s.elapse dt
  .next (if s.pwr.held then s else s.crystalLost b true)

/-- CRYSTAL_COMPARE: the 1 ms comparison of the crystals, in 0.1 ppm, with how far each lies from what the PTP servo implies (R521). -/
def execCrystalCompare (dt : Nat) (abPpm aFromPtp bFromPtp : Int) (s : State) : Out :=
  let s := s.elapse dt
  if s.pwr.held then .next s
  else
    let s := { s with pwr := { s.pwr with abPpm := BitVec.ofInt 16 (max (-32768) (min 32767 abPpm)) } }
    if abPpm.natAbs ≤ 2000 ∨ s.pwr.xa.stopped ∨ s.pwr.xb.stopped then .next s
    else if s.tb.lock = .locked then
      let badA := decide (1000 < aFromPtp.natAbs)
      let badB := decide (1000 < bFromPtp.natAbs)
      if s.pwr.clkRef = 2 then
        let s := if badA then s.crystalLost false false else s
        .next (if badB then s.crystalLost true false else s)
      else
        let s := if badB then s.crystalLost true false else s
        .next (if badA then s.crystalLost false false else s)
    else
      let due := s.since ((s.pwr.ev.getD 2 EvGate.reset).last) 10000000000
      .next (s.powerEvent 2 0xFF 0 due)

/-- FORCED_SWITCH: a switch from a stopped clock completes by timeout (R526). -/
def execForcedSwitch (dt island : Nat) (s : State) : Out :=
  let s := s.elapse dt
  if s.pwr.held ∨ 43 ≤ island then .next s
  else
    let s := { s with pwr := { s.pwr with forced := true, forcedN := sat 32 (s.pwr.forcedN + 1) } }
    .next ((s.powerEvent 1 island 0 true).fault 9 island 0 0 0)

/-! ### Operating points and power states (R525, R528–R532) -/

/-- The islands with a low point: decode engines, encoders and SVC (R525). -/
def hasLowPoint (i : Nat) : Bool := (decide (3 ≤ i) && decide (i ≤ 12)) || decide (i = islSvc)

/-- The voltage of an island's regulator (R525, R528). -/
def State.islandVoltage (s : State) (i : Nat) : Nat :=
  let x := s.island i
  match x.power with
  | .off => 0
  | .retain => 550
  | .run | .gated =>
    if i = islStore then (if s.store.point = 2 then x.vPlan else if s.store.point = 1 then x.vPlan - 40 else x.vPlan - 100)
    else if x.rated then x.vPlan else max 600 (x.vPlan - 100)

/-- VF_CHANGE: an island without work goes to its low point, or comes back to its rated one (R525, R531). -/
def execVfChange (dt island : Nat) (low : Bool) (s : State) : Out :=
  let s := s.elapse dt
  if !hasLowPoint island || decide ((s.island island).power ≠ .run) || (low && s.hasWork island) then .next s
  else .next (s.modIsland island fun x => { x with rated := !low })

/-- The state a request asks for. -/
def GateTarget.state : GateTarget → PowerSt
  | .gated => .gated | .retain => .retain | .off => .off

/-- An island may be put into a state: engines, encoders and SVC at their low point may be gated or retained; a head island or port
transmitter may be off while its head or port is OFF (R528). -/
def State.mayGate (s : State) (i : Nat) (t : GateTarget) : Bool :=
  match t with
  | .gated | .retain => hasLowPoint i && !(s.island i).rated
  | .off => (decide (14 ≤ i) && decide (i ≤ 29)) || (decide (35 ≤ i) && decide (i < 43))

/-- GATE_REQUEST: the idle handshake is acknowledged only with nothing outstanding on the island's crossings and no work in it; a block
that arrives in the same cycle withdraws the request (R529). -/
def execGateRequest (dt island : Nat) (target : GateTarget) (blockArrives : Bool) (s : State) : Out :=
  let s := s.elapse dt
  let busy := s.fab.xing.any fun (x : Crossing) => (decide (x.snd = island) || decide (x.rcv = island)) && !x.unacked.isEmpty
  if blockArrives || busy || s.hasWork island || !s.mayGate island target || (s.island island).isolated || decide ((s.island island).power ≠ .run) then
    .next s
  else .next (s.modIsland island fun x => { x with power := GateTarget.state target })

/-- ISLAND_WAKE: a block that reaches a gated or retained island wakes it (R529). -/
def execIslandWake (dt island : Nat) (s : State) : Out :=
  let s := s.elapse dt
  let p := (s.island island).power
  if p = .gated ∨ p = .retain then .next (s.modIsland island fun x => { x with power := .run }) else .next s

/-! ### Supplies (R534, R608) -/

/-- SUPPLY_LOW: a rail below its range for 100 µs is reported, once per 10 s and rail; below 95 % for 10 µs it resets the device. -/
def execSupplyLow (dt rail mv us : Nat) (s : State) : Out :=
  let s := s.elapse dt
  match railNominal[rail]? with
  | none => .next s
  | some nominal =>
    let s := { s with pwr := { s.pwr with rail := s.pwr.rail.modify rail fun _ => mv } }
    if mv * 100 < nominal * 95 ∧ 10 ≤ us then
      let t := s.deviceReset
      .next { t with pwr := { t.pwr with supplyGood := false } }
    else if mv * 1000 < nominal * 975 ∧ 100 ≤ us then
      let due := s.since (s.pwr.railAt.getD rail none) 10000000000
      let t := s.powerEvent 4 rail (sat 16 mv) due
      .next (if due then { t with pwr := { t.pwr with railAt := t.pwr.railAt.modify rail fun _ => some t.tb.now } } else t)
    else .next s

/-! ### Temperature (R535, R536, R618) -/

/-- The island nearest to a sensor, or none (R542). -/
def State.sensorIsland (s : State) (sensor : Nat) : Nat := ((List.range 43).find? fun i => decide (s.pwr.nearest.getD i 0 = sensor)).getD 0xFF

/-- A reading of a sensor is taken; the log keeps those of the last 24 h. -/
def State.readSensor (s : State) (sensor : Nat) (t : Int) : State :=
  let log (l : List (Nat × Int)) : List (Nat × Int) := ((s.tb.now, t) :: l).filter fun x => decide (s.tb.now < x.1 + 86400000000000)
  let s := { s with pwr := { s.pwr with temp := s.pwr.temp.modify sensor fun _ => t, tempLog := s.pwr.tempLog.modify sensor log } }
  let cool := s.pwr.temp.all fun x => decide (x < 100)
  { s with pwr := { s.pwr with coolSince := if cool then some (s.pwr.coolSince.getD s.tb.now) else none } }

/-- A sensor above +105 °C is reported and held in `TOP.FAULTS` bit 12, until every sensor has read below +100 °C for 1 s (R535). -/
def State.judgeHeat (s : State) (sensor : Nat) (t : Int) : State :=
  if 105 < t ∧ !s.pwr.hot then
    let s := { s with pwr := { s.pwr with hot := true, thermals := sat 32 (s.pwr.thermals + 1) } }
    (s.powerEvent 3 (s.sensorIsland sensor) (wordOf 16 t) true).refreshFaults.change 0b100000
  else if s.pwr.hot ∧ s.pwr.coolSince.isSome ∧ s.since s.pwr.coolSince 1000000000 then
    ({ s with pwr := { s.pwr with hot := false } }.powerEvent 3 (s.sensorIsland sensor) 0 true).refreshFaults
  else s

/-- THERMAL_READING (R535). -/
def execThermalReading (dt sensor : Nat) (temp : Int) (s : State) : Out :=
  let s := s.elapse dt
  if 33 ≤ sensor then .next s
  else if s.pwr.held then .next (s.readSensor sensor temp)
  else .next ((s.readSensor sensor temp).judgeHeat sensor temp)

/-- THERMAL_SHUTDOWN: +120 °C or more for 100 ms posts THERMAL, and an active part whose standby is healthy gives up (R475, R618). -/
def execThermalShutdown (dt sensor : Nat) (temp : Int) (s : State) : Out :=
  let s := s.elapse dt
  if 33 ≤ sensor ∨ temp < 120 ∨ s.pwr.held then .next s
  else
    let s := (s.readSensor sensor temp).judgeHeat sensor temp
    let s := s.powerEvent 3 (s.sensorIsland sensor) (wordOf 16 temp) true
    let s := { s with pwr := { s.pwr with thermals := sat 32 (s.pwr.thermals + 1) }, twin := { s.twin with yieldSensor := some sensor } }
    .next (s.giveUp [s.sensorIsland sensor])

/-- THERMAL_TRIP: +130 °C or more for 1 ms: the companion die asserts device reset, and holds it (R618). -/
def execThermalTrip (dt sensor : Nat) (temp : Int) (s : State) : Out :=
  let s := s.elapse dt
  if 33 ≤ sensor ∨ temp < 130 then .next s
  else
    let t := (s.readSensor sensor temp).deviceReset
    .next { t with pwr := { t.pwr with tripped := true, coolSince := none } }

/-- THERMAL_TRIP_RELEASE: every sensor has read below +100 °C for 10 s, and the reset is held no longer (R618). -/
def execThermalTripRelease (dt : Nat) (s : State) : Out :=
  let s := s.elapse dt
  if s.pwr.tripped ∧ s.pwr.coolSince.isSome ∧ s.since s.pwr.coolSince 10000000000 then .next { s with pwr := { s.pwr with tripped := false } }
  else .next s

/-! ### Folios (R541–R543) -/

/-- CLOCK_CONTROL: ACTION 1, RETURN_A, judges XTAL_A anew and returns the reference to it (R523, R541). -/
def bodyReturnA (counts : List Nat) (c : FCtx) (s : State) : FRes :=
  let judged (x : Power) : Power := { x with xa := { good := crystalJudge counts, stopped := false } }
  .checks [(decide (c.u 0x10 1 = 1), .param), (isAdmin c s, .colour), (decide (s.pwr.clkRef ≠ 1), .state)] s <|
    if crystalJudge counts then .ok { s with pwr := { judged s.pwr with clkRef := 1, failover := true } }
    else .done .state 0 { s with pwr := judged s.pwr } id

/-- RETURN_A (R541). -/
def execReturnA (dt ring : Nat) (counts : List Nat) (s : State) : Out := .next ((s.elapse dt).runFolio ring 0x0E00 (bodyReturnA counts))

/-- CLOCK_FUSE. -/
def bodyClockFuse (c : FCtx) (s : State) : FRes :=
  let d := c.u 0x10 1
  .checks [(decide (1 ≤ d) && decide (d ≤ 8), .param), (decide (s.lifecycle = .develop), .lifecycle), (isAdmin c s, .colour), (!s.pwr.fused, .state)] s <|
    .ok { s with pwr := { s.pwr with delay := BitVec.ofNat 4 d, fused := true } }

/-- CLOCK_FUSE (R541). -/
def execClockFuse (dt ring : Nat) (s : State) : Out := .next ((s.elapse dt).runFolio ring 0x0E01 bodyClockFuse)

/-- The code of a power state (R542). -/
def PowerSt.code : PowerSt → Nat
  | .run => 0 | .gated => 1 | .retain => 2 | .off => 3

/-- The hottest sensor: the first of those with the highest reading. -/
def State.hottest (s : State) : Nat × Int :=
  (s.pwr.temp.zipIdx.foldl (fun (a : Nat × Int) x => if a.2 < x.1 then (x.2, x.1) else a) (0, s.pwr.temp.headD 25))

/-- The block of POWER_STATE (R542). -/
def State.powerBlock (s : State) : List Byte :=
  let h := s.hottest
  let one (i : Nat) : List Byte := leBytes 1 (PowerSt.code (s.island i).power + 16 * b2n (!(s.island i).rated))
  layout 256 [(0, leBytes 1 s.pwr.clkRef.toNat),
    (1, leBytes 1 (b2n s.pwr.xa.good + 2 * b2n s.pwr.xb.good + 4 * b2n s.pwr.foscGood + 8 * b2n s.pwr.failover)), (2, leBytes 2 s.pwr.abPpm.toNat),
    (4, leBytes 1 (wordOf 8 h.2)), (5, leBytes 1 (s.sensorIsland h.1)),
    (6, leBytes 1 ((s.store.ch.map fun (x : DramChannel) => x.mr4).foldl max 0)), (8, leBytes 4 s.pwr.thermals), (0x0C, leBytes 4 s.pwr.forcedN),
    (0x10, (List.range 43).flatMap one), (0x40, s.pwr.rail.flatMap (leBytes 2))]

/-- POWER_STATE. -/
def bodyPowerState (c : FCtx) (s : State) : FRes :=
  .checks (blockChecks c s (c.u 0x12 1) (c.u 0x14 4) 256) s (writeBlock s (c.u 0x12 1) (c.u 0x14 4) s.powerBlock)

/-- POWER_STATE (R542). -/
def execPowerState (dt ring : Nat) (s : State) : Out := .next ((s.elapse dt).runFolio ring 0x0E02 bodyPowerState)

/-- POWER_WATCH. -/
def bodyPowerWatch (c : FCtx) (s : State) : FRes :=
  let n := c.u 0x10 1
  let mask := c.u 0x11 1
  .checks [(decide (n < 32) && decide (mask < 8), .param), (evOk c s n, .colour)] s <|
    .ok { s with pwr := { s.pwr with watch := watchSet s.pwr.watch (c.ev n) (BitVec.ofNat 8 mask) } }

/-- POWER_WATCH (R543). -/
def execPowerWatch (dt ring : Nat) (s : State) : Out := .next ((s.elapse dt).runFolio ring 0x0E04 bodyPowerWatch)

end Sys2Proof.Machine
end

