-- ==== Sys2Proof/Machine/Trust.lean ====
section
/-!
DEFINITION. Trust and life cycle: firmware images, the life-cycle token, attestation, provisioning, the commit of an access-table
entry with the removal that drains, and the debug master (12_trust.md R405–R437).
-/

namespace Sys2Proof.Machine

/-! ### Firmware images (R410, R411) -/

/-- The image whose header a list of bytes spells, with what the other checks of R411 find. -/
def imageOf (h : List Byte) (zerosOk sigsOk digestOk gcmOk : Bool) : Image :=
  let u (o n : Nat) := leNat ((h.drop o).take n)
  { formOk := zerosOk && decide (u 0 4 = 0x57464B53) && decide (u 4 2 = 1) && decide (u 6 2 < 2) && decide (u 8 4 ≤ 127) && decide (u 0x10 4 % 256 = 0)
      && decide (u 0x10 4 ≤ 1572864) && !bitOf (u 0x18 1) 4 && decide (u 0x1A 6 = 0) && decide (u 0x2C 4 = 0) && decide (u 0x70 144 = 0)
    flags := BitVec.ofNat 16 (u 6 2), secVersion := u 8 4, release := BitVec.ofNat 32 (u 0x0C 4), lifecycles := BitVec.ofNat 8 (u 0x18 1)
    keyId := u 0x19 1, sigsOk := sigsOk, digestOk := digestOk, gcmOk := gcmOk, header := h }

/-- The image that the boot ROM reads from a slot. -/
def Image.ofIn (i : ImageIn) : Image := imageOf (padTo 256 i.header) i.zerosOk i.sigsOk i.digestOk i.gcmOk

/-- The first check of R411 that an image fails. -/
def Image.failing (i : Image) (f : Fuses) (lc : LifeCycle) : Option Nat :=
  if !i.formOk then some 1
  else if decide (4 ≤ i.keyId) || f.rootRevoked.getLsbD i.keyId then some 2
  else if !i.sigsOk then some 3
  else if !i.lifecycles.getLsbD lc.code then some 4
  else if i.secVersion < f.imageCounter then some 5
  else if !i.digestOk then some 6
  else if !(i.gcmOk && f.imageKeyOk) then some 7
  else none

/-- The image passes R411. -/
def State.imageOk (s : State) (i : Image) : Bool := (i.failing s.sec.fuses s.lifecycle).isNone

/-- The slot that the selector does not name: true is B. A selector that fails its check names A (R412). -/
def Sec.staged (x : Sec) : Bool := decide (x.selector ≠ some true)

/-- What a slot holds. -/
def Sec.slot (x : Sec) (b : Bool) : Option Image := if b then x.slotB else x.slotA

/-- A slot after a write. -/
def Sec.setSlot (x : Sec) (b : Bool) (i : Option Image) : Sec := if b then { x with slotB := i } else { x with slotA := i }

/-! ### IMAGE_STAGE, IMAGE_ACTIVATE, IMAGE_COMMIT (R414, R415) -/

/-- IMAGE_STAGE: the image is in the window, and SEC checks and writes it. -/
def bodyImageStage (c : FCtx) (s : State) : FRes :=
  let w := c.u 0x10 1
  let off := c.u 0x14 4
  let h := s.winRead w off 256
  let n := 0x1400 + leNat ((h.drop 0x10).take 4)
  .checks [(decide (w < 8), .param), (isAdmin c s, .colour), (s.winOk w c.colour && s.winSpan w off 0x1400 false, .colour), (!s.sec.staging, .busy),
      (!s.winDamaged w off 0x1400, .fault)] s <|
    if decide (n ≤ 0x1400 + 1572864) && !s.winSpan w off n false then .done .colour 0 s id
    else if decide (n ≤ 0x1400 + 1572864) && s.winDamaged w off n then .done .fault 0 s id
    else .wait (.image h) { s with sec := { s.sec with staging := true } }

/-- IMAGE_STAGE (R414). -/
def execImageStage (dt ring : Nat) (s : State) : Out := .next ((s.elapse dt).runFolio ring 0x0B04 bodyImageStage)

/-- What IMAGE_STAGE waits for has ended: the image was refused, or stands in the slot the selector does not name; a slot that does not
read back leaves the folio with E_PARAM, and what it holds is found at the next boot. -/
def State.imageStaged (s : State) (slot : Nat) (header : List Byte) (o : WaitIn) : State :=
  let s := { s with sec := { s.sec with staging := false } }
  match o with
  | .image x =>
    let i := imageOf header x.zerosOk x.sigsOk x.digestOk x.gcmOk
    match i.failing s.sec.fuses s.lifecycle with
    | some k => s.finish slot (if k = 2 ∨ k = 3 ∨ k = 7 then .signature else .param) 0 id
    | none => ({ s with sec := s.sec.setSlot s.sec.staged (some i) }).finish slot .ok 0 id
  | _ => ({ s with sec := s.sec.setSlot s.sec.staged none }).finish slot .param 0 id

/-- IMAGE_ACTIVATE: the staged slot is loaded into the idle pair. -/
def bodyImageActivate (c : FCtx) (s : State) : FRes :=
  .checks [(isAdmin c s, .colour), (!s.sec.staging, .busy)] s <| .wait .activate { s with sec := { s.sec with staging := true } }

/-- IMAGE_ACTIVATE (R414). -/
def execImageActivate (dt ring : Nat) (s : State) : Out := .next ((s.elapse dt).runFolio ring 0x0B05 bodyImageActivate)

/-- An urgent folio is waiting or running (R361). -/
def State.urgentOpen (s : State) : Bool :=
  s.host.cmdq.any fun q => q.fetched.any (fun f => !f.damaged && f.folio.urgent) || (match q.begun with | some b => b.folio.urgent | none => false)

/-- The staged slot is loaded and checked: it fails R411 (E_FAULT), or the handover starts, once no urgent folio waits or runs. -/
def State.imageLoaded (s : State) (slot : Nat) (o : WaitIn) : State :=
  let i : Option Image := match o with
    | .image x => some (Image.ofIn x)
    | .done => s.sec.slot s.sec.staged
    | _ => none
  let fail := ({ s with sec := { s.sec with staging := false } }).finish slot .fault 0 id
  match i with
  | none => fail
  | some i =>
    if !s.imageOk i then fail
    else if s.top.handover ∨ s.urgentOpen then s
    else ({ s with sec := s.sec.setSlot s.sec.staged (some i), top := { s.top with handover := true } }).change 0b000010

/-- IMAGE_COMMIT: IMAGE_COUNTER rises to the running image's SEC_VERSION, and REVOKE_BELOW revokes the lower root key pairs. -/
def bodyImageCommit (c : FCtx) (s : State) : FRes :=
  let i := s.sec.running
  .checks [(isAdmin c s, .colour), (decide (i.secVersion ≤ 128), .nospace)] s <|
    .ok { s with sec := { s.sec with fuses := { s.sec.fuses with
      imageCounter := max s.sec.fuses.imageCounter i.secVersion
      rootRevoked := if i.flags.getLsbD 0 then s.sec.fuses.rootRevoked ||| BitVec.ofNat 4 (2 ^ min i.keyId 4 - 1) else s.sec.fuses.rootRevoked } } }

/-- IMAGE_COMMIT (R414). -/
def execImageCommit (dt ring : Nat) (s : State) : Out := .next ((s.elapse dt).runFolio ring 0x0B06 bodyImageCommit)

/-! ### The life cycle (R416–R418) -/

/-- The life-cycle state of a code. -/
def lifeCycleOf (n : Nat) : Option LifeCycle :=
  match n with
  | 0 => some .foundry | 1 => some .develop | 2 => some .field | 3 => some .return | 4 => some .void | _ => none

/-- A transition is one of R417's, with the signer it needs: true is Yashaora. -/
def transitionOk (a : LifeCycle) (b : LifeCycle) (yashaora : Bool) : Bool :=
  match a, b with
  | .foundry, .develop => yashaora
  | .develop, .field => !yashaora
  | .develop, .return | .field, .return => !yashaora
  | .foundry, .void | .return, .void => true
  | .develop, .void | .field, .void => !yashaora
  | _, _ => false

/-- What a transition burns, in order. -/
def burnSteps (b : LifeCycle) : List (Fuses → Fuses) :=
  match b with
  | .foundry => []
  | .develop => [fun f => { f with lcDevelop := BitVec.allOnes 32 }]
  | .field => [fun f => { f with lcField := BitVec.allOnes 32 }]
  | .return => [fun f => { f with salt1 := true }, fun f => { f with ownerInvalid := true }, fun f => { f with lcReturn := BitVec.allOnes 32 }]
  | .void => [fun f => { f with lcVoid := BitVec.allOnes 32, imageKeyOk := false, ownerInvalid := true }]

/-- A record with the owner keys alone. -/
def Record.ownerOnly (r : Record) : Record := { Record.reset with gen := r.gen, ownerE := r.ownerE, ownerM := r.ownerM }

/-- A transition's fuses are burned, the first `n` of them (all, but for a failure of power), with what it also destroys: the record
goes with the storage key, or keeps the owner keys alone (R417). -/
def Sec.burn (x : Sec) (b : LifeCycle) (n : Nat) : Sec :=
  let steps := (burnSteps b).take n
  let x := { x with fuses := steps.foldl (fun f g => g f) x.fuses }
  if steps = [] then x
  else match b with
    | .field => { x with recordCopies := x.recordCopies.map fun (r : Option Record) => r.map Record.ownerOnly }
    | .return | .void => { x with recordCopies := [none, none] }
    | _ => x

/-- The provisioning key of a colour as a verifier sees it: its public key. -/
def State.ephOf (s : State) (colour : Nat) : Option (List Byte) := (s.sec.provKey.getD colour none).map fun k => padTo 97 (Config.ecdhPub k)

/-- LIFECYCLE: a token is checked; the fuses are burned after the folio has completed, as the device resets. -/
def bodyLifecycle (sigOk : Bool) (c : FCtx) (s : State) : FRes :=
  let w := c.u 0x10 1
  let off := c.u 0x14 4
  let t := s.winRead w off 0x100
  let u (o n : Nat) := leNat ((t.drop o).take n)
  let yash := bitOf (u 3 1) 0
  let pair := u 3 1 / 2
  let keys := if yash then decide (pair < 4) && !s.sec.fuses.rootRevoked.getLsbD pair else s.owner.isSome
  let form := decide (u 0 2 = 1) && decide (u 2 1 ≤ 4) && decide (u 3 1 < 8) && decide (u 4 12 = 0) && decide (u 0x81 127 = 0)
  let legal := match lifeCycleOf (u 2 1) with | some b => transitionOk s.lifecycle b yash && (decide (b ≠ .field) || s.owner.isSome) | none => false
  let named := decide ((t.drop 0x10).take 16 = padTo 16 s.deviceId) && decide (s.ephOf s.admin = some ((t.drop 0x20).take 97))
  .checks [(decide (w < 8), .param), (isAdmin c s, .colour), (s.winOk w c.colour && s.winSpan w off 0x1373 false, .colour),
      (!s.winDamaged w off 0x1373, .fault)] s <|
    .checks [(form, .param), (legal && named, .state), (sigOk && keys, .signature)] s <|
      .ok { s with sec := { s.sec with transition := lifeCycleOf (u 2 1) } }

/-- LIFECYCLE (R418). -/
def execLifecycle (dt ring : Nat) (sigOk : Bool) (s : State) : Out := .next ((s.elapse dt).runFolio ring 0x0B03 (bodyLifecycle sigOk))

/-! ### Attestation (R420, R421) -/

/-- A provisioning key is drawn for a colour in place of the one it had. -/
def State.drawProv (s : State) (colour : Nat) : State :=
  let (k, s) := s.draw 48
  { s with sec := { s.sec with provKey := s.sec.provKey.set colour (some k), provNo := s.sec.provNo + 1 } }

/-- ATTEST: a new provisioning key, and the report; `twin` is the twin's report as link T brings it. -/
def bodyAttest (twin : List Byte) (c : FCtx) (s : State) : FRes :=
  let w := c.u 0x10 1
  let fl := c.u 0x11 1
  let off := c.u 0x14 4
  let n := if bitOf fl 1 then 0x3E00 + Config.certChain.length else if bitOf fl 0 then 0x1F00 + 0x1E93 else 0x1E93
  .checks [(decide (w < 8) && decide (fl < 4) && decide (c.u 0x12 2 = 0) && decide (off % 256 = 0)
        && decide (off + n ≤ (s.window w).size.toNat), .param), (decide (s.lifecycle ≠ .void), .lifecycle),
      (s.winOk w c.colour && s.winSpan w off n true, .colour), (!bitOf fl 0 || s.mirroring, .state), (!s.sec.entropyBad, .fault)] s <|
    let s := s.drawProv c.colour
    let s := s.winWrite w off (s.report (c.folio.bytesAt 0x18 32) ((s.ephOf c.colour).getD []))
    let s := if bitOf fl 0 then s.winWrite w (off + 0x1F00) (padTo 0x1E93 twin) else s
    .ok (if bitOf fl 1 then s.winWrite w (off + 0x3E00) Config.certChain else s)

/-- ATTEST (R420). -/
def execAttest (dt ring : Nat) (twin : List Byte) (s : State) : Out := .next ((s.elapse dt).runFolio ring 0x0B00 (bodyAttest twin))

/-! ### The provisioning record (R422, R423) -/

/-- The record in use is replaced: the copy that does not hold it takes the new one, with the next generation (R423). -/
def Sec.writeRecord (x : Sec) (r : Record) : Sec :=
  let r := { r with gen := x.record.gen + 1 }
  let inUse := match x.recordCopies.getD 0 none with | some a => decide (a.gen = x.record.gen) && x.recordOk | none => false
  { x with record := r, recordOk := true, recordCopies := x.recordCopies.set (if inUse then 1 else 0) (some r) }

/-- OWNER_SET. -/
def bodyOwnerSet (c : FCtx) (s : State) : FRes :=
  let w := c.u 0x10 1
  let off := c.u 0x14 4
  let keys := s.winRead w off 2689
  .checks [(decide (w < 8), .param), (decide (s.lifecycle = .develop), .lifecycle), (s.winOk w c.colour && s.winSpan w off 2689 false, .colour),
      (s.sec.fuses.ownerDigest.isNone, .state), (!s.winDamaged w off 2689, .fault)] s <|
    let x := { s.sec with fuses := { s.sec.fuses with ownerDigest := some (Config.sha384 keys) } }
    .ok { s with sec := x.writeRecord { x.record with ownerE := keys.take 97, ownerM := keys.drop 97 } }

/-- OWNER_SET (R422). -/
def execOwnerSet (dt ring : Nat) (s : State) : Out := .next ((s.elapse dt).runFolio ring 0x0B02 bodyOwnerSet)

/-! ### Bundles (R424–R427) -/

/-- An item of a bundle's BODY (R425). -/
structure BundleItem where
  kind    : Nat
  slot    : Nat
  persist : Bool
  erase   : Bool
  good    : Bool
  data    : List Byte
  deriving DecidableEq, Repr, Inhabited

/-- Exactly `n` items, or none where the bytes do not hold them. -/
def itemsOf : Nat → List Byte → Option (List BundleItem)
  | 0, bs => if bs = [] then some [] else none
  | n + 1, bs =>
    let u (o k : Nat) := leNat ((bs.drop o).take k)
    let len := u 4 4
    if bs.length < 8 + len then none
    else match itemsOf n (bs.drop (8 + len)) with
      | none => none
      | some l => some ({ kind := u 0 1, slot := u 1 1, persist := bitOf (u 2 1) 0, erase := bitOf (u 2 1) 1
                          good := decide (u 2 1 < 4) && decide (u 3 1 = 0), data := (bs.drop 8).take len } :: l)

/-- Some bytes of a list from an offset are all zero. -/
def zerosAt (bs : List Byte) (off n : Nat) : Bool := ((bs.drop off).take n).all (· = 0)

/-- A key entry of an SRTP item fits its profile: 128-bit profiles use 16 bytes of the key, AEAD profiles 12 of the salt. -/
def keyEntryOk (profile : Nat) (k : List Byte) : Bool :=
  let n := leNat (k.take 1)
  decide (n ≤ 4) && zerosAt k 1 3 && zerosAt k (4 + n) (4 - n) && (decide (profile = 3) || decide (profile = 5) || zerosAt k 24 16)
    && (!decide (4 ≤ profile) || zerosAt k 52 2) && zerosAt k 54 2

/-- The key entry. -/
def srtpKeyOf (k : List Byte) : SrtpKey :=
  { mki := (k.drop 4).take (leNat (k.take 1)), key := (k.drop 8).take 32, salt := (k.drop 40).take 14 }

/-- The key entries of an SRTP item. -/
def keyEntries (d : List Byte) : List (List Byte) := (List.range (leNat ((d.drop 1).take 1))).map fun i => (d.drop (8 + 56 * i)).take 56

/-- An SRTP item's data is well formed. -/
def srtpOk (d : List Byte) : Bool :=
  let profile := leNat (d.take 1)
  let keys := leNat ((d.drop 1).take 1)
  decide (1 ≤ profile) && decide (profile ≤ 5) && decide (1 ≤ keys) && decide (keys ≤ 2) && zerosAt d 2 2 && decide (d.length = 8 + 56 * keys)
    && (keyEntries d).all (keyEntryOk profile)

/-- A ring word of RINGMAP, in `TOP.RINGMAP` format (R349). -/
def ringWordOf (w : BitVec 32) : RingMapEntry :=
  { colour := w.extractLsb' 0 6, urgent := w.getLsbD 6, network := w.getLsbD 7, channel := w.extractLsb' 8 3, valid := w.getLsbD 31 }

/-- The ring words of a RINGMAP item. -/
def ringWords (d : List Byte) : List (BitVec 32) := (List.range 32).map fun i => BitVec.ofNat 32 (leNat ((d.drop (4 * i)).take 4))

/-- The channel records of a RINGMAP item. -/
def chanRecords (d : List Byte) : List (List Byte) := (List.range 8).map fun i => (d.drop (128 + 112 * i)).take 112

/-- A channel record. -/
def channelOf' (r : List Byte) : Channel :=
  { Channel.reset with udp := leNat (r.take 2), ports := BitVec.ofNat 8 (leNat ((r.drop 2).take 1))
                       peerFilter := BitVec.ofNat 32 (beNat ((r.drop 4).take 4)), peerKey := (r.drop 8).take 97 }

/-- A RINGMAP item obeys R326: no ring carries colour 0 or 63, at most four are urgent; reserved bits are zero. -/
def ringMapOk (d : List Byte) : Bool :=
  let ws := ringWords d
  let es := (ws.map ringWordOf).filter (·.valid)
  decide (d.length = 1024) && ws.all (fun w => decide (w.extractLsb' 11 20 = 0)) && es.all (fun e => decide (e.colour ≠ 0) && decide (e.colour ≠ 63))
    && decide ((es.filter (·.urgent)).length ≤ 4)
    && (chanRecords d).all (fun r => decide (leNat ((r.drop 2).take 1) < 16) && zerosAt r 3 1 && zerosAt r 105 7)

/-- The configuration a CONFIG item spells. -/
def configOf (d : List Byte) : DevConfig :=
  let u (o n : Nat) := leNat ((d.drop o).take n)
  { grain := u 0 1, pin := u 1 1, admin := u 2 1, age1 := u 4 2, age2 := u 6 2, age3 := u 8 4
    quota := (List.range 62).map fun i => u (16 + 2 * i) 2 }

/-- A CONFIG item is well formed: the ranges of R425 and R382. -/
def configOk (d : List Byte) : Bool :=
  let c := configOf d
  decide (d.length = 140) && decide (8 ≤ c.grain) && decide (c.grain ≤ 16) && decide (c.pin < 4) && decide (1 ≤ c.admin) && decide (c.admin ≤ 61)
    && zerosAt d 3 1 && zerosAt d 12 4 && decide (1 ≤ c.age1) && decide (c.age1 ≤ 1000) && decide (1 ≤ c.age2) && decide (c.age2 ≤ 10000)
    && decide (1 ≤ c.age3) && decide (c.age3 ≤ 100000) && c.quota.all (· ≤ 256)

/-- An item is well formed; ERASE ignores its data. -/
def BundleItem.ok (i : BundleItem) : Bool :=
  i.good && (match i.kind with
    | 1 => decide (i.slot < 128) && (i.erase || srtpOk i.data)
    | 2 => i.erase || decide (i.data.length = 2689)
    | 3 => i.erase || ringMapOk i.data
    | 4 => i.erase || configOk i.data
    | _ => false)

/-- The item persists: always, but an SRTP item only when PERSIST is set (R425). -/
def BundleItem.persists (i : BundleItem) : Bool := decide (i.kind ≠ 1) || i.persist

/-- The record after an item; ERASE removes the item from it too. -/
def BundleItem.record (i : BundleItem) (colour : Nat) (r : Record) : Record :=
  let d := i.data
  match i.kind with
  | 1 =>
    let rest := r.srtp.filter fun x => x.1 ≠ i.slot
    if i.erase then { r with srtp := rest }
    else if i.persist then
      { r with srtp := rest ++ [(i.slot, { full := true, colour := colour, profile := leNat (d.take 1), keys := (keyEntries d).map srtpKeyOf
                                           roc := BitVec.ofNat 32 (leNat ((d.drop 4).take 4)), persist := true })] }
    else r
  | 2 => if i.erase then { r with plateE := [], plateM := [] } else { r with plateE := d.take 97, plateM := d.drop 97 }
  | 3 => if i.erase then { r with ringMap := none, chans := [] }
         else { r with ringMap := some ((ringWords d).map ringWordOf), chans := (chanRecords d).map channelOf' }
  | 4 => if i.erase then { r with config := none } else { r with config := some (configOf d) }
  | _ => r

/-- The key slots after an item: an SRTP item takes effect at completion. -/
def BundleItem.slots (i : BundleItem) (colour : Nat) (l : List SrtpSlot) : List SrtpSlot :=
  let d := i.data
  if i.kind ≠ 1 then l
  else if i.erase then l.set i.slot SrtpSlot.reset
  else l.set i.slot { full := true, colour := colour, profile := leNat (d.take 1), keys := (keyEntries d).map srtpKeyOf
                      roc := BitVec.ofNat 32 (leNat ((d.drop 4).take 4)), persist := i.persist }

/-- Fields of a bundle's first 0x110 bytes (R424). -/
def bundleU (head : List Byte) (off n : Nat) : Nat := leNat ((head.drop off).take n)

/-- The fixed fields of a bundle are in range. -/
def bundleForm (head : List Byte) : Bool :=
  decide (bundleU head 0 2 = 1) && decide (1 ≤ bundleU head 2 2) && decide (bundleU head 2 2 ≤ 64) && decide (bundleU head 4 4 < 2)
    && decide (bundleU head 0x89 7 = 0) && decide (bundleU head 0xF0 4 ≤ 65536)

/-- The checks of R427 from the third on, for the DEVICE_ID the bundle must name, and its effect. -/
def State.applyBundle (s : State) (colour : Nat) (target head : List Byte) (sigOk keyOk : Bool) (body : List Byte) : Status × State :=
  let items := itemsOf (bundleU head 2 2) body
  let l := items.getD []
  let revoke := bitOf (bundleU head 4 4) 0
  let keep := revoke || l.any fun i => i.persists || i.erase
  match firstBad [(s.owner.isSome, .state), (sigOk, .signature),
      (decide (target = padTo 16 s.deviceId) && (s.sec.provKey.getD colour none).isSome && keyOk, .state),
      (bundleForm head && items.isSome && l.all BundleItem.ok, .param),
      (l.all (fun i => decide (i.kind ≠ 1) || !(s.sec.srtp.getD i.slot SrtpSlot.reset).full
        || decide ((s.sec.srtp.getD i.slot SrtpSlot.reset).colour = colour)), .colour),
      (!revoke || decide (s.sec.record.gen + 1 ≤ 64), .nospace)] with
  | some st => (st, s)
  | none =>
    let rec_ := l.foldl (fun (r : Record) i => i.record colour r) s.sec.record
    let x := { s.sec with provKey := s.sec.provKey.set colour none, srtp := l.foldl (fun (a : List SrtpSlot) (i : BundleItem) => i.slots colour a) s.sec.srtp }
    let x := if keep then x.writeRecord rec_ else { x with record := rec_ }
    let x := if revoke then { x with fuses := { x.fuses with recordCounter := x.record.gen } } else x
    (.ok, { s with sec := x })

/-- PROVISION: the bundle lies in the window, and SEC checks it (R427). -/
def bodyProvision (c : FCtx) (s : State) : FRes :=
  let w := c.u 0x10 1
  let off := c.u 0x14 4
  let n := c.u 0x18 4
  let head := s.winRead w off 0x110
  .checks [(s.owner.isSome, .state),
      (decide (w < 8) && decide (off + n ≤ (s.window w).size.toNat) && decide (n = 0x110 + bundleU head 0xF0 4 + 4723), .param),
      (s.winOk w c.colour && s.winSpan w off n false, .colour), (!s.winDamaged w off n, .fault)] s <| .wait (.provision head) s

/-- PROVISION (R427). -/
def execProvision (dt ring : Nat) (s : State) : Out := .next ((s.elapse dt).runFolio ring 0x0B01 bodyProvision)

/-- Both parts have finished with a bundle: RESULT holds the twin's status, 0xFFFF when there is none (R427). -/
def State.provisioned (s : State) (slot : Nat) (head : List Byte) (o : WaitIn) : State :=
  match (s.cmdQ slot).begun, o with
  | some b, .bundle sigOk keyOk items twin =>
    let r := s.applyBundle (s.fctx slot b).colour ((head.drop 8).take 16) head sigOk keyOk items
    let far := s.mirroring && decide ((head.drop 0x18).take 16 = padTo 16 s.twin.partnerDevId)
    let t := match twin with | some t => if far then t else 0xFFFF | none => 0xFFFF
    if r.1 = .ok then r.2.finish slot .ok t id else r.2.finish slot r.1 0 id
  | _, _ => s.finish slot .fault 0 id

/-! ### The access table (R428–R434) -/

/-- Two ranges of pages meet. -/
def pagesMeet (a b c d : Nat) : Bool := decide (a ≤ d) && decide (c ≤ b)

/-- The entry covers nothing but pages of the addressable store. -/
def ActEntry.inStore (e : ActEntry) : Bool := decide (e.base.toNat ≤ e.last.toNat) && decide ((e.last.toNat + 1) * 4096 ≤ storeBytes)

/-- The RESULT of a COMMIT of an entry (R429): 0 applied, 1 refused, 2 locked, 3 dirty. No entry grants another colour than 0 the first GiB
(R430), so SEC refuses one that would (DEDUCED, log entry 78). -/
def State.commitResult (s : State) (i : Nat) (e : ActEntry) : Nat :=
  let old := s.actAt i
  let meets (x : ActEntry) := pagesMeet x.base.toNat x.last.toNat e.base.toNat e.last.toNat
  if (e.valid && !e.inStore) || decide (e.colour = 63) || (e.exec_ && decide (e.colour ≠ 0))
      || (e.valid && decide (e.colour ≠ 0) && decide (e.base.toNat < 0x40000))
      || (e.valid && s.sec.act.any fun x => x.2.valid && decide (x.2.sealed_ ≠ e.sealed_) && meets x.2) then 1
  else if old.lock then 2
  else if e.valid && ((s.sec.dirty.any fun d => decide (d.2.2 ≠ e.colour.toNat) && pagesMeet d.1 d.2.1 e.base.toNat e.last.toNat)
      || (old.valid && decide (old.colour ≠ e.colour) && meets old)) then 3
  else 0

/-- A removal of a colour is draining. -/
def State.removing (s : State) (colour : Nat) : Bool := s.sec.removals.any fun r => r.colour = colour

/-- A COMMIT of an entry: refused, made to wait behind a removal of its colour, or applied (R429, R434). -/
def State.commit (s : State) (i : Nat) (e : ActEntry) : State :=
  let k := s.commitResult i e
  if k ≠ 0 then ({ s with sec := { s.sec with actResult := BitVec.ofNat 2 k } }).fault 12 islSec 0 0 0
  else if (s.actAt i).isRemoval e && s.removing (s.actAt i).colour.toNat then { s with sec := { s.sec with waitingCommit := some (i, e) } }
  else let s := s.replaceEntry i e; { s with sec := { s.sec with actResult := 0 } }

/-- A COMMIT of the staged words by a write of `ACT.COMMIT` (R429); one that waits holds the next back. -/
def State.commitStaged (s : State) : State :=
  if (s.island islSec).isolated || s.sec.waitingCommit.isSome then s
  else s.commit s.sec.actIndex.toNat (ActEntry.ofWords s.sec.actWord0 s.sec.actWord1)

/-- ACT_COMMIT (R429). -/
def execActCommit (dt : Nat) (s : State) : Out := .next (s.elapse dt).commitStaged

/-- A removal is complete: its pages are dirty, and a COMMIT that waited for it goes on (R434). -/
def State.endRemoval (s : State) (r : Removal) : State :=
  let rest := s.sec.removals.filter fun x => x.colour ≠ r.colour
  let s := ({ s with sec := { s.sec with removals := rest, actBusy := !rest.isEmpty } }).dirtyPages r.first r.last r.colour
  match s.sec.waitingCommit with
  | some (i, e) =>
    if decide ((s.actAt i).colour.toNat = r.colour) then ({ s with sec := { s.sec with waitingCommit := none } }).commit i e else s
  | none => s

/-- REMOVAL_DRAIN: the accesses of a removal that were in flight have completed. -/
def execRemovalDrain (dt colour : Nat) (s : State) : Out :=
  let s := s.elapse dt
  .next (match s.sec.removals.find? fun r => r.colour = colour with
    | some r => if s.inFlight colour r.epoch then s else s.endRemoval r
    | none => s)

/-- Islands with an access of a colour in flight that was checked at an epoch or before it. -/
def State.lateIslands (s : State) (colour : Nat) (epoch : BitVec 16) : List Nat :=
  ((s.store.ch.flatMap fun c => (c.queue.filter fun q => decide (q.colour = colour) && checkedBy q.epoch epoch).map (·.island))
    ++ (s.store.asked.filter fun a => decide (a.colour = colour) && checkedBy a.epoch epoch).map (·.island)).eraseDups

/-- An island's accesses that wait at STORE are discarded (R35, R36). -/
def State.dropAccesses (s : State) (i : Nat) : State :=
  { s with store := { s.store with
    asked := s.store.asked.filter fun a => a.island ≠ i
    ch := s.store.ch.map fun (c : DramChannel) => { c with queue := c.queue.filter fun q => q.island ≠ i } } }

/-- REMOVAL_ACCESS_TIMEOUT: an access has been in flight 100 µs after its removal (R434). -/
def execRemovalAccessTimeout (dt colour : Nat) (s : State) : Out :=
  let s := s.elapse dt
  .next (match s.sec.removals.find? fun r => r.colour = colour with
    | some r =>
      if !s.inFlight colour r.epoch || decide (s.tb.now < r.at_ + 100000) then s
      else
        let s := (s.lateIslands colour r.epoch).foldl (fun (t : State) i => (((t.fault 0 i islStore 0 0).isolate i).goesOut t).dropAccesses i) s
        match s.sec.removals.find? fun r => r.colour = colour with
        | some r => s.endRemoval r
        | none => s
    | none => s)

/-! ### SEC_WATCH, the debug master and entropy (R406, R432, R436) -/

/-- SEC_WATCH. -/
def bodySecWatch (c : FCtx) (s : State) : FRes :=
  let n := c.u 0x10 1
  let m := c.u 0x11 1
  .checks [(decide (n < 32) && decide (m < 4), .param), (evOk c s n, .colour)] s <|
    let rest := s.sec.watch.filter fun w => w.ring ≠ c.ev n
    let new : SecWatch := { SecWatch.reset with ring := c.ev n, mask := BitVec.ofNat 8 m, colour := c.colour }
    .ok { s with sec := { s.sec with watch := if m = 0 then rest else rest ++ [new] } }

/-- SEC_WATCH (R432). -/
def execSecWatch (dt ring : Nat) (s : State) : Out := .next ((s.elapse dt).runFolio ring 0x0B07 bodySecWatch)

/-- A watcher of debug sessions that may be told now: at most once per second. -/
def SecWatch.debugDue (w : SecWatch) (now : Nat) : Bool :=
  w.mask.getLsbD 1 && (match w.dbgAt with | none => true | some t => decide (t + 1000000000 ≤ now))

/-- EV_DEBUG on the rings that watch debug sessions. -/
def State.debugEvent (s : State) (scope : Nat) : State :=
  let due : List SecWatch := s.sec.watch.filter fun (w : SecWatch) => w.debugDue s.tb.now
  let s := { s with sec := { s.sec with watch := s.sec.watch.map fun (w : SecWatch) => if w.debugDue s.tb.now then { w with dbgAt := some s.tb.now } else w } }
  s.postAll (due.map fun (w : SecWatch) => w.ring) 0x8B01 (leBytes 1 scope ++ leBytes 1 s.lifecycle.code)

/-- The scope SEC grants (R416, R436): the lesser of the token's scope and what the state allows; 0 grants nothing. A challenge needs
fresh randomness (R406). -/
def State.debugGrant (s : State) (scope : Nat) (tokenOk : Bool) : Nat :=
  let token := tokenOk && s.owner.isSome && !s.sec.entropyBad
  match s.lifecycle with
  | .foundry | .return => 3
  | .develop => if s.sec.fuses.ownerDigest.isNone then 2 else if token then min scope 2 else 0
  | .field => if token then min scope 1 else 0
  | .void => 0

/-- DEBUG_SESSION: the debug master opens a session, or closes the one that is open. -/
def execDebugSession (dt : Nat) (req : DebugIn) (s : State) : Out :=
  let s := s.elapse dt
  .next (match req with
    | .closeSession => if s.sec.debugScope = 0 then s else ({ s with sec := { s.sec with debugScope := 0 } }).debugEvent 0
    | .openSession scope tokenOk =>
      let g := s.debugGrant scope tokenOk
      if g = 0 then s else ({ s with sec := { s.sec with debugScope := g, debugSeen := true } }).debugEvent g)

/-- ENTROPY_FAIL: SEC stops the DRBG and counts a lasting SEC fault (R406). -/
def execEntropyFail (dt : Nat) (s : State) : Out :=
  let s := s.elapse dt
  .next (({ s with sec := { s.sec with entropyBad := true } }).fault 11 islSec 0 0 0)

end Sys2Proof.Machine
end

