-- ==== Sys2Proof/Machine/Startup.lean ====
section
/-!
DEFINITION. Device reset, boot, and PERST_N (12_trust.md R412, R413, R417, R423; 18_package_startup.md R605–R615).
-/

namespace Sys2Proof.Machine

/-- DEVICE_RESET: RESET_N, or an internal reset. A life-cycle transition that is to be made burns its fuses first: `burned` of them (R417, R611). -/
def execDeviceReset (dt burned : Nat) (s : State) : Out :=
  let s := s.elapse dt
  let s : State := match s.sec.transition with
    | some b => { s with sec := s.sec.burn b burned }
    | none => s
  .next s.deviceReset

/-! ### The boot ROM (R411–R413, R607) -/

/-- The slots as boot reads them: what the model knows them to hold, else what the operand says. -/
def Sec.readSlots (x : Sec) (b : BootIn) : Sec :=
  { x with slotA := some (x.slotA.getD (Image.ofIn b.slotA)), slotB := some (x.slotB.getD (Image.ofIn b.slotB)) }

/-- The slot that boots: the selector's, A where the selector fails its check, else the other; none where neither passes. -/
def State.bootSlot (s : State) : Option (Bool × Image) :=
  let first := s.sec.selector.getD false
  let pass (b : Bool) : Option (Bool × Image) := match s.sec.slot b with | some i => if s.imageOk i then some (b, i) else none | none => none
  (pass first).orElse fun _ => pass !first

/-- A record copy qualifies: at or above RECORD_COUNTER, with the owner keys that OWNER_DIGEST names (R423). -/
def Record.qualifies (r : Record) (f : Fuses) : Bool :=
  decide (f.recordCounter ≤ r.gen) && decide (f.ownerDigest = some (Config.sha384 (r.ownerE ++ r.ownerM)))

/-- The qualifying copy of the higher generation. -/
def Sec.bestRecord (x : Sec) : Option Record :=
  (x.recordCopies.filterMap id).foldl (fun (best : Option Record) r =>
    if !r.qualifies x.fuses then best
    else match best with | some b => if b.gen < r.gen then some r else best | none => some r) none

/-- The ring map without a provisioned one: CMD0 carries colour 1 (R326). -/
def defaultRingMap : List RingMapEntry := { RingMapEntry.reset with colour := 1, valid := true } :: List.replicate 31 RingMapEntry.reset

/-- Firmware reads the provisioning record: its items come into force, or the defaults where no copy qualifies (R423, R425). -/
def State.readRecord (s : State) : State :=
  let rec_ := s.sec.bestRecord
  let r := rec_.getD Record.reset
  let c := r.config.getD DevConfig.reset
  { s with
    sec := { s.sec with
      record := r, recordOk := rec_.isSome, stuck := s.sec.stuck || rec_.isNone, config := c
      srtp := r.srtp.foldl (fun (l : List SrtpSlot) x => l.set x.1 x.2) s.sec.srtp }
    store := { s.store with
      grain := c.grain, pinned := if c.pin = 0 then none else some (c.pin - 1), age1 := c.age1, age2 := c.age2, age3 := c.age3 }
    top := { s.top with ringMap := r.ringMap.getD defaultRingMap }
    host := { s.host with chan := if r.chans = [] then s.host.chan else r.chans } }

/-- The trim fuses' initial voltages and the ports' MAC addresses (R117, R539). -/
def State.readTrims (s : State) (b : BootIn) : State :=
  { s with
    net := { s.net with ports := s.net.ports.mapIdx fun i (p : NetPort) => { p with mac := s.sec.fuses.macBase + BitVec.ofNat 48 i } }
    fab := { s.fab with isl := s.fab.isl.mapIdx fun i (x : Island) => { x with vInit := b.vInit.getD i 0, vPlan := b.vInit.getD i 0 } } }

/-- The plate nonce is drawn, where the random source runs (R406, R412). -/
def State.drawNonce (s : State) : State :=
  if s.sec.entropyBad then s
  else
    let r := s.draw 8
    { r.2 with comp := { r.2.comp with nonce := some (BitVec.ofNat 64 (leNat r.1)) } }

/-- Pair A starts at ENTRY: firmware runs, HB_OUT toggles, the spine's lanes are driven (R412 step 5, R468, R555). -/
def State.startFirmware (s : State) (slot : Bool) (i : Image) : State :=
  let s := s.readRecord
  let s := { s with
    sec := { s.sec with running := i, bootStatus := 1, selector := some (s.sec.selector.getD slot) }
    top := { s.top with line := i.release.extractLsb' 24 8, build := i.release.extractLsb' 0 24, pairB := false }
    pwr := { s.pwr with booted := true, resetPins := false }
    twin := { s.twin with hbOut := true } }
  ([9, 10, 11].foldl State.quadUser s).refreshFaults.bootDone

/-- BOOT: the boot ROM checks the slots and starts an image, and firmware goes on to READY once the store is wiped. A held part stops
after step 2; a part with no image that passes halts with `TOP.FAULTS` bit 10 (R412, R413, R607). -/
def execBoot (dt : Nat) (boot : BootIn) (s : State) : Out :=
  let s := s.elapse dt
  if s.pwr.held ∨ s.pwr.booted ∨ s.sec.bootStatus ≠ 0 then .next s
  else
    let s := (s.readTrims boot).drawNonce
    if s.pwr.bootHold then .next { s with sec := { s.sec with bootStatus := 4 } }
    else
      let s := { s with sec := s.sec.readSlots boot }
      match s.bootSlot with
      | some (slot, i) => .next (s.startFirmware slot i)
      | none => .next { s with sec := { s.sec with bootStatus := 2, stuck := true } }.refreshFaults

/-! ### PERST_N (R612) -/

/-- PERST_ASSERT: HOST alone is reset. Every ring is disabled as a write would, the host end of the mailboxes is reset, and the endpoint's
interrupt table returns to its reset state. -/
def execPerstAssert (dt : Nat) (s : State) : Out :=
  let s := s.elapse dt
  if s.host.perst then .next s
  else
    let s := s.hostReset
    let s : State := { s with host := { s.host with perst := true } }
    .next (s.pcieLanes (.idle, .off))

/-- PERST_RELEASE: HOST starts link training. -/
def execPerstRelease (dt : Nat) (s : State) : Out :=
  let s := s.elapse dt
  if !s.host.perst then .next s
  else
    let s : State := { s with host := { s.host with perst := false } }
    .next (if s.pwr.held then s else s.pcieLanes (.active, .active))

end Sys2Proof.Machine
end

