-- ==== Sys2Proof/Machine/Words.lean ====
section
/-!
DEFINITION. The words that reads of the island register spaces find (11_store.md R394; 12_trust.md R428; 15_clocks_power_ageing.md R544;
16_lanes.md R562). Counters that a read clears, and `LANE.BITS_LO`, have commands of their own.
-/

namespace Sys2Proof.Machine

/-- The clock registers, from CTRL offset 0x8_0000 (R544). -/
def State.clockWord (s : State) (off : Nat) : Option Nat :=
  let p := s.pwr
  match off with
  | 0x0 => some (p.clkRef.toNat + 4 * b2n p.xa.good + 8 * b2n p.xb.good + 16 * b2n p.foscGood + 32 * b2n p.failover)
  | 0x4 => some (b2n p.forced)
  | 0x8 => some p.abPpm.toNat
  | 0xC => some (p.delay.toNat + 2 ^ 31 * b2n p.fused)
  | _ => none

/-- The SEC control registers, from SEC offset 0x4_0000 (R428). -/
def State.secWord (s : State) (off : Nat) : Option Nat :=
  let x := s.sec
  match off with
  | 0x00 => some x.actIndex.toNat
  | 0x08 => some (x.actWord0.toNat % 2 ^ 32)
  | 0x0C => some (x.actWord0.toNat / 2 ^ 32)
  | 0x10 => some (x.actWord1.toNat % 2 ^ 32)
  | 0x14 => some (x.actWord1.toNat / 2 ^ 32)
  | 0x18 => some (2 * b2n x.actBusy + 4 * x.actResult.toNat)
  | 0x20 => some x.epoch.toNat
  | _ => none

/-- A word of a timing set (R394). -/
def TimingSet.word (t : TimingSet) (off : Nat) : Option Nat :=
  match off with
  | 0x00 => some t.point.toNat
  | 0x04 => some (t.tRefi.toNat + 2 ^ 16 * t.tRfcAb.toNat)
  | 0x08 => some (t.tRfcPb.toNat + 2 ^ 16 * t.raaimt.toNat + 2 ^ 24 * t.raammt.toNat)
  | 0x0C => some t.raadec.toNat
  | 0x10 => some (t.tRcd.toNat + 2 ^ 16 * t.tRp.toNat)
  | 0x14 => some (t.tRas.toNat + 2 ^ 16 * t.tWr.toNat)
  | 0x18 => some (t.tFaw.toNat + 2 ^ 16 * t.tRrd.toNat)
  | _ => none

/-- The shadow set passes its range checks: a point that exists, and no timing of zero (DESIGN CHOICE, log entry 42). -/
def TimingSet.valid (t : TimingSet) : Bool :=
  decide (t.point.toNat < 3) && decide (t.tRefi ≠ 0) && decide (t.tRfcAb ≠ 0) && decide (t.tRfcPb ≠ 0) && decide (t.tRcd ≠ 0) && decide (t.tRp ≠ 0)
    && decide (t.tRas ≠ 0) && decide (t.tWr ≠ 0) && decide (t.tFaw ≠ 0) && decide (t.tRrd ≠ 0)

/-- The timing registers, from the start of STORE's space (R394). -/
def State.storeWord (s : State) (off : Nat) : Option Nat :=
  if off = 0 then some (2 * b2n s.store.shadow.valid + 4 * b2n s.store.switching.isSome)
  else if 0x1000 ≤ off ∧ off < 0x2000 then s.store.shadow.word (off - 0x1000)
  else if 0x2000 ≤ off ∧ off < 0x3000 then s.store.active.word (off - 0x2000)
  else none

/-- The lane registers that a read leaves as they are, from offset 0xC_0000 of the owning island (R562). -/
def State.laneWord (s : State) (island off : Nat) : Option Nat :=
  let first := if island = islSpine then 9 else if island = islNet then 8 else if island = islHost then 12 else island - islTx 0
  let q := first + off / 0x10000
  let x := s.lane q (off % 0x10000 / 0x400)
  if 13 ≤ q ∨ quadIsland q ≠ island ∨ 0x1000 ≤ off % 0x10000 then none
  else match off % 0x400 with
    | 0x00 => some (x.tx.code + 2 ^ 4 * x.rx.code + 2 ^ 8 * b2n x.frozen + 2 ^ 9 * b2n x.sync + 2 ^ 10 * b2n x.cdr)
    | 0x04 => some (x.ctle.toNat + 2 ^ 4 * x.vga.toNat)
    | 0x10 => some x.bitsHi.toNat
    | _ => none

/-- The word at an offset of an island's register space. -/
def State.islandWord (s : State) (island off : Nat) : Option Nat :=
  if (s.island island).isolated then none
  else if 0xC0000 ≤ off then s.laneWord island (off - 0xC0000)
  else if island = islCtrl ∧ 0x80000 ≤ off then s.clockWord (off - 0x80000)
  else if island = islSec ∧ 0x40000 ≤ off then s.secWord (off - 0x40000)
  else if island = islStore then s.storeWord off
  else none

end Sys2Proof.Machine
end

