-- ==== Sys2Proof/Machine/Store.lean ====
section
/-!
DEFINITION. The central store and its controller: requests, refresh, frequency points, re-reads, retirement and wipe (11_store.md).
-/

namespace Sys2Proof.Machine

/-! ### EV_STORE (R404) -/

/-- An address that a ring may be told: one in a region of its colour. -/
def State.addrFor (s : State) (ring addr : Nat) : Nat :=
  if s.store.regions.any fun a => decide (a.base ≤ addr) && decide (addr < a.base + a.size) && decide (a.colour = s.ringColour ring) then addr else 0

/-- An occurrence for EV_STORE: every subscribed ring is told, with the occurrences since the last; catch-up bursts at most once per second. -/
def State.storeEvent (s : State) (c kind value addr : Nat) : State :=
  let g := (s.dram (c % 8)).ev.getD kind EvKind.reset
  let n := sat 32 (g.count + 1)
  if kind ≠ 4 ∨ s.since g.last 1000000000 then
    let s := s.modDram (c % 8) fun x => { x with ev := x.ev.modify kind fun _ => { count := 0, last := some s.tb.now } }
    (watchers s.store.watch kind).foldl (fun (t : State) r => t.post r 0x8A00 0
      (leBytes 1 kind ++ leBytes 1 (if kind = 0 then 0xFF else c) ++ leBytes 1 t.store.point ++ leBytes 1 value ++ leBytes 4 n
        ++ leBytes 8 (t.addrFor r addr))) s
  else s.modDram (c % 8) fun x => { x with ev := x.ev.modify kind fun e => { e with count := n } }

/-! ### Banks: activations, RFM and refresh (R386, R388) -/

/-- The activation thresholds of the active set; 0 means the die asks for none. -/
def State.raaImt (s : State) : Nat := s.store.active.raaimt.toNat

/-- What one refresh takes from the counters it covers (R388). -/
def State.raaDec (s : State) : Nat := s.store.active.raadec.toNat * s.raaImt
def State.raaMmt (s : State) : Nat := s.store.active.raammt.toNat

/-- An RFM to a bank. -/
def DramBank.rfm (b : DramBank) (imt : Nat) : DramBank := { b with raa := b.raa - imt, rfmDue := decide (0 < imt) && decide (imt ≤ b.raa - imt), openRow := none }

/-- An activation of a row, where it is not the one held active. -/
def DramBank.act (b : DramBank) (row imt : Nat) : DramBank :=
  if b.openRow = some row then b
  else { b with openRow := some row, raa := b.raa + 1, rfmDue := b.rfmDue || (decide (0 < imt) && decide (imt ≤ b.raa + 1)) }

/-- A bank held at RAAMMT takes no activation until an RFM (R388). -/
def State.bankHeld (s : State) (c ca : Nat) : Bool :=
  let b := (s.dram c).banks.getD (bankOf ca) DramBank.reset
  decide (0 < s.raaMmt) && decide (s.raaMmt ≤ b.raa) && decide (b.openRow ≠ some (rowOf ca))

/-- RFM goes to the banks of a channel that a test names. -/
def State.rfmWhere (s : State) (c : Nat) (p : DramBank → Bool) : State :=
  let n := ((s.dram c).banks.filter p).length
  if n = 0 then s
  else s.modDram c fun x => { x with
    banks := x.banks.map fun (b : DramBank) => if p b then b.rfm s.raaImt else b, rfms := sat 32 (x.rfms + n) }

/-- Forced RFM: another RAAIMT has passed since the RFM fell due, or the bank is held at RAAMMT. -/
def State.forcedRfm (s : State) (c : Nat) : State :=
  let imt := s.raaImt
  s.rfmWhere c fun b => b.rfmDue && (decide (2 * imt ≤ b.raa) || (decide (0 < s.raaMmt) && decide (s.raaMmt ≤ b.raa)))

/-- A row of a channel is opened for an access. -/
def State.openFor (s : State) (c ca : Nat) : State :=
  s.modDram c fun x => { x with banks := x.banks.modify (bankOf ca) fun b => b.act (rowOf ca) s.raaImt }

/-- One refresh: it covers every bank of the channel. -/
def DramChannel.refreshed (x : DramChannel) (dec : Nat) : DramChannel :=
  { x with
    debt := x.debt - 1
    banks := x.banks.map fun (b : DramBank) => { b with raa := b.raa - dec, openRow := none, rfmDue := b.rfmDue && decide (dec < b.raa) } }

/-- Refreshes one after another. -/
def DramChannel.refreshN (x : DramChannel) (dec : Nat) : Nat → DramChannel
  | 0 => x
  | n + 1 => (x.refreshed dec).refreshN dec n

/-! ### Requests (R41–R45, R381–R384, R393) -/

/-- The channel and the channel address of a store address. -/
def State.channelAt (s : State) (a : Nat) : Nat := channelOf s.store.grain a
def State.caAt (s : State) (a : Nat) : Nat := chanAddr s.store.grain a

/-- The age limit of a class in ns; class C0 has none. -/
def State.ageLimit (s : State) (cls : Nat) : Option Nat :=
  if cls = 1 then some (s.store.age1 * 1000) else if cls = 2 then some (s.store.age2 * 1000) else if cls = 3 then some (s.store.age3 * 1000) else none

/-- Requests that have waited longer than their limit are promoted and counted (R381). -/
def State.promote (s : State) : State :=
  let late (q : StoreReq) : Bool := !q.promoted && !q.reread && (match s.ageLimit q.cls with | some n => decide (q.at_ + n < s.tb.now) | none => false)
  let n := (s.store.ch.map fun (x : DramChannel) => (x.queue.filter late).length).sum
  { s with store := { s.store with
    promoted := sat 32 (s.store.promoted + n)
    ch := s.store.ch.map fun (x : DramChannel) => { x with queue := x.queue.map fun (q : StoreReq) => if late q then { q with promoted := true } else q } } }

/-- The rank of a waiting request (R381). -/
def StoreReq.rank (q : StoreReq) : Nat := if q.reread then 2 else if q.cls = 0 then 3 else if q.promoted then 4 else 4 + q.cls

/-- A request can be served now: no earlier request waits for its block, and, unless the write queue answers it, its bank can be activated and no
switch runs (R383, R384, R388, R393). -/
def State.servable (s : State) (c : Nat) (before : List StoreReq) (q : StoreReq) : Bool :=
  let x := s.dram c
  !(before.any fun p => p.addr = q.addr) &&
    (if q.wr then decide (x.writeQ.length < 128)
     else x.writeQ.contains q.addr || (s.store.switching.isNone && !s.bankHeld c (s.caAt q.addr)))

/-- The requests of a queue that can be served, each with its place. -/
def State.servables (s : State) (c : Nat) : List StoreReq → List StoreReq → List (Nat × StoreReq)
  | _, [] => []
  | before, q :: rest => (if s.servable c before q then [(before.length, q)] else []) ++ s.servables c (before ++ [q]) rest

/-- The request that a channel serves next: the highest rank, the oldest within it. -/
def State.nextRequest (s : State) (c : Nat) : Option (Nat × StoreReq) :=
  (s.servables c [] (s.dram c).queue).foldl (fun (a : Option (Nat × StoreReq)) q =>
    match a with | none => some q | some b => if q.2.rank < b.2.rank then some q else a) none

/-- STORE's answer, newest first. -/
def State.answer (s : State) (r : StoreRsp) : State := { s with store := { s.store with rsp := r :: s.store.rsp } }

/-- A write enters the write queue and is acknowledged: its block has the new content and check value from now on (R26, R42, R45, R384). -/
def State.serveWrite (s : State) (c : Nat) (q : StoreReq) : State :=
  let s := if q.landed then s else { s with store := s.store.putBlock q.addr (padTo 256 q.data) }
  (s.modDram c fun x => { x with
    writeQ := x.writeQ ++ [q.addr], draining := x.draining || decide (96 ≤ x.writeQ.length + 1) }).answer
      { StoreRsp.reset with island := q.island, wr := true, addr := q.addr }

/-- What a read finds: its block, the check value handed on with it (R26), and whether the two mismatch. -/
def State.readRsp (s : State) (q : StoreReq) : StoreRsp :=
  if q.landed then { StoreRsp.reset with island := q.island, addr := q.addr, data := q.data, crc := q.crc, poisoned := q.poisoned }
  else { StoreRsp.reset with
    island := q.island, addr := q.addr, data := s.store.mem.readN q.addr 256, crc := s.store.checkAt q.addr, poisoned := s.store.damagedAt q.addr }

/-- A read is served, from the write queue or from the DRAM (R384); a re-read always from the DRAM (R32, R396). -/
def State.serveRead (s : State) (c : Nat) (q : StoreReq) : State :=
  let s := if !q.reread && (s.dram c).writeQ.contains q.addr then s else s.openFor c (s.caAt q.addr)
  let wait := s.tb.now - q.at_
  (s.modDram c fun x => { x with longC0 := if q.cls = 0 ∧ !q.reread then max x.longC0 (sat 32 wait) else x.longC0 }).answer (s.readRsp q)

/-- A channel serves its next request. -/
def State.serveChannel (s : State) (c : Nat) : State :=
  let s := s.promote.forcedRfm c
  match s.nextRequest c with
  | none => s
  | some (i, q) =>
    let s := s.modDram c fun x => { x with queue := x.queue.eraseIdx i }
    if q.wr then s.serveWrite c q else s.serveRead c q

/-- The service classes an island issues to STORE (R22). -/
def classesOf (island : Nat) : List Nat :=
  if island = islCtrl ∨ island = islNet then [1, 3]
  else if 3 ≤ island ∧ island ≤ 10 then [1]
  else if island = islComp then [0, 2]
  else if 11 ≤ island ∧ island ≤ 12 ∨ island = islSpine then [2]
  else if island = islSec ∨ island = islHost ∨ island = islSvc then [3]
  else []

/-- A refused access: no memory is reached, SEC logs it, and a read is delivered as a poisoned block of zeros (R50, R431). -/
def State.refuseReq (s : State) (r : ReqIn) : State :=
  (s.logRefused r.island r.colour r.addr r.wr).answer
    { StoreRsp.reset with island := r.island, wr := r.wr, addr := r.addr, refused := true, poisoned := !r.wr, data := List.replicate r.len 0 }

/-- A write is the one that STORE has asked for again. -/
def Asked.is (a : Asked) (r : ReqIn) : Bool := decide (a.island = r.island) && decide (a.addr = r.addr) && decide (a.colour = r.colour) && r.wr

/-- The write that STORE has asked for again, or none (R33). -/
def State.askedOf (s : State) (r : ReqIn) : Option Asked := s.store.asked.find? fun a => a.is r

/-- How often STORE has asked for a write again. -/
def State.askedFor (s : State) (r : ReqIn) : Nat := ((s.askedOf r).map (·.times)).getD 0

/-- The epoch an access was checked at: a re-send belongs to the access it repeats (R433). -/
def State.tagOf (s : State) (r : ReqIn) : BitVec 16 := ((s.askedOf r).map (·.epoch)).getD s.sec.epoch

/-- The same, set; 0 ends the asking. -/
def State.setAsked (s : State) (r : ReqIn) (n : Nat) : State :=
  let rest := s.store.asked.filter fun a => !a.is r
  let new : Asked := { island := r.island, addr := r.addr, colour := r.colour, epoch := s.tagOf r, times := n }
  { s with store := { s.store with asked := if n = 0 then rest else new :: rest } }

/-- A block request is queued at its channel; a good copy of a write that had been asked for again counts the re-sends on its crossing (R28). -/
def State.queueReq (s : State) (r : ReqIn) : State :=
  let n := if r.wr then s.askedFor r else 0
  let x := s.crossing r.island islStore
  let tag := s.tagOf r
  let s := if n = 0 then s else (s.setAsked r 0).setCrossing { x with resends := sat 32 (x.resends + n) }
  let q : StoreReq := { StoreReq.reset with
    island := r.island, colour := r.colour, cls := r.cls, wr := r.wr, addr := r.addr, data := r.data, crc := r.crc, at_ := s.tb.now, epoch := tag }
  s.modDram (s.channelAt r.addr) fun x => { x with queue := x.queue ++ [q] }

/-- A copy of a write mismatches its check value: STORE asks for it again, three times at most; a write that ends poisoned is not written,
and its failure is reported (R28, R33). -/
def State.badWrite (s : State) (r : ReqIn) : State :=
  let n := s.askedFor r
  if !r.poisoned && decide (n < 3) then
    (s.setAsked r (n + 1)).answer { StoreRsp.reset with island := r.island, wr := true, addr := r.addr, again := true }
  else
    let x := s.crossing r.island islStore
    let lost : Crossing := { x with poisonedCount := sat 32 (x.poisonedCount + 1), faults := sat 32 (x.faults + 1), lastPoison := s.tb.dev }
    let s := if r.poisoned then s else ((s.setAsked r 0).setCrossing lost).faultOut 0 r.island islStore 0 r.addr
    (s.modDram (s.channelAt r.addr) fun x => { x with failedWrites := sat 32 (x.failedWrites + 1) }).answer
      { StoreRsp.reset with island := r.island, wr := true, addr := r.addr, poisoned := true }

/-- A CTRL core's access of less than a block: a read is served from the whole block, a write is merged after a check of the block it reads,
and its check value computed anew (R27, R41). -/
def State.partAccess (s : State) (r : ReqIn) : State :=
  let s := { s with store := s.store.land r.addr r.len }
  let b := r.addr / 256 * 256
  let bad := s.store.damagedAt b
  let s := s.damageFaults [b]
  if r.wr then
    (s.storeWrite r.addr (padTo r.len r.data)).answer { StoreRsp.reset with island := r.island, wr := true, addr := r.addr, poisoned := bad }
  else
    let data := s.store.mem.readN r.addr r.len
    s.answer { StoreRsp.reset with island := r.island, addr := r.addr, data := data, crc := s.store.checkAt b, poisoned := bad }

/-- An access to CTRL SRAM, the boot ROM or plate memory, which lie outside the store (R39, R49). The ROM's content is the part's own, so a
constant with no body gives it. -/
def State.dieAccess (s : State) (r : ReqIn) : State :=
  let rsp : StoreRsp := { StoreRsp.reset with island := r.island, wr := r.wr, addr := r.addr }
  match placeOf r.addr with
  | .sram =>
    let a := r.addr - 0x1000000000
    if r.wr then { s with fab := { s.fab with sram := s.fab.sram.writeN a (padTo r.len r.data) } }.answer rsp
    else s.answer { rsp with data := s.fab.sram.readN a r.len }
  | .plate =>
    let h := (r.addr - 0x1100000000) / 0x40000
    let a := (r.addr - 0x1100000000) % 0x40000
    if r.wr then (s.modPlate h fun p => { p with mem := p.mem.writeN a (padTo r.len r.data) }).answer rsp
    else s.answer { rsp with data := (s.plate h).mem.readN a r.len }
  | .rom => if r.wr then s.answer rsp else s.answer { rsp with data := (List.range r.len).map fun i => Config.bootRom (r.addr - 0x1040000000 + i) }
  | _ => s

/-- The forms an access has: a whole block under a class its island issues, less than a block within one, by a CTRL core (R22, R41), or a word of
a register, by a CTRL core or through SEC's debug port (R51, R437). -/
def requestOk (r : ReqIn) : Bool :=
  (classesOf r.island).contains r.cls &&
    ((decide (r.len = 256) && decide (r.addr % 256 = 0))
      || (decide (r.island = islCtrl) && decide (0 < r.len) && decide (r.addr % 256 + r.len ≤ 256))
      || (decide (r.island = islSec) && decide (r.len = 4) && decide (r.addr % 4 = 0)))

/-- A read of a word of an island's register space (R51); writes are REGISTER_WRITE's. -/
def State.regAccess (s : State) (r : ReqIn) (island : Nat) : State :=
  if r.wr ∨ r.len ≠ 4 ∨ r.addr % 4 ≠ 0 then s
  else match s.islandWord island (r.addr % 0x100000) with
    | some v => s.answer { StoreRsp.reset with island := r.island, addr := r.addr, data := leBytes 4 v }
    | none => s

/-- A request arrives: refused until the wipe ends, where the address is not decoded, or where the access table does not grant it (R50, R400,
R428, R431). A re-send is not checked again (R433). -/
def State.arrive (s : State) (r : ReqIn) : State :=
  if !requestOk r then s
  else
    match placeOf r.addr with
    | .undecoded => s.refuseReq r
    | .regs i => if s.permitsPage r.colour (r.addr / 4096) r.wr then s.regAccess r i else s.refuseReq r
    | .store =>
      if !s.store.ready || !((s.askedOf r).isSome || s.permitsPage r.colour (r.addr / 4096) r.wr) then s.refuseReq r
      else if r.len < 256 then s.partAccess r
      else if r.wr && (r.poisoned || decide (crc32c (padTo 256 r.data) ≠ r.crc)) then s.badWrite r
      else s.queueReq r
    | _ => if s.permitsPage r.colour (r.addr / 4096) r.wr then s.dieAccess r else s.refuseReq r

/-- STORE_REQUEST: a block request arrives, and a channel serves its next one. -/
def execStoreRequest (dt : Nat) (arrive : Option ReqIn) (serve : Option Nat) (s : State) : Out :=
  let s := s.elapse dt
  let s := match arrive with | some r => s.arrive r | none => s
  match serve with
  | some c => .next (if c < 8 ∧ s.store.ready then s.serveChannel c else s)
  | none => .next s

/-- A read waits at a channel. -/
def DramChannel.readWaits (x : DramChannel) : Bool := x.queue.any fun q => !q.wr

/-- WRITE_QUEUE_DRAIN: queued blocks go to the DRAM, oldest first: from 96 on, or while no read waits, down to 32 (R384). -/
def execWriteQueueDrain (dt c blocks : Nat) (s : State) : Out :=
  let s := s.elapse dt
  let x := s.dram c
  if 8 ≤ c ∨ s.store.switching.isSome ∨ !(x.draining || !x.readWaits) then .next s
  else
    let n := min blocks (x.writeQ.length - 32)
    let s := (x.writeQ.take n).foldl (fun (t : State) a => t.openFor c (t.caAt a)) s
    .next (s.modDram c fun y => { y with writeQ := y.writeQ.drop n, draining := y.draining && decide (32 < y.writeQ.length - n) })

/-! ### Refresh (R386–R388) -/

/-- Requests for which refresh is postponed wait: class C0, class C1 or promoted. -/
def DramChannel.busy (x : DramChannel) : Bool := x.queue.any fun q => decide (q.cls ≤ 1) || q.promoted

/-- REFRESH_DUE: a refresh interval has passed on a channel. It is postponed, issued, or, on an idle channel, the next is pulled in; with eight
owed, a catch-up burst brings the debt to four. -/
def execRefreshDue (dt c : Nat) (s : State) : Out :=
  let s := (s.elapse dt).promote
  let x := s.dram c
  let dec := s.raaDec
  if 8 ≤ c ∨ !s.store.ready ∨ s.store.switching.isSome then .next s
  else
    let s := s.forcedRfm c
    let debt := x.debt + 1
    let s := s.modDram c fun y => { y with debt := debt, worstDebt := max y.worstDebt debt.toNat }
    if 8 ≤ debt then
      .next ((s.modDram c fun y => { (y.refreshN dec 4) with catchUps := sat 32 (y.catchUps + 1) }).storeEvent c 4 0 0)
    else if x.busy then .next s
    else
      let s := s.rfmWhere c fun b => b.rfmDue
      let n := if x.queue.isEmpty then (if -8 < debt - 1 then 2 else 1) else 1
      .next (s.modDram c fun y => y.refreshN dec n)

/-- A die above its operating range is handled as a hot junction is: THERMAL, `TOP.FAULTS` bit 12 and `TOP.CHANGE` bit 5; and once no die
has been above it for 1 s, THERMAL with VALUE 0 (R387, R535). MR4 gives no temperature, so VALUE is a free value. -/
def State.judgeDies (s : State) : State :=
  if s.store.ch.any fun (x : DramChannel) => x.tooHot then
    let s := { s with pwr := { s.pwr with dieCoolSince := none } }
    if s.pwr.dieHot then s
    else
      let r := s.open_
      let s := { r.2 with pwr := { r.2.pwr with dieHot := true, thermals := sat 32 (r.2.pwr.thermals + 1) } }
      (s.powerEvent 3 islStore (r.1 % 65536) true).refreshFaults.change 0b100000
  else
    let t := s.pwr.dieCoolSince.getD s.tb.now
    let s := { s with pwr := { s.pwr with dieCoolSince := some t } }
    if s.pwr.dieHot && decide (t + 1000000000 ≤ s.tb.now) then
      ({ s with pwr := { s.pwr with dieHot := false } }.powerEvent 3 islStore 0 true).refreshFaults
    else s

/-- MR4_READ: the refresh-rate factor of a die, every 16 ms; a change is reported, and a die above its operating range sets `TOP.FAULTS`
bit 12 (R387). -/
def execMr4Read (dt c factor : Nat) (tooHot : Bool) (s : State) : Out :=
  let s := s.elapse dt
  let x := s.dram c
  if 8 ≤ c ∨ !(factor = 1 ∨ factor = 2 ∨ factor = 4) then .next s
  else
    let s := s.modDram c fun y => { y with mr4 := factor, tooHot := tooHot }
    let s := if x.mr4 ≠ factor then s.storeEvent c 3 factor 0 else s
    let s := if tooHot && !x.tooHot then s.storeEvent c 3 0xFF 0 else s
    .next s.judgeDies

/-! ### Frequency points (R389–R394) -/

/-- A switch ends: the owed refreshes were issued, the queues are drained, no row is open and the debt is 0 (R392). -/
def DramChannel.switched (x : DramChannel) (dec : Nat) : DramChannel :=
  { x.refreshN dec x.debt.toNat with
    writeQ := [], draining := false, debt := 0, banks := (x.refreshN dec x.debt.toNat).banks.map fun (b : DramBank) => { b with openRow := none } }

/-- The point changes with the timing set that was the shadow set, and what waited for it goes on (R391, R392). -/
def State.atPoint (s : State) (p : Nat) (set_ : TimingSet) : State :=
  let dec := s.raaDec
  let s := s.storeAt p set_
  let s := { s with store := { s.store with
    switching := none, switches := sat 32 (s.store.switches + 1), lastSwitch := some s.tb.now
    ch := s.store.ch.map (DramChannel.switched · dec) } }
  let goOn (b : Begun) : Begun := match b.wait with | .store _ => { b with wait := .run } | _ => b
  let s := { s with host := { s.host with cmdq := s.host.cmdq.map fun (q : CmdQ) => { q with begun := q.begun.map goOn } } }
  s.storeEvent 0 0 0 0

/-- An urgent folio is waiting or running; one that waits for a switch does not hold it up. -/
def State.urgentAbout (s : State) : Bool :=
  s.host.cmdq.any fun q => (q.fetched.any fun f => !f.damaged && f.folio.urgent)
    || (match q.begun with | some b => b.folio.urgent && (match b.wait with | .store _ => false | _ => true) | none => false)

/-- Firmware may begin a switch: at most once per 100 ms, with no urgent folio about and no handover (R391). -/
def State.maySwitch (s : State) : Bool :=
  s.store.ready && s.since s.store.lastSwitch 100000000 && !s.urgentAbout && !s.top.handover && !s.twin.resyncCause1

/-- The highest point that a waiting folio asks for. -/
def State.pointAsked (s : State) : Option Nat :=
  (s.host.cmdq.filterMap fun q => match q.begun with
    | some b => (match b.wait with | .store p => some p.toNat | _ => none)
    | none => none).max?

/-- POINT_SWITCH: a switch runs to its end: one that `STORE.GO` has begun, or one that a waiting folio asks for (R391–R393). -/
def execPointSwitch (dt target : Nat) (s : State) : Out :=
  let s := s.elapse dt
  if 3 ≤ target then .next s
  else if s.store.switching = some target then .next (s.atPoint target s.store.shadow)
  else if s.store.switching.isNone ∧ s.pointAsked = some target ∧ s.maySwitch then .next (s.atPoint target (TimingSet.ofDie target))
  else .next s

/-- The lowest point below the present one for which D has been low for 10 s. -/
def State.pointDown (s : State) : Option Nat :=
  (List.range s.store.point).find? fun p => match s.store.lowSince.getD p none with | some t => decide (t + 10000000000 ≤ s.tb.now) | none => false

/-- POINT_DOWN_TIMEOUT: firmware looks at D; after 10 s at or below 80 % of a lower budget it switches down (R391). The 10 s run from the first
look that finds D low (DESIGN CHOICE, log entry 41). -/
def execPointDownTimeout (dt : Nat) (s : State) : Out :=
  let s := (s.elapse dt).noteDemand
  let d := s.demand
  match s.pointDown with
  | some p =>
    if s.store.pinned.isNone ∧ s.store.switching.isNone ∧ s.maySwitch then .next (s.atPoint p (TimingSet.ofDie p)) else .next s
  | none => .next { s with store := { s.store with
      lowSince := s.store.lowSince.zipIdx.map fun q => if q.1.isNone && lowFor d q.2 then some s.tb.now else q.1 } }

/-- A write of `STORE.GO` starts a switch to the shadow set; with `STORE.SHADOW_VALID` clear it does nothing (R394). -/
def State.storeGo (s : State) : State :=
  if s.store.shadow.valid ∧ s.store.switching.isNone ∧ s.store.ready then
    { s with store := { s.store with switching := some s.store.shadow.point.toNat } }
  else s

/-- STORE_GO (R394). -/
def execStoreGo (dt : Nat) (s : State) : Out := .next (s.elapse dt).storeGo

/-! ### Errors (R396–R398) -/

/-- STORE_REREAD: STORE reads a block and its check value anew, at rank 2, for a receiver that found it corrupt, and sends the new copy (R32, R396).
What matches here and fails there counts against the crossing; a mismatch here counts against the bank-row. Re-sends that end good are counted on
the crossing; after the third, the block is delivered poisoned (R28). -/
def execStoreReread (dt rcv addr attempt : Nat) (atStore goodAtReceiver : Bool) (s : State) : Out :=
  let s := s.elapse dt
  if placeOf addr ≠ .store ∨ addr % 256 ≠ 0 ∨ attempt = 0 ∨ 3 < attempt ∨ !s.store.ready ∨ 35 ≤ rcv then .next s
  else
    let c := s.channelAt addr
    let s := { s with store := s.store.land addr 256 }
    let matches_ := atStore && !s.store.damagedAt addr
    let good := goodAtReceiver && matches_
    let q : StoreReq := { StoreReq.reset with island := rcv, addr := addr, reread := true, at_ := s.tb.now }
    let copy := { s.readRsp q with poisoned := !good && decide (attempt = 3) }
    let s := ((s.openFor c (s.caAt addr)).answer copy).modDram c fun x => { x with rereads := sat 32 (x.rereads + 1) }
    let s := if matches_ then s else s.fault 1 islStore c (bankRow (s.caAt addr)) addr
    let x := s.crossing islStore rcv
    if good then .next (s.setCrossing { x with resends := sat 32 (x.resends + attempt) })
    else if attempt < 3 then .next s
    else
      let s := (s.modDram c fun x => { x with poisonedDel := sat 32 (x.poisonedDel + 1) }).storeEvent c 1 0 addr
      let lost : Crossing := { x with poisonedCount := sat 32 (x.poisonedCount + 1), faults := sat 32 (x.faults + 1), lastPoison := s.tb.dev }
      .next (if matches_ then (s.setCrossing lost).faultOut 0 islStore rcv 0 addr else s)

/-- What the DRAM holds of a block: a sealed one encrypted with AES-256-XTS under the key drawn at reset, the tweak being its address divided by
256; the check value stays that of the plaintext (R395). -/
def State.dramBlock (s : State) (a : Nat) : List Byte :=
  let plain := s.store.mem.readN a 256
  if s.sealedPage (a / 4096) then Config.xts s.store.xtsKey (a / 256) plain else plain

/-- BANK_ROW_RETIRE: a bank-row with a lasting fault is redirected to a spare, as it stands; with no spare left `TOP.FAULTS` bit 5 is set (R398). -/
def execBankRowRetire (dt c ca : Nat) (s : State) : Out :=
  let s := s.elapse dt
  let row := bankRow ca
  let x := s.dram c
  if 8 ≤ c ∨ !x.due.contains row then .next s
  else
    let s := s.modDram c fun y => { y with due := y.due.filter fun r => r ≠ row }
    if x.retired.length < 256 then
      .next ((s.modDram c fun y => { y with retired := row :: y.retired }).storeEvent c 2 0 (rowAddr s.store.grain c row))
    else .next ({ s with store := { s.store with noSpare := true } }.refreshFaults)

/-! ### Wipe (R399, R400) -/

/-- SEC draws the key of the sealed regions (R395); it is drawn as the wipe ends, before STORE takes a request (DESIGN CHOICE, log entry 37). -/
def State.drawXtsKey (s : State) : State :=
  let r := s.draw 64
  { r.2 with store := { r.2.store with xtsKey := r.1 } }

/-- RESET_WIPE: the DRAM is initialised, trained and wiped, and STORE accepts requests; a channel that fails halts the start-up. -/
def execResetWipe (dt : Nat) (failed : Option Nat) (s : State) : Out :=
  let s := s.elapse dt
  if s.pwr.held ∨ !s.top.wiping ∨ !s.pwr.trainedOk then .next s
  else match failed with
    | some c =>
      .next ({ (s.modDram c fun x => { x with trained := false }) with
        pwr := { s.pwr with trainedOk := false }, sec := { s.sec with bootStatus := 3 }
        store := { (s.modDram c fun x => { x with trained := false }).store with noSpare := true } }.refreshFaults)
    | none =>
      let s : State := { s with
        top := { s.top with wiping := false }, pwr := { s.pwr with wiped := true }
        store := { s.store with mem := [], damaged := [], ready := true, point := 2 } }
      .next s.drawXtsKey.bootDone

/-! ### STORE_TUNE, STORE_STATE, STORE_WATCH (R402–R404) -/

/-- STORE_TUNE: a pinned point in use no longer allows the switch that it asks for to be put off, so the folio waits for it (R391). -/
def bodyStoreTune (c : FCtx) (s : State) : FRes :=
  let pin := c.u 0x10 1
  let a1 := c.u 0x14 2
  let a2 := c.u 0x16 2
  let a3 := c.u 0x18 4
  .checks [(decide (pin < 4) && decide (c.u 0x11 3 = 0) && decide (1 ≤ a1) && decide (a1 ≤ 1000) && decide (1 ≤ a2) && decide (a2 ≤ 10000)
        && decide (1 ≤ a3) && decide (a3 ≤ 100000), .param), (decide (s.lifecycle = .develop), .lifecycle),
      (decide (pin = 0) || fracLe s.demand (pointBudget (pin - 1)), .capacity)] s <|
    if pin ≠ 0 ∧ s.store.point ≠ pin - 1 then .wait (.store (BitVec.ofNat 64 (pin - 1))) s
    else .ok { s with store := { s.store with pinned := if pin = 0 then none else some (pin - 1), age1 := a1, age2 := a2, age3 := a3 } }

/-- STORE_TUNE (R402). -/
def execStoreTune (dt ring : Nat) (s : State) : Out := .next ((s.elapse dt).runFolio ring 0x0A00 bodyStoreTune)

/-- A channel's 28 bytes of STORE_STATE. -/
def DramChannel.bytes (x : DramChannel) : List Byte :=
  leBytes 4 x.rereads ++ leBytes 4 x.poisonedDel ++ leBytes 4 x.failedWrites ++ leBytes 4 x.catchUps ++ leBytes 4 x.rfms ++ leBytes 2 x.retired.length
    ++ leBytes 1 x.mr4 ++ leBytes 1 x.worstDebt ++ leBytes 4 (sat 32 x.longC0)

/-- The block of STORE_STATE. -/
def State.storeBlock (s : State) : List Byte :=
  let d := s.demand
  layout 256 [(0, leBytes 1 s.store.point), (1, leBytes 1 (s.store.pinned.getD 0xFF)), (2, leBytes 1 s.store.grain),
    (4, leBytes 4 (d.1 / (max 1 d.2 * 1000000))), (8, leBytes 4 (pointBudget s.store.point / 1000000)),
    (0x0C, leBytes 4 s.store.switches),
    (0x10, leBytes 2 s.store.age1 ++ leBytes 2 s.store.age2 ++ leBytes 2 (sat 16 s.store.age3)), (0x18, leBytes 4 s.store.promoted),
    (0x20, s.store.ch.flatMap DramChannel.bytes)]

/-- STORE_STATE. -/
def bodyStoreState (c : FCtx) (s : State) : FRes :=
  .checks (blockChecks c s (c.u 0x12 1) (c.u 0x14 4) 256) s (writeBlock s (c.u 0x12 1) (c.u 0x14 4) s.storeBlock)

/-- STORE_STATE (R403). -/
def execStoreState (dt ring : Nat) (s : State) : Out := .next ((s.elapse dt).runFolio ring 0x0A01 bodyStoreState)

/-- STORE_WATCH. -/
def bodyStoreWatch (c : FCtx) (s : State) : FRes :=
  let n := c.u 0x10 1
  let mask := c.u 0x11 1
  .checks [(decide (n < 32) && decide (mask < 32), .param), (evOk c s n, .colour)] s <|
    .ok { s with store := { s.store with watch := watchSet s.store.watch (c.ev n) (BitVec.ofNat 8 mask) } }

/-- STORE_WATCH (R404). -/
def execStoreWatch (dt ring : Nat) (s : State) : Out := .next ((s.elapse dt).runFolio ring 0x0A02 bodyStoreWatch)

end Sys2Proof.Machine
end

