-- ==== Sys2Proof/Machine/Faults.lean ====
section
/-!
DEFINITION. The fault recorder as folios and commands see it, firmware handovers and CTRL restarts (10_ordering_recovery.md R360–R362;
17_faults_replay.md R565–R571).
-/

namespace Sys2Proof.Machine

/-! ### Events and clearings (R565–R568) -/

/-- The instance a fault event names exists (R566). -/
def instanceOk (src island unit key : Nat) : Bool :=
  match src with
  | 0 => decide (island < 43) && decide (unit < 43) && decide (island ≠ unit)
  | 1 => decide (island = islStore) && decide (unit < 8)
  | 2 => decide (3 ≤ island) && decide (island ≤ 12)
  | 3 | 4 => isolatable island
  | 5 | 6 => decide (unit < 52) && decide (island = quadIsland (unit / 4))
  | 7 => decide (key < 13) && decide (island = quadIsland key)
  | 8 => decide (island = 0xFF)
  | 9 | 10 => decide (island < 43)
  | 11 | 12 => decide (island = islSec)
  | 13 => decide (island = islCtrl)
  | 14 => decide (island = islSvc) && decide (key < 2)
  | 15 => decide (island = islComp) && decide (unit < 16)
  | _ => false

/-- FAULT_EVENT: an event of a source is stamped, counted and tested; a lasting fault has its action (R565, R566). -/
def execFaultEvent (dt source island unit detail key : Nat) (s : State) : Out :=
  let s := s.elapse dt
  if !instanceOk source island unit key then .next s
  else
    let s : State := if source = 10 then s.planStep island 10
      else if source = 11 then { s with sec := { s.sec with entropyBad := true } } else s
    .next (s.faultOut source island unit key detail)

/-- The link of a quad is up (R567). -/
def State.quadUp (s : State) (q : Nat) : Bool :=
  if q < 8 then decide ((s.dpPort q).st = .up)
  else if q = 8 then (List.range 4).all fun l => decide ((s.port l).mode = 0) || (s.port l).link
  else if q < 12 then decide ((s.spineLink (q - 9)).st = 2)
  else !s.host.perst

/-- The quiet window of an instance has passed (R567): for an isolated island since it came back, for a lane or quad since its link came up,
and since its newest event. Some sources stay present until device reset. -/
def State.quiet (s : State) (f : FltInst) : Bool :=
  let w := (s.flt.src.getD f.src FltSource.reset).w * 1000000000
  let since := max f.lastAt (f.sinceUp.getD f.lastAt)
  let out := match f.quad with
    | some q => !s.quadUp q
    | none => (s.island (if f.src = 0 then crossingEnd f.island f.unit else f.island)).isolated
  !([1, 3, 4, 8, 10, 11, 14].contains f.src) && !out && decide (since + w ≤ s.tb.now)

/-- FAULT_CLEAR: a present lasting fault clears, is reported and leaves the summary (R567, R571). -/
def execFaultClear (dt source island unit key : Nat) (s : State) : Out :=
  let s := s.elapse dt
  match s.flt.inst.find? fun f => f.is source island unit key with
  | none => .next s
  | some f =>
    if !f.present || !s.quiet f then .next s
    else
      let clear (x : FltInst) : FltInst := if x.is source island unit key then { x with present := false } else x
      let s : State := { s with flt := { s.flt with inst := s.flt.inst.map clear } }
      .next (s.postAll s.flt.watch 0x9000 (faultBody source 1 island unit 0 f.declared)).refreshFaults

/-- The firmware actions that fell due during a stall, in the order their faults were declared (R568). -/
def State.runDelayed (s : State) : State :=
  let due := s.flt.delayed
  let run (t : State) (a : Nat × Nat × Nat × Nat) : State := (t.faultAction a.1 a.2.1 a.2.2.1 a.2.2.2).refreshFaults.goesOut t
  due.foldl run { s with flt := { s.flt with delayed := [] } }

/-! ### Handover (R360, R361, R414) -/

/-- The place whose IMAGE_ACTIVATE waits for the handover. -/
def State.activating (s : State) : Option Nat :=
  (List.range 48).find? fun r => match (s.cmdQ r).begun with | some b => decide (b.wait = .activate) | none => false

/-- HANDOVER: the incoming pair has control, or has failed its start-up checks and the outgoing pair keeps it. -/
def execHandover (dt : Nat) (ok : Bool) (s : State) : Out :=
  let s := s.elapse dt
  if !s.top.handover then .next s
  else
    let s := ({ s with top := { s.top with handover := false }, sec := { s.sec with staging := false } }).change 0b000010
    let slot := s.sec.staged
    let i := (s.sec.slot slot).getD Image.reset
    let s : State := if ok then
        { s with
          sec := { s.sec with selector := some slot, running := i }
          top := { s.top with pairB := !s.top.pairB, line := i.release.extractLsb' 24 8, build := i.release.extractLsb' 0 24 } }
      else s
    let s := match s.activating with
      | some r => if ok then s.finish r .ok i.release.toNat id else s.finish r .fault 0 id
      | none => s
    .next s.runDelayed

/-! ### CTRL restart (R362, R368) -/

/-- What a begun folio has set aside, and a folio that completes with E_RESYNC must not leave behind. -/
def State.abandon (s : State) (slot : Nat) (b : Begun) : State :=
  match b.wait with
  | .wipe w =>
    let x := s.window w
    let e : ActEntry := { base := BitVec.ofNat 28 (x.base / 4096), last := BitVec.ofNat 28 ((x.base + x.size.toNat - 1) / 4096), colour := x.colour
                          sealed_ := false, lock := false, valid := true, read := true, write := true, exec_ := false, label := BitVec.ofNat 16 w }
    let s := match s.freeEntry with | some i => s.replaceEntry i e | none => s
    s.modWindow w fun y => { y with unmapping := false }
  | .image _ | .activate => { s with sec := { s.sec with staging := false } }
  | .mail m => if (s.farBox m).delivered then s else s.modFarBox m fun y => { y with full := false, owner := 0, out := [] }
  | .ze e => s.modZe e fun y => { y with jobs := y.jobs.filter fun j => j.ring ≠ slot }
  | .swap => { s with twin := { s.twin with swap := none } }
  | _ => s

/-- The folio of a place that had been begun completes with E_RESYNC. -/
def State.resyncBegun (s : State) (r : Nat) : State :=
  match (s.cmdQ r).begun with
  | some b => if b.wait = .mirrored ∨ (s.cmdQ r).awaitResync then s else (s.abandon r b).finish r .resync 0 id
  | none => s

/-- The places whose SYNC waits. -/
def State.syncPlaces (s : State) : List Nat :=
  (List.range 48).filter fun r => match (s.cmdQ r).begun with | some b => decide (b.wait = .sync) | none => false

/-- CTRL_RESTART: the restart ends. EV_RESYNC goes to every enabled event ring before the E_RESYNC completions, a SYNC's before those
it waits for, and the firmware actions that fell due are taken. -/
def execCtrlRestart (dt : Nat) (s : State) : Out :=
  let s := s.elapse dt
  if !s.twin.resyncCause1 then .next s
  else
    let s : State := { s with twin := { s.twin with resyncCause1 := false }, top := { s.top with handover := false } }
    let s := s.enabledEvents.foldl (fun (t : State) n => t.postResync n 1 (b2n (t.cmdQ n).begun.isSome)) s
    let s := (s.syncPlaces ++ List.range 48).foldl State.resyncBegun s
    .next s.runDelayed

/-! ### Folios (R569–R571) -/

/-- FAULT_CONFIG. -/
def bodyFaultConfig (c : FCtx) (s : State) : FRes :=
  let src := c.u 0x10 1
  let n := c.u 0x11 1
  let w := c.u 0x12 2
  .checks [(decide (src < 16) && decide (1 ≤ n) && decide (n ≤ 16) && decide (1 ≤ w) && decide (w ≤ 3600), .param),
      (decide (s.lifecycle = .develop) || decide (s.lifecycle = .field), .lifecycle), (isAdmin c s, .colour),
      (!(s.flt.src.getD src FltSource.reset).fixed, .state)] s <|
    .ok { s with flt := { s.flt with src := s.flt.src.modify src fun x => { x with n := n, w := w } } }

/-- FAULT_CONFIG (R569). -/
def execFaultConfig (dt ring : Nat) (s : State) : Out := .next ((s.elapse dt).runFolio ring 0x1000 bodyFaultConfig)

/-- The summary of a source: 16 bytes of KIND 0. -/
def State.sourceBytes (s : State) (src : Nat) : List Byte :=
  let x := s.flt.src.getD src FltSource.reset
  let n := (s.flt.inst.filter fun f => decide (f.src = src) && f.present).length
  leBytes 4 x.events ++ leBytes 4 x.lasting ++ leBytes 2 (sat 16 n) ++ leBytes 1 x.n ++ leBytes 1 0 ++ leBytes 2 x.w ++ leBytes 2 0

/-- An address of the log, as a colour may see it. -/
def State.ownAddress (s : State) (colour a : Nat) : Nat :=
  if s.store.regions.any fun r => decide (r.colour = colour) && decide (r.base ≤ a) && decide (a < r.base + r.size) then a else 0

/-- An entry of the log: 32 bytes of KIND 2. -/
def State.logBytes (s : State) (colour : Nat) (e : FltLog) : List Byte :=
  padTo 32 (leBytes 8 e.time ++ leBytes 1 e.src ++ leBytes 1 e.island ++ leBytes 2 e.unit ++ leBytes 1 (b2n e.lasting) ++ leBytes 3 0
    ++ leBytes 8 (s.ownAddress colour e.detail))

/-- The block of FAULT_STATE. -/
def State.faultBlock (s : State) (colour kind index index2 : Nat) : List Byte :=
  match kind with
  | 0 => (List.range 16).flatMap s.sourceBytes
  | 1 =>
    let x := s.crossing index index2
    layout 256 [(0, leBytes 4 x.resends), (4, leBytes 4 x.poisonedCount), (8, leBytes 8 x.lastPoison),
      (0x10, leBytes 1 (b2n (s.flt.inst.any fun f => decide (f.src = 0) && decide (f.island = index) && decide (f.unit = index2) && f.present)))]
  | _ => padTo 256 (((s.flt.log.drop (8 * index)).take 8).flatMap (s.logBytes colour))

/-- FAULT_STATE. -/
def bodyFaultState (c : FCtx) (s : State) : FRes :=
  let kind := c.u 0x10 1
  let a := c.u 0x11 1
  let b := c.u 0x13 1
  let ok := match kind with | 0 => true | 1 => decide (a < 43) && decide (b < 43) | 2 => decide (a < 32) | _ => false
  .checks ((ok, .param) :: blockChecks c s (c.u 0x12 1) (c.u 0x14 4) 256) s
    (writeBlock s (c.u 0x12 1) (c.u 0x14 4) (s.faultBlock c.colour kind a b))

/-- FAULT_STATE (R570). -/
def execFaultState (dt ring : Nat) (s : State) : Out := .next ((s.elapse dt).runFolio ring 0x1001 bodyFaultState)

/-- FAULT_WATCH: a RING of 0xFF ends the watches of the folio's colour. -/
def bodyFaultWatch (c : FCtx) (s : State) : FRes :=
  let n := c.u 0x10 1
  let own (r : Nat) : Bool := match c.origin with
    | none => decide (r < 256) && decide (s.ringColour r = c.colour)
    | some m => decide (r / 256 = m + 1)
  .checks [(decide (n < 32) || decide (n = 0xFF), .param), (decide (n = 0xFF) || evOk c s n, .colour)] s <|
    .ok { s with flt := { s.flt with watch :=
      if n = 0xFF then s.flt.watch.filter fun r => !own r else (s.flt.watch.filter fun r => r ≠ c.ev n) ++ [c.ev n] } }

/-- FAULT_WATCH (R571). -/
def execFaultWatch (dt ring : Nat) (s : State) : Out := .next ((s.elapse dt).runFolio ring 0x1002 bodyFaultWatch)

end Sys2Proof.Machine
end

