-- ==== Sys2Proof/Machine/Plate.lean ====
section
/-!
DEFINITION. The trusted plate: signed sheets, their checks, copies and scrub (06_flips_plate_press.md R252–R260;
17_faults_replay.md R577).
-/

namespace Sys2Proof.Machine

/-! ### The sheet (R255) -/

/-- Bytes of a sheet's signatures: SIG_E then SIG_M. -/
def sheetSigs : Nat := 96 + 4627

/-- The fields of the first 128 bytes of a sheet. -/
def sheetHeader (bs : List Byte) : PlateSheet :=
  let u (o n : Nat) := leNat ((bs.drop o).take n)
  { head := u 2 1, mode := BitVec.ofNat 8 (u 3 1), sheetSeq := u 4 4, nonceA := BitVec.ofNat 64 (u 8 8), nonceB := BitVec.ofNat 64 (u 0x10 8)
    member := u 0x18 1, pane := u 0x19 1, base := u 0x1A 2, px := u 0x1C 2, py := u 0x1E 2, pw := u 0x20 2, ph := u 0x22 2
    rx := u 0x24 2, ry := u 0x26 2, rw := u 0x28 2, rh := u 0x2A 2
    palette := (List.range 16).map fun i => BitVec.ofNat 32 (u (0x30 + 4 * i) 4)
    pixels := [], signed := [], sigE := [], sigM := [], pixLen := u 0x70 4
    versionOk := decide (u 0 2 = 1) && decide (u 0x2C 4 = 0) && decide (u 0x74 12 = 0) }

/-- The whole sheet that a list of bytes starts with. -/
def sheetOf (bs : List Byte) : PlateSheet :=
  let h := sheetHeader bs
  { h with
    pixels := (bs.drop 0x80).take h.pixLen, signed := bs.take (0x80 + h.pixLen)
    sigE := (bs.drop (0x80 + h.pixLen)).take 96, sigM := (bs.drop (0xE0 + h.pixLen)).take 4627 }

/-- MODE bits. -/
def PlateSheet.frameBit (p : PlateSheet) : Bool := p.mode.getLsbD 0
def PlateSheet.clear (p : PlateSheet) : Bool := p.mode.getLsbD 1
def PlateSheet.paletteBit (p : PlateSheet) : Bool := p.mode.getLsbD 2
def PlateSheet.disable (p : PlateSheet) : Bool := p.mode.getLsbD 3

/-- Pane and rectangle lie in range; DISABLE ignores them (R257, DEDUCED, log entry 40). -/
def PlateSheet.paneOk (p : PlateSheet) : Bool :=
  p.disable ||
    (decide (p.base ≤ 1023) && decide (p.px % 2 = 0) && decide (p.px ≤ 8190) && decide (p.py ≤ 8191)
      && decide (p.pw % 2 = 0) && decide (2 ≤ p.pw) && decide (p.pw ≤ 8192) && decide (1 ≤ p.ph) && decide (p.ph ≤ 8192)
      && decide (p.rx % 2 = 0) && decide (p.rw % 2 = 0) && decide (p.rx + p.rw ≤ p.pw) && decide (p.ry + p.rh ≤ p.ph)
      && decide (p.pixLen = p.rw / 2 * p.rh))

/-- Every field is in range (R255). -/
def PlateSheet.fieldsOk (p : PlateSheet) : Bool :=
  p.versionOk && decide (p.head < 16) && decide (p.mode.toNat < 16) && decide (1 ≤ p.sheetSeq) && decide (p.member < 8) && decide (p.pane < 8)
    && decide (p.pixLen ≤ 262144) && p.paneOk

/-! ### Panes (R252, R257) -/

/-- Bytes of a pane in plate memory. -/
def Pane.bytes (q : Pane) : Nat := q.w / 2 * q.h

/-- A pane's geometry after a sheet. -/
def Pane.shaped (q : Pane) (p : PlateSheet) : Pane :=
  if p.disable then { q with enabled := false }
  else { q with enabled := true, base := p.base, x := p.px, y := p.py, w := p.pw, h := p.ph }

/-- A sheet changes the geometry of its pane. -/
def PlateSheet.reshapes (p : PlateSheet) (q : Pane) : Bool :=
  decide (p.base ≠ q.base) || decide (p.px ≠ q.x) || decide (p.py ≠ q.y) || decide (p.pw ≠ q.w) || decide (p.ph ≠ q.h)

/-- Sheets of a head that have been accepted and not yet copied. -/
def State.sheetsWaiting (s : State) (h : Nat) : List PlateSheet :=
  s.host.cmdq.filterMap fun q =>
    match q.begun with
    | some b => (match b.wait with
      | .plateCopy p | .plateFrame p => if p.head = h then some p else none
      | _ => none)
    | none => none

/-- The panes of a head once every accepted sheet has been copied. -/
def State.plannedPanes (s : State) (h : Nat) : List Pane :=
  (s.sheetsWaiting h).foldl (fun (l : List Pane) p => l.modify p.pane fun q => q.shaped p) (s.plate h).panes

/-- Pixels of the enabled panes of a list. -/
def panePixels (l : List Pane) : Nat := ((l.filter fun q => q.enabled).map fun q => q.w * q.h).sum

/-- The pane keeps the head within 524,288 pixels (R252). -/
def State.paneRoom (s : State) (p : PlateSheet) : Bool :=
  p.disable || decide (panePixels ((s.plannedPanes p.head).modify p.pane fun q => q.shaped p) ≤ 524288)

/-- Two stretches of plate memory meet. -/
def spansMeet (a n b m : Nat) : Bool := decide (a < b + m) && decide (b < a + n)

/-- The pane lies within plate memory and meets no other enabled pane there (R252). -/
def State.paneApart (s : State) (p : PlateSheet) : Bool :=
  let n := p.pw / 2 * p.ph
  p.disable || (decide (p.base * 256 + n ≤ 262144) &&
    (s.plannedPanes p.head).zipIdx.all fun q => decide (q.2 = p.pane) || !q.1.enabled || !spansMeet (p.base * 256) n (q.1.base * 256) q.1.bytes)

/-- The rectangle of a sheet, written row by row. -/
def PlateSheet.drawn (p : PlateSheet) (m : Mem) : Mem :=
  (List.range p.rh).foldl (fun (m : Mem) (j : Nat) =>
    m.writeN (p.base * 256 + (p.ry + j) * (p.pw / 2) + p.rx / 2) ((p.pixels.drop (j * (p.rw / 2))).take (p.rw / 2))) m

/-- Plate memory after a sheet: cleared where the geometry changes or CLEAR asks for it, then the rectangle. -/
def PlateSheet.onto (p : PlateSheet) (q : Pane) (m : Mem) : Mem :=
  p.drawn (if p.reshapes q || p.clear then m.clear (p.base * 256) (p.pw / 2 * p.ph) else m)

/-- What firmware records of a pane as it applies a sheet (R577). -/
def Pane.record (q : Pane) (m : Mem) : Pane :=
  let bs := m.readN (q.base * 256) q.bytes
  { q with crc := crc32c bs, copy := bs }

/-- An accepted sheet is applied to a head's plate, in the order of R257. -/
def PlateHead.apply (x : PlateHead) (p : PlateSheet) : PlateHead :=
  if p.disable then { x with panes := x.panes.modify p.pane fun q => q.shaped p }
  else
    let q := x.panes.getD p.pane Pane.reset
    let m := p.onto q x.mem
    { x with
      mem := m, panes := x.panes.modify p.pane fun q => (q.shaped p).record m
      palette := if p.paletteBit then p.palette else x.palette }

/-! ### PLATE_UPDATE (R255, R256) -/

/-- The part's plate authority keys are provisioned. -/
def State.plateKeys (s : State) : Bool := !s.sec.record.plateE.isEmpty

/-- A sheet names this part: by its own plate nonce, in one of the two places (R255; a nonce not yet drawn names no part). -/
def State.nonceNamed (s : State) (p : PlateSheet) : Bool :=
  match s.comp.nonce with
  | some n => decide (p.nonceA = n) || decide (p.nonceB = n)
  | none => false

/-- A sheet is refused: its head counts it. -/
def State.refuseSheet (s : State) (h : Nat) : State := s.modPlate h fun x => { x with refused := sat 32 (x.refused + 1) }

/-- The checks of a sheet before its signatures. -/
def State.sheetCheck (s : State) (p : PlateSheet) : Option Status :=
  firstBad [(s.plateKeys, .state), (p.fieldsOk, .param), (s.paneRoom p, .nospace), (s.paneApart p, .param)]

/-- A sheet that this part is to check itself. -/
def checkSheet (s : State) (p : PlateSheet) : FRes :=
  match s.sheetCheck p with
  | some st => .done st 0 (s.refuseSheet p.head) id
  | none => .wait (.plateVerify p) s

/-- A sheet in a window: read, and checked here or sent to the member it names. -/
def sheetInWindow (c : FCtx) (s : State) (w off : Nat) : FRes :=
  let h := sheetHeader (s.winRead w off 0x80)
  let n := 0x80 + h.pixLen + sheetSigs
  if s.winDamaged w off 0x80 then .done .fault 0 s id
  else if h.member < 8 ∧ h.member ≠ s.top.gatherId.toNat then
    if s.reachable h.member then
      .wait (.forward h.member) { s with gath := { s.gath with fwdSent := (h.member, c.ring, c.seq) :: s.gath.fwdSent } }
    else .done .unreachable 0 s id
  else if h.pixLen ≤ 262144 ∧ !s.winSpan w off n false then .done .colour 0 s id
  else if h.pixLen ≤ 262144 ∧ s.winDamaged w off n then .done .fault 0 s id
  else checkSheet s (if h.pixLen ≤ 262144 then sheetOf (s.winRead w off n) else h)

/-- PLATE_UPDATE. A folio that another member forwarded brings its sheet with it, after its 256 bytes. -/
def bodyPlateUpdate (c : FCtx) (s : State) : FRes :=
  let w := c.u 0x10 1
  let off := c.u 0x14 4
  let far := c.origin.isSome
  .checks [(decide (w < 8) && decide (off % 256 = 0), .param), (decide (c.colour = 62), .colour),
      (far || (s.winOk w 62 && s.winSpan w off 0x80 false), .colour), (!(s.island islSec).isolated, .fault)] s <|
    if far then checkSheet s (sheetOf (c.folio.raw.drop 256)) else sheetInWindow c s w off

/-- PLATE_UPDATE (R255). -/
def execPlateUpdate (dt ring : Nat) (s : State) : Out := .next ((s.elapse dt).runFolio ring 0x0610 bodyPlateUpdate)

/-! ### Copies (R258, R259) -/

/-- A head scans no frame: OFF, STARTING or isolated, or between the last epoch of an old timing and the first of a new one. -/
def Head.scansNone (x : Head) : Bool := !x.scanning || (decide (x.st = .changing) && decide (x.set_.timing.leaves ≤ x.outSigs.length))

/-- The copy of an accepted sheet is done: the plate holds it, and its PLATE_UPDATE completes. EV_PLATE follows when the head first shows it. -/
def State.copySheet (s : State) (slot : Nat) (p : PlateSheet) : State :=
  match (s.cmdQ slot).begun with
  | none => s
  | some b =>
    let c := s.fctx slot b
    (s.modPlate p.head fun x => { x.apply p with shown := x.shown ++ [(c.ev c.ring, p.pane, BitVec.ofNat 16 c.tag, p.sheetSeq)] }).finish slot .ok 0 id

/-- SEC has verified a sheet (R255, R258): refused, or accepted and waiting for its copy. -/
def State.sheetVerified (s : State) (slot : Nat) (p : PlateSheet) (good : Bool) : State :=
  match firstBad [(!(s.island islSec).isolated, .fault), (s.paneRoom p, .nospace), (s.paneApart p, .param), (good, .signature),
      (s.nonceNamed p, .state), (decide ((s.plate p.head).lastSeq < p.sheetSeq), .state)] with
  | some st => (s.refuseSheet p.head).finish slot st 0 id
  | none =>
    let w : Wait := if p.frameBit && !(s.head p.head).scansNone then .plateFrame p else .plateCopy p
    (s.modPlate p.head fun x => { x with lastSeq := p.sheetSeq, accepted := sat 32 (x.accepted + 1) }).modCmdQ slot fun q =>
      { q with begun := q.begun.map fun b => { b with wait := w } }

/-- PLATE_FRAME_COPY: the sheets with FRAME set that wait for a head are copied, in its vertical blanking, or at once when it scans no
frame (R258, R289). -/
def execPlateFrameCopy (dt h : Nat) (s : State) : Out :=
  let s := s.elapse dt
  if !(s.plate h).latchedFrame && !(s.head h).scansNone then .next s
  else .next ((List.range 48).foldl (fun (t : State) (r : Nat) =>
    match (t.cmdQ r).begun with
    | some b => (match b.wait with
      | .plateFrame p => if p.head = h then t.copySheet r p else t
      | _ => t)
    | none => t) s)

/-! ### PLATE_STATE (R260) -/

/-- The block of PLATE_STATE. -/
def State.plateBlock (s : State) (h : Nat) : List Byte :=
  let x := s.plate h
  layout 256 [(0, leBytes 8 (s.comp.nonce.getD 0).toNat), (8, leBytes 4 x.lastSeq), (0x0C, leBytes 4 (panePixels x.panes)),
    (0x10, leBytes 4 x.accepted), (0x14, leBytes 4 x.refused),
    (0x18, leBytes 1 (x.panes.zipIdx.foldl (fun (a : Nat) q => a + b2n q.1.enabled * 2 ^ q.2) 0)),
    (0x20, x.panes.flatMap fun q => leBytes 2 q.x ++ leBytes 2 q.y ++ leBytes 2 q.w ++ leBytes 2 q.h),
    (0x60, x.palette.flatMap fun e => leBytes 4 e.toNat)]

/-- PLATE_STATE. -/
def bodyPlateState (c : FCtx) (s : State) : FRes :=
  let h := c.u 0x11 1
  .checks ((decide (h < 16), .param) :: blockChecks c s (c.u 0x12 1) (c.u 0x14 4) 256) s <|
    writeBlock s (c.u 0x12 1) (c.u 0x14 4) (s.plateBlock h)

/-- PLATE_STATE (R260). -/
def execPlateState (dt ring : Nat) (s : State) : Out := .next ((s.elapse dt).runFolio ring 0x0611 bodyPlateState)

/-! ### PLATE_SCRUB (R577) -/

/-- The scrub of one pane: content that no longer matches the recorded CRC is put back from firmware's copy and counted. -/
def State.scrubPane (s : State) (h i : Nat) : State :=
  let x := s.plate h
  let q := x.panes.getD i Pane.reset
  if !q.enabled || decide (crc32c (x.mem.readN (q.base * 256) q.bytes) = q.crc) then s
  else (s.modPlate h fun x => { x with mem := x.mem.writeN (q.base * 256) q.copy, scrubs := x.scrubs + 1 }).fault 15 islComp h 0 i

/-- PLATE_SCRUB: every enabled pane of every head, with CV7. -/
def execPlateScrub (dt : Nat) (s : State) : Out :=
  let s := s.elapse dt
  if (s.island islSvc).isolated ∨ !s.pwr.booted then .next s
  else .next ((List.range 16).foldl (fun (t : State) h => (List.range 8).foldl (fun (u : State) i => u.scrubPane h i) t) s)

end Sys2Proof.Machine
end

