-- ==== Sys2Proof/Machine/Registers.lean ====
section
/-!
DEFINITION. Writes of registers under their access codes: BAR0 and the island spaces (00_scope.md R14, R15; 09_folios_rings.md R327,
R328, R348, R349; 11_store.md R394; 12_trust.md R428; 13_gathering_twin.md R445, R446; 15_clocks_power_ageing.md R544).
-/

namespace Sys2Proof.Machine

/-! ### Ring registers (R327, R328) -/

/-- The base, size and sequence of a ring may change: ENABLE is clear and the ring is not DRAINING (R328). -/
def Ring.open_ (r : Ring) : Bool := !r.enable && decide (r.state ≠ .draining)

/-- A value of one plain register of a ring; ENABLE and HOST_INDEX have operations of their own. Registers that a ring kind does not use
ignore writes. -/
def Ring.put (r : Ring) (k reg : Nat) (v : BitVec 32) : Ring :=
  match reg with
  | 0x00 => if r.open_ then { r with base := (r.base &&& 0xFFFFFFFF00000000) ||| (v &&& 0xFFFFF000).setWidth 64 } else r
  | 0x04 => if r.open_ then { r with base := (r.base &&& 0xFFFFFFFF) ||| (v.setWidth 64 <<< 32) } else r
  | 0x08 => if r.open_ then { r with log2 := v.setWidth 5 } else r
  | 0x18 => if r.open_ && decide (k < 32) then { r with seq := v } else r
  | 0x20 => if 32 ≤ k ∧ k < 64 then { r with modCount := v.setWidth 16, modTime := (v >>> 16).setWidth 16 } else r
  | 0x24 => if 64 ≤ k then { r with lowater := v.setWidth 16 } else r
  | _ => r

/-- A write of a ring register. -/
def State.ringReg (s : State) (k reg : Nat) (v : BitVec 32) : State :=
  if !s.ringWritable k then s
  else if reg = 0x0C then (if v.getLsbD 0 then s.enableRing k else s.disableRing k)
  else if reg = 0x10 then s.doorbell k v
  else s.modRing k fun r => r.put k reg v

/-! ### MSI-X (R348) -/

/-- A write of a vector's table entry. A pending message goes out as its vector is unmasked. -/
def MsixVector.put (x : MsixVector) (reg : Nat) (v : BitVec 32) : MsixVector :=
  match reg with
  | 0 => { x with addr := (x.addr &&& 0xFFFFFFFF00000000) ||| (v &&& 0xFFFFFFFC).setWidth 64 }
  | 4 => { x with addr := (x.addr &&& 0xFFFFFFFF) ||| (v.setWidth 64 <<< 32) }
  | 8 => { x with data := v }
  | 12 =>
    if v.getLsbD 0 then { x with masked := true }
    else { x with masked := false, pendingBit := false, sent := if x.masked && x.pendingBit then x.sent + 1 else x.sent }
  | _ => x

/-! ### BAR0 -/

/-- A 32-bit write at a BAR0 offset. Read-only and reserved places ignore it. -/
def State.bar0Put (s : State) (off : Nat) (v : BitVec 32) : State :=
  match bar0Of off with
  | .top o => if o = 0x14 then { s with top := { s.top with change := s.top.change &&& ~~~(v.setWidth 6) } } else s
  | .ring r reg => s.ringReg r reg v
  | .mailbox n reg =>
    if reg < 0x40 ∧ !(s.hostBox n).outFull then s.modHostBox n fun b => { b with outWords := b.outWords.set (reg / 4) v } else s
  | .mbx reg => if reg = 0x04 ∧ v.getLsbD 0 then s.hostEndReset else s
  | .lock n reg =>
    let s := if v.getLsbD 8 then s.mblRelease n (reg / 4) else s
    if v.getLsbD 9 then s.mblGo n (reg / 4) else s
  | .msix n reg => { s with host := { s.host with msix := s.host.msix.modify n fun x => x.put reg v } }
  | .irq src => s.writeSource src v
  | .time _ | .pba _ | .reserved => s

/-! ### Reads of BAR0 (R53, R327, R348, R349, R445, R446) -/

/-- The top-level registers as a read returns them (R349). -/
def State.topWord (s : State) (o : Nat) : Nat :=
  let t := s.top
  if o = 0x00 then 0x16640000 + t.step.toNat * 256
  else if o = 0x04 then t.line.toNat * 2 ^ 24 + t.build.toNat
  else if o = 0x08 then s.lifecycle.code
  else if o = 0x0C then
    b2n t.ready + 2 * b2n t.handover + 4 * b2n t.pairB + 8 * s.role + 32 * t.gatherId.toNat + 256 * b2n s.isLead + 512 * b2n t.wiping + 1024 * b2n t.replay
  else if o = 0x10 then t.faults.toNat
  else if o = 0x14 then t.change.toNat
  else if o = 0x18 then t.hfaults.toNat
  else if o = 0x20 then t.hfKind.toNat + 16 * t.hfWindow.toNat + 128 * b2n t.hfWrite
  else if o = 0x24 then t.hfOffset.toNat
  else if 0x100 ≤ o ∧ o < 0x180 ∧ o % 4 = 0 then
    let m := s.mapOf ((o - 0x100) / 4)
    m.colour.toNat + 64 * b2n m.urgent + 128 * b2n m.network + 256 * m.channel.toNat + 2 ^ 31 * b2n m.valid
  else if 0x200 ≤ o ∧ o < 0x240 ∧ o % 8 = 0 then
    let w := s.window ((o - 0x200) / 8)
    if w.mapped then 1 + 256 * w.colour.toNat else 0
  else if 0x200 ≤ o ∧ o < 0x240 ∧ o % 8 = 4 then
    let w := s.window ((o - 0x204) / 8)
    if w.mapped then w.size.toNat else 0
  else 0

/-- The code of a ring's state (R327). -/
def RingState.code : RingState → Nat
  | .disabled => 0 | .running => 1 | .draining => 2 | .halted => 3

/-- A ring's registers as a read returns them; those of a network-bound pair read as zero but for `RING.NETWORK` (R327, R332). -/
def State.ringWord (s : State) (k reg : Nat) : Nat :=
  let r := s.ring k
  if 128 ≤ k then 0
  else if s.ringNet k then (if reg = 0x1C then 4 else 0)
  else match reg with
    | 0x00 => r.base.toNat % 2 ^ 32
    | 0x04 => r.base.toNat / 2 ^ 32
    | 0x08 => r.log2.toNat
    | 0x0C => b2n r.enable
    | 0x10 => r.hostIndex.toNat
    | 0x14 => r.deviceIndex.toNat
    | 0x18 => if k < 32 then r.seq.toNat else 0
    | 0x1C => r.state.code + (if k < 32 then 256 * s.inflight k else 0)
    | 0x20 => if 32 ≤ k ∧ k < 64 then r.modCount.toNat + 2 ^ 16 * r.modTime.toNat else 0
    | 0x24 => if 64 ≤ k then r.lowater.toNat else 0
    | 0x28 => if 32 ≤ k ∧ k < 64 then r.lost.toNat else 0
    | _ => 0

/-- A mailbox's registers as a read returns them (R445). -/
def State.mailboxWord (s : State) (n reg : Nat) : Nat :=
  let b := s.hostBox n
  if reg < 0x40 then (b.outWords.getD (reg / 4) 0).toNat
  else if reg < 0x80 then (if b.inFull then (b.inWords.getD ((reg - 0x40) / 4) 0).toNat else 0)
  else if reg = 0x80 then b2n b.outFull + 2 * b.outLast.toNat + 8 * b2n b.inFull + 256 * b.owner.toNat
  else if reg = 0x84 then b2n b.inFull
  else 0

/-- The MSI-X table as a read returns it (R348). -/
def MsixVector.word (x : MsixVector) (reg : Nat) : Nat :=
  match reg with
  | 0 => x.addr.toNat % 2 ^ 32
  | 4 => x.addr.toNat / 2 ^ 32
  | 8 => x.data.toNat
  | 12 => b2n x.masked
  | _ => 0

/-- What a 32-bit read at a BAR0 offset returns; a reserved region reads as zero (R53). -/
def State.bar0Word (s : State) (off : Nat) : Nat :=
  match bar0Of off with
  | .top o => s.topWord o
  | .time o => if o = 0 then s.tb.dev % 2 ^ 32 else if o = 4 then s.top.timeHi.toNat else if o = 8 then s.tb.lock.code else 0
  | .ring r reg => s.ringWord r reg
  | .mailbox n reg => s.mailboxWord n reg
  | .mbx reg => if reg = 0 then s.mail.hostGen.toNat else 0
  | .lock n reg =>
    let o := (s.hostBox n).owner.toNat
    if reg = 0 then o else if agentOk (reg / 4) && decide (o ≠ reg / 4) then o else 0
  | .msix n reg => (s.host.msix.getD n MsixVector.reset).word reg
  | .pba o => leNat ((List.range 4).map fun k => BitVec.ofNat 8 ((List.range 8).map fun b =>
      2 ^ b * b2n (s.host.msix.getD (8 * (o + k) + b) MsixVector.reset).pendingBit).sum)
  | .irq src => match s.host.irq[src]? with | some q => q.vector.toNat + 2 ^ 31 * b2n q.enable | none => 0
  | .reserved => 0

/-- What a 32-bit read does beside: counts that clear, a message taken, a lock claimed, the latch of device time (R152, R327, R349, R445, R446). -/
def State.bar0Touch (s : State) (off : Nat) : State :=
  match bar0Of off with
  | .top o => if o = 0x18 then { s with top := { s.top with hfaults := 0 } } else s
  | .time o => if o = 0 then { s with top := { s.top with timeHi := BitVec.ofNat 32 (s.tb.dev / 2 ^ 32) } } else s
  | .ring r reg => if reg = 0x28 ∧ 32 ≤ r ∧ r < 64 ∧ !s.ringNet r then s.modRing r fun x => { x with lost := 0 } else s
  | .mailbox n reg => if reg = 0x84 ∧ (s.hostBox n).inFull then s.modHostBox n fun b => { b with inFull := false, fwLast := 1 } else s
  | .lock n reg =>
    if agentOk (reg / 4) && decide ((s.hostBox n).owner = 0) then s.modHostBox n fun b => { b with owner := BitVec.ofNat 8 (reg / 4) } else s
  | _ => s

/-- A naturally aligned read: of 32 bits, or of 64, which returns both halves at once, device time whole (R53, R152). -/
def State.bar0Read (s : State) (off size : Nat) : State :=
  if size = 4 then (s.bar0Touch off).reply (leBytes 4 (s.bar0Word off))
  else if off = 0x1000 then s.reply (leBytes 8 s.tb.dev)
  else ((s.bar0Touch off).bar0Touch (off + 4)).reply (leBytes 4 (s.bar0Word off) ++ leBytes 4 ((s.bar0Touch off).bar0Word (off + 4)))

/-- BAR0_BAD_ACCESS: an access of another size or alignment is logged; a read returns all ones, a write has no effect. A naturally aligned read that
the row brings is answered, and a naturally aligned write is REGISTER_WRITE's (R53; DESIGN CHOICE, log entry 15). -/
def execBar0BadAccess (dt offset size : Nat) (write : Bool) (s : State) : Out :=
  let s := s.elapse dt
  if !s.hostUp || decide (size = 0) || decide (0x100000 < offset + size) then .next s
  else if bar0Aligned offset size then .next (if write then s else s.bar0Read offset size)
  else
    let s := s.hostFault 1 write 0 offset
    .next (if write then s else s.reply (List.replicate size 0xFF))

/-! ### Island spaces (R51, R394, R428, R544) -/

/-- One half of a staged 64-bit word. -/
def halfPut (w : BitVec 64) (high : Bool) (v : BitVec 32) : BitVec 64 :=
  if high then (w &&& 0xFFFFFFFF) ||| (v.setWidth 64 <<< 32) else (w &&& 0xFFFFFFFF00000000) ||| v.setWidth 64

/-- Reserved bits of `ACT.WORD1` stay zero (R14, R428). -/
def word1Mask : BitVec 64 := 0xFFFF000F

/-- `CLK.FORCED`: a one clears it (R544). -/
def State.clearForced (s : State) (v : BitVec 32) : State :=
  if v.getLsbD 0 then { s with pwr := { s.pwr with forced := false } } else s

/-- A 32-bit write in an island's space, by colour 0. -/
def State.islandPut (s : State) (i off : Nat) (v : BitVec 32) : State :=
  if (s.island i).isolated then s
  else if i = 0 then (if off = 0x80004 then s.clearForced v else s)
  else if i = 1 then
    (if off = 0x40000 then { s with sec := { s.sec with actIndex := v.setWidth 13 } }
     else if off = 0x40008 ∨ off = 0x4000C then { s with sec := { s.sec with actWord0 := halfPut s.sec.actWord0 (decide (off = 0x4000C)) v } }
     else if off = 0x40010 ∨ off = 0x40014 then
       { s with sec := { s.sec with actWord1 := halfPut s.sec.actWord1 (decide (off = 0x40014)) v &&& word1Mask } }
     else if off = 0x40018 ∧ v.getLsbD 0 then s.commitStaged else s)
  else if i = 30 then
    (if off = 0 then (if v.getLsbD 0 then s.storeGo else s)
     else if 0x1000 ≤ off ∧ off < 0x2000 ∧ s.store.switching.isNone then
       { s with store := { s.store with shadow := s.store.shadow.put (off - 0x1000) v } }
     else s)
  else s

/-- The low and high words of a value, at consecutive offsets. -/
def State.putWords (s : State) (put : State → Nat → BitVec 32 → State) (off : Nat) (wide : Bool) (v : BitVec 64) : State :=
  let s := put s off (v.setWidth 32)
  if wide then put s (off + 4) ((v >>> 32).setWidth 32) else s

/-- A write in an island's space by a colour: only colour 0 reaches it, but where the access table grants another the page; any other write is
refused and logged (R51, R431). The cores issue it. -/
def State.islandWrite (s : State) (colour i off : Nat) (wide : Bool) (v : BitVec 64) : State :=
  let a := 0x1200000000 + i * 0x100000 + off
  if 43 ≤ i ∨ !s.permitsPage colour (a / 4096) true then s.logRefused islCtrl colour a true
  else s.putWords (fun t o v => t.islandPut i o v) off wide v

/-- REGISTER_WRITE: a register write under its access code; one of another size or alignment is R53's. -/
def execRegisterWrite (dt : Nat) (space : RegSpace) (offset : Nat) (wide : Bool) (value : BitVec 64) (s : State) : Out :=
  let s := s.elapse dt
  let good := bar0Aligned offset (if wide then 8 else 4)
  .next (match space with
    | .bar0 =>
      if !s.hostUp || decide (0x100000 ≤ offset) then s
      else if good then s.putWords State.bar0Put offset wide value
      else s.hostFault 1 true 0 offset
    | .island i colour => if good && decide (offset < 0x100000) then s.islandWrite colour i offset wide value else s)

/-- CLK_FORCED_WRITE (R544). -/
def execClkForcedWrite (dt : Nat) (value : BitVec 32) (s : State) : Out := .next ((s.elapse dt).clearForced value)

end Sys2Proof.Machine
end

