-- ==== Sys2Proof/Machine/Inputs.lean ====
section
/-!
DEFINITION. Console inputs and outputs, and what a pair mirrors of the desk (14_touch_inputs.md R501–R514).
-/

namespace Sys2Proof.Machine

/-! ### Levels (R502–R504) -/

/-- Device time on the scale of the steps so far: a stamp kept so is moved by every later step (R510). -/
def State.stepless (s : State) : Int := (s.tb.dev : Int) - s.tb.stepSum

/-- The device time that a kept stamp has now. -/
def State.stamp (s : State) (t : Int) : Nat := (t + s.tb.stepSum).toNat

/-- The accepted level of an input is active. -/
def ConIn.active (x : ConIn) : Bool := x.level != x.activeLow

/-- One sample of an input: its raw level, and its accepted level once DEBOUNCE samples in a row have differed from it. -/
def ConIn.sample (x : ConIn) (raw : Bool) (now : Nat) (time : Int) : ConIn :=
  let x := if raw = x.raw then x else { x with raw := raw, rawAt := now }
  if raw = x.level then { x with run_ := 0 }
  else
    let first := if x.run_ = 0 then time else x.runTime
    if x.debounce ≤ x.run_ + 1 then { x with level := raw, run_ := 0, levelTime := first } else { x with run_ := x.run_ + 1, runTime := first }

/-- The input is the odd one of a pair: its events are the pair's. -/
def State.pairOdd (s : State) (i : Nat) : Bool := decide (i % 2 = 1) && (s.input (i - 1)).pair

/-- LEVEL of an input or a pair: 0 inactive, 1 active, 2 FAULT. -/
def ConIn.unitLevel (x : ConIn) : Nat := if x.pair then x.pairLevel else b2n x.active

/-- The time of the first sample of an input's or a pair's level, as it is kept (R502, R506). -/
def ConIn.unitTime (x : ConIn) : Int := if !x.pair then x.levelTime else if x.pairLevel = 2 then x.discTime else x.agreeTime

/-- EV_INPUT (R506). -/
def State.inputEvent (s : State) (i kind : Nat) (time : Int) : State :=
  let x := s.input i
  if !x.enable then s
  else s.post x.ring 0x8D10 0 (leBytes 1 i ++ leBytes 1 kind ++ leBytes 1 x.unitLevel ++ leBytes 1 0 ++ leBytes 4 (sat 32 x.count) ++ leBytes 8 (s.stamp time))

/-- A change of an input's or a pair's level: counted, and reported unless the input is in CHATTER or comes to be (R503). -/
def State.inputChanged (s : State) (i : Nat) (time : Int) : State :=
  let x := s.input i
  let times := (s.tb.now :: x.changes).filter fun t => decide (s.tb.now ≤ t + x.chatterW * 1000000)
  let s := s.modInput i fun x => { x with
    count := if x.enable then sat 32 (x.count + 1) else x.count
    changes := times, activeAt := s.tb.now, stuck := false }
  if x.chatter || !x.enable then s
  else if x.chatterN ≤ times.length then (s.modInput i fun x => { x with chatter := true }).inputEvent i 1 time
  else s.inputEvent i 0 time

/-- The level two inputs of a pair agree on, or none: a discrepancy (R504). -/
def State.pairNow (s : State) (i : Nat) : Option Nat :=
  let a := (s.input i).active
  let b := (s.input (i + 1)).active
  if a && !b then some 1 else if !a && b then some 0 else none

/-- What a sample does to a pair (R504, R506). -/
def State.pairSample (s : State) (i : Nat) : State :=
  let x := s.input i
  let time := max x.levelTime (s.input (i + 1)).levelTime
  match s.pairNow i with
  | none =>
    s.modInput i fun x => { x with
      agree := 0, discAt := some (x.discAt.getD s.tb.now), discTime := if x.discAt.isNone then time else x.discTime }
  | some v =>
    if x.pairLevel = 2 then
      let first := if x.agree = 0 then s.stepless else x.agreeTime
      if x.debounce ≤ x.agree + 1 then (s.modInput i fun x => { x with agree := 0, discAt := none, pairLevel := v }).inputChanged i first
      else s.modInput i fun x => { x with agree := x.agree + 1, agreeTime := first, discAt := none }
    else
      let s := s.modInput i fun x => { x with discAt := none }
      if v = x.pairLevel then s else (s.modInput i fun x => { x with pairLevel := v, agreeTime := time }).inputChanged i time

/-- INPUT_SAMPLE: every input is sampled, and what has settled is reported (R502–R504). A standby only samples (R511). -/
def execInputSample (dt : Nat) (levels : BitVec 32) (s : State) : Out :=
  let s := s.elapse dt
  if (s.island islTouch).isolated ∨ !s.top.ready then .next s
  else if s.twin.st ≠ .active then
    .next { s with desk := { s.desk with input := s.desk.input.zipIdx.map fun (x : ConIn × Nat) => { x.1 with raw := levels.getLsbD x.2 } } }
  else
    let old := s.desk.input
    let s := { s with desk := { s.desk with input := s.desk.input.zipIdx.map fun (x : ConIn × Nat) => x.1.sample (levels.getLsbD x.2) s.tb.now s.stepless } }
    .next ((List.range 32).foldl (fun (t : State) i =>
      if t.pairOdd i then t
      else if (t.input i).pair then t.pairSample i
      else if (t.input i).level = (old.getD i ConIn.reset).level then t
      else t.inputChanged i (t.input i).levelTime) s)

/-- The inputs are served: TOUCH runs on an active part. -/
def State.deskServed (s : State) : Bool := decide (s.twin.st = .active) && !(s.island islTouch).isolated

/-- CHATTER_QUIET: QUIET ms without a raw change end a chatter (R503). -/
def execChatterQuiet (dt i : Nat) (s : State) : Out :=
  let s := s.elapse dt
  let x := s.input i
  let last := if x.pair then max x.rawAt (s.input (i + 1)).rawAt else x.rawAt
  .next (if s.deskServed && decide (i < 32) && x.chatter && decide (last + x.quiet * 1000000 ≤ s.tb.now) then
    (s.modInput i fun x => { x with chatter := false, changes := [] }).inputEvent i 2 x.unitTime else s)

/-- INPUT_STUCK: the level has stayed active for STUCK_MS (R503). -/
def execInputStuck (dt i : Nat) (s : State) : Out :=
  let s := s.elapse dt
  let x := s.input i
  .next (if s.deskServed && decide (i < 32) && x.enable && !s.pairOdd i && decide (x.stuckMs ≠ 0) && decide (x.unitLevel = 1) && !x.stuck
      && decide (x.activeAt + x.stuckMs * 1000000 ≤ s.tb.now) then
    (s.modInput i fun x => { x with stuck := true }).inputEvent i 3 x.unitTime else s)

/-- PAIR_DISCREPANCY: a discrepancy has lasted PAIR_MS (R504). -/
def execPairDiscrepancy (dt k : Nat) (s : State) : Out :=
  let s := s.elapse dt
  let x := s.input (2 * k)
  .next (if s.deskServed && decide (k < 16) && x.pair && decide (x.pairLevel ≠ 2)
      && (match x.discAt with | some t => decide (t + x.pairMs * 1000000 ≤ s.tb.now) | none => false) then
    (s.modInput (2 * k) fun x => { x with pairLevel := 2, agree := 0 }).inputEvent (2 * k) 4 x.discTime else s)

/-! ### INPUT_CONFIG (R505) -/

/-- PULL of a code. -/
def pullOf (n : Nat) : Pull := if n = 1 then .up else if n = 2 then .down else .none

/-- The settings an INPUT_CONFIG gives an input. -/
def ConIn.configure (x : ConIn) (c : FCtx) : ConIn :=
  let fl := c.u 0x11 1
  let on_ := bitOf fl 0
  let fresh := on_ && !x.enable
  { x with
    enable := on_, owner := if on_ then some c.colour else none, activeLow := bitOf fl 1, pair := bitOf fl 2, pull := pullOf (fl / 8 % 4)
    ring := c.ev (c.u 0x12 1), debounce := c.u 0x13 1, chatterN := c.u 0x14 1, chatterW := c.u 0x16 2, quiet := c.u 0x18 2
    pairMs := c.u 0x1A 2, stuckMs := c.u 0x1C 4
    count := if fresh then 0 else x.count, chatter := x.chatter && on_ && !fresh, stuck := x.stuck && on_ && !fresh }

/-- A pair that has just been set takes the level its inputs agree on. -/
def State.pairBegins (s : State) (i : Nat) (was : Bool) : State :=
  if was || !(s.input i).pair then s
  else s.modInput i fun x => { x with
    pairLevel := (s.pairNow i).getD 0, agree := 0, agreeTime := max (s.input i).levelTime (s.input (i + 1)).levelTime
    discAt := if (s.pairNow i).isNone then some s.tb.now else none, discTime := s.stepless }

/-- INPUT_CONFIG. -/
def bodyInputConfig (c : FCtx) (s : State) : FRes :=
  let i := c.u 0x10 1
  let fl := c.u 0x11 1
  let x := s.input i
  let stuck := c.u 0x1C 4
  .checks [(decide (i < 32) && decide (fl < 32) && (!bitOf fl 2 || decide (i % 2 = 0)) && decide (fl / 8 % 4 < 3) && decide (c.u 0x12 1 < 32)
        && decide (1 ≤ c.u 0x13 1) && decide (2 ≤ c.u 0x14 1) && decide (c.u 0x15 1 = 0) && within 10 10000 (c.u 0x16 2) && within 10 60000 (c.u 0x18 2)
        && within 1 1000 (c.u 0x1A 2) && (decide (stuck = 0) || within 1000 86400000 stuck), .param),
      (x.owner = none || x.owner = some c.colour, .colour),
      (!bitOf fl 2 || (s.input (i + 1)).owner = none || (s.input (i + 1)).owner = some c.colour, .colour), (evOk c s (c.u 0x12 1), .colour),
      (!s.pairOdd i, .busy)] s <|
    .ok ((s.modInput i fun x => x.configure c).pairBegins i x.pair)

/-- INPUT_CONFIG (R505). -/
def execInputConfig (dt ring : Nat) (s : State) : Out := .next ((s.elapse dt).runFolio ring 0x0D10 bodyInputConfig)

/-! ### Outputs (R507–R509) -/

/-- The phase of a blinking output at a device time: active for ON ms from each multiple of PERIOD. -/
def ConOut.phase (x : ConOut) (dev : Nat) : Bool := decide (dev % (max 1 x.period * 1000000) < x.on_ * 1000000)

/-- A follow-stale output is active: the layer's most recent frame had a failing leaf, or the layer is not ACTIVE (R508). -/
def State.followLevel (s : State) (layer : Nat) : Bool := (s.layer layer).failing || decide ((s.layer layer).st ≠ .active)

/-- What an output drives in its mode, as the mode is entered. -/
def State.outLevel (s : State) (x : ConOut) : Bool :=
  match x.mode with
  | .inactive | .released => false
  | .active | .pulse => true
  | .blink => x.phase s.tb.dev
  | .follow => s.followLevel x.layer

/-- The mode of a code. -/
def outModeOf (n : Nat) : OutMode :=
  match n with | 0 => .inactive | 1 => .active | 2 => .blink | 3 => .pulse | 4 => .follow | _ => .released

/-- An output is set: driven, unless it is released or this part is a standby (R511, R512). -/
def State.setOutput (s : State) (o : Nat) (x : ConOut) : State :=
  let off := decide (x.mode = .released)
  s.modOutput o fun _ => { x with
    driven := s.outLevel x, hiZ := off || decide (s.twin.st ≠ .active), fault := false
    endsAt := if x.mode = .pulse then some (s.tb.now + x.on_ * 1000000) else none }

/-- The settings of an OUTPUT_SET. -/
def outputOf (c : FCtx) : ConOut :=
  { ConOut.reset with
    mode := outModeOf (c.u 0x11 1), owner := if c.u 0x11 1 = 5 then none else some c.colour, openDrain := bitOf (c.u 0x12 1) 0
    activeLow := bitOf (c.u 0x12 1) 1, layer := c.u 0x13 1, period := c.u 0x14 2, on_ := c.u 0x16 2, ring := c.ev (c.u 0x18 1) }

/-- OUTPUT_SET. -/
def bodyOutputSet (c : FCtx) (s : State) : FRes :=
  let o := c.u 0x10 1
  let m := c.u 0x11 1
  let l := c.u 0x13 1
  let period := c.u 0x14 2
  let on_ := c.u 0x16 2
  let y := s.layer l
  .checks [(decide (o < 16) && decide (m < 6) && decide (c.u 0x12 1 < 4) && (decide (m ≠ 4) || decide (l < 64)) && decide (c.u 0x18 1 < 32)
        && (decide (m ≠ 2) || (within 20 10000 period && within 1 period on_)) && (decide (m ≠ 3) || within 1 10000 on_), .param),
      ((s.output o).owner = none || (s.output o).owner = some c.colour, .colour),
      (decide (m ≠ 4) || decide (y.st = .free) || decide (y.owner = c.colour), .colour), (evOk c s (c.u 0x18 1), .colour)] s <|
    .ok (s.setOutput o (outputOf c))

/-- OUTPUT_SET (R507). -/
def execOutputSet (dt ring : Nat) (s : State) : Out := .next ((s.elapse dt).runFolio ring 0x0D20 bodyOutputSet)

/-- BLINK_PHASE: a blink phase or a pulse ends (R507). -/
def execBlinkPhase (dt o : Nat) (s : State) : Out :=
  let s := s.elapse dt
  let x := s.output o
  .next (if !s.deskServed then s
    else match x.mode with
      | .blink => s.modOutput o fun x => { x with driven := x.phase s.tb.dev }
      | .pulse => (match x.endsAt with
        | some t => if t ≤ s.tb.now then s.modOutput o fun x => { x with driven := false, endsAt := none } else s
        | none => s)
      | _ => s)

/-- FOLLOW_STALE_UPDATE: after an epoch of the layer's head (R508). -/
def execFollowStaleUpdate (dt o : Nat) (s : State) : Out :=
  let s := s.elapse dt
  let x := s.output o
  .next (if s.deskServed && decide (x.mode = .follow) then s.modOutput o fun x => { x with driven := s.followLevel x.layer } else s)

/-- OUTPUT_OVERLOAD: an overload has lasted 10 ms (R509). -/
def execOutputOverload (dt o : Nat) (s : State) : Out :=
  let s := s.elapse dt
  let x := s.output o
  .next (if s.deskServed && decide (o < 16) && !x.hiZ then
    (s.modOutput o fun x => { x with hiZ := true, fault := true }).post x.ring 0x8D20 0 (leBytes 1 o ++ List.replicate 7 0 ++ leBytes 8 s.tb.dev) else s)

/-! ### INPUT_STATE (R513) -/

/-- Bits of the units of a list that satisfy a test. -/
def bitSet {α : Type} (l : List α) (f : α → Bool) : Nat := l.zipIdx.foldl (fun (a : Nat) x => if f x.1 then a ||| 2 ^ x.2 else a) 0

/-- The block of INPUT_STATE for a colour. -/
def State.inputBlock (s : State) (colour : Nat) : List Byte :=
  let mine (x : ConIn) : Bool := decide (x.owner = some colour)
  let mineO (x : ConOut) : Bool := decide (x.owner = some colour)
  let pairs := (List.range 16).map fun k => s.input (2 * k)
  layout 256 [(0, leBytes 4 (bitSet s.desk.input fun x => mine x && (if x.pair then decide (x.pairLevel = 1) else x.level))),
    (4, leBytes 4 (bitSet s.desk.input fun x => mine x && x.raw)), (8, leBytes 4 (bitSet s.desk.input fun x => mine x && x.chatter)),
    (0x0C, leBytes 4 (bitSet s.desk.input fun x => mine x && x.stuck)),
    (0x10, leBytes 2 (bitSet pairs fun x => mine x && x.pair && decide (x.pairLevel = 2))),
    (0x14, leBytes 2 (bitSet s.desk.output fun x => mineO x && x.driven && !x.hiZ)), (0x16, leBytes 2 (bitSet s.desk.output fun x => mineO x && x.fault))]

/-- INPUT_STATE. -/
def bodyInputState (c : FCtx) (s : State) : FRes :=
  .checks (blockChecks c s (c.u 0x12 1) (c.u 0x14 4) 256) s <| writeBlock s (c.u 0x12 1) (c.u 0x14 4) (s.inputBlock c.colour)

/-- INPUT_STATE (R513). -/
def execInputState (dt ring : Nat) (s : State) : Out := .next ((s.elapse dt).runFolio ring 0x0D11 bodyInputState)

/-! ### The desk of a pair (R511, R512) -/

/-- The desk of a part that takes over: the outputs are driven from the mirrored settings, and the panels scan on with the mirrored
baselines, their open contacts ending in the first report. -/
def State.deskTakeover (s : State) : State :=
  let wake (p : Panel) : Panel :=
    if p.st ≠ .standby then p
    else if (p.base.getD 0 []).isEmpty then { p with st := .starting }
    else { p with st := .running, ending := p.ending ++ p.contacts.map (fun k => { k with st := .up }), contacts := [], cycleAt := none, learn := 0 }
  let s := { s with desk := { s.desk with panel := s.desk.panel.map wake } }
  (List.range 16).foldl (fun (t : State) o => t.modOutput o fun x => { x with hiZ := decide (x.mode = .released) || x.fault, driven := t.outLevel x }) s

/-- What a mirrored panel brings. -/
def Panel.mirrored (p : Panel) (m : PanelIn) : Panel :=
  { p with
    freqIdx := m.freqIdx, seq := m.seq, exDrive := m.exDrive, exSense := m.exSense
    base := m.base.map (·.nodes), baseD := m.base.map (·.drive), baseS := m.base.map (·.sense)
    contacts := m.contacts.map fun k => { Contact.reset with
      id := k.id, x := k.x, y := k.y, signal := k.signal, self_ := k.self_, nodes := k.nodes, edge := k.edge, age := k.age } }

/-- TOUCH_MIRROR: the active part sends its desk over link T, or a standby receives it (R512). -/
def execTouchMirror (dt : Nat) (given : Option DeskIn) (s : State) : Out :=
  let s := s.elapse dt
  .next (match given with
    | none => if s.twin.st = .active ∧ (s.spineLink 2).st = 2 then { s with desk := { s.desk with mirrorAt := some s.tb.now } } else s
    | some d =>
      if s.twin.st ≠ .standby ∨ (s.spineLink 2).st ≠ 2 then s
      else
        let s := d.panels.foldl (fun (t : State) (m : PanelIn) => if (t.panel m.t).st = .standby then t.modPanel m.t fun p => p.mirrored m else t) s
        let put (x : ConIn × Nat) : ConIn := { x.1 with level := d.levels.getLsbD x.2, pairLevel := d.pairs.getD (x.2 / 2) 0, run_ := 0 }
        { s with desk := { s.desk with mirrorAt := some s.tb.now, input := s.desk.input.zipIdx.map put } })

end Sys2Proof.Machine
end

