-- ==== Sys2Proof/Machine/Journal.lean ====
section
/-!
DEFINITION. The replay journal: recording, gaps, snapshots, holds, export, import, and the start and end of replay mode
(17_faults_replay.md R586–R600).
-/

namespace Sys2Proof.Machine

/-! ### The region (R586) -/

/-- Bytes of the staging area. -/
def stagingBytes : Nat := 0x4000000

/-- Bytes of the compressed area: the region less staging and index. -/
def Journal.area (j : Journal) : Nat := j.size * 2 ^ 20 - stagingBytes - j.size * 1024

/-- Records that the index holds. -/
def Journal.records (j : Journal) : Nat := j.size * 32

/-- EV_JOURNAL (R600): 0 GAP, 1 END_GAP, 2 HOLD_FULL, 3 END. -/
def State.journalEvent (s : State) (kind dropped : Nat) : State :=
  s.post s.jrn.ring 0x9030 0 (leBytes 1 kind ++ leBytes 3 0 ++ leBytes 4 dropped ++ leBytes 8 s.tb.dev)

/-- The region is returned: its entry goes, its bytes are wiped, and the journal is as after reset but for its settings. -/
def State.journalFree (s : State) : State :=
  if !s.jrn.region then s
  else
    let base := s.jrn.base
    let size := s.jrn.size * 2 ^ 20
    let s := match s.sec.act.find? fun e => e.2.valid && e.2.sealed_ && decide (e.2.base.toNat = base / 4096) with
      | some e => s.replaceEntry e.1 { e.2 with valid := false }
      | none => s
    let s := s.wipeSpan base size
    { s with store := { s.store with regions := s.store.regions.filter fun a => a.base ≠ base }, jrn := Journal.reset }

/-- A sealed colour-0 region is taken from the store. -/
def State.journalTake (s : State) (base size : Nat) : State :=
  let e : ActEntry := { base := BitVec.ofNat 28 (base / 4096), last := BitVec.ofNat 28 ((base + size * 2 ^ 20 - 1) / 4096), colour := 0, sealed_ := true
                        lock := false, valid := true, read := true, write := true, exec_ := false, label := 0xFFFF }
  let s := match s.freeEntry with | some i => s.replaceEntry i e | none => s
  { s with
    store := { s.store with
      mem := s.store.mem.clear base (size * 2 ^ 20)
      regions := s.store.regions ++ [{ base := base, size := size * 2 ^ 20, colour := 0, dirty := false }] }
    jrn := { Journal.reset with region := true, base := base, size := size } }

/-! ### JOURNAL_CONFIG (R586) -/

/-- JOURNAL_CONFIG. With ENABLE clear it returns the region of an enabled journal; on a disabled one it maps or returns the region that
an import needs (DESIGN CHOICE, log entry 45). -/
def bodyJournalConfig (c : FCtx) (s : State) : FRes :=
  let u := c.u
  let on := bitOf (u 0x10 1) 0
  let size := u 0x14 4
  let sizeOk := decide (256 ≤ size) && decide (size ≤ 12288) && decide (size % 64 = 0)
  let running := decide (s.jrn.st ≠ .off)
  let free := s.journalFree
  let keeps := on && running
  let needs := !keeps && (on || (!running && decide (size ≠ 0)))
  let place := free.findRegion (size * 2 ^ 20)
  .checks [(decide (u 0x10 1 < 2) && (!on || (decide (1 ≤ u 0x11 1) && decide (u 0x11 1 ≤ 3) && decide (u 0x13 1 < 32) && sizeOk
        && decide (10 ≤ u 0x18 2) && decide (u 0x18 2 ≤ 600))) && (on || running || decide (size = 0) || sizeOk), .param),
      (isAdmin c s && (!on || evOk c s (u 0x13 1)), .colour), (!keeps || decide (size = s.jrn.size), .busy),
      (!needs || (place.isSome && free.freeEntry.isSome), .nospace)] s <|
    let set_ (j : Journal) : Journal := { j with level := u 0x11 1, winMask := BitVec.ofNat 8 (u 0x12 1), ring := c.ev (u 0x13 1), snapS := u 0x18 2 }
    if keeps then .ok { s with jrn := set_ s.jrn }
    else match needs, place with
      | true, some base =>
        let t := free.journalTake base size
        .ok (if on then { t with jrn := { set_ t.jrn with st := .recording, snapDue := true } } else t)
      | _, _ => .ok free

/-- JOURNAL_CONFIG (R586). -/
def execJournalConfig (dt ring : Nat) (s : State) : Out := .next ((s.elapse dt).runFolio ring 0x1030 bodyJournalConfig)

/-! ### Entries (R587–R590) -/

/-- The 16-byte header of an entry and its payload. -/
def JEntry.bytes (e : JEntry) : List Byte :=
  leBytes 1 e.kind ++ leBytes 1 (b2n e.cont) ++ leBytes 2 e.payload.length ++ leBytes 4 e.src.toNat ++ leBytes 8 e.time ++ e.payload

/-- An entry whose data exceeds 65,520 bytes is split; the parts of a snapshot are numbered in SOURCE. -/
def entryParts (kind : Nat) (src : BitVec 32) (time : Nat) (payload : List Byte) : List JEntry :=
  let cuts := if payload.isEmpty then [[]] else cutEvery 65520 (payload.length / 65520 + 1) payload
  cuts.zipIdx.map fun p => { kind := kind, cont := decide (p.2 ≠ 0), src := if kind = 12 then BitVec.ofNat 32 p.2 else src, time := time, payload := p.1 }

/-- Parts are staged. -/
def Journal.stage (j : Journal) (parts : List JEntry) : Journal :=
  let one (j : Journal) (e : JEntry) : Journal :=
    { j with
      headers := j.headers ++ [(j.staging.length, e.time, if e.kind = 12 ∧ !e.cont then 1 else if e.kind = 13 then 2 else 0)]
      staging := j.staging ++ e.bytes, entries := e :: j.entries, written := sat 32 (j.written + 1) }
  parts.foldl one j

/-- An entry that finds no room is dropped and counted by its KIND. -/
def Journal.drop (j : Journal) (kind : Nat) : Journal :=
  { j with dropped := sat 32 (j.dropped + 1), dropKind := j.dropKind.modify kind fun n => sat 32 (n + 1) }

/-- Bytes go to a part of the region, which is written round (R38, R586, R592). -/
def State.jrnWrite (s : State) (part size off : Nat) (bs : List Byte) : State :=
  let t := s.storeWrite (s.jrn.base + part + off) (bs.take (size - off))
  if bs.length ≤ size - off then t else t.storeWrite (s.jrn.base + part) ((bs.drop (size - off)).take off)

/-- Parts are staged, behind what has been staged before. -/
def State.jrnStage (s : State) (parts : List JEntry) : State :=
  let j := s.jrn.stage parts
  { s with jrn := j }.jrnWrite 0 stagingBytes ((65536 * s.jrn.nextChunk + s.jrn.staging.length) % stagingBytes) (j.staging.drop s.jrn.staging.length)

/-- What a FOLIO entry may hold: for the folios that read secrets, the SHA-384 of the bytes read (R589). -/
def journalled (kind : Nat) (payload : List Byte) : List Byte :=
  if kind = 2 ∧ [0x0B00, 0x0B01, 0x0B02, 0x0B03, 0x0B04].contains (leNat (payload.take 2)) then
    payload.take 256 ++ padTo 48 (Config.sha384 (payload.drop 256))
  else payload

/-- Parts go into staging, or find it full and start a gap (R590). -/
def State.journalPut (s : State) (kind : Nat) (parts : List JEntry) : State :=
  let j := s.jrn
  if j.staging.length + (parts.map fun e => e.payload.length + 16).sum ≤ stagingBytes then s.jrnStage parts
  else
    ({ s with jrn := ({ j with st := .gap, gapStart := s.tb.dev, gaps := sat 32 (j.gaps + 1), dropKind := List.replicate 14 0 }).drop kind }).journalEvent 0 1

/-- JOURNAL_ENTRY: an island writes an entry into staging; one that finds it full starts a gap (R590). -/
def execJournalEntry (dt kind : Nat) (source : BitVec 32) (payload : List Byte) (s : State) : Out :=
  let s := s.elapse dt
  let j := s.jrn
  let skip := decide (12 ≤ kind) || (decide (kind = 8) && !j.winMask.getLsbD source.toNat)
  if skip || (s.island islSvc).isolated then .next s
  else if j.st = .gap then .next { s with jrn := j.drop kind }
  else if j.st ≠ .recording then .next s
  else .next (s.journalPut kind (entryParts kind source s.tb.dev (journalled kind payload)))

/-- JOURNAL_SNAPSHOT: every SNAP_S seconds, and after a gap, firmware writes the state image it is given (R591). -/
def execJournalSnapshot (dt : Nat) (image : List Byte) (s : State) : Out :=
  let s := s.elapse dt
  let j := s.jrn
  if j.st ≠ .recording ∨ (!j.snapDue ∧ s.tb.now < j.snapAt + j.snapS * 1000000000) ∨ (s.island islSvc).isolated then .next s
  else .next ({ s with jrn := { j with snapAt := s.tb.now, snapDue := false } }.journalPut 12 (entryParts 12 0 s.tb.dev image))

/-- GAP_END: staging has drained below 32 MiB; a GAP entry is written, a snapshot is due, and recording goes on (R590). -/
def execGapEnd (dt : Nat) (s : State) : Out :=
  let s := s.elapse dt
  let j := s.jrn
  if j.st ≠ .gap ∨ stagingBytes / 2 ≤ j.staging.length then .next s
  else
    let n := j.dropKind.sum
    let e : JEntry := { kind := 13, cont := false, src := 0, time := j.gapStart, payload := leBytes 8 s.tb.dev ++ j.dropKind.flatMap (leBytes 4) }
    let s := s.jrnStage [e]
    .next ({ s with jrn := { s.jrn with st := .recording, snapDue := true } }.journalEvent 1 (sat 32 n))

/-! ### Chunks (R591, R592) -/

/-- Bytes of a list of chunks. -/
def chunkSum (l : List JChunk) : Nat := (l.map fun (k : JChunk) => k.length).sum

/-- The held chunks: from the hold's first to its last. -/
def Journal.held (j : Journal) (k : JChunk) : Bool :=
  match j.holdFrom with
  | some a => decide (a ≤ k.number) && (match j.holdTo with | some b => decide (k.number ≤ b) | none => true)
  | none => false

/-- The oldest chunks that are not held go until what is left fits; newest first, `n` bounds the walk. -/
def Journal.recycle (j : Journal) (room records : Nat) : Journal :=
  let keep (a : List JChunk × Nat × Nat) (k : JChunk) : List JChunk × Nat × Nat :=
    if j.held k then (a.1 ++ [k], a.2) else if k.length ≤ a.2.1 ∧ a.2.2 ≠ 0 then (a.1 ++ [k], a.2.1 - k.length, a.2.2 - 1) else (a.1, 0, 0)
  { j with chunks := (j.chunks.foldl keep ([], room, records)).1 }

/-- Where the next chunk goes in the compressed area: after the newest; once the held span has stopped growing, within the rest. -/
def Journal.place (j : Journal) (len : Nat) : Nat :=
  let p := match j.chunks with | k :: _ => (k.offset + k.length) % j.area | [] => 0
  let heldNow := j.chunks.filter j.held
  match j.holdTo, heldNow.getLast?, heldNow with
  | some _, some first, last :: _ =>
    if (first.offset + j.area - p) % j.area < len then (last.offset + last.length) % j.area else p
  | _, _, _ => p

/-- The index record of a chunk: 32 bytes. -/
def JChunk.record (k : JChunk) : List Byte :=
  leBytes 8 k.number ++ leBytes 8 k.first ++ leBytes 4 k.offset ++ leBytes 4 k.length ++ leBytes 2 k.firstHeader
    ++ leBytes 1 (b2n k.snapTime.isSome + 2 * b2n k.gap) ++ leBytes 1 0 ++ leBytes 4 k.crc.toNat

/-- A chunk of what is staged, coded. A chunk in which no header starts carries 0xFFFF (DESIGN CHOICE, log entry 46). -/
def Journal.makeChunk (j : Journal) (code : List Byte) : JChunk :=
  let mine := j.headers.filter fun h => h.1 < 65536
  let bs := j.staging.take 65536
  { number := j.nextChunk, first := match mine with | h :: _ => h.2.1 | [] => j.lastStaged, offset := j.place code.length, length := code.length
    firstHeader := match mine with | h :: _ => h.1 | [] => 0xFFFF
    snapTime := (mine.find? fun h => h.2.2 = 1).map (·.2.1), gap := mine.any fun h => h.2.2 = 2
    crc := crc32c bs, bytes := code, staged := bs }

/-- A chunk leaves staging for the compressed area, and its record goes into the index; the held span grows with it until it fills half of the area. -/
def State.addChunk (s : State) (code : List Byte) : State :=
  let j := s.jrn
  let k := j.makeChunk code
  let mine := j.headers.filter fun h => h.1 < 65536
  let rest := (j.headers.filter fun h => !decide (h.1 < 65536)).map fun h => (h.1 - 65536, h.2)
  let grow := j.holdFrom.isSome && j.holdTo.isNone
  let full := grow && decide (j.area / 2 < chunkSum (j.chunks.filter j.held) + k.length)
  let holdTo := if full then (match j.chunks with | x :: _ => some x.number | [] => j.holdFrom) else j.holdTo
  let j : Journal := { j with
    staging := j.staging.drop 65536, headers := rest, nextChunk := j.nextChunk + 1, holdTo := holdTo
    lastStaged := match mine.getLast? with | some h => h.2.1 | none => j.lastStaged }
  let j := { j with chunks := k :: j.chunks }
  let heldNow := j.chunks.filter j.held
  let j := j.recycle (if holdTo.isSome then j.area - chunkSum heldNow else j.area - chunkSum heldNow) (j.records - heldNow.length)
  let s := ({ s with jrn := j }.jrnWrite (stagingBytes + j.size * 1024) j.area k.offset k.bytes).jrnWrite stagingBytes (j.size * 1024)
    (32 * (k.number % j.records)) k.record
  if full then s.journalEvent 2 0 else s

/-- JOURNAL_CHUNK: an engine compresses 64 KiB of staged entries, verifies what it coded, and writes chunk and index record (R581, R591). -/
def execJournalChunk (dt : Nat) (compressed : List Byte) (s : State) : Out :=
  let s := s.elapse dt
  let j := s.jrn
  let engine := if (s.zeEngine 0).disabled then 1 else 0
  if (j.st ≠ .recording ∧ j.st ≠ .gap) ∨ j.staging.length < 65536 ∨ (s.zeEngine engine).disabled ∨ (s.island islSvc).isolated then .next s
  else
    let r := chunkCoded j.level (j.staging.take 65536) compressed
    let t := s.addChunk (r.getD (storedChunk (j.staging.take 65536)))
    .next (if r.isNone then t.fault 14 islSvc 0 engine 0 else t)

/-! ### JOURNAL_HOLD (R592) -/

/-- The newest retained chunk whose snapshot lies at or before a time. -/
def Journal.snapAtOrBefore (j : Journal) (t : Nat) : Option JChunk :=
  j.chunks.find? fun (k : JChunk) => match k.snapTime with | some a => decide (a ≤ t) | none => false

/-- JOURNAL_HOLD. -/
def bodyJournalHold (c : FCtx) (s : State) : FRes :=
  let start := c.u 0x18 8
  let j := s.jrn
  let k := j.snapAtOrBefore start
  let span := match k with | some k => chunkSum (j.chunks.filter fun (x : JChunk) => k.number ≤ x.number) | none => 0
  .checks [(isAdmin c s, .colour), (decide (j.st ≠ .off) && (decide (start = 0) || k.isSome), .state), (decide (start = 0) || decide (span ≤ j.area / 2), .nospace)] s <|
    if start = 0 then .ok { s with jrn := { j with hold := none, holdFrom := none, holdTo := none } }
    else .ok { s with jrn := { j with hold := some start, holdFrom := k.map fun (k : JChunk) => k.number, holdTo := none } }

/-- JOURNAL_HOLD (R592). -/
def execJournalHold (dt ring : Nat) (s : State) : Out := .next ((s.elapse dt).runFolio ring 0x1031 bodyJournalHold)

/-! ### JOURNAL_EXPORT (R593) -/

/-- ASCII wp1664-jx. -/
def jxLabel : List Byte := [0x77, 0x70, 0x31, 0x36, 0x36, 0x34, 0x2D, 0x6A, 0x78]

/-- A chunk under the content key: the chunk number and four zero bytes are the nonce, and its tag follows. -/
def JChunk.sealed (k : JChunk) (key : List Byte) : List Byte :=
  padTo (k.length + 16) (Config.gcm key (leBytes 8 k.number ++ leBytes 4 0) [] k.bytes)

/-- The chunks of a list, oldest first, that fit in `room` bytes with the part's header, table and signatures. -/
def fitChunks : Nat → List JChunk → List JChunk
  | _, [] => []
  | room, k :: l => if k.length + 48 ≤ room then k :: fitChunks (room - (k.length + 48)) l else []

/-- Bytes of a part besides its chunks and their table records. -/
def partFixed : Nat := 0x200 + 96 + 4627

/-- A part of an export. -/
def State.exportPart (s : State) (l : List JChunk) (from_ until_ key priv rKey salt : List Byte) : List Byte :=
  let eph := padTo 97 (Config.ecdhPub priv)
  let table := l.flatMap JChunk.record
  let body := l.flatMap fun (k : JChunk) => k.sealed key
  let head (eph wrap : List Byte) : List Byte :=
    layout 0x200 [(0, leBytes 4 0x584A5057), (4, leBytes 2 1), (6, leBytes 1 0xB0), (7, leBytes 1 s.top.gatherId.toNat),
      (8, leBytes 4 s.sec.running.release.toNat), (0x0C, leBytes 4 l.length), (0x10, padTo 16 s.deviceId),
      (0x20, leBytes 8 (match l with | k :: _ => k.number | [] => 0)), (0x28, from_), (0x30, until_), (0x38, padTo 48 (s.sec.fuses.ownerDigest.getD [])),
      (0x68, padTo 48 (Config.sha384 key)), (0x98, padTo 48 (Config.sha384 (table ++ body))), (0xC8, eph), (0x130, wrap)]
  let kek := Config.hkdf (Config.ecdh priv rKey) salt jxLabel 32
  let wrap := padTo 48 (Config.gcm kek (List.replicate 12 0) [] key)
  let signed := head [] []
  head eph wrap ++ table ++ body ++ padTo 96 (Config.signE s.sec.fuses.salt1 signed) ++ padTo 4627 (Config.signM s.sec.fuses.salt1 signed)

/-- JOURNAL_EXPORT: `recipientOk` is whether the recipient's chain and signatures verify. -/
def bodyJournalExport (recipientOk : Bool) (c : FCtx) (s : State) : FRes :=
  let u := c.u
  let w := u 0x10 1
  let off := u 0x14 4
  let from_ := u 0x18 8
  let until_ := u 0x20 8
  let archive := decide (u 0x28 1 = 1)
  let rOff := u 0x2C 4
  let next := u 0x30 8
  let j := s.jrn
  let rLen := if archive then 97 + 96 + 4627 else 0x1E93
  let r := s.winRead w rOff rLen
  let attested := decide ((r.drop 0xA0).take 48 = padTo 48 (s.owner.getD [])) && s.owner.isSome
    && (decide (leNat ((r.drop 2).take 1) = 1) || decide (leNat ((r.drop 2).take 1) = 2))
  let firstChunk := j.snapAtOrBefore from_
  let start := if next = 0 then (match firstChunk with | some k => k.number | none => 0) else next
  let all := (j.chunks.reverse).filter fun (k : JChunk) => decide (start ≤ k.number) && decide (k.first ≤ until_)
  let room := (s.window w).size.toNat - off
  let l := fitChunks (room - partFixed) all
  .checks [(decide (w < 8) && decide (u 0x28 1 < 2), .param), (isAdmin c s, .colour),
      (s.winOk w c.colour && s.winSpan w rOff rLen false && s.winSpan w off (partFixed + (l.map fun (k : JChunk) => k.length + 48).sum) true, .colour),
      (firstChunk.isSome && (decide (next = 0) || (j.chunks.any (fun (k : JChunk) => k.number = next) && !j.exportKey.isEmpty)), .state),
      (decide (partFixed ≤ room) && (!l.isEmpty || all.isEmpty), .nospace), (recipientOk && (archive || attested), .signature),
      (!s.winDamaged w rOff rLen && !s.sec.entropyBad, .fault)] s <|
    let k := if next = 0 then s.draw 32 else (j.exportKey, s)
    let p := k.2.draw 48
    let key := if archive then r.take 97 else (r.drop 0x100).take 97
    let salt := if archive then List.replicate 16 0 else (r.drop 0x10).take 16
    let t := p.2.winWrite w off (p.2.exportPart l (leBytes 8 from_) (leBytes 8 until_) k.1 p.1 key salt)
    let more := match all.drop l.length with | x :: _ => x.number | [] => 0
    .done .ok more { t with jrn := { t.jrn with exportKey := k.1, exportFrom := start } } id

/-- JOURNAL_EXPORT (R593). -/
def execJournalExport (dt ring : Nat) (recipientOk : Bool) (s : State) : Out :=
  .next ((s.elapse dt).runFolio ring 0x1032 (bodyJournalExport recipientOk))

/-! ### JOURNAL_IMPORT (R594) -/

/-- The chunks that a part's table names, with the bytes that each opens to. -/
def tableChunks (table : List Byte) (opened : List (List Byte)) : List JChunk :=
  opened.zipIdx.map fun p =>
    let u (o n : Nat) := leNat ((table.drop (32 * p.2 + o)).take n)
    { number := u 0 8, first := u 8 8, offset := u 16 4, length := u 20 4, firstHeader := u 24 2, snapTime := if bitOf (u 26 1) 0 then some (u 8 8) else none
      gap := bitOf (u 26 1) 1, crc := BitVec.ofNat 32 (u 28 4), bytes := p.1, staged := (inflate p.1 65536).bytes }

/-- JOURNAL_IMPORT: `sigOk` is whether chain, signatures and MANIFEST verify; `keyOk` whether WRAP opens and KEY_HASH matches; `chunks` what the
content key opens the chunks to. -/
def bodyJournalImport (sigOk keyOk : Bool) (chunks : List (List Byte)) (c : FCtx) (s : State) : FRes :=
  let w := c.u 0x10 1
  let off := c.u 0x14 4
  let h := s.winRead w off 0x200
  let u (o n : Nat) := leNat ((h.drop o).take n)
  let n := u 0x0C 4
  let table := s.winRead w (off + 0x200) (32 * n)
  let lens := (List.range n).map fun i => leNat ((table.drop (32 * i + 20)).take 4)
  let total := 0x200 + 32 * n + (lens.map (· + 16)).sum + 96 + 4627
  let j := s.jrn
  let own := s.owner.isSome && decide ((h.drop 0x38).take 48 = padTo 48 (s.owner.getD [])) && decide (u 6 1 = 0xB0)
    && decide (u 8 4 = s.sec.running.release.toNat)
  .checks [(decide (w < 8), .param), (isAdmin c s, .colour), (s.winOk w c.colour && s.winSpan w off total false && s.winSpan w (c.u 0x18 4) 4 false, .colour),
      (decide (j.st = .off) && j.region, .state), (sigOk && decide (u 0 4 = 0x584A5057) && decide (u 4 2 = 1), .signature), (own, .state),
      (keyOk && (s.sec.provKey.getD c.colour none).isSome, .state), (!j.imported || decide (u 0x20 8 = j.importNext), .state),
      (decide (chunkSum j.importChunks + lens.sum ≤ j.area), .nospace), (!s.winDamaged w off total, .fault)] s <|
    .ok { s with jrn := { j with
      imported := true, importNext := u 0x20 8 + n, importChunks := j.importChunks ++ tableChunks table (chunks.take n) } }

/-- JOURNAL_IMPORT (R594). -/
def execJournalImport (dt ring : Nat) (sigOk keyOk : Bool) (chunks : List (List Byte)) (s : State) : Out :=
  .next ((s.elapse dt).runFolio ring 0x1033 (bodyJournalImport sigOk keyOk chunks))

/-! ### Replay mode (R595, R599) -/

/-- The staged bytes of imported chunks, up to the first that fails its check. -/
def importedBytes : List JChunk → List Byte
  | [] => []
  | k :: l => if crc32c k.staged = k.crc then k.staged ++ importedBytes l else []

/-- The entries that a list of staged bytes spells, at most `fuel` of them. -/
def entriesOf : Nat → List Byte → List JEntry
  | 0, _ => []
  | fuel + 1, bs =>
    let u (o n : Nat) := leNat ((bs.drop o).take n)
    if bs.length < 16 + u 2 2 then []
    else { kind := u 0 1, cont := bitOf (u 1 1) 0, src := BitVec.ofNat 32 (u 4 4), time := u 8 8, payload := (bs.drop 16).take (u 2 2) }
      :: entriesOf fuel (bs.drop (16 + u 2 2))

/-- The parts of split entries put together. -/
def joinParts : List JEntry → List JEntry
  | [] => []
  | e :: l => match joinParts l with
    | f :: rest => if f.cont then { e with payload := e.payload ++ f.payload } :: rest else e :: f :: rest
    | [] => [e]

/-- The imported entries from the first header on, oldest first. -/
def Journal.importedEntries (j : Journal) : List JEntry :=
  match j.importChunks with
  | [] => []
  | k :: _ =>
    let bs := importedBytes j.importChunks
    joinParts (entriesOf (bs.length / 16 + 1) (bs.drop (if k.firstHeader < 65536 then k.firstHeader else 0)))

/-- Entries from the first snapshot at or after a time. -/
def fromSnapshot (t : Nat) (l : List JEntry) : List JEntry := l.dropWhile fun (e : JEntry) => !(decide (e.kind = 12) && decide (t ≤ e.time))

/-- Touch lines and, without SHOW, ports and console outputs are driven by nothing in replay mode (R595, R511). -/
def State.replayLines (s : State) : State :=
  let lines : State := { s with desk := { s.desk with
    panel := s.desk.panel.map fun (p : Panel) => if p.st = .off then p else { p with st := .standby } } }
  let dark : State := { lines with desk := { lines.desk with output := lines.desk.output.map fun (x : ConOut) => { x with hiZ := true } } }
  if s.jrn.show_ then lines else dark.mutePorts

/-- REPLAY_START. -/
def bodyReplayStart (c : FCtx) (s : State) : FRes :=
  let u := c.u
  let w := u 0x10 1
  let j := s.jrn
  let l := fromSnapshot (u 0x18 8) j.importedEntries
  .checks [(decide (w < 8) && decide (u 0x11 1 < 2) && decide (u 0x14 4 % 256 = 0), .param), (isAdmin c s, .colour),
      (s.winOk w c.colour && s.winSpan w (u 0x14 4) (256 * u 0x20 4) true, .colour),
      (decide (j.st = .off) && j.imported && decide (s.role = 0) && s.dec.ctx.all (fun (x : Context) => !x.opened)
        && s.comp.head.all (fun (h : Head) => decide (h.st = HeadSt.off)) && s.enc.session.all (fun (x : EncSession) => decide (x.st = .closed))
        && !l.isEmpty, .state)] s <|
    let j : Journal := { j with
      st := .replaying, importEntries := l, outWin := w, outOffset := u 0x14 4, outBlocks := u 0x20 4, outNext := 0, show_ := bitOf (u 0x11 1) 0 }
    let s : State := { s with
      jrn := { j with comparable := 0, diverged := 0, exact := [], replayed := [], snapWanted := true }, top := { s.top with replay := true } }
    .ok s.replayLines

/-- REPLAY_START (R595). -/
def execReplayStart (dt ring : Nat) (s : State) : Out := .next ((s.elapse dt).runFolio ring 0x1034 bodyReplayStart)

/-- REPLAY_STOP: the device resets (R599). -/
def bodyReplayStop (c : FCtx) (s : State) : FRes :=
  .checks [(isAdmin c s, .colour), (s.top.replay, .state)] s <| .done .ok 0 s State.deviceReset

/-- REPLAY_STOP (R599). -/
def execReplayStop (dt ring : Nat) (s : State) : Out := .next ((s.elapse dt).runFolio ring 0x1035 bodyReplayStop)

/-! ### JOURNAL_STATE (R600) -/

/-- The code of a journal state. -/
def JrnSt.code : JrnSt → Nat
  | .off => 0 | .recording => 1 | .gap => 2 | .replaying => 3

/-- The block of JOURNAL_STATE. -/
def State.journalBlock (s : State) : List Byte :=
  let j := s.jrn
  let oldest := match j.chunks.getLast? with | some k => k.first | none => 0
  let snaps := j.chunks.filterMap fun (k : JChunk) => k.snapTime
  layout 256 [(0, leBytes 1 (JrnSt.code j.st)), (4, leBytes 4 (j.staging.length / 1024)), (8, leBytes 8 oldest), (0x10, leBytes 8 (snaps.getLast?.getD 0)),
    (0x18, leBytes 8 (j.hold.getD 0)), (0x20, leBytes 4 j.written), (0x24, leBytes 4 j.dropped), (0x28, leBytes 4 j.gaps),
    (0x30, leBytes 8 j.lastTime), (0x38, leBytes 4 j.comparable), (0x3C, leBytes 4 j.diverged)]

/-- JOURNAL_STATE. -/
def bodyJournalState (c : FCtx) (s : State) : FRes :=
  .checks (blockChecks c s (c.u 0x12 1) (c.u 0x14 4) 256) s (writeBlock s (c.u 0x12 1) (c.u 0x14 4) s.journalBlock)

/-- JOURNAL_STATE (R600). -/
def execJournalState (dt ring : Nat) (s : State) : Out := .next ((s.elapse dt).runFolio ring 0x1036 bodyJournalState)

end Sys2Proof.Machine
end

