-- ==== Sys2Proof/Machine/Twin.lean ====
section
/-!
DEFINITION. The twin: signals, claims, election, takeover, planned swap, giving up, health and self-tests (13_gathering_twin.md R466–R483;
10_ordering_recovery.md R366–R370).
-/

namespace Sys2Proof.Machine

/-! ### Signals (R467, R468, R470) -/

/-- HB_SILENT: HB_IN has had no edge for 2.5 ms. -/
def execHbSilent (dt : Nat) (s : State) : Out :=
  let s := s.elapse dt
  .next { s with twin := { s.twin with hbSilent := true } }.twinCheck

/-- HB_IN_ALIVE: edges return on HB_IN. -/
def execHbInAlive (dt : Nat) (s : State) : Out :=
  let s := s.elapse dt
  .next { s with twin := { s.twin with hbSilent := false } }.twinCheck

/-- CLAIM_RELEASED: CLAIM has been high for 2 ms without a break; it cannot while this part pulls it. -/
def execClaimReleased (dt : Nat) (s : State) : Out :=
  let s := s.elapse dt
  .next (if s.twin.pulling then s else { s with twin := { s.twin with claimLow := false, claimReleased := true } }.twinCheck)

/-- CLAIM_LOW: the partner pulls CLAIM low. -/
def execClaimLow (dt : Nat) (s : State) : Out :=
  let s := s.elapse dt
  .next { s with twin := { s.twin with claimLow := true, claimReleased := false } }.twinCheck

/-! ### Claims (R469, R470) -/

/-- This part pulls CLAIM low. -/
def State.pullClaim (s : State) : State :=
  { s with twin := { s.twin with senior := none, pulling := true, claimLow := true, claimReleased := false } }

/-- The election is won: ACTIVE, the ports unmuted, and the primary drives ACTIVE_N (R468). -/
def State.winElection (s : State) : State :=
  let t := s.unmutePorts
  (({ t with twin := { t.twin with
      st := .active, activeN := !t.twin.secondary, forced := false, aloneClaim := false, forTakeover := false } }).noteRole s).regather

/-- The SENIOR delay ends while CLAIM is still released: this part pulls it. A claim of case 1, of FORCE and of a takeover is checked for
100 µs; one beside a live partner makes the part ACTIVE, and stands unless both parts pulled. -/
def State.seniorEnd (s : State) : State :=
  let s := s.pullClaim
  let s := { s with twin := { s.twin with checkAt := some (s.tb.now + 100000) } }
  if s.twin.aloneClaim || s.twin.forced || s.twin.forTakeover then s else s.winElection

/-- SENIOR_DELAY_END (R469, R470). -/
def execSeniorDelayEnd (dt : Nat) (s : State) : Out :=
  let s := s.elapse dt
  match s.twin.senior with
  | some t =>
    if s.tb.now < t then .next s
    else if s.twin.claimLow then .next { s with twin := { s.twin with senior := none } }.dropClaim.twinCheck
    else if !s.twin.claimReleased then .next s
    else .next s.seniorEnd
  | none => .next s

/-- The rings of a part that comes to serve a pair's host: each waits for its resync doorbell, and sessions of network pairs end
(R366, R369). -/
def State.awaitDoorbells (s : State) : State :=
  let wait (q : CmdQ × Nat) : CmdQ :=
    if (s.ring q.2).enable || (s.ring (32 + q.2)).enable || (s.ringNet q.2 && (s.mapOf q.2).valid) then { q.1 with awaitResync := true } else q.1
  { s with host := { s.host with
      cmdq := s.host.cmdq.zipIdx.map wait, chan := s.host.chan.map fun (c : Channel) => { c with session := none, held := [] } } }

/-- A standby in sync enters ACTIVE; what R473 asks of it follows. -/
def State.enterTakeover (s : State) : State :=
  (({ s with twin := { s.twin with st := .active, forTakeover := true, forced := false, aloneClaim := false } }).awaitDoorbells.noteRole s).regather

/-- The check of 100 µs ends. Where both parts pulled, the part with the larger DEVICE_ID releases CLAIM and enters STANDBY; a standby whose partner
has spoken stays. -/
def State.checkEnd (s : State) (spoke both : Bool) : State :=
  let s := { s with twin := { s.twin with checkAt := none } }
  let heard := spoke || !s.twin.hbSilent || !s.tSilent
  let larger := decide (beNat s.twin.partnerDevId < beNat s.deviceId)
  match s.twin.st with
  | .standby =>
    if heard || both then ({ s with twin := { s.twin with claimLow := both } }.dropClaim).disagree 4 else s.enterTakeover
  | .electing | .active =>
    if both && larger then
      let t := s.enterStandby
      { t with twin := { t.twin with claimLow := true } }
    else if s.twin.st = .active then s
    else if s.twin.forced || !heard then s.winElection
    else s.dropClaim.twinCheck
  | _ => s

/-- CLAIM_CHECK_END (R469, R470). -/
def execClaimCheckEnd (dt : Nat) (partnerSpoke bothPulled : Bool) (s : State) : Out :=
  let s := s.elapse dt
  match s.twin.checkAt with
  | some t => .next (if t ≤ s.tb.now ∧ s.twin.pulling then s.checkEnd partnerSpoke bothPulled else s)
  | none => .next s

/-! ### Takeover (R366–R370, R461, R473) -/

/-- Three gratuitous ARP requests for the address a port takes (R473). -/
def State.announceAddress (s : State) (p : Nat) : State :=
  let x := s.port p
  if x.link ∧ x.mode ≠ 0 ∧ x.address ≠ 0 then
    (List.range 3).foldl (fun (t : State) _ => t.sendNet { NetTx.reset with kind := .arpGratuitous, port := p, info := [x.address.toNat, x.mac.toNat] }) s
  else s

/-- A context reaches the standby of its pair: multicast or host-fed (R471). -/
def Context.reachesTwin (x : Context) : Bool := x.cfg.hostFed || isGroup x.cfg.dstIp

/-- Contexts that the standby could not decode wait for a random-access picture (R473). -/
def State.wakeCold (s : State) : State :=
  (List.range 64).foldl (fun (t : State) c => if (t.ctx c).opened && !(t.ctx c).reachesTwin then t.askRandomAccess c 0 else t) s

/-- Encode sessions resume with a refresh picture (R473). -/
def State.resumeEncode (s : State) : State :=
  { s with enc := { s.enc with session := s.enc.session.map fun (x : EncSession) => { x with keyReq := true } } }

/-- Shares go on from this part's own decoding, from the first picture not yet sent (R461). -/
def State.resumeSharing (s : State) : State :=
  let go (x : Context) : Context := { x with shareFrom := List.replicate 8 x.freshPic, unackedLeaves := [] }
  s.modDec fun d => { d with ctx := d.ctx.map go }

/-- A queued launch as the new active part finds it: what fell due before is the failed part's (DESIGN CHOICE, log entry 47). -/
def LaunchEntry.caughtUp (e : LaunchEntry) (now : Nat) : Option LaunchEntry :=
  if now ≤ e.due then some e
  else if !e.periodic ∨ e.period = 0 then none
  else
    let n := ceilDiv (now - e.due) e.period
    if e.count ≠ 0 ∧ e.count ≤ e.index + n then none
    else some { e with index := e.index + n, due := e.due + n * e.period, frame := none, bad := false, stepped := false }

/-- The launch queues as the new active part finds them. -/
def State.catchUpLaunches (s : State) : State :=
  let one (p : NetPort) : NetPort := { p with queues := p.queues.map fun l => l.filterMap fun (e : LaunchEntry) => e.caughtUp s.tb.dev }
  { s with net := { s.net with ports := s.net.ports.map one } }

/-- TAKEOVER: what R473 asks of a part that has just taken over. -/
def State.takeOver (s : State) : State :=
  let us := match s.twin.lostAt with | some t => (s.tb.now - t) / 1000 | none => 0
  let s := { s with twin := { s.twin with forTakeover := false, lostAt := none, takeoverUs := sat 32 us, activeN := !s.twin.secondary } }
  let s := (List.range 4).foldl State.announceAddress s.unmutePorts
  s.resumeEncode.wakeCold.resumeSharing.catchUpLaunches.deskTakeover

/-- TAKEOVER (R473). -/
def execTakeover (dt : Nat) (s : State) : Out :=
  let s := s.elapse dt
  .next (if s.twin.st = .active ∧ s.twin.forTakeover then s.takeOver else s)

/-! ### Giving up (R467, R475) -/

/-- A lasting lane fault is present on a quad. -/
def State.laneFaultOn (s : State) (q : Nat) : Bool :=
  s.flt.inst.any fun (f : FltInst) => f.present &&
    (((decide (f.src = 5) || decide (f.src = 6)) && decide (f.unit / 4 = q)) || (decide (f.src = 7) && decide (f.key = q)))

/-- Head islands isolated within the last 10 s. -/
def State.headsIsolated (s : State) : List Nat :=
  ((List.range 16).map islHead).filter fun i => (s.island i).isolated && decide (s.tb.now ≤ (s.island i).isolatedAt + 10000000000)

/-- The islands that a cause of giving up names, where its condition holds (R475, R618). -/
def State.yieldFor (s : State) (cause : YieldIn) : Option (List Nat) :=
  match cause with
  | .store => if s.faultBits.getLsbD 5 then some [islStore] else none
  | .sec => if s.faultBits.getLsbD 10 then some [islSec] else none
  | .portLane q => if q < 8 ∧ s.laneFaultOn q ∧ s.routed q ≠ [] then some [islTx q] else none
  | .heads => if 2 ≤ s.headsIsolated.length then some s.headsIsolated else none
  | .heat => s.twin.yieldSensor.map fun i => [s.sensorIsland i]

/-- TWIN_YIELD: an active part finds a reason to give up. -/
def execTwinYield (dt : Nat) (cause : YieldIn) (s : State) : Out :=
  let s := s.elapse dt
  match s.yieldFor cause with
  | some l => .next (s.giveUp l)
  | none => .next s

/-- TWIN_WATCHDOG_TRIP: the watchdog has gone 2 ms unfed, or a CTRL restart has overrun 20 ms, and the hardware acts without firmware. -/
def execTwinWatchdogTrip (dt : Nat) (s : State) : Out :=
  let s := s.elapse dt
  let held := s.twin.resyncCause1 && decide (s.tb.now < s.twin.restartFrom + 20000000)
  .next (if !s.pwr.booted || decide (s.twin.st = .starting) || decide (s.twin.st = .yielding) || held then s else s.yieldNow)

/-! ### Being in sync (R471, R476) -/

/-- A head of the standby runs its timing, locked to its grid or free-running. -/
def Head.inStep (x : Head) : Bool := decide (x.st = HeadSt.off) || (x.scanning && (decide (x.genlock.mode = 0) || x.genlock.locked))

/-- A context that reaches the standby is decoded, from a random-access picture on; one that is SHED is decoded on neither part. -/
def Context.inStep (x : Context) : Bool :=
  !x.opened || !x.reachesTwin || decide (x.st = .shed) || (decide (x.st = .decoding) && x.coldWait.isNone)

/-- What R471 asks of a standby, link T being authenticated. -/
def State.inStep (s : State) : Bool := s.twin.snapshot && s.dec.ctx.all Context.inStep && s.comp.head.all Head.inStep

/-- A standby judges whether it is in sync; while link T is silent what it was stands (R470, R471). -/
def State.judgeSync (s : State) : State :=
  if s.twin.st ≠ .standby || s.tSilent then s
  else if s.inStep then s.gainSync
  else
    let t := s.loseSync
    { t with twin := { t.twin with snapshot := s.twin.snapshot } }

/-- STATE_SNAPSHOT: the active part sends its state, or a standby has applied it. The items of it come as the mirror's do. -/
def execStateSnapshot (dt : Nat) (s : State) : Out :=
  let s := s.elapse dt
  let sends := decide (s.twin.st = .active) && decide (s.twin.partner = some TwinSt.standby)
  if s.tSilent || !(sends || decide (s.twin.st = .standby)) then .next s
  else .next { s with twin := { s.twin with snapshot := true } }.judgeSync

/-! ### Health (R477, R480) -/

/-- Islands with a lasting fault. -/
def State.lastingIslands (s : State) : List Nat :=
  (List.range 43).filter fun i => (s.island i).isolated || s.flt.inst.any fun (f : FltInst) => f.present && decide (f.island = i)

/-- A projected margin as one byte. -/
def marginByte (m : Nat) : Nat := min m 255

/-- The health report this part publishes. -/
def State.healthBytes (s : State) : List Byte :=
  leBytes 1 s.twin.st.code ++ leBytes 2 s.faultBits.toNat ++ leBytes 1 (wordOf 8 s.hottest.2) ++ leBytes 1 (marginByte s.leastMargin)
    ++ leBytes 4 s.twin.unanswered ++ leBytes 1 (b2n s.synced) ++ s.lastingIslands.flatMap (leBytes 1)

/-- The state of a code (R480). -/
def twinStOf (n : Nat) : TwinSt :=
  if n = 0 then .starting else if n = 1 then .electing else if n = 2 then .active else if n = 3 then .standby else .yielding

/-- The partner's report is taken; an active part learns from it whether its standby is in sync. -/
def State.takeHealth (s : State) (r : HealthIn) : State :=
  let s := { s with twin := { s.twin with
    partner := some (twinStOf r.st), partnerFaults := r.faults, partnerHot := r.hot, partnerMargin := marginByte r.margin
    partnerLasting := r.lasting, partnerDevId := r.devId } }
  let s := if s.twin.st ≠ .active then s
    else if r.synced ∧ r.st = 3 then s.gainSync else s.loseSync
  s.twinCheck

/-- HEALTH_REPORT: this part publishes its report, or the partner's arrives. -/
def execHealthReport (dt : Nat) (report : Option HealthIn) (s : State) : Out :=
  let s := s.elapse dt
  if s.tSilent then .next s
  else match report with
    | none =>
      let s := s.judgeSync
      .next { s with twin := { s.twin with healthSent := s.twin.healthSent + 1, healthOut := s.healthBytes } }
    | some r => .next (s.takeHealth r)

/-- An island's self-test on a standby: a cycle is complete when every decode engine and encoder in service has passed. -/
def State.selfTested (s : State) (i : Nat) (passed : Bool) : State :=
  if !passed then
    { s with twin := { s.twin with selfFails := sat 32 (s.twin.selfFails + 1) } }.faultOut 3 i 0 0 0
  else
    let done := if s.twin.tested.contains i then s.twin.tested else i :: s.twin.tested
    let all := (List.range 10).all fun k => (s.island (3 + k)).isolated || done.contains (3 + k)
    { s with twin := { s.twin with
      tested := if all then [] else done, cycles := if all then sat 32 (s.twin.cycles + 1) else s.twin.cycles } }

/-- STANDBY_SELFTEST (R477). -/
def execStandbySelftest (dt island : Nat) (passed : Bool) (s : State) : Out :=
  let s := s.elapse dt
  .next (if s.twin.st ≠ .standby ∨ !s.synced ∨ island < 3 ∨ 12 < island ∨ (s.island island).isolated then s
    else s.selfTested island passed)

/-- STANDBY_PLI_REQUEST: a context that reaches the standby has waited 2 s for a random-access picture, and the active part is asked
for a PLI (R472). -/
def execStandbyPliRequest (dt c : Nat) (s : State) : Out :=
  let s := s.elapse dt
  let x := s.ctx c
  match x.coldWait with
  | some t =>
    if s.twin.st ≠ .standby ∨ s.tSilent ∨ 64 ≤ c ∨ !x.opened ∨ !x.reachesTwin ∨ s.tb.now < t + 2000000000 then .next s
    else
      let s := { s with twin := { s.twin with pliAsked := c :: s.twin.pliAsked } }
      .next (s.modCtx c fun y => { y with coldWait := some s.tb.now })
  | none => .next s

/-! ### TWIN_CONTROL, TWIN_PORT and TWIN_STATE (R478–R480) -/

/-- SWAP: the folio waits until the standby has everything. -/
def bodySwap (c : FCtx) (s : State) : FRes :=
  .checks [(decide (c.u 0x10 1 = 1), .param), (isAdmin c s, .colour), (decide (s.twin.st = .active) && s.synced && s.twin.swap.isNone, .state)] s <|
    .wait .swap { s with twin := { s.twin with swap := some c.slot } }

/-- FORCE: the claim starts, without the test for silence. -/
def bodyForce (c : FCtx) (s : State) : FRes :=
  .checks [(isAdmin c s, .colour), (decide (s.twin.st = .electing), .state), (!s.twin.claimLow, .busy)] s <|
    .ok { s with twin := { s.twin with
      senior := some (s.tb.now + s.seniorNs), checkAt := none, forced := true, forTakeover := false, aloneClaim := false } }

/-- ACTION of the TWIN_CONTROL that a ring has begun. -/
def State.twinAction (s : State) (ring : Nat) : Nat :=
  match (s.cmdQ ring).begun with | some b => b.folio.u 0x10 1 | none => 0

/-- SWAP: TWIN_CONTROL with ACTION 1; an ACTION that is not defined completes here with E_PARAM (R478). -/
def execSwap (dt ring : Nat) (s : State) : Out :=
  let s := s.elapse dt
  .next (if s.twinAction ring = 2 then s else s.runFolio ring 0x0C20 bodySwap)

/-- FORCE: TWIN_CONTROL with ACTION 2 (R478). -/
def execForce (dt ring : Nat) (s : State) : Out :=
  let s := s.elapse dt
  .next (if s.twinAction ring = 2 then s.runFolio ring 0x0C20 bodyForce else s)

/-- What a swap waits for is there: nothing else is begun, and the standby has acknowledged every completion. -/
def State.swapReady (s : State) (slot : Nat) : Bool :=
  (List.range 48).all (fun r => decide (r = slot) || (s.cmdQ r).begun.isNone) && s.host.evtq.all fun q => q.hold.all fun h => !h.comp || decide (h.acks = 0)

/-- The swap's second step: ports muted, CLAIM and ACTIVE_N released, the swap signalled, STANDBY. -/
def State.swapOut (s : State) (slot : Nat) : State :=
  if s.swapReady slot then
    let t := s.enterStandby
    { t with twin := { t.twin with swap := none } }
  else s

/-- TWIN_PORT: the standby's address of a port. -/
def bodyTwinPort (c : FCtx) (s : State) : FRes :=
  let p := c.u 0x10 1
  .checks [(decide (p < 4), .param), (s.mirroring, .state)] s <| .ok (s.modPort p fun x => { x with standbyAddr := c.folio.ip 0x14 })

/-- TWIN_PORT (R479). -/
def execTwinPort (dt ring : Nat) (s : State) : Out := .next ((s.elapse dt).runFolio ring 0x0C21 bodyTwinPort)

/-- Time in sync, ns. -/
def State.syncedFor (s : State) : Nat := s.twin.syncNs + (match s.twin.syncSince with | some t => s.tb.now - t | none => 0)

/-- The block of TWIN_STATE. -/
def State.twinBlock (s : State) : List Byte :=
  let x := s.twin
  layout 256 [(0, leBytes 1 x.st.code), (1, leBytes 1 (match x.partner with | some p => p.code | none => 0xFF)), (2, leBytes 1 s.twinSignals),
    (4, leBytes 2 s.top.faults.toNat), (6, leBytes 2 x.partnerFaults.toNat), (8, leBytes 4 x.decodeDis), (0x0C, leBytes 4 x.cycles),
    (0x10, leBytes 4 x.selfFails), (0x14, leBytes 4 x.disagree), (0x18, leBytes 4 x.takeoverUs), (0x1C, leBytes 4 (sat 32 (s.syncedFor / 1000000000))),
    (0x20, leBytes 1 (wordOf 8 x.partnerHot)), (0x21, leBytes 1 x.partnerMargin), (0x24, leBytes 4 x.unanswered)]

/-- TWIN_STATE. -/
def bodyTwinState (c : FCtx) (s : State) : FRes :=
  .checks (blockChecks c s (c.u 0x12 1) (c.u 0x14 4) 256) s (writeBlock s (c.u 0x12 1) (c.u 0x14 4) s.twinBlock)

/-- TWIN_STATE (R480). -/
def execTwinState (dt ring : Nat) (s : State) : Out := .next ((s.elapse dt).runFolio ring 0x0C22 bodyTwinState)

end Sys2Proof.Machine
end

