-- ==== Sys2Proof/Machine/Mirror.lean ====
section
/-!
DEFINITION. The row of a folio by its opcode, and the mirror of a pair: what the active part waits for, and what its standby does with
each item (10_ordering_recovery.md R363–R365, R368–R370; 13_gathering_twin.md R471, R472, R477–R479).
-/

namespace Sys2Proof.Machine

/-! ### The row of an opcode -/

/-- The state a command's outcome gives. -/
def nextOf (s : State) (o : Out) : State := match o with | .next t => t | _ => s

/-- Answers to a GATHER_SHARE from members that have room and show nothing. -/
def roomyAnswers : ShareAnswers := { shows := 0, noRoom := 0, noRate := 0 }

/-- The rows of streams, time and freshness, 0x0000 to 0x03FF. -/
def rowLow (op ring : Nat) (s : State) : Option Out :=
  match op with
  | 0x0000 => some (execNop 0 ring s)
  | 0x0001 => some (execSync 0 ring s)
  | 0x0010 => some (execWindowMap 0 ring s)
  | 0x0011 => some (execWindowUnmap 0 ring s)
  | 0x0100 => some (execNetPort 0 ring s)
  | 0x0101 => some (execStreamOpen 0 ring s)
  | 0x0102 => some (execStreamClose 0 ring s)
  | 0x0103 => some (execStreamSprop 0 ring s)
  | 0x0104 => some (execStreamState 0 ring s)
  | 0x0110 => some (execTimeConfig 0 ring s)
  | 0x0111 => some (execPtpPort 0 ring s)
  | 0x0112 => some (execTimeState 0 ring s)
  | 0x0113 => some (execTimeWrap 0 ring s)
  | 0x0120 => some (execLaunch 0 ring s)
  | 0x0121 => some (execLaunchCancel 0 ring s)
  | 0x0130 => some (execGenlock 0 ring s)
  | 0x0210 => some (execFreshSource 0 ring s)
  | 0x0211 => some (execFreshLayer 0 ring s)
  | 0x0212 => some (execFreshHead 0 ring s)
  | 0x0213 => some (execFreshState 0 ring s)
  | 0x0300 => some (execDecDeclare 0 ring s)
  | 0x0302 => some (execDecState 0 ring s)
  | _ => none

/-- The rows of layers, flips, plate, heads, ports, encoders and the store, 0x0400 to 0x0AFF. -/
def rowMid (op ring : Nat) (s : State) : Option Out :=
  match op with
  | 0x0400 => some (execLayerSet 0 ring s)
  | 0x0401 => some (execLayerRelease 0 ring s)
  | 0x0402 => some (execColourMatrix 0 ring s)
  | 0x0403 => some (execScalerCoef 0 ring s)
  | 0x0404 => some (execHeadBlend 0 ring s)
  | 0x0405 => some (execLayerState 0 ring s)
  | 0x0600 => some (execFlipBegin 0 ring s)
  | 0x0601 => some (execFlipCommit 0 ring s)
  | 0x0602 => some (execFlipCancel 0 ring s)
  | 0x0610 => some (execPlateUpdate 0 ring s)
  | 0x0611 => some (execPlateState 0 ring s)
  | 0x0620 => some (execPressTouch 0 ring s)
  | 0x0700 => some (execHeadTiming 0 ring s)
  | 0x0701 => some (execHeadStop 0 ring s)
  | 0x0702 => some (execHeadGuests 0 ring s)
  | 0x0703 => some (execHeadState 0 ring s)
  | 0x0710 => some (execPortConfig 0 ring s)
  | 0x0711 => some (execPortSink 0 ring s)
  | 0x0800 => some (execEncOpen 0 ring s)
  | 0x0801 => some (execEncClose 0 ring s)
  | 0x0802 => some (execEncConsume 0 ring s)
  | 0x0803 => some (execEncKey 0 ring s)
  | 0x0804 => some (execEncRate 0 ring s)
  | 0x0805 => some (execEncState 0 ring s)
  | 0x0A00 => some (execStoreTune 0 ring s)
  | 0x0A01 => some (execStoreState 0 ring s)
  | 0x0A02 => some (execStoreWatch 0 ring s)
  | _ => none

/-- The rows of mailboxes, the gathering, the desk, power, lanes, faults, checks and the journal, 0x0B00 and above; those of SEC's own
operations are not among them. -/
def rowHigh (op ring : Nat) (s : State) : Option Out :=
  match op with
  | 0x0B07 => some (execSecWatch 0 ring s)
  | 0x0C00 => some (execMailSend 0 ring s)
  | 0x0C01 => some (execMailTake 0 ring s)
  | 0x0C02 => some (execMailWatch 0 ring s)
  | 0x0C10 => some (execGatherShare 0 ring roomyAnswers s)
  | 0x0C11 => some (execGatherState 0 ring s)
  | 0x0C12 => some (execGatherWatch 0 ring s)
  | 0x0C22 => some (execTwinState 0 ring s)
  | 0x0D00 => some (execTouchPanel 0 ring s)
  | 0x0D01 => some (execTouchRebase 0 ring s)
  | 0x0D02 => some (execTouchState 0 ring s)
  | 0x0D10 => some (execInputConfig 0 ring s)
  | 0x0D11 => some (execInputState 0 ring s)
  | 0x0D20 => some (execOutputSet 0 ring s)
  | 0x0E02 => some (execPowerState 0 ring s)
  | 0x0E03 => some (execMarginState 0 ring s)
  | 0x0E04 => some (execPowerWatch 0 ring s)
  | 0x0F01 => some (execLaneState 0 ring s)
  | 0x0F02 => some (execLaneWatch 0 ring s)
  | 0x1000 => some (execFaultConfig 0 ring s)
  | 0x1001 => some (execFaultState 0 ring s)
  | 0x1002 => some (execFaultWatch 0 ring s)
  | 0x1010 => some (execCvConfig 0 ring s)
  | 0x1011 => some (execCvRun 0 ring s)
  | 0x1012 => some (execCvAttach 0 ring s)
  | 0x1020 => some (execZeRun 0 ring s)
  | 0x1030 => some (execJournalConfig 0 ring s)
  | 0x1036 => some (execJournalState 0 ring s)
  | _ => none

/-- What a place has begun is carried out by the row of its opcode. -/
def State.carryOut (s : State) (ring op : Nat) : State :=
  match rowLow op ring s, rowMid op ring s, rowHigh op ring s with
  | some o, _, _ => nextOf s o
  | none, some o, _ => nextOf s o
  | none, none, some o => nextOf s o
  | none, none, none => s

/-! ### Acknowledgements (R364) -/

/-- An item of the mirror has been taken. -/
def State.tallyMirror (s : State) : State := { s with twin := { s.twin with mirrored := s.twin.mirrored + 1 } }

/-- The first entry of a queue that satisfies a test is changed. -/
def modFirst (p : Held → Bool) (f : Held → Held) : List Held → List Held
  | [] => []
  | h :: l => if p h then f h :: l else h :: modFirst p f l

/-- The standby has acknowledged a folio's mirror: DEVICE_INDEX passes it. -/
def State.ackFolio (s : State) (r : Nat) : State :=
  if (s.cmdQ r).unmirrored = 0 then s
  else ((s.modCmdQ r fun q => { q with unmirrored := q.unmirrored - 1 }).modRing r fun x => { x with deviceIndex := x.deviceIndex + 1 }).tallyMirror

/-- It has acknowledged a folio's effect: the completion record's own mirror follows. -/
def State.ackEffect (s : State) (r : Nat) : State :=
  (s.modEvtQ r fun q => { q with hold := modFirst (fun h => h.comp && decide (h.acks = 2)) (fun h => { h with acks := 1 }) q.hold }).tallyMirror

/-- It has acknowledged a record's mirror: the record may leave its holding queue. -/
def State.ackRecord (s : State) (n : Nat) : State :=
  (s.modEvtQ n fun q => { q with hold := modFirst (fun h => decide (h.acks = 1)) (fun h => { h with acks := 0 }) q.hold }).tallyMirror

/-! ### What a standby keeps (R363, R365) -/

/-- A folio that the active part has fetched. -/
def State.keepFolio (s : State) (r : Nat) (bs : List Byte) : State :=
  let f : Fetched := { folio := { raw := padTo 256 bs }, damaged := false, order := s.host.fetchNo }
  let s := { s with host := { s.host with fetchNo := s.host.fetchNo + 1 } }
  (s.modCmdQ r fun q => { q with fetched := q.fetched ++ [f] }).modRing r fun x => { x with deviceIndex := x.deviceIndex + 1 }

/-- The active part has begun a ring's next folio. -/
def State.keepBegun (s : State) (r : Nat) : State :=
  match (s.cmdQ r).fetched with
  | [] => s
  | f :: rest =>
    let b : Begun := { folio := f.folio, order := f.order, cmdSeq := (s.ring r).seq, wait := .mirrored, origin := none, fwdRing := r }
    (s.modCmdQ r fun q => { q with fetched := rest, begun := some b }).modRing r fun x => { x with seq := x.seq + 1 }

/-- The opcodes whose effect is the pair's and not one part's own: it is applied on the standby as on the active part. Blocks of state,
operations of SEC, clocks, lane tests, and jobs on windows stay with the part that ran them. -/
def pairOps : List Nat :=
  [0x0010, 0x0011, 0x0100, 0x0101, 0x0102, 0x0103, 0x0110, 0x0111, 0x0113, 0x0120, 0x0121, 0x0130, 0x0210, 0x0211, 0x0212, 0x0300,
   0x0400, 0x0401, 0x0402, 0x0403, 0x0404, 0x0600, 0x0601, 0x0602, 0x0620, 0x0700, 0x0701, 0x0702, 0x0710] ++
  [0x0800, 0x0801, 0x0802, 0x0803, 0x0804, 0x0A02, 0x0B07, 0x0C00, 0x0C01, 0x0C02, 0x0C10, 0x0C12, 0x0D01, 0x0D10, 0x0D20,
   0x0E04, 0x0F02, 0x1000, 0x1002, 0x1010, 0x1011, 0x1012, 0x1030]

/-- What a folio's row leaves waiting is done on the standby, since it is done on the active part. -/
def State.settleWait (s : State) (r : Nat) : State :=
  match (s.cmdQ r).begun with
  | none => s
  | some b =>
    match b.wait with
    | .wipe w =>
      let x := s.window w
      let t := s.wipeSpan x.base x.size.toNat
      let t := { t with store := { t.store with regions := t.store.regions.filter fun a => a.base ≠ x.base } }
      t.modWindow w fun _ => Window.reset
    | .mail m => s.modFarBox m fun y => { y with delivered := true }
    | _ => s

/-- The effect of a folio that the active part has completed with E_OK. -/
def State.mirrorEffect (s : State) (r : Nat) (b : Begun) : State :=
  let op := b.folio.opcode
  if op = 0x0D00 then
    let c := s.fctx r b
    s.modPanel (c.u 0x10 1) fun p => p.configure (decide (c.u 0x11 1 = 1)) (panelCfgOf c) c.colour true
  else if !pairOps.contains op then s
  else
    let t := ((s.modCmdQ r fun q => { q with begun := some { b with wait := .run } }).carryOut r op).settleWait r
    { t with host := { t.host with evtq := s.host.evtq } }

/-- A begun folio's effect and completion are mirrored. -/
def State.keepEffect (s : State) (r status : Nat) : State :=
  match (s.cmdQ r).begun with
  | none => s
  | some b =>
    let t := if status = 0 then s.mirrorEffect r b else s
    (t.modCmdQ r fun q => { q with begun := none, lastDone := b.cmdSeq }).drained r

/-- The record that 32 bytes spell. -/
def heldOf (bs : List Byte) : Held :=
  let u (o n : Nat) := leNat (((padTo 32 bs).drop o).take n)
  { Held.of (u 0 2) (u 2 2) (u 8 4) (u 12 2) (u 14 1) (((padTo 32 bs).drop 16).take 16) with
    flags := BitVec.ofNat 8 (u 15 1), comp := decide (u 0 2 = 0), lost := decide (u 0 2 = 0x8001) }

/-- A record that the active part writes, with its ESEQ. -/
def State.keepRecord (s : State) (n : Nat) (bs : List Byte) : State :=
  let e := BitVec.ofNat 32 (leNat ((bs.drop 4).take 4))
  if s.ringNet n then
    s.modChan (s.mapOf n).channel.toNat fun c => { c with
      unacked := c.unacked ++ [{ eseq := e, bytes := padTo 32 bs, sentAt := none }], nextEseq := e + 1 }
  else
    (s.modEvtQ n fun q => { q with acked := q.acked ++ [heldOf bs], mirrorBase := if q.acked = [] then e else q.mirrorBase }).modRing (32 + n)
      fun x => { x with deviceIndex := e + 1 }

/-- A ring register that the host has written on the active part. -/
def State.keepRegister (s : State) (k reg : Nat) (v : BitVec 32) : State :=
  let t := { s with twin := { s.twin with st := .active } }.ringReg k reg v
  { t with twin := { t.twin with st := s.twin.st } }

/-- A doorbell value that the active part has accepted; on an event ring the records it passes are kept no longer (R365). -/
def State.keepDoorbell (s : State) (k : Nat) (index : BitVec 32) : State :=
  let n := k - 32
  if 32 ≤ k ∧ k < 64 then
    if s.ringNet n then
      let lo := s.chan (s.mapOf n).channel.toNat
      let gone : Nat := match lo.unacked with | u :: _ => (index - u.eseq).toNat | [] => 0
      s.modChan (s.mapOf n).channel.toNat fun c => { c with unacked := c.unacked.drop gone }
    else
      (s.modEvtQ n fun q => { q with acked := q.acked.drop (index - q.mirrorBase).toNat, mirrorBase := index }).modRing k
        fun x => { x with hostIndex := index }
  else s.modRing k fun x => { x with hostIndex := index }

/-- A sheet that the active part has accepted: applied where it names this part's plate nonce (R256). -/
def State.keepSheet (s : State) (r : Nat) (bs : List Byte) : State :=
  let p := sheetOf bs
  if s.nonceNamed p then
    let s := s.modPlate p.head fun x => { x.apply p with lastSeq := p.sheetSeq, accepted := sat 32 (x.accepted + 1) }
    s.modCmdQ r fun q => { q with begun := q.begun.map fun b => if b.folio.opcode = 0x0610 then { b with wait := .plateCopy p } else b }
  else s

/-- The outcome of a folio that another member forwarded, or that it has been begun (R370). -/
def State.keepForwarded (s : State) (o : FwdOutcome) : State :=
  let rest := s.gath.outcomes.filter fun x => !(decide (x.origin = o.origin) && decide (x.ring = o.ring) && decide (x.seq = o.seq))
  { s with gath := { s.gath with outcomes := (o :: rest).take 64 } }

/-- A bundle that names this part as the twin is applied under the same checks with WRAP_B (R427). -/
def State.keepBundle (s : State) (colour : Nat) (head : List Byte) (sigOk keyOk : Bool) (items : List Byte) : State :=
  (s.applyBundle colour ((head.drop 0x18).take 16) head sigOk keyOk items).2

/-- The planned swap: this standby pulls CLAIM low at once and acts under R473; the SWAP folio will complete here (R478). -/
def State.keepSwap (s : State) : State :=
  let mark (q : CmdQ) : CmdQ :=
    { q with begun := q.begun.map fun b => if b.folio.opcode = 0x0C20 ∧ b.folio.u 0x10 1 = 1 then { b with wait := .swap } else b }
  let s := { s with host := { s.host with cmdq := s.host.cmdq.map mark }, twin := { s.twin with lostAt := some s.tb.now } }
  s.pullClaim.enterTakeover

/-- Data of a host-fed context that the active part has fetched reaches the standby's context (R471). -/
def State.keepFed (s : State) (k : Nat) (entry bs : List Byte) (ends : Bool) : State :=
  let e := stmEntryOf entry
  match (s.host.stmq.getD k StmQ.reset).ctx with
  | none => s
  | some c =>
    let s := s.modRing (64 + k) fun r => { r with deviceIndex := r.deviceIndex + 1 }
    if (s.ctx c).opened && e.good then s.feedEntry c e (padTo e.len bs) false ends else s

/-- The SIGNATURE of a leaf as the active part has it: a difference is a decode disagreement (R477). -/
def State.compareLeaf (s : State) (c : Nat) (frame : BitVec 32) (leaf : Nat) (sig : BitVec 32) : State :=
  let own := ((s.ctx c).pics.find? fun (p : Picture) => p.frame = some frame).map fun (p : Picture) => p.leaves.getD leaf Leaf.reset
  match own with
  | some l => if l.valid ∧ l.signature ≠ sig then { s with twin := { s.twin with decodeDis := sat 32 (s.twin.decodeDis + 1) } } else s
  | none => s

/-! ### TWIN_MIRROR -/

/-- An item that reaches the active part. -/
def State.mirrorActive (s : State) (i : MirrorIn) : State :=
  match i with
  | .ackFolio r => if s.mirroring then s.ackFolio r else s
  | .ackEffect r => if s.mirroring then s.ackEffect r else s
  | .ackRecord n => if s.mirroring then s.ackRecord n else s
  | .pli c => if (s.ctx c).opened then s.tallyMirror.sendPli c else s
  | _ => s

/-- An item that reaches the standby. -/
def State.mirrorStandby (s : State) (i : MirrorIn) : State :=
  match i with
  | .folio r bs => s.tallyMirror.keepFolio r bs
  | .begun r => s.tallyMirror.keepBegun r
  | .effect r st _ => s.tallyMirror.keepEffect r st
  | .record n bs => s.tallyMirror.keepRecord n bs
  | .register k reg v => s.tallyMirror.keepRegister k reg v
  | .doorbell k index => s.tallyMirror.keepDoorbell k index
  | .plate r bs => s.tallyMirror.keepSheet r bs
  | .attest colour => s.tallyMirror.drawProv colour
  | .bundle colour head sigOk keyOk items => s.tallyMirror.keepBundle colour head sigOk keyOk items
  | .outcome o r q st res => s.tallyMirror.keepForwarded { origin := o, ring := r, seq := q, status := st, result := res, done := true }
  | .forwarded o r q => s.tallyMirror.keepForwarded { origin := o, ring := r, seq := q, status := 16, result := 0, done := false }
  | .fed k entry bs ends => s.tallyMirror.keepFed k entry bs ends
  | .address p a => s.tallyMirror.modPort p fun x => { x with standbyAddr := a }
  | .signature c frame leaf sig => s.tallyMirror.compareLeaf c frame leaf sig
  | .swap => if s.synced then s.tallyMirror.keepSwap else s
  | .ackFolio _ | .ackEffect _ | .ackRecord _ | .pli _ => s

/-- TWIN_MIRROR: an item of the mirror, or its acknowledgement, arrives over link T. -/
def execTwinMirror (dt : Nat) (item : MirrorIn) (s : State) : Out :=
  let s := s.elapse dt
  if s.tSilent then .next s
  else match s.twin.st with
    | .active => .next (s.mirrorActive item)
    | .standby => .next (s.mirrorStandby item)
    | _ => .next s

end Sys2Proof.Machine
end

