-- ==== Sys2Proof/Machine/Forward.lean ====
section
/-!
DEFINITION. Forwarded folios and their replies, and the end of what a folio waits for (09_folios_rings.md R335, R338; 10_ordering_recovery.md
R370; 13_gathering_twin.md R458).
-/

namespace Sys2Proof.Machine

/-! ### Forwarded folios on the target (R335, R370, R458) -/

/-- A forwarded folio, by its origin, ring and SEQUENCE. -/
def FwdOutcome.is (o : FwdOutcome) (origin ring : Nat) (seq : BitVec 32) : Bool :=
  decide (o.origin = origin) && decide (o.ring = ring) && decide (o.seq = seq)

/-- The place that carries a forwarded folio out. -/
def State.fwdPlace (s : State) (origin ring : Nat) (seq : BitVec 32) : Option Nat :=
  (List.range 16).map (· + 32) |>.find? fun k => match (s.cmdQ k).begun with
    | some b => decide (b.origin = some origin) && decide (b.fwdRing = ring) && decide (b.cmdSeq = seq)
    | none => false

/-- The lowest free place. -/
def State.freePlace (s : State) : Option Nat := (List.range 16).map (· + 32) |>.find? fun k => (s.cmdQ k).begun.isNone

/-- What the target itself checks before it carries a forwarded folio out: opcode, life-cycle state and replay mode. -/
def State.targetCheck (s : State) (f : Folio) : Option Status :=
  firstBad [(definedOps.contains f.opcode, .opcode), (opPermitted f.opcode s.lifecycle, .lifecycle), (!s.top.replay, .state)]

/-- A forwarded folio is taken: answered from the record of outcomes, never carried out twice; else begun in a free place. -/
def State.takeForwarded (s : State) (origin ring : Nat) (seq : BitVec 32) (raw : List Byte) : State :=
  match s.gath.outcomes.find? fun o => o.is origin ring seq with
  | some o =>
    if o.done then
      { s with gath := { s.gath with replies := { origin := origin, ring := ring, seq := seq, status := o.status, result := o.result } :: s.gath.replies } }
    else s.keepOutcome origin ring seq Status.resync.code 0
  | none =>
    match s.fwdPlace origin ring seq, s.freePlace with
    | none, some k =>
      let f : Folio := { raw := padTo (max 256 raw.length) raw }
      let b : Begun := { folio := f, order := s.host.fetchNo, cmdSeq := seq, wait := .run, origin := some origin, fwdRing := ring }
      let t := s.modCmdQ k fun q => { q with begun := some b }
      match s.targetCheck f with
      | some st => t.finish k st 0 id
      | none => t
    | _, _ => s

/-- FORWARDED_FOLIO: a folio of another member arrives. -/
def execForwardedFolio (dt origin ring : Nat) (seq : BitVec 32) (folio : List Byte) (s : State) : Out :=
  let s := s.elapse dt
  let here := decide (s.twin.st = .active) && !s.gath.relayOnly && !(s.island islSpine).isolated
  if !s.ringUp || !here || !s.takesFolios || decide (8 ≤ origin) || decide (origin = s.top.gatherId.toNat) || decide (32 ≤ ring) then .next s
  else .next (s.takeForwarded origin ring seq folio)

/-! ### Replies on the origin (R335, R458) -/

/-- The status of a code (R344). -/
def Status.ofCode (n : Nat) : Status :=
  ([.ok, .damaged, .sequence, .opcode, .param, .lifecycle, .unreachable, .colour, .state, .busy, .nospace, .capacity, .linebuf, .signature, .late,
    .dropped, .resync, .fault] : List Status).getD n .fault

/-- An event of a source on another member reaches the ring it names here, with FORWARDED and that member's number. -/
def State.takeFarEvent (s : State) (member : Nat) (bs : List Byte) : State :=
  let h := heldOf bs
  let n := h.ring
  if 32 ≤ n then s
  else
    let s := if (s.evtQ n).tickDue s.tb.dev then s.tick n else s
    s.enqueue n { h with comp := false, lost := false, member := member, flags := h.flags ||| 1 }

/-- FORWARDED_REPLY: events of the member that come before the reply are posted in their order, and the folio completes with the target's
status and RESULT. -/
def execForwardedReply (dt ring member : Nat) (seq : BitVec 32) (status : Nat) (result : BitVec 64) (events : List (List Byte)) (s : State) : Out :=
  let s := s.elapse dt
  if !s.ringUp || decide (s.role = 2) || decide (8 ≤ member) || decide (member = s.top.gatherId.toNat) then .next s
  else
    let s := events.foldl (fun (t : State) e => t.takeFarEvent member e) s
    match (s.cmdQ ring).begun with
    | some b => .next (if b.wait = .forward member ∧ b.cmdSeq = seq then s.finish ring (Status.ofCode status) result.toNat id else s)
    | none => .next s

/-- FORWARD_TIMEOUT: no path to the target has existed for 50 ms; RESULT tells whether the folio had been delivered. -/
def execForwardTimeout (dt ring : Nat) (delivered : Bool) (s : State) : Out :=
  let s := s.elapse dt
  match (s.cmdQ ring).begun with
  | none => .next s
  | some b =>
    match b.wait with
    | .forward m =>
      let gone := !s.reachable m && (match s.gath.noPathSince.getD m none with | some t => decide (t + 50000000 ≤ s.tb.now) | none => false)
      .next (if gone then s.finish ring .unreachable (b2n delivered) id else s)
    | _ => .next s

/-! ### The end of a wait (R338) -/

/-- What a begun folio waits for has ended: the folio resumes or completes. An operation of SEC ends with E_FAULT where SEC is isolated. -/
def State.waitEnds (s : State) (r : Nat) (b : Begun) (o : WaitIn) : State :=
  let secDown := (s.island islSec).isolated
  match b.wait with
  | .plateVerify p => s.sheetVerified r p (decide (o = .done))
  | .plateCopy p => s.copySheet r p
  | .image h => if secDown then (s.abandon r b).finish r .fault 0 id else s.imageStaged r h o
  | .activate => if secDown then (s.abandon r b).finish r .fault 0 id else s.imageLoaded r o
  | .provision h => if secDown then s.finish r .fault 0 id else s.provisioned r h o
  | .ze e => s.zeDone r e o
  | .mail m => s.mailDelivered r m
  | .swap => s.swapOut r
  | .run | .undefinedOp | .sync | .plateFrame _ | .wipe _ | .forward _ | .store _ | .mirrored => s

/-- FOLIO_WAIT_COMPLETE: on a standby, on a ring that awaits its resync doorbell, and while a handover or a CTRL restart runs, nothing
completes. -/
def execFolioWaitComplete (dt ring : Nat) (outcome : WaitIn) (s : State) : Out :=
  let s := s.elapse dt
  match (s.cmdQ ring).begun with
  | some b =>
    .next (if decide (s.role = 2) || (s.cmdQ ring).awaitResync || s.top.handover || s.twin.resyncCause1 then s else (s.waitEnds ring b outcome).causedBy s b.folio.tag)
  | none => .next s

end Sys2Proof.Machine
end

