-- ==== Sys2Proof/Machine/Replay.lean ====
section
/-!
DEFINITION. Replay of an imported journal, entry by entry, and its output (17_faults_replay.md R595–R598).
-/

namespace Sys2Proof.Machine

/-! ### Snapshots (R591) -/

/-- What a snapshot gives the replaying part: units as they were configured and ran, and the contents of the windows of WIN_MASK. -/
structure Snapshot where
  net     : Net
  dec     : Dec
  comp    : Comp
  enc     : Enc
  desk    : Desk
  windows : List (Nat × List Byte)
  deriving DecidableEq, Repr, Inhabited

end Sys2Proof.Machine

namespace Sys2Proof.Config

/-- Free value: what the bytes of a state image say; firmware's own layout, which the spec does not give (R591; log entry 76). -/
opaque snapshotRead : List Byte → Option Machine.Snapshot

end Sys2Proof.Config

namespace Sys2Proof.Machine

/-- A context as a snapshot has it: everything but picture samples (R591). -/
def Context.withoutSamples (x : Context) : Context :=
  { x with pics := x.pics.map fun (p : Picture) => { p with leaves := List.replicate p.leaves.length Leaf.reset } }

/-- The snapshot that replay starts from, or the next after a gap, is loaded (R595, R597); the lines stay as replay mode has them. -/
def State.loadSnapshot (s : State) (e : JEntry) : State :=
  let s : State := { s with jrn := { s.jrn with exact := [], snapWanted := false, loadedAt := e.time } }
  match Config.snapshotRead e.payload with
  | none => s
  | some x =>
    let t : State := { s with
      net := { x.net with sent := s.net.sent }, dec := { x.dec with ctx := x.dec.ctx.map Context.withoutSamples, de := s.dec.de }
      comp := { x.comp with nonce := s.comp.nonce, plate := x.comp.plate.map fun (p : PlateHead) => { p with mem := p.mem.canon } }, enc := { x.enc with ee := s.enc.ee }, desk := x.desk }
    (x.windows.foldl (fun (u : State) w => if (u.window w.1).mapped && decide (w.2.length ≤ (u.window w.1).size.toNat) then u.winWrite w.1 0 w.2 else u) t).replayLines

/-! ### Work carried out aside of the live rings (R596) -/

/-- Replayed work is done at its journal time under the lock state of the journal, and what it posts goes to no live ring. -/
def State.aside (s : State) (time : Nat) (f : State → State) : State :=
  let t := f { s with tb := { s.tb with dev := time, lock := s.jrn.lock } }
  { t with
    tb := { s.tb with freeCtr := t.tb.freeCtr }
    host := { t.host with evtq := s.host.evtq, msix := s.host.msix } }

/-- Number at an offset of a payload. -/
def JEntry.u (e : JEntry) (off n : Nat) : Nat := leNat ((e.payload.drop off).take n)

/-! ### FOLIO and COMPLETION -/

/-- What a waiting folio waits for is there at once: a sheet whose signatures the device accepted, and whatever else had ended. -/
def State.replayWait (s : State) (r : Nat) : State :=
  match (s.cmdQ r).begun with
  | none => s
  | some b =>
    match b.wait with
    | .plateVerify p =>
      let t := s.sheetVerified r p true
      if (t.cmdQ r).begun.isSome then t.copySheet r p else t
    | _ => (s.settleWait r).finish r .ok 0 id

/-- The bytes a folio read from windows stand in them again: the sheet of a PLATE_UPDATE, the coefficients of a SCALER_COEF. -/
def State.putRead (s : State) (f : Folio) (bs : List Byte) : State :=
  if bs.isEmpty then s
  else if f.opcode = 0x0610 ∧ (s.window (f.u 0x10 1)).mapped then s.winWrite (f.u 0x10 1) (f.u 0x14 4) bs
  else if f.opcode = 0x0403 ∧ (s.window (f.u 0x12 1)).mapped then s.winWrite (f.u 0x12 1) (f.u 0x14 4) bs
  else s

/-- A completion in a holding queue: status and RESULT. -/
def Held.outcome (h : Held) : Nat × BitVec 64 := (leNat (h.body.take 2), BitVec.ofNat 64 (leNat ((h.body.drop 8).take 8)))

/-- A journalled folio is carried out on the colour of its recorded ring; its completion is kept until the journal has it. -/
def State.replayFolio (s : State) (e : JEntry) : State :=
  let r := e.src.toNat % 256
  let f : Folio := { raw := padTo 256 (e.payload.take 256) }
  if 32 ≤ r then s
  else
    let old := s.cmdQ r
    let b : Begun := { folio := f, order := 0, cmdSeq := (s.ring r).seq, wait := .run, origin := none, fwdRing := r }
    let run (t : State) : State :=
      let t := (t.putRead f (e.payload.drop 256)).modEvtQ r fun q => { q with hold := [] }
      let t := ((t.modCmdQ r fun q => { q with begun := some b, fetched := [] }).carryOut r f.opcode).replayWait r
      match (t.evtQ r).hold.find? (·.comp) with
      | some h => { t with jrn := { t.jrn with replayed := t.jrn.replayed ++ [(r, h.outcome.1, h.outcome.2)] } }
      | none => t
    (s.aside e.time run).modCmdQ r fun q => { q with begun := old.begun, fetched := old.fetched, lastDone := old.lastDone, awaitResync := old.awaitResync }

/-- An entry of the replay output: the record, its journal TIME and ORIGIN, while OUT_BLOCKS have room. -/
def State.replayOut (s : State) (record : List Byte) (time origin : Nat) : State :=
  let j := s.jrn
  let s := if origin = 2 then { s with jrn := { j with diverged := sat 32 (j.diverged + 1) } } else s
  if 4 * j.outBlocks ≤ j.outNext then s
  else
    let t := s.winWrite j.outWin (j.outOffset + 64 * j.outNext) (padTo 32 record ++ leBytes 8 time ++ leBytes 1 origin ++ List.replicate 23 0)
    { t with jrn := { t.jrn with outNext := j.outNext + 1 } }

/-- A journalled completion beside the one that replay has reproduced: status and RESULT agree (a NOP's RESULT is a time); one of an
operation that replay does not carry out is copied. -/
def State.replayCompletion (s : State) (e : JEntry) : State :=
  let r := e.src.toNat % 256
  let h := heldOf e.payload
  match s.jrn.replayed.find? fun x => x.1 = r with
  | none => s.replayOut e.payload e.time 1
  | some x =>
    let same := decide (x.2.1 = h.outcome.1) && (decide (x.2.2 = h.outcome.2) || decide (leNat ((h.body.drop 2).take 2) = 0))
    ({ s with jrn := { s.jrn with replayed := s.jrn.replayed.erase x } }).replayOut e.payload e.time (if same then 0 else 2)

/-! ### Streams -/

/-- A journalled packet, after SRTP removal: its context takes it without policing. -/
def State.replayPacket (s : State) (e : JEntry) : State :=
  let c := e.src.toNat % 64
  let port := e.src.toNat / 256 % 16
  let f : FrameIn := { port := port, fcsOk := true, bytes := [], authOk := true, plain := e.payload }
  let d : Dgram := { tag := none, srcIp := 0, dstIp := 0, srcUdp := 0, dstUdp := 0, payload := e.payload }
  if !(s.ctx c).opened then s
  else s.aside e.time fun t =>
    if e.src.getLsbD 12 then t.receiveRtcp c f d
    else (t.modCtx c fun x => { x with
      tokens := List.replicate 4 (x.cfg.burst * tokenUnit), tokenAt := List.replicate 4 t.tb.now }).receiveRtp c port f d

/-- The entry of a stream ring that follows in the journal for a context does not go on with the NAL unit under way: it begins an access unit, or with
a start code; so does the end of the journal. -/
def State.fedEnds (s : State) (c : Nat) : Bool :=
  match s.jrn.importEntries.find? fun (e : JEntry) => decide (e.kind = 1) && decide (e.src.toNat % 64 = c) with
  | some e => bitOf (e.u 0 2) 0 || decide (leNat ((e.payload.drop 4).take 3) = 0x010000) || decide (leNat ((e.payload.drop 4).take 4) = 0x01000000)
  | none => true

/-- A journalled entry of a stream ring: its context takes the fetched bytes. -/
def State.replayFed (s : State) (e : JEntry) : State :=
  let c := e.src.toNat % 64
  let bs := e.payload.drop 4
  let entry : StmEntry := { addr := 0, len := bs.length, flags := e.u 0 2, tag := e.u 2 2, good := true }
  if (s.ctx c).opened then s.aside e.time fun t => t.feedEntry c entry bs false (s.fedEnds c) else s

/-! ### FRAME -/

/-- A layer of a FRAME entry: code, SOURCE, FRAME, and its leaves that were NOT_READY or POISONED. -/
structure FrameLayer where
  code   : Nat
  source : BitVec 16
  frame  : BitVec 32
  bad    : List Nat
  deriving DecidableEq, Repr, Inhabited

/-- The layers of a FRAME entry. -/
def JEntry.layers (e : JEntry) : List FrameLayer :=
  (List.range (e.u 9 1)).map fun k =>
    let o := 16 + 32 * k
    { code := e.u o 1, source := BitVec.ofNat 16 (e.u (o + 2) 2), frame := BitVec.ofNat 32 (e.u (o + 4) 4)
      bad := (List.range 136).filter fun i => bitOf (e.u (o + 8) 17) i }

/-- The picture that a layer of a FRAME entry names, on this part. -/
def State.framePic (s : State) (l : FrameLayer) : Option SelPic :=
  let c := l.source.toNat % 64
  let m := l.source.toNat / 8192
  let pics := if m = s.top.gatherId.toNat then (s.ctx c).pics else match s.rxOf m c with | some x => x.pics | none => []
  (pics.find? fun (p : Picture) => p.frame = some l.frame).map fun (p : Picture) =>
    { member := m, context := c, pic := p.id, frame := l.frame, source := l.source, capture := p.capture }

/-- A layer's selection in the frame, and the leaves found NOT_READY or POISONED, are those recorded. -/
def State.imposeLayer (s : State) (h : Nat) (l : FrameLayer) : State :=
  let sel := s.framePic l
  let check (cfg : LayerCfg) (leaf : Nat) : LeafCheck :=
    let c := s.fetchLeaf (s.layer l.code).owner cfg sel leaf
    if l.bad.contains leaf then { c with fetched := false, notReady := true } else c
  let t := (s.head h).set_.timing
  (s.modScan h false l.code fun k => { k with picked := true, sel := sel, checks := (k.shown.needed t).map (check k.shown.cfg) }).modLayer l.code fun y => { y with sel := sel }

/-- A head's graphic layers read only windows that the journal holds. -/
def State.windowsHeld (s : State) (h : Nat) : Bool :=
  (s.head h).on_.all fun k => decide (k.index < 64) || s.jrn.winMask.getLsbD k.cfg.window

/-- A frame is comparable: every context its layers show is exact and decoded here, and its surfaces are in the journal (R597). -/
def State.frameComparable (s : State) (h : Nat) (l : List FrameLayer) : Bool :=
  l.all (fun x => decide (x.source.toNat / 8192 = s.top.gatherId.toNat) && s.jrn.exact.contains (x.source.toNat % 64)) && s.windowsHeld h

/-- A head scans its frame: graphic bands are fetched, and output leaf by output leaf is checked, composed, signed and tapped (R316, R598). -/
def State.scanFrame (s : State) (h : Nat) : State :=
  (List.range (s.head h).set_.timing.leaves).foldl (fun u leaf =>
    let u := ((u.head h).cur.filter fun k => !isVideo k.shown.index).foldl (fun (v : State) k => nextOf v (execBandRequest 0 h k.shown.index leaf true true v)) u
    nextOf u (execLeafScan 0 h leaf u)) s

/-- A journalled frame: the head latches and begins it at the recorded time with the recorded selections, and scans it. A comparable frame whose
FRAME_SIG is not the recorded one has diverged (R596, R597). -/
def State.replayFrame (s : State) (e : JEntry) : State :=
  let h := e.src.toNat % 16
  let t := s.aside e.time fun t =>
    let t := nextOf t (execLatch 0 h t)
    let t := nextOf t (execHeadEpoch 0 h t)
    e.layers.foldl (fun (u : State) l => if l.code < 64 then u.imposeLayer h l else u)
      (t.modHead h fun x => if x.st = .off then x else { x with frame := BitVec.ofNat 32 (e.u 0 4) })
  let t := t.aside e.time fun t => t.scanFrame h
  let diverged := decide (t.role ≠ 2) && decide ((frameSig (t.head h).outSigs).toNat ≠ e.u 4 4)
  if t.frameComparable h e.layers then
    { t with jrn := { t.jrn with comparable := t.jrn.comparable + 1, diverged := if diverged then sat 32 (t.jrn.diverged + 1) else t.jrn.diverged } }
  else t

/-! ### The desk and host writes -/

/-- Signed 16-bit values. -/
def rawValues (bs : List Byte) : List Int := (List.range (bs.length / 2)).map fun i => signedOf 16 (leNat ((bs.drop (2 * i)).take 2))

/-- A journalled touch frame: the panel takes the raw values, its lines undriven. -/
def State.replayTouch (s : State) (e : JEntry) : State :=
  let t := e.src.toNat % 4
  let p := s.panel t
  let raw := rawValues e.payload
  if p.st ≠ .standby then s
  else
    let u := s.aside e.time fun u =>
      let u := u.modPanel t fun p => { p with st := .running }
      if e.src.getLsbD 8 then nextOf u (execSelfFrameEnd 0 t (raw.take p.cfg.rows) (raw.drop p.cfg.rows) u) else nextOf u (execMutualFrameEnd 0 t raw u)
    u.modPanel t fun p => if p.st = .running then { p with st := .standby } else p

/-- Journalled raw levels. -/
def State.replayInput (s : State) (e : JEntry) : State :=
  s.aside e.time fun t => nextOf t (execInputSample 0 (BitVec.ofNat 32 (e.u 0 4)) t)

/-- A journalled host write. -/
def State.replayWrite (s : State) (e : JEntry) : State :=
  let w := e.src.toNat % 8
  if (s.window w).mapped ∧ e.u 0 4 + (e.payload.length - 4) ≤ (s.window w).size.toNat then s.winWrite w (e.u 0 4) (e.payload.drop 4) else s

/-! ### Events, gaps and the end -/

/-- A journalled decision: a packet is declared lost as it was; the others are looked up where they act. -/
def State.replayDecision (s : State) (e : JEntry) : State :=
  let c := e.src.toNat
  let n := e.u 1 4
  let s := { s with jrn := { s.jrn with decisions := e :: s.jrn.decisions } }
  if e.u 0 1 = 0 ∧ (s.ctx c).missing.any fun m => m.eseq = n then
    s.aside e.time fun t => (t.modCtx c fun x => (x.declareLost [n]).passOn t.tb.now).noteSlices c (t.ctx c).ready.length
  else s

/-- A journalled event: stored whole it is copied; of one that replay reproduces the journal holds CODE and ESEQ, and TAG and body are what
replay made of it. -/
def State.replayEvent (s : State) (e : JEntry) (tag : Nat) (body : List Byte) (diverged : Bool) : State :=
  if e.payload.length = 32 then s.replayOut e.payload e.time 1
  else
    let h := Held.of (e.u 0 2) tag e.time (e.src.toNat % 32) s.top.gatherId.toNat body
    s.replayOut (h.bytes (BitVec.ofNat 32 (e.u 2 4))) e.time (if diverged then 2 else 0)

/-- Replay loads the next snapshot after a gap, and counts exactness from it (R597). -/
def State.replayGap (s : State) : State :=
  let next := s.jrn.importEntries.dropWhile fun (e : JEntry) => e.kind ≠ 12
  ({ s with jrn := { s.jrn with importEntries := next, exact := [], snapWanted := true } }).journalEvent 0 0

/-- What one entry of the journal does. -/
def State.replayOne (s : State) (e : JEntry) (tag : Nat) (body : List Byte) (diverged : Bool) : State :=
  match e.kind with
  | 0 => s.replayPacket e
  | 1 => s.replayFed e
  | 2 => s.replayFolio e
  | 3 => s.replayCompletion e
  | 4 => s.replayEvent e tag body diverged
  | 5 => s.replayFrame e
  | 6 => s.replayTouch e
  | 7 => s.replayInput e
  | 8 => s.replayWrite e
  | 9 => { s with jrn := { s.jrn with lock := lockOf (e.u 0 1) } }
  | 11 => s.replayDecision e
  | 12 => if s.jrn.snapWanted then s.loadSnapshot e else s
  | 13 => s.replayGap
  | _ => s

/-- REPLAY_ENTRY: the next entry is carried out. What replay has made of a reproduced event comes with the command (log entry 2). -/
def execReplayEntry (dt tag : Nat) (body : List Byte) (diverged : Bool) (s : State) : Out :=
  let s := s.elapse dt
  match s.jrn.importEntries with
  | [] => .next s
  | e :: rest =>
    if s.jrn.st ≠ .replaying then .next s
    else
      let s := { s with jrn := { s.jrn with importEntries := rest, lastTime := e.time } }
      let s := s.replayOne e tag body diverged
      .next (if s.jrn.importEntries.isEmpty then s.journalEvent 3 0 else s)

end Sys2Proof.Machine
end

