-- ==== Sys2Proof/Machine/Dispatch.lean ====
section
/-!
DEFINITION. What each command does: one arm for each constructor of `Instr`, each a direct call of the command's meaning.
-/

namespace Sys2Proof.Machine

open Sys2Proof

def exec (i : Instr) (s : State) : Host.Outcome State Fault Refusal :=
  match i with
  | .nop dt ring => Sys2Proof.Machine.execNop dt ring s
  | .sync dt ring => Sys2Proof.Machine.execSync dt ring s
  | .windowMap dt ring => Sys2Proof.Machine.execWindowMap dt ring s
  | .windowUnmap dt ring => Sys2Proof.Machine.execWindowUnmap dt ring s
  | .netPort dt ring => Sys2Proof.Machine.execNetPort dt ring s
  | .streamOpen dt ring => Sys2Proof.Machine.execStreamOpen dt ring s
  | .streamClose dt ring => Sys2Proof.Machine.execStreamClose dt ring s
  | .streamSprop dt ring => Sys2Proof.Machine.execStreamSprop dt ring s
  | .streamState dt ring => Sys2Proof.Machine.execStreamState dt ring s
  | .timeConfig dt ring => Sys2Proof.Machine.execTimeConfig dt ring s
  | .timeWrap dt ring => Sys2Proof.Machine.execTimeWrap dt ring s
  | .ptpPort dt ring => Sys2Proof.Machine.execPtpPort dt ring s
  | .timeState dt ring => Sys2Proof.Machine.execTimeState dt ring s
  | .launch dt ring => Sys2Proof.Machine.execLaunch dt ring s
  | .launchCancel dt ring => Sys2Proof.Machine.execLaunchCancel dt ring s
  | .genlock dt ring => Sys2Proof.Machine.execGenlock dt ring s
  | .freshSource dt ring => Sys2Proof.Machine.execFreshSource dt ring s
  | .freshLayer dt ring => Sys2Proof.Machine.execFreshLayer dt ring s
  | .freshHead dt ring => Sys2Proof.Machine.execFreshHead dt ring s
  | .freshState dt ring => Sys2Proof.Machine.execFreshState dt ring s
  | .decDeclare dt ring => Sys2Proof.Machine.execDecDeclare dt ring s
  | .decState dt ring => Sys2Proof.Machine.execDecState dt ring s
  | .layerSet dt ring => Sys2Proof.Machine.execLayerSet dt ring s
  | .layerRelease dt ring => Sys2Proof.Machine.execLayerRelease dt ring s
  | .colourMatrix dt ring => Sys2Proof.Machine.execColourMatrix dt ring s
  | .scalerCoef dt ring => Sys2Proof.Machine.execScalerCoef dt ring s
  | .headBlend dt ring => Sys2Proof.Machine.execHeadBlend dt ring s
  | .layerState dt ring => Sys2Proof.Machine.execLayerState dt ring s
  | .flipBegin dt ring => Sys2Proof.Machine.execFlipBegin dt ring s
  | .flipCommit dt ring => Sys2Proof.Machine.execFlipCommit dt ring s
  | .flipCancel dt ring => Sys2Proof.Machine.execFlipCancel dt ring s
  | .plateUpdate dt ring => Sys2Proof.Machine.execPlateUpdate dt ring s
  | .plateState dt ring => Sys2Proof.Machine.execPlateState dt ring s
  | .pressTouch dt ring => Sys2Proof.Machine.execPressTouch dt ring s
  | .headTiming dt ring => Sys2Proof.Machine.execHeadTiming dt ring s
  | .headStop dt ring => Sys2Proof.Machine.execHeadStop dt ring s
  | .headGuests dt ring => Sys2Proof.Machine.execHeadGuests dt ring s
  | .portConfig dt ring => Sys2Proof.Machine.execPortConfig dt ring s
  | .headState dt ring => Sys2Proof.Machine.execHeadState dt ring s
  | .portSink dt ring => Sys2Proof.Machine.execPortSink dt ring s
  | .encOpen dt ring => Sys2Proof.Machine.execEncOpen dt ring s
  | .encClose dt ring => Sys2Proof.Machine.execEncClose dt ring s
  | .encConsume dt ring => Sys2Proof.Machine.execEncConsume dt ring s
  | .encKey dt ring => Sys2Proof.Machine.execEncKey dt ring s
  | .encRate dt ring => Sys2Proof.Machine.execEncRate dt ring s
  | .encState dt ring => Sys2Proof.Machine.execEncState dt ring s
  | .storeTune dt ring => Sys2Proof.Machine.execStoreTune dt ring s
  | .storeState dt ring => Sys2Proof.Machine.execStoreState dt ring s
  | .storeWatch dt ring => Sys2Proof.Machine.execStoreWatch dt ring s
  | .attest dt ring twin => Sys2Proof.Machine.execAttest dt ring twin s
  | .provision dt ring => Sys2Proof.Machine.execProvision dt ring s
  | .ownerSet dt ring => Sys2Proof.Machine.execOwnerSet dt ring s
  | .lifecycle dt ring sigOk => Sys2Proof.Machine.execLifecycle dt ring sigOk s
  | .imageStage dt ring => Sys2Proof.Machine.execImageStage dt ring s
  | .imageActivate dt ring => Sys2Proof.Machine.execImageActivate dt ring s
  | .imageCommit dt ring => Sys2Proof.Machine.execImageCommit dt ring s
  | .secWatch dt ring => Sys2Proof.Machine.execSecWatch dt ring s
  | .mailSend dt ring => Sys2Proof.Machine.execMailSend dt ring s
  | .mailTake dt ring => Sys2Proof.Machine.execMailTake dt ring s
  | .mailWatch dt ring => Sys2Proof.Machine.execMailWatch dt ring s
  | .gatherShare dt ring answers => Sys2Proof.Machine.execGatherShare dt ring answers s
  | .gatherState dt ring => Sys2Proof.Machine.execGatherState dt ring s
  | .gatherWatch dt ring => Sys2Proof.Machine.execGatherWatch dt ring s
  | .swap dt ring => Sys2Proof.Machine.execSwap dt ring s
  | .force dt ring => Sys2Proof.Machine.execForce dt ring s
  | .twinPort dt ring => Sys2Proof.Machine.execTwinPort dt ring s
  | .twinState dt ring => Sys2Proof.Machine.execTwinState dt ring s
  | .touchPanel dt ring => Sys2Proof.Machine.execTouchPanel dt ring s
  | .touchRebase dt ring => Sys2Proof.Machine.execTouchRebase dt ring s
  | .touchState dt ring => Sys2Proof.Machine.execTouchState dt ring s
  | .inputConfig dt ring => Sys2Proof.Machine.execInputConfig dt ring s
  | .inputState dt ring => Sys2Proof.Machine.execInputState dt ring s
  | .outputSet dt ring => Sys2Proof.Machine.execOutputSet dt ring s
  | .returnA dt ring counts => Sys2Proof.Machine.execReturnA dt ring counts s
  | .clockFuse dt ring => Sys2Proof.Machine.execClockFuse dt ring s
  | .powerState dt ring => Sys2Proof.Machine.execPowerState dt ring s
  | .marginState dt ring => Sys2Proof.Machine.execMarginState dt ring s
  | .powerWatch dt ring => Sys2Proof.Machine.execPowerWatch dt ring s
  | .laneTest dt ring => Sys2Proof.Machine.execLaneTest dt ring s
  | .laneState dt ring => Sys2Proof.Machine.execLaneState dt ring s
  | .laneWatch dt ring => Sys2Proof.Machine.execLaneWatch dt ring s
  | .faultConfig dt ring => Sys2Proof.Machine.execFaultConfig dt ring s
  | .faultState dt ring => Sys2Proof.Machine.execFaultState dt ring s
  | .faultWatch dt ring => Sys2Proof.Machine.execFaultWatch dt ring s
  | .cvConfig dt ring => Sys2Proof.Machine.execCvConfig dt ring s
  | .cvRun dt ring => Sys2Proof.Machine.execCvRun dt ring s
  | .cvAttach dt ring => Sys2Proof.Machine.execCvAttach dt ring s
  | .zeRun dt ring => Sys2Proof.Machine.execZeRun dt ring s
  | .journalConfig dt ring => Sys2Proof.Machine.execJournalConfig dt ring s
  | .journalHold dt ring => Sys2Proof.Machine.execJournalHold dt ring s
  | .journalExport dt ring recipientOk => Sys2Proof.Machine.execJournalExport dt ring recipientOk s
  | .journalImport dt ring sigOk keyOk chunks => Sys2Proof.Machine.execJournalImport dt ring sigOk keyOk chunks s
  | .replayStart dt ring => Sys2Proof.Machine.execReplayStart dt ring s
  | .replayStop dt ring => Sys2Proof.Machine.execReplayStop dt ring s
  | .journalState dt ring => Sys2Proof.Machine.execJournalState dt ring s
  | .undefinedOpcode dt ring => Sys2Proof.Machine.execUndefinedOpcode dt ring s
  | .ringEnable dt k => Sys2Proof.Machine.execRingEnable dt k s
  | .ringDisable dt k => Sys2Proof.Machine.execRingDisable dt k s
  | .doorbell dt k index => Sys2Proof.Machine.execDoorbell dt k index s
  | .resyncDoorbell dt n index => Sys2Proof.Machine.execResyncDoorbell dt n index s
  | .ringLostRead dt n => Sys2Proof.Machine.execRingLostRead dt n s
  | .topChangeWrite dt bits => Sys2Proof.Machine.execTopChangeWrite dt bits s
  | .topHfaultsRead dt => Sys2Proof.Machine.execTopHfaultsRead dt s
  | .timeLoRead dt => Sys2Proof.Machine.execTimeLoRead dt s
  | .interruptSourceWrite dt src value => Sys2Proof.Machine.execInterruptSourceWrite dt src value s
  | .mbTake dt n => Sys2Proof.Machine.execMbTake dt n s
  | .mblClaim dt n a => Sys2Proof.Machine.execMblClaim dt n a s
  | .mblRelease dt n a => Sys2Proof.Machine.execMblRelease dt n a s
  | .mblGo dt n a => Sys2Proof.Machine.execMblGo dt n a s
  | .hostRestart dt => Sys2Proof.Machine.execHostRestart dt s
  | .hostMailService dt n => Sys2Proof.Machine.execHostMailService dt n s
  | .actCommit dt => Sys2Proof.Machine.execActCommit dt s
  | .storeGo dt => Sys2Proof.Machine.execStoreGo dt s
  | .clkForcedWrite dt value => Sys2Proof.Machine.execClkForcedWrite dt value s
  | .laneCounterRead dt q lane counter => Sys2Proof.Machine.execLaneCounterRead dt q lane counter s
  | .laneBitsLoRead dt q lane => Sys2Proof.Machine.execLaneBitsLoRead dt q lane s
  | .registerWrite dt space offset wide value => Sys2Proof.Machine.execRegisterWrite dt space offset wide value s
  | .bar0BadAccess dt offset size write => Sys2Proof.Machine.execBar0BadAccess dt offset size write s
  | .bar2Read dt offset len => Sys2Proof.Machine.execBar2Read dt offset len s
  | .bar2Write dt offset bytes => Sys2Proof.Machine.execBar2Write dt offset bytes s
  | .folioFetch dt ring dma => Sys2Proof.Machine.execFolioFetch dt ring dma s
  | .folioBegin dt => Sys2Proof.Machine.execFolioBegin dt s
  | .stmFetch dt k entry data ends => Sys2Proof.Machine.execStmFetch dt k entry data ends s
  | .eventRecordWrite dt n dmaOk => Sys2Proof.Machine.execEventRecordWrite dt n dmaOk s
  | .moderationTimeout dt n => Sys2Proof.Machine.execModerationTimeout dt n s
  | .evTick dt n => Sys2Proof.Machine.execEvTick dt n s
  | .packetReceive dt frame => Sys2Proof.Machine.execPacketReceive dt frame s
  | .reorderTimeout dt c => Sys2Proof.Machine.execReorderTimeout dt c s
  | .streamSilence dt c => Sys2Proof.Machine.execStreamSilence dt c s
  | .evLoss dt c => Sys2Proof.Machine.execEvLoss dt c s
  | .rrSend dt c => Sys2Proof.Machine.execRrSend dt c s
  | .arpRequest dt port sender target senderMac => Sys2Proof.Machine.execArpRequest dt port sender target senderMac s
  | .igmpQuery dt port version group => Sys2Proof.Machine.execIgmpQuery dt port version group s
  | .linkChange dt port up rateCode => Sys2Proof.Machine.execLinkChange dt port up rateCode s
  | .ptpMessage dt port msg => Sys2Proof.Machine.execPtpMessage dt port msg s
  | .announceTimeout dt => Sys2Proof.Machine.execAnnounceTimeout dt s
  | .holdoverExpiry dt => Sys2Proof.Machine.execHoldoverExpiry dt s
  | .launchRead dt port queue => Sys2Proof.Machine.execLaunchRead dt port queue s
  | .launchDue dt port queue => Sys2Proof.Machine.execLaunchDue dt port queue s
  | .sliceParse dt c hdr => Sys2Proof.Machine.execSliceParse dt c hdr s
  | .jobStart dt e poisoned => Sys2Proof.Machine.execJobStart dt e poisoned s
  | .rowComplete dt e out => Sys2Proof.Machine.execRowComplete dt e out s
  | .leafComplete dt c pic leaf => Sys2Proof.Machine.execLeafComplete dt c pic leaf s
  | .decodeTimeout dt job => Sys2Proof.Machine.execDecodeTimeout dt job s
  | .engineIsolate dt e => Sys2Proof.Machine.execEngineIsolate dt e s
  | .engineReturn dt e passed => Sys2Proof.Machine.execEngineReturn dt e passed s
  | .firRepeat dt c => Sys2Proof.Machine.execFirRepeat dt c s
  | .pickPoint dt h layer => Sys2Proof.Machine.execPickPoint dt h layer s
  | .fetchInstant dt h layer leaf => Sys2Proof.Machine.execFetchInstant dt h layer leaf s
  | .bandRequest dt h layer band delivered good => Sys2Proof.Machine.execBandRequest dt h layer band delivered good s
  | .leafScan dt h leaf => Sys2Proof.Machine.execLeafScan dt h leaf s
  | .outputLeafStart dt h leaf => Sys2Proof.Machine.execOutputLeafStart dt h leaf s
  | .latch dt h => Sys2Proof.Machine.execLatch dt h s
  | .headEpoch dt h => Sys2Proof.Machine.execHeadEpoch dt h s
  | .plateFrameCopy dt h => Sys2Proof.Machine.execPlateFrameCopy dt h s
  | .plateScrub dt => Sys2Proof.Machine.execPlateScrub dt s
  | .genlockPull dt h => Sys2Proof.Machine.execGenlockPull dt h s
  | .planLearned dt h => Sys2Proof.Machine.execPlanLearned dt h s
  | .fencePoll dt ring => Sys2Proof.Machine.execFencePoll dt ring s
  | .flattenDone dt h => Sys2Proof.Machine.execFlattenDone dt h s
  | .flipTimeout dt ring => Sys2Proof.Machine.execFlipTimeout dt ring s
  | .hpdHigh dt p => Sys2Proof.Machine.execHpdHigh dt p s
  | .hpdLow dt p => Sys2Proof.Machine.execHpdLow dt p s
  | .hpdShortPulse dt p linkOk => Sys2Proof.Machine.execHpdShortPulse dt p linkOk s
  | .trainingDone dt p result => Sys2Proof.Machine.execTrainingDone dt p result s
  | .headIsolate dt h passed => Sys2Proof.Machine.execHeadIsolate dt h passed s
  | .rateRowReady dt session row lastRow search => Sys2Proof.Machine.execRateRowReady dt session row lastRow search s
  | .rateRowCoded dt e row => Sys2Proof.Machine.execRateRowCoded dt e row s
  | .pictureCoded dt session => Sys2Proof.Machine.execPictureCoded dt session s
  | .sideRecord dt session => Sys2Proof.Machine.execSideRecord dt session s
  | .encoderIsolate dt e => Sys2Proof.Machine.execEncoderIsolate dt e s
  | .blockArrive dt snd rcv place payload crc => Sys2Proof.Machine.execBlockArrive dt snd rcv place payload crc s
  | .blockAck dt snd rcv place => Sys2Proof.Machine.execBlockAck dt snd rcv place s
  | .islandIsolate dt island => Sys2Proof.Machine.execIslandIsolate dt island s
  | .islandReturn dt island passed => Sys2Proof.Machine.execIslandReturn dt island passed s
  | .storeRequest dt arrive serve => Sys2Proof.Machine.execStoreRequest dt arrive serve s
  | .writeQueueDrain dt c blocks => Sys2Proof.Machine.execWriteQueueDrain dt c blocks s
  | .refreshDue dt c => Sys2Proof.Machine.execRefreshDue dt c s
  | .mr4Read dt c factor tooHot => Sys2Proof.Machine.execMr4Read dt c factor tooHot s
  | .pointSwitch dt target => Sys2Proof.Machine.execPointSwitch dt target s
  | .pointDownTimeout dt => Sys2Proof.Machine.execPointDownTimeout dt s
  | .storeReread dt rcv addr attempt atStore goodAtReceiver => Sys2Proof.Machine.execStoreReread dt rcv addr attempt atStore goodAtReceiver s
  | .bankRowRetire dt c ca => Sys2Proof.Machine.execBankRowRetire dt c ca s
  | .resetWipe dt failed => Sys2Proof.Machine.execResetWipe dt failed s
  | .regionWipeDone dt ring => Sys2Proof.Machine.execRegionWipeDone dt ring s
  | .removalDrain dt colour => Sys2Proof.Machine.execRemovalDrain dt colour s
  | .deviceReset dt burned => Sys2Proof.Machine.execDeviceReset dt burned s
  | .supplyGood dt => Sys2Proof.Machine.execSupplyGood dt s
  | .clockStart dt fosc crystals straps => Sys2Proof.Machine.execClockStart dt fosc crystals straps s
  | .boot dt boot => Sys2Proof.Machine.execBoot dt boot s
  | .perstAssert dt => Sys2Proof.Machine.execPerstAssert dt s
  | .perstRelease dt => Sys2Proof.Machine.execPerstRelease dt s
  | .supplyLow dt rail mv us => Sys2Proof.Machine.execSupplyLow dt rail mv us s
  | .thermalReading dt sensor temp => Sys2Proof.Machine.execThermalReading dt sensor temp s
  | .thermalShutdown dt sensor temp => Sys2Proof.Machine.execThermalShutdown dt sensor temp s
  | .thermalTrip dt sensor temp => Sys2Proof.Machine.execThermalTrip dt sensor temp s
  | .thermalTripRelease dt => Sys2Proof.Machine.execThermalTripRelease dt s
  | .crystalStop dt b => Sys2Proof.Machine.execCrystalStop dt b s
  | .crystalCompare dt abPpm aFromPtp bFromPtp => Sys2Proof.Machine.execCrystalCompare dt abPpm aFromPtp bFromPtp s
  | .forcedSwitch dt island => Sys2Proof.Machine.execForcedSwitch dt island s
  | .vfChange dt island low => Sys2Proof.Machine.execVfChange dt island low s
  | .gateRequest dt island target blockArrives => Sys2Proof.Machine.execGateRequest dt island target blockArrives s
  | .islandWake dt island => Sys2Proof.Machine.execIslandWake dt island s
  | .ageingMeasure dt island pairs slack => Sys2Proof.Machine.execAgeingMeasure dt island pairs slack s
  | .marginRecheck dt island slack => Sys2Proof.Machine.execMarginRecheck dt island slack s
  | .freezeAdaptation dt q lane => Sys2Proof.Machine.execFreezeAdaptation dt q lane s
  | .freezeEnd dt q lane cdrLocked temp => Sys2Proof.Machine.execFreezeEnd dt q lane cdrLocked temp s
  | .cdrLockFail dt q lane => Sys2Proof.Machine.execCdrLockFail dt q lane s
  | .quadPllLoss dt q => Sys2Proof.Machine.execQuadPllLoss dt q s
  | .laneStateChange dt q lane rxDir target => Sys2Proof.Machine.execLaneStateChange dt q lane rxDir target s
  | .testDone dt q lane => Sys2Proof.Machine.execTestDone dt q lane s
  | .counterPoll dt q lane read => Sys2Proof.Machine.execCounterPoll dt q lane read s
  | .faultEvent dt source island unit detail key => Sys2Proof.Machine.execFaultEvent dt source island unit detail key s
  | .faultClear dt source island unit key => Sys2Proof.Machine.execFaultClear dt source island unit key s
  | .handover dt ok => Sys2Proof.Machine.execHandover dt ok s
  | .ctrlRestart dt => Sys2Proof.Machine.execCtrlRestart dt s
  | .hello dt ch hello => Sys2Proof.Machine.execHello dt ch hello s
  | .data dt ch dgram => Sys2Proof.Machine.execData dt ch dgram s
  | .close dt ch counter authOk => Sys2Proof.Machine.execClose dt ch counter authOk s
  | .channelResend dt ch => Sys2Proof.Machine.execChannelResend dt ch s
  | .channelSessionTimeout dt ch => Sys2Proof.Machine.execChannelSessionTimeout dt ch s
  | .channelSessionAge dt ch => Sys2Proof.Machine.execChannelSessionAge dt ch s
  | .linkAuthenticated dt link peer => Sys2Proof.Machine.execLinkAuthenticated dt link peer s
  | .linkHandshakeRetry dt link => Sys2Proof.Machine.execLinkHandshakeRetry dt link s
  | .linkLost dt link => Sys2Proof.Machine.execLinkLost dt link s
  | .memberAnnounce dt member => Sys2Proof.Machine.execMemberAnnounce dt member s
  | .timeFrame dt frame => Sys2Proof.Machine.execTimeFrame dt frame s
  | .timeFrameLoss dt => Sys2Proof.Machine.execTimeFrameLoss dt s
  | .forwardedFolio dt origin ring seq folio => Sys2Proof.Machine.execForwardedFolio dt origin ring seq folio s
  | .forwardTimeout dt ring delivered => Sys2Proof.Machine.execForwardTimeout dt ring delivered s
  | .leafSend dt c pic leaf member acked => Sys2Proof.Machine.execLeafSend dt c pic leaf member acked s
  | .leafReceive dt leaf => Sys2Proof.Machine.execLeafReceive dt leaf s
  | .mailDeliver dt box words owner => Sys2Proof.Machine.execMailDeliver dt box words owner s
  | .mailOutcome dt box read => Sys2Proof.Machine.execMailOutcome dt box read s
  | .hbSilent dt => Sys2Proof.Machine.execHbSilent dt s
  | .claimReleased dt => Sys2Proof.Machine.execClaimReleased dt s
  | .twinWatchdogTrip dt => Sys2Proof.Machine.execTwinWatchdogTrip dt s
  | .seniorDelayEnd dt => Sys2Proof.Machine.execSeniorDelayEnd dt s
  | .claimCheckEnd dt partnerSpoke bothPulled => Sys2Proof.Machine.execClaimCheckEnd dt partnerSpoke bothPulled s
  | .takeover dt => Sys2Proof.Machine.execTakeover dt s
  | .twinYield dt cause => Sys2Proof.Machine.execTwinYield dt cause s
  | .stateSnapshot dt => Sys2Proof.Machine.execStateSnapshot dt s
  | .healthReport dt report => Sys2Proof.Machine.execHealthReport dt report s
  | .standbySelftest dt island passed => Sys2Proof.Machine.execStandbySelftest dt island passed s
  | .twinMirror dt item => Sys2Proof.Machine.execTwinMirror dt item s
  | .standbyPliRequest dt c => Sys2Proof.Machine.execStandbyPliRequest dt c s
  | .scanCycle dt t => Sys2Proof.Machine.execScanCycle dt t s
  | .mutualFrameEnd dt t raw => Sys2Proof.Machine.execMutualFrameEnd dt t raw s
  | .selfFrameEnd dt t drive sense => Sys2Proof.Machine.execSelfFrameEnd dt t drive sense s
  | .noiseListenEnd dt t noise => Sys2Proof.Machine.execNoiseListenEnd dt t noise s
  | .panelStart dt t openDrive openSense noise base => Sys2Proof.Machine.execPanelStart dt t openDrive openSense noise base s
  | .baselineDrift dt t => Sys2Proof.Machine.execBaselineDrift dt t s
  | .inputSample dt levels => Sys2Proof.Machine.execInputSample dt levels s
  | .chatterQuiet dt k => Sys2Proof.Machine.execChatterQuiet dt k s
  | .inputStuck dt k => Sys2Proof.Machine.execInputStuck dt k s
  | .pairDiscrepancy dt k => Sys2Proof.Machine.execPairDiscrepancy dt k s
  | .blinkPhase dt o => Sys2Proof.Machine.execBlinkPhase dt o s
  | .followStaleUpdate dt o => Sys2Proof.Machine.execFollowStaleUpdate dt o s
  | .outputOverload dt o => Sys2Proof.Machine.execOutputOverload dt o s
  | .touchMirror dt given => Sys2Proof.Machine.execTouchMirror dt given s
  | .debugSession dt req => Sys2Proof.Machine.execDebugSession dt req s
  | .entropyFail dt => Sys2Proof.Machine.execEntropyFail dt s
  | .journalEntry dt kind source payload => Sys2Proof.Machine.execJournalEntry dt kind source payload s
  | .journalChunk dt compressed => Sys2Proof.Machine.execJournalChunk dt compressed s
  | .journalSnapshot dt image => Sys2Proof.Machine.execJournalSnapshot dt image s
  | .gapEnd dt => Sys2Proof.Machine.execGapEnd dt s
  | .replayEntry dt tag body diverged => Sys2Proof.Machine.execReplayEntry dt tag body diverged s
  | .folioWaitComplete dt ring outcome => Sys2Proof.Machine.execFolioWaitComplete dt ring outcome s
  | .forwardedReply dt ring member seq status result events => Sys2Proof.Machine.execForwardedReply dt ring member seq status result events s
  | .mailContactTimeout dt ring => Sys2Proof.Machine.execMailContactTimeout dt ring s
  | .claimLow dt => Sys2Proof.Machine.execClaimLow dt s
  | .hbInAlive dt => Sys2Proof.Machine.execHbInAlive dt s
  | .gatheringTable dt table => Sys2Proof.Machine.execGatheringTable dt table s
  | .removalAccessTimeout dt colour => Sys2Proof.Machine.execRemovalAccessTimeout dt colour s
  | .clockJudgeRetry dt fosc crystals straps => Sys2Proof.Machine.execClockJudgeRetry dt fosc crystals straps s
  | .checkerSync dt q lane errors => Sys2Proof.Machine.execCheckerSync dt q lane errors s
  | .functionLevelReset dt => Sys2Proof.Machine.execFunctionLevelReset dt s

end Sys2Proof.Machine
end

