-- ==== Sys2Proof/Safety.lean ====
section
/-!
DEFINITION. What counts as a safe run, what it is for a folio to be in hand and to end, and what a command leaves as it was, in
the terms the statements use.
-/

namespace Sys2Proof.Machine

/-- Every addressed memory of the state is in its canonical form (MEMORY). -/
def State.memOk (s : State) : Bool :=
  s.store.mem.wf && s.host.bus.hostMem.wf && s.fab.sram.wf && s.comp.plate.all fun p => p.mem.wf

/-- A step goes on: it answers a next state. -/
def stepsOn (s : State) : Prop := ∃ t, step s = .next t

/-! ### Frames -/

/-- The parts of the state that a frame names. -/
inductive Part where
  | tb | top | host | net | dec | comp | enc | fab | store | sec | mail | gath | twin | desk | pwr | lanes | flt | svc | jrn
  deriving DecidableEq, Repr, Inhabited

/-- The state without what every folio's end and every posted event may touch: the rings' indices and states, the folios in hand,
the queues of records, the interrupt vectors, the replies and records bound for other members, the islands' power and the
discarded changes of a ring that a SYNC's end disables. -/
def State.bare (s : State) : State :=
  { s with
    host := { s.host with rings := [], cmdq := [], evtq := [], msix := [] }
    gath := { s.gath with outcomes := [], replies := [], fwdEvents := [] }
    fab := { s.fab with isl := [] }
    comp := { s.comp with pend := [] } }

/-- From `s` to `t` every part but those listed is as it was; the rings, folios and records of `State.bare` apart. -/
def State.kept (s t : State) (but : List Part) : Prop :=
  (Part.tb ∉ but → t.tb = s.tb) ∧ (Part.top ∉ but → t.top = s.top) ∧ (Part.host ∉ but → t.bare.host = s.bare.host) ∧
  (Part.net ∉ but → t.net = s.net) ∧ (Part.dec ∉ but → t.dec = s.dec) ∧ (Part.comp ∉ but → t.bare.comp = s.bare.comp) ∧
  (Part.enc ∉ but → t.enc = s.enc) ∧ (Part.fab ∉ but → t.bare.fab = s.bare.fab) ∧ (Part.store ∉ but → t.store = s.store) ∧
  (Part.sec ∉ but → t.sec = s.sec) ∧ (Part.mail ∉ but → t.mail = s.mail) ∧ (Part.gath ∉ but → t.bare.gath = s.bare.gath) ∧
  (Part.twin ∉ but → t.twin = s.twin) ∧ (Part.desk ∉ but → t.desk = s.desk) ∧ (Part.pwr ∉ but → t.pwr = s.pwr) ∧
  (Part.lanes ∉ but → t.lanes = s.lanes) ∧ (Part.flt ∉ but → t.flt = s.flt) ∧ (Part.svc ∉ but → t.svc = s.svc) ∧
  (Part.jrn ∉ but → t.jrn = s.jrn) ∧ t.pending = s.pending

/-! ### Folios in hand -/

/-- The folio that a ring's place has begun has this opcode and no unnamed parameter byte that is not zero, waits for nothing, and the unit it
needs is not isolated. -/
abbrev State.hasFolio (s : State) (slot op : Nat) (b : Begun) : Prop :=
  (s.cmdQ slot).begun = some b ∧ b.wait = .run ∧ b.folio.opcode = op ∧ b.folio.reservedOk = true ∧ ((unitOf op).all fun i => !(s.island i).isolated) = true

/-- The event queue of a ring holds the completion record of a folio with its STATUS and RESULT (R341). -/
def State.answered (s : State) (ring : Nat) (b : Begun) (st : Status) (result : Nat) : Prop :=
  ∃ x ∈ (s.evtQ ring).hold, x.comp = true ∧ x.code = 0 ∧ x.tag = BitVec.ofNat 16 b.folio.tag ∧ x.ring = ring ∧
    x.body = padTo 16 (compBody st b.folio.opcode b.cmdSeq result)

/-- A ring's folio has completed: nothing is begun in its place any more. -/
def State.ended (s : State) (slot : Nat) : Prop := (s.cmdQ slot).begun = none

/-- A completion record is due: the folio is the ring's own, and QUIET does not hold back an E_OK (R333). -/
def Begun.recordDue (b : Begun) (st : Status) : Prop := b.origin = none ∧ (bitOf b.folio.flags 0 = false ∨ st ≠ .ok)

/-- The command goes to a next state in which the folio of the place has completed with this status and RESULT, its record
waiting where one is due; every part but those listed is what time alone makes of it; and `post` holds. -/
def completes (i : Instr) (s : State) (dt slot : Nat) (b : Begun) (st : Status) (result : Nat) (but : List Part) (post : State → Prop) : Prop :=
  ∃ t, exec i s = .next t ∧ t.ended slot ∧ (slot < s.host.evtq.length → b.recordDue st → t.answered slot b st result) ∧
    (s.elapse dt).kept t but ∧ post t

/-- The command goes to a next state in which the folio of the place waits; the parts and `post` as above. -/
def waits (i : Instr) (s : State) (dt slot : Nat) (b : Begun) (w : Wait) (but : List Part) (post : State → Prop) : Prop :=
  ∃ t, exec i s = .next t ∧ (t.cmdQ slot).begun = some { b with wait := w } ∧ (s.elapse dt).kept t but ∧ post t

/-- The command goes to a next state; the parts and `post` as above. -/
def goesTo (i : Instr) (s : State) (dt : Nat) (but : List Part) (post : State → Prop) : Prop :=
  ∃ t, exec i s = .next t ∧ (s.elapse dt).kept t but ∧ post t

/-! ### Words the statements share -/

/-- Of the store, only bytes of a span of whole blocks may differ, and what a write there brings with it: queued requests to those blocks that take
effect first, and check values (R26, R42). -/
def State.writesWithin (s t : State) (a n : Nat) : Prop :=
  { t.store with mem := s.store.mem, ch := s.store.ch, damaged := s.store.damaged } = s.store ∧
    (s.store.mem.wf = true → a % 256 = 0 → n % 256 = 0 → ∀ x, x < a ∨ a + n ≤ x → t.store.mem.read x = s.store.mem.read x)

/-- Two families of units differ at one place at most. -/
def onlyAt {α : Type} (l m : List α) (i : Nat) : Prop := m.length = l.length ∧ ∀ j, j ≠ i → m[j]? = l[j]?

/-- An event ring of this part takes events now: fewer than 32 wait in its queue, and the part is no standby (R342, R472). -/
abbrev State.canPost (s : State) (n : Nat) : Prop :=
  n < 32 ∧ n < s.host.evtq.length ∧ s.twin.st ≠ .standby ∧ ((s.evtQ n).hold.filter fun x => !x.comp && !x.lost).length < 32

/-- Where the ring takes events, an event with this code, tag and body waits in its queue afterwards. -/
def State.reports (s t : State) (n code tag : Nat) (body : List Byte) : Prop :=
  s.canPost n → ∃ x ∈ (t.evtQ n).hold, x.code = code ∧ x.tag = BitVec.ofNat 16 tag ∧ x.comp = false ∧ x.body = padTo 16 body

/-- The blocks that a write of `n` bytes from an address changes in part are good (R27). -/
def State.mergesClean (s : State) (a n : Nat) : Bool :=
  (blocksOf a n).all fun b => !s.store.damagedAt b || (decide (a ≤ b) && decide (b + 256 ≤ a + n))

/-- A block has been written into a window at an offset (R104): where no damaged block is changed in part it stands there; every other byte of the
store is as the requests that came earlier to its blocks leave it (R42), and so as it was outside those blocks. -/
def State.blockWritten (s t : State) (w off : Nat) (block : List Byte) : Prop :=
  let a := (s.window w).base + off
  let n := block.length
  (s.mergesClean a n = true → t.winRead w off n = block) ∧
  (∀ x, x < a ∨ a + n ≤ x → t.store.mem.read x = (s.store.land a n).mem.read x) ∧
  ∀ x, x / 256 < a / 256 ∨ (a + n + 255) / 256 ≤ x / 256 → t.store.mem.read x = s.store.mem.read x

/-- No ring has a flip group queued. -/
abbrev State.noGroups (s : State) : Prop := ∀ q ∈ s.host.cmdq, q.groups = []

/-- What is in force is as it was: every layer's own state, and every head's layers, stacking mode, background and timing. -/
def State.sameShown (s t : State) : Prop :=
  t.comp.layer = s.comp.layer ∧
  t.comp.head.map (fun (x : Head) => (x.on_, x.mode, x.background, x.timing, x.st, x.owner)) =
    s.comp.head.map fun (x : Head) => (x.on_, x.mode, x.background, x.timing, x.st, x.owner)

/-- The body of EV_PORT for a port that enters a state with a cause and a rate (R276). -/
def State.portBody (s : State) (p st cause rate : Nat) : List Byte :=
  let frame (k : Nat) : Nat := match (s.routed p)[k]? with | some h => (s.head h).frame.toNat | none => 0
  leBytes 1 p ++ leBytes 1 st ++ leBytes 1 cause ++ leBytes 1 rate ++ leBytes 2 (bitsOf (s.routed p)) ++ leBytes 2 0 ++ leBytes 4 (frame 0) ++ leBytes 4 (frame 1)

/-- What a ring's folio waits for has come to its end, and the part may go on with it (R338, R360, R362, R366). -/
abbrev State.waitsFor (s : State) (slot : Nat) (b : Begun) (w : Wait) : Prop :=
  (s.cmdQ slot).begun = some b ∧ b.wait = w ∧ s.role ≠ 2 ∧ (s.cmdQ slot).awaitResync = false ∧ s.top.handover = false ∧
    s.twin.resyncCause1 = false

/-- What a folio that completes with E_OK asks of the store's bandwidth stays within the budget of the point in use (R391). -/
def FRes.withinPoint (r : FRes) (s : State) (encode : Bool) : Bool :=
  match r with
  | .done .ok _ t _ => fracLe (fracAdd t.demandRest (fracScale 8 (if encode then t.encodeLoad else s.encodeLoad))) (pointBudget s.store.point)
  | _ => true

/-- A folio that asks for a block of state in a window (R104, R337): E_PARAM where its form is bad, E_COLOUR for a colour that may not
read it or a window that does not serve the colour, else the block is written into the window. -/
def answersBlock (i : Instr) (s : State) (dt ring op : Nat) (b : Begun) (form reader : Bool) (n : Nat) (block : List Byte) (but : List Part) : Prop :=
  s.hasFolio ring op b → s.store.mem.wf = true →
    let c := s.fctx ring b
    let w := c.u 0x12 1
    let off := c.u 0x14 4
    ((form = false ∨ 8 ≤ w ∨ off % 256 ≠ 0) → completes i s dt ring b .param 0 [] fun _ => True) ∧
    (form = true → w < 8 → off % 256 = 0 → (reader = false ∨ s.winOk w c.colour = false ∨ s.winSpan w off n true = false) →
      completes i s dt ring b .colour 0 [] fun _ => True) ∧
    (form = true → w < 8 → off % 256 = 0 → reader = true → s.winOk w c.colour = true → s.winSpan w off n true = true →
      completes i s dt ring b .ok 0 but fun t => s.blockWritten t w off block)

/-- A folio that names an event ring at 0x10 and a MASK at 0x11: E_PARAM out of range, E_COLOUR for a ring of another colour, else the ring's
subscription in the watch list is the MASK, or is ended by a MASK of 0, and no other ring's has changed. -/
def setsWatch (i : Instr) (s : State) (dt ring op : Nat) (b : Begun) (limit : Nat) (list : State → List (Nat × BitVec 8)) (but : List Part) : Prop :=
  s.hasFolio ring op b →
    let c := s.fctx ring b
    let n := c.u 0x10 1
    let mask := c.u 0x11 1
    ((32 ≤ n ∨ limit ≤ mask) → completes i s dt ring b .param 0 [] fun _ => True) ∧
    (n < 32 → mask < limit → evOk c s n = false → completes i s dt ring b .colour 0 [] fun _ => True) ∧
    (n < 32 → mask < limit → evOk c s n = true → completes i s dt ring b .ok 0 but fun t =>
      ∀ x, x ∈ list t ↔ (x ∈ list s ∧ x.1 ≠ c.ev n) ∨ (mask ≠ 0 ∧ x = (c.ev n, BitVec.ofNat 8 mask)))

/-! ### Words of the statements about composition -/

/-- The head whose next frame a PLATE_UPDATE waits for (R258). -/
def Wait.frameHead : Wait → Option Nat
  | .plateFrame p => some p.head
  | _ => none

/-- A pending change gives a head its timing. -/
def Change.retimes (h : Nat) : Change → Bool
  | .timing k _ => k == h
  | _ => false

/-- A pane that is on holds bytes that match its stored check. -/
abbrev State.paneClean (s : State) (h i : Nat) : Prop :=
  ((s.plate h).panes.getD i Pane.reset).enabled = true →
    crc32c ((s.plate h).mem.readN (((s.plate h).panes.getD i Pane.reset).base * 256) ((s.plate h).panes.getD i Pane.reset).bytes)
      = ((s.plate h).panes.getD i Pane.reset).crc

end Sys2Proof.Machine
end

