-- ==== Sys2Proof/Certificates/Slice0/Obligations.lean ====
section
/-!
DEFINITION. The statements for the provers: what each command of the block does to the state, and what it leaves as it was.
-/

open Sys2Proof Sys2Proof.Machine

/-- A step takes the command at the front of the queue and carries it out with the queue's rest. The queue is the model's own (log
entry 1). -/
def Obligations.StepRunsTheFrontCommand : Prop :=
  ∀ (c : Instr) (s : State), step { s with pending := c :: s.pending } = exec c s

/-- Right after reset every addressed memory is in its canonical form. -/
def Obligations.ResetMemoriesAreCanonical : Prop :=
  State.reset.memOk = true ∧ State.reset.store.mem = [] ∧ State.reset.fab.sram = [] ∧ State.reset.host.bus.hostMem = []

/-- From every state whose memories are in canonical form, every command leads to a state whose memories are: addresses strictly
rise and no entry is listed that equals what an unlisted address reads as. -/
def Obligations.StepKeepsMemoriesCanonical : Prop :=
  ∀ s t : State, s.memOk = true → step s = .next t → t.memOk = true

/-- R344, R346. From every state a step leads to a next state: no command faults and none is refused; what cannot be carried out
completes with its status, and what does not apply changes nothing (log entry 3). -/
def Obligations.EveryStepGoesOn : Prop := ∀ s : State, stepsOn s

/-- R25, R28, R29, R30. A copy of a block at its receiver, and the acknowledgement. -/
def Obligations.BlocksCrossInOrder : Prop :=
  (∀ (dt snd rcv place : Nat) (payload : List Byte) (crc : BitVec 32) (s : State), s.endsRun snd rcv = true → place = (s.crossing snd rcv).next → (s.crossing snd rcv).unacked.length < 16 →
    (∀ y ∈ (s.crossing snd rcv).unacked, y.delivered = true ∧ y.place < place) → (s.crossing snd rcv).faults < 2 ^ 32 →
    (payload.length = 256 → crc32c payload = crc →
      goesTo (.blockArrive dt snd rcv place payload crc) s dt [.fab] fun t =>
        (t.crossing snd rcv).consumed = (place, false) :: (s.crossing snd rcv).consumed ∧ (t.crossing snd rcv).next = place + 1 ∧
        (t.crossing snd rcv).faults = (s.crossing snd rcv).faults ∧
        ∃ y, (t.crossing snd rcv).unacked = (s.crossing snd rcv).unacked ++ [y] ∧ y.payload = payload ∧ y.crc = crc ∧ y.poisoned = false) ∧
    (crc32c payload ≠ crc →
      goesTo (.blockArrive dt snd rcv place payload crc) s dt [.fab] fun t =>
        (t.crossing snd rcv).consumed = (s.crossing snd rcv).consumed ∧ (t.crossing snd rcv).faults = (s.crossing snd rcv).faults ∧
        ∃ y, (t.crossing snd rcv).unacked = (s.crossing snd rcv).unacked ++ [y] ∧ y.asks = 1 ∧ y.here = false)) ∧
  (∀ (place : Nat) (payload : List Byte) (crc : BitVec 32) (now : Nat) (x : Crossing) (y : XBlock) (l : List XBlock), x.unacked = y :: l → y.place = place → y.here = false → y.delivered = false → y.asks = 3 → y.poisoned = false → place < x.next →
    (∀ z ∈ l, z.place ≠ place ∧ z.here = false ∧ z.delivered = false) → crc32c payload ≠ crc → x.faults < 2 ^ 32 - 1 → x.poisonedCount < 2 ^ 32 - 1 →
    (x.arrive place payload crc now).consumed = (place, true) :: x.consumed ∧ (x.arrive place payload crc now).faults = x.faults + 1 ∧
    (x.arrive place payload crc now).poisonedCount = x.poisonedCount + 1) ∧
  (∀ (place : Nat) (payload : List Byte) (crc : BitVec 32) (now : Nat) (x : Crossing) (y : XBlock) (l : List XBlock), x.unacked = y :: l → y.here = false → y.delivered = false → y.place ≠ place →
    (x.arrive place payload crc now).consumed = x.consumed) ∧
  (∀ (dt snd rcv place : Nat) (y : XBlock) (l : List XBlock) (s : State), (s.crossing snd rcv).unacked = y :: l →
    (y.place = place → y.delivered = true → goesTo (.blockAck dt snd rcv place) s dt [.fab] fun t =>
      (t.crossing snd rcv).unacked = l ∧ (t.crossing snd rcv).consumed = (s.crossing snd rcv).consumed) ∧
    ((y.place ≠ place ∨ y.delivered = false) → exec (.blockAck dt snd rcv place) s = .next (s.elapse dt)))

/-- R24, R35, R36, R566. Isolation of an island on its own, and its return.
Where the rules leave a case open the clauses follow the choices of the model (log entry 36). -/
def Obligations.IslandsIsolateAndReturn : Prop :=
  (∀ (dt island : Nat) (s : State), island < s.fab.isl.length → island ∈ [1, 3, 4, 5, 6, 7, 8, 9, 10, 13, 32, 33, 34] → (s.island island).isolated = false →
    ∃ t, exec (.islandIsolate dt island) s = .next t ∧ (t.island island).isolated = true ∧ (t.island island).isolatedAt = (s.elapse dt).tb.now ∧
      t.fab.xing = s.fab.xing.map (fun x => x.isolate island) ∧ t.store.mem = s.store.mem) ∧
  (∀ (x : Crossing) (island : Nat), x.unacked ≠ [] →
    (x.snd = island → (x.isolate island).unacked = [] ∧ (x.isolate island).faults = sat 32 (x.faults + 1)) ∧
    (x.snd ≠ island → x.rcv = island → (x.isolate island).unacked = [] ∧
      (x.isolate island).reported = x.reported ++ x.unacked.map (·.place) ∧ (x.isolate island).consumed = x.consumed) ∧
    (x.snd ≠ island → x.rcv ≠ island → x.isolate island = x)) ∧
  (∀ (dt : Nat) (s : State), (s.island 0).isolated = false → ((s.elapse dt).tb.now :: s.flt.restarts).filter (fun a => decide ((s.elapse dt).tb.now ≤ a + 600000000000)) = [(s.elapse dt).tb.now] →
    goesTo (.islandIsolate dt 0) s dt [.flt, .twin, .fab] fun t => t.twin.resyncCause1 = true ∧ (t.island 0).isolated = false ∧
      t.fab.xing = s.fab.xing.map (fun x => x.isolate 0)) ∧
  (∀ (dt island : Nat) (s : State), island < s.fab.isl.length → island ∈ [1, 2, 13, 31, 32, 33, 34] → (s.island island).isolated = true → (s.island island).barred = false →
    ∃ t, exec (.islandReturn dt island true) s = .next t ∧ (t.island island).isolated = false ∧
      ∀ j, j ≠ island → t.island j = s.island j)

/-- R101 to R103, R106, R107, R109, R161, R162. The freshness folios, genlock and plans.
Where the rules leave a case open the clauses follow the choices of the model (log entries 24, 25, 26, 68 and 72). -/
def Obligations.FreshnessGenlockAndPlans : Prop :=
  (∀ (dt ring : Nat) (b : Begun) (s : State), s.hasFolio ring 0x0210 b →
    let c := s.fctx ring b
    let i := c.u 0x10 1
    i < 64 → i < s.dec.ctx.length → c.u 0x11 1 < 2 → c.u 0x12 2 = 0 → c.u 0x14 4 ≤ 20000 → 10000 ≤ c.u 0x18 4 → c.u 0x18 4 ≤ 600000 →
    ((s.ctx i).opened = true → (s.ctx i).owner = c.colour →
      completes (.freshSource dt ring) s dt ring b .ok 0 [.dec] fun t => onlyAt s.dec.ctx t.dec.ctx i ∧ t.dec.de = s.dec.de ∧
        t.ctx i = { s.ctx i with forceArrival := decide (c.u 0x11 1 = 1), allowance := c.u 0x14 4, holdLimit := c.u 0x18 4 }) ∧
    ((s.ctx i).opened = true → (s.ctx i).owner ≠ c.colour → completes (.freshSource dt ring) s dt ring b .colour 0 [] fun _ => True) ∧
    ((s.ctx i).opened = false → completes (.freshSource dt ring) s dt ring b .state 0 [] fun _ => True)) ∧
  (∀ (dt ring : Nat) (b : Begun) (s : State), s.hasFolio ring 0x0211 b → (s.cmdQ ring).groupOpen = none →
    let c := s.fctx ring b
    let i := c.u 0x10 1
    let f := freshCfgOf c
    let old := (s.view none).layer i
    let tm := match old.head with | some h => (s.timings h).getLast? | none => none
    freshRanges c f = true → (f.freezeN = 0 ∨ (f.sizeOk = true ∧ f.inside old.cfg tm = true)) → i < s.comp.layer.length →
    (old.st ≠ .free → old.owner = c.colour → old.st ≠ .held → s.layerReserved i none = false →
      (s.touched old i none ≠ [] → completes (.freshLayer dt ring) s dt ring b .ok 0 [.comp] fun t => s.sameShown t ∧
        ∃ p ∈ t.comp.pend, p.change = .fresh i f ∧ p.heads = s.touched old i none ∧ p.group = none) ∧
      (s.touched old i none = [] → completes (.freshLayer dt ring) s dt ring b .ok 0 [.comp] fun t => (t.layer i).fresh = f ∧
        (t.layer i).cfg = (s.layer i).cfg ∧ onlyAt s.comp.layer t.comp.layer i ∧ t.comp.head = s.comp.head)) ∧
    (old.st ≠ .free → old.owner ≠ c.colour → completes (.freshLayer dt ring) s dt ring b .colour 0 [] fun _ => True) ∧
    (old.st = .free → completes (.freshLayer dt ring) s dt ring b .state 0 [] fun _ => True)) ∧
  (∀ (dt ring : Nat) (b : Begun) (s : State), s.hasFolio ring 0x0130 b →
    let c := s.fctx ring b
    let h := c.u 0x10 1
    let mode := c.u 0x11 1
    h < 16 → h < s.comp.head.length → mode < 3 → c.u 0x12 2 = 0 → c.u 0x1C 4 = 0 → 0 < c.u 0x18 4 →
    c.u 0x20 8 * c.u 0x18 4 < c.u 0x14 4 * 1000000000 →
    ((s.head h).st = .off ∨ within200 (c.u 0x14 4) (c.u 0x18 4) (((s.timings h).getLast?).getD Timing.reset) = true) →
    ((s.head h).owner ≠ some c.colour → completes (.genlock dt ring) s dt ring b .colour 0 [] fun _ => True) ∧
    ((s.head h).owner = some c.colour → (s.head h).stopped = false →
      (mode = 0 → (s.head h).plan.st ≠ .off → completes (.genlock dt ring) s dt ring b .state 0 [] fun _ => True) ∧
      (mode ≠ 0 ∨ (s.head h).plan.st = .off →
        completes (.genlock dt ring) s dt ring b .ok 0 [.comp] fun t => onlyAt s.comp.head t.comp.head h ∧ t.comp.layer = s.comp.layer ∧
          t.head h = { s.head h with
            genlock := { mode := mode, num := c.u 0x14 4, den := c.u 0x18 4, offset := c.u 0x20 8, locked := (s.head h).genlock.locked && decide (mode ≠ 0) }
            trim := if mode = 0 then 0 else (s.head h).trim } ∧
          (mode = 0 → (s.head h).genlock.locked = true → ∀ n, (s.head h).freshRing = some n →
            s.reports t n 0x8210 b.folio.tag (leBytes 1 h ++ leBytes 1 1 ++ leBytes 2 0 ++ leBytes 4 (s.head h).frame.toNat ++ leBytes 8 0))))) ∧
  (∀ (dt h : Nat) (s : State), h < s.comp.head.length → (s.head h).genlock.mode ≠ 0 → (s.head h).st = .running ∨ (s.head h).st = .changing → (s.head h).isolated = false →
    let err := (s.head h).epochError
    let locked := if (s.head h).genlock.locked then decide (err.natAbs ≤ 200) else decide (err.natAbs ≤ 50)
    goesTo (.genlockPull dt h) s dt [.comp, .tb] fun t => onlyAt s.comp.head t.comp.head h ∧ (t.head h).genlock = { (s.head h).genlock with locked := locked } ∧
      (t.head h).trim.natAbs ≤ 200000 ∧ (0 < err → 0 ≤ (t.head h).trim) ∧ (err < 0 → (t.head h).trim ≤ 0) ∧ (err = 0 → (t.head h).trim = 0) ∧
      ((s.head h).jumps err = false → (t.head h).lengthen = 0) ∧ ((s.head h).jumps err = true → (t.head h).trim = 0) ∧
      t.tb = { (s.elapse dt).tb with freeCtr := t.tb.freeCtr } ∧
      (∀ n, locked ≠ (s.head h).genlock.locked → (s.head h).freshRing = some n → s.reports t n 0x8210 0 (leBytes 1 h ++ leBytes 1 1
        ++ leBytes 1 (b2n locked) ++ leBytes 1 0 ++ leBytes 4 (s.head h).frame.toNat ++ leBytes 8 (wordOf 64 (max (-(2 ^ 63)) (min err (2 ^ 63 - 1))))))) ∧
  (∀ (dt ring : Nat) (b : Begun) (s : State), s.hasFolio ring 0x0212 b →
    let c := s.fctx ring b
    let h := c.u 0x10 1
    let size := recordBlocks (s.head h).timing.leaves
    let blocks := c.u 0x20 4
    let off := c.u 0x1C 4
    let log := decide (8 ≤ c.u 0x1B 1)
    h < 16 → h < s.comp.head.length → c.u 0x1A 1 < 32 → c.u 0x1B 1 < 16 → c.u 0x11 1 < 4 → 60 ≤ c.u 0x12 2 → c.u 0x12 2 ≤ 600 →
    (∀ a ∈ anchorsOf c, a < 64) → c.u 0x18 2 ≤ 1000 → off % 256 = 0 → blocks % size = 0 → 2 * size ≤ blocks →
    (s.head h).owner = some c.colour → evOk c s (c.u 0x1A 1) = true →
    (log = true → s.winOk (c.u 0x1B 1 % 8) c.colour = true ∧ s.winSpan (c.u 0x1B 1 % 8) off (blocks * 256) true = true) → (s.head h).stopped = false →
    (c.u 0x11 1 % 2 = 1 →
      ((s.head h).genlock.mode ≠ 0 → (anchorsOf c).all (s.anchorOk h) = true →
        completes (.freshHead dt ring) s dt ring b .ok 0 [.comp] fun t => (t.head h).plan.st = .learning ∧ (t.head h).plan.anchors = anchorsOf c ∧
          (t.head h).plan.learn = c.u 0x12 2 ∧ (t.head h).plan.margin = c.u 0x18 2 ∧ (t.head h).plan.seen = [] ∧ (t.head h).plan.slices = [] ∧
          (t.head h).freshRing = some (c.ev (c.u 0x1A 1)) ∧ (t.head h).log.st = (if log then .logging else .off) ∧ onlyAt s.comp.head t.comp.head h) ∧
      ((s.head h).genlock.mode = 0 ∨ (anchorsOf c).all (s.anchorOk h) = false →
        completes (.freshHead dt ring) s dt ring b .state 0 [] fun _ => True)) ∧
    (c.u 0x11 1 % 2 = 0 → completes (.freshHead dt ring) s dt ring b .ok 0 [.comp] fun t => (t.head h).plan.st = .off ∧ (t.head h).plan.held = false ∧
      (t.head h).freshRing = some (c.ev (c.u 0x1A 1)) ∧ (t.head h).log.st = (if log then .logging else .off) ∧ onlyAt s.comp.head t.comp.head h)) ∧
  (∀ (dt h : Nat) (s : State), h < s.comp.head.length → (s.head h).plan.st = .learning → (s.head h).plan.learned = true →
    let l := s.planSlices h
    let epoch := (l.map (sliceEpoch (s.head h).plan.margin)).foldl max 0
    goesTo (.planLearned dt h) s dt [.comp] fun t => onlyAt s.comp.head t.comp.head h ∧
      ((t.head h).plan.st = .slewing ∨ (t.head h).plan.st = .unplannable) ∧
      ((t.head h).plan.st = .slewing → l ≠ [] ∧ (t.head h).plan.target = epoch.toNat ∧ (t.head h).plan.latency ≤ 3000 ∧
        ∀ x ∈ l, sliceEpoch (s.head h).plan.margin x ≤ (t.head h).plan.target) ∧
      ((t.head h).plan.st = .unplannable → (t.head h).plan.target = (s.head h).plan.target ∧ (t.head h).plan.held = (s.head h).plan.held))

/-- R115, R116, R119, R120, R134. What commands do to an Ethernet port.
Where the rules leave a case open the clauses follow the choices of the model (log entry 13). -/
def Obligations.EthernetPortsFollowTheirCommands : Prop :=
  (∀ (dt ring : Nat) (b : Begun) (s : State), s.hasFolio ring 0x0100 b →
    let c := s.fctx ring b
    let p := c.u 0x10 1
    let mode := c.u 0x11 1
    p < 4 → mode ≤ 4 → 1518 ≤ c.u 0x12 2 → c.u 0x12 2 ≤ 9022 → 8 ≤ c.u 0x18 1 → c.u 0x18 1 ≤ 30 → c.u 0x19 1 = 0 → c.u 0x1A 2 / 2 ^ 12 % 8 = 0 →
    p < s.net.ports.length →
    (c.colour = s.admin → mode = (s.port p).mode →
      completes (.netPort dt ring) s dt ring b .ok 0 [.net] fun t =>
        t.port p = { s.port p with
          maxFrame := c.u 0x12 2, address := c.folio.ip 0x14, plen := c.u 0x18 1, vlan := BitVec.ofNat 16 (c.u 0x1A 2)
          gateway := c.folio.ip 0x1C, ring := some (c.ev c.ring) } ∧ onlyAt s.net.ports t.net.ports p ∧ t.net.sent = s.net.sent) ∧
    (c.colour = s.admin → mode ≠ (s.port p).mode →
      completes (.netPort dt ring) s dt ring b .ok 0 [.net, .tb, .lanes] fun t =>
        (t.port p).mode = mode ∧ (t.port p).link = false ∧ (t.port p).maxFrame = c.u 0x12 2 ∧ onlyAt s.net.ports t.net.ports p) ∧
    (c.colour ≠ s.admin → completes (.netPort dt ring) s dt ring b .colour 0 [] fun _ => True)) ∧
  (∀ (dt p rate : Nat) (up : Bool) (s : State), p < 4 → p < s.net.ports.length → (s.port p).link ≠ up → (up = true → (s.port p).mode ≠ 0) →
    goesTo (.linkChange dt p up rate) s dt [.net, .tb, .lanes, .flt] fun t =>
      t.port p = { s.port p with link := up } ∧ onlyAt s.net.ports t.net.ports p ∧
      ∀ n, (s.port p).ring = some n → s.reports t n 0x8100 0 (leBytes 1 p ++ leBytes 1 (b2n up) ++ leBytes 1 (s.port p).mode)) ∧
  (∀ (dt p : Nat) (sender target : BitVec 32) (mac : BitVec 48) (s : State),
    ((s.port p).link = true → (s.port p).mode ≠ 0 → s.portIp (s.port p) = target → s.top.ready = true → s.top.replay = false →
      goesTo (.arpRequest dt p sender target mac) s dt [.net] fun t => t.net.ports = s.net.ports ∧
        ∃ m, t.net.sent = m :: s.net.sent ∧ m.kind = .arpReply ∧ m.port = p ∧
          m.info = [target.toNat, (s.port p).mac.toNat, sender.toNat, mac.toNat]) ∧
    (s.portIp (s.port p) ≠ target → goesTo (.arpRequest dt p sender target mac) s dt [] fun _ => True)) ∧
  (∀ (dt p version : Nat) (group : BitVec 32) (sources : List (BitVec 32)) (s : State), 2 ≤ version → p < s.net.ports.length → (s.port p).link = true → s.top.ready = true → s.top.replay = false →
    goesTo (.igmpQuery dt p version ⟨group, sources⟩) s dt [.net] fun t =>
      t.port p = { s.port p with igmpV2 := if version = 2 then some (s.elapse dt).tb.now else (s.port p).igmpV2 } ∧
      onlyAt s.net.ports t.net.ports p ∧
      ∀ g ∈ s.memberships p, group = 0 ∨ (g.1 = group ∧ (sources = [] ∨ (asked g sources).2 ≠ [])) → ∃ m ∈ t.net.sent, m.kind = .igmpReport ∧
        m.port = p ∧ m.info.take 2 = [if version = 2 ∨ (s.elapse dt).igmpOld p = true then 2 else 3, g.1.toNat])

/-- R122, R123, R128. Opening, feeding out of band and closing a stream context.
Where the rules leave a case open the clauses follow the choices of the model (log entries 19 and 20). -/
def Obligations.StreamContextsOpenAndClose : Prop :=
  (∀ (dt ring : Nat) (b : Begun) (s : State), s.hasFolio ring 0x0101 b →
    let c := s.fctx ring b
    let i := c.u 0x10 1
    let cfg := openCfg c
    openRanges c = true → profilesMatch ((s.ctx i).openDecl c.colour cfg.hevc).profiles cfg.hevc = true → i < s.dec.ctx.length →
    (s.ctx i).opened = false → evOk c s (c.u 0x23 1) = true → s.slotOk c.colour cfg.srtp cfg.keySlot = true →
    let r := (s.elapse dt).discardKept c
    ((∀ o ∈ s.dec.ctx, o.opened = true → o.cfg.overlaps cfg = false) →
      ((s.dec.ctx.filter (·.opened)).map fun o => o.cfg.maxRate).sum + cfg.maxRate ≤ 8000000 →
      State.groupsFit { r with dec := { r.dec with ctx := r.openList c } } = true →
      (r.admitContext (r.openList c) i false).isSome = true → (bodyStreamOpen c r).withinPoint r true = true →
      completes (.streamOpen dt ring) s dt ring b .ok 0 [.dec, .net, .host, .store] fun t =>
        (t.ctx i).opened = true ∧ (t.ctx i).owner = c.colour ∧
        (t.ctx i).cfg = { cfg with ports := if cfg.hostFed then 0 else cfg.ports } ∧ (t.ctx i).count = CtxCount.reset ∧
        (t.ctx i).frameNext = Context.reset.frameNext ∧ t.store.mem = s.store.mem ∧
        ∀ k, k ≠ i → { t.ctx k with engine := 0 } = { s.ctx k with engine := 0 }) ∧
    (∀ o, o ∈ s.dec.ctx → o.opened = true → o.cfg.overlaps cfg = true →
      completes (.streamOpen dt ring) s dt ring b .busy 0 [.dec] fun t =>
        (t.ctx i).opened = false ∧ (∀ (k : Nat) (d : Decl), (s.ctx i).kept = some (k, d) → (t.ctx i).kept = if k = c.colour then some (k, d) else none) ∧
        onlyAt s.dec.ctx t.dec.ctx i)) ∧
  (∀ (dt ring : Nat) (b : Begun) (s : State), s.hasFolio ring 0x0103 b →
    let c := s.fctx ring b
    let i := c.u 0x10 1
    let n := c.u 0x12 2
    i < 64 → 1 ≤ n → n ≤ 232 → i < s.dec.ctx.length → (s.ctx i).opened = true → (s.ctx i).owner = c.colour →
    completes (.streamSprop dt ring) s dt ring b .ok 0 [.dec] fun t =>
      t.ctx i = (s.ctx i).takeSet (c.folio.bytesAt 0x18 n) ∧ onlyAt s.dec.ctx t.dec.ctx i ∧
      t.dec = { s.dec with ctx := t.dec.ctx }) ∧
  (∀ (dt ring : Nat) (b : Begun) (s : State), s.hasFolio ring 0x0102 b →
    let c := s.fctx ring b
    let i := c.u 0x10 1
    i < 64 → i < s.dec.ctx.length → (s.ctx i).opened = true →
    ((s.ctx i).owner = c.colour →
      completes (.streamClose dt ring) s dt ring b .ok 0 [.dec, .net, .host, .comp] fun t =>
        (t.ctx i).opened = false ∧ (t.ctx i).st = .closed ∧ (t.ctx i).owner = (s.ctx i).owner ∧ (t.ctx i).count = (s.ctx i).count ∧
        (∀ e ∈ t.dec.de, ∀ j ∈ e.jobs, j.ctx = i → j.begun = true) ∧
        ∀ k, k ≠ i → (t.ctx k).opened = (s.ctx k).opened ∧ (t.ctx k).cfg = (s.ctx k).cfg ∧ (t.ctx k).count = (s.ctx k).count) ∧
    ((s.ctx i).owner ≠ c.colour → completes (.streamClose dt ring) s dt ring b .colour 0 [] fun _ => True))

/-- R118, R121, R124 to R126, R129, R130, R136, R138, R139. What a received frame does, and what losses and silence lead to.
Where the rules leave a case open the clauses follow the choices of the model (log entries 2, 19, 66, 70 and 75). -/
def Obligations.PacketsReachTheirContext : Prop :=
  (∀ (dt : Nat) (f : FrameIn) (s : State), f.port < s.net.ports.length → (s.port f.port).link = true → (s.port f.port).mode ≠ 0 → (s.island islNet).isolated = false →
    (f.fcsOk = false → goesTo (.packetReceive dt f) s dt [.net] fun t =>
      t.port f.port = { s.port f.port with drops := (s.port f.port).drops.modify 0 (· + 1) } ∧ onlyAt s.net.ports t.net.ports f.port ∧
      t.net.sent = s.net.sent) ∧
    (∀ d, classify (s.port f.port).maxFrame f.fcsOk f.bytes = .udp d → (s.elapse dt).consumer f.port d = .nobody →
      goesTo (.packetReceive dt f) s dt [.net] fun t =>
        t.port f.port = { s.port f.port with drops := (s.port f.port).drops.modify 5 (· + 1) } ∧ onlyAt s.net.ports t.net.ports f.port ∧
        t.net.sent = s.net.sent)) ∧
  (∀ (dt : Nat) (f : FrameIn) (d : Dgram) (k : Nat) (s : State), (s.port f.port).link = true → (s.port f.port).mode ≠ 0 → (s.island islNet).isolated = false → s.top.replay = false →
    classify (s.port f.port).maxFrame f.fcsOk f.bytes = .udp d → (s.elapse dt).consumer f.port d = .rtp k → k < s.dec.ctx.length →
    let x := s.ctx k
    let e := x.extend (rtpSeq d.payload)
    x.cfg.srtp = 0 →
    (x.credit f.port (s.elapse dt).tb.now < d.payload.length * tokenUnit →
      x.ssrc.isSome = false ∨ x.ssrcOk (rtpSsrc d.payload) = false ∨
        (fb d.payload 0 1 / 64 = 2 ∧ x.fate f.port e (payKind x.cfg.hevc (rtpPayload d.payload)) = .store) →
      goesTo (.packetReceive dt f) s dt [.dec] fun t => (t.ctx k).count.rate = sat 32 (x.count.rate + 1) ∧
        (t.ctx k).intReasons.getLsbD 2 = true ∧ (t.ctx k).pkts = x.pkts ∧ (t.ctx k).ready = x.ready ∧ onlyAt s.dec.ctx t.dec.ctx k) ∧
    (d.payload.length * tokenUnit ≤ x.credit f.port (s.elapse dt).tb.now → fb d.payload 0 1 / 64 = 2 →
      x.ssrcOk (rtpSsrc d.payload) = true → x.ssrc.isSome = true →
      ((∃ y ∈ x.seen, y.1 = e) → x.highest.isSome = true →
        goesTo (.packetReceive dt f) s dt [.dec] fun t => (t.ctx k).count.dup = sat 32 (x.count.dup + 1) ∧
          (t.ctx k).count.received = sat 32 (x.count.received + 1) ∧ (t.ctx k).pkts = x.pkts ∧ (t.ctx k).ready = x.ready ∧
          (t.ctx k).missing = x.missing ∧ onlyAt s.dec.ctx t.dec.ctx k) ∧
      ((∀ y ∈ x.seen, y.1 ≠ e) → x.st ≠ .shed → s.bufUsed k + 256 * ceilDiv d.payload.length 256 ≤ x.cfg.buffer * 1024 → x.pkts = [] → x.lostSeqs = [] →
        (∀ (l : List (List Byte)) (u : List Byte), payKind x.cfg.hevc (rtpPayload d.payload) = .units l → (l.filter fun n => isSlice x.cfg.hevc (nalType x.cfg.hevc n)) = [u] →
          x.missing = [] → x.highest = some (e - 1) → 0 < e → x.passNext = some e →
          goesTo (.packetReceive dt f) s dt [.dec, .comp, .store] fun t =>
            (∃ r q, (t.ctx k).ready = x.ready ++ [r] ∧ r.lostSeq = none ∧ r.completeAt = (s.elapse dt).tb.now ∧ r.nal = u ∧ r.pkts = [q] ∧
              q.bytes = d.payload ∧ (s.store.mem.wf = true → s.mergesClean q.addr (256 * ceilDiv d.payload.length 256) = true →
                t.store.mem.readN q.addr d.payload.length = d.payload)) ∧
            (t.ctx k).highest = some e ∧ (t.ctx k).lastStamp = (s.elapse dt).tb.dev ∧ onlyAt s.dec.ctx t.dec.ctx k) ∧
        (∀ (h ty : Nat) (first_ : Bool), payKind x.cfg.hevc (rtpPayload d.payload) = .piece ty first_ false → x.highest = some h → h + 1 < e →
          x.passNext = some (h + 1) →
          goesTo (.packetReceive dt f) s dt [.dec, .comp, .store] fun t =>
            (∀ n, h < n → n < e → ∃ m ∈ (t.ctx k).missing, m.eseq = n ∧ m.deadline = (s.elapse dt).tb.now + x.cfg.reorder * 1000) ∧
            (∃ q ∈ (t.ctx k).pkts, q.eseq = e ∧ q.bytes = d.payload) ∧ (t.ctx k).ready = x.ready ∧ (t.ctx k).count.lost = x.count.lost ∧
            onlyAt s.dec.ctx t.dec.ctx k)))) ∧
  (∀ (dt k : Nat) (s : State), k < s.dec.ctx.length → s.top.replay = false → (∃ m ∈ (s.ctx k).missing, m.deadline ≤ (s.elapse dt).tb.now) →
    (s.ctx k).count.lost + (s.ctx k).missing.length < 2 ^ 32 →
    goesTo (.reorderTimeout dt k) s dt [.dec, .comp] fun t => (∀ m ∈ (t.ctx k).missing, (s.elapse dt).tb.now < m.deadline) ∧
      (s.ctx k).count.lost < (t.ctx k).count.lost ∧ (t.ctx k).intReasons.getLsbD 0 = true ∧ onlyAt s.dec.ctx t.dec.ctx k) ∧
  (∀ (dt k : Nat) (s : State), k < s.dec.ctx.length → (s.ctx k).opened = true → (s.ctx k).silent = false → (s.elapse dt).since (s.ctx k).lastPkt 1000000000 = true →
    goesTo (.streamSilence dt k) s dt [.dec] fun t => t.ctx k = { s.ctx k with silent := true } ∧ onlyAt s.dec.ctx t.dec.ctx k ∧
      s.reports t (s.ctx k).cfg.ring 0x8101 0 (leBytes 1 k ++ leBytes 1 3 ++ leBytes 1 0 ++ leBytes 1 0
        ++ leBytes 4 (match (s.ctx k).ssrc with | some v => v.toNat | none => 0))) ∧
  (∀ (dt k : Nat) (s : State), k < s.dec.ctx.length → (s.ctx k).opened = true → (s.ctx k).intReasons ≠ 0 → (s.elapse dt).since (s.ctx k).lossAt 1000000000 = true →
    goesTo (.evLoss dt k) s dt [.dec] fun t =>
      t.ctx k = { s.ctx k with intReasons := 0, intLost := 0, intFirst := 0, intDropped := 0, lossAt := some (s.elapse dt).tb.now } ∧
      onlyAt s.dec.ctx t.dec.ctx k ∧
      s.reports t (s.ctx k).cfg.ring 0x8102 0 (leBytes 1 k ++ leBytes 1 (s.ctx k).intReasons.toNat ++ leBytes 2 0 ++ leBytes 4 (s.ctx k).intLost
        ++ leBytes 4 (s.ctx k).intFirst ++ leBytes 4 (s.ctx k).intDropped)) ∧
  (∀ (dt k ip udp : Nat) (s : State), k < s.dec.ctx.length →
    let x := s.ctx k
    let p := s.rtcpPort k
    let own := (s.portIp (s.port p)).toNat
    x.opened = true → x.cfg.sendRr = true → x.cfg.hostFed = false → x.srPeer = some (ip, udp) → s.top.replay = false → s.role ≠ 2 →
    x.rrAt + x.cfg.rrInterval * 1000000000 ≤ (s.elapse dt).tb.now →
    goesTo (.rrSend dt k) s dt [.dec, .net] fun t =>
      t.ctx k = { x with rrAt := (s.elapse dt).tb.now, rrPrior := x.reported, srtcpIndex := if x.cfg.srtp = 0 then 0 else (x.srtcpIndex + 1) % 2 ^ 31 } ∧
      onlyAt s.dec.ctx t.dec.ctx k ∧
      ((s.port p).hopTo own ip = none → t.net = s.net) ∧
      (∀ (hop : Nat) (w : Nat × BitVec 48), (s.port p).hopTo own ip = some hop → (s.port p).arp.find? (fun q => decide (q.1 = hop)) = some w → t.net.ports = s.net.ports ∧
        ∃ m, t.net.sent = m :: s.net.sent ∧ m.kind = .rr ∧ m.port = p ∧ m.hop = some w ∧ m.info.take 3 = [k, ip, udp] ∧
          (m.info.drop 4).take 4 = [x.fraction, x.count.lost, x.highest.getD 0, x.jitter16 / 16]) ∧
      (∀ hop, p < s.net.ports.length → (s.port p).hopTo own ip = some hop → (s.port p).arp.find? (fun q => decide (q.1 = hop)) = none →
        (∃ m, t.net.sent = m :: s.net.sent ∧ m.kind = .arpRequest ∧ m.port = p ∧ m.info.head? = some hop) ∧
        ∃ m ∈ (t.port p).waiting, m.kind = .rr ∧ m.info.take 3 = [k, ip, udp]))

/-- R116, R143, R145 to R150, R154. The servo's folios, and what PTP messages and their absence do to device time.
Where the rules leave a case open the clauses follow the choices of the model (log entries 2 and 12). -/
def Obligations.DeviceTimeFollowsTheGrandmaster : Prop :=
  (∀ (dt ring : Nat) (b : Begun) (s : State), s.hasFolio ring 0x0110 b →
    let c := s.fctx ring b
    let u := c.u
    u 0x10 1 < 128 → u 0x11 1 < 32 → u 0x12 2 = 0 → 1000 ≤ u 0x14 4 → u 0x14 4 ≤ 1000000000 → 20 ≤ u 0x18 4 → u 0x18 4 ≤ 10000 → 1 ≤ u 0x1C 4 →
    u 0x1C 4 ≤ 86400 →
    (c.colour = s.admin → evOk c s (u 0x11 1) = true → u 0x10 1 = s.tb.domain →
      completes (.timeConfig dt ring) s dt ring b .ok 0 [.tb] fun t =>
        t.tb = { (s.elapse dt).tb with ring := some (c.ev (u 0x11 1)), stepLimit := u 0x14 4, lockLimit := u 0x18 4, holdMax := u 0x1C 4 } ∧
        ∀ n, n < s.host.evtq.length → (t.evtQ n).extend = bitOf (u 0x20 4) n) ∧
    (c.colour = s.admin → evOk c s (u 0x11 1) = true → u 0x10 1 ≠ s.tb.domain → s.tb.lock = .locked →
      completes (.timeConfig dt ring) s dt ring b .ok 0 [.tb] fun t =>
        t.tb.domain = u 0x10 1 ∧ t.tb.lock = .holdover ∧ t.tb.slavePort = none ∧ t.tb.dev = (s.elapse dt).tb.dev ∧
        ∀ p, p < 4 → (s.ptp p).enable = true → (t.ptp p).portState = 4) ∧
    (c.colour ≠ s.admin → completes (.timeConfig dt ring) s dt ring b .colour 0 [] fun _ => True)) ∧
  (∀ (dt ring : Nat) (b : Begun) (s : State), s.hasFolio ring 0x0113 b →
    let c := s.fctx ring b
    let n := c.u 0x10 1
    let m := c.u 0x11 1
    n < 32 → m < 2 → n < s.host.evtq.length →
    (s.ringColour n = c.colour → completes (.timeWrap dt ring) s dt ring b .ok 0 [] fun t =>
      (t.evtQ n).extend = decide (m = 1) ∧ ∀ k, k ≠ n → (t.evtQ k).extend = (s.evtQ k).extend) ∧
    (s.ringColour n ≠ c.colour → completes (.timeWrap dt ring) s dt ring b .colour 0 [] fun t =>
      ∀ k, (t.evtQ k).extend = (s.evtQ k).extend)) ∧
  (∀ (dt ring : Nat) (b : Begun) (s : State), s.hasFolio ring 0x0111 b →
    let c := s.fctx ring b
    let p := c.u 0x10 1
    p < 4 → p < s.tb.ptp.length → c.u 0x11 1 < 8 → c.u 0x12 2 = 0 → (c.i 0x14 4).natAbs ≤ 1000000 → (c.i 0x18 4).natAbs ≤ 1000000 →
    (c.i 0x1C 4).natAbs ≤ 10000000 → c.colour = s.admin → bitOf (c.u 0x11 1) 0 = true →
    completes (.ptpPort dt ring) s dt ring b .ok 0 [.tb] fun t =>
      (t.ptp p).enable = true ∧ (t.ptp p).p2p = bitOf (c.u 0x11 1) 1 ∧ (t.ptp p).l2 = bitOf (c.u 0x11 1) 2 ∧
      (t.ptp p).ingressExtra = c.i 0x14 4 ∧ (t.ptp p).egressExtra = c.i 0x18 4 ∧ (t.ptp p).asymmetry = c.i 0x1C 4 ∧
      (t.ptp p).portState = (if (s.ptp p).enable then (s.ptp p).portState else 4) ∧ onlyAt s.tb.ptp t.tb.ptp p) ∧
  (∀ (dt p domain : Nat) (gm : BitVec 64) (origin : Nat) (fa : Int) (s : State), s.runsPtp = true → (s.ptp p).enable = true → (s.port p).link = true → (s.port p).mode ≠ 0 →
    domain = s.tb.domain → s.tb.slavePort = some p → gm = s.tb.gm → s.tb.acquired = true →
    let off : Int := (s.elapse dt).ptpStamp p - (origin : Int) - (((s.ptp p).meanPath : Int) + (s.ptp p).asymmetry / 1000)
    (s.tb.lock = .locked → off.natAbs ≤ s.tb.stepLimit → off.natAbs ≤ 4 * s.tb.lockLimit →
      goesTo (.ptpMessage dt p (.sync domain gm origin fa)) s dt [.tb, .net] fun t => t.tb.lock = .locked ∧ t.tb.dev = (s.elapse dt).tb.dev ∧
        t.tb.steps = s.tb.steps ∧ t.tb.offset = off ∧ t.tb.freqAdj = max (-100000) (min fa 100000) ∧ t.net.ports = s.net.ports ∧
        ∃ m, t.net.sent = m :: s.net.sent ∧ m.port = p ∧ m.kind = (if (s.ptp p).p2p then .pdelayReq else .delayReq)) ∧
    (s.tb.lock = .acquiring → off.natAbs ≤ s.tb.stepLimit → off.natAbs ≤ s.tb.lockLimit → s.tb.okSyncs = 15 →
      goesTo (.ptpMessage dt p (.sync domain gm origin fa)) s dt [.tb, .net] fun t => t.tb.lock = .locked ∧ t.tb.wasLocked = true ∧
        t.tb.dev = (s.elapse dt).tb.dev) ∧
    (s.tb.lock = .locked → s.tb.stepLimit < off.natAbs →
      goesTo (.ptpMessage dt p (.sync domain gm origin fa)) s dt [.tb, .net] fun t => t.tb.lock = .acquiring ∧
        t.tb.dev = ((s.elapse dt).tb.dev - off).toNat ∧ t.tb.steps = s.tb.steps + 1 ∧
        ((s.ptp p).portState = 9 → ∀ n, s.tb.ring = some n → s.reports t n 0x8110 0 (leBytes 1 1 ++ leBytes 1 2 ++ leBytes 1 p ++ leBytes 1 0
          ++ leBytes 4 (wordOf 32 (sat32 off)) ++ leBytes 8 (wordOf 64 (-off)))))) ∧
  (∀ (dt p domain utc : Nat) (gm : BitVec 64) (dataset : List Nat) (iv : Int) (s : State), p < 4 → p < s.tb.ptp.length → (s.ptp p).enable = true → (s.port p).link = true → (s.port p).mode ≠ 0 →
    domain = s.tb.domain → 0 < (s.ptp p).receiptTimeout * announceNs iv →
    (s.runsPtp = true → (∀ k, k < s.tb.ptp.length → k ≠ p → (s.ptp k).qualified (s.elapse dt).tb.now = false) →
      goesTo (.ptpMessage dt p (.announce domain gm dataset iv utc true)) s dt [.tb] fun t =>
        t.tb.slavePort = some p ∧ t.tb.gm = gm ∧ t.tb.utcOffset = utc ∧ t.tb.dev = (s.elapse dt).tb.dev) ∧
    (s.runsPtp = false → goesTo (.ptpMessage dt p (.announce domain gm dataset iv utc true)) s dt [] fun _ => True)) ∧
  (∀ (dt p t0 : Nat) (s : State), s.tb.slavePort = some p → (s.ptp p).announceAt = some t0 →
    t0 + (s.ptp p).receiptTimeout * announceNs (s.ptp p).announceLog ≤ (s.elapse dt).tb.now → (∀ k, k < s.tb.ptp.length → k ≠ p → (s.ptp k).qualified (s.elapse dt).tb.now = false) →
    s.tb.lock = .locked →
    goesTo (.announceTimeout dt) s dt [.tb] fun t => t.tb.lock = .holdover ∧ t.tb.slavePort = none ∧ t.tb.holdSince = (s.elapse dt).tb.now) ∧
  (∀ (dt : Nat) (s : State), s.tb.lock = .holdover → s.tb.holdSince + s.tb.holdMax * 1000000000 ≤ (s.elapse dt).tb.now →
    goesTo (.holdoverExpiry dt) s dt [.tb] fun t => t.tb.lock = .freerun ∧ t.tb.wasLocked = false ∧ t.tb.dev = (s.elapse dt).tb.dev)

/-- R157 to R160. The way of a time-triggered frame.
Where the rules leave a case open the clauses follow the choices of the model (log entries 23 and 71). -/
def Obligations.LaunchesGoOutAtTheirTime : Prop :=
  (∀ (dt ring : Nat) (b : Begun) (s : State), s.hasFolio ring 0x0120 b →
    let c := s.fctx ring b
    let u := c.u
    let p := u 0x10 1
    let q := u 0x11 1
    let d := shortDiff (u 0x1C 4) (s.elapse dt).tb.dev
    p < 4 → q < 8 → u 0x12 1 < 2 → u 0x13 1 < 8 → u 0x14 4 % 256 = 0 → 60 ≤ u 0x18 2 → u 0x18 2 + 4 ≤ max (s.port p).maxFrame 64 → u 0x1A 2 = 0 →
    (bitOf (u 0x12 1) 0 = true → 100000 ≤ u 0x20 4 ∧ u 0x20 4 ≤ 1000000000) → d ≤ 2000000000 → s.winOk (u 0x13 1) c.colour = true →
    s.winSpan (u 0x13 1) (u 0x14 4) (u 0x18 2) false = true → (s.port p).mode ≠ 0 → p < s.net.ports.length → q < (s.port p).queues.length →
    ((s.queue p q).length < 64 → 50000 ≤ d →
      completes (.launch dt ring) s dt ring b .ok 0 [.net] fun t =>
        (∃ e, t.queue p q = s.queue p q ++ [e] ∧ e.tag = BitVec.ofNat 16 c.tag ∧ (e.due : Int) = (s.elapse dt).tb.dev + d ∧
          e.length = u 0x18 2 ∧ e.window = u 0x13 1 ∧ e.offset = u 0x14 4 ∧ e.periodic = bitOf (u 0x12 1) 0 ∧ e.frame = none ∧
          ∀ x ∈ s.queue p q, x.order < e.order) ∧
        onlyAt s.net.ports t.net.ports p ∧ onlyAt (s.port p).queues (t.port p).queues q ∧ t.net.sent = s.net.sent) ∧
    ((s.queue p q).length < 64 → d < 50000 → completes (.launch dt ring) s dt ring b .late 0 [] fun _ => True) ∧
    (64 ≤ (s.queue p q).length → completes (.launch dt ring) s dt ring b .nospace 0 [] fun _ => True)) ∧
  (∀ (dt ring : Nat) (b : Begun) (s : State), s.hasFolio ring 0x0121 b →
    let c := s.fctx ring b
    let p := c.u 0x10 1
    let q := c.u 0x11 1
    p < 4 → q < 8 → p < s.net.ports.length → q < (s.port p).queues.length →
    (∃ e ∈ s.queue p q, e.tag.toNat = c.u 0x12 2 ∧ e.colour = c.colour) →
    completes (.launchCancel dt ring) s dt ring b .ok 0 [.net] fun t =>
      (∀ e, e ∈ t.queue p q ↔ e ∈ s.queue p q ∧ ¬ (e.tag.toNat = c.u 0x12 2 ∧ e.colour = c.colour)) ∧
      onlyAt s.net.ports t.net.ports p ∧ onlyAt (s.port p).queues (t.port p).queues q ∧ t.net.sent = s.net.sent) ∧
  (∀ (dt p q : Nat) (e : LaunchEntry) (s : State), p < s.net.ports.length → q < (s.port p).queues.length → nextLaunch (s.queue p q) = some e → e.frame = none → e.bad = false →
    e.due ≤ (s.elapse dt).tb.dev + 20000 → (s.island islNet).isolated = false → s.top.replay = false → s.role ≠ 2 →
    (s.port p).cv.getD q none = none → s.winSpan e.window e.offset e.length false = true → s.winDamaged e.window e.offset e.length = false →
    goesTo (.launchRead dt p q) s dt [.net] fun t =>
      t.queue p q = (s.queue p q).map (fun x => if x.order = e.order then { x with frame := some (s.winRead e.window e.offset e.length) } else x) ∧
      onlyAt s.net.ports t.net.ports p ∧ t.net.sent = s.net.sent) ∧
  (∀ (dt p q : Nat) (e : LaunchEntry) (s : State), p < s.net.ports.length → q < (s.port p).queues.length → nextLaunch (s.queue p q) = some e → e.due ≤ (s.elapse dt).tb.dev →
    (∀ k, k < q → s.queue p k = []) → (s.island islNet).isolated = false → s.top.replay = false → s.role ≠ 2 → e.stepped = false →
    e.periodic = false → e.count = 1 → e.index = 0 →
    (∀ bytes, (s.port p).link = true → e.bad = false → e.frame = some bytes → (s.port p).busyUntil ≤ e.due →
      goesTo (.launchDue dt p q) s dt [.net] fun t =>
        (∃ m, t.net.sent = m :: s.net.sent ∧ m.kind = .launch ∧ m.port = p ∧ m.info = [q, 0, e.due] ∧ m.bytes = bytes) ∧
        t.queue p q = (s.queue p q).filter (fun x => decide (x.order ≠ e.order)) ∧
        (t.port p).busyUntil = e.due + frameNs (s.port p).mode e.length ∧
        s.reports t e.cmdRing 0x8120 e.tag.toNat (leBytes 1 p ++ leBytes 1 q ++ leBytes 2 Status.ok.code ++ leBytes 4 0 ++ leBytes 8 e.due)) ∧
    ((s.port p).link = false →
      goesTo (.launchDue dt p q) s dt [.net] fun t => t.net.sent = s.net.sent ∧
        t.queue p q = (s.queue p q).filter (fun x => decide (x.order ≠ e.order)) ∧
        s.reports t e.cmdRing 0x8120 e.tag.toNat (leBytes 1 p ++ leBytes 1 q ++ leBytes 2 Status.dropped.code ++ leBytes 4 0 ++ leBytes 8 0)))

/-- R164, R167 to R169, R177, R188, R195. From a declaration to the decode jobs of a picture.
Where the rules leave a case open the clauses follow the choices of the model (log entries 2, 21, 22, 73, 74 and 75). -/
def Obligations.DeclarationsAndSliceHeaders : Prop :=
  (∀ (dt ring : Nat) (b : Begun) (s : State), s.hasFolio ring 0x0300 b →
    let c := s.fctx ring b
    let i := c.u 0x10 1
    declRanges c = true → i < s.dec.ctx.length → (bodyDecDeclare c (s.elapse dt)).withinPoint (s.elapse dt) true →
    ((s.ctx i).opened = false → s.declChargesOk i (declOf c) = true →
      completes (.decDeclare dt ring) s dt ring b .ok 0 [.dec, .store] fun t =>
        t.ctx i = { s.ctx i with kept := some (c.colour, declOf c) } ∧ onlyAt s.dec.ctx t.dec.ctx i ∧ t.dec = { s.dec with ctx := t.dec.ctx } ∧
        t.store.mem = s.store.mem) ∧
    ((s.ctx i).opened = true → (s.ctx i).st ≠ .shed → profilesMatch (declOf c).profiles (s.ctx i).cfg.hevc = true → (s.ctx i).owner = c.colour →
      let l := s.dec.ctx.modify i fun x => { x with next := some (declOf c) }
      ((s.admitContext l i true).isSome = true → s.declChargesOk i (declOf c) = true →
        completes (.decDeclare dt ring) s dt ring b .ok 0 [.dec, .store] fun t =>
          { t.ctx i with engine := 0 } = { s.ctx i with next := some (declOf c), engine := 0 } ∧
          (∀ k, k ≠ i → { t.ctx k with engine := 0 } = { s.ctx k with engine := 0 }) ∧ t.store.mem = s.store.mem) ∧
      ((s.admitContext l i true).isSome = false ∨ s.declChargesOk i (declOf c) = false → completes (.decDeclare dt ring) s dt ring b .capacity 0 [] fun _ => True))) ∧
  (∀ (dt k : Nat) (hdr : SliceIn) (r : ReadySlice) (rest : List ReadySlice) (p : Pkt) (ps : List Pkt) (s : State), s.top.ready = true → s.twin.resyncCause1 = false → (s.elapse dt).nextParse = some k → k < s.dec.ctx.length →
    (s.ctx k).ready = r :: rest → r.pkts = p :: ps →
    (∀ id, hdr.firstOfPicture = false → (s.ctx k).dropping = false → (s.ctx k).mid = some id → r.lastOfPicture = false →
      hdr.lastOfPicture = false → hdr.supported = true → hdr.firstLeaf ≤ (s.ctx k).nextLeaf → hdr.bottomFinal = true →
      (((s.ctx k).pic id).getD Picture.reset).slices < (s.ctx k).decl.maxSlices → (s.ctx k).picEngine < s.dec.de.length →
      goesTo (.sliceParse dt k hdr) s dt [.dec, .comp, .net] fun t =>
        (∃ j, (t.engine (s.ctx k).picEngine).jobs = (s.engine (s.ctx k).picEngine).jobs ++ [j] ∧ j.ctx = k ∧ j.pic = id ∧ j.first = hdr.firstLeaf ∧
          j.count = hdr.leaves ∧ j.row = 0 ∧ j.age = r.completeAt ∧ j.blocks = r.pkts.map Pkt.place ∧
          j.conceal = !(hdr.parsed && (s.ctx k).setsFor r.nal) ∧
          j.cls = if (((s.ctx k).pic id).getD Picture.reset).review then .review else (s.ctx k).cfg.cls) ∧
        (t.ctx k).ready = rest ∧ (t.ctx k).mid = some id ∧ onlyAt s.dec.ctx t.dec.ctx k ∧ onlyAt s.dec.de t.dec.de (s.ctx k).picEngine) ∧
    (hdr.firstOfPicture = true → s.bufFree k = true → (s.ctx k).mid = none → (s.ctx k).unparsed = false → hdr.parsed = true →
      (s.ctx k).setsFor r.nal = true → hdr.supported = false →
      hdr.randomAccess = true ∨ ((s.ctx k).st = .decoding ∧ hdr.rasl = false ∧ (s.ctx k).discarding = false ∧ (s.ctx k).backlog ≤ 1 ∧ s.top.replay = false) →
      goesTo (.sliceParse dt k hdr) s dt [.dec, .net] fun t =>
        t.dec.de = s.dec.de ∧ (t.ctx k).ready = rest ∧ (t.ctx k).frameNext = (s.ctx k).frameNext ∧ (t.ctx k).pics = (s.ctx k).pics ∧
        (t.ctx k).errs = (s.ctx k).errs.modify 4 (fun n => sat 16 (n + 1)) ∧
        (t.ctx k).st = (if (s.ctx k).decl.startAny then .decoding else .waitRa) ∧ onlyAt s.dec.ctx t.dec.ctx k ∧
        ((s.ctx k).pics = [] → (s.ctx k).held = [] → s.reports t (s.ctx k).cfg.ring 0x8300 0 (leBytes 1 k ++ leBytes 1 4 ++ leBytes 1 0xFF ++ leBytes 1 0
          ++ leBytes 4 (s.ctx k).frameNext.toNat ++ leBytes 2 0 ++ leBytes 2 0 ++ leBytes 4 0)))) ∧
  (∀ (dt k t0 : Nat) (s : State), k < s.dec.ctx.length →
    let x := s.ctx k
    let p := s.rtcpPort k
    let peer := x.srPeer.getD (x.cfg.srcIp.toNat, x.cfg.rtcpUdp)
    let hop := (s.port p).hopTo (s.portIp (s.port p)).toNat peer.1
    x.opened = true → x.cfg.hostFed = false → x.firAt = some t0 → t0 ≤ (s.elapse dt).tb.now → s.top.replay = false → s.role ≠ 2 →
    goesTo (.firRepeat dt k) s dt [.dec, .net] fun t =>
      t.ctx k = { x with firAt := some ((s.elapse dt).tb.now + 500000000), srtcpIndex := if x.cfg.srtp = 0 then 0 else (x.srtcpIndex + 1) % 2 ^ 31 } ∧
      onlyAt s.dec.ctx t.dec.ctx k ∧
      (∀ w, hop.isSome = true → (s.port p).arp.find? (fun q => decide (hop = some q.1)) = some w → t.net.ports = s.net.ports ∧
        ∃ m, t.net.sent = m :: s.net.sent ∧ m.kind = .fir ∧ m.port = p ∧ m.hop = some w ∧ m.info.take 3 = [k, peer.1, peer.2]))

/-- R34, R71, R172, R183, R184, R193, R199 to R202. What engines do with jobs, and what becomes of an engine that fails.
Where the rules leave a case open the clauses follow the choices of the model (log entries 2, 21, 73 and 75). -/
def Obligations.EnginesTakeAndLoseJobs : Prop :=
  (∀ (dt e : Nat) (j : Job) (s : State), e < s.dec.de.length → (s.engine e).cur = none → (s.engine e).st = .active → (s.engine e).nextJob = some j →
    (goesTo (.jobStart dt e false) s dt [.dec] fun t => (t.engine e).cur = some ((s.elapse dt).takeJob j) ∧
      (∀ k, (t.engine e).cur = some k → k.started = some (s.elapse dt).tb.now ∧ k.ctx = j.ctx ∧ k.pic = j.pic ∧ k.row = j.row ∧
        k.list0 = (s.ctx j.ctx).withTaint j.list0) ∧
      (t.engine e).jobs = (s.engine e).jobs.erase j ∧ onlyAt s.dec.de t.dec.de e ∧
      ∀ k ∈ (s.engine e).jobs, j.cls.rank < k.cls.rank ∨ (j.cls.rank = k.cls.rank ∧ j.age ≤ k.age)) ∧
    (j.sentTwice = false → goesTo (.jobStart dt e true) s dt [.dec] fun t => (t.engine e).cur = none ∧
      (t.engine e).jobs.length = (s.engine e).jobs.length ∧ t.dec.ctx = s.dec.ctx ∧ onlyAt s.dec.de t.dec.de e ∧
      ∃ k ∈ (t.engine e).jobs, k = { j with sentTwice := true, formed := (s.elapse dt).tb.now }) ∧
    (j.sentTwice = true → goesTo (.jobStart dt e true) s dt [.dec] fun t => (t.engine e).jobs = (s.engine e).jobs.erase j ∧ onlyAt s.dec.de t.dec.de e ∧
      ∃ k, (t.engine e).cur = some k ∧ k.ctx = j.ctx ∧ k.pic = j.pic ∧ k.conceal = true ∧ k.lostSeq.isSome = true)) ∧
  (∀ (dt e : Nat) (j : Job) (o : RowIn) (s : State), e < s.dec.de.length → (s.engine e).cur = some j → (s.engine e).st = .active →
    (j.rows ≤ j.row + 1 → goesTo (.rowComplete dt e o) s dt [.dec, .net, .store] fun t => (t.engine e).cur = none ∧
      (t.engine e).jobs = (s.engine e).jobs ∧ (t.engine e).completed = sat 32 ((s.engine e).completed + 1) ∧ onlyAt s.dec.de t.dec.de e) ∧
    (j.row + 1 < j.rows → ((s.engine e).jobs.any fun k => decide (k.cls.rank < j.cls.rank)) = true →
      goesTo (.rowComplete dt e o) s dt [.dec, .net, .store] fun t => (t.engine e).cur = none ∧
        (t.engine e).preemptions = sat 32 ((s.engine e).preemptions + 1) ∧ onlyAt s.dec.de t.dec.de e ∧
        ∃ k, (t.engine e).jobs = (s.engine e).jobs ++ [k] ∧ k.ctx = j.ctx ∧ k.pic = j.pic ∧ k.row = j.row + 1) ∧
    (j.row + 1 < j.rows → ((s.engine e).jobs.any fun k => decide (k.cls.rank < j.cls.rank)) = false →
      goesTo (.rowComplete dt e o) s dt [.dec, .net, .store] fun t => (∃ k, (t.engine e).cur = some k ∧ k.ctx = j.ctx ∧ k.pic = j.pic ∧ k.row = j.row + 1) ∧
        (t.engine e).jobs = (s.engine e).jobs ∧ onlyAt s.dec.de t.dec.de e) ∧
    (∀ (l : Nat) (pc : Picture) (f : Leaf), (s.ctx j.ctx).pic j.pic = some pc → pc.leaves[l]? = some f → f.valid = false →
      let final := j.finals (!(pc.leaves.getD (j.first - 1) Leaf.reset).ready)
      let out := (o.leaves.find? fun q => decide (q.leaf = l)).getD { leaf := l, pixels := [], preds := [] }
      let poison := o.leaves.any fun q => decide (q.leaf = l) && (s.elapse dt).fromPoison j pc.height q
      l ∈ final →
      (f.pixels = [] → j.conceal = false → j.failRow = none → j.failure o = none →
        goesTo (.rowComplete dt e o) s dt [.dec, .net, .store] fun t => ∃ q g, (t.ctx j.ctx).pic j.pic = some q ∧ q.leaves[l]? = some g ∧
          g.pixels = out.pixels ∧ g.ready = true ∧ g.valid = false ∧ g.acked = false ∧ g.concealed = (f.concealed || j.fromStandIn out || poison) ∧
          g.refConcealed = (j.fromTaint pc.height out && !(pc.recovery && (s.ctx j.ctx).decl.refreshTrust)) ∧ g.taint = (g.concealed || g.refConcealed) ∧
          ∀ i, i ∉ final → q.leaves[i]? = pc.leaves[i]?) ∧
      (j.conceal = true → l ∈ j.rowLeaves j.step.1 → (s.ctx j.ctx).fill j pc l ≠ [] →
        goesTo (.rowComplete dt e o) s dt [.dec, .net, .store] fun t => ∃ q g, (t.ctx j.ctx).pic j.pic = some q ∧ q.leaves[l]? = some g ∧
          g.pixels = (s.ctx j.ctx).fill j pc l ∧ g.ready = true ∧ g.valid = false ∧ g.concealed = true ∧ g.taint = true))) ∧
  (∀ (dt k pid leaf : Nat) (pc : Picture) (f : Leaf) (s : State), (s.ctx k).pic pid = some pc → pc.leaves[leaf]? = some f → f.ready = true → f.acked = false →
    goesTo (.leafComplete dt k pid leaf) s dt [.dec, .store] fun t => (∃ q, (t.ctx k).pic pid = some q ∧
      q.leaves[leaf]? = some { f with acked := true, valid := pc.output, decoded := (s.elapse dt).workTime, signature := crc32c f.pixels } ∧
      ∀ i, i ≠ leaf → q.leaves[i]? = pc.leaves[i]?) ∧ onlyAt s.dec.ctx t.dec.ctx k ∧
      ∀ e, (t.engine e).jobs = (s.engine e).jobs ∧ (t.engine e).cur = (s.engine e).cur) ∧
  (∀ (dt e : Nat) (bits : List Nat) (j : Job) (t0 : Nat) (s : State), e < 8 → e < s.dec.de.length → islDe e < s.fab.isl.length → (s.engine e).cur = some j → j.started = some t0 → (s.engine e).st = .active →
    t0 ≤ (s.elapse dt).tb.now → max (4 * (s.elapse dt).jobNs j bits) 1000000 ≤ j.priorNs + ((s.elapse dt).tb.now - t0) → (s.island (islDe e)).isolated = false → s.twin.resyncCause1 = false →
    s.top.handover = false → (s.flt.src.getD 2 FltSource.reset).fixed = true →
    goesTo (.decodeTimeout dt ⟨e, bits⟩) s dt [.dec, .flt, .fab, .top] fun t => (t.island (islDe e)).isolated = true ∧ (t.engine e).st = .isolated ∧
      (t.engine e).timeouts = sat 32 ((s.engine e).timeouts + 1) ∧ onlyAt s.dec.de t.dec.de e) ∧
  (∀ (dt e : Nat) (s : State), e < s.dec.de.length → s.dec.de.length = 8 → s.dec.ctx.length ≤ 64 → (s.engine e).st = .isolated →
    goesTo (.engineIsolate dt e) s dt [.dec] fun t => (t.engine e).st = .testing ∧ (t.engine e).cur = none ∧ (t.engine e).jobs = [] ∧
      ∀ k, (t.ctx k).placed = true → (s.engine (t.ctx k).engine).st = .active) ∧
  (∀ (dt e : Nat) (s : State), e < 8 → e < s.dec.de.length → islDe e < s.fab.isl.length → (s.engine e).st = .testing → (s.engine e).barred = false →
    (s.island (islDe e)).barred = false →
    (goesTo (.engineReturn dt e true) s dt [.dec, .flt, .net] fun t => (t.engine e).st = .active ∧ (t.island (islDe e)).isolated = false ∧
      onlyAt s.dec.de t.dec.de e) ∧
    (goesTo (.engineReturn dt e false) s dt [.dec, .flt, .top] fun t => (t.engine e).st = .isolated ∧ (t.engine e).barred = true ∧
      t.dec.ctx = s.dec.ctx ∧ onlyAt s.dec.de t.dec.de e))

/-- R206 to R208, R210 to R213, R222, R231, R235. Layer folios outside a flip group, checked against the pending configuration.
Where the rules leave a case open the clauses follow the choices of the model (log entries 27 and 65). -/
def Obligations.LayersAreSetAndReleased : Prop :=
  (∀ (dt ring : Nat) (b : Begun) (s : State), s.hasFolio ring 0x0400 b → (s.cmdQ ring).groupOpen = none → s.noGroups →
    let c := s.fctx ring b
    let i := layerIndex (c.u 0x10 1)
    let k := layerCfgOf c
    let v := s.view none
    let old := v.layer i
    layerRanges c k = true → (if isVideo i then s.videoOk k else s.graphicOk c.colour k) = true →
    (old.st ≠ .free → old.owner ≠ c.colour →
      completes (.layerSet dt ring) s dt ring b .colour 0 [.comp] fun t => s.sameShown t ∧ ∀ p ∈ t.comp.pend, p ∈ s.comp.pend) ∧
    (old.st = .free ∨ old.owner = c.colour → s.sourceColour c.colour i k = true → s.tablesColour c.colour k = true → evOk c s k.ring = true →
      (isVideo i = true → (s.sourceMax k).isSome = true) → s.tablesLoaded k = true → old.st ≠ .held → s.layerReserved i none = false →
      i < s.comp.layer.length → (bodyLayerSet c (s.elapse dt)).withinPoint (s.elapse dt) true →
      (∀ head, k.head = some head → (s.head head).admits c.colour = true → (s.head head).stopped = false →
        let ts := s.timings head
        let width := (ts.map k.clipWidth).foldl max 0
        let paired := isVideo i && k.pair && decide (5120 < width) && decide (width ≤ 10240)
        let new := v.set i (LayerView.ofSet i c.colour k paired) true
        new.adjacent head (new.mode.getD head 0) = true →
        (12 < (new.layersOn head).length →
          completes (.layerSet dt ring) s dt ring b .nospace 0 [.comp] fun t => s.sameShown t ∧ ∀ p ∈ t.comp.pend, p ∈ s.comp.pend) ∧
        ((new.layersOn head).length ≤ 12 → ts.all (pressFits (new.head head)) = true → s.chargesOk new [head] = true →
          (isVideo i = true → ts.all (fun t => rateOk k t paired) = true ∧ (width ≤ 5120 ∨ (paired = true ∧ v.partnerFree i = true))) →
          completes (.layerSet dt ring) s dt ring b .ok 0 [.comp, .store] fun t => s.sameShown t ∧ t.store.mem = s.store.mem ∧
            ∃ p ∈ t.comp.pend, p.change = .layer i { k with ring := c.ev k.ring } paired ∧ p.colour = c.colour ∧ p.group = none ∧
              p.heads = s.touched old i (some head) ∧ head ∈ p.heads)) ∧
      (k.head = none → s.touched old i none = [] → (s.layer i).st = .free →
        completes (.layerSet dt ring) s dt ring b .ok 0 [.comp, .store] fun t => t.store.mem = s.store.mem ∧ onlyAt s.comp.layer t.comp.layer i ∧
          (t.layer i).st = .idle ∧ (t.layer i).owner = c.colour ∧ (t.layer i).cfg = { k with ring := c.ev k.ring }))) ∧
  (∀ (dt ring : Nat) (b : Begun) (s : State), s.hasFolio ring 0x0401 b → (s.cmdQ ring).groupOpen = none → s.noGroups →
    let c := s.fctx ring b
    let i := layerIndex (c.u 0x10 1)
    let old := (s.view none).layer i
    codeOk (c.u 0x10 1) = true → c.u 0x11 1 < 2 →
    (old.st = .free →
      completes (.layerRelease dt ring) s dt ring b .state 0 [.comp] fun t => s.sameShown t ∧ ∀ p ∈ t.comp.pend, p ∈ s.comp.pend) ∧
    (old.st ≠ .free → old.owner = c.colour → old.st ≠ .held → s.layerReserved i none = false →
      (s.touched old i none ≠ [] →
        completes (.layerRelease dt ring) s dt ring b .ok 0 [.comp] fun t => s.sameShown t ∧
          ∃ p ∈ t.comp.pend, p.change = .release i (bitOf (c.u 0x11 1) 0) ∧ p.group = none ∧ p.heads = s.touched old i none) ∧
      (s.touched old i none = [] → (s.layer i).st = .idle → c.u 0x11 1 = 1 → i < s.comp.layer.length →
        completes (.layerRelease dt ring) s dt ring b .ok 0 [.comp] fun t => (t.layer i).st = .free ∧ onlyAt s.comp.layer t.comp.layer i)))

/-- R211, R221, R227, R229. The tables that layers select, and a head's stacking mode.
Where the rules leave a case open the clauses follow the choices of the model (log entries 27 and 28). -/
def Obligations.TablesAndBlendModesAreSet : Prop :=
  (∀ (dt ring : Nat) (b : Begun) (s : State), s.hasFolio ring 0x0402 b →
    let c := s.fctx ring b
    let m := c.u 0x10 1
    let x := s.comp.matrix.getD m MatrixSlot.reset
    let coef := ((List.range 9).map fun j => c.i (0x14 + 2 * j) 2) ++ (List.range 6).map fun j => c.i (0x26 + 2 * j) 2
    m < 16 → m < s.comp.matrix.length → c.u 0x12 2 = 0 →
    (c.u 0x11 1 = 0 → (∀ v ∈ coef.drop 9, -4096 ≤ v ∧ v ≤ 4095) → x.owner = none ∨ x.owner = some c.colour →
      completes (.colourMatrix dt ring) s dt ring b .ok 0 [.comp] fun t => s.sameShown t ∧
        t.comp.matrix[m]? = some { owner := some c.colour, coef := coef } ∧ onlyAt s.comp.matrix t.comp.matrix m ∧
        ∀ head, head ∈ s.headsUsing (fun k => decide (k.matrix = 8 + m)) → ∃ p ∈ t.comp.pend, p.change = .matrix m ∧ head ∈ p.heads) ∧
    (c.u 0x11 1 = 1 →
      (x.owner = some c.colour → s.slotUsed m = false →
        completes (.colourMatrix dt ring) s dt ring b .ok 0 [.comp] fun t => s.sameShown t ∧ t.comp.matrix[m]? = some MatrixSlot.reset ∧
          onlyAt s.comp.matrix t.comp.matrix m) ∧
      (x.owner = some c.colour → s.slotUsed m = true → completes (.colourMatrix dt ring) s dt ring b .busy 0 [] fun _ => True) ∧
      (x.owner = none → completes (.colourMatrix dt ring) s dt ring b .state 0 [] fun _ => True) ∧
      (∀ o, x.owner = some o → o ≠ c.colour → completes (.colourMatrix dt ring) s dt ring b .colour 0 [] fun _ => True))) ∧
  (∀ (dt ring : Nat) (b : Begun) (s : State), s.hasFolio ring 0x0403 b →
    let c := s.fctx ring b
    let k := c.u 0x10 1
    let w := c.u 0x12 1
    let off := c.u 0x14 4
    let x := s.comp.bank.getD k Bank.reset
    let hs := tableOf (s.winRead w off 1024) 8
    let vs := tableOf (s.winRead w (off + 1024) 768) 6
    k < 8 → k < s.comp.bank.length → w < 8 → off % 256 = 0 → s.winOk w c.colour = true → s.winSpan w off 1792 false = true →
    x.owner = none ∨ x.owner = some c.colour →
    ((tableOk hs 8 && tableOk vs 6) = true → s.winDamaged w off 1792 = false →
      completes (.scalerCoef dt ring) s dt ring b .ok 0 [.comp] fun t => s.sameShown t ∧ onlyAt s.comp.bank t.comp.bank k ∧
        t.comp.bank[k]? = some { owner := some c.colour, hcoef := hs.map (signedOf 16), vcoef := vs.map (signedOf 16) } ∧
        ∀ head, head ∈ s.headsUsing (fun l => decide (l.hfilter = 3 + k) || decide (l.vfilter = 3 + k)) →
          ∃ p ∈ t.comp.pend, p.change = .bank k ∧ head ∈ p.heads) ∧
    ((tableOk hs 8 && tableOk vs 6) = false → completes (.scalerCoef dt ring) s dt ring b .param 0 [] fun _ => True)) ∧
  (∀ (dt ring : Nat) (b : Begun) (s : State), s.hasFolio ring 0x0404 b →
    let c := s.fctx ring b
    let h := c.u 0x10 1
    h < 16 → c.u 0x11 1 < 2 → c.u 0x12 2 = 0 → c.u 0x14 4 < 2 ^ 24 →
    ((s.head h).owner = some c.colour → (s.head h).stopped = false → (s.cmdQ ring).groupOpen = none → (s.view none).adjacent h (c.u 0x11 1) = true →
      s.headReserved h none = false →
      completes (.headBlend dt ring) s dt ring b .ok 0 [.comp] fun t => s.sameShown t ∧
        ∃ p ∈ t.comp.pend, p.change = .blend h (c.u 0x11 1) (BitVec.ofNat 24 (c.u 0x14 4)) ∧ p.heads = [h] ∧ p.group = none) ∧
    ((s.head h).owner ≠ some c.colour → completes (.headBlend dt ring) s dt ring b .colour 0 [] fun _ => True))

/-- R237 to R241, R247, R248, R264. The folios of flip groups.
Where the rules leave a case open the clauses follow the choices of the model (log entry 27). -/
def Obligations.FlipGroupsOpenQueueAndCancel : Prop :=
  (∀ (dt ring : Nat) (b : Begun) (s : State), s.hasFolio ring 0x0600 b → (s.ring ring).state ≠ .draining → ring < s.host.cmdq.length →
    ((s.cmdQ ring).groupOpen = none →
      completes (.flipBegin dt ring) s dt ring b .ok 0 [.host] fun t => (t.cmdQ ring).groupOpen = some s.host.groupNo ∧ (t.cmdQ ring).broken = false ∧
        t.host.groupNo = s.host.groupNo + 1) ∧
    (∀ g, (s.cmdQ ring).groupOpen = some g →
      completes (.flipBegin dt ring) s dt ring b .state 0 [] fun t => (t.cmdQ ring).groupOpen = some g)) ∧
  (∀ (dt ring : Nat) (b : Begun) (s : State), s.hasFolio ring 0x0404 b → (s.ring ring).state ≠ .draining → ring < 32 → b.origin = none →
    let c := s.fctx ring b
    let h := c.u 0x10 1
    ∀ g, (s.cmdQ ring).groupOpen = some g → (∀ r, r < s.host.cmdq.length → r ≠ ring → (s.cmdQ r).groupOpen ≠ some g) →
    h < 16 → c.u 0x11 1 < 2 → c.u 0x12 2 = 0 → c.u 0x14 4 < 2 ^ 24 → (s.head h).owner = some c.colour → (s.head h).stopped = false →
    (s.view (some g)).adjacent h (c.u 0x11 1) = true → s.headReserved h (some g) = false →
    completes (.headBlend dt ring) s dt ring b .ok 0 [.comp] fun t => s.sameShown t ∧ (t.cmdQ ring).groupOpen = some g ∧
      ∃ p ∈ t.comp.pend, p.group = some g ∧ p.change = .blend h (c.u 0x11 1) (BitVec.ofNat 24 (c.u 0x14 4))) ∧
  (∀ (dt ring : Nat) (b : Begun) (s : State), s.hasFolio ring 0x0601 b → ring < 32 → ring < s.host.cmdq.length → b.origin = none →
    let c := s.fctx ring b
    let n := c.u 0x11 1
    ∀ g, (s.cmdQ ring).groupOpen = some g → c.u 0x10 1 < 2 → n < 9 → 1 ≤ c.u 0x12 2 → c.u 0x12 2 ≤ 10000 → c.u 0x14 4 = 0 →
    (∀ k, k < n → c.u (0x19 + 16 * k) 3 = 0) → (∀ x ∈ fencesOf c n, x.window < 8 ∧ x.offset % 8 = 0 ∧ s.winOk x.window c.colour = true) →
    ((s.cmdQ ring).broken = true →
      completes (.flipCommit dt ring) s dt ring b .state 0 [.comp] fun t => (t.cmdQ ring).groupOpen = none ∧ ∀ p ∈ t.comp.pend, p.group ≠ some g) ∧
    ((s.cmdQ ring).broken = false → 4 ≤ ((s.cmdQ ring).groups.filter fun x => !x.committed).length → (s.ring ring).state ≠ .draining →
      completes (.flipCommit dt ring) s dt ring b .busy 0 [] fun t => (t.cmdQ ring).groupOpen = some g ∧ (t.cmdQ ring).groups = (s.cmdQ ring).groups) ∧
    ((s.cmdQ ring).broken = false → s.noGroups → s.groupHeads g ≠ [] →
      completes (.flipCommit dt ring) s dt ring b .ok 0 [.comp] fun t => s.sameShown t ∧ (t.cmdQ ring).groupOpen = none ∧
        ∃ x, (t.cmdQ ring).groups = [x] ∧ x.id = g ∧ x.heads = s.groupHeads g ∧ x.fences = fencesOf c n ∧ x.tag = BitVec.ofNat 16 c.tag ∧
          x.waitSource = bitOf (c.u 0x10 1) 0 ∧ x.due = (s.elapse dt).tb.now + c.u 0x12 2 * 1000000 ∧ x.committed = false) ∧
    ((s.cmdQ ring).broken = false → s.noGroups → s.staged g = [] → n = 0 →
      completes (.flipCommit dt ring) s dt ring b .ok 0 [.comp] fun t => s.sameShown t ∧ (t.cmdQ ring).groups = [] ∧
        s.reports t ring 0x8600 c.tag (leBytes 1 0 ++ leBytes 1 0 ++ leBytes 2 0 ++ leBytes 4 0 ++ leBytes 8 0))) ∧
  (∀ (dt ring : Nat) (b : Begun) (s : State), s.hasFolio ring 0x0602 b → ring < s.host.cmdq.length →
    let c := s.fctx ring b
    (∀ x, (s.cmdQ ring).groups = [x] → x.tag.toNat = c.u 0x10 2 → x.committed = false → x.doneHeads = [] →
      completes (.flipCancel dt ring) s dt ring b .ok 0 [.comp] fun t => (t.cmdQ ring).groups = [] ∧ (∀ p ∈ t.comp.pend, p.group ≠ some x.id) ∧
        s.reports t x.ring 0x8600 x.tag.toNat (x.body 3)) ∧
    ((∀ x ∈ (s.cmdQ ring).groups, x.tag.toNat = c.u 0x10 2 → x.committed = true) →
      completes (.flipCancel dt ring) s dt ring b .state 0 [] fun _ => True)) ∧
  (∀ (dt ring : Nat) (b : Begun) (s : State), s.hasFolio ring 0x0620 b → s.noGroups → (s.cmdQ ring).groupOpen = none →
    let c := s.fctx ring b
    let h := c.u 0x10 1
    h < 16 →
    ((s.head h).admits c.colour = true → (s.head h).stopped = false →
      completes (.pressTouch dt ring) s dt ring b .ok 0 [.comp] fun t => s.sameShown t ∧
        ∃ p ∈ t.comp.pend, p.change = .press h ∧ p.heads = [h] ∧ p.flat = [h] ∧ p.group = none) ∧
    ((s.head h).admits c.colour = false → completes (.pressTouch dt ring) s dt ring b .colour 0 [] fun _ => True))

/-- R242 to R244, R248, R262 to R264. What time brings to queued groups and press images.
Where the rules leave a case open the clauses follow the choices of the model (log entry 27). -/
def Obligations.FencesTimeoutsAndFlattens : Prop :=
  (∀ (dt ring : Nat) (x : Group) (s : State), (s.cmdQ ring).groups = [x] → ring < s.host.cmdq.length → x.heads ≠ [] → x.flattenHeads ≠ [] → x.fencesRead = false →
    (∀ h ∈ x.flattenHeads, s.flattenBefore ring h x.order = false) →
    (s.readFences x.colour x.fences = some true →
      goesTo (.fencePoll dt ring) s dt [.comp] fun t => (t.cmdQ ring).groups = [{ x with fencesRead := true }] ∧ t.store = s.store) ∧
    (s.readFences x.colour x.fences = some false →
      goesTo (.fencePoll dt ring) s dt [.comp] fun t => (t.cmdQ ring).groups = [x]) ∧
    (s.readFences x.colour x.fences = none →
      goesTo (.fencePoll dt ring) s dt [.comp] fun t => (t.cmdQ ring).groups = [] ∧ (∀ y ∈ t.comp.pend, y.group ≠ some x.id) ∧
        s.reports t x.ring 0x8600 x.tag.toNat (x.body 2))) ∧
  (∀ (dt ring : Nat) (x : Group) (s : State), (s.cmdQ ring).groups = [x] → ring < s.host.cmdq.length → x.heads ≠ [] → x.committed = false → x.doneHeads = [] → x.expired = false →
    x.due ≤ (s.elapse dt).tb.now →
    (s.readFences x.colour x.fences = some false →
      goesTo (.flipTimeout dt ring) s dt [.comp] fun t => (t.cmdQ ring).groups = [] ∧ (∀ y ∈ t.comp.pend, y.group ≠ some x.id) ∧
        s.reports t x.ring 0x8600 x.tag.toNat (x.body 1)) ∧
    (s.readFences x.colour x.fences = some true →
      goesTo (.flipTimeout dt ring) s dt [.comp] fun t => (t.cmdQ ring).groups = [{ x with expired := true }])) ∧
  (∀ (dt h o : Nat) (s : State), h < s.comp.head.length → s.noGroups → (s.head h).press.busy = true → (s.head h).press.forOrder = some o →
    let v := s.viewWith (s.flattenPick o)
    let l := v.statics h
    let e := (staticRect (l.map (·.2)) (s.flattenTiming h o)).getD (0, 0, 0, 0)
    ((l.all fun k => s.surfaceReads (v.layer k.1).owner k.2) = true →
      goesTo (.flattenDone dt h) s dt [.comp] fun t => s.sameShown t ∧ (t.head h).press.nextReady = true ∧
        (t.head h).press.nextImage = s.flattenImage l e ∧ (t.head h).press.nextRect = (e.1, e.2.1, e.width, e.height) ∧
        (t.head h).press.image = (s.head h).press.image ∧ (∀ y ∈ t.comp.pend, y.order = o → h ∉ y.flat) ∧
        t.comp.pend.map (fun (y : Pend) => (y.order, y.change)) = s.comp.pend.map fun (y : Pend) => (y.order, y.change)) ∧
    ((l.all fun k => s.surfaceReads (v.layer k.1).owner k.2) = false → (∃ y ∈ s.comp.pend, y.order = o) →
      goesTo (.flattenDone dt h) s dt [.comp] fun t => s.sameShown t ∧ (∀ y ∈ t.comp.pend, y.order ≠ o) ∧ (t.head h).press.image = (s.head h).press.image ∧
        (t.head h).press.nextReady = false))

/-- R252, R253, R255 to R259, R577. The way of a plate sheet, and the scrub.
Where the rules leave a case open the clauses follow the choices of the model (log entries 31 and 40). -/
def Obligations.PlateSheetsAreCheckedAndShown : Prop :=
  (∀ (dt ring : Nat) (b : Begun) (s : State), s.hasFolio ring 0x0610 b → b.origin = none →
    let c := s.fctx ring b
    let w := c.u 0x10 1
    let off := c.u 0x14 4
    w < 8 → off % 256 = 0 →
    (c.colour ≠ 62 → completes (.plateUpdate dt ring) s dt ring b .colour 0 [] fun _ => True) ∧
    (c.colour = 62 → s.winOk w 62 = true → s.winSpan w off 0x80 false = true → (s.island islSec).isolated = false → s.winDamaged w off 0x80 = false →
      let head := sheetHeader (s.winRead w off 0x80)
      let n := 0x80 + head.pixLen + sheetSigs
      let p := sheetOf (s.winRead w off n)
      head.member = s.top.gatherId.toNat → head.pixLen ≤ 262144 → s.winSpan w off n false = true → s.winDamaged w off n = false →
      (s.sheetCheck p = none → waits (.plateUpdate dt ring) s dt ring b (.plateVerify p) [] fun _ => True) ∧
      (s.plateKeys = false → p.head < s.comp.plate.length →
        completes (.plateUpdate dt ring) s dt ring b .state 0 [.comp] fun t => onlyAt s.comp.plate t.comp.plate p.head ∧
          t.plate p.head = { s.plate p.head with refused := sat 32 ((s.plate p.head).refused + 1) }))) ∧
  (∀ (dt ring : Nat) (b : Begun) (o : WaitIn) (p : PlateSheet) (s : State), s.waitsFor ring b (.plateVerify p) → (s.island islSec).isolated = false → s.paneRoom p = true → s.paneApart p = true →
    p.head < s.comp.plate.length →
    (o ≠ .done ∨ s.nonceNamed p = false ∨ p.sheetSeq ≤ (s.plate p.head).lastSeq →
      completes (.folioWaitComplete dt ring o) s dt ring b (if o ≠ .done then .signature else .state) 0 [.comp] fun t =>
        onlyAt s.comp.plate t.comp.plate p.head ∧
        t.plate p.head = { s.plate p.head with refused := sat 32 ((s.plate p.head).refused + 1) }) ∧
    (o = .done → s.nonceNamed p = true → (s.plate p.head).lastSeq < p.sheetSeq →
      waits (.folioWaitComplete dt ring o) s dt ring b (if p.frameBit && !(s.head p.head).scansNone then .plateFrame p else .plateCopy p) [.comp] fun t =>
        onlyAt s.comp.plate t.comp.plate p.head ∧
        t.plate p.head = { s.plate p.head with lastSeq := p.sheetSeq, accepted := sat 32 ((s.plate p.head).accepted + 1) })) ∧
  (∀ (dt ring : Nat) (b : Begun) (o : WaitIn) (p : PlateSheet) (s : State), ring < 48 → p.head < s.comp.plate.length →
    let c := s.fctx ring b
    let after := { (s.plate p.head).apply p with shown := (s.plate p.head).shown ++ [(c.ev c.ring, p.pane, BitVec.ofNat 16 c.tag, p.sheetSeq)] }
    (s.waitsFor ring b (.plateCopy p) →
      completes (.folioWaitComplete dt ring o) s dt ring b .ok 0 [.comp] fun t => onlyAt s.comp.plate t.comp.plate p.head ∧ t.plate p.head = after) ∧
    (s.waitsFor ring b (.plateFrame p) → (s.plate p.head).latchedFrame = true ∨ (s.head p.head).scansNone = true →
      (∀ r, r < s.host.cmdq.length → r ≠ ring → ∀ q ∈ (s.cmdQ r).begun, q.wait.frameHead ≠ some p.head) →
      completes (.plateFrameCopy dt p.head) s dt ring b .ok 0 [.comp] fun t => onlyAt s.comp.plate t.comp.plate p.head ∧ t.plate p.head = after) ∧
    ((s.plate p.head).latchedFrame = false → (s.head p.head).scansNone = false →
      goesTo (.plateFrameCopy dt p.head) s dt [] fun _ => True)) ∧
  (∀ (dt h leaf : Nat) (q : Nat × Nat × BitVec 16 × Nat) (s : State), (s.head h).scanning = true → leaf < (s.head h).set_.timing.leaves → leaf = (s.head h).outSigs.length → (s.head h).plateLeaf ≠ some leaf →
    h < s.comp.head.length → h < s.comp.plate.length → h < s.comp.plateRead.length → (s.plate h).shown = [q] →
    goesTo (.outputLeafStart dt h leaf) s dt [.comp] fun t => t.comp.plateRead[h]? = some (s.plate h) ∧ onlyAt s.comp.plateRead t.comp.plateRead h ∧
      t.plate h = { s.plate h with shown := [] } ∧ (t.head h).plateLeaf = some leaf ∧
      s.reports t q.1 0x8610 q.2.2.1.toNat
        (leBytes 1 h ++ leBytes 1 q.2.1 ++ leBytes 2 leaf ++ leBytes 4 q.2.2.2 ++ leBytes 4 (s.head h).frame.toNat)) ∧
  (∀ (dt : Nat) (s : State), (s.island islSvc).isolated = false → s.pwr.booted = true →
    ((∀ h, h < 16 → ∀ i, i < 8 → s.paneClean h i) → goesTo (.plateScrub dt) s dt [] fun _ => True) ∧
    (∀ (h i : Nat), h < 16 → i < 8 → h < s.comp.plate.length → ¬ s.paneClean h i → (∀ g, g < 16 → ∀ j, j < 8 → g ≠ h → s.paneClean g j) →
      (∀ j, j < (s.plate h).panes.length → j ≠ i → ((s.plate h).panes.getD j Pane.reset).enabled = false) → s.top.handover = false → s.twin.resyncCause1 = false →
      let q := (s.plate h).panes.getD i Pane.reset
      goesTo (.plateScrub dt) s dt [.comp, .flt, .top] fun t => onlyAt s.comp.plate t.comp.plate h ∧
        t.plate h = { s.plate h with mem := (s.plate h).mem.writeN (q.base * 256) q.copy, scrubs := (s.plate h).scrubs + 1 }))

/-- R265, R267, R268, R270, R271, R277 to R279, R282, R283. The folios of heads and ports.
Where the rules leave a case open the clauses follow the choices of the model (log entries 29 and 80). -/
def Obligations.HeadsAndPortsAreConfigured : Prop :=
  (∀ (dt ring : Nat) (b : Begun) (s : State), s.hasFolio ring 0x0700 b → s.noGroups →
    let c := s.fctx ring b
    let h := c.u 0x10 1
    let tm := timingOf c
    h < s.comp.head.length → timingRanges c tm = true → (s.head h).owner = none ∨ (s.head h).owner = some c.colour →
    (∀ q ∈ tm.port, ∀ o ∈ (s.dpPort q).owner, o = c.colour) → evOk c s (c.u 0x2A 1) = true →
    ((s.routeOk h tm = false ∨ (s.head h).stopped = true) →
      completes (.headTiming dt ring) s dt ring b .state 0 [.comp] fun t => s.sameShown t ∧ ∀ p ∈ t.comp.pend, p ∈ s.comp.pend) ∧
    (s.routeOk h tm = true → (s.head h).stopped = false → ((s.head h).genlock.mode = 0 ∨ within200 (s.head h).genlock.num (s.head h).genlock.den tm = true) →
      ((∃ p ∈ s.comp.pend, p.change.retimes h = true) →
        completes (.headTiming dt ring) s dt ring b .busy 0 [.comp] fun t => s.sameShown t ∧ ∀ p ∈ t.comp.pend, p ∈ s.comp.pend) ∧
      ((∀ p ∈ s.comp.pend, p.change.retimes h = false) → s.headReserved h none = false →
        (∀ q ∈ tm.port, s.fits q (s.dpPort q).mode (s.dpPort q).rate (some (h, tm)) = true) →
        pressFits ((s.view none).head h) tm = true → fracLe (s.headCharge ((s.view none).head h) tm) 2500000000 = true → (bodyHeadTiming c (s.elapse dt)).withinPoint (s.elapse dt) false →
        ((s.head h).st = .off →
          completes (.headTiming dt ring) s dt ring b .ok 0 [.comp, .enc, .store] fun t => t.comp.layer = s.comp.layer ∧
            (t.head h).st = .starting ∧ (t.head h).owner = some c.colour ∧ (t.head h).timing = tm ∧ (t.head h).frame = (s.head h).frame ∧
            ∃ p ∈ t.comp.pend, p.change = .timing h tm ∧ p.heads = [h]) ∧
        ((s.head h).st ≠ .off →
          completes (.headTiming dt ring) s dt ring b .ok 0 [.comp, .store] fun t => s.sameShown t ∧
            ∃ p ∈ t.comp.pend, p.change = .timing h tm ∧ p.heads = [h] ∧ p.colour = c.colour)))) ∧
  (∀ (dt ring : Nat) (b : Begun) (s : State), s.hasFolio ring 0x0701 b →
    let c := s.fctx ring b
    let h := c.u 0x10 1
    h < 16 → h < s.comp.head.length →
    ((s.head h).owner ≠ some c.colour → completes (.headStop dt ring) s dt ring b .colour 0 [] fun _ => True) ∧
    ((s.head h).owner = some c.colour → ((s.view none).lay.any fun l => l.head = some h) = true →
      completes (.headStop dt ring) s dt ring b .busy 0 [] fun _ => True) ∧
    ((s.head h).owner = some c.colour → ((s.view none).lay.any fun l => l.head = some h) = false → s.headReserved h none = false →
      completes (.headStop dt ring) s dt ring b .ok 0 [.comp] fun t => s.sameShown t ∧ (t.head h).stopping = true ∧
        ∃ p ∈ t.comp.pend, p.change = .stop h ∧ p.heads = [h])) ∧
  (∀ (dt ring : Nat) (b : Begun) (s : State), s.hasFolio ring 0x0702 b →
    let c := s.fctx ring b
    let h := c.u 0x10 1
    let mask := BitVec.ofNat 64 (c.u 0x18 8)
    h < 16 → h < s.comp.head.length → (s.head h).owner = some c.colour → (s.head h).stopped = false →
    ((∃ x ∈ s.coloursOn h, (s.head h).guests.getLsbD x = true ∧ mask.getLsbD x = false) →
      completes (.headGuests dt ring) s dt ring b .busy 0 [] fun _ => True) ∧
    ((∀ x ∈ s.coloursOn h, (s.head h).guests.getLsbD x = true → mask.getLsbD x = true) →
      completes (.headGuests dt ring) s dt ring b .ok 0 [.comp] fun t =>
        t.head h = { s.head h with guests := mask } ∧ onlyAt s.comp.head t.comp.head h ∧ t.comp.layer = s.comp.layer)) ∧
  (∀ (dt ring : Nat) (b : Begun) (s : State), s.hasFolio ring 0x0710 b →
    let c := s.fctx ring b
    let q := c.u 0x10 1
    let mode := c.u 0x11 1
    let rate := c.u 0x12 1
    let x := s.dpPort q
    q < 8 → q < s.comp.port.length → mode < 3 → rate < 3 → c.u 0x13 1 < 32 → c.u 0x14 1 < 2 → c.u 0x15 3 = 0 →
    (∀ o, x.owner = some o → o ≠ c.colour → completes (.portConfig dt ring) s dt ring b .colour 0 [] fun _ => True) ∧
    (x.owner = none ∨ x.owner = some c.colour → evOk c s (c.u 0x13 1) = true →
      (mode = 0 → s.routed q ≠ [] → completes (.portConfig dt ring) s dt ring b .busy 0 [] fun _ => True) ∧
      (mode = 0 → s.routed q = [] → x.st ≠ .off →
        completes (.portConfig dt ring) s dt ring b .ok 0 [.comp, .lanes] fun t => (t.dpPort q).st = .off ∧ (t.dpPort q).owner = none ∧
          onlyAt s.comp.port t.comp.port q) ∧
      ((mode = 2 ∨ (mode = 1 ∧ (s.routed q).length < 2 ∧ ∀ h ∈ s.routed q, ∀ tm ∈ s.routeTimings q h, tm.stream ≠ 1)) →
        s.fits q mode rate none = true →
        (x.st = .off → s.twin.muted = false →
          completes (.portConfig dt ring) s dt ring b .ok 0 [.comp, .lanes] fun t => onlyAt s.comp.port t.comp.port q ∧
            (t.dpPort q).st = (if x.hpd then .training else .down) ∧ (t.dpPort q).owner = some c.colour ∧ (t.dpPort q).mode = mode ∧
            (t.dpPort q).rate = rate ∧ (t.dpPort q).ring = c.ev (c.u 0x13 1) ∧ (t.dpPort q).spread = bitOf (c.u 0x14 1) 0) ∧
        (x.st = .up →
          (mode = x.mode ∧ rate = x.rate ∧ bitOf (c.u 0x14 1) 0 = x.spread →
            completes (.portConfig dt ring) s dt ring b .ok 0 [.comp] fun t =>
              t.dpPort q = { x with owner := some c.colour, ring := c.ev (c.u 0x13 1) } ∧ onlyAt s.comp.port t.comp.port q ∧ t.comp.head = s.comp.head) ∧
          (mode ≠ x.mode ∨ rate ≠ x.rate ∨ bitOf (c.u 0x14 1) 0 ≠ x.spread →
            completes (.portConfig dt ring) s dt ring b .ok 0 [.comp, .lanes] fun t => (t.dpPort q).st = .training ∧ (t.dpPort q).trained = 0 ∧
              (t.dpPort q).mode = mode ∧ (t.dpPort q).rate = rate ∧ onlyAt s.comp.port t.comp.port q)))))

/-- R271, R272, R276, R277, R285, R296. What happens on the cable, and to a head island.
Where the rules leave a case open the clauses follow the choices of the model (log entries 2 and 29). -/
def Obligations.PortsTrainAndHeadsReturn : Prop :=
  (∀ (dt p : Nat) (s : State), p < 8 → p < s.comp.port.length →
    ((s.dpPort p).st = .down → goesTo (.hpdHigh dt p) s dt [.comp, .lanes] fun t => (t.dpPort p).st = .training ∧ (t.dpPort p).hpd = true ∧
      onlyAt s.comp.port t.comp.port p ∧ s.reports t (s.dpPort p).ring 0x8700 0 (s.portBody p 2 1 0)) ∧
    ((s.dpPort p).st ≠ .down → goesTo (.hpdHigh dt p) s dt [.comp] fun t => t.dpPort p = { s.dpPort p with hpd := true } ∧
      onlyAt s.comp.port t.comp.port p ∧ t.comp.head = s.comp.head) ∧
    ((s.dpPort p).st = .training ∨ (s.dpPort p).st = .up → goesTo (.hpdLow dt p) s dt [.comp, .lanes] fun t => (t.dpPort p).st = .down ∧
      (t.dpPort p).hpd = false ∧ onlyAt s.comp.port t.comp.port p ∧ s.reports t (s.dpPort p).ring 0x8700 0 (s.portBody p 1 2 0)) ∧
    ((s.dpPort p).st = .up →
      (goesTo (.hpdShortPulse dt p false) s dt [.comp, .lanes] fun t => (t.dpPort p).st = .training ∧ (t.dpPort p).lost = sat 32 ((s.dpPort p).lost + 1) ∧
        (t.dpPort p).pulses = sat 32 ((s.dpPort p).pulses + 1) ∧ onlyAt s.comp.port t.comp.port p ∧
        s.reports t (s.dpPort p).ring 0x8700 0 (s.portBody p 2 3 0)) ∧
      (goesTo (.hpdShortPulse dt p true) s dt [.comp] fun t => t.dpPort p = { s.dpPort p with pulses := sat 32 ((s.dpPort p).pulses + 1) } ∧
        onlyAt s.comp.port t.comp.port p ∧ t.comp.head = s.comp.head))) ∧
  (∀ (dt p : Nat) (tr : TrainIn) (s : State), p < 8 → p < s.comp.port.length → (s.dpPort p).st = .training →
    let l := attemptsOf (s.dpPort p).rate tr.rates
    let n := (s.dpPort p).tries
    (∀ x, l[n]? = some x →
      (tr.ok = true → goesTo (.trainingDone dt p tr) s dt [.comp, .lanes, .flt] fun t => (t.dpPort p).st = .up ∧ (t.dpPort p).trained = x ∧
        (t.dpPort p).lastRate = x ∧ (t.dpPort p).branch = tr.branch ∧ (t.dpPort p).edid = tr.edid.take 1024 ∧ onlyAt s.comp.port t.comp.port p ∧
        s.reports t (s.dpPort p).ring 0x8700 0 (s.portBody p 3 5 x)) ∧
      (tr.ok = false → n + 1 < l.length → goesTo (.trainingDone dt p tr) s dt [.comp] fun t => (t.dpPort p).st = .training ∧
        (t.dpPort p).tries = n + 1 ∧ (t.dpPort p).attempts = sat 32 ((s.dpPort p).attempts + 1) ∧ onlyAt s.comp.port t.comp.port p) ∧
      (tr.ok = false → l.length ≤ n + 1 → goesTo (.trainingDone dt p tr) s dt [.comp, .lanes] fun t => (t.dpPort p).st = .down ∧
        onlyAt s.comp.port t.comp.port p ∧ s.reports t (s.dpPort p).ring 0x8700 0 (s.portBody p 1 4 0))) ∧
    (l[n]? = none → goesTo (.trainingDone dt p tr) s dt [.comp, .lanes] fun t => (t.dpPort p).st = .down ∧
      (t.dpPort p).attempts = (s.dpPort p).attempts ∧ s.reports t (s.dpPort p).ring 0x8700 0 (s.portBody p 1 4 0))) ∧
  (∀ (dt h : Nat) (s : State), h < 16 → h < s.comp.head.length → islHead h < s.fab.isl.length → (s.island (islHead h)).isolated = false → (s.island (islHead h)).barred = false →
    (∀ f ∈ s.flt.inst, f.is 4 (islHead h) 0 0 = false) → (s.flt.src.getD 4 FltSource.reset).fixed = false → 2 ≤ (s.flt.src.getD 4 FltSource.reset).n →
    (goesTo (.headIsolate dt h true) s dt [.comp, .fab, .flt, .top] fun t =>
      t.head h = { s.head h with isolated := false, windowOpen := false, cur := [], next := [], later := [], outSigs := [], failedLeaves := 0, plateLeaf := none } ∧
      (t.island (islHead h)).isolated = false ∧ onlyAt s.comp.head t.comp.head h) ∧
    (goesTo (.headIsolate dt h false) s dt [.comp, .fab, .flt, .top] fun t => (t.head h).isolated = true ∧ (t.island (islHead h)).isolated = true ∧
      onlyAt s.comp.head t.comp.head h))

/-- R211, R242, R245, R248, R282, R283, R285, R287, R289 to R291. The commit window and the epoch.
Where the rules leave a case open the clauses follow the choices of the model (log entries 27 and 29). -/
def Obligations.LatchesCommitAndEpochsBegin : Prop :=
  (∀ (dt h : Nat) (s : State), h < 16 → h < s.comp.head.length → h < s.comp.plate.length → (s.head h).st ≠ .off → (s.head h).windowOpen = false →
    (s.head h).isolated = false → (s.head h).ending = false →
    (goesTo (.latch dt h) s dt [.comp, .enc] fun t => (t.head h).windowOpen = true ∧ (t.head h).latchAt = (s.elapse dt).tb.dev ∧
      (t.plate h).latchedFrame = true ∧ (t.head h).frame = (s.head h).frame ∧ (t.head h).cur = (s.head h).cur) ∧
    (∀ (p : Pend) (i : Nat) (kc : LayerCfg), s.noGroups → s.comp.pend = [p] → p.group = none → p.heads = [h] → p.flat = [] →
      (p.change = .layer i kc false → p.target = some h → kc.head = some h → i < s.comp.layer.length →
        (p.at_ < (s.elapse dt).tb.now → goesTo (.latch dt h) s dt [.comp, .enc] fun t => t.comp.pend = [] ∧ (t.layer i).st = .active ∧
          (t.layer i).owner = p.colour ∧ (t.layer i).cfg = kc ∧ (∃ x ∈ (t.head h).on_, x.index = i ∧ x.cfg = kc) ∧
          ∃ cr ∈ (t.head h).commits, cr.ring = p.ring ∧ cr.lastSeq = p.seq) ∧
        ((s.elapse dt).tb.now ≤ p.at_ → goesTo (.latch dt h) s dt [.comp, .enc] fun t => t.comp.pend = [p.missed h (s.elapse dt).tb.now] ∧ (t.layer i).cfg = (s.layer i).cfg ∧
          (t.layer i).st = (s.layer i).st ∧ (t.head h).on_ = (s.head h).on_ ∧ (t.head h).commits = (s.head h).commits)) ∧
      (∀ (m : Nat) (bg : BitVec 24), p.change = .blend h m bg → p.at_ < (s.elapse dt).tb.now →
        goesTo (.latch dt h) s dt [.comp, .enc] fun t => t.comp.pend = [] ∧ (t.head h).mode = m ∧ (t.head h).background = bg ∧
          (t.head h).on_ = (s.head h).on_)) ∧
    (∀ (r : Nat) (g : Group) (p : Pend) (m : Nat) (bg : BitVec 24), r < 48 → (∀ k, k < s.host.cmdq.length → k ≠ r → (s.cmdQ k).groups = []) → (s.cmdQ r).groups = [g] → g.heads = [h] → g.doneHeads = [] → g.committed = false →
      g.waitSource = false → g.flattenHeads = [] → s.comp.pend = [p] → p.group = some g.id → p.heads = [h] → p.change = .blend h m bg →
      (s.readFences g.colour g.fences = some true → goesTo (.latch dt h) s dt [.comp, .enc] fun t => t.comp.pend = [] ∧ (t.head h).mode = m ∧
        (t.head h).background = bg ∧ ∃ g2, (t.cmdQ r).groups = [g2] ∧ g2.id = g.id ∧ g2.committed = true ∧ g2.doneHeads = [h]) ∧
      (s.readFences g.colour g.fences = some false → goesTo (.latch dt h) s dt [.comp, .enc] fun t => t.comp.pend = [p] ∧ (t.head h).mode = (s.head h).mode ∧
        (t.head h).background = (s.head h).background ∧ ∃ g2, (t.cmdQ r).groups = [g2] ∧ g2.id = g.id ∧ g2.committed = false))) ∧
  (∀ (dt h : Nat) (s : State), h < 16 → h < s.comp.head.length → (s.head h).st ≠ .off → (s.head h).windowOpen = true → (s.head h).isolated = false →
    let now := if (s.head h).frame = BitVec.allOnes 32 then 1 else (s.head h).frame + 1
    ((s.head h).ending = false →
      (goesTo (.headEpoch dt h) s dt [.comp, .enc, .store] fun t => (t.head h).windowOpen = false ∧ (t.head h).st = .running ∧ (t.head h).frame = now ∧
        (t.head h).epoch = (s.elapse dt).tb.dev ∧ (t.head h).cur = (s.head h).next ∧ (t.head h).outSigs = [] ∧ (t.head h).commits = [] ∧
        ((s.head h).log.st ≠ .logging → t.store = s.store)) ∧
      ((s.head h).cur = [] → (s.head h).later = [] → (s.head h).st = .running →
        (∀ cr, (s.head h).commits = [cr] → (s.head h).timing.commitEvents = true →
          goesTo (.headEpoch dt h) s dt [.comp, .enc, .store] fun t => s.reports t cr.ring 0x8701 cr.tag.toNat (leBytes 1 h
            ++ leBytes 1 (b2n cr.deferred + 2 * b2n cr.timing) ++ leBytes 2 cr.count ++ leBytes 4 cr.lastSeq.toNat ++ leBytes 4 now.toNat
            ++ leBytes 4 (shortTime (s.elapse dt).tb.dev))) ∧
        (∀ (r : Nat) (g : Group), (s.head h).commits = [] → r < 48 → r < s.host.cmdq.length → (∀ k, k < s.host.cmdq.length → k ≠ r → (s.cmdQ k).groups = []) → (s.cmdQ r).groups = [g] → g.committed = true → g.heads = [h] →
          g.doneHeads = [h] → g.begun = [] →
          goesTo (.headEpoch dt h) s dt [.comp, .enc, .store] fun t => (t.cmdQ r).groups = [] ∧
            s.reports t g.ring 0x8600 g.tag.toNat ({ g with frame := now, epoch := (s.elapse dt).tb.dev }.body 0)) ∧
        ((s.head h).commits = [] → s.noGroups → (s.head h).timing.frameEvents ≠ 0 → (s.head h).evLeft = 0 →
          goesTo (.headEpoch dt h) s dt [.comp, .enc, .store] fun t => s.reports t (s.head h).timing.ring 0x8702 0 (leBytes 1 h
            ++ leBytes 1 (b2n (t.head h).genlock.locked + 2 * b2n (decide ((t.head h).plan.st = .planned)) + 4 * b2n (t.head h).output
              + 8 * b2n (t.head h).lengthened)
            ++ leBytes 2 0 ++ leBytes 4 now.toNat ++ leBytes 8 (s.elapse dt).tb.dev)))) ∧
    ((s.head h).ending = true →
      goesTo (.headEpoch dt h) s dt [.comp, .enc, .store] fun t => (t.head h).st = .off ∧ (t.head h).owner = none ∧ (t.head h).guests = 0 ∧
        (t.head h).frame = (s.head h).frame ∧ ∀ y ∈ t.comp.pend, h ∉ y.heads))

/-- R81 to R83, R86, R97, R232, R233, R292 to R294. Scan-out.
Where the rules leave a case open the clauses follow the choices of the model (log entries 25, 29, 64, 65, 66 and 67). -/
def Obligations.ScanOutPicksFetchesAndJudges : Prop :=
  (∀ (dt h layer : Nat) (coming : Bool) (sc : Scan) (s : State), layer < 64 → h < s.comp.head.length → (s.head h).isolated = false → (s.head h).frameFor layer (fun k => !k.picked) = some coming →
    (s.head h).scanOf coming layer = some sc →
    let last := match (s.layer layer).sel with
      | some p => if p.context = sc.shown.cfg.context ∧ p.member = sc.shown.cfg.srcMember then some p else none
      | none => none
    goesTo (.pickPoint dt h layer) s dt [.comp] fun t =>
      (t.head h).scanOf coming layer = some { sc with picked := true, sel := s.pickFor sc.shown ((s.head h).timingFor coming) last } ∧
      onlyAt s.comp.head t.comp.head h ∧ onlyAt s.comp.layer t.comp.layer layer) ∧
  (∀ (s : State) (x : Shown) (tm : Timing) (last : Option SelPic) (pc : Picture), pc ∈ s.sourcePics x.cfg → pc.output = true → qualifies x tm pc = true →
    (∀ sel ∈ last, ∀ p2 ∈ s.picOf sel, p2.ord ≤ pc.ord) →
    ∃ sel, s.pickFor x tm last = some sel ∧ ∃ p2, p2 ∈ s.sourcePics x.cfg ∧ sel.pic = p2.id ∧ qualifies x tm p2 = true ∧ p2.output = true ∧ pc.ord ≤ p2.ord) ∧
  (∀ (dt h layer leaf : Nat) (sc : Scan) (sel : SelPic) (pc : Picture) (f : Leaf) (s : State), layer < 64 → h < s.comp.head.length → (s.head h).isolated = false → (s.head h).scanOf false layer = some sc →
    sc.unfetched ((s.head h).timingFor false) leaf = true → sc.sel = some sel → s.picOf sel = some pc → pc.leaves[leaf]? = some f →
    (s.island islComp).isolated = false →
    goesTo (.fetchInstant dt h layer leaf) s dt [.comp] fun t => onlyAt s.comp.head t.comp.head h ∧ t.comp.layer = s.comp.layer ∧
      ∃ lc, (t.head h).scanOf false layer = some { sc with checks := sc.checks ++ [lc] } ∧ lc.leaf = leaf ∧ lc.fetched = f.valid ∧ lc.notReady = !f.valid ∧
        (lc.poisoned = true ↔ f.valid = true ∧ (f.poisoned = true ∨ s.leafDamaged pc leaf = true ∨
          s.fetchPermitted (s.layer layer).owner pc leaf = false ∨ (sc.shown.cfg.wholeWidth pc = true ∧ crc32c f.pixels ≠ f.signature)))) ∧
  (∀ (dt h layer band : Nat) (delivered good : Bool) (sc : Scan) (e : Edges) (s : State), 64 ≤ layer → layer < 128 → layer < s.comp.layer.length → h < s.comp.head.length → (s.head h).isolated = false →
    (s.head h).scanOf false layer = some sc → (sc.bands.any fun b => b.band = band) = false → band < (s.head h).set_.timing.leaves →
    sc.shown.cfg.clip (s.head h).set_.timing = some e → bandLines e band ≠ [] →
    let inTime := delivered && !(s.island islComp).isolated
    let ok := inTime && good && s.bandReads (s.layer layer).owner sc.shown.cfg e band
    goesTo (.bandRequest dt h layer band delivered good) s dt [.comp] fun t => onlyAt s.comp.head t.comp.head h ∧ onlyAt s.comp.layer t.comp.layer layer ∧
      (∃ bn, (t.head h).scanOf false layer = some { sc with bands := sc.bands ++ [bn] } ∧ bn.band = band ∧ bn.delivered = ok ∧
        (ok = true → bn.px = s.bandPixels sc.shown.cfg e band)) ∧
      (t.layer layer).lateBands = (if inTime then (s.layer layer).lateBands else sat 32 ((s.layer layer).lateBands + 1)) ∧
      (t.layer layer).faultBands = (if inTime && !ok then sat 32 ((s.layer layer).faultBands + 1) else (s.layer layer).faultBands)) ∧
  (∀ (dt h leaf : Nat) (s : State), h < s.comp.head.length → (s.head h).scanning = true → leaf < (s.head h).set_.timing.leaves → leaf = (s.head h).outSigs.length →
    (s.head h).plateLeaf = some leaf →
    let now := (s.elapse dt).judgeLeaves h leaf
    let code := outCode (s.head h).set_.timing.deep (s.head h).set_.timing.limited
    goesTo (.leafScan dt h leaf) s dt [.comp, .enc] fun t =>
      (t.head h).outSigs = (s.head h).outSigs ++ [signPixels ((now.composeLeaf h leaf).flatten.map fun v => (code v.1, code v.2.1, code v.2.2))] ∧
      (t.head h).failedLeaves = (s.head h).failedLeaves + b2n (now.leafDeckled h leaf) ∧ onlyAt s.comp.head t.comp.head h ∧ t.comp.layer = s.comp.layer ∧
      ∀ (sc : Scan) (i : Nat) (sel : SelPic) (pc : Picture), sc ∈ (s.head h).cur → isVideo sc.shown.index = true → i ∈ s.leavesDue h sc leaf → sc.sel = some sel → s.picOf sel = some pc →
        let lines := sc.shown.linesOf (s.head h).set_.timing i
        let end_ : Int := ((s.head h).epoch + (s.head h).scanNs (lines.head?.getD 0) : Nat) - (pc.capture : Int) + ((s.head h).scanNs lines.length : Nat)
        ∃ k2 ∈ (t.head h).cur, k2.shown = sc.shown ∧ ∃ lc ∈ k2.checks, lc.leaf = i ∧ lc.checked = true ∧
          (lc.reasons.getLsbD 0 = true ↔ ((sc.shown.fresh.budget * 100000 : Nat) : Int) < end_))

/-- R301, R304 to R306, R318. The folios of encode sessions.
Where the rules leave a case open the clauses follow the choices of the model (log entry 30). -/
def Obligations.EncodeSessionsOpenAndClose : Prop :=
  (∀ (dt ring : Nat) (b : Begun) (s : State), s.hasFolio ring 0x0800 b →
    let c := s.fctx ring b
    let i := c.u 0x10 1
    let k := encCfgOf c
    let feeds := (s.enc.session.filter fun (x : EncSession) => decide (x.st ≠ .closed) && decide (x.cfg.head = k.head)).length
    let new : EncSession := { EncSession.reset with st := .coding, owner := c.colour, cfg := k, eff := k.divisor, phase := k.divisor - 1, joins := 1 }
    let l := s.enc.session.modify i fun _ => new
    i < s.enc.session.length → encRanges c k (s.head k.head) = true →
    ((s.head k.head).owner ≠ some c.colour → completes (.encOpen dt ring) s dt ring b .colour 0 [] fun _ => True) ∧
    ((s.head k.head).owner = some c.colour → s.encWindows c.colour k = true → evOk c s (c.u 0x29 1) = true → (s.head k.head).st ≠ .off →
      ((s.session i).st ≠ .closed → completes (.encOpen dt ring) s dt ring b .state 0 [] fun _ => True) ∧
      ((s.session i).st = .closed →
        (2 ≤ feeds → completes (.encOpen dt ring) s dt ring b .nospace 0 [] fun _ => True) ∧
        (feeds < 2 → k.record = true → leastFit s.headRates l i s.encodersUp = none →
          completes (.encOpen dt ring) s dt ring b .capacity 0 [] fun _ => True) ∧
        (∀ e, feeds < 2 → leastFit s.headRates l i s.encodersUp = some e → (bodyEncOpen c (s.elapse dt)).withinPoint (s.elapse dt) true →
          completes (.encOpen dt ring) s dt ring b .ok 0 [.enc, .store] fun t => t.session i = { new with encoder := e } ∧
            onlyAt s.enc.session t.enc.session i ∧ t.enc.demotions = s.enc.demotions ∧ t.enc.ee = s.enc.ee ∧ t.store.mem = s.store.mem)))) ∧
  (∀ (dt ring op : Nat) (b : Begun) (s : State), s.hasFolio ring op b →
    let c := s.fctx ring b
    let i := c.u 0x10 1
    let x := s.session i
    i < 16 → i < s.enc.session.length →
    (op = 0x0801 →
      (x.st ≠ .closed → x.owner ≠ c.colour → completes (.encClose dt ring) s dt ring b .colour 0 [] fun _ => True) ∧
      (x.st = .closed → completes (.encClose dt ring) s dt ring b .state 0 [] fun _ => True) ∧
      (x.st ≠ .closed → x.owner = c.colour →
        (x.cur ≠ none → completes (.encClose dt ring) s dt ring b .ok 0 [.enc] fun t => t.session i = { x with closing := true } ∧
          onlyAt s.enc.session t.enc.session i ∧ t.enc.ee = s.enc.ee) ∧
        (x.cur = none → x.cfg.record = true ∨ s.enc.demotions = [] →
          completes (.encClose dt ring) s dt ring b .ok 0 [.enc] fun t => t.session i = EncSession.reset ∧ onlyAt s.enc.session t.enc.session i ∧
            ∀ e ∈ t.enc.ee, ∀ r ∈ e.waiting, r.session ≠ i))) ∧
    (op = 0x0802 → x.st ≠ .closed → x.owner = c.colour →
      (∀ (before : List (Nat × Nat)) (m : Nat) (rest : List (Nat × Nat)), x.aus = before ++ (c.u 0x14 4, m) :: rest → (∀ e ∈ before, e.1 ≠ c.u 0x14 4) →
        completes (.encConsume dt ring) s dt ring b .ok 0 [.enc] fun t => onlyAt s.enc.session t.enc.session i ∧
          t.session i = { x with readOff := c.u 0x14 4, used := x.used - ((before.map (·.2)).sum + m), aus := rest }) ∧
      ((∀ e ∈ x.aus, e.1 ≠ c.u 0x14 4) → c.u 0x14 4 ≠ x.readOff → completes (.encConsume dt ring) s dt ring b .param 0 [] fun _ => True)) ∧
    (op = 0x0803 → x.st ≠ .closed → x.owner = c.colour → completes (.encKey dt ring) s dt ring b .ok 0 [.enc] fun t =>
      t.session i = { x with keyReq := true } ∧ onlyAt s.enc.session t.enc.session i ∧ t.enc.ee = s.enc.ee) ∧
    (op = 0x0804 → x.st ≠ .closed → x.owner = c.colour → (s.head x.cfg.head).st ≠ .off →
      (rateRanges (c.u 0x14 4) (c.u 0x18 4) x.cfg.divisor (s.head x.cfg.head).timing.rate = true →
        completes (.encRate dt ring) s dt ring b .ok 0 [.enc] fun t => t.session i = { x with newRate := some (c.u 0x14 4, c.u 0x18 4) } ∧
          onlyAt s.enc.session t.enc.session i ∧ t.enc.ee = s.enc.ee) ∧
      (rateRanges (c.u 0x14 4) (c.u 0x18 4) x.cfg.divisor (s.head x.cfg.head).timing.rate = false →
        completes (.encRate dt ring) s dt ring b .param 0 [] fun _ => True)))

/-- R307, R309, R311, R314, R315, R317, R321, R322. Coding pictures and recording evidence.
Where the rules leave a case open the clauses follow the choices of the model (log entries 2, 26, 30 and 77). -/
def Obligations.PicturesAreCodedWithinTheirCap : Prop :=
  (∀ (dt i row : Nat) (search : SearchIn) (s : State), i < 16 → i < s.enc.session.length → s.rowReady i row = true →
    let x := s.session i
    let h := s.head x.cfg.head
    let y := x.drain h.timing.rate
    let vbv := y.cfg.vbv * 1000
    let done := decide (row + 1 = x.cfg.rows)
    x.encoder < s.enc.ee.length →
    (∀ c, x.cur = some c → row ≠ 0 → goesTo (.rateRowReady dt i row done search) s dt [.enc] fun t => t.enc.session = s.enc.session ∧
      onlyAt s.enc.ee t.enc.ee x.encoder ∧ ∃ w, (t.encoder x.encoder).waiting = (s.encoder x.encoder).waiting ++ [w] ∧ w.session = i ∧ w.row = row ∧
        w.frame = c.frame ∧ w.blocks.length = x.cfg.blocksW * x.cfg.blockRows row ∧
        (c.kind = .idr → ∀ m ∈ w.blocks, m.mvx = 0 ∧ m.mvy = 0 ∧ m.vcost = 0xFFFF)) ∧
    (row = 0 → x.cur = none → s.top.replay = false →
      (y.cfg.outBlocks * 256 - y.used < ceilDiv (ceilDiv vbv 8) 256 * 256 → goesTo (.rateRowReady dt i row done search) s dt [.enc] fun t =>
        (t.session i).dropped = x.dropped + 1 ∧ (t.session i).cur = none ∧ (t.session i).coded = x.coded ∧ t.enc.ee = s.enc.ee ∧
        onlyAt s.enc.session t.enc.session i ∧
        s.reports t x.cfg.ring 0x8800 0 (leBytes 1 i ++ leBytes 1 2 ++ leBytes 1 y.nextKind.code ++ leBytes 1 x.eff ++ leBytes 4 x.coded ++ leBytes 4 0
          ++ leBytes 4 0)) ∧
      (ceilDiv (ceilDiv vbv 8) 256 * 256 ≤ y.cfg.outBlocks * 256 - y.used → goesTo (.rateRowReady dt i row done search) s dt [.enc] fun t =>
        (∃ c, (t.session i).cur = some c ∧ c.frame = h.frame ∧ c.epoch = h.epoch ∧ c.rows = [] ∧ c.cap = vbv - y.fullness ∧
          c.target = targetBits (y.frameBits h.timing.rate) y.fullness vbv ∧ c.start = x.writeOff ∧ c.kind = y.nextKind) ∧
        (t.session i).fullness = y.fullness ∧ onlyAt s.enc.session t.enc.session i ∧
        ∃ w, (t.encoder x.encoder).waiting = (s.encoder x.encoder).waiting ++ [w] ∧ w.session = i ∧ w.row = 0))) ∧
  (∀ (s : State) (e : Nat) (w : EncRow), s.rowPick e = some w → w ∈ (s.encoder e).waiting ∧
    ((s.session w.session).cfg.record = true → ∀ r ∈ (s.encoder e).waiting, (s.session r.session).cfg.record = true)) ∧
  (∀ (dt e : Nat) (w : EncRow) (o : RateRowIn) (c : CurPic) (s : State), s.rowPick e = some w → w.session < s.enc.session.length → (s.session w.session).cur = some c → w.session = o.session →
    (s.encoder e).isolated = false → e < s.enc.ee.length →
    let x := s.session w.session
    let bits (c : CurPic) : Nat := (c.rows.map fun r => r.bits).sum
    goesTo (.rateRowCoded dt e o) s dt [.enc, .tb] fun t => onlyAt s.enc.session t.enc.session w.session ∧ onlyAt s.enc.ee t.enc.ee e ∧
      w ∉ (t.encoder e).waiting ∧
      ∃ c2, (t.session w.session).cur = some c2 ∧ c2.rows.length = c.rows.length + 1 ∧ c2.rows.take c.rows.length = c.rows ∧
        (c.rows.length < x.cfg.rows → bits c + (x.cfg.rows - c.rows.length) * 256 ≤ c.cap → bits c2 + (x.cfg.rows - c2.rows.length) * 256 ≤ c2.cap) ∧
        c2.cap = c.cap ∧ (c.heldRow.isSome = true → c2.heldRow = c.heldRow) ∧ (85 * c.cap ≤ 100 * bits c → c2.qp = x.cfg.qpMax)) ∧
  (∀ (dt i : Nat) (c : CurPic) (sigs : List (BitVec 32)) (s : State), i < s.enc.session.length → (s.session i).cur = some c → s.pictureSigs (s.session i) c = some sigs → (s.session i).closing = false →
    (s.session i).cfg.statsBlocks = 0 → c.heldRow = none → s.store.mem.wf = true →
    let x := s.session i
    let payload := leBytes 4 c.frame.toNat ++ leBytes 8 c.epoch ++ leBytes 4 (frameSig sigs).toNat ++ leBytes 1 s.top.gatherId.toNat ++ leBytes 1 x.cfg.head
      ++ leBytes 1 i ++ leBytes 1 (b2n c.clampRow.isSome) ++ leBytes 4 0
    let au := c.params ++ (c.rows.flatMap fun r => r.coded) ++ seiNal x.cfg.hevc payload
    let n := ceilDiv au.length 256 * 256
    s.winOk x.cfg.outWin x.owner = true → s.winSpan x.cfg.outWin x.cfg.outOffset (x.cfg.outBlocks * 256) true = true → c.start + n ≤ x.cfg.outBlocks * 256 →
    goesTo (.pictureCoded dt i) s dt [.enc, .store] fun t => s.blockWritten t x.cfg.outWin (x.cfg.outOffset + c.start) (padTo n au) ∧
      (t.session i).cur = none ∧ (t.session i).coded = x.coded + 1 ∧ (t.session i).used = x.used + n ∧
      (t.session i).fullness = x.fullness + (c.rows.map fun r => r.bits).sum ∧ (t.session i).aus = x.aus ++ [((c.start + n) % (x.cfg.outBlocks * 256), n)] ∧
      onlyAt s.enc.session t.enc.session i ∧
      s.reports t x.cfg.ring 0x8800 0 (leBytes 1 i ++ leBytes 1 0 ++ leBytes 1 c.kind.code ++ leBytes 1 x.eff ++ leBytes 4 x.coded ++ leBytes 4 c.start
        ++ leBytes 4 au.length)) ∧
  (∀ (dt i : Nat) (sr : SideRec) (rest : List SideRec) (s : State), i < s.enc.session.length → (s.session i).sides = sr :: rest → (s.session i).sideWaits sr = false → s.store.mem.wf = true →
    let x := s.session i
    s.winOk x.cfg.auxWin x.owner = true → s.winSpan x.cfg.auxWin x.cfg.sideOffset (x.cfg.sideBlocks * 256) true = true →
    (x.sideNext + 1) * 512 ≤ x.cfg.sideBlocks * 256 →
    goesTo (.sideRecord dt i) s dt [.enc, .store] fun t => s.blockWritten t x.cfg.auxWin (x.cfg.sideOffset + x.sideNext * 512) (x.sideBytes sr) ∧
      t.session i = { x with sides := rest, sideNext := (x.sideNext + 1) % (x.cfg.sideBlocks / 2) } ∧ onlyAt s.enc.session t.enc.session i) ∧
  (∀ (dt e : Nat) (s : State), e < 2 → e < s.enc.ee.length → s.enc.session.length ≤ 16 → (s.encoder e).isolated = false → (s.island (islEe e)).isolated = false →
    goesTo (.encoderIsolate dt e) s dt [.enc, .fab, .flt, .top] fun t => (t.encoder e).isolated = true ∧ (t.encoder e).waiting = [] ∧
      ∀ x ∈ t.enc.session, x.carried = true → x.encoder ≠ e)

/-- R345, R346. NOP completes with E_OK and the completion time; SYNC completes once every folio of its colour that was fetched before
it has completed, and waits while one has not; a folio with an undefined opcode completes with E_OPCODE. Nothing else changes. -/
def Obligations.NopSyncAndUndefinedOpcodesEnd : Prop :=
  (∀ (dt ring : Nat) (b : Begun) (s : State), s.hasFolio ring 0x0000 b →
    completes (.nop dt ring) s dt ring b .ok ((s.elapse dt).tb.dev % 2 ^ 64) [] fun _ => True) ∧
  (∀ (dt ring : Nat) (b : Begun) (s : State), ring < 48 → s.hasFolio ring 0x0001 b → s.earlierOpen (s.fctx ring b).colour b.order = false →
    (∀ r, r < s.host.cmdq.length → r ≠ ring → ∀ c ∈ (s.cmdQ r).begun, c.wait ≠ .sync) →
    completes (.sync dt ring) s dt ring b .ok 0 [] fun _ => True) ∧
  (∀ (dt ring : Nat) (b : Begun) (s : State) (r : Nat) (c : Begun), s.hasFolio ring 0x0001 b → r ≠ ring → r < 32 → s.ringColour r = (s.fctx ring b).colour →
    (s.cmdQ r).begun = some c → c.order < b.order → c.wait ≠ .sync →
    waits (.sync dt ring) s dt ring b .sync [] fun _ => True) ∧
  (∀ (dt ring : Nat) (b : Begun) (s : State), (s.cmdQ ring).begun = some b → b.wait = .undefinedOp →
    completes (.undefinedOpcode dt ring) s dt ring b .opcode 0 [] fun _ => True)

/-- R350, R351. A window is mapped over a fresh region that reads as zero, stops serving when its unmapping is accepted, and is free
again when its region has been wiped; bytes outside the region read as before.
Where the rules leave a case open the clauses follow the choices of the model (log entries 9, 17 and 66). -/
def Obligations.WindowsMapUnmapAndWipe : Prop :=
  (∀ (dt ring : Nat) (b : Begun) (s : State) (base i : Nat), s.hasFolio ring 0x0010 b → s.memOk = true →
    let w := b.folio.u 0x10 1
    let size := b.folio.u 0x14 4
    let colour := (s.fctx ring b).colour
    w < 8 → w < s.host.win.length → b.folio.u 0x11 3 = 0 → size % 4096 = 0 → 4096 ≤ size → size ≤ 33554432 →
    (s.window w).mapped = false → (s.window w).unmapping = false → s.used colour + size ≤ s.quota colour →
    s.findRegion size = some base → s.freeEntry = some i →
    completes (.windowMap dt ring) s dt ring b .ok 0 [.host, .store, .sec] fun t =>
      (t.window w).mapped = true ∧ (t.window w).size = BitVec.ofNat 32 size ∧ (t.window w).colour = BitVec.ofNat 6 colour ∧
      (t.window w).base = base ∧ (∀ a, base ≤ a → a < base + size → t.store.mem.read a = 0) ∧
      (∀ a, a < base ∨ base + size ≤ a → t.store.mem.read a = s.store.mem.read a) ∧
      (∀ v, v ≠ w → t.window v = s.window v)) ∧
  (∀ (dt ring : Nat) (b : Begun) (s : State), s.hasFolio ring 0x0011 b →
    let w := b.folio.u 0x10 1
    w < 8 → w < s.host.win.length → (s.window w).mapped = true → (s.window w).unmapping = false →
    (s.window w).colour.toNat = (s.fctx ring b).colour → s.windowInUse w = false →
    waits (.windowUnmap dt ring) s dt ring b (.wipe w) [.host, .sec] fun t =>
      (t.window w).unmapping = true ∧ ∀ v, v ≠ w → t.window v = s.window v) ∧
  (∀ (dt ring : Nat) (b : Begun) (s : State) (w : Nat), (s.cmdQ ring).begun = some b → b.wait = .wipe w → w < s.host.win.length →
    s.removalOpen (s.window w).base (s.window w).size.toNat = false →
    completes (.regionWipeDone dt ring) s dt ring b .ok 0 [.host, .store, .sec] fun t =>
      (t.window w).mapped = false ∧ (t.window w).unmapping = false ∧
      (∀ a, (s.window w).base ≤ a → a < (s.window w).base + (s.window w).size.toNat → t.store.mem.read a = 0) ∧
      (∀ a, a < (s.window w).base ∨ (s.window w).base + (s.window w).size.toNat ≤ a → t.store.mem.read a = s.store.mem.read a))

/-- R328, R329, R366. Enabling, disabling and ringing a ring, where its registers take writes. -/
def Obligations.RingsEnableDisableAndRing : Prop :=
  (∀ (dt k : Nat) (s : State), s.ringWritable k = true → k < s.host.rings.length → (s.ring k).state = .disabled →
    (log2Ok k (s.ring k).log2.toNat = true → s.ringValid k = true →
      goesTo (.ringEnable dt k) s dt [] fun t => (t.ring k).state = .running ∧ (t.ring k).enable = true ∧ (t.ring k).hostIndex = 0 ∧
        (t.ring k).deviceIndex = 0 ∧ ∀ j, j ≠ k → t.ring j = s.ring j) ∧
    (log2Ok k (s.ring k).log2.toNat = false →
      goesTo (.ringEnable dt k) s dt [.top] fun t => t.top.hfKind = 6 ∧ t.top.hfOffset = BitVec.ofNat 32 k ∧ t.host = s.host) ∧
    (log2Ok k (s.ring k).log2.toNat = true → s.ringValid k = false →
      goesTo (.ringEnable dt k) s dt [.top] fun t => t.top.hfKind = 7 ∧ t.top.hfOffset = BitVec.ofNat 32 k ∧ t.host = s.host)) ∧
  (∀ (dt k : Nat) (s : State), (s.ring k).state ≠ .disabled → goesTo (.ringEnable dt k) s dt [] fun t => t.host = s.host) ∧
  (∀ (dt k : Nat) (s : State), s.ringWritable k = true → k < s.host.rings.length → (s.ring k).state = .running ∨ (s.ring k).state = .halted →
    (k < 32 → s.inflight k ≠ 0 → goesTo (.ringDisable dt k) s dt [] fun t => (t.ring k).state = .draining ∧ (t.ring k).enable = false) ∧
    (k < 32 → s.inflight k = 0 → goesTo (.ringDisable dt k) s dt [] fun t => (t.ring k).state = .disabled) ∧
    (32 ≤ k → goesTo (.ringDisable dt k) s dt [] fun t => (t.ring k).state = .disabled ∧ (t.ring k).enable = false)) ∧
  (∀ (dt k : Nat) (index : BitVec 32) (s : State), s.ringWritable k = true → k < s.host.rings.length → (32 ≤ k → k < 64 → (s.cmdQ (k - 32)).awaitResync = false) →
    (((s.ring k).state = .running ∨ (s.ring k).state = .draining) → (s.ring k).doorbellOk k index = true →
      goesTo (.doorbell dt k index) s dt [] fun t => (t.ring k).hostIndex = index ∧ (t.ring k).deviceIndex = (s.ring k).deviceIndex) ∧
    (((s.ring k).state = .running ∨ (s.ring k).state = .draining) → (s.ring k).doorbellOk k index = false →
      goesTo (.doorbell dt k index) s dt [.top] fun t => t.top.hfKind = 4 ∧ t.host = s.host) ∧
    (((s.ring k).state = .disabled ∨ (s.ring k).state = .halted) → goesTo (.doorbell dt k index) s dt [] fun t => t.host = s.host)) ∧
  (∀ (dt n : Nat) (index : BitVec 32) (s : State), s.ringWritable (32 + n) = true → n < s.host.cmdq.length → n < s.host.evtq.length → 32 + n < s.host.rings.length →
    (s.cmdQ n).awaitResync = true → (s.ring (32 + n)).state = .running →
    (index - (s.evtQ n).mirrorBase).toNat ≤ ((s.ring (32 + n)).deviceIndex - (s.evtQ n).mirrorBase).toNat →
    goesTo (.resyncDoorbell dt n index) s dt [.top] fun t => (t.cmdQ n).awaitResync = false ∧ t.ended n ∧
      (t.ring (32 + n)).hostIndex = index ∧ (t.ring (32 + n)).deviceIndex = index ∧ ∃ x rest, (t.evtQ n).acked = x :: rest ∧ x.code = 0x8000)

/-- R53, R152, R327, R348, R349. What host accesses to single registers do while HOST answers.
Where the rules leave a case open the clauses follow the choices of the model (log entry 15). -/
def Obligations.HostRegisterAccessesAct : Prop :=
  (∀ (dt n : Nat) (s : State), s.hostUp = true → n < 32 → s.ringNet n = false → 32 + n < s.host.rings.length →
    goesTo (.ringLostRead dt n) s dt [.host] fun t => t.host.bus.reply = leBytes 4 (s.ring (32 + n)).lost.toNat ∧ (t.ring (32 + n)).lost = 0) ∧
  (∀ (dt : Nat) (bits : BitVec 32) (s : State), s.hostUp = true →
    goesTo (.topChangeWrite dt bits) s dt [.top] fun t => t.top.change = s.top.change &&& ~~~(bits.setWidth 6)) ∧
  (∀ (dt : Nat) (s : State), s.hostUp = true →
    goesTo (.topHfaultsRead dt) s dt [.top, .host] fun t => t.host.bus.reply = leBytes 4 s.top.hfaults.toNat ∧ t.top.hfaults = 0) ∧
  (∀ (dt : Nat) (s : State), s.hostUp = true →
    goesTo (.timeLoRead dt) s dt [.top, .host] fun t =>
      t.host.bus.reply = leBytes 4 (s.elapse dt).tb.dev ∧ t.top.timeHi = BitVec.ofNat 32 ((s.elapse dt).tb.dev / 2 ^ 32)) ∧
  (∀ (dt src : Nat) (value : BitVec 32) (s : State), s.hostUp = true → src < s.host.irq.length →
    goesTo (.interruptSourceWrite dt src value) s dt [.host] fun t =>
      t.host.irq[src]? = some { vector := value.extractLsb' 0 6, enable := value.getLsbD 31 }) ∧
  (∀ (dt r : Nat) (value : BitVec 64) (s : State), s.ringWritable r = true → r < s.host.rings.length → (s.ring r).state = .disabled → (s.ring r).enable = false →
    goesTo (.registerWrite dt .bar0 (0x10000 + r * 0x200) false value) s dt [] fun t =>
      (t.ring r).base.toNat % 2 ^ 12 = 0 ∧ (t.ring r).base.extractLsb' 12 20 = value.extractLsb' 12 20 ∧
      (t.ring r).base.extractLsb' 32 32 = (s.ring r).base.extractLsb' 32 32) ∧
  (∀ (dt offset size : Nat) (write : Bool) (s : State), s.hostUp = true → bar0Aligned offset size = false → size ≠ 0 → offset + size ≤ 0x100000 →
    goesTo (.bar0BadAccess dt offset size write) s dt [.top, .host] fun t =>
      t.top.hfKind = 1 ∧ t.top.hfOffset = BitVec.ofNat 32 offset ∧ t.top.hfWrite = write ∧
      (write = false → t.host.bus.reply = List.replicate size 0xFF) ∧ (write = true → t.host = s.host)) ∧
  (∀ (dt offset : Nat) (s : State), s.hostUp = true → offset + 4 ≤ 0x100000 → offset % 4 = 0 → bar0Of offset = .reserved →
    goesTo (.bar0BadAccess dt offset 4 false) s dt [.host] fun t => t.host.bus.reply = [0, 0, 0, 0]) ∧
  (∀ (dt : Nat) (s : State), s.hostUp = true →
    (goesTo (.bar0BadAccess dt 0x1000 8 false) s dt [.host] fun t => t.host.bus.reply = leBytes 8 (s.elapse dt).tb.dev) ∧
    (goesTo (.bar0BadAccess dt 0x1004 4 false) s dt [.host] fun t => t.host.bus.reply = leBytes 4 s.top.timeHi.toNat))

/-- R56. BAR2 accesses: served from the window's region, or refused with a host-access fault.
Where the rules leave a case open the clauses follow the choices of the model (log entry 15). -/
def Obligations.Bar2ReadsAndWrites : Prop :=
  (∀ (dt offset len : Nat) (s : State), s.hostUp = true → len ≠ 0 → offset < 8 * winStride →
    let w := offset / winStride
    let off := offset % winStride
    (s.bar2Kind w off len false = 0 → (∀ x ∈ blocksOf ((s.window w).base + off) len, (s.store.land ((s.window w).base + off) len).damagedAt x = false) →
      goesTo (.bar2Read dt offset len) s dt [.host, .store] fun t => t.host.bus.reply = s.winRead w off len ∧ t.host.win = s.host.win ∧
        t.store = s.store.land ((s.window w).base + off) len) ∧
    ((s.window w).mapped = false ∨ (s.window w).size.toNat < off + len →
      goesTo (.bar2Read dt offset len) s dt [.host, .top] fun t =>
        t.host.bus.reply = List.replicate len 0xFF ∧ t.top.hfKind = 2 ∧ t.top.hfWrite = false)) ∧
  (∀ (dt offset : Nat) (bytes : List Byte) (s : State), s.hostUp = true → bytes ≠ [] → offset < 8 * winStride → s.store.mem.wf = true →
    let w := offset / winStride
    let off := offset % winStride
    let a := (s.window w).base + off
    (s.bar2Kind w off bytes.length true = 0 → (∀ x ∈ blocksOf a bytes.length, (s.store.land a bytes.length).damagedAt x = false) →
      goesTo (.bar2Write dt offset bytes) s dt [.store] fun t => t.store.mem.readN a bytes.length = bytes ∧
        (∀ x, x < a ∨ a + bytes.length ≤ x → t.store.mem.read x = (s.store.land a bytes.length).mem.read x) ∧
        ∀ x, x / 256 < a / 256 ∨ (a + bytes.length + 255) / 256 ≤ x / 256 → t.store.mem.read x = s.store.mem.read x) ∧
    ((s.window w).mapped = false →
      goesTo (.bar2Write dt offset bytes) s dt [.top] fun t => t.top.hfKind = 2 ∧ t.top.hfWrite = true))

/-- R334. The checks a folio meets as it begins, in their order; the expected SEQUENCE rises whatever they find. -/
def Obligations.FoliosAreCheckedInOrder : Prop :=
  ∀ (dt : Nat) (s : State) (r : Nat) (u : Bool) (f : Fetched) (rest : List Fetched), s.takesFolios = true → s.pick = some (r, u) → r < 32 → r < s.host.rings.length → r < s.host.evtq.length →
    (s.cmdQ r).fetched = f :: rest → s.twin.st ≠ .electing → s.top.replay = false →
    let b : Begun := { folio := if f.damaged then damagedFolio else f.folio, order := f.order, cmdSeq := (s.ring r).seq, wait := .run, origin := none, fwdRing := r }
    ∃ t, exec (.folioBegin dt) s = .next t ∧ (t.ring r).seq = (s.ring r).seq + 1 ∧
      (let fails st v := t.ended r ∧ (b.recordDue st → t.answered r b st v)
       if f.damaged then fails .damaged 0
       else if f.folio.seq ≠ (s.ring r).seq.toNat then fails .sequence f.folio.seq
       else if f.folio.colour ≠ s.ringColour r then fails .colour 0
       else if definedOps.contains f.folio.opcode = false then (t.cmdQ r).begun = some { b with wait := .undefinedOp }
       else if f.folio.formOk (s.mapOf r).urgent = false then fails .param 0
       else if opPermitted f.folio.opcode s.lifecycle = false then fails .lifecycle 0
       else if f.folio.forward = true ∧ s.reachable f.folio.member = false then fails .unreachable 0
       else if s.goesAway f.folio then (t.cmdQ r).begun = some { b with wait := .forward f.folio.member }
       else (t.cmdQ r).begun = some b ∧ (t.cmdQ r).fetched = rest)

/-- R330, R331, R341, R342, R347, R348, R154. What HOST moves between the rings and the part.
Where the rules leave a case open the clauses follow the choices of the model (log entry 15). -/
def Obligations.HostFetchesAndWritesRecords : Prop :=
  (∀ (dt ring : Nat) (bs : List Byte) (s : State), s.fetchable ring = true → (∀ r, r < 32 → (s.mapOf r).urgent = true → s.fetchable r = true → (s.mapOf ring).urgent = true) →
    s.mirroring = false → ring < s.host.cmdq.length → ring < s.host.rings.length →
    (goesTo (.folioFetch dt ring (.good bs)) s dt [.host] fun t =>
      (∃ f, (t.cmdQ ring).fetched = (s.cmdQ ring).fetched ++ [f] ∧ f.folio.raw = padTo 256 bs ∧ f.damaged = false) ∧
      (t.ring ring).deviceIndex = (s.ring ring).deviceIndex + 1) ∧
    (goesTo (.folioFetch dt ring .pcieError) s dt [.top] fun t => (t.ring ring).state = .halted ∧ t.top.hfKind = 5)) ∧
  (∀ (dt k c : Nat) (eb bs : List Byte) (ends : Bool) (s : State), k < 64 → s.hostUp = true → s.top.ready = true → s.role ≠ 2 → s.top.replay = false →
    (s.ring (64 + k)).state = .running → (s.ring (64 + k)).used ≠ 0 → (s.host.stmq.getD k StmQ.reset).ctx = some c →
    (s.ctx c).opened = true → (s.host.stmq.getD k StmQ.reset).at_ ≤ s.tb.now → (stmEntryOf eb).good = true →
    64 + k < s.host.rings.length → c < s.dec.ctx.length →
    min (stmEntryOf eb).len (s.ctx c).cfg.burst * tokenUnit
      ≤ (s.host.stmq.getD k StmQ.reset).credit (s.elapse dt).tb.now (s.ctx c).cfg.maxRate (s.ctx c).cfg.burst →
    s.bufUsed c + 256 * ceilDiv (stmEntryOf eb).len 256 ≤ (s.ctx c).cfg.buffer * 1024 →
    goesTo (.stmFetch dt k (.good eb) (.good bs) ends) s dt [.host, .dec, .comp, .store, .net] fun t =>
      let e := stmEntryOf eb
      let x := s.ctx c
      (t.ring (64 + k)).deviceIndex = (s.ring (64 + k)).deviceIndex + 1 ∧
      (t.ctx c).count.received = sat 32 (x.count.received + 1) ∧ (t.ctx c).lastPkt = some (s.elapse dt).tb.now ∧
      (t.ctx c).highest = some (match x.highest with | some h => h + 1 | none => 0) ∧
      (bitOf e.flags 0 = false → bitOf e.flags 1 = false → x.st ≠ .shed → ∃ p, p.bytes = padTo e.len bs ∧ p.stamp = (s.elapse dt).tb.dev ∧
        (t.ctx c).tail = (x.feed (s.elapse dt).tb.now p ends).tail ∧ (t.ctx c).ready = (x.feed (s.elapse dt).tb.now p ends).ready ∧
        (t.ctx c).sprop = (x.feed (s.elapse dt).tb.now p ends).sprop) ∧
      ∀ d, d ≠ c → t.ctx d = s.ctx d) ∧
  (∀ (dt n : Nat) (h : Held) (rest : List Held) (s : State), n < 32 → s.hostUp = true → s.role ≠ 2 → (s.cmdQ n).awaitResync = false → s.mirroring = false → s.ringNet n = false →
    (s.evtQ n).acked = [] → (s.evtQ n).hold = h :: rest → (s.ring (32 + n)).state = .running → s.host.bus.hostMem.wf = true →
    n < s.host.evtq.length → 32 + n < s.host.rings.length →
    ((s.ring (32 + n)).deviceIndex - (s.ring (32 + n)).hostIndex).toNat < 2 ^ (s.ring (32 + n)).log2.toNat →
    goesTo (.eventRecordWrite dt n true) s dt [.host] fun t =>
      let a := (s.ring (32 + n)).base.toNat + (s.ring (32 + n)).deviceIndex.toNat % 2 ^ (s.ring (32 + n)).log2.toNat * 32
      (t.evtQ n).hold = rest ∧ (t.ring (32 + n)).deviceIndex = (s.ring (32 + n)).deviceIndex + 1 ∧
      (∀ i, i < 32 → t.host.bus.hostMem.read (a + i) = (h.bytes (s.ring (32 + n)).deviceIndex).getD i 0) ∧
      ∀ x, x < a ∨ a + 32 ≤ x → t.host.bus.hostMem.read x = s.host.bus.hostMem.read x) ∧
  (∀ (dt n first : Nat) (s : State), n < s.host.evtq.length → (s.evtQ n).firstAt = some first → (s.ring (32 + n)).modTime ≠ 0 →
    first + (s.ring (32 + n)).modTime.toNat * 1000 ≤ (s.elapse dt).tb.now →
    goesTo (.moderationTimeout dt n) s dt [] fun t => (t.evtQ n).count = 0 ∧ (t.evtQ n).firstAt = none ∧
      t.host.msix = (s.raise n).host.msix) ∧
  (∀ (dt n : Nat) (s : State), n < 32 → n < s.host.evtq.length → (s.evtQ n).extend = true → (s.evtQ n).lastTick = none → s.role ≠ 2 →
    ((s.evtQ n).hold.filter fun x => !x.comp && !x.lost).length < holdPlaces →
    goesTo (.evTick dt n) s dt [] fun t => (t.evtQ n).lastTick = some (s.elapse dt).tb.dev ∧
      ∃ x, (t.evtQ n).hold = (s.evtQ n).hold ++ [x] ∧ x.code = 0x8111 ∧ x.time = (s.elapse dt).tb.dev)

/-- R342. Where 62 events wait, a further one is dropped and counted, an EV_LOST record stands for it, and no completion is lost. -/
def Obligations.HoldingQueueDropsAndCounts : Prop :=
  ∀ (s : State) (n code tag : Nat) (body : List Byte), n < 32 → n < s.host.evtq.length → 32 + n < s.host.rings.length → s.twin.st ≠ .standby → (s.evtQ n).extend = false →
    (((s.evtQ n).hold.filter fun x => !x.comp && !x.lost).length < 62 →
      ∃ x, ((s.post n code tag body).evtQ n).hold = (s.evtQ n).hold ++ [x] ∧ x.code = code ∧ x.body = padTo 16 body ∧
        (s.post n code tag body).ring (32 + n) = s.ring (32 + n)) ∧
    (62 ≤ ((s.evtQ n).hold.filter fun x => !x.comp && !x.lost).length → (s.ring (32 + n)).lost ≠ BitVec.allOnes 32 →
      ((s.post n code tag body).ring (32 + n)).lost = (s.ring (32 + n)).lost + 1 ∧
      (∃ x ∈ ((s.post n code tag body).evtQ n).hold, x.lost = true) ∧
      ∀ x ∈ (s.evtQ n).hold, x.comp = true → x.lost = false → x ∈ ((s.post n code tag body).evtQ n).hold)

/-- R352 to R354. What opens, feeds and ends a network command channel's session.
Where the rules leave a case open the clauses follow the choices of the model (log entries 2, 11 and 15). -/
def Obligations.ChannelsOpenCarryAndClose : Prop :=
  (∀ (dt ch : Nat) (hello : HelloIn) (r : Nat) (s : State), ch < s.host.chan.length → s.chanRing ch = some r → s.chanUp = true → (s.chan ch).accepts hello.port hello.srcIp = true →
    hello.bytes.length = 229 → leNat (hello.bytes.take 4) = 1 + 256 * ch → hello.sigOk = true → s.sec.entropyBad = false →
    ((s.chan ch).helloTimes.filter fun x => decide ((s.elapse dt).tb.now < x + 1000000000)).length < 10 → (s.cmdQ r).awaitResync = false →
    (s.chan ch).unacked = [] →
    goesTo (.hello dt ch hello) s dt [.tb, .host, .net] fun t =>
      (∃ x, (t.chan ch).session = some x ∧ x.id = s.host.nextSession ∧ x.port = hello.port ∧ x.peerIp = hello.srcIp ∧ x.rxSeen = []) ∧
      ∃ m, t.net.sent = m :: s.net.sent ∧ m.kind = .accept ∧ m.port = hello.port) ∧
  (∀ (dt ch : Nat) (dgram : DataIn) (r : Nat) (x : Session) (s : State), ch < s.host.chan.length → s.chanRing ch = some r → (s.chan ch).session = some x → s.chanUp = true →
    (s.chan ch).accepts dgram.port dgram.srcIp = true →
    (dgram.session = x.id → x.refuses (s.elapse dt).tb.now dgram.counter dgram.authOk = false → dgram.plain.length = 8 →
      leNat ((dgram.plain.drop 4).take 2) = 0 → (∀ u ∈ (s.chan ch).unacked, u.sentAt ≠ none) →
      goesTo (.data dt ch dgram) s dt [.host] fun t =>
        (∃ y, (t.chan ch).session = some y ∧ y.lastRx = (s.elapse dt).tb.now ∧ dgram.counter ∈ y.rxSeen) ∧
        ∀ u ∈ (t.chan ch).unacked, (u.eseq - BitVec.ofNat 32 (leNat (dgram.plain.take 4))).toNat < 2 ^ 31) ∧
    (dgram.authOk = false →
      goesTo (.data dt ch dgram) s dt [.host] fun t => (t.chan ch).dropped = (s.chan ch).dropped + 1 ∧ (t.chan ch).session = some x)) ∧
  (∀ (dt ch counter : Nat) (authOk : Bool) (x : Session) (s : State), ch < s.host.chan.length → (s.chan ch).session = some x →
    x.refuses (s.elapse dt).tb.now counter authOk = false →
    goesTo (.close dt ch counter authOk) s dt [.host] fun t => (t.chan ch).session = none) ∧
  (∀ (dt ch r : Nat) (x : Session) (s : State), ch < s.host.chan.length → s.chanRing ch = some r → (s.chan ch).session = some x → x.txCtr < 2 ^ 32 →
    (s.chan ch).unacked = [] → x.lastTx + 1000000000 ≤ (s.elapse dt).tb.now →
    goesTo (.channelResend dt ch) s dt [.host, .net] fun t =>
      (∃ m, t.net.sent = m :: s.net.sent ∧ m.kind = .chanData ∧ m.port = x.port) ∧
      ∃ y, (t.chan ch).session = some y ∧ y.txCtr = x.txCtr + 1 ∧ y.lastTx = (s.elapse dt).tb.now) ∧
  (∀ (dt ch : Nat) (x : Session) (s : State), ch < s.host.chan.length → (s.chan ch).session = some x → x.lastRx + 10000000000 ≤ (s.elapse dt).tb.now →
    goesTo (.channelSessionTimeout dt ch) s dt [.host] fun t => (t.chan ch).session = none ∧ (t.chan ch).unacked = (s.chan ch).unacked) ∧
  (∀ (dt ch r : Nat) (x : Session) (s : State), ch < s.host.chan.length → s.chanRing ch = some r → (s.chan ch).session = some x → x.txCtr < 2 ^ 32 →
    x.opened + 82800000000000 ≤ (s.elapse dt).tb.now ∨ chanCtrEnd ≤ x.txCtr →
    goesTo (.channelSessionAge dt ch) s dt [.host, .net] fun t => (t.chan ch).session = none ∧
      ∃ m, t.net.sent = m :: s.net.sent ∧ m.kind = .chanClose)

/-- R14, R333. A folio with a reserved parameter byte that is not zero completes with E_PARAM and changes nothing. That a byte which the layout
does not name is reserved is the model's reading of R14 and R240 (log entry 16). -/
def Obligations.UnnamedParameterBytesEndWithParam : Prop :=
  (∀ (dt ring : Nat) (b : Begun) (s : State), (s.cmdQ ring).begun = some b → b.wait = .run → b.folio.reservedOk = false →
    ∀ x ∈ [(0x0000, Instr.nop dt ring), (0x0011, Instr.windowUnmap dt ring), (0x0104, Instr.streamState dt ring), (0x0112, Instr.timeState dt ring),
      (0x0113, Instr.timeWrap dt ring), (0x0213, Instr.freshState dt ring), (0x0302, Instr.decState dt ring), (0x0404, Instr.headBlend dt ring),
      (0x0600, Instr.flipBegin dt ring), (0x0701, Instr.headStop dt ring), (0x0703, Instr.headState dt ring), (0x0805, Instr.encState dt ring),
      (0x0A02, Instr.storeWatch dt ring), (0x0B02, Instr.ownerSet dt ring), (0x0C01, Instr.mailTake dt ring), (0x0C22, Instr.twinState dt ring),
      (0x0D02, Instr.touchState dt ring), (0x0E03, Instr.marginState dt ring), (0x0F02, Instr.laneWatch dt ring), (0x1036, Instr.journalState dt ring)],
      b.folio.opcode = x.1 → completes x.2 s dt ring b .param 0 [] fun _ => True) ∧
  (∀ (f : Folio), (f.len = 0 ∨ f.opcode ∉ definedOps) → f.reservedOk = true)

/-- R360 to R362, R368, R414. The ends of a handover and of a CTRL restart.
Where the rules leave a case open the clauses follow the choices of the model (log entries 36 and 39). -/
def Obligations.HandoverAndRestartEnd : Prop :=
  (∀ (dt r : Nat) (b : Begun) (s : State), s.top.handover = true → s.flt.delayed = [] → s.activating = some r → (s.cmdQ r).begun = some b →
    let i := (s.sec.slot s.sec.staged).getD Image.reset
    completes (.handover dt true) s dt r b .ok i.release.toNat [.top, .sec] (fun t => t.top.handover = false ∧ t.top.change.getLsbD 1 = true ∧
      t.top.pairB = (!s.top.pairB) ∧ t.top.line = i.release.extractLsb' 24 8 ∧ t.top.build = i.release.extractLsb' 0 24 ∧
      t.sec = { s.sec with staging := false, selector := some s.sec.staged, running := i }) ∧
    completes (.handover dt false) s dt r b .fault 0 [.top, .sec] fun t => t.top.handover = false ∧ t.top.change.getLsbD 1 = true ∧
      t.top.pairB = s.top.pairB ∧ t.top.line = s.top.line ∧ t.top.build = s.top.build ∧ t.sec = { s.sec with staging := false }) ∧
  (∀ (dt : Nat) (ok : Bool) (s : State), s.top.handover = false → exec (.handover dt ok) s = .next (s.elapse dt)) ∧
  (∀ (dt : Nat) (s : State), s.twin.resyncCause1 = true → s.flt.delayed = [] → ∃ t, exec (.ctrlRestart dt) s = .next t ∧
    t.twin.resyncCause1 = false ∧ t.top.handover = false ∧
    (∀ n, (s.ring (32 + n)).enable = true → s.reports t n 0x8000 0 (resyncBody 1 n (s.ring n).seq (s.cmdQ n).lastDone (b2n (s.cmdQ n).begun.isSome))) ∧
    (∀ (r : Nat) (b : Begun), r < 48 → (s.cmdQ r).begun = some b → b.wait ≠ .mirrored → (s.cmdQ r).awaitResync = false → t.ended r ∧
      (b.wait ≠ .sync → r < s.host.evtq.length → b.recordDue .resync → t.answered r b .resync 0)) ∧
    t.comp.layer = s.comp.layer ∧ t.comp.head = s.comp.head ∧ t.net = s.net ∧ t.dec = s.dec) ∧
  (∀ (dt : Nat) (s : State), s.twin.resyncCause1 = false → exec (.ctrlRestart dt) s = .next (s.elapse dt))

/-- R33, R42, R45, R50, R381, R383, R384, R400. Requests at the store.
Where the rules leave a case open the clauses follow the choices of the model (log entries 37, 66 and 78). -/
def Obligations.StoreServesRequests : Prop :=
  (∀ (dt : Nat) (r : ReqIn) (s : State), requestOk r = true →
    let ch := s.channelAt r.addr
    let no : StoreRsp := { StoreRsp.reset with
      island := r.island, wr := r.wr, addr := r.addr, refused := true, poisoned := !r.wr, data := List.replicate r.len 0 }
    (placeOf r.addr = .undecoded ∨
        (placeOf r.addr = .store ∧ (s.store.ready = false ∨ (s.askedOf r = none ∧ s.permitsPage r.colour (r.addr / 4096) r.wr = false))) →
      goesTo (.storeRequest dt (some r) none) s dt [.store, .sec] fun t => t.store = { s.store with rsp := no :: s.store.rsp } ∧
        ∃ x, t.sec.accLog.head? = some x ∧ x.island = r.island ∧ x.colour = r.colour ∧ x.addr = r.addr ∧ x.wr = r.wr) ∧
    (s.store.ready = true → placeOf r.addr = .store → s.permitsPage r.colour (r.addr / 4096) r.wr = true → ch < s.store.ch.length →
      (r.len = 256 → r.wr = true →
        (r.poisoned = true → goesTo (.storeRequest dt (some r) none) s dt [.store] fun t =>
          t.store.mem = s.store.mem ∧ t.store.damaged = s.store.damaged ∧ (t.dram ch).failedWrites = sat 32 ((s.dram ch).failedWrites + 1) ∧
          (t.dram ch).queue = (s.dram ch).queue ∧ onlyAt s.store.ch t.store.ch ch) ∧
        (r.poisoned = false → crc32c (padTo 256 r.data) ≠ r.crc → s.askedFor r < 3 → goesTo (.storeRequest dt (some r) none) s dt [.store] fun t =>
          t.store.mem = s.store.mem ∧ t.store.damaged = s.store.damaged ∧ t.store.ch = s.store.ch ∧ t.askedFor r = s.askedFor r + 1 ∧
          ∃ a, t.store.rsp = a :: s.store.rsp ∧ a.again = true ∧ a.island = r.island ∧ a.addr = r.addr)) ∧
      (r.len = 256 → (r.wr = false ∨ (r.poisoned = false ∧ crc32c (padTo 256 r.data) = r.crc)) →
        goesTo (.storeRequest dt (some r) none) s dt [.store, .fab] fun t =>
          t.store.mem = s.store.mem ∧ onlyAt s.store.ch t.store.ch ch ∧ ∃ q, (t.dram ch).queue = (s.dram ch).queue ++ [q] ∧ q.addr = r.addr ∧
            q.wr = r.wr ∧ q.data = r.data ∧ q.cls = r.cls ∧ q.crc = r.crc ∧ q.at_ = (s.elapse dt).tb.now) ∧
      (r.len < 256 → s.store.mem.wf = true → (s.store.land r.addr r.len).damagedAt (r.addr / 256 * 256) = false →
        (r.wr = true → goesTo (.storeRequest dt (some r) none) s dt [.store] fun t => t.store.mem.readN r.addr r.len = padTo r.len r.data ∧
          ∀ a, a < r.addr ∨ r.addr + r.len ≤ a → t.store.mem.read a = (s.store.land r.addr r.len).mem.read a) ∧
        (r.wr = false → goesTo (.storeRequest dt (some r) none) s dt [.store] fun t => t.store.mem = (s.store.land r.addr r.len).mem ∧
          ∃ a, t.store.rsp = a :: s.store.rsp ∧ a.data = (s.store.land r.addr r.len).mem.readN r.addr r.len ∧ a.poisoned = false)))) ∧
  (∀ (c i : Nat) (q : StoreReq) (s : State), s.nextRequest c = some (i, q) → (s.dram c).queue[i]? = some q ∧
    (∀ (j : Nat) (p : StoreReq), j < i → (s.dram c).queue[j]? = some p → p.addr ≠ q.addr) ∧ ∀ x ∈ s.servables c [] (s.dram c).queue, q.rank ≤ x.2.rank) ∧
  (∀ (dt c i : Nat) (q : StoreReq) (s : State), c < 8 → c < s.store.ch.length → s.store.ready = true →
    ((s.elapse dt).promote.forcedRfm c).nextRequest c = some (i, q) →
    (q.wr = false → goesTo (.storeRequest dt none (some c)) s dt [.store] fun t => t.store.mem = s.store.mem ∧
      (t.dram c).queue.length + 1 = (s.dram c).queue.length ∧ t.store.rsp = { StoreRsp.reset with
        island := q.island, addr := q.addr, data := if q.landed then q.data else s.store.mem.readN q.addr 256
        crc := if q.landed then q.crc else s.store.checkAt q.addr, poisoned := if q.landed then q.poisoned else s.store.damagedAt q.addr } :: s.store.rsp) ∧
    (q.wr = true → q.landed = true → goesTo (.storeRequest dt none (some c)) s dt [.store] fun t => t.store.mem = s.store.mem ∧
      (t.dram c).queue.length + 1 = (s.dram c).queue.length) ∧
    (q.wr = true → q.landed = false → s.store.mem.wf = true → goesTo (.storeRequest dt none (some c)) s dt [.store] fun t => t.store.mem.readN q.addr 256 = padTo 256 q.data ∧
      (∀ a, a < q.addr ∨ q.addr + 256 ≤ a → t.store.mem.read a = s.store.mem.read a) ∧ (t.dram c).writeQ = (s.dram c).writeQ ++ [q.addr] ∧
      (t.dram c).queue.length + 1 = (s.dram c).queue.length ∧ t.store.damagedAt q.addr = false)) ∧
  (∀ (dt c blocks : Nat) (s : State), c < 8 → c < s.store.ch.length → s.store.switching = none →
    let x := s.dram c
    ((x.draining = true ∨ x.readWaits = false) → goesTo (.writeQueueDrain dt c blocks) s dt [.store] fun t => t.store.mem = s.store.mem ∧
      (t.dram c).writeQ = x.writeQ.drop (min blocks (x.writeQ.length - 32)) ∧ (t.dram c).queue = x.queue) ∧
    (x.draining = false → x.readWaits = true → exec (.writeQueueDrain dt c blocks) s = .next (s.elapse dt)))

/-- R386, R387, R391, R392, R394, R396, R398, R402, R404, R28, R535. Refresh, points, re-reads and retirement.
Where the rules leave a case open the clauses follow the choices of the model (log entries 37, 41 and 42). -/
def Obligations.StoreRefreshesSwitchesAndRetires : Prop :=
  (let body (s : State) (dt c kind value addr n point : Nat) : List Byte := leBytes 1 kind ++ leBytes 1 (if kind = 0 then 0xFF else c) ++ leBytes 1 point ++
      leBytes 1 value ++ leBytes 4 (sat 32 (((s.dram (c % 8)).ev.getD kind EvKind.reset).count + 1)) ++ leBytes 8 ((s.elapse dt).addrFor n addr)
   (∀ (dt c : Nat) (s : State), c < 8 → c < s.store.ch.length → s.store.ready = true → s.store.switching = none →
    let x := (s.elapse dt).promote.dram c
    ((s.dram c).debt < 7 → x.busy = true → goesTo (.refreshDue dt c) s dt [.store] fun t => (t.dram c).debt = (s.dram c).debt + 1 ∧
      (t.dram c).catchUps = (s.dram c).catchUps ∧ t.store.mem = s.store.mem) ∧
    ((s.dram c).debt = 7 → goesTo (.refreshDue dt c) s dt [.store] fun t => (t.dram c).debt = 4 ∧
      (t.dram c).catchUps = sat 32 ((s.dram c).catchUps + 1) ∧ t.store.mem = s.store.mem) ∧
    (x.queue = [] → -8 < (s.dram c).debt → (s.dram c).debt < 7 → goesTo (.refreshDue dt c) s dt [.store] fun t => (t.dram c).debt = (s.dram c).debt - 1)) ∧
   (∀ (dt c factor : Nat) (tooHot : Bool) (s : State), c < 8 → c < s.store.ch.length → factor = 1 ∨ factor = 2 ∨ factor = 4 →
    goesTo (.mr4Read dt c factor tooHot) s dt [.store, .pwr, .top, .tb] fun t => (t.dram c).mr4 = factor ∧ (t.dram c).tooHot = tooHot ∧
      ((s.dram c).mr4 ≠ factor → ∀ n ∈ watchers s.store.watch 3, s.reports t n 0x8A00 0 (body s dt c 3 factor 0 n s.store.point)) ∧
      (tooHot = true → s.pwr.dieHot = false → t.pwr.dieHot = true ∧ t.top.faults.getLsbD 12 = true ∧ t.top.change.getLsbD 5 = true)) ∧
   (∀ (dt target : Nat) (s : State), target < 3 → 0 < s.store.ch.length →
    (s.store.switching = some target ∨ (s.store.switching = none ∧ s.pointAsked = some target ∧ (s.elapse dt).maySwitch = true)) →
    goesTo (.pointSwitch dt target) s dt [.store] fun t => t.store.point = target ∧ t.store.switching = none ∧
      t.store.switches = sat 32 (s.store.switches + 1) ∧ t.store.mem = s.store.mem ∧
      (∀ (slot : Nat) (b : Begun) (pt : BitVec 64), (s.cmdQ slot).begun = some b → b.wait = .store pt → (t.cmdQ slot).begun = some { b with wait := .run }) ∧
      ∀ n ∈ watchers s.store.watch 0, s.reports t n 0x8A00 0 (body s dt 0 0 0 0 n target)) ∧
   (∀ (dt c ca : Nat) (s : State), c < 8 → c < s.store.ch.length → (s.dram c).due.contains (bankRow ca) = true →
    ((s.dram c).retired.length < 256 → goesTo (.bankRowRetire dt c ca) s dt [.store] fun t => (t.dram c).retired = bankRow ca :: (s.dram c).retired ∧
      (t.dram c).due.contains (bankRow ca) = false ∧ t.store.mem = s.store.mem ∧
      ∀ n ∈ watchers s.store.watch 2, s.reports t n 0x8A00 0 (body s dt c 2 0 (rowAddr s.store.grain c (bankRow ca)) n s.store.point)) ∧
    (256 ≤ (s.dram c).retired.length → goesTo (.bankRowRetire dt c ca) s dt [.store, .top] fun t => t.top.faults.getLsbD 5 = true ∧
      (t.dram c).retired = (s.dram c).retired)) ∧
   ∀ (dt rcv addr attempt : Nat) (s : State), placeOf addr = .store → addr % 256 = 0 → 1 ≤ attempt → attempt ≤ 3 → s.store.ready = true → rcv < 35 →
    let c := s.channelAt addr
    c < s.store.ch.length → (s.store.land addr 256).damagedAt addr = false →
    goesTo (.storeReread dt rcv addr attempt true true) s dt [.store, .fab] (fun t => (t.dram c).rereads = sat 32 ((s.dram c).rereads + 1) ∧
      (t.crossing islStore rcv).resends = sat 32 ((s.crossing islStore rcv).resends + attempt) ∧ t.store.mem = (s.store.land addr 256).mem ∧
      ∃ q rest, t.store.rsp = q :: rest ∧ q.island = rcv ∧ q.addr = addr ∧ q.data = (s.store.land addr 256).mem.readN addr 256 ∧ q.poisoned = false) ∧
    (attempt < 3 → goesTo (.storeReread dt rcv addr attempt true false) s dt [.store] fun t => (t.dram c).rereads = sat 32 ((s.dram c).rereads + 1) ∧
      t.store.mem = (s.store.land addr 256).mem) ∧
    (attempt < 3 → s.fab.isl.length = 43 → (s.island islStore).isolated = false → 1 < s.flt.src.length →
      goesTo (.storeReread dt rcv addr attempt false false) s dt [.store, .flt, .top] fun t =>
        (t.flt.src.getD 1 FltSource.reset).events = sat 32 ((s.flt.src.getD 1 FltSource.reset).events + 1) ∧ t.store.mem = (s.store.land addr 256).mem) ∧
    (attempt = 3 → c < 8 → (∀ f ∈ s.flt.inst, f.is 0 islStore rcv 0 = false) → (s.flt.src.getD 0 FltSource.reset).fixed = false →
      2 ≤ (s.flt.src.getD 0 FltSource.reset).n → goesTo (.storeReread dt rcv addr attempt true false) s dt [.store, .fab, .flt, .top] fun t =>
      (t.dram c).poisonedDel = sat 32 ((s.dram c).poisonedDel + 1) ∧ (∃ q rest, t.store.rsp = q :: rest ∧ q.addr = addr ∧ q.poisoned = true) ∧
      ∀ n ∈ watchers s.store.watch 1, s.reports t n 0x8A00 0 (body s dt c 1 0 addr n s.store.point))) ∧
  (∀ (dt : Nat) (s : State), goesTo (.storeGo dt) s dt [.store] fun t => t.store = if s.store.shadow.valid ∧ s.store.switching.isNone ∧ s.store.ready then
      { s.store with switching := some s.store.shadow.point.toNat } else s.store) ∧
  (∀ (dt p : Nat) (s : State), (s.elapse dt).noteDemand.pointDown = some p → s.store.pinned = none → s.store.switching = none → (s.elapse dt).maySwitch = true →
    goesTo (.pointDownTimeout dt) s dt [.store] fun t => t.store.point = p ∧ t.store.switches = sat 32 (s.store.switches + 1)) ∧
  (∀ (dt ring : Nat) (b : Begun) (s : State), s.hasFolio ring 0x0A00 b →
    let c := s.fctx ring b
    let u := c.u
    let pin := u 0x10 1
    pin < 4 → u 0x11 3 = 0 → 1 ≤ u 0x14 2 → u 0x14 2 ≤ 1000 → 1 ≤ u 0x16 2 → u 0x16 2 ≤ 10000 → 1 ≤ u 0x18 4 → u 0x18 4 ≤ 100000 →
    (s.lifecycle ≠ .develop → completes (.storeTune dt ring) s dt ring b .lifecycle 0 [] fun _ => True) ∧
    (s.lifecycle = .develop → pin = 0 → completes (.storeTune dt ring) s dt ring b .ok 0 [.store] fun t =>
      t.store = { s.store with pinned := none, age1 := u 0x14 2, age2 := u 0x16 2, age3 := u 0x18 4 }) ∧
    (s.lifecycle = .develop → pin ≠ 0 →
      (fracLe s.demand (pointBudget (pin - 1)) = false → completes (.storeTune dt ring) s dt ring b .capacity 0 [] fun _ => True) ∧
      (fracLe s.demand (pointBudget (pin - 1)) = true → s.store.point = pin - 1 → completes (.storeTune dt ring) s dt ring b .ok 0 [.store] fun t =>
        t.store = { s.store with pinned := some (pin - 1), age1 := u 0x14 2, age2 := u 0x16 2, age3 := u 0x18 4 }) ∧
      (fracLe s.demand (pointBudget (pin - 1)) = true → s.store.point ≠ pin - 1 →
        waits (.storeTune dt ring) s dt ring b (.store (BitVec.ofNat 64 (pin - 1))) [] fun t => t.store = s.store)))

/-- R411, R414, R415, R417, R418, R420 to R423, R427, R407. Firmware, life cycle and provisioning.
Where the rules leave a case open the clauses follow the choices of the model (log entries 2, 38 and 39). -/
def Obligations.ImagesLifeCycleAndProvisioning : Prop :=
  (∀ (dt ring : Nat) (b : Begun) (s : State), s.hasFolio ring 0x0B04 b →
    let c := s.fctx ring b
    let w := c.u 0x10 1
    let off := c.u 0x14 4
    let h := s.winRead w off 256
    let n := 0x1400 + leNat ((h.drop 0x10).take 4)
    w < 8 →
    (c.colour ≠ s.admin → completes (.imageStage dt ring) s dt ring b .colour 0 [] fun _ => True) ∧
    (c.colour = s.admin → s.winOk w c.colour = true → s.winSpan w off 0x1400 false = true →
      (s.sec.staging = true → completes (.imageStage dt ring) s dt ring b .busy 0 [] fun _ => True) ∧
      (s.sec.staging = false → s.winDamaged w off 0x1400 = false → s.winSpan w off n false = true → s.winDamaged w off n = false →
        waits (.imageStage dt ring) s dt ring b (.image h) [.sec] fun t => t.sec = { s.sec with staging := true }))) ∧
  (∀ (dt ring : Nat) (b : Begun) (h : List Byte) (x : ImageIn) (s : State), s.waitsFor ring b (.image h) → (s.island islSec).isolated = false →
    let i := imageOf h x.zerosOk x.sigsOk x.digestOk x.gcmOk
    (s.imageOk i = true → completes (.folioWaitComplete dt ring (.image x)) s dt ring b .ok 0 [.sec] fun t =>
      t.sec.slot s.sec.staged = some i ∧ t.sec.slot (!s.sec.staged) = s.sec.slot (!s.sec.staged) ∧ t.sec.staging = false ∧ t.sec.selector = s.sec.selector) ∧
    (∀ k, i.failing s.sec.fuses s.lifecycle = some k →
      completes (.folioWaitComplete dt ring (.image x)) s dt ring b (if k = 2 ∨ k = 3 ∨ k = 7 then .signature else .param) 0 [.sec] fun t =>
        t.sec = { s.sec with staging := false })) ∧
  (∀ (dt ring : Nat) (b : Begun) (s : State), s.hasFolio ring 0x0B05 b → (s.fctx ring b).colour = s.admin →
    (s.sec.staging = true → completes (.imageActivate dt ring) s dt ring b .busy 0 [] fun _ => True) ∧
    (s.sec.staging = false → waits (.imageActivate dt ring) s dt ring b .activate [.sec] fun t => t.sec = { s.sec with staging := true })) ∧
  (∀ (dt ring : Nat) (b : Begun) (i : Image) (s : State), s.waitsFor ring b .activate → (s.island islSec).isolated = false → s.sec.slot s.sec.staged = some i →
    (s.imageOk i = false → completes (.folioWaitComplete dt ring .done) s dt ring b .fault 0 [.sec] fun t => t.sec = { s.sec with staging := false }) ∧
    (s.imageOk i = true → s.urgentOpen = false → goesTo (.folioWaitComplete dt ring .done) s dt [.sec, .top] fun t => t.top.handover = true ∧
      t.top.change.getLsbD 1 = true ∧ t.sec.selector = s.sec.selector ∧ (t.cmdQ ring).begun = some b)) ∧
  (∀ (dt ring : Nat) (b : Begun) (s : State), s.hasFolio ring 0x0B06 b → (s.fctx ring b).colour = s.admin → s.sec.running.secVersion ≤ 128 →
    completes (.imageCommit dt ring) s dt ring b .ok 0 [.sec] fun t =>
      t.sec.fuses.imageCounter = max s.sec.fuses.imageCounter s.sec.running.secVersion ∧
      ∀ k, k < 4 → t.sec.fuses.rootRevoked.getLsbD k =
        (s.sec.fuses.rootRevoked.getLsbD k || (s.sec.running.flags.getLsbD 0 && decide (k < s.sec.running.keyId)))) ∧
  (∀ (dt ring : Nat) (b : Begun) (sigOk : Bool) (s : State), s.hasFolio ring 0x0B03 b →
    let c := s.fctx ring b
    let w := c.u 0x10 1
    let off := c.u 0x14 4
    let t₀ := s.winRead w off 0x100
    let u (o n : Nat) := leNat ((t₀.drop o).take n)
    w < 8 → c.colour = s.admin → s.winOk w c.colour = true → s.winSpan w off 0x1373 false = true → s.winDamaged w off 0x1373 = false →
    u 0 2 = 1 → u 2 1 = 2 → u 3 1 = 0 → u 4 12 = 0 → u 0x81 127 = 0 → s.lifecycle = .develop → s.owner.isSome = true →
    ((t₀.drop 0x10).take 16 = padTo 16 s.deviceId → s.ephOf s.admin = some ((t₀.drop 0x20).take 97) →
      completes (.lifecycle dt ring sigOk) s dt ring b (if sigOk then .ok else .signature) 0 [.sec] fun t =>
        t.sec = if sigOk then { s.sec with transition := some .field } else s.sec) ∧
    ((t₀.drop 0x10).take 16 ≠ padTo 16 s.deviceId → completes (.lifecycle dt ring sigOk) s dt ring b .state 0 [] fun _ => True)) ∧
  (∀ (dt ring : Nat) (b : Begun) (twin : List Byte) (s : State), s.hasFolio ring 0x0B00 b → s.store.mem.wf = true →
    let c := s.fctx ring b
    let w := c.u 0x10 1
    let off := c.u 0x14 4
    w < 8 → c.u 0x11 1 = 0 → c.u 0x12 2 = 0 → off % 256 = 0 → off + 0x1E93 ≤ (s.window w).size.toNat → s.lifecycle ≠ .void → s.winOk w c.colour = true →
    s.winSpan w off 0x1E93 true = true →
    (s.sec.entropyBad = true → completes (.attest dt ring twin) s dt ring b .fault 0 [] fun _ => True) ∧
    (s.sec.entropyBad = false → c.colour < s.sec.provKey.length → completes (.attest dt ring twin) s dt ring b .ok 0 [.sec, .store, .tb] fun t =>
      t.sec.provNo = s.sec.provNo + 1 ∧ (∀ k, k ≠ c.colour → t.sec.provKey[k]? = s.sec.provKey[k]?) ∧ t.tb.freeCtr = s.tb.freeCtr + 48 ∧
      s.blockWritten t w off (((s.elapse dt).drawProv c.colour).report (c.folio.bytesAt 0x18 32) ((t.ephOf c.colour).getD [])))) ∧
  (∀ (dt ring : Nat) (b : Begun) (s : State), s.hasFolio ring 0x0B02 b →
    let c := s.fctx ring b
    let w := c.u 0x10 1
    let keys := s.winRead w (c.u 0x14 4) 2689
    w < 8 → s.lifecycle = .develop → s.winOk w c.colour = true → s.winSpan w (c.u 0x14 4) 2689 false = true →
    (s.sec.fuses.ownerDigest.isSome = true → completes (.ownerSet dt ring) s dt ring b .state 0 [] fun _ => True) ∧
    (s.sec.fuses.ownerDigest = none → s.winDamaged w (c.u 0x14 4) 2689 = false → completes (.ownerSet dt ring) s dt ring b .ok 0 [.sec] fun t =>
      t.sec.fuses = { s.sec.fuses with ownerDigest := some (Config.sha384 keys) } ∧ t.sec.record.ownerE = keys.take 97 ∧
      t.sec.record.ownerM = keys.drop 97 ∧ t.sec.record.gen = s.sec.record.gen + 1)) ∧
  (∀ (dt ring : Nat) (b : Begun) (s : State), s.hasFolio ring 0x0B01 b →
    let c := s.fctx ring b
    let w := c.u 0x10 1
    let n := c.u 0x18 4
    let head := s.winRead w (c.u 0x14 4) 0x110
    (s.owner = none → completes (.provision dt ring) s dt ring b .state 0 [] fun _ => True) ∧
    (s.owner.isSome = true → w < 8 → c.u 0x14 4 + n ≤ (s.window w).size.toNat → n = 0x110 + bundleU head 0xF0 4 + 4723 → s.winOk w c.colour = true →
      s.winSpan w (c.u 0x14 4) n false = true → s.winDamaged w (c.u 0x14 4) n = false →
      waits (.provision dt ring) s dt ring b (.provision head) [] fun t => t.sec = s.sec)) ∧
  (∀ (dt ring : Nat) (b : Begun) (head : List Byte) (sigOk keyOk : Bool) (body : List Byte) (s : State), s.waitsFor ring b (.provision head) → (s.island islSec).isolated = false →
    let r := s.applyBundle (s.fctx ring b).colour ((head.drop 8).take 16) head sigOk keyOk body
    completes (.folioWaitComplete dt ring (.bundle sigOk keyOk body none)) s dt ring b r.1 (if r.1 = .ok then 0xFFFF else 0) [.sec] fun t => t.sec = r.2.sec) ∧
  (∀ (colour : Nat) (target head body : List Byte) (sigOk keyOk : Bool) (s : State),
    let r := s.applyBundle colour target head sigOk keyOk body
    (s.owner = none → r.1 = .state) ∧ (s.owner.isSome = true → sigOk = false → r.1 = .signature) ∧ (r.1 ≠ .ok → r.2 = s) ∧
    (r.1 = .ok → colour < s.sec.provKey.length → r.2.sec.provKey.getD colour none = none) ∧
    (r.1 = .ok → bitOf (bundleU head 4 4) 0 = true → r.2.sec.fuses.recordCounter = s.sec.record.gen + 1))

/-- R428 to R431, R434 to R437, R406, R416, R544. The access table, the debug master and entropy.
Where the rules leave a case open the clauses follow the choices of the model (log entries 37, 59 and 78). -/
def Obligations.TheAccessTableAndTheDebugMaster : Prop :=
  (∀ (colour page : Nat) (wr : Bool) (s : State),
    (1 ≤ colour → colour ≤ 62 → (s.permitsPage colour page wr = true ↔ ∃ e ∈ s.sec.act, e.2.grants colour page wr = true)) ∧
    ((∀ e ∈ s.sec.act, e.2.colour ≠ 63) → s.sec.debugScope ≤ 1 → s.permitsPage 63 page true = false)) ∧
  (∀ (dt : Nat) (s : State), (s.island islSec).isolated = false → s.sec.waitingCommit = none →
    let i := s.sec.actIndex.toNat
    let x := ActEntry.ofWords s.sec.actWord0 s.sec.actWord1
    let old := s.actAt i
    let refusal := s.commitResult i x
    (x.colour = 63 ∨ (x.exec_ = true ∧ x.colour ≠ 0) ∨ (x.valid = true ∧ x.inStore = false) → refusal = 1) ∧
    (refusal ≠ 0 → goesTo (.actCommit dt) s dt [.sec, .flt, .top] fun t => t.sec.act = s.sec.act ∧ t.sec.epoch = s.sec.epoch ∧
      t.sec.actResult = BitVec.ofNat 2 refusal) ∧
    (refusal = 0 → old.isRemoval x = false → goesTo (.actCommit dt) s dt [.sec] fun t => t.actAt i = x ∧ (∀ k, k ≠ i → t.actAt k = s.actAt k) ∧
      t.sec.epoch = s.sec.epoch ∧ t.sec.actResult = 0 ∧ t.sec.dirty = s.sec.dirty) ∧
    (refusal = 0 → old.isRemoval x = true → s.removing old.colour.toNat = false →
      goesTo (.actCommit dt) s dt [.sec] fun t => t.actAt i = x ∧ t.sec.epoch = s.sec.epoch + 1 ∧ t.sec.actResult = 0 ∧
        (s.inFlight old.colour.toNat s.sec.epoch = false → t.sec.dirty = s.sec.dirty ++ [(old.base.toNat, old.last.toNat, old.colour.toNat)] ∧
          t.sec.actBusy = s.sec.actBusy) ∧
        (s.inFlight old.colour.toNat s.sec.epoch = true → t.sec.dirty = s.sec.dirty ∧ t.sec.actBusy = true ∧ t.removing old.colour.toNat = true)) ∧
    (refusal = 0 → old.isRemoval x = true → s.removing old.colour.toNat = true →
      goesTo (.actCommit dt) s dt [.sec] fun t => t.sec = { s.sec with waitingCommit := some (i, x) })) ∧
  (∀ (dt colour : Nat) (r : Removal) (s : State), s.sec.removals.find? (fun x => x.colour = colour) = some r → s.sec.waitingCommit = none →
    (s.inFlight colour r.epoch = true → exec (.removalDrain dt colour) s = .next (s.elapse dt)) ∧
    (s.inFlight colour r.epoch = false → goesTo (.removalDrain dt colour) s dt [.sec] fun t => t.removing colour = false ∧
      t.sec.dirty = s.sec.dirty ++ [(r.first, r.last, r.colour)] ∧ t.sec.actBusy = !t.sec.removals.isEmpty) ∧
    (∀ i, s.inFlight colour r.epoch = true → r.at_ + 100000 ≤ (s.elapse dt).tb.now → s.lateIslands colour r.epoch = [i] → 3 ≤ i → i ≤ 10 →
      i < s.fab.isl.length → goesTo (.removalAccessTimeout dt colour) s dt [.sec, .store, .flt, .fab, .dec, .top] fun t =>
        (t.island i).isolated = true ∧ (∀ c ∈ t.store.ch, ∀ q ∈ c.queue, q.island ≠ i) ∧ t.removing colour = false) ∧
    ((s.elapse dt).tb.now < r.at_ + 100000 → exec (.removalAccessTimeout dt colour) s = .next (s.elapse dt))) ∧
  (∀ (dt scope : Nat) (tokenOk : Bool) (s : State),
    let grant := s.debugGrant scope tokenOk
    let due := s.sec.watch.filter fun (w : SecWatch) => w.debugDue (s.elapse dt).tb.now
    (s.lifecycle = .develop → s.sec.fuses.ownerDigest = none → grant = 2) ∧ (s.lifecycle = .field → tokenOk = false → grant = 0) ∧
    (s.lifecycle = .field → grant ≤ 1) ∧ (s.lifecycle = .return → grant = 3) ∧
    (grant = 0 → exec (.debugSession dt (.openSession scope tokenOk)) s = .next (s.elapse dt)) ∧
    (grant ≠ 0 → goesTo (.debugSession dt (.openSession scope tokenOk)) s dt [.sec] fun t => t.sec.debugScope = grant ∧ t.sec.debugSeen = true ∧
      ∀ w ∈ due, s.reports t w.ring 0x8B01 0 (leBytes 1 grant ++ leBytes 1 s.lifecycle.code)) ∧
    (s.sec.debugScope ≠ 0 → goesTo (.debugSession dt .closeSession) s dt [.sec] fun t => t.sec.debugScope = 0 ∧ t.sec.debugSeen = s.sec.debugSeen ∧
      ∀ w ∈ due, s.reports t w.ring 0x8B01 0 (leBytes 1 0 ++ leBytes 1 s.lifecycle.code))) ∧
  (∀ (dt : Nat) (s : State), (s.island islSec).isolated = false → (s.flt.src.getD 11 FltSource.reset).fixed = true →
    goesTo (.entropyFail dt) s dt [.sec, .flt, .top] fun t => t.sec = { s.sec with entropyBad := true } ∧ t.top.faults.getLsbD 10 = true) ∧
  (∀ (dt : Nat) (g : BitVec 32) (s : State), goesTo (.clkForcedWrite dt g) s dt [.pwr] fun t => t.pwr = if g.getLsbD 0 then { s.pwr with forced := false } else s.pwr)

/-- R439 to R441, R444 to R451. The mailboxes.
Where the rules leave a case open the clauses follow the choices of the model (log entry 32). -/
def Obligations.MailboxesLockSendAndTake : Prop :=
  (∀ (dt n a : Nat) (s : State), s.boxUp n = true → n < s.mail.host.length → 1 ≤ a → a ≤ 15 →
    let b := s.hostBox n
    (b.inFull = true → goesTo (.mbTake dt n) s dt [.host, .mail] fun t => t.host.bus.reply = leBytes 4 1 ∧
      t.hostBox n = { b with inFull := false, fwLast := 1 } ∧ onlyAt s.mail.host t.mail.host n) ∧
    (b.inFull = false → goesTo (.mbTake dt n) s dt [.host] fun t => t.host.bus.reply = leBytes 4 0) ∧
    (b.owner = 0 → goesTo (.mblClaim dt n a) s dt [.host, .mail] fun t => t.host.bus.reply = leBytes 4 0 ∧
      t.hostBox n = { b with owner := BitVec.ofNat 8 a } ∧ onlyAt s.mail.host t.mail.host n) ∧
    (b.owner.toNat = a → goesTo (.mblClaim dt n a) s dt [.host] fun t => t.host.bus.reply = leBytes 4 0) ∧
    (b.owner ≠ 0 → b.owner.toNat ≠ a → goesTo (.mblClaim dt n a) s dt [.host] fun t => t.host.bus.reply = leBytes 4 b.owner.toNat) ∧
    (b.owner.toNat = a → b.outFull = false →
      goesTo (.mblRelease dt n a) s dt [.mail] (fun t => t.hostBox n = { b with owner := 0 } ∧ onlyAt s.mail.host t.mail.host n) ∧
      goesTo (.mblGo dt n a) s dt [.mail] fun t => t.hostBox n = { b with outFull := true, outGen := s.mail.hostGen, outLast := 0 } ∧
        onlyAt s.mail.host t.mail.host n) ∧
    ((b.owner.toNat ≠ a ∨ b.outFull = true) → exec (.mblRelease dt n a) s = .next (s.elapse dt) ∧ exec (.mblGo dt n a) s = .next (s.elapse dt))) ∧
  (∀ (dt n : Nat) (s : State), n < 4 → n < s.mail.host.length → s.top.ready = true → s.twin.resyncCause1 = false → (s.hostBox n).outFull = true →
    let b := s.hostBox n
    (b.inFull = false → b.replies = [] → goesTo (.hostMailService dt n) s dt [.mail] fun t => t.hostBox n = { b with
      outFull := false, owner := 0, outLast := 1, inFull := true, inWords := (s.elapse dt).mailReply b.outWords } ∧ onlyAt s.mail.host t.mail.host n) ∧
    (b.inFull = true → b.replies.length < 4 → goesTo (.hostMailService dt n) s dt [.mail] fun t => t.hostBox n = { b with
      outFull := false, owner := 0, outLast := 1, replies := b.replies ++ [(s.elapse dt).mailReply b.outWords] }) ∧
    (b.inFull = true → 4 ≤ b.replies.length → goesTo (.hostMailService dt n) s dt [.mail, .twin] fun t => t.hostBox n = { b with
      outFull := false, owner := 0, outLast := 1 } ∧ t.twin = { s.twin with unanswered := sat 32 (s.twin.unanswered + 1) })) ∧
  (∀ (dt ring : Nat) (b : Begun) (s : State), s.hasFolio ring 0x0C00 b →
    let c := s.fctx ring b
    let m := c.u 0x10 1
    8 ≤ m → m < 16 → m - 4 < s.mail.far.length → c.colour = s.admin →
    (s.farContact m = true → (s.farBox m).owner = 0 → (s.farBox m).full = false → waits (.mailSend dt ring) s dt ring b (.mail m) [.mail] fun t =>
      t.farBox m = { s.farBox m with owner := 0x20 + c.ring, full := true, out := c.folio.bytesAt 0x20 64, delivered := false } ∧
      onlyAt s.mail.far t.mail.far (m - 4)) ∧
    (s.farContact m = true → (s.farBox m).full = true → completes (.mailSend dt ring) s dt ring b .busy (s.farBox m).owner [] fun _ => True) ∧
    (s.farExists m = true → s.farContact m = false → completes (.mailSend dt ring) s dt ring b .unreachable 0 [] fun _ => True) ∧
    (m - 8 = s.top.gatherId.toNat → completes (.mailSend dt ring) s dt ring b .state 0 [] fun _ => True)) ∧
  (∀ (dt ring : Nat) (b : Begun) (m : Nat) (o : WaitIn) (s : State), s.waitsFor ring b (.mail m) → s.farContact m = true → m - 4 < s.mail.far.length →
    completes (.folioWaitComplete dt ring o) s dt ring b .ok 0 [.mail] fun t => t.farBox m = { s.farBox m with delivered := true }) ∧
  (∀ (dt ring : Nat) (b : Begun) (m : Nat) (s : State), (s.cmdQ ring).begun = some b → b.wait = .mail m → (s.elapse dt).contactGone m = true →
    completes (.mailContactTimeout dt ring) s dt ring b .unreachable 1 [] fun t => t.mail = s.mail) ∧
  (∀ (dt m : Nat) (read : Bool) (s : State), s.farContact m = true → m - 4 < s.mail.far.length → (s.farBox m).full = true → s.mailWaiter m = none →
    goesTo (.mailOutcome dt m read) s dt [.mail] fun t => t.farBox m = { s.farBox m with full := false, owner := 0, out := [], delivered := false } ∧
      ∀ n, (s.farBox m).watch = some n → s.reports t n 0x8C00 0 (leBytes 1 m ++ leBytes 1 (if read then 1 else 2) ++ leBytes 1 (s.farBox m).owner ++
        leBytes 1 0 ++ leBytes 2 (s.farBox m).farGen.toNat)) ∧
  (∀ (dt m : Nat) (words : List Byte) (owner : Nat) (s : State), s.farContact m = true → 8 ≤ m → m - 4 < s.mail.far.length → (s.farBox m).inbox = none →
    goesTo (.mailDeliver dt m words owner) s dt [.mail] fun t => t.farBox m = { s.farBox m with
      inbox := some { words := padTo 64 words, owner := owner, gen := (s.farBox m).farGen, at_ := (s.elapse dt).tb.dev } } ∧
      ∀ n, (s.farBox m).watch = some n → s.reports t n 0x8C00 0 (leBytes 1 m ++ leBytes 1 0 ++ leBytes 1 owner ++ leBytes 1 0 ++
        leBytes 2 (s.farBox m).farGen.toNat)) ∧
  (∀ (dt ring : Nat) (b : Begun) (s : State), s.hasFolio ring 0x0C01 b → s.store.mem.wf = true →
    let c := s.fctx ring b
    let m := c.u 0x10 1
    let w := c.u 0x12 1
    let off := c.u 0x14 4
    8 ≤ m → m < 16 → m - 4 < s.mail.far.length → s.farExists m = true → w < 8 → off % 256 = 0 → c.colour = s.admin → s.winOk w c.colour = true →
    s.winSpan w off 256 true = true →
    (∀ x, (s.farBox m).inbox = some x → completes (.mailTake dt ring) s dt ring b .ok 0 [.mail, .store] fun t =>
      t.farBox m = { s.farBox m with inbox := none, given := true :: (s.farBox m).given } ∧
      s.blockWritten t w off (layout 256 [(0x00, padTo 64 x.words), (0x40, leBytes 1 x.owner), (0x42, leBytes 2 x.gen.toNat),
        (0x44, leBytes 2 (s.farBox m).farGen.toNat), (0x48, leBytes 8 x.at_)])) ∧
    ((s.farBox m).inbox = none → completes (.mailTake dt ring) s dt ring b .state 0 [] fun _ => True))

/-- R453 to R457, R459, R461 to R463, R465, R148, R149. The gathering.
Where the rules leave a case open the clauses follow the choices of the model (log entries 2, 33 and 79). -/
def Obligations.TheGatheringHoldsTogether : Prop :=
  (∀ (s : State) (link : Nat) (peer : PeerIn), s.peerAccepted link peer = true → peer.chainOk = true ∧ peer.lifecycle = s.lifecycle.code ∧
    (s.lifecycle = .develop ∨ s.lifecycle = .field) ∧ s.owner.isSome = true ∧ (link = 2 → peer.gatherId = s.top.gatherId.toNat)) ∧
  (∀ (dt link : Nat) (peer : PeerIn) (s : State), link < 3 → link < s.gath.link.length → (s.spineLink link).st ≠ 2 → s.pwr.booted = true → s.twin.linkIdle = false →
    (s.island islSpine).isolated = false →
    (s.peerAccepted link peer = true → s.sec.entropyBad = false → ∃ t, exec (.linkAuthenticated dt link peer) s = .next t ∧ (t.spineLink link).st = 2 ∧
      (t.spineLink link).key = (((s.elapse dt).keyLink link peer).spineLink link).key ∧
      (link = 2 → t.twin.partnerSeen = true ∧ t.twin.partnerDevId = peer.devId) ∧ (link ≠ 2 → ∀ n ∈ watchers s.gath.watch 0, s.reports t n 0x8C10 0
        (leBytes 1 0 ++ leBytes 1 link ++ leBytes 1 peer.gatherId ++ leBytes 1 0xFF ++ leBytes 4 (sat 32 (s.gath.evCount.getD 0 0 + 1)) ++
          leBytes 1 (s.gath.lead.getD 0xFF)))) ∧
    ((s.peerAccepted link peer = false ∨ s.sec.entropyBad = true) → goesTo (.linkAuthenticated dt link peer) s dt [.gath] fun t => (t.spineLink link).st = 1 ∧
      onlyAt s.gath.link t.gath.link link ∧ (link ≠ 2 → ∀ n ∈ watchers s.gath.watch 0, s.reports t n 0x8C10 0
        (leBytes 1 8 ++ leBytes 1 link ++ leBytes 1 peer.gatherId ++ leBytes 1 0xFF ++ leBytes 4 (sat 32 (s.gath.evCount.getD 8 0 + 1)) ++
          leBytes 1 (s.gath.lead.getD 0xFF)))) ∧
    ((s.elapse dt).since (s.spineLink link).tryAt 1000000000 = true → goesTo (.linkHandshakeRetry dt link) s dt [.gath] fun t =>
      t.spineLink link = { s.spineLink link with st := 1, tryAt := some (s.elapse dt).tb.now } ∧ onlyAt s.gath.link t.gath.link link) ∧
    ((s.elapse dt).since (s.spineLink link).tryAt 1000000000 = false → exec (.linkHandshakeRetry dt link) s = .next (s.elapse dt)) ∧
    exec (.linkLost dt link) s = .next (s.elapse dt)) ∧
  (∀ (dt link : Nat) (s : State), link < 3 → link < s.gath.link.length → (s.spineLink link).st = 2 → ∃ t, exec (.linkLost dt link) s = .next t ∧
    (t.spineLink link).st = 0 ∧ (t.spineLink link).losses = sat 32 ((s.spineLink link).losses + 1) ∧ (t.spineLink link).key = [] ∧ onlyAt s.gath.link t.gath.link link ∧
    (link = 2 → t.twin.partner = none) ∧ (link ≠ 2 → ∀ n ∈ watchers s.gath.watch 0, s.reports t n 0x8C10 0
      (leBytes 1 1 ++ leBytes 1 link ++ leBytes 1 0xFF ++ leBytes 1 0xFF ++ leBytes 4 (sat 32 (s.gath.evCount.getD 1 0 + 1)) ++
        leBytes 1 (s.gath.lead.getD 0xFF)))) ∧
  (∀ (dt : Nat) (a : MemberIn) (s : State), s.ringUp = true → a.gatherId < 8 → a.gatherId < s.gath.mem.length →
    (a.gatherId ≠ s.top.gatherId.toNat → (s.member a.gatherId).st = 0 → a.role ≤ 1 → ∃ t, exec (.memberAnnounce dt a) s = .next t ∧
      (t.member a.gatherId).devId = a.devId ∧ ((a.hopsA.isSome = true ∨ a.hopsB.isSome = true) → (t.member a.gatherId).st = 1) ∧
      (∀ (m q : Nat), a.hopsA = some m → a.hopsB = some q → (t.member a.gatherId).hops = min m q ∧ (t.member a.gatherId).dirB = decide (q < m)) ∧
      (a.hopsA = none → a.hopsB = none → (t.member a.gatherId).st = 2)) ∧
    (a.gatherId = s.top.gatherId.toNat → a.devId ≠ s.deviceId → a.twin = false → s.twin.partnerSeen = false → (s.member a.gatherId).st ≠ 3 →
      ∃ t, exec (.memberAnnounce dt a) s = .next t ∧ (t.member a.gatherId).st = 3 ∧
        t.gath.relayOnly = (s.gath.relayOnly || decide (beNat a.devId < beNat s.deviceId)))) ∧
  (∀ (dt : Nat) (s : State), s.isLead = true → s.ringUp = true → goesTo (.timeFrame dt .send) s dt [.gath] fun t => t.gath = { s.gath with
    frameNo := s.gath.frameNo + 1, fwdEvents := t.gath.fwdEvents }) ∧
  (∀ (dt : Nat) (offset freqAdj : Int) (lock lead : Nat) (gm : BitVec 64) (domain : Nat) (s : State), s.ringUp = true → s.runsPtp = false → s.gath.lead = some lead →
    (s.tb.acquired = true → offset.natAbs ≤ s.tb.stepLimit → goesTo (.timeFrame dt (.receive offset freqAdj lock lead gm domain)) s dt [.tb, .gath] fun t =>
      t.tb.offset = offset ∧ t.tb.freqAdj = max (-100000) (min freqAdj 100000) ∧ t.tb.lock = lockOf lock ∧ t.tb.dev = (s.elapse dt).tb.dev ∧
      t.tb.steps = s.tb.steps ∧ t.tb.gm = gm ∧ t.tb.domain = domain) ∧
    ((s.tb.acquired = false ∨ s.tb.stepLimit < offset.natAbs) → goesTo (.timeFrame dt (.receive offset freqAdj lock lead gm domain)) s dt [.tb, .gath, .net] fun t =>
      t.tb.lock = lockOf lock ∧ t.tb.acquired = true ∧ t.tb.dev = ((s.elapse dt).tb.dev - offset).toNat ∧ t.tb.steps = s.tb.steps + 1 ∧ t.tb.gm = gm ∧ t.tb.domain = domain)) ∧
  (∀ dt t₀ s, s.tb.frameAt = some t₀ → s.top.gatherId ≠ 0 →
    (t₀ + 4000000 ≤ (s.elapse dt).tb.now → s.tb.lock = .locked → goesTo (.timeFrameLoss dt) s dt [.tb] fun t => t.tb.lock = .holdover ∧
      t.tb.frameAt = none) ∧
    ((s.elapse dt).tb.now < t₀ + 4000000 → exec (.timeFrameLoss dt) s = .next (s.elapse dt))) ∧
  (∀ (dt : Nat) (table : TableIn) (s : State), s.ringUp = true →
    (s.isLead = true → goesTo (.gatheringTable dt table) s dt [.gath] fun t =>
      (∀ k ∈ table.shares, k.receivers.getLsbD s.top.gatherId.toNat = true → k.member ≠ s.top.gatherId.toNat →
        ∃ x ∈ t.gath.rx, x.member = k.member ∧ x.context = k.context ∧ x.ended = false ∧ x.colour = k.colour ∧ x.decl.maxW = k.width) ∧
      ∀ y ∈ t.gath.rx, (∀ k ∈ table.shares, k.member = y.member → k.context = y.context → k.receivers.getLsbD s.top.gatherId.toNat = false) → y.ended = true) ∧
    (s.isLead = false → ∃ t, exec (.gatheringTable dt table) s = .next t ∧ ∀ m, m ≠ s.top.gatherId.toNat →
      (∀ k ∈ table.members, k.gatherId ≠ m) → (t.member m).st = 0))

/-- R335, R370, R458 to R461. Work across members.
Where the rules leave a case open the clauses follow the choices of the model (log entries 33 and 54). -/
def Obligations.SharesAndForwardedFolios : Prop :=
  (∀ (dt ring : Nat) (b : Begun) (answers : ShareAnswers) (s : State), s.hasFolio ring 0x0C10 b →
    let c := s.fctx ring b
    let i := c.u 0x10 1
    let new := BitVec.ofNat 8 (c.u 0x11 1)
    let x := s.ctx i
    let added := new &&& ~~~x.share
    i < 64 → i < s.dec.ctx.length → new.getLsbD s.top.gatherId.toNat = false → c.u 0x12 2 = 0 →
    (x.opened = true → x.owner ≠ c.colour → completes (.gatherShare dt ring answers) s dt ring b .colour 0 [] fun _ => True) ∧
    (x.opened = false → completes (.gatherShare dt ring answers) s dt ring b .state 0 [] fun _ => True) ∧
    (x.opened = true → x.owner = c.colour →
      (∀ m, m < 8 → added.getLsbD m = true → (s.member m).st ≠ 1 → completes (.gatherShare dt ring answers) s dt ring b .unreachable 0 [] fun _ => True) ∧
      (added = 0 → (x.share &&& ~~~new) &&& answers.shows = 0 → (bodyGatherShare answers c (s.elapse dt)).withinPoint (s.elapse dt) false →
        completes (.gatherShare dt ring answers) s dt ring b .ok 0 [.dec, .store] fun t => (t.ctx i).share = new ∧ (t.ctx i).opened = true ∧
          (∀ m, m < 8 → (t.ctx i).share.getLsbD m = true → x.share.getLsbD m = true) ∧
          onlyAt s.dec.ctx t.dec.ctx i ∧ t.store.mem = s.store.mem))) ∧
  (∀ (dt ch pic leaf m acked : Nat) (p : Picture) (s : State), (s.ctx ch).pics.find? (fun (y : Picture) => y.id = pic) = some p → ch < s.dec.ctx.length → s.twin.st = .active →
    (s.ctx ch).opened = true → (s.ctx ch).share.getLsbD m = true → (s.member m).st = 1 → (p.leaves.getD leaf Leaf.reset).valid = true → p.frame.isSome = true →
    (s.ctx ch).shareFrom.getD m 0 ≤ pic → (s.island islSpine).isolated = false →
    ((∀ q ∈ s.gath.sent, ¬ (q.context = ch ∧ q.frame = p.frame.getD 0 ∧ q.leaf = leaf ∧ q.dst = m)) →
      goesTo (.leafSend dt ch pic leaf m acked) s dt [.gath, .dec] fun t => (∃ q, t.gath.sent = q :: s.gath.sent ∧ q.context = ch ∧
          q.frame = p.frame.getD 0 ∧ q.leaf = leaf ∧ q.dst = m ∧ q.dirB = s.leafDir ch (p.frame.getD 0) m ∧ q.stepFrame = (s.ctx ch).stepFrame ∧
          q.poisoned = ((p.leaves.getD leaf Leaf.reset).poisoned || s.leafDamaged p leaf)) ∧
        (m, (p.frame.getD 0).toNat, leaf) ∈ (t.ctx ch).unackedLeaves ∧ onlyAt s.dec.ctx t.dec.ctx ch) ∧
    (∀ q ∈ s.gath.sent, q.context = ch → q.frame = p.frame.getD 0 → q.leaf = leaf → q.dst = m →
      exec (.leafSend dt ch pic leaf m acked) s = .next (s.elapse dt))) ∧
  (∀ (dt : Nat) (lf : LeafIn) (x : RxContext) (s : State), s.rxOf lf.member lf.context = some x → s.ringUp = true → x.ended = false → lf.leaf < lf.leaves → (s.island islSpine).isolated = false →
    (x.got.contains (lf.frame, lf.leaf) = true → goesTo (.leafReceive dt lf) s dt [.gath] fun t => t.gath.rx = s.gath.rx ∧
      t.gath.acks.length = s.gath.acks.length + 1) ∧
    (x.got.contains (lf.frame, lf.leaf) = false → x.pics.length ≤ 2 → (∀ p ∈ x.pics, p.id ≠ x.place lf.frame) →
      goesTo (.leafReceive dt lf) s dt [.gath, .store, .comp] fun t => t.gath.acks.length = s.gath.acks.length + 1 ∧
        ∃ y ∈ t.gath.rx, y.member = lf.member ∧ y.context = lf.context ∧ y.got.contains (lf.frame, lf.leaf) = true ∧
          y.stepFrame = (lf.stepFrame <|> x.stepFrame) ∧
          ∃ p ∈ y.pics, p.id = x.place lf.frame ∧ p.frame = some lf.frame ∧ p.capture = lf.capture ∧ p.leaves[lf.leaf]? = some (storeLeaf lf))) ∧
  (∀ (dt origin ring : Nat) (sq : BitVec 32) (raw : List Byte) (s : State), s.ringUp = true → s.twin.st = .active → s.gath.relayOnly = false → (s.island islSpine).isolated = false →
    s.takesFolios = true → origin < 8 → origin ≠ s.top.gatherId.toNat → ring < 32 →
    (∀ o, s.gath.outcomes.find? (fun z => z.is origin ring sq) = some o → o.done = true → goesTo (.forwardedFolio dt origin ring sq raw) s dt [] fun t =>
      t.host.cmdq = s.host.cmdq ∧ t.gath.outcomes = s.gath.outcomes ∧
      t.gath.replies = { origin := origin, ring := ring, seq := sq, status := o.status, result := o.result } :: s.gath.replies) ∧
    (∀ place, s.gath.outcomes.find? (fun z => z.is origin ring sq) = none → s.fwdPlace origin ring sq = none → s.freePlace = some place →
      place < s.host.cmdq.length → s.targetCheck { raw := padTo (max 256 raw.length) raw } = none →
      goesTo (.forwardedFolio dt origin ring sq raw) s dt [] fun t => ∃ b, (t.cmdQ place).begun = some b ∧ b.origin = some origin ∧ b.fwdRing = ring ∧
        b.cmdSeq = sq ∧ b.wait = .run ∧ b.folio.raw = padTo (max 256 raw.length) raw ∧ onlyAt s.host.cmdq t.host.cmdq place)) ∧
  (∀ (dt ring : Nat) (b : Begun) (member : Nat) (sq : BitVec 32) (status : Nat) (result : BitVec 64) (s : State), (s.cmdQ ring).begun = some b → b.wait = .forward member → b.cmdSeq = sq → s.ringUp = true → s.role ≠ 2 →
    member < 8 → member ≠ s.top.gatherId.toNat →
    completes (.forwardedReply dt ring member sq status result []) s dt ring b (Status.ofCode status) result.toNat [] fun _ => True) ∧
  (∀ (dt ring : Nat) (b : Begun) (member : Nat) (delivered : Bool) (s : State), (s.cmdQ ring).begun = some b → b.wait = .forward member → s.reachable member = false →
    (∀ t₀ : Nat, s.gath.noPathSince.getD member none = some t₀ → t₀ + 50000000 ≤ (s.elapse dt).tb.now →
      completes (.forwardTimeout dt ring delivered) s dt ring b .unreachable (b2n delivered) [] fun _ => True) ∧
    (s.gath.noPathSince.getD member none = none → exec (.forwardTimeout dt ring delivered) s = .next (s.elapse dt)))

/-- R467 to R470, R473, R475, R478, R481, R461, R366. The pair.
Where the rules leave a case open the clauses follow the choices of the model (log entries 18, 34, 47 and 53). -/
def Obligations.ElectionTakeoverAndSwap : Prop :=
  (∀ (dt : Nat) (s : State), (∃ t, exec (.hbSilent dt) s = .next t ∧ t.twin.hbSilent = true) ∧ (∃ t, exec (.hbInAlive dt) s = .next t ∧ t.twin.hbSilent = false) ∧
    (s.twin.st = .standby → s.tSilent = true → s.twin.claimReleased = true → s.twin.claimLow = false → s.twin.pulling = false →
      (s.twin.inSync = true → s.twin.senior = none → s.twin.checkAt = none → goesTo (.hbSilent dt) s dt [.twin] fun t => t.twin.st = .standby ∧
        t.twin.senior = some ((s.elapse dt).tb.now + s.seniorNs) ∧ t.twin.forTakeover = true) ∧
      (s.twin.inSync = false → ∃ t, exec (.hbSilent dt) s = .next t ∧ t.twin.st = .electing ∧ (∀ (k : Nat), (t.ring k).state = .disabled ∧ (t.ring k).enable = false) ∧
        t.comp.head = Comp.reset.head)) ∧
    (s.twin.pulling = false → s.twin.st = .electing → s.twin.forced = false → s.twin.hbSilent = true → s.tSilent = true → s.twin.senior = none →
      s.twin.checkAt = none → goesTo (.claimReleased dt) s dt [.twin] fun t => t.twin.claimLow = false ∧ t.twin.claimReleased = true ∧
        t.twin.senior = some ((s.elapse dt).tb.now + s.seniorNs) ∧ t.twin.aloneClaim = true) ∧
    (s.twin.pulling = false → s.twin.st = .electing → ∃ t, exec (.claimLow dt) s = .next t ∧ t.twin.st = .standby ∧ t.twin.claimLow = true ∧
      (∀ (k : Nat), (t.ring k).state = .disabled ∧ (t.ring k).enable = false) ∧ t.twin.muted = true) ∧
    (s.twin.pulling = true → exec (.claimReleased dt) s = .next (s.elapse dt))) ∧
  (∀ dt t₀ s, s.twin.senior = some t₀ →
    ((s.elapse dt).tb.now < t₀ → exec (.seniorDelayEnd dt) s = .next (s.elapse dt)) ∧
    (t₀ ≤ (s.elapse dt).tb.now → s.twin.claimLow = false → s.twin.claimReleased = true →
      ((s.twin.aloneClaim = true ∨ s.twin.forced = true ∨ s.twin.forTakeover = true) → goesTo (.seniorDelayEnd dt) s dt [.twin] fun t =>
        t.twin.pulling = true ∧ t.twin.claimLow = true ∧ t.twin.checkAt = some ((s.elapse dt).tb.now + 100000) ∧ t.twin.st = s.twin.st) ∧
      (s.twin.aloneClaim = false → s.twin.forced = false → s.twin.forTakeover = false → ∃ t, exec (.seniorDelayEnd dt) s = .next t ∧
        t.twin.st = .active ∧ t.twin.pulling = true ∧ t.twin.muted = false ∧ t.twin.activeN = !s.twin.secondary))) ∧
  (∀ dt t₀ spoke both s, s.twin.checkAt = some t₀ → t₀ ≤ (s.elapse dt).tb.now → s.twin.pulling = true →
    (s.twin.st = .electing → s.twin.hbSilent = true → s.tSilent = true → spoke = false → both = false → ∃ t, exec (.claimCheckEnd dt spoke both) s = .next t ∧
      t.twin.st = .active ∧ t.twin.claimLow = s.twin.claimLow ∧ t.twin.muted = false ∧ t.twin.activeN = !s.twin.secondary) ∧
    (s.twin.st = .standby → s.twin.hbSilent = true → s.tSilent = true → spoke = false → both = false → ∃ t, exec (.claimCheckEnd dt spoke both) s = .next t ∧
      t.twin.st = .active ∧ t.twin.forTakeover = true) ∧
    (s.twin.st = .standby → (spoke = true ∨ s.twin.hbSilent = false) → goesTo (.claimCheckEnd dt spoke both) s dt [.twin] fun t => t.twin.st = .standby ∧
      t.twin.pulling = false ∧ t.twin.forTakeover = false) ∧
    (s.twin.st = .electing → s.twin.hbSilent = true → s.tSilent = true → spoke = false → both = true → ∃ t, exec (.claimCheckEnd dt spoke both) s = .next t ∧
      (beNat s.twin.partnerDevId < beNat s.deviceId → t.twin.st = .standby ∧ t.twin.pulling = false ∧ t.twin.claimLow = true) ∧
      (beNat s.deviceId ≤ beNat s.twin.partnerDevId → t.twin.st = .active ∧ t.twin.muted = false))) ∧
  (∀ (dt : Nat) (s : State), s.twin.st = .active → s.twin.forTakeover = true → ∃ t, exec (.takeover dt) s = .next t ∧ t.twin.forTakeover = false ∧ t.twin.muted = false ∧
    t.twin.activeN = (!s.twin.secondary) ∧ ∀ x ∈ t.enc.session, x.keyReq = true) ∧
  (∀ (dt : Nat) (s : State), s.pwr.booted = true → s.twin.st ≠ .starting → s.twin.st ≠ .yielding →
    (s.twin.resyncCause1 = false → ∃ t, exec (.twinWatchdogTrip dt) s = .next t ∧ t.twin.st = .yielding ∧ t.twin.hbOut = false ∧ t.twin.linkIdle = true ∧
      t.twin.pulling = false ∧ t.twin.activeN = false ∧ t.twin.muted = true) ∧
    (s.twin.resyncCause1 = true → (s.elapse dt).tb.now < s.twin.restartFrom + 20000000 → exec (.twinWatchdogTrip dt) s = .next (s.elapse dt))) ∧
  (∀ (dt : Nat) (s : State), s.twin.st = .active → s.faultBits.getLsbD 5 = true →
    (s.synced = true → s.twin.partnerLasting.contains islStore = false → ∃ t, exec (.twinYield dt .store) s = .next t ∧ t.twin.st = .yielding ∧
      t.twin.hbOut = false) ∧
    (s.synced = false → goesTo (.twinYield dt .store) s dt [] fun t => t.twin.st = .active ∧
      ∀ n ∈ watchers s.gath.watch 1, s.reports t n 0x8C20 0 (leBytes 1 4 ++ leBytes 1 s.twin.st.code ++ leBytes 1 s.twinSignals ++ List.replicate 5 0 ++
        leBytes 8 (s.elapse dt).tb.dev))) ∧
  (∀ (dt ring : Nat) (b : Begun) (s : State), s.hasFolio ring 0x0C20 b →
    let c := s.fctx ring b
    c.colour = s.admin →
    (c.u 0x10 1 = 1 → s.twin.st = .active → s.synced = true → s.twin.swap = none → waits (.swap dt ring) s dt ring b .swap [.twin] fun t =>
      t.twin = { s.twin with swap := some c.slot }) ∧
    (c.u 0x10 1 = 1 → s.synced = false → completes (.swap dt ring) s dt ring b .state 0 [] fun _ => True) ∧
    (c.u 0x10 1 = 2 → s.twin.st = .electing → s.twin.claimLow = false → completes (.force dt ring) s dt ring b .ok 0 [.twin] fun t =>
      t.twin.senior = some ((s.elapse dt).tb.now + s.seniorNs) ∧ t.twin.forced = true ∧ t.twin.st = .electing) ∧
    (c.u 0x10 1 = 2 → s.twin.st = .electing → s.twin.claimLow = true → completes (.force dt ring) s dt ring b .busy 0 [] fun _ => True) ∧
    (c.u 0x10 1 = 2 → s.twin.st ≠ .electing → completes (.force dt ring) s dt ring b .state 0 [] fun _ => True)) ∧
  (∀ (dt ring : Nat) (b : Begun) (o : WaitIn) (s : State), s.waitsFor ring b .swap → s.swapReady ring = true → ∃ t, exec (.folioWaitComplete dt ring o) s = .next t ∧ t.twin.st = .standby ∧
    t.twin.swap = none ∧ t.twin.activeN = false ∧ t.twin.pulling = false ∧ (∀ (k : Nat), (t.ring k).state = .disabled ∧ (t.ring k).enable = false))

/-- R363, R364, R471, R472, R476 to R480. The standby of a pair.
Where the rules leave a case open the clauses follow the choices of the model (log entry 54). -/
def Obligations.TheStandbyFollows : Prop :=
  (∀ (dt : Nat) (s : State), s.tSilent = false →
    (s.twin.st = .standby → s.dec.ctx.all Context.inStep = true → s.comp.head.all Head.inStep = true →
      goesTo (.stateSnapshot dt) s dt [.twin] fun t => t.twin.inSync = true ∧ t.twin.snapshot = true) ∧
    (s.twin.st = .active → s.twin.partner = some TwinSt.standby → goesTo (.stateSnapshot dt) s dt [.twin] fun t => t.twin = { s.twin with snapshot := true }) ∧
    (s.twin.st ≠ .standby → goesTo (.healthReport dt none) s dt [.twin] fun t => t.twin.healthSent = s.twin.healthSent + 1 ∧
      t.twin.healthOut.take 1 = leBytes 1 s.twin.st.code ∧ t.twin.st = s.twin.st)) ∧
  (∀ (dt : Nat) (r_ : HealthIn) (s : State), s.tSilent = false → s.twin.st = .active → goesTo (.healthReport dt (some r_)) s dt [.twin, .host] fun t =>
    t.twin.partner = some (twinStOf r_.st) ∧ t.twin.partnerFaults = r_.faults ∧ t.twin.partnerLasting = r_.lasting ∧ t.twin.st = .active ∧
    t.twin.inSync = (r_.synced && decide (r_.st = 3))) ∧
  (∀ (dt island : Nat) (s : State), s.twin.st = .standby → s.synced = true → 3 ≤ island → island ≤ 12 → (s.island island).isolated = false →
    goesTo (.standbySelftest dt island true) s dt [.twin] (fun t => t.twin.selfFails = s.twin.selfFails ∧
      (t.twin.tested.contains island = true ∨ (t.twin.tested = [] ∧ t.twin.cycles = sat 32 (s.twin.cycles + 1)))) ∧
    ∃ t, exec (.standbySelftest dt island false) s = .next t ∧ t.twin.selfFails = sat 32 (s.twin.selfFails + 1) ∧ t.twin.cycles = s.twin.cycles ∧
      ((s.flt.src.getD 3 FltSource.reset).fixed = true → s.twin.resyncCause1 = false → s.top.handover = false → island < s.fab.isl.length →
        (t.island island).isolated = true)) ∧
  (∀ dt c t₀ s, (s.ctx c).coldWait = some t₀ → s.twin.st = .standby → s.tSilent = false → c < 64 → c < s.dec.ctx.length → (s.ctx c).opened = true →
    (s.ctx c).reachesTwin = true →
    (t₀ + 2000000000 ≤ (s.elapse dt).tb.now → goesTo (.standbyPliRequest dt c) s dt [.twin, .dec] fun t => t.twin.pliAsked = c :: s.twin.pliAsked ∧
      onlyAt s.dec.ctx t.dec.ctx c) ∧
    ((s.elapse dt).tb.now < t₀ + 2000000000 → exec (.standbyPliRequest dt c) s = .next (s.elapse dt))) ∧
  (∀ (dt ring : Nat) (b : Begun) (s : State), s.hasFolio ring 0x0C21 b →
    let c := s.fctx ring b
    let p := c.u 0x10 1
    p < 4 → p < s.net.ports.length →
    (s.mirroring = true → completes (.twinPort dt ring) s dt ring b .ok 0 [.net] fun t => t.port p = { s.port p with standbyAddr := c.folio.ip 0x14 } ∧
      onlyAt s.net.ports t.net.ports p) ∧
    (s.mirroring = false → completes (.twinPort dt ring) s dt ring b .state 0 [] fun _ => True)) ∧
  (∀ (dt : Nat) (s : State), s.tSilent = false → s.twin.st = .standby →
    (∀ (r : Nat) (bs : List Byte), r < s.host.cmdq.length → goesTo (.twinMirror dt (.folio r bs)) s dt [.twin, .host] fun t => ∃ f, (t.cmdQ r).fetched = (s.cmdQ r).fetched ++ [f] ∧
      f.folio.raw = padTo 256 bs ∧ f.damaged = false) ∧
    (∀ (r : Nat) (f : Fetched) (rest : List Fetched), r < s.host.cmdq.length → (s.cmdQ r).fetched = f :: rest → goesTo (.twinMirror dt (.begun r)) s dt [.twin] fun t =>
      (t.cmdQ r).fetched = rest ∧ ∃ b, (t.cmdQ r).begun = some b ∧ b.folio = f.folio ∧ b.wait = .mirrored ∧ b.cmdSeq = (s.ring r).seq) ∧
    (∀ (c : Nat) (frame : BitVec 32) (leaf : Nat) (sig : BitVec 32) (p : Picture), (s.ctx c).pics.find? (fun (q : Picture) => q.frame = some frame) = some p → (p.leaves.getD leaf Leaf.reset).valid = true →
      (p.leaves.getD leaf Leaf.reset).signature ≠ sig → goesTo (.twinMirror dt (.signature c frame leaf sig)) s dt [.twin] fun t =>
        t.twin.decodeDis = sat 32 (s.twin.decodeDis + 1)) ∧
    (s.twin.inSync = true → ∃ t, exec (.twinMirror dt .swap) s = .next t ∧ t.twin.st = .active ∧ t.twin.pulling = true ∧ t.twin.forTakeover = true)) ∧
  (∀ (dt r : Nat) (s : State), s.tSilent = false → s.mirroring = true → 0 < (s.cmdQ r).unmirrored → r < s.host.cmdq.length → r < s.host.rings.length →
    goesTo (.twinMirror dt (.ackFolio r)) s dt [.twin] fun t => (t.cmdQ r).unmirrored + 1 = (s.cmdQ r).unmirrored ∧
      (t.ring r).deviceIndex = (s.ring r).deviceIndex + 1)

/-- R485, R486, R489 to R491, R494 to R498, R512. Touch panels.
Where the rules leave a case open the clauses follow the choices of the model (log entries 2, 26 and 55). -/
def Obligations.TouchPanelsScanAndReport : Prop :=
  (∀ (dt ring : Nat) (b : Begun) (s : State), s.hasFolio ring 0x0D00 b →
    let c := s.fctx ring b
    let n := c.u 0x10 1
    let cfg := panelCfgOf c
    let p := s.panel n
    n < 4 → n < s.desk.panel.length → c.u 0x11 1 < 2 → cfg.ok = true → c.u 0x14 1 < 32 → c.u 0x3E 2 = 0 →
    (∀ k, p.owner = some k → k ≠ c.colour → completes (.touchPanel dt ring) s dt ring b .colour 0 [] fun _ => True) ∧
    ((p.owner = none ∨ p.owner = some c.colour) → evOk c s (c.u 0x16 1) = true →
      (c.u 0x11 1 = 0 → completes (.touchPanel dt ring) s dt ring b .ok 0 [.desk] fun t => (t.panel n).st = .off ∧ (t.panel n).owner = none ∧
        (t.panel n).contacts = [] ∧ (t.panel n).reports = p.reports ∧ onlyAt s.desk.panel t.desk.panel n) ∧
      (c.u 0x11 1 = 1 → (s.winOk cfg.window c.colour = false ∨ s.winSpan cfg.window cfg.repOffset (cfg.repBlocks * 256) true = false) →
        completes (.touchPanel dt ring) s dt ring b .colour 0 [] fun _ => True) ∧
      (c.u 0x11 1 = 1 → s.winOk cfg.window c.colour = true → s.winSpan cfg.window cfg.repOffset (cfg.repBlocks * 256) true = true →
        (s.role = 2 → completes (.touchPanel dt ring) s dt ring b .state 0 [] fun _ => True) ∧
        (s.role ≠ 2 → (p.st = .off ∨ p.st = .failed) → completes (.touchPanel dt ring) s dt ring b .ok 0 [.desk] fun t => (t.panel n).st = .starting ∧
          (t.panel n).owner = some c.colour ∧ (t.panel n).cfg = cfg ∧ (t.panel n).contacts = [] ∧ (t.panel n).seq = 0 ∧
          onlyAt s.desk.panel t.desk.panel n) ∧
        (s.role ≠ 2 → p.st = .running → p.next = none →
          ((p.cfg.rows ≠ cfg.rows ∨ p.cfg.cols ≠ cfg.cols ∨ p.cfg.driveV ≠ cfg.driveV ∨ p.cfg.freq ≠ cfg.freq) →
            completes (.touchPanel dt ring) s dt ring b .ok 0 [.desk] fun t => (t.panel n).st = .starting ∧ (t.panel n).cfg = cfg ∧
              (t.panel n).contacts = [] ∧ (t.panel n).ending = p.ending ++ p.contacts.map (fun (k : Contact) => { k with st := .up }) ∧
              (t.panel n).seq = p.seq) ∧
          (p.cfg.rows = cfg.rows → p.cfg.cols = cfg.cols → p.cfg.driveV = cfg.driveV → p.cfg.freq = cfg.freq →
            completes (.touchPanel dt ring) s dt ring b .ok 0 [.desk] fun t => t.panel n = { p with next := some cfg }))))) ∧
  (∀ (dt n : Nat) (openDrive openSense noise : List Nat) (base : List BaseIn) (s : State), n < 4 → n < s.desk.panel.length → (s.panel n).st = .starting → (s.island islTouch).isolated = false →
    let p := s.panel n
    let ds := (List.range p.cfg.rows).filter openDrive.contains
    let ks := (List.range p.cfg.cols).filter openSense.contains
    (ds.length + ks.length ≤ 16 → goesTo (.panelStart dt n openDrive openSense noise base) s dt [.desk] fun t => (t.panel n).st = .running ∧
      (t.panel n).exDrive = ds ∧ (t.panel n).exSense = ks ∧ (t.panel n).learn = 0 ∧ (t.panel n).reportAt = (s.elapse dt).tb.now ∧
      (t.panel n).base = (List.range 4).map (fun i => (base.getD i default).nodes) ∧ onlyAt s.desk.panel t.desk.panel n ∧
      (∀ d ∈ ds, s.reports t p.cfg.ring 0x8D00 0 (leBytes 1 n ++ leBytes 1 2 ++ leBytes 2 d ++ leBytes 4 0 ++ leBytes 4 0)) ∧
      ∀ k ∈ ks, s.reports t p.cfg.ring 0x8D00 0 (leBytes 1 n ++ leBytes 1 2 ++ leBytes 2 (0x8000 + k) ++ leBytes 4 0 ++ leBytes 4 0)) ∧
    (16 < ds.length + ks.length → goesTo (.panelStart dt n openDrive openSense noise base) s dt [.desk] fun t => (t.panel n).st = .failed ∧
      onlyAt s.desk.panel t.desk.panel n)) ∧
  (∀ (q : Panel) (dl : List Int) (free : Nat → Nat) (h : TouchHit), h ∈ (q.find dl free).hits → q.cfg.mutual ≤ h.delta ∧ q.cfg.self_ ≤ h.self_ ∧ h.delta = intAt dl h.peak ∧
    h.region.length ≤ q.cfg.largeNodes ∧ ∀ r ∈ (q.find dl free).large, ∀ m ∈ r, q.cfg.guard < chebyshev q.cfg.cols h.peak m) ∧
  (∀ (dt n : Nat) (raw : List Int) (s : State), s.panelRuns n = true → n < s.desk.panel.length →
    let p := s.panel n
    let q := ({ p.settle with raw := raw } : Panel).absorb (s.elapse dt).tb.now
    let f := q.find q.deltas fun i => Config.freeNat (s.tb.freeCtr + i)
    ((p.learn = 1 ∨ p.learn = 2) → goesTo (.mutualFrameEnd dt n raw) s dt [.desk] fun t => (t.panel n).learnN = p.learnN + 1 ∧
      (t.panel n).contacts = p.contacts ∧ (t.panel n).seq = p.seq ∧ (t.panel n).base = p.base) ∧
    (p.learn ≠ 1 → p.learn ≠ 2 → goesTo (.mutualFrameEnd dt n raw) s dt [.tb, .desk, .store, .sec] fun t => onlyAt s.desk.panel t.desk.panel n ∧
      (q.contacts.length + q.ending.length ≤ 10 → (t.panel n).contacts.length ≤ 10) ∧
      ∀ k ∈ (t.panel n).contacts, k.id < 16 ∧ ((k.st = .move ∧ ∃ j ∈ q.contacts, j.id = k.id) ∨
        (k.st = .down ∧ k.age = 0 ∧ ∀ j ∈ q.contacts, j.id ≠ k.id))) ∧
    (p.learn ≠ 1 → p.learn ≠ 2 → f.hits = [] → f.large = [] → f.water = [] → q.contacts = [] → q.ending = [] → q.cfg.glove = false → q.hop = false →
      q.exDrive = [] → q.exSense = [] → q.lastFlags = 0 → goesTo (.mutualFrameEnd dt n raw) s dt [.tb, .desk] fun t => (t.panel n).contacts = [] ∧
        (t.panel n).seq = q.seq ∧ (t.panel n).reports = q.reports) ∧
    (∀ h, p.learn ≠ 1 → p.learn ≠ 2 → f.hits = [h] → q.contacts = [] → q.ending = [] → s.winOk q.cfg.window (q.owner.getD 0) = true →
      let off := q.cfg.repOffset + q.seq.toNat % max 1 q.cfg.repBlocks * 256
      s.winSpan q.cfg.window off 256 true = true → goesTo (.mutualFrameEnd dt n raw) s dt [.tb, .desk, .store] fun t =>
        (∃ k, (t.panel n).contacts = [k] ∧ k.id = 0 ∧ k.st = .down ∧ k.signal = h.delta ∧ k.self_ = h.self_ ∧ k.nodes = h.region) ∧
        (t.panel n).seq = q.seq + 1 ∧ (t.panel n).reports = sat 32 (q.reports + 1) ∧
        s.reports t q.cfg.ring 0x8D00 0 (leBytes 1 n ++ leBytes 1 0 ++ leBytes 2 1 ++ leBytes 4 q.seq.toNat ++ leBytes 4 off))) ∧
  (∀ (dt n : Nat) (drive sense : List Int) (s : State), s.panelRuns n = true → n < s.desk.panel.length →
    let p := s.panel n
    let q := ({ p with rawD := drive, rawS := sense } : Panel).absorb (s.elapse dt).tb.now
    ((p.learn = 1 ∨ p.learn = 2) → goesTo (.selfFrameEnd dt n drive sense) s dt [.desk] fun t => (t.panel n).learnM = p.learnM + 1 ∧
      (t.panel n).baseD = p.baseD ∧ (t.panel n).baseS = p.baseS) ∧
    (p.learn ≠ 1 → p.learn ≠ 2 → goesTo (.selfFrameEnd dt n drive sense) s dt [.desk] fun t => (t.panel n).rawD = drive ∧ (t.panel n).rawS = sense ∧
      (t.panel n).contacts = q.contacts ∧ (t.panel n).seq = q.seq ∧ ∀ d, d < q.cfg.rows → q.freqIdx < q.baseD.length →
        d < (q.baseD.getD q.freqIdx []).length →
        intAt ((t.panel n).baseD.getD q.freqIdx []) d =
          if q.selfD d ≤ -(q.cfg.negThresh : Int) ∧ 2 ≤ q.negRunD.getD d 0 then intAt drive d else intAt (q.baseD.getD q.freqIdx []) d)) ∧
  (∀ (dt n : Nat) (s : State), s.panelRuns n = true → n < s.desk.panel.length → (s.panel n).learn = 0 → (s.panel n).contacts = [] →
    let p := s.panel n
    goesTo (.baselineDrift dt n) s dt [.desk] fun t => (t.panel n).held = p.held ∧ ∀ k, p.freqIdx < p.base.length → k < (p.base.getD p.freqIdx []).length →
      k < p.raw.length → intAt ((t.panel n).base.getD p.freqIdx []) k =
        if p.held.contains k then intAt (p.base.getD p.freqIdx []) k else stepToward (intAt (p.base.getD p.freqIdx []) k) (intAt p.raw k)) ∧
  (∀ (dt n : Nat) (s : State), n < s.desk.panel.length →
    let p := s.panel n
    (s.panelRuns n = false → exec (.scanCycle dt n) s = .next (s.elapse dt)) ∧
    (s.panelRuns n = true → goesTo (.scanCycle dt n) s dt [.desk] fun t => (t.panel n).cycleAt = some (s.elapse dt).tb.now ∧ (t.panel n).hopped = false ∧
      (p.learn = 0 → (t.panel n).base = p.base ∧ (t.panel n).learn = 0) ∧ (p.learn = 3 → (t.panel n).learn = 2 ∧ (t.panel n).learnN = 0) ∧
      (p.learn = 2 → (t.panel n).learn = 1) ∧ (p.learn = 1 → p.learnN ≠ 0 → (t.panel n).learn = 0 ∧
        (t.panel n).base = List.replicate 4 (p.learnSum.map fun v => Int.fdiv v p.learnN)))) ∧
  (∀ (dt n j : Nat) (noise : List Nat) (s : State), s.panelRuns n = true → n < s.desk.panel.length → quietest noise (some (s.panel n).freqIdx) = some j →
    let p := s.panel n
    let here := noise.getD p.freqIdx 0
    ((here ≤ p.cfg.noiseLimit ∨ here < 2 * noise.getD j 0 ∨ p.hopped = true) → goesTo (.noiseListenEnd dt n noise) s dt [.desk] fun t =>
      t.panel n = { p with noise := here }) ∧
    (p.cfg.noiseLimit < here → 2 * noise.getD j 0 ≤ here → p.hopped = false → goesTo (.noiseListenEnd dt n noise) s dt [.desk] fun t =>
      t.panel n = { p with freqIdx := j, noise := noise.getD j 0, hop := true, hopped := true, hops := sat 32 (p.hops + 1) } ∧
      s.reports t p.cfg.ring 0x8D00 0 (leBytes 1 n ++ leBytes 1 3 ++ leBytes 2 (p.cfg.freq.getD j 0) ++ leBytes 4 0 ++ leBytes 4 0))) ∧
  (∀ (dt ring : Nat) (b : Begun) (s : State), s.hasFolio ring 0x0D01 b →
    let c := s.fctx ring b
    let n := c.u 0x10 1
    let p := s.panel n
    n < 4 → n < s.desk.panel.length →
    (∀ k, p.owner = some k → k ≠ c.colour → completes (.touchRebase dt ring) s dt ring b .colour 0 [] fun _ => True) ∧
    ((p.owner = none ∨ p.owner = some c.colour) → p.st ≠ .running → completes (.touchRebase dt ring) s dt ring b .state 0 [] fun _ => True) ∧
    ((p.owner = none ∨ p.owner = some c.colour) → p.st = .running → completes (.touchRebase dt ring) s dt ring b .ok 0 [.desk] fun t =>
      t.panel n = { p with
        ending := p.ending ++ p.contacts.map (fun (k : Contact) => { k with st := .absorbed }), contacts := [], held := [], learn := 3
        absorbed := sat 32 (p.absorbed + p.contacts.length) } ∧ onlyAt s.desk.panel t.desk.panel n)) ∧
  (∀ (dt : Nat) (s : State), s.twin.st = .active → (s.spineLink 2).st = 2 → goesTo (.touchMirror dt none) s dt [.desk] fun t =>
    t.desk = { s.desk with mirrorAt := some (s.elapse dt).tb.now }) ∧
  (∀ (dt : Nat) (g : DeskIn) (y : PanelIn) (s : State), s.twin.st = .standby → (s.spineLink 2).st = 2 → g.panels = [y] → (s.panel y.t).st = .standby →
    goesTo (.touchMirror dt (some g)) s dt [.desk] fun t => (t.panel y.t).st = .standby ∧ (t.panel y.t).seq = y.seq ∧
      (t.panel y.t).base = y.base.map (fun (z : BaseIn) => z.nodes) ∧ (t.panel y.t).contacts.length = y.contacts.length ∧
      ∀ i, i < s.desk.input.length → (t.input i).level = g.levels.getLsbD i ∧ (t.input i).pairLevel = g.pairs.getD (i / 2) 0)

/-- R502 to R509, R511. Console inputs and outputs.
Where the rules leave a case open the clauses follow the choices of the model (log entry 56). -/
def Obligations.ConsoleInputsAndOutputs : Prop :=
  (∀ (dt : Nat) (levels : BitVec 32) (s : State), (s.island islTouch).isolated = false → s.top.ready = true →
    (s.twin.st ≠ .active → goesTo (.inputSample dt levels) s dt [.desk] fun t => ∀ i, i < s.desk.input.length →
      t.input i = { s.input i with raw := levels.getLsbD i }) ∧
    (s.twin.st = .active → goesTo (.inputSample dt levels) s dt [.desk] fun t => ∀ i, i < 32 → i < s.desk.input.length → s.pairOdd i = false →
      let x := s.input i
      let y := x.sample (levels.getLsbD i) (s.elapse dt).tb.now (s.elapse dt).stepless
      let times := ((s.elapse dt).tb.now :: x.changes).filter fun a => decide ((s.elapse dt).tb.now ≤ a + x.chatterW * 1000000)
      (levels.getLsbD i = x.level → y.level = x.level) ∧ (levels.getLsbD i ≠ x.level → (y.level ≠ x.level ↔ x.debounce ≤ x.run_ + 1)) ∧
      (x.pair = false → y.level = x.level → t.input i = y) ∧
      (x.pair = false → y.level ≠ x.level → x.enable = true → x.chatter = false →
        (t.input i).level = (!x.level) ∧ (t.input i).count = sat 32 (x.count + 1) ∧ (t.input i).chatter = decide (x.chatterN ≤ times.length) ∧
        ((∀ j, j < i → (s.input j).pair = false ∧
            ((s.input j).sample (levels.getLsbD j) (s.elapse dt).tb.now (s.elapse dt).stepless).level = (s.input j).level) →
          s.reports t x.ring 0x8D10 0 (leBytes 1 i ++ leBytes 1 (if x.chatterN ≤ times.length then 1 else 0) ++ leBytes 1 (b2n ((!x.level) != x.activeLow)) ++
            leBytes 1 0 ++ leBytes 4 (sat 32 (x.count + 1)) ++ leBytes 8 ((s.elapse dt).stamp y.levelTime)))) ∧
      (x.pair = false → y.level ≠ x.level → (x.enable = false ∨ x.chatter = true) → (t.input i).level = (!x.level) ∧ (t.input i).chatter = x.chatter) ∧
      (x.pair = true → x.pairLevel ≠ 2 → i + 1 < s.desk.input.length →
        let z := (s.input (i + 1)).sample (levels.getLsbD (i + 1)) (s.elapse dt).tb.now (s.elapse dt).stepless
        (y.active = z.active → (t.input i).pairLevel = x.pairLevel ∧ (t.input i).discAt.isSome = true) ∧
        (y.active = true → z.active = false → (t.input i).pairLevel = 1 ∧ (t.input i).discAt = none) ∧
        (y.active = false → z.active = true → (t.input i).pairLevel = 0 ∧ (t.input i).discAt = none)))) ∧
  (∀ (dt i : Nat) (s : State), s.deskServed = true → i < 32 → i < s.desk.input.length →
    let x := s.input i
    (x.chatter = true → x.pair = false → x.enable = true →
      (x.rawAt + x.quiet * 1000000 ≤ (s.elapse dt).tb.now → goesTo (.chatterQuiet dt i) s dt [.desk] fun t => (t.input i).chatter = false ∧
        s.reports t x.ring 0x8D10 0 (leBytes 1 i ++ leBytes 1 2 ++ leBytes 1 (b2n x.active) ++ leBytes 1 0 ++ leBytes 4 (sat 32 x.count) ++
          leBytes 8 ((s.elapse dt).stamp x.levelTime))) ∧
      ((s.elapse dt).tb.now < x.rawAt + x.quiet * 1000000 → exec (.chatterQuiet dt i) s = .next (s.elapse dt))) ∧
    (x.stuckMs = 0 → exec (.inputStuck dt i) s = .next (s.elapse dt)) ∧
    (x.enable = true → s.pairOdd i = false → x.stuckMs ≠ 0 → x.unitLevel = 1 → x.stuck = false → x.activeAt + x.stuckMs * 1000000 ≤ (s.elapse dt).tb.now →
      goesTo (.inputStuck dt i) s dt [.desk] fun t => (t.input i).stuck = true ∧
        s.reports t x.ring 0x8D10 0 (leBytes 1 i ++ leBytes 1 3 ++ leBytes 1 1 ++ leBytes 1 0 ++ leBytes 4 (sat 32 x.count) ++
          leBytes 8 ((s.elapse dt).stamp x.unitTime)))) ∧
  (∀ dt k t₀ s, s.deskServed = true → k < 16 → 2 * k < s.desk.input.length → (s.input (2 * k)).pair = true → (s.input (2 * k)).pairLevel ≠ 2 →
    (s.input (2 * k)).discAt = some t₀ →
    let x := s.input (2 * k)
    ((s.elapse dt).tb.now < t₀ + x.pairMs * 1000000 → exec (.pairDiscrepancy dt k) s = .next (s.elapse dt)) ∧
    (t₀ + x.pairMs * 1000000 ≤ (s.elapse dt).tb.now → goesTo (.pairDiscrepancy dt k) s dt [.desk] fun t => (t.input (2 * k)).pairLevel = 2 ∧
      onlyAt s.desk.input t.desk.input (2 * k) ∧ (x.enable = true → s.reports t x.ring 0x8D10 0 (leBytes 1 (2 * k) ++ leBytes 1 4 ++ leBytes 1 2 ++
        leBytes 1 0 ++ leBytes 4 (sat 32 x.count) ++ leBytes 8 ((s.elapse dt).stamp x.discTime))))) ∧
  (∀ (dt ring : Nat) (b : Begun) (s : State), s.hasFolio ring 0x0D10 b →
    let c := s.fctx ring b
    let i := c.u 0x10 1
    let fl := c.u 0x11 1
    let x := s.input i
    i < 32 → i < s.desk.input.length → fl < 32 → (bitOf fl 2 = true → i % 2 = 0) → fl / 8 % 4 < 3 → c.u 0x12 1 < 32 → 1 ≤ c.u 0x13 1 → 2 ≤ c.u 0x14 1 →
    c.u 0x15 1 = 0 → within 10 10000 (c.u 0x16 2) = true → within 10 60000 (c.u 0x18 2) = true → within 1 1000 (c.u 0x1A 2) = true →
    (c.u 0x1C 4 = 0 ∨ within 1000 86400000 (c.u 0x1C 4) = true) →
    (∀ k, x.owner = some k → k ≠ c.colour → completes (.inputConfig dt ring) s dt ring b .colour 0 [] fun _ => True) ∧
    ((x.owner = none ∨ x.owner = some c.colour) → (bitOf fl 2 = true → (s.input (i + 1)).owner = none ∨ (s.input (i + 1)).owner = some c.colour) →
      evOk c s (c.u 0x12 1) = true →
      (s.pairOdd i = true → completes (.inputConfig dt ring) s dt ring b .busy 0 [] fun _ => True) ∧
      (s.pairOdd i = false → completes (.inputConfig dt ring) s dt ring b .ok 0 [.desk] fun t => onlyAt s.desk.input t.desk.input i ∧
        (t.input i).enable = bitOf fl 0 ∧ (t.input i).owner = (if bitOf fl 0 then some c.colour else none) ∧ (t.input i).activeLow = bitOf fl 1 ∧
        (t.input i).pair = bitOf fl 2 ∧ (t.input i).pull = pullOf (fl / 8 % 4) ∧ (t.input i).ring = c.ev (c.u 0x12 1) ∧
        (t.input i).debounce = c.u 0x13 1 ∧ (t.input i).chatterN = c.u 0x14 1 ∧ (t.input i).chatterW = c.u 0x16 2 ∧ (t.input i).quiet = c.u 0x18 2 ∧
        (t.input i).pairMs = c.u 0x1A 2 ∧ (t.input i).stuckMs = c.u 0x1C 4 ∧ (t.input i).level = x.level ∧
        (x.enable = false → bitOf fl 0 = true → (t.input i).count = 0)))) ∧
  (∀ (dt ring : Nat) (b : Begun) (s : State), s.hasFolio ring 0x0D20 b →
    let c := s.fctx ring b
    let o := c.u 0x10 1
    let m := c.u 0x11 1
    let l := c.u 0x13 1
    let period := c.u 0x14 2
    let on_ := c.u 0x16 2
    o < 16 → o < s.desk.output.length →
    (6 ≤ m → completes (.outputSet dt ring) s dt ring b .param 0 [] fun _ => True) ∧
    (m < 6 → c.u 0x12 1 < 4 → (m = 4 → l < 64) → c.u 0x18 1 < 32 → (m = 2 → within 20 10000 period = true ∧ within 1 period on_ = true) →
      (m = 3 → within 1 10000 on_ = true) →
      (∀ k, (s.output o).owner = some k → k ≠ c.colour → completes (.outputSet dt ring) s dt ring b .colour 0 [] fun _ => True) ∧
      ((s.output o).owner = none ∨ (s.output o).owner = some c.colour →
        (m = 4 → (s.layer l).st ≠ .free → (s.layer l).owner ≠ c.colour → completes (.outputSet dt ring) s dt ring b .colour 0 [] fun _ => True) ∧
        ((m = 4 → (s.layer l).st = .free ∨ (s.layer l).owner = c.colour) → evOk c s (c.u 0x18 1) = true →
          completes (.outputSet dt ring) s dt ring b .ok 0 [.desk] fun t => onlyAt s.desk.output t.desk.output o ∧
            (t.output o).hiZ = (decide (m = 5) || decide (s.twin.st ≠ .active)) ∧ (t.output o).fault = false ∧
            (t.output o).owner = (if m = 5 then none else some c.colour) ∧ ((m = 0 ∨ m = 5) → (t.output o).driven = false) ∧
            ((m = 1 ∨ m = 3) → (t.output o).driven = true) ∧
            (m = 2 → (t.output o).driven = decide ((s.elapse dt).tb.dev % (period * 1000000) < on_ * 1000000)) ∧
            (m = 3 → (t.output o).endsAt = some ((s.elapse dt).tb.now + on_ * 1000000)) ∧
            (m = 4 → (t.output o).driven = ((s.layer l).failing || decide ((s.layer l).st ≠ .active))))))) ∧
  (∀ (dt o : Nat) (s : State), s.deskServed = true → o < 16 → o < s.desk.output.length →
    let x := s.output o
    (x.mode = .blink → 1 ≤ x.period → goesTo (.blinkPhase dt o) s dt [.desk] fun t => onlyAt s.desk.output t.desk.output o ∧
      t.output o = { x with driven := decide ((s.elapse dt).tb.dev % (x.period * 1000000) < x.on_ * 1000000) }) ∧
    (∀ t₀, x.mode = .pulse → x.endsAt = some t₀ → t₀ ≤ (s.elapse dt).tb.now → goesTo (.blinkPhase dt o) s dt [.desk] fun t =>
      t.output o = { x with driven := false, endsAt := none }) ∧
    (∀ t₀, x.mode = .pulse → x.endsAt = some t₀ → (s.elapse dt).tb.now < t₀ → exec (.blinkPhase dt o) s = .next (s.elapse dt)) ∧
    (x.mode = .follow → goesTo (.followStaleUpdate dt o) s dt [.desk] fun t => onlyAt s.desk.output t.desk.output o ∧
      t.output o = { x with driven := (s.layer x.layer).failing || decide ((s.layer x.layer).st ≠ .active) }) ∧
    (x.mode ≠ .follow → exec (.followStaleUpdate dt o) s = .next (s.elapse dt)) ∧
    (x.hiZ = false → goesTo (.outputOverload dt o) s dt [.desk] fun t => t.output o = { x with hiZ := true, fault := true } ∧
      onlyAt s.desk.output t.desk.output o ∧
      s.reports t x.ring 0x8D20 0 (leBytes 1 o ++ List.replicate 7 0 ++ leBytes 8 (s.elapse dt).tb.dev)) ∧
    (x.hiZ = true → exec (.outputOverload dt o) s = .next (s.elapse dt)))

/-- R521 to R523, R525, R526, R528, R529, R534, R541, R608.
Where the rules leave a case open the clauses follow the choices of the model (log entries 44, 57 and 80). -/
def Obligations.ClocksIslandsAndSupplies : Prop :=
  (let body (s : State) (dt kind island value : Nat) : List Byte := leBytes 1 kind ++ leBytes 1 island ++ leBytes 2 value ++
      leBytes 4 (sat 32 ((s.pwr.ev.getD kind EvGate.reset).count + 1)) ++ leBytes 8 (s.elapse dt).tb.dev
   (∀ (dt : Nat) (s : State), s.pwr.held = false → s.pwr.clkRef = 1 →
    (s.pwr.xb.good = true → s.fab.isl.length = 43 → (s.flt.src.getD 8 FltSource.reset).fixed = true →
      goesTo (.crystalStop dt false) s dt [.pwr, .flt, .top] fun t => t.pwr.clkRef = 2 ∧ t.pwr.failover = true ∧ t.pwr.xa = ⟨false, true⟩ ∧
        t.pwr.held = false ∧ t.top.faults.getLsbD 13 = true ∧ ∀ n ∈ watchers s.pwr.watch 0, s.reports t n 0x8E00 0 (body s dt 0 0xFF 0)) ∧
    (s.pwr.xb.good = false → ∃ t, exec (.crystalStop dt false) s = .next t ∧ t.pwr.held = true ∧ t.pwr.clkRef = 0 ∧ t.top = State.reset.top) ∧
    goesTo (.crystalStop dt true) s dt [.pwr] fun t => t.pwr.clkRef = 1 ∧ t.pwr.xb = ⟨false, true⟩ ∧ t.pwr.xa = s.pwr.xa) ∧
   (∀ (dt : Nat) (abPpm aPtp bPtp : Int) (s : State), s.pwr.held = false →
    (abPpm.natAbs ≤ 2000 → goesTo (.crystalCompare dt abPpm aPtp bPtp) s dt [.pwr] fun t => t.pwr = { s.pwr with abPpm := BitVec.ofInt 16 abPpm }) ∧
    (2000 < abPpm.natAbs → s.pwr.xa.stopped = false → s.pwr.xb.stopped = false →
      (s.tb.lock ≠ .locked → goesTo (.crystalCompare dt abPpm aPtp bPtp) s dt [.pwr] fun t => t.pwr.clkRef = s.pwr.clkRef ∧
        ((s.elapse dt).since ((s.pwr.ev.getD 2 EvGate.reset).last) 10000000000 = true →
          ∀ n ∈ watchers s.pwr.watch 0, s.reports t n 0x8E00 0 (body s dt 2 0xFF 0))) ∧
      (s.tb.lock = .locked → s.pwr.clkRef = 1 → s.pwr.xb.good = true → bPtp.natAbs ≤ 1000 → 1000 < aPtp.natAbs →
        goesTo (.crystalCompare dt abPpm aPtp bPtp) s dt [.pwr, .flt, .top] fun t => t.pwr.clkRef = 2 ∧ t.pwr.xa.good = false ∧ t.pwr.failover = true))) ∧
   (∀ (dt island : Nat) (s : State), s.pwr.held = false → island < 43 → goesTo (.forcedSwitch dt island) s dt [.pwr, .flt, .top] fun t => t.pwr.forced = true ∧
      t.pwr.forcedN = sat 32 (s.pwr.forcedN + 1) ∧ ∀ n ∈ watchers s.pwr.watch 0, s.reports t n 0x8E00 0 (body s dt 1 island 0)) ∧
   ∀ (dt rail mv us nominal : Nat) (s : State), railNominal[rail]? = some nominal →
    (mv * 100 < nominal * 95 → 10 ≤ us → ∃ t, exec (.supplyLow dt rail mv us) s = .next t ∧ t.pwr.held = true ∧ t.pwr.supplyGood = false ∧
      t.store = State.reset.store ∧ t.top = State.reset.top) ∧
    (nominal * 95 ≤ mv * 100 → mv * 1000 < nominal * 975 → 100 ≤ us → goesTo (.supplyLow dt rail mv us) s dt [.pwr] fun t => t.pwr.held = s.pwr.held ∧
      ((s.elapse dt).since (s.pwr.railAt.getD rail none) 10000000000 = true →
        ∀ n ∈ watchers s.pwr.watch 1, s.reports t n 0x8E00 0 (body s dt 4 rail (sat 16 mv)))) ∧
    (nominal * 975 ≤ mv * 1000 → goesTo (.supplyLow dt rail mv us) s dt [.pwr] fun t => t.pwr.held = s.pwr.held ∧ t.pwr.ev = s.pwr.ev)) ∧
  (∀ (dt island : Nat) (low : Bool) (s : State), hasLowPoint island = true → island < s.fab.isl.length → (s.island island).power = .run →
    ((low = false ∨ s.hasWork island = false) → goesTo (.vfChange dt island low) s dt [] fun t =>
      t.island island = { s.island island with rated := !low } ∧ onlyAt s.fab.isl t.fab.isl island) ∧
    (low = true → s.hasWork island = true → exec (.vfChange dt island low) s = .next (s.elapse dt))) ∧
  (∀ (dt island : Nat) (target : GateTarget) (s : State), island < s.fab.isl.length → (s.island island).power = .run → (s.island island).isolated = false →
    (s.mayGate island target = true → s.hasWork island = false →
      (∀ x ∈ s.fab.xing, x.snd = island ∨ x.rcv = island → x.unacked = []) →
      goesTo (.gateRequest dt island target false) s dt [] fun t =>
        t.island island = { s.island island with power := GateTarget.state target } ∧ onlyAt s.fab.isl t.fab.isl island) ∧
    (∀ x ∈ s.fab.xing, (x.snd = island ∨ x.rcv = island) → x.unacked ≠ [] → exec (.gateRequest dt island target false) s = .next (s.elapse dt)) ∧
    exec (.gateRequest dt island target true) s = .next (s.elapse dt)) ∧
  (∀ (dt island : Nat) (s : State), island < s.fab.isl.length → (s.island island).power = .gated ∨ (s.island island).power = .retain →
    goesTo (.islandWake dt island) s dt [] fun t => t.island island = { s.island island with power := .run } ∧ onlyAt s.fab.isl t.fab.isl island) ∧
  (∀ (dt ring : Nat) (counts : List Nat) (b : Begun) (s : State), s.hasFolio ring 0x0E00 b →
    let c := s.fctx ring b
    (c.u 0x10 1 ≠ 1 → completes (.returnA dt ring counts) s dt ring b .param 0 [] fun _ => True) ∧
    (c.u 0x10 1 = 1 → c.colour ≠ s.admin → completes (.returnA dt ring counts) s dt ring b .colour 0 [] fun _ => True) ∧
    (c.u 0x10 1 = 1 → c.colour = s.admin → s.pwr.clkRef = 1 → completes (.returnA dt ring counts) s dt ring b .state 0 [] fun _ => True) ∧
    (c.u 0x10 1 = 1 → c.colour = s.admin → s.pwr.clkRef ≠ 1 → crystalJudge counts = false →
      completes (.returnA dt ring counts) s dt ring b .state 0 [.pwr] fun t => t.pwr = { s.pwr with xa := ⟨false, false⟩ }) ∧
    (c.u 0x10 1 = 1 → c.colour = s.admin → s.pwr.clkRef ≠ 1 → crystalJudge counts = true → completes (.returnA dt ring counts) s dt ring b .ok 0 [.pwr] fun t =>
      t.pwr = { s.pwr with clkRef := 1, failover := true, xa := ⟨true, false⟩ })) ∧
  (∀ (dt ring : Nat) (b : Begun) (s : State), s.hasFolio ring 0x0E01 b →
    let c := s.fctx ring b
    1 ≤ c.u 0x10 1 → c.u 0x10 1 ≤ 8 →
    (s.lifecycle ≠ .develop → completes (.clockFuse dt ring) s dt ring b .lifecycle 0 [] fun _ => True) ∧
    (s.lifecycle = .develop → c.colour = s.admin → s.pwr.fused = true → completes (.clockFuse dt ring) s dt ring b .state 0 [] fun _ => True) ∧
    (s.lifecycle = .develop → c.colour = s.admin → s.pwr.fused = false → completes (.clockFuse dt ring) s dt ring b .ok 0 [.pwr] fun t =>
      t.pwr = { s.pwr with delay := BitVec.ofNat 4 (c.u 0x10 1), fused := true }))

/-- R535 to R540, R618, R475. Temperature and ageing.
Where the rules leave a case open the clauses follow the choices of the model (log entries 43 and 57). -/
def Obligations.HeatAndAgeingAreWatched : Prop :=
  (∀ (dt sensor : Nat) (temp : Int) (s : State), sensor < 33 → sensor < s.pwr.temp.length → s.pwr.held = false →
    let body (value : Nat) : List Byte := leBytes 1 3 ++ leBytes 1 (s.sensorIsland sensor) ++ leBytes 2 value ++
      leBytes 4 (sat 32 ((s.pwr.ev.getD 3 EvGate.reset).count + 1)) ++ leBytes 8 (s.elapse dt).tb.dev
    (105 < temp → s.pwr.hot = false → goesTo (.thermalReading dt sensor temp) s dt [.pwr, .top] fun t => t.pwr.hot = true ∧
      t.pwr.temp[sensor]? = some temp ∧ t.top.faults.getLsbD 12 = true ∧ t.top.change.getLsbD 5 = true ∧
      ∀ n ∈ watchers s.pwr.watch 1, s.reports t n 0x8E00 0 (body (wordOf 16 temp))) ∧
    (∀ t₀, s.pwr.hot = true → (∀ x ∈ s.pwr.temp.modify sensor fun _ => temp, x < 100) → s.pwr.coolSince = some t₀ → t₀ + 1000000000 ≤ (s.elapse dt).tb.now →
      goesTo (.thermalReading dt sensor temp) s dt [.pwr, .top] fun t => t.pwr.hot = false ∧
        ∀ n ∈ watchers s.pwr.watch 1, s.reports t n 0x8E00 0 (body 0)) ∧
    (temp ≤ 105 → s.pwr.hot = false → goesTo (.thermalReading dt sensor temp) s dt [.pwr] fun t => t.pwr.hot = false ∧
      t.pwr.temp[sensor]? = some temp ∧ t.pwr.ev = s.pwr.ev) ∧
    (120 ≤ temp → s.pwr.hot = true → ∃ t, exec (.thermalShutdown dt sensor temp) s = .next t ∧ t.pwr.held = false ∧
      (∀ n ∈ watchers s.pwr.watch 1, s.reports t n 0x8E00 0 (body (wordOf 16 temp))) ∧
      (s.twin.st ≠ .active → t.twin.st = s.twin.st) ∧
      (s.twin.st = .active → s.synced = true → s.twin.partnerLasting = [] → t.twin.st = .yielding ∧ t.twin.hbOut = false ∧ t.twin.activeN = false) ∧
      (s.twin.st = .active → s.synced = false → t.twin.st = .active))) ∧
  (∀ (dt sensor : Nat) (temp : Int) (s : State), sensor < 33 → 130 ≤ temp → ∃ t, exec (.thermalTrip dt sensor temp) s = .next t ∧ t.pwr.held = true ∧ t.pwr.tripped = true ∧
    t.top = State.reset.top ∧ t.host.rings = State.reset.host.rings) ∧
  (∀ (dt : Nat) (s : State), s.pwr.tripped = true →
    (∀ t₀, s.pwr.coolSince = some t₀ → t₀ + 10000000000 ≤ (s.elapse dt).tb.now →
      goesTo (.thermalTripRelease dt) s dt [.pwr] fun t => t.pwr = { s.pwr with tripped := false }) ∧
    (s.pwr.coolSince = none → exec (.thermalTripRelease dt) s = .next (s.elapse dt))) ∧
  (∀ (dt island : Nat) (pairs : List PairIn) (slack : Int) (s : State), s.pwr.booted = true → island < 43 → island < s.fab.isl.length → pairs ≠ [] → (s.island island).power ≠ .off →
    let v := (s.island island).vPlan
    (25 ≤ slack → slack ≤ 45 → goesTo (.ageingMeasure dt island pairs slack) s dt [.pwr] fun t => (t.island island).vPlan = v ∧
      (t.island island).drift = driftOf pairs ∧ (t.island island).slack = slack ∧ (t.island island).recheck = false ∧ onlyAt s.fab.isl t.fab.isl island) ∧
    (0 ≤ slack → slack < 25 → v + 5 ≤ 860 → (s.island island).vInit ≤ v + 5 → goesTo (.ageingMeasure dt island pairs slack) s dt [.pwr] fun t =>
      (t.island island).vPlan = v + 5 ∧ (t.island island).recheck = true ∧ onlyAt s.fab.isl t.fab.isl island) ∧
    (slack < 0 → v + 10 ≤ 860 → (s.island island).vInit ≤ v + 10 → (s.island island).isolated = false → 10 < s.flt.src.length →
      goesTo (.ageingMeasure dt island pairs slack) s dt [.pwr, .flt, .top] fun t => (t.island island).vPlan = v + 10 ∧
        (t.island island).canaryFails = sat 16 ((s.island island).canaryFails + 1) ∧ onlyAt s.fab.isl t.fab.isl island ∧
        (t.flt.src.getD 10 FltSource.reset).events = sat 32 ((s.flt.src.getD 10 FltSource.reset).events + 1)) ∧
    (0 ≤ slack → slack < 25 → 860 < v + 5 → (s.island island).vInit ≤ 860 → goesTo (.ageingMeasure dt island pairs slack) s dt [.pwr, .top] fun t =>
      (t.island island).vPlan = 860 ∧ t.top.faults.getLsbD 13 = true ∧ onlyAt s.fab.isl t.fab.isl island) ∧
    (∀ t₀, 45 < slack → (s.island island).aboveSince = some t₀ → t₀ + 86400000000000 ≤ (s.elapse dt).tb.now → (s.island island).vInit + 5 ≤ v → v ≤ 865 →
      goesTo (.ageingMeasure dt island pairs slack) s dt [.pwr] fun t => (t.island island).vPlan = v - 5 ∧ onlyAt s.fab.isl t.fab.isl island)) ∧
  (∀ (dt island : Nat) (slack : Int) (s : State), (s.island island).recheck = true → island < s.fab.isl.length →
    let v := (s.island island).vPlan
    (25 ≤ slack → slack ≤ 45 → goesTo (.marginRecheck dt island slack) s dt [.pwr] fun t => (t.island island).vPlan = v ∧ (t.island island).recheck = false) ∧
    (0 ≤ slack → slack < 25 → v + 5 ≤ 860 → (s.island island).vInit ≤ v + 5 → goesTo (.marginRecheck dt island slack) s dt [.pwr] fun t =>
      (t.island island).vPlan = v + 5 ∧ (t.island island).recheck = true)) ∧
  (ageHours 705 780 18000 = 17041 ∧ margin95Tenths 705 780 18000 = 187 ∧ marginNowTenths 705 780 18000 75 = 748) ∧
  (ageHours 730 800 11000 = 15225 ∧ margin95Tenths 730 800 11000 = 70 ∧ marginNowTenths 730 800 11000 85 = 141)

/-- R546, R551, R552, R554, R555, R557, R559 to R562, R564, R454. The serial lanes.
Where the rules leave a case open the clauses follow the choices of the model (log entries 2, 35 and 62). -/
def Obligations.LanesAdaptTestAndCount : Prop :=
  (∀ (dt q l : Nat) (temp : Int) (cdrLocked : Bool) (s : State), q < s.lanes.quad.length → l < (s.quad q).lane.length →
    let y := s.lane q l
    ((y.listens = false ∨ y.frozen = true) → exec (.freezeAdaptation dt q l) s = .next (s.elapse dt)) ∧
    (y.listens = true → y.frozen = false → goesTo (.freezeAdaptation dt q l) s dt [.lanes] fun t =>
      t.lane q l = { y with frozen := true, frozenAt := (s.elapse dt).tb.now, frozenTemp := s.islandTemp (quadIsland q) }) ∧
    ((y.frozen = false ∨ y.heldByTest = true) → exec (.freezeEnd dt q l cdrLocked temp) s = .next (s.elapse dt)) ∧
    (y.frozen = true → y.heldByTest = false → y.listens = true →
      ((s.elapse dt).tb.now ≤ y.frozenAt + 10000000 → (temp - y.frozenTemp).natAbs ≤ 10 →
        goesTo (.freezeEnd dt q l cdrLocked temp) s dt [.lanes] fun t =>
          t.lane q l = { y with frozen := false, cdr := cdrLocked, rx := if y.rx = .sleep then .active else y.rx }) ∧
      ((y.frozenAt + 10000000 < (s.elapse dt).tb.now ∨ 10 < (temp - y.frozenTemp).natAbs) →
        goesTo (.freezeEnd dt q l cdrLocked temp) s dt [.lanes] fun t => (t.lane q l).frozen = false ∧ (t.lane q l).ctle = y.ctle ∧
          (t.lane q l).saved = some (y.ctle, y.vga) ∧ (t.lane q l).refresh = BitVec.ofNat 16 (sat 16 (y.refresh.toNat + 1)) ∧
          ((s.elapse dt).since (y.ev.getD 3 EvGate.reset).last 1000000000 = true → ∀ n ∈ watchers s.lanes.watch 2, s.reports t n 0x8F00 0
            (leBytes 1 q ++ leBytes 1 l ++ leBytes 1 3 ++ leBytes 1 0 ++ leBytes 4 (sat 32 ((y.ev.getD 3 EvGate.reset).count + 1)) ++ leBytes 4 0 ++
              leBytes 4 0))))) ∧
  (∀ (dt q l : Nat) (s : State), l < 4 → q < s.lanes.quad.length → l < (s.quad q).lane.length →
    let y := s.lane q l
    ((y.listens = false ∨ y.frozen = true ∨ y.cdr = true ∨ y.test.isSome = true) → exec (.cdrLockFail dt q l) s = .next (s.elapse dt)) ∧
    (y.listens = true → y.frozen = false → y.cdr = false → y.test = none → y.lost = false →
      (9 ≤ q → q ≤ 11 → (s.spineLink (q - 9)).st = 2 → q - 9 < s.gath.link.length → ∃ t, exec (.cdrLockFail dt q l) s = .next t ∧ (t.spineLink (q - 9)).st = 0) ∧
      (q < 8 → (s.dpPort q).st = .up → q < s.comp.port.length → ∃ t, exec (.cdrLockFail dt q l) s = .next t ∧ (t.dpPort q).st = .training) ∧
      (q = 8 → (s.port l).link = true → l < s.net.ports.length → ∃ t, exec (.cdrLockFail dt q l) s = .next t ∧ (t.port l).link = false))) ∧
  (∀ (dt q : Nat) (s : State), q < 13 → q < s.lanes.quad.length →
    ((s.quad q).pllLock = false → exec (.quadPllLoss dt q) s = .next (s.elapse dt)) ∧
    ((s.quad q).pllLock = true → ∃ t, exec (.quadPllLoss dt q) s = .next t ∧ (t.quad q).pllLoss = BitVec.ofNat 8 (sat 8 ((s.quad q).pllLoss.toNat + 1)) ∧
      (q = 12 → (t.quad q).pllLock = false ∧ (∀ y ∈ (t.quad q).lane, y.cdr = false) ∧
        ((s.elapse dt).since ((s.lane q 0).ev.getD 2 EvGate.reset).last 1000000000 = true → ∀ n ∈ watchers s.lanes.watch 1, s.reports t n 0x8F00 0
          (leBytes 1 q ++ leBytes 1 0xFF ++ leBytes 1 2 ++ leBytes 1 0 ++ leBytes 4 (sat 32 (((s.lane q 0).ev.getD 2 EvGate.reset).count + 1)) ++ leBytes 4 0 ++
            leBytes 4 0))))) ∧
  (∀ (dt q l : Nat) (target : LaneTarget) (s : State), q < 13 → l < 4 → q < s.lanes.quad.length → l < (s.quad q).lane.length →
    (q ≠ 12 → txOf target ≠ (s.laneUser q l).1 → exec (.laneStateChange dt q l false target) s = .next (s.elapse dt)) ∧
    ((q = 12 ∨ txOf target = (s.laneUser q l).1) → (s.lane q l).test = none → goesTo (.laneStateChange dt q l false target) s dt [.lanes] fun t =>
      (t.lane q l).tx = txOf target ∧ (t.lane q l).rx = (s.lane q l).rx ∧ (t.lane q l).frozen = (s.lane q l).frozen ∧
      (t.quad q).pllLock = (t.quad q).lane.any fun y => !(decide (y.tx = .off) && decide (y.rx = .off))) ∧
    (target = .idle → exec (.laneStateChange dt q l true target) s = .next (s.elapse dt)) ∧
    (∀ (r : RxSt), rxOf target = some r → (q = 12 ∨ r = (s.laneUser q l).2) → (s.lane q l).rx ≠ r → (s.lane q l).test = none →
      goesTo (.laneStateChange dt q l true target) s dt [.lanes] fun t => (t.lane q l).rx = r ∧ (t.lane q l).tx = (s.lane q l).tx ∧
        (r = .active → (s.lane q l).rx = .off → (t.lane q l).ctle = 8))) ∧
  (∀ (dt ring : Nat) (b : Begun) (s : State), s.hasFolio ring 0x0F00 b →
    let c := s.fctx ring b
    let q := c.u 0x10 1
    let mask := c.u 0x11 1
    let mode := c.u 0x12 1
    let inject := c.u 0x15 1
    q < 13 → mask < 16 → mode < 5 → c.u 0x13 1 % 4 < 3 → c.u 0x13 1 / 4 % 32 = 0 → inject < 3 → (inject = 2 → 10 ≤ c.u 0x16 1 ∧ c.u 0x16 1 ≤ 30) →
    (c.u 0x17 1 < 16 ∨ c.u 0x17 1 = 0xFF) → c.u 0x18 4 ≤ 3600000 →
    (¬ (mode = 0 ∧ inject = 1) →
      (c.colour ≠ s.admin → completes (.laneTest dt ring) s dt ring b .colour 0 [] fun _ => True) ∧
      (c.colour = s.admin → (q = 12 ∨ (q < 8 ∧ (mode = 1 ∨ mode = 4)) ∨ (mode ≠ 0 ∧ rateGiven q (c.u 0x14 1) = false)) →
        completes (.laneTest dt ring) s dt ring b .state 0 [] fun _ => True) ∧
      (c.colour = s.admin → q ≠ 12 → ¬ (q < 8 ∧ (mode = 1 ∨ mode = 4)) → mode ≠ 0 → rateGiven q (c.u 0x14 1) = true →
        (((q < 8 ∧ (s.dpPort q).st ≠ .off) ∨ (q = 8 ∧ ∃ l, l < 4 ∧ bitOf mask l = true ∧ (s.port l).mode ≠ 0) ∨
            (9 ≤ q ∧ (s.spineLink (q - 9)).st = 2 ∧ s.lifecycle ≠ .develop) ∨ (q = 11 ∧ s.twin.st = .active ∧ s.twin.inSync = true)) →
          completes (.laneTest dt ring) s dt ring b .busy 0 [] fun _ => True) ∧
        (s.testBusy q mask = false → q < s.lanes.quad.length →
          ((q < 9 ∨ (s.spineLink (q - 9)).st ≠ 2) → completes (.laneTest dt ring) s dt ring b .ok 0 [.lanes] fun t =>
            ∀ l, l < 4 → l < (s.quad q).lane.length → bitOf mask l = true → (t.lane q l).test = some (testOf c (s.elapse dt)) ∧ (t.lane q l).errors = 0 ∧
              (t.lane q l).bits = 0 ∧ (t.lane q l).injected = 0 ∧ (t.lane q l).sync = false ∧ (t.lane q l).frozen = decide (c.u 0x17 1 ≠ 0xFF) ∧
              (t.lane q l).tx = (if mode = 4 then (s.laneUser q l).1 else .test) ∧ (t.lane q l).rx = (if mode = 3 then (s.laneUser q l).2 else .test)) ∧
          (9 ≤ q → (s.spineLink (q - 9)).st = 2 → mask ≠ 0 → q - 9 < s.gath.link.length → ∃ t, exec (.laneTest dt ring) s = .next t ∧ t.ended ring ∧
            (t.spineLink (q - 9)).st = 0 ∧ (t.spineLink (q - 9)).losses = sat 32 ((s.spineLink (q - 9)).losses + 1)))) ∧
      (c.colour = s.admin → q < 12 → mode = 0 → completes (.laneTest dt ring) s dt ring b .ok 0 [.lanes] fun t =>
        ∀ (l : Nat) (x : LaneTest), l < 4 → q < s.lanes.quad.length → l < (s.quad q).lane.length → mask = 2 ^ l → (s.lane q l).test = some x → (t.lane q l).test = none ∧
          (t.lane q l).tx = (s.laneUser q l).1 ∧ (t.lane q l).rx = (s.laneUser q l).2 ∧
          ∀ n ∈ watchers s.lanes.watch 0, s.reports t n 0x8F00 b.folio.tag (leBytes 1 q ++ leBytes 1 l ++ leBytes 1 0 ++ leBytes 1 0 ++
            leBytes 4 (sat 32 (((s.lane q l).ev.getD 0 EvGate.reset).count + 1)) ++ leBytes 4 (sat 32 x.errors) ++ leBytes 4 (sat 32 (x.bits / 2 ^ 20))))) ∧
    (mode = 0 → inject = 1 → 9 ≤ q → q < 12 → s.lifecycle = .develop → c.colour = s.admin →
      ((s.spineLink (q - 9)).st ≠ 2 → completes (.laneTest dt ring) s dt ring b .state 0 [] fun _ => True) ∧
      ((s.spineLink (q - 9)).st = 2 → completes (.laneTest dt ring) s dt ring b .ok 0 [.lanes] fun t =>
        ∀ l, l < 4 → q < s.lanes.quad.length → l < (s.quad q).lane.length → t.lane q l = if bitOf mask l then
          { s.lane q l with injected := BitVec.ofNat 32 (sat 32 ((s.lane q l).injected.toNat + 1)) } else s.lane q l))) ∧
  (∀ (dt q l : Nat) (x : LaneTest) (errors : Nat) (s : State), q < s.lanes.quad.length → l < (s.quad q).lane.length → (s.lane q l).test = some x →
    (x.mode = 3 → exec (.checkerSync dt q l errors) s = .next (s.elapse dt)) ∧
    (x.mode ≠ 3 → goesTo (.checkerSync dt q l errors) s dt [.lanes] fun t => (t.lane q l).errors = (s.lane q l).errors ∧
      (t.lane q l).sync = (if (s.lane q l).sync then decide (errors < 64) else decide (errors = 0)) ∧
      (t.lane q l).test = some { x with runFrom := if x.runFrom.isSome then x.runFrom else if (t.lane q l).sync then some (s.elapse dt).tb.now else none }) ∧
    ((x.runFrom = none ∨ x.duration = 0) → exec (.testDone dt q l) s = .next (s.elapse dt)) ∧
    (∀ t₀, x.runFrom = some t₀ → x.duration ≠ 0 → q < 12 →
      ((s.elapse dt).tb.now < t₀ + x.duration * 1000000 → exec (.testDone dt q l) s = .next (s.elapse dt)) ∧
      (t₀ + x.duration * 1000000 ≤ (s.elapse dt).tb.now → goesTo (.testDone dt q l) s dt [.lanes] fun t => (t.lane q l).test = none ∧
        (t.lane q l).tx = (s.laneUser q l).1 ∧ (t.lane q l).rx = (s.laneUser q l).2 ∧
        ∀ n ∈ watchers s.lanes.watch 0, s.reports t n 0x8F00 x.tag.toNat (leBytes 1 q ++ leBytes 1 l ++ leBytes 1 0 ++ leBytes 1 0 ++
          leBytes 4 (sat 32 (((s.lane q l).ev.getD 0 EvGate.reset).count + 1)) ++ leBytes 4 (sat 32 x.errors) ++ leBytes 4 (sat 32 (x.bits / 2 ^ 20)))))) ∧
  (∀ (dt q l : Nat) (g : LaneReadIn) (s : State), q < 13 → l < 4 → q < s.lanes.quad.length → l < (s.quad q).lane.length →
    let y := s.lane q l
    (g.cdrLoss = 0 → y.cdrLoss = 0 → (q < 8 ∨ (g.codeErr = 0 ∧ y.codeErr = 0)) → goesTo (.counterPoll dt q l g) s dt [.lanes] fun t =>
      (t.lane q l).errors = 0 ∧ (t.lane q l).injected = 0 ∧ (t.lane q l).refresh = 0 ∧ (t.lane q l).cdrLoss = 0 ∧ (t.lane q l).codeErr = 0 ∧
      (t.lane q l).totRefresh = sat 32 (y.totRefresh + y.refresh.toNat) ∧
      ((y.test = none ∨ y.sync = false) → (t.lane q l).bits = y.bits ∧ (t.lane q l).totErrors = sat 32 (y.totErrors + y.errors.toNat)) ∧
      (∀ (x : LaneTest), y.test = some x → y.sync = true → (t.lane q l).bits = BitVec.ofNat 48 (y.bits.toNat + g.bits) ∧
        ((t.lane q l).test.map fun (z : LaneTest) => (z.errors, z.bits)) = some (x.errors + g.errors, x.bits + g.bits))) ∧
    (q < 13 → (g.cdrLoss ≠ 0 ∨ g.codeErr ≠ 0) → ∃ t, exec (.counterPoll dt q l g) s = .next t ∧ (t.lane q l).cdrLoss = 0 ∧
      (t.lane q l).codeErr = 0)) ∧
  (∀ (dt q l : Nat) (s : State), q < s.lanes.quad.length → l < (s.quad q).lane.length →
    let y := s.lane q l
    goesTo (.laneCounterRead dt q l .errors) s dt [.host, .lanes] (fun t => t.host.bus.reply = leBytes 4 y.errors.toNat ∧
      t.lane q l = { y with errors := 0, totErrors := sat 32 (y.totErrors + y.errors.toNat) }) ∧
    goesTo (.laneCounterRead dt q l .injected) s dt [.host, .lanes] (fun t => t.host.bus.reply = leBytes 4 y.injected.toNat ∧
      t.lane q l = { y with injected := 0, totInjected := sat 32 (y.totInjected + y.injected.toNat) }) ∧
    goesTo (.laneCounterRead dt q l .codeAndCdr) s dt [.host, .lanes] (fun t =>
      t.host.bus.reply = leBytes 2 y.codeErr.toNat ++ leBytes 2 y.cdrLoss.toNat ∧ (t.lane q l).codeErr = 0 ∧ (t.lane q l).cdrLoss = 0 ∧
      (t.lane q l).totCode = sat 32 (y.totCode + y.codeErr.toNat) ∧ (t.lane q l).totCdr = sat 32 (y.totCdr + y.cdrLoss.toNat)) ∧
    goesTo (.laneCounterRead dt q l .refresh) s dt [.host, .lanes] (fun t => t.host.bus.reply = leBytes 4 y.refresh.toNat ∧
      t.lane q l = { y with refresh := 0, totRefresh := sat 32 (y.totRefresh + y.refresh.toNat) }) ∧
    goesTo (.laneCounterRead dt q l .quad) s dt [.host, .lanes] (fun t => t.lane q l = y ∧ (t.quad q).pllLoss = 0 ∧
      t.host.bus.reply = leBytes 1 (b2n (s.quad q).pllLock) ++ leBytes 1 (s.quad q).pllLoss.toNat ++ leBytes 2 0 ∧
      (t.quad q).totPll = sat 32 ((s.quad q).totPll + (s.quad q).pllLoss.toNat)) ∧
    goesTo (.laneBitsLoRead dt q l) s dt [.host, .lanes] fun t => t.host.bus.reply = leBytes 4 y.bits.toNat ∧
      t.lane q l = { y with bitsHi := y.bits.extractLsb' 32 16 })

/-- R565 to R567, R569, R571. The fault recorder and its folios.
Where the rules leave a case open the clauses follow the choices of the model (log entry 48). -/
def Obligations.FaultsAreCountedAndActedOn : Prop :=
  (∀ (dt source island unit detail key : Nat) (s : State), instanceOk source island unit key = true → source ≠ 10 → source ≠ 11 → source < s.flt.src.length →
    (s.island island).isolated = false →
    ((∀ f ∈ s.flt.inst, f.is source island unit key = false) → (s.flt.src.getD source FltSource.reset).fixed = false →
      2 ≤ (s.flt.src.getD source FltSource.reset).n →
      goesTo (.faultEvent dt source island unit detail key) s dt [.flt, .top] fun t => t.fab = s.fab ∧
        (t.flt.src.getD source FltSource.reset).events = sat 32 ((s.flt.src.getD source FltSource.reset).events + 1) ∧
        (t.flt.src.getD source FltSource.reset).lasting = (s.flt.src.getD source FltSource.reset).lasting ∧
        t.flt.log = ({ time := (s.elapse dt).tb.dev, src := source, island := island, unit := unit, lasting := false, detail := detail } :: s.flt.log).take 256 ∧
        onlyAt s.flt.src t.flt.src source) ∧
    (∀ f, source = 14 → key < s.svc.ze.length → s.flt.inst.find? (·.is source island unit key) = some f →
      let q := s.flt.src.getD source FltSource.reset
      lastingTest q.n q.w (s.elapse dt).tb.now (((s.elapse dt).tb.now :: f.times).take q.n) = true → s.twin.resyncCause1 = false → s.top.handover = false →
      goesTo (.faultEvent dt source island unit detail key) s dt [.flt, .top, .svc] fun t => (t.zeEngine key).disabled = true ∧
        onlyAt s.svc.ze t.svc.ze key ∧ t.fab = s.fab ∧ (t.flt.src.getD source FltSource.reset).lasting = sat 32 (q.lasting + 1) ∧
        ∀ n ∈ s.flt.watch, s.reports t n 0x9000 0 (faultBody 14 0 island unit q.n (s.elapse dt).tb.dev))) ∧
  (∀ (dt source island unit key : Nat) (f : FltInst) (s : State), s.flt.inst.find? (·.is source island unit key) = some f → f.present = true → (s.elapse dt).quiet f = true →
    goesTo (.faultClear dt source island unit key) s dt [.flt, .top] fun t =>
      (∀ g ∈ t.flt.inst, g.is source island unit key = true → g.present = false) ∧ t.flt.log = s.flt.log ∧
      ∀ n ∈ s.flt.watch, s.reports t n 0x9000 0 (faultBody source 1 island unit 0 f.declared)) ∧
  (∀ (dt ring : Nat) (b : Begun) (s : State), s.hasFolio ring 0x1000 b →
    let c := s.fctx ring b
    let src := c.u 0x10 1
    src < 16 → src < s.flt.src.length → 1 ≤ c.u 0x11 1 → c.u 0x11 1 ≤ 16 → 1 ≤ c.u 0x12 2 → c.u 0x12 2 ≤ 3600 →
    s.lifecycle = .develop ∨ s.lifecycle = .field →
    (c.colour = s.admin → (s.flt.src.getD src FltSource.reset).fixed = false →
      completes (.faultConfig dt ring) s dt ring b .ok 0 [.flt] fun t =>
        t.flt.src[src]? = some { s.flt.src.getD src FltSource.reset with n := c.u 0x11 1, w := c.u 0x12 2 } ∧ onlyAt s.flt.src t.flt.src src ∧
        t.flt = { s.flt with src := t.flt.src }) ∧
    (c.colour = s.admin → (s.flt.src.getD src FltSource.reset).fixed = true →
      completes (.faultConfig dt ring) s dt ring b .state 0 [] fun _ => True) ∧
    (c.colour ≠ s.admin → completes (.faultConfig dt ring) s dt ring b .colour 0 [] fun _ => True)) ∧
  (∀ (dt ring : Nat) (b : Begun) (s : State), s.hasFolio ring 0x1002 b →
    let c := s.fctx ring b
    let n := c.u 0x10 1
    (n < 32 → evOk c s n = true → completes (.faultWatch dt ring) s dt ring b .ok 0 [.flt] fun t =>
      (∀ r, r ∈ t.flt.watch ↔ r = c.ev n ∨ r ∈ s.flt.watch) ∧ t.flt = { s.flt with watch := t.flt.watch }) ∧
    (n = 0xFF → b.origin = none → completes (.faultWatch dt ring) s dt ring b .ok 0 [.flt] fun t =>
      (∀ r, r ∈ t.flt.watch ↔ r ∈ s.flt.watch ∧ ¬ (r < 256 ∧ s.ringColour r = c.colour)) ∧ t.flt = { s.flt with watch := t.flt.watch }))

/-- R572 to R576. The check-value units.
Where the rules leave a case open the clauses follow the choices of the model (log entries 49 and 62). -/
def Obligations.CheckUnitsComputeAndCompare : Prop :=
  (let digits : List Byte := [0x31, 0x32, 0x33, 0x34, 0x35, 0x36, 0x37, 0x38, 0x39]
   let value (poly : Nat) := cvFinal poly (cvOver poly (cvInit poly) digits)
   value 0 = 0xCBF43926 ∧ value 1 = 0xE3069283 ∧ value 2 = 0x29B1 ∧ value 3 = 0x6C40DF5F0B497347) ∧
  (∀ (dt ring : Nat) (b : Begun) (s : State), s.hasFolio ring 0x1010 b →
    let c := s.fctx ring b
    let u := c.u
    let unit := u 0x10 1
    (unit < 7 → unit < s.svc.cv.length → u 0x11 1 = 0 → u 0x12 1 < 4 → [0, 1, 2, 4].contains (u 0x13 1) = true →
      (u 0x13 1 = 0 ∨ (1 ≤ u 0x18 4 ∧ u 0x18 4 ≤ 2 ^ (8 * u 0x13 1) - 1)) → u 0x1C 1 < 32 → evOk c s (u 0x1C 1) = true →
      ((s.cvUnit unit).owner = none ∨ (s.cvUnit unit).owner = some c.colour →
        completes (.cvConfig dt ring) s dt ring b .ok 0 [.svc] fun t =>
          t.cvUnit unit = { s.cvUnit unit with
            owner := some c.colour, poly := u 0x12 1, aliveWidth := u 0x13 1, aliveOffset := u 0x14 4, aliveStep := u 0x18 4, ring := c.ev (u 0x1C 1)
            context := BitVec.ofNat 64 (cvInit (u 0x12 1)), lastAlive := none, txAlive := 0 } ∧
          onlyAt s.svc.cv t.svc.cv unit ∧ t.svc.ze = s.svc.ze) ∧
      (∀ k, (s.cvUnit unit).owner = some k → k ≠ c.colour → completes (.cvConfig dt ring) s dt ring b .colour 0 [] fun _ => True)) ∧
    (unit = 7 → u 0x11 1 = 1 → completes (.cvConfig dt ring) s dt ring b .colour 0 [] fun _ => True) ∧
    (unit < 7 → unit < s.svc.cv.length → u 0x11 1 = 1 → (s.cvUnit unit).owner = some c.colour →
      completes (.cvConfig dt ring) s dt ring b .ok 0 [.svc, .net] fun t => (t.cvUnit unit).owner = none ∧ onlyAt s.svc.cv t.svc.cv unit ∧
        (∀ p ∈ t.net.ports, some unit ∉ p.cv) ∧ t.net.sent = s.net.sent)) ∧
  (∀ (dt ring : Nat) (b : Begun) (s : State), s.hasFolio ring 0x1011 b →
    let c := s.fctx ring b
    let u := c.u
    let unit := u 0x10 1
    let x := s.cvUnit unit
    let bs := s.winRead (u 0x12 1) (u 0x14 4) (u 0x18 4)
    let context := cvOver x.poly x.context.toNat bs
    let final := cvFinal x.poly context
    unit < 7 → unit < s.svc.cv.length → u 0x12 1 < 8 → 1 ≤ u 0x18 4 → u 0x18 4 ≤ 16777216 → x.owner = some c.colour →
    s.winOk (u 0x12 1) c.colour = true → s.winSpan (u 0x12 1) (u 0x14 4) (u 0x18 4) false = true →
    s.winDamaged (u 0x12 1) (u 0x14 4) (u 0x18 4) = false →
    (u 0x11 1 = 0 → completes (.cvRun dt ring) s dt ring b .ok final [.svc] fun t =>
      t.cvUnit unit = { x with context := BitVec.ofNat 64 context } ∧ onlyAt s.svc.cv t.svc.cv unit) ∧
    (u 0x11 1 = 2 → completes (.cvRun dt ring) s dt ring b .ok final [.svc] fun t =>
      (t.cvUnit unit).context = BitVec.ofNat 64 context ∧
      (final ≠ u 0x28 8 → s.reports t x.ring 0x9010 b.folio.tag (leBytes 1 unit ++ leBytes 1 0 ++ leBytes 2 0 ++ leBytes 4 0 ++ leBytes 8 final)))) ∧
  (∀ (dt ring : Nat) (b : Begun) (s : State), s.hasFolio ring 0x1012 b →
    let c := s.fctx ring b
    let u := c.u
    let unit := u 0x10 1
    let p := u 0x11 1
    let q := u 0x12 1
    unit < 7 → unit < s.svc.cv.length → p < 4 → p < s.net.ports.length → q < 8 → q < (s.port p).cv.length → (s.cvUnit unit).owner = some c.colour →
    (u 0x1A 1 = 0 → u 0x14 2 < u 0x16 2 → (s.cvUnit unit).poly < 2 → (s.cvUnit unit).aliveWidth ≠ 0 →
      ((s.port p).mode ≠ 0 → completes (.cvAttach dt ring) s dt ring b .ok 0 [.svc, .net] fun t =>
        (t.port p).cv[q]? = some (some unit) ∧ onlyAt (s.port p).cv (t.port p).cv q ∧ onlyAt s.net.ports t.net.ports p ∧
        t.cvUnit unit = { s.cvUnit unit with start := u 0x14 2, end_ := u 0x16 2, checkOffset := u 0x18 2 } ∧ t.net.sent = s.net.sent) ∧
      ((s.port p).mode = 0 → completes (.cvAttach dt ring) s dt ring b .state 0 [] fun _ => True)) ∧
    (u 0x1A 1 = 1 → (s.port p).cv.getD q none = some unit → completes (.cvAttach dt ring) s dt ring b .ok 0 [.net] fun t =>
      (t.port p).cv[q]? = some none ∧ onlyAt s.net.ports t.net.ports p ∧ t.net.sent = s.net.sent))

/-- R578, R580, R581, R583, R584. The compression engines.
Where the rules leave a case open the clauses follow the choices of the model (log entries 2 and 50). -/
def Obligations.CompressionJobsEndWithTheirOutput : Prop :=
  (∀ (dt ring : Nat) (b : Begun) (s : State), s.hasFolio ring 0x1020 b →
    let c := s.fctx ring b
    let u := c.u
    (u 0x10 1 < 2 ∨ u 0x10 1 = 0xFF) → u 0x11 1 = 1 → u 0x13 1 < 4 → u 0x14 1 < 8 → u 0x15 1 < 8 → u 0x16 2 = 0 → 1 ≤ u 0x1C 4 → u 0x1C 4 ≤ 16777215 →
    u 0x20 4 % 256 = 0 → 256 ≤ u 0x24 4 → s.winOk (u 0x14 1) c.colour = true → s.winSpan (u 0x14 1) (u 0x18 4) (u 0x1C 4) false = true →
    s.winOk (u 0x15 1) c.colour = true → s.winSpan (u 0x15 1) (u 0x20 4) (u 0x24 4) true = true →
    (∀ e, s.zePick (u 0x10 1) = some e → e < s.svc.ze.length →
      waits (.zeRun dt ring) s dt ring b (.ze e) [.svc] fun t =>
        (∃ j, (t.zeEngine e).jobs = (s.zeEngine e).jobs ++ [j] ∧ j.ring = c.slot ∧ j.op = 1) ∧ onlyAt s.svc.ze t.svc.ze e ∧ t.svc.cv = s.svc.cv) ∧
    (s.zePick (u 0x10 1) = none → completes (.zeRun dt ring) s dt ring b .fault 0 [] fun _ => True)) ∧
  (∀ (dt ring : Nat) (b : Begun) (o : WaitIn) (e : Nat) (j : ZeJob) (rest : List ZeJob) (s : State), (s.cmdQ ring).begun = some b → b.wait = .ze e → s.role ≠ 2 → (s.cmdQ ring).awaitResync = false → s.top.handover = false →
    s.twin.resyncCause1 = false → e < s.svc.ze.length → (s.zeEngine e).jobs = j :: rest → j.ring = ring → j.op = 1 → (s.island islSvc).isolated = false →
    s.store.mem.wf = true →
    let c := s.fctx ring b
    let u := c.u
    let r := inflate (s.winRead (u 0x14 1) (u 0x18 4) (u 0x1C 4)) (u 0x24 4)
    (∀ i, i < u 0x1C 4 → s.winDamaged (u 0x14 1) (u 0x18 4 + i) 1 = false) → r.err = 0 → u 0x13 1 = 0 →
    completes (.folioWaitComplete dt ring o) s dt ring b .ok (r.bytes.length + r.used (u 0x1C 4) * 2 ^ 32) [.svc, .store] fun t =>
      (t.zeEngine e).jobs = rest ∧ s.blockWritten t (u 0x15 1) (u 0x20 4) r.bytes) ∧
  (∀ chunk, chunk.length ≤ 65536 → (inflate (storedChunk chunk) chunk.length).err = 0 ∧ (inflate (storedChunk chunk) chunk.length).bytes = chunk)

/-- R586 to R588, R590 to R594, R600. Recording, holding and moving the journal.
Where the rules leave a case open the clauses follow the choices of the model (log entries 45, 46, 51 and 76). -/
def Obligations.JournalRecordsAndMoves : Prop :=
  (∀ (dt ring : Nat) (b : Begun) (s : State), s.hasFolio ring 0x1030 b →
    let c := s.fctx ring b
    let u := c.u
    u 0x11 1 ≤ 3 → 1 ≤ u 0x11 1 → u 0x13 1 < 32 → 256 ≤ u 0x14 4 → u 0x14 4 ≤ 12288 → u 0x14 4 % 64 = 0 → 10 ≤ u 0x18 2 → u 0x18 2 ≤ 600 →
    c.colour = s.admin → evOk c s (u 0x13 1) = true →
    (∀ base, u 0x10 1 = 1 → s.jrn.st = .off → s.jrn.region = false → s.findRegion (u 0x14 4 * 2 ^ 20) = some base → s.freeEntry.isSome = true →
      s.store.mem.wf = true →
      completes (.journalConfig dt ring) s dt ring b .ok 0 [.jrn, .store, .sec] fun t =>
        t.jrn.st = .recording ∧ t.jrn.region = true ∧ t.jrn.base = base ∧ t.jrn.size = u 0x14 4 ∧ t.jrn.level = u 0x11 1 ∧ t.jrn.snapS = u 0x18 2 ∧
        t.jrn.staging = [] ∧ t.jrn.snapDue = true ∧ (∀ a, base ≤ a → a < base + u 0x14 4 * 2 ^ 20 → t.store.mem.read a = 0) ∧
        ∀ a, a < base ∨ base + u 0x14 4 * 2 ^ 20 ≤ a → t.store.mem.read a = s.store.mem.read a) ∧
    (u 0x10 1 = 1 → s.jrn.st ≠ .off → u 0x14 4 ≠ s.jrn.size → completes (.journalConfig dt ring) s dt ring b .busy 0 [] fun _ => True) ∧
    (u 0x10 1 = 0 → s.jrn.st ≠ .off → s.jrn.region = true →
      completes (.journalConfig dt ring) s dt ring b .ok 0 [.jrn, .store, .sec] fun t => t.jrn = Journal.reset ∧
        (∀ a, s.jrn.base ≤ a → a < s.jrn.base + s.jrn.size * 2 ^ 20 → t.store.mem.read a = 0) ∧
        ∀ a, a < s.jrn.base ∨ s.jrn.base + s.jrn.size * 2 ^ 20 ≤ a → t.store.mem.read a = s.store.mem.read a)) ∧
  (∀ (dt kind : Nat) (source : BitVec 32) (payload : List Byte) (s : State), kind < 12 → kind ≠ 8 → kind < s.jrn.dropKind.length → s.jrn.st = .recording → (s.island islSvc).isolated = false →
    let parts := entryParts kind source (s.elapse dt).tb.dev (journalled kind payload)
    let room := s.jrn.staging.length + (parts.map fun e => e.payload.length + 16).sum
    (room ≤ stagingBytes → goesTo (.journalEntry dt kind source payload) s dt [.jrn, .store] fun t => t.jrn.staging.length = room ∧ t.jrn.st = .recording ∧
      s.writesWithin t s.jrn.base stagingBytes ∧ t.jrn.staging.take s.jrn.staging.length = s.jrn.staging ∧ t.jrn.dropped = s.jrn.dropped) ∧
    (stagingBytes < room → goesTo (.journalEntry dt kind source payload) s dt [.jrn] fun t => t.jrn.st = .gap ∧ t.jrn.staging = s.jrn.staging ∧
      t.jrn.gapStart = (s.elapse dt).tb.dev ∧ t.jrn.dropped = sat 32 (s.jrn.dropped + 1) ∧ t.jrn.dropKind.getD kind 0 = 1 ∧
      s.reports t s.jrn.ring 0x9030 0 (leBytes 1 0 ++ leBytes 3 0 ++ leBytes 4 1 ++ leBytes 8 (s.elapse dt).tb.dev))) ∧
  (∀ (dt : Nat) (image : List Byte) (s : State), s.jrn.st = .recording → s.jrn.snapDue = true → (s.island islSvc).isolated = false →
    s.jrn.staging.length + ((entryParts 12 0 (s.elapse dt).tb.dev image).map fun e => e.payload.length + 16).sum ≤ stagingBytes →
    goesTo (.journalSnapshot dt image) s dt [.jrn, .store] fun t => s.writesWithin t s.jrn.base stagingBytes ∧ t.jrn.snapDue = false ∧ t.jrn.snapAt = (s.elapse dt).tb.now ∧
      s.jrn.staging.length < t.jrn.staging.length ∧ ∃ e ∈ t.jrn.entries, e.kind = 12 ∧ e.time = (s.elapse dt).tb.dev) ∧
  (∀ (dt : Nat) (s : State), s.jrn.st = .gap → s.jrn.staging.length < stagingBytes / 2 →
    goesTo (.gapEnd dt) s dt [.jrn, .store] fun t => s.writesWithin t s.jrn.base stagingBytes ∧ t.jrn.st = .recording ∧ t.jrn.snapDue = true ∧
      (∃ rest, t.jrn.entries = { kind := 13, cont := false, src := 0, time := s.jrn.gapStart,
                                 payload := leBytes 8 (s.elapse dt).tb.dev ++ s.jrn.dropKind.flatMap (leBytes 4) } :: rest) ∧
      s.reports t s.jrn.ring 0x9030 0 (leBytes 1 1 ++ leBytes 3 0 ++ leBytes 4 (sat 32 s.jrn.dropKind.sum) ++ leBytes 8 (s.elapse dt).tb.dev)) ∧
  (∀ (dt : Nat) (code : List Byte) (s : State), s.jrn.st = .recording → 65536 ≤ s.jrn.staging.length → (s.zeEngine 0).disabled = false → (s.island islSvc).isolated = false →
    (chunkCoded s.jrn.level (s.jrn.staging.take 65536) code).isSome = true →
    goesTo (.journalChunk dt code) s dt [.jrn, .store] fun t => (256 ≤ s.jrn.size → s.writesWithin t (s.jrn.base + stagingBytes) (s.jrn.size * 2 ^ 20 - stagingBytes)) ∧
      t.jrn.staging = s.jrn.staging.drop 65536 ∧ t.jrn.nextChunk = s.jrn.nextChunk + 1 ∧
      t.jrn.st = .recording ∧ ∀ k ∈ t.jrn.chunks, k ∈ s.jrn.chunks ∨ (k.number = s.jrn.nextChunk ∧ k.staged = s.jrn.staging.take 65536 ∧
        k.crc = crc32c (s.jrn.staging.take 65536))) ∧
  (∀ (dt ring : Nat) (b : Begun) (s : State), s.hasFolio ring 0x1031 b →
    let c := s.fctx ring b
    let start := c.u 0x18 8
    c.colour = s.admin → s.jrn.st ≠ .off →
    (start = 0 → completes (.journalHold dt ring) s dt ring b .ok 0 [.jrn] fun t =>
      t.jrn = { s.jrn with hold := none, holdFrom := none, holdTo := none }) ∧
    (∀ k, start ≠ 0 → s.jrn.snapAtOrBefore start = some k →
      chunkSum (s.jrn.chunks.filter fun x => k.number ≤ x.number) ≤ s.jrn.area / 2 →
      completes (.journalHold dt ring) s dt ring b .ok 0 [.jrn] fun t =>
        t.jrn = { s.jrn with hold := some start, holdFrom := some k.number, holdTo := none })) ∧
  (∀ (dt ring : Nat) (b : Begun) (s : State), s.hasFolio ring 0x1032 b →
    let c := s.fctx ring b
    let u := c.u
    let w := u 0x10 1
    let off := u 0x14 4
    w < 8 → u 0x28 1 = 1 → u 0x30 8 = 0 → c.colour = s.admin → s.winOk w c.colour = true → s.winSpan w (u 0x2C 4) (97 + 96 + 4627) false = true →
    s.winDamaged w (u 0x2C 4) (97 + 96 + 4627) = false → s.sec.entropyBad = false → s.store.mem.wf = true →
    (∀ k, s.jrn.snapAtOrBefore (u 0x18 8) = some k →
      let all := s.jrn.chunks.reverse.filter fun (x : JChunk) => decide (k.number ≤ x.number) && decide (x.first ≤ u 0x20 8)
      let l := fitChunks ((s.window w).size.toNat - off - partFixed) all
      all ≠ [] → l ≠ [] → partFixed ≤ (s.window w).size.toNat - off →
      s.winSpan w off (partFixed + (l.map fun (x : JChunk) => x.length + 48).sum) true = true →
      ∃ more, completes (.journalExport dt ring true) s dt ring b .ok more [.tb, .jrn, .store] fun t =>
        t.winRead w off 4 = leBytes 4 0x584A5057 ∧ t.jrn.chunks = s.jrn.chunks) ∧
    (s.jrn.snapAtOrBefore (u 0x18 8) = none → s.winSpan w off partFixed true = true →
      s.jrn.chunks = [] → completes (.journalExport dt ring true) s dt ring b .state 0 [] fun _ => True)) ∧
  (∀ (dt ring : Nat) (b : Begun) (chunks : List (List Byte)) (s : State), s.hasFolio ring 0x1033 b →
    let c := s.fctx ring b
    let w := c.u 0x10 1
    let off := c.u 0x14 4
    let h := s.winRead w off 0x200
    let n := leNat ((h.drop 0x0C).take 4)
    let table := s.winRead w (off + 0x200) (32 * n)
    let lens := (List.range n).map fun i => leNat ((table.drop (32 * i + 20)).take 4)
    let total := 0x200 + 32 * n + (lens.map (· + 16)).sum + 96 + 4627
    w < 8 → c.colour = s.admin → s.winOk w c.colour = true → s.winSpan w off total false = true → s.winSpan w (c.u 0x18 4) 4 false = true →
    s.jrn.st = .off → s.jrn.region = true → leNat ((h.drop 0).take 4) = 0x584A5057 → leNat ((h.drop 4).take 2) = 1 → s.owner.isSome = true →
    (h.drop 0x38).take 48 = padTo 48 (s.owner.getD []) → leNat ((h.drop 6).take 1) = 0xB0 →
    leNat ((h.drop 8).take 4) = s.sec.running.release.toNat → (s.sec.provKey.getD c.colour none).isSome = true →
    (s.jrn.imported = true → leNat ((h.drop 0x20).take 8) = s.jrn.importNext) → chunkSum s.jrn.importChunks + lens.sum ≤ s.jrn.area →
    s.winDamaged w off total = false →
    completes (.journalImport dt ring true true chunks) s dt ring b .ok 0 [.jrn] fun t => t.jrn.imported = true ∧
      t.jrn.importNext = leNat ((h.drop 0x20).take 8) + n ∧ ∃ l, t.jrn.importChunks = s.jrn.importChunks ++ l ∧ l.length ≤ n)

/-- R588, R595, R596, R599, R600. Replay mode.
Where the rules leave a case open the clauses follow the choices of the model (log entries 52 and 76). -/
def Obligations.ReplayStartsReplaysAndEnds : Prop :=
  (∀ (dt ring : Nat) (b : Begun) (s : State), s.hasFolio ring 0x1034 b →
    let c := s.fctx ring b
    let u := c.u
    let w := u 0x10 1
    w < 8 → u 0x11 1 < 2 → u 0x14 4 % 256 = 0 → c.colour = s.admin → s.winOk w c.colour = true → s.winSpan w (u 0x14 4) (256 * u 0x20 4) true = true →
    ((∀ x ∈ s.dec.ctx, x.opened = false) → (∀ h ∈ s.comp.head, h.st = HeadSt.off) → (∀ y ∈ s.enc.session, y.st = .closed) →
      s.jrn.st = .off → s.jrn.imported = true → s.role = 0 → fromSnapshot (u 0x18 8) s.jrn.importedEntries ≠ [] →
      completes (.replayStart dt ring) s dt ring b .ok 0 [.jrn, .top, .desk, .comp, .lanes, .twin] fun t =>
        t.top = { s.top with replay := true } ∧ t.jrn.st = .replaying ∧ t.jrn.importEntries = fromSnapshot (u 0x18 8) s.jrn.importedEntries ∧
        t.jrn.outWin = w ∧ t.jrn.outOffset = u 0x14 4 ∧ t.jrn.outBlocks = u 0x20 4 ∧ t.jrn.outNext = 0) ∧
    ((∃ x ∈ s.dec.ctx, x.opened = true) → completes (.replayStart dt ring) s dt ring b .state 0 [] fun _ => True)) ∧
  (∀ (dt : Nat) (e : JEntry) (rest : List JEntry) (tag : Nat) (body : List Byte) (diverged : Bool) (s : State), s.jrn.st = .replaying → s.jrn.importEntries = e :: rest → e.kind = 3 →
    (s.jrn.replayed.find? fun x => x.1 = e.src.toNat % 256) = none → s.jrn.outNext < 4 * s.jrn.outBlocks → s.store.mem.wf = true →
    goesTo (.replayEntry dt tag body diverged) s dt [.jrn, .store] fun t => t.jrn.importEntries = rest ∧ t.jrn.outNext = s.jrn.outNext + 1 ∧
      t.jrn.lastTime = e.time ∧
      s.blockWritten t s.jrn.outWin (s.jrn.outOffset + 64 * s.jrn.outNext) (padTo 32 e.payload ++ leBytes 8 e.time ++ leBytes 1 1 ++ List.replicate 23 0) ∧
      (rest = [] → s.reports t s.jrn.ring 0x9030 0 (leBytes 1 3 ++ leBytes 3 0 ++ leBytes 4 0 ++ leBytes 8 (s.elapse dt).tb.dev))) ∧
  (∀ (dt ring : Nat) (b : Begun) (s : State), s.hasFolio ring 0x1035 b → (s.fctx ring b).colour = s.admin → s.top.replay = true →
    ∃ t, exec (.replayStop dt ring) s = .next t ∧ t.top.replay = false ∧ t.jrn = Journal.reset ∧ t.store = State.reset.store ∧
      t.dec = State.reset.dec ∧ t.sec.fuses = s.sec.fuses ∧ t.pending = s.pending)

/-- R611, R610, R518, R520, R607, R412, R413, R399, R400, R612, R442, R417. Device reset and start-up.
Where the rules leave a case open the clauses follow the choices of the model (log entries 4, 5, 58 and 80). -/
def Obligations.ResetAndStartUpRun : Prop :=
  (∀ (dt burned : Nat) (s : State), ∃ t, exec (.deviceReset dt burned) s = .next t ∧ t.host.rings = State.reset.host.rings ∧ t.host.cmdq = State.reset.host.cmdq ∧
    t.comp = State.reset.comp ∧ t.dec = State.reset.dec ∧ t.store = State.reset.store ∧ t.top = State.reset.top ∧ t.pwr.held = true ∧
    t.pwr.supplyGood = s.pwr.supplyGood ∧ t.pwr.delay = s.pwr.delay ∧ t.pwr.fused = s.pwr.fused ∧ t.host.bus = s.host.bus ∧ t.pending = s.pending ∧
    (s.sec.transition = none → t.sec.fuses = s.sec.fuses ∧ t.sec.selector = s.sec.selector ∧ t.sec.recordCopies = s.sec.recordCopies ∧
      (s.sec.staging = false → t.sec.slotA = s.sec.slotA ∧ t.sec.slotB = s.sec.slotB)) ∧
    ∀ l, s.sec.transition = some l → t.sec.fuses = ((burnSteps l).take burned).foldl (fun f g => g f) s.sec.fuses) ∧
  (∀ (dt : Nat) (s : State), goesTo (.supplyGood dt) s dt [.pwr] fun t => t.pwr.supplyGood = true ∧ t.pwr.held = s.pwr.held ∧
    (s.pwr.supplyGood = false → t.pwr.startAt = (s.elapse dt).tb.now ∧ t.pwr.judgedAt = none)) ∧
  (∀ (dt : Nat) (fosc xa xb : List Nat) (straps : StrapIn) (s : State), ∀ x ∈ [(false, Instr.clockStart dt fosc ⟨xa, xb⟩ straps), (true, Instr.clockJudgeRetry dt fosc ⟨xa, xb⟩ straps)],
    ((s.elapse dt).mayJudge x.1 = false → exec x.2 s = .next (s.elapse dt)) ∧
    ((s.elapse dt).mayJudge x.1 = true →
      (foscJudge fosc = true → crystalJudge xa = true ∨ crystalJudge xb = true → goesTo x.2 s dt [.pwr, .lanes, .top, .twin] fun t =>
        t.pwr.held = false ∧ t.pwr.foscGood = true ∧ t.pwr.xa.good = crystalJudge xa ∧ t.pwr.xb.good = crystalJudge xb ∧
        t.pwr.clkRef = (if crystalJudge xa then 1 else 2) ∧ t.pwr.failover = !crystalJudge xa ∧
        t.top = { s.top with gatherId := straps.gatherId } ∧ t.twin = { s.twin with secondary := straps.secondary } ∧ t.pwr.bootHold = straps.bootHold) ∧
      (foscJudge fosc = true → crystalJudge xa = false → crystalJudge xb = false → goesTo x.2 s dt [.pwr] fun t => t.pwr.held = true ∧
        t.pwr.xa.good = false ∧ t.pwr.xb.good = false ∧ t.pwr.judgedAt = some (s.elapse dt).tb.now) ∧
      (foscJudge fosc = false → goesTo x.2 s dt [.pwr] fun t => t.pwr.held = true ∧ t.pwr.foscGood = false ∧
        t.pwr.judgedAt = some (s.elapse dt).tb.now))) ∧
  (∀ (dt : Nat) (boot : BootIn) (s : State), s.pwr.held = false → s.pwr.booted = false → s.sec.bootStatus = 0 →
    (s.pwr.bootHold = true → ∃ t, exec (.boot dt boot) s = .next t ∧ t.sec.bootStatus = 4 ∧ t.pwr.booted = false ∧ t.top.ready = s.top.ready ∧
      t.top.faults = s.top.faults) ∧
    (s.pwr.bootHold = false → s.top.wiping = true → s.sec.slotA = none → s.sec.slotB = none → s.sec.selector = some false →
      (s.imageOk (Image.ofIn boot.slotA) = true → ∃ t, exec (.boot dt boot) s = .next t ∧ t.pwr.booted = true ∧ t.sec.bootStatus = 1 ∧
        t.sec.running = Image.ofIn boot.slotA ∧ t.twin.hbOut = true ∧ t.top.ready = s.top.ready) ∧
      (s.imageOk (Image.ofIn boot.slotA) = false → s.imageOk (Image.ofIn boot.slotB) = true → ∃ t, exec (.boot dt boot) s = .next t ∧
        t.pwr.booted = true ∧ t.sec.running = Image.ofIn boot.slotB) ∧
      (s.imageOk (Image.ofIn boot.slotA) = false → s.imageOk (Image.ofIn boot.slotB) = false → ∃ t, exec (.boot dt boot) s = .next t ∧
        t.pwr.booted = false ∧ t.sec.bootStatus = 2 ∧ t.top.faults.getLsbD 10 = true ∧ t.top.ready = s.top.ready))) ∧
  (∀ (dt : Nat) (s : State), s.pwr.held = false → s.top.wiping = true → s.pwr.trainedOk = true →
    (∃ t, exec (.resetWipe dt none) s = .next t ∧ t.top.wiping = false ∧ t.store.ready = true ∧ (∀ a, t.store.mem.read a = 0) ∧
      (s.pwr.booted = true → s.top.ready = false → t.top.ready = true ∧ (t.twin.st = .electing ∨ t.twin.st = .standby)) ∧
      (s.pwr.booted = false → t.top.ready = s.top.ready)) ∧
    ∀ c, goesTo (.resetWipe dt (some c)) s dt [.top, .store, .sec, .pwr] fun t => t.top.wiping = true ∧ t.top.ready = s.top.ready ∧
        t.sec.bootStatus = 3 ∧ t.top.faults.getLsbD 5 = true) ∧
  (∀ (dt : Nat) (s : State), s.host.perst = false → ∃ t, exec (.perstAssert dt) s = .next t ∧ t.host.perst = true ∧ t.mail.hostGen = s.mail.hostGen + 1 ∧
    (∀ r, r < 128 → (t.ring r).state = .disabled ∨ (t.ring r).state = .draining) ∧
    (∀ x ∈ t.fab.xing, x.snd = islHost ∨ x.rcv = islHost → x.unacked = []) ∧
    ((∀ x ∈ s.fab.xing, x.snd = islHost ∨ x.rcv = islHost → x.unacked = []) → (s.elapse dt).kept t [.host, .mail, .lanes, .fab])) ∧
  (∀ (dt : Nat) (s : State), s.host.perst = true → goesTo (.perstRelease dt) s dt [.host, .lanes] fun t => t.host.perst = false ∧ t.host.rings = s.host.rings) ∧
  (∀ (dt : Nat) (s : State), ∀ c ∈ [Instr.hostRestart dt, Instr.functionLevelReset dt],
    (s.boxUp 0 = true → goesTo c s dt [.mail] fun t => t.mail.hostGen = s.mail.hostGen + 1 ∧
      ∀ (n : Nat) (x : HostBox), s.mail.host[n]? = some x → ∃ y, t.mail.host[n]? = some y ∧ y.inFull = false ∧ y.owner = 0 ∧ y.outFull = x.outFull ∧
        (x.inFull = true → y.fwLast = 2)) ∧
    (s.boxUp 0 = false → exec c s = .next (s.elapse dt)))

/-- R104 and the rules of the blocks. What follows from the free value of a sender report's age stands in FRESH_STATE's block as it is.
Where the rules leave a case open the clauses follow the choices of the model (log entries 7, 20, 68 and 69). -/
def Obligations.StateIsReadBackInBlocks : Prop :=
  (∀ (dt ring : Nat) (b : Begun) (s : State),
    let c := s.fctx ring b
    let e := s.elapse dt
    let i := c.u 0x10 1
    let j := c.u 0x11 1
    answersBlock (.streamState dt ring) s dt ring 0x0104 b (decide (i < 64)) (mayRead c e i) 256
      (if (e.ctx i).everOpened then (e.ctx i).streamBlock else List.replicate 256 0) [.store] ∧
    answersBlock (.timeState dt ring) s dt ring 0x0112 b true true 256 e.timeBlock [.store] ∧
    answersBlock (.freshState dt ring) s dt ring 0x0213 b (decide (i < 3) && decide (j < if i = 1 then 16 else 64))
      (if i = 0 then e.layerReader c j else if i = 1 then e.headReader c j else mayRead c e j) 256
      (if i = 0 then (e.layer j).freshBlock else if i = 1 then e.freshHeadBlock j
        else if (e.ctx j).everOpened then e.freshCtxBlock j (Config.freeNat s.tb.freeCtr) else List.replicate 256 0) [.tb, .store] ∧
    answersBlock (.decState dt ring) s dt ring 0x0302 b (decide (i < 2) && decide (j < if i = 0 then 64 else 8))
      (decide (i = 1) || mayRead c e j) 256
      (if i = 0 then (if (e.ctx j).everOpened then (if (e.ctx j).opened then (e.ctx j).decBlock else (e.ctx j).closedBlock) else List.replicate 256 0)
        else e.decEngBlock j) [.store] ∧
    answersBlock (.layerState dt ring) s dt ring 0x0405 b (decide (i < 2) && (if i = 0 then codeOk j else decide (j < 16)))
      (if i = 0 then e.layerReader c (layerIndex j) else e.headReader c j) 256 (if i = 0 then e.layerBlock (layerIndex j) else e.stackBlock j) [.store] ∧
    answersBlock (.plateState dt ring) s dt ring 0x0611 b (decide (j < 16)) true 256 (e.plateBlock j) [.store] ∧
    answersBlock (.headState dt ring) s dt ring 0x0703 b (decide (i < 16)) (e.headReader c i) 256
      (e.headBlock i) [.store] ∧
    answersBlock (.portSink dt ring) s dt ring 0x0711 b (decide (i < 8))
      (match (s.dpPort i).owner with | some o => decide (o = c.colour) | none => decide (c.colour = s.admin)) 1280 (e.sinkBlocks i) [.store] ∧
    answersBlock (.encState dt ring) s dt ring 0x0805 b (decide (i < 16)) true 256 (e.sessionBlock i)
      [.store]) ∧
  (∀ (dt ring : Nat) (b : Begun) (s : State),
    let c := s.fctx ring b
    let e := s.elapse dt
    let i := c.u 0x10 1
    let j := c.u 0x11 1
    let p := s.panel j
    answersBlock (.storeState dt ring) s dt ring 0x0A01 b true true 256 e.storeBlock [.store] ∧
    answersBlock (.gatherState dt ring) s dt ring 0x0C11 b true true 256 e.gatherBlock [.store] ∧
    answersBlock (.twinState dt ring) s dt ring 0x0C22 b true true 256 e.twinBlock [.store] ∧
    answersBlock (.touchState dt ring) s dt ring 0x0D02 b (decide (j < 4)) (decide (p.owner = none) || decide (p.owner = some c.colour)) 256 p.block [.store] ∧
    answersBlock (.inputState dt ring) s dt ring 0x0D11 b true true 256 (e.inputBlock c.colour) [.store] ∧
    answersBlock (.powerState dt ring) s dt ring 0x0E02 b true true 256 e.powerBlock [.store] ∧
    answersBlock (.marginState dt ring) s dt ring 0x0E03 b (decide (j < 43)) true 256 (e.marginBlock j) [.store] ∧
    answersBlock (.laneState dt ring) s dt ring 0x0F01 b (decide (j < 13)) true 256 (e.quad j).block [.store] ∧
    answersBlock (.faultState dt ring) s dt ring 0x1001 b
      (decide (i = 0) || (decide (i = 1) && decide (j < 43) && decide (c.u 0x13 1 < 43)) || (decide (i = 2) && decide (j < 32))) true 256
      (e.faultBlock c.colour i j (c.u 0x13 1)) [.store] ∧
    answersBlock (.journalState dt ring) s dt ring 0x1036 b true true 256 e.journalBlock [.store]) ∧
  (∀ (s : State) (x : Context) (p : Panel) (u : Quad),
    x.streamBlock.take 8 = leBytes 4 x.count.received ++ leBytes 4 x.count.lost ∧
    s.gatherBlock.take 3 = leBytes 1 s.top.gatherId.toNat ++ leBytes 1 (s.gath.lead.getD 0xFF) ++ leBytes 1 s.gath.ring ∧
    s.twinBlock.take 3 = leBytes 1 s.twin.st.code ++ leBytes 1 (match s.twin.partner with | some y => y.code | none => 0xFF) ++ leBytes 1 s.twinSignals ∧
    (s.twinBlock.drop 8).take 12 = leBytes 4 s.twin.decodeDis ++ leBytes 4 s.twin.cycles ++ leBytes 4 s.twin.selfFails ∧
    (p.block.drop 1).take 2 = leBytes 1 (p.owner.getD 0xFF) ++ leBytes 1 p.freqIdx ∧
    u.block.take 1 = leBytes 1 (b2n u.pllLock))

/-- R398, R431, R451, R465, R543, R564, R325. The watch folios.
Where the rules leave a case open the clauses follow the choices of the model (log entry 48). -/
def Obligations.WatchesAreSetAndEnded : Prop :=
  (∀ (dt ring : Nat) (b : Begun) (s : State),
    setsWatch (.storeWatch dt ring) s dt ring 0x0A02 b 32 (fun t => t.store.watch) [.store] ∧
    setsWatch (.gatherWatch dt ring) s dt ring 0x0C12 b 4 (fun t => t.gath.watch) [.gath] ∧
    setsWatch (.powerWatch dt ring) s dt ring 0x0E04 b 8 (fun t => t.pwr.watch) [.pwr] ∧
    setsWatch (.laneWatch dt ring) s dt ring 0x0F02 b 8 (fun t => t.lanes.watch) [.lanes]) ∧
  (∀ (dt ring : Nat) (b : Begun) (s : State), s.hasFolio ring 0x0B07 b →
    let c := s.fctx ring b
    let n := c.u 0x10 1
    let m := c.u 0x11 1
    ((32 ≤ n ∨ 4 ≤ m) → completes (.secWatch dt ring) s dt ring b .param 0 [] fun _ => True) ∧
    (n < 32 → m < 4 → evOk c s n = false → completes (.secWatch dt ring) s dt ring b .colour 0 [] fun _ => True) ∧
    (n < 32 → m < 4 → evOk c s n = true → completes (.secWatch dt ring) s dt ring b .ok 0 [.sec] fun t =>
      (∀ x, x.ring ≠ c.ev n → (x ∈ t.sec.watch ↔ x ∈ s.sec.watch)) ∧
      ∀ x, x.ring = c.ev n → (x ∈ t.sec.watch ↔ m ≠ 0 ∧ x = { SecWatch.reset with ring := c.ev n, mask := BitVec.ofNat 8 m, colour := c.colour }))) ∧
  (∀ (dt ring : Nat) (b : Begun) (s : State), s.hasFolio ring 0x0C02 b →
    let c := s.fctx ring b
    let m := c.u 0x10 1
    let n := c.u 0x11 1
    ((m < 8 ∨ 16 ≤ m ∨ (32 ≤ n ∧ n ≠ 0xFF)) → completes (.mailWatch dt ring) s dt ring b .param 0 [] fun _ => True) ∧
    (8 ≤ m → m < 16 → m - 4 < s.mail.far.length →
      (n < 32 → evOk c s n = false → completes (.mailWatch dt ring) s dt ring b .colour 0 [] fun _ => True) ∧
      ((n = 0xFF ∨ (n < 32 ∧ evOk c s n = true)) → m - 8 = s.top.gatherId.toNat → completes (.mailWatch dt ring) s dt ring b .state 0 [] fun _ => True) ∧
      ((n = 0xFF ∨ (n < 32 ∧ evOk c s n = true)) → m - 8 ≠ s.top.gatherId.toNat → completes (.mailWatch dt ring) s dt ring b .ok 0 [.mail] fun t =>
        t.farBox m = { s.farBox m with watch := if n = 0xFF then none else some (c.ev n) } ∧ onlyAt s.mail.far t.mail.far (m - 4))))

/-- R101 to R103, R107, R161, R162, R586, R587, R590, R592 to R594. Where these commands complete.
Where the rules leave a case open the clauses follow the choices of the model (log entries 24, 51 and 72). -/
def Obligations.FreshnessAndJournalCommandsComplete : Prop :=
  (∀ (dt ring : Nat) (b : Begun) (s : State), s.hasFolio ring 0x0210 b →
    let c := s.fctx ring b
    let i := c.u 0x10 1
    i < 64 → i < s.dec.ctx.length → c.u 0x11 1 < 2 → c.u 0x12 2 = 0 → c.u 0x14 4 ≤ 20000 → 10000 ≤ c.u 0x18 4 → c.u 0x18 4 ≤ 600000 →
    (s.ctx i).opened = true → (s.ctx i).owner = c.colour →
    ∃ t, exec (.freshSource dt ring) s = .next t ∧ t.ended ring ∧ (t.ctx i).allowance = c.u 0x14 4 ∧ (t.ctx i).holdLimit = c.u 0x18 4 ∧
      (t.ctx i).forceArrival = decide (c.u 0x11 1 = 1)) ∧
  (∀ (dt ring : Nat) (b : Begun) (s : State), s.hasFolio ring 0x0211 b →
    let c := s.fctx ring b
    let i := c.u 0x10 1
    let f := freshCfgOf c
    let old := (s.view none).layer i
    (s.cmdQ ring).groupOpen = none → freshRanges c f = true → f.freezeN = 0 → i < s.comp.layer.length → old.st ≠ .free → old.st ≠ .held →
    old.owner = c.colour → s.layerReserved i none = false → s.touched old i none = [] →
    ∃ t, exec (.freshLayer dt ring) s = .next t ∧ t.ended ring ∧ (t.layer i).fresh = f) ∧
  (∀ (dt ring : Nat) (b : Begun) (s : State), s.hasFolio ring 0x0130 b →
    let c := s.fctx ring b
    let h := c.u 0x10 1
    h < 16 → h < s.comp.head.length → c.u 0x11 1 < 3 → c.u 0x12 2 = 0 → c.u 0x1C 4 = 0 → 0 < c.u 0x18 4 →
    c.u 0x20 8 * c.u 0x18 4 < c.u 0x14 4 * 1000000000 → (s.head h).st = .off → (s.head h).owner = some c.colour → (s.head h).stopped = false →
    (c.u 0x11 1 ≠ 0 ∨ (s.head h).plan.st = .off) →
    ∃ t, exec (.genlock dt ring) s = .next t ∧ t.ended ring ∧ (t.head h).genlock.mode = c.u 0x11 1 ∧ (t.head h).genlock.num = c.u 0x14 4 ∧
      (t.head h).genlock.den = c.u 0x18 4 ∧ (t.head h).genlock.offset = c.u 0x20 8) ∧
  (∀ (dt ring : Nat) (b : Begun) (s : State), s.hasFolio ring 0x0212 b →
    let c := s.fctx ring b
    let h := c.u 0x10 1
    let size := recordBlocks (s.head h).timing.leaves
    h < 16 → h < s.comp.head.length → c.u 0x1A 1 < 32 → c.u 0x1B 1 < 8 → c.u 0x11 1 < 4 → c.u 0x11 1 % 2 = 0 → 60 ≤ c.u 0x12 2 → c.u 0x12 2 ≤ 600 →
    (∀ a ∈ anchorsOf c, a < 64) → c.u 0x18 2 ≤ 1000 → c.u 0x1C 4 % 256 = 0 → c.u 0x20 4 % size = 0 → 2 * size ≤ c.u 0x20 4 →
    (s.head h).owner = some c.colour → evOk c s (c.u 0x1A 1) = true → (s.head h).stopped = false →
    ∃ t, exec (.freshHead dt ring) s = .next t ∧ t.ended ring ∧ (t.head h).freshRing = some (c.ev (c.u 0x1A 1)) ∧ (t.head h).plan.st = .off) ∧
  (∀ (dt h : Nat) (s : State), h < s.comp.head.length → (s.head h).genlock.mode ≠ 0 → (s.head h).st = .running → (s.head h).isolated = false →
    ∃ t, exec (.genlockPull dt h) s = .next t ∧ (t.head h).trim.natAbs ≤ 200000 ∧
      (t.head h).genlock.locked = (if (s.head h).genlock.locked then decide ((s.head h).epochError.natAbs ≤ 200) else decide ((s.head h).epochError.natAbs ≤ 50))) ∧
  (∀ (dt h : Nat) (s : State), h < s.comp.head.length → (s.head h).plan.st = .learning → (s.head h).plan.learned = true →
    ∃ t, exec (.planLearned dt h) s = .next t ∧ ((t.head h).plan.st = .slewing ∨ (t.head h).plan.st = .unplannable)) ∧
  (∀ (dt ring : Nat) (b : Begun) (s : State), s.hasFolio ring 0x1030 b →
    let c := s.fctx ring b
    let u := c.u
    u 0x10 1 = 1 → u 0x11 1 ≤ 3 → 1 ≤ u 0x11 1 → u 0x13 1 < 32 → 256 ≤ u 0x14 4 → u 0x14 4 ≤ 12288 → u 0x14 4 % 64 = 0 → 10 ≤ u 0x18 2 →
    u 0x18 2 ≤ 600 → c.colour = s.admin → evOk c s (u 0x13 1) = true → s.jrn.st = .off → s.jrn.region = false →
    (s.findRegion (u 0x14 4 * 2 ^ 20)).isSome = true → s.freeEntry.isSome = true →
    ∃ t, exec (.journalConfig dt ring) s = .next t ∧ t.ended ring ∧ t.jrn.st = .recording ∧ t.jrn.size = u 0x14 4 ∧ t.jrn.level = u 0x11 1) ∧
  (∀ (dt kind : Nat) (source : BitVec 32) (payload : List Byte) (s : State), kind < 12 → kind ≠ 8 → s.jrn.st = .recording → (s.island islSvc).isolated = false →
    s.jrn.staging.length + ((entryParts kind source (s.elapse dt).tb.dev (journalled kind payload)).map fun e => e.payload.length + 16).sum ≤ stagingBytes →
    ∃ t, exec (.journalEntry dt kind source payload) s = .next t ∧ s.jrn.staging.length < t.jrn.staging.length ∧
      t.jrn.staging.take s.jrn.staging.length = s.jrn.staging) ∧
  (∀ (dt : Nat) (image : List Byte) (s : State), s.jrn.st = .recording → s.jrn.snapDue = true → (s.island islSvc).isolated = false →
    s.jrn.staging.length + ((entryParts 12 0 (s.elapse dt).tb.dev image).map fun e => e.payload.length + 16).sum ≤ stagingBytes →
    ∃ t, exec (.journalSnapshot dt image) s = .next t ∧ t.jrn.snapDue = false ∧ s.jrn.staging.length < t.jrn.staging.length) ∧
  (∀ (dt : Nat) (code : List Byte) (s : State), s.jrn.st = .recording → 65536 ≤ s.jrn.staging.length → (s.zeEngine 0).disabled = false → (s.island islSvc).isolated = false →
    (chunkCoded s.jrn.level (s.jrn.staging.take 65536) code).isSome = true →
    ∃ t, exec (.journalChunk dt code) s = .next t ∧ t.jrn.staging = s.jrn.staging.drop 65536 ∧ t.jrn.nextChunk = s.jrn.nextChunk + 1) ∧
  (∀ (dt : Nat) (s : State), s.jrn.st = .gap → s.jrn.staging.length < stagingBytes / 2 →
    ∃ t, exec (.gapEnd dt) s = .next t ∧ t.jrn.st = .recording ∧ t.jrn.snapDue = true) ∧
  (∀ (dt ring : Nat) (b : Begun) (s : State), s.hasFolio ring 0x1031 b →
    let c := s.fctx ring b
    let start := c.u 0x18 8
    c.colour = s.admin → s.jrn.st ≠ .off →
    (start = 0 → ∃ t, exec (.journalHold dt ring) s = .next t ∧ t.ended ring ∧ t.jrn.hold = none) ∧
    (∀ k, start ≠ 0 → s.jrn.snapAtOrBefore start = some k → chunkSum (s.jrn.chunks.filter fun x => k.number ≤ x.number) ≤ s.jrn.area / 2 →
      ∃ t, exec (.journalHold dt ring) s = .next t ∧ t.ended ring ∧ t.jrn.hold = some start ∧ t.jrn.holdFrom = some k.number)) ∧
  (∀ (dt ring : Nat) (b : Begun) (s : State), s.hasFolio ring 0x1032 b →
    let c := s.fctx ring b
    let u := c.u
    let w := u 0x10 1
    let off := u 0x14 4
    let size := (s.window w).size.toNat
    w < 8 → u 0x28 1 = 1 → u 0x30 8 = 0 → c.colour = s.admin → s.winOk w c.colour = true → s.winSpan w (u 0x2C 4) (97 + 96 + 4627) false = true →
    s.winDamaged w (u 0x2C 4) (97 + 96 + 4627) = false → s.sec.entropyBad = false →
    (∀ k, s.jrn.snapAtOrBefore (u 0x18 8) = some k →
      let l := fitChunks (size - off - partFixed) (s.jrn.chunks.reverse.filter fun (x : JChunk) => decide (k.number ≤ x.number) && decide (x.first ≤ u 0x20 8))
      l ≠ [] → partFixed ≤ size - off → s.winSpan w off (partFixed + (l.map fun (x : JChunk) => x.length + 48).sum) true = true →
      ∃ t, exec (.journalExport dt ring true) s = .next t ∧ t.ended ring ∧ t.jrn.exportFrom = k.number ∧ t.jrn.chunks = s.jrn.chunks)) ∧
  (∀ (dt ring : Nat) (b : Begun) (chunks : List (List Byte)) (s : State), s.hasFolio ring 0x1033 b →
    let c := s.fctx ring b
    let w := c.u 0x10 1
    let off := c.u 0x14 4
    let h := s.winRead w off 0x200
    let n := leNat ((h.drop 0x0C).take 4)
    let table := s.winRead w (off + 0x200) (32 * n)
    let lens := (List.range n).map fun i => leNat ((table.drop (32 * i + 20)).take 4)
    let total := 0x200 + 32 * n + (lens.map (· + 16)).sum + 96 + 4627
    w < 8 → c.colour = s.admin → s.winOk w c.colour = true → s.winSpan w off total false = true → s.winSpan w (c.u 0x18 4) 4 false = true →
    s.jrn.st = .off → s.jrn.region = true → leNat ((h.drop 0).take 4) = 0x584A5057 → leNat ((h.drop 4).take 2) = 1 → s.owner.isSome = true →
    (h.drop 0x38).take 48 = padTo 48 (s.owner.getD []) → leNat ((h.drop 6).take 1) = 0xB0 →
    leNat ((h.drop 8).take 4) = s.sec.running.release.toNat → (s.sec.provKey.getD c.colour none).isSome = true → s.jrn.imported = false →
    chunkSum s.jrn.importChunks + lens.sum ≤ s.jrn.area → s.winDamaged w off total = false →
    ∃ t, exec (.journalImport dt ring true true chunks) s = .next t ∧ t.ended ring ∧ t.jrn.imported = true ∧
      t.jrn.importNext = leNat ((h.drop 0x20).take 8) + n)

/-- R399, R400, R412, R442, R518 to R520, R595, R596, R599, R611, R612. Where these commands complete.
Where the rules leave a case open the clauses follow the choices of the model (log entries 5, 52, 58 and 80). -/
def Obligations.ResetAndReplayCommandsComplete : Prop :=
  (∀ (dt burned : Nat) (s : State), ∃ t, exec (.deviceReset dt burned) s = .next t ∧ t.top = State.reset.top ∧ t.comp = State.reset.comp ∧ t.dec = State.reset.dec ∧
    t.store = State.reset.store ∧ t.pwr.held = true ∧ t.pending = s.pending) ∧
  (∀ (dt : Nat) (s : State), s.pwr.supplyGood = false → ∃ t, exec (.supplyGood dt) s = .next t ∧ t.pwr.supplyGood = true ∧ t.pwr.startAt = (s.elapse dt).tb.now) ∧
  (∀ (dt : Nat) (fosc xa xb : List Nat) (straps : StrapIn) (s : State), s.pwr.held = true → s.pwr.supplyGood = true → s.pwr.tripped = false → foscJudge fosc = true →
    crystalJudge xa = true ∨ crystalJudge xb = true →
    (s.pwr.judgedAt = none → s.pwr.startAt + crystalDelay s.pwr.delay.toNat ≤ (s.elapse dt).tb.now →
      ∃ t, exec (.clockStart dt fosc ⟨xa, xb⟩ straps) s = .next t ∧ t.pwr.held = false ∧ t.pwr.clkRef = (if crystalJudge xa then 1 else 2)) ∧
    (∀ t₀, s.pwr.judgedAt = some t₀ → t₀ + 100000000 ≤ (s.elapse dt).tb.now →
      ∃ t, exec (.clockJudgeRetry dt fosc ⟨xa, xb⟩ straps) s = .next t ∧ t.pwr.held = false ∧ t.pwr.clkRef = (if crystalJudge xa then 1 else 2))) ∧
  (∀ (dt : Nat) (boot : BootIn) (s : State), s.pwr.held = false → s.pwr.booted = false → s.sec.bootStatus = 0 →
    (s.pwr.bootHold = true → ∃ t, exec (.boot dt boot) s = .next t ∧ t.sec.bootStatus = 4 ∧ t.pwr.booted = false) ∧
    (s.pwr.bootHold = false → s.top.wiping = true → s.sec.slotA = none → s.sec.slotB = none → s.sec.selector = some false →
      s.imageOk (Image.ofIn boot.slotA) = true →
      ∃ t, exec (.boot dt boot) s = .next t ∧ t.pwr.booted = true ∧ t.sec.running = Image.ofIn boot.slotA)) ∧
  (∀ (dt : Nat) (s : State), s.pwr.held = false → s.top.wiping = true → s.pwr.trainedOk = true →
    ∃ t, exec (.resetWipe dt none) s = .next t ∧ t.top.wiping = false ∧ t.store.ready = true ∧ ∀ a, t.store.mem.read a = 0) ∧
  (∀ (dt : Nat) (s : State), s.host.perst = false → ∃ t, exec (.perstAssert dt) s = .next t ∧ t.host.perst = true ∧
    ∀ r, r < 128 → (t.ring r).state = .disabled ∨ (t.ring r).state = .draining) ∧
  (∀ (dt : Nat) (s : State), s.host.perst = true → ∃ t, exec (.perstRelease dt) s = .next t ∧ t.host.perst = false) ∧
  (∀ (dt : Nat) (s : State), s.boxUp 0 = true →
    (∃ t, exec (.hostRestart dt) s = .next t ∧ t.mail.hostGen = s.mail.hostGen + 1) ∧
    ∃ t, exec (.functionLevelReset dt) s = .next t ∧ t.mail.hostGen = s.mail.hostGen + 1) ∧
  (∀ (dt ring : Nat) (b : Begun) (s : State), s.hasFolio ring 0x1034 b →
    let c := s.fctx ring b
    let u := c.u
    u 0x10 1 < 8 → u 0x11 1 < 2 → u 0x14 4 % 256 = 0 → c.colour = s.admin → s.winOk (u 0x10 1) c.colour = true →
    s.winSpan (u 0x10 1) (u 0x14 4) (256 * u 0x20 4) true = true → (∀ x ∈ s.dec.ctx, x.opened = false) → (∀ h ∈ s.comp.head, h.st = HeadSt.off) →
    (∀ y ∈ s.enc.session, y.st = .closed) → s.jrn.st = .off → s.jrn.imported = true → s.role = 0 → fromSnapshot (u 0x18 8) s.jrn.importedEntries ≠ [] →
    ∃ t, exec (.replayStart dt ring) s = .next t ∧ t.ended ring ∧ t.top.replay = true ∧ t.jrn.st = .replaying) ∧
  (∀ (dt : Nat) (e : JEntry) (rest : List JEntry) (tag : Nat) (body : List Byte) (diverged : Bool) (s : State), s.jrn.st = .replaying → s.jrn.importEntries = e :: rest → rest ≠ [] →
    (e.kind = 9 → ∃ t, exec (.replayEntry dt tag body diverged) s = .next t ∧ t.jrn.importEntries = rest ∧ t.jrn.lastTime = e.time ∧
      t.jrn.lock = lockOf (e.u 0 1)) ∧
    (e.kind = 3 → (s.jrn.replayed.find? fun x => x.1 = e.src.toNat % 256) = none → s.jrn.outNext < 4 * s.jrn.outBlocks →
      ∃ t, exec (.replayEntry dt tag body diverged) s = .next t ∧ t.jrn.importEntries = rest ∧ t.jrn.outNext = s.jrn.outNext + 1)) ∧
  (∀ (dt ring : Nat) (b : Begun) (s : State), s.hasFolio ring 0x1035 b → (s.fctx ring b).colour = s.admin → s.top.replay = true →
    ∃ t, exec (.replayStop dt ring) s = .next t ∧ t.top.replay = false ∧ t.jrn = Journal.reset ∧ t.store = State.reset.store)
end

