-- ==== Sys2Proof/Laws/State.lean ====
section
/-!
SUPPORT. One lemma per field per update of the state: what each named update leaves as it was, and what it makes of the unit it
updates.
-/

namespace Sys2Proof.Machine

/-! ### Units of a family -/

/-- The unit updated, where the family has it. -/
theorem getD_modify_self {α : Type} (l : List α) (i : Nat) (f : α → α) (d : α) (h : i < l.length) :
    (l.modify i f).getD i d = f (l.getD i d) := by
  simp [List.getD_eq_getElem?_getD, List.getElem?_eq_getElem h]

/-- Every other unit. -/
theorem getD_modify_other {α : Type} (l : List α) (i j : Nat) (f : α → α) (d : α) (h : i ≠ j) :
    (l.modify i f).getD j d = l.getD j d := by
  simp [List.getD_eq_getElem?_getD, List.getElem?_modify, h]

/-- A unit that no family member has stays as it was. -/
theorem getD_modify_out {α : Type} (l : List α) (i j : Nat) (f : α → α) (d : α) (h : l.length ≤ j) :
    (l.modify i f).getD j d = l.getD j d := by
  simp [List.getD_eq_getElem?_getD, List.getElem?_modify, List.getElem?_eq_none h]

/-- A property that the update keeps holds of the unit after it. -/
theorem getD_modify_map {α β : Type} (l : List α) (i j : Nat) (f : α → α) (d : α) (g : α → β) (h : ∀ x, g (f x) = g x) :
    g ((l.modify i f).getD j d) = g (l.getD j d) := by
  rw [List.getD_eq_getElem?_getD, List.getD_eq_getElem?_getD, List.getElem?_modify]
  cases l[j]? with
  | none => rfl
  | some x => by_cases hij : i = j <;> simp [hij, h]

/-! ### Time -/

@[simp] theorem State.elapse_top (s : State) (dt : Nat) : (s.elapse dt).top = s.top := rfl
@[simp] theorem State.elapse_host (s : State) (dt : Nat) : (s.elapse dt).host = s.host := rfl
@[simp] theorem State.elapse_net (s : State) (dt : Nat) : (s.elapse dt).net = s.net := rfl
@[simp] theorem State.elapse_dec (s : State) (dt : Nat) : (s.elapse dt).dec = s.dec := rfl
@[simp] theorem State.elapse_comp (s : State) (dt : Nat) : (s.elapse dt).comp = s.comp := rfl
@[simp] theorem State.elapse_enc (s : State) (dt : Nat) : (s.elapse dt).enc = s.enc := rfl
@[simp] theorem State.elapse_fab (s : State) (dt : Nat) : (s.elapse dt).fab = s.fab := rfl
@[simp] theorem State.elapse_store (s : State) (dt : Nat) : (s.elapse dt).store = s.store := rfl
@[simp] theorem State.elapse_sec (s : State) (dt : Nat) : (s.elapse dt).sec = s.sec := rfl
@[simp] theorem State.elapse_mail (s : State) (dt : Nat) : (s.elapse dt).mail = s.mail := rfl
@[simp] theorem State.elapse_gath (s : State) (dt : Nat) : (s.elapse dt).gath = s.gath := rfl
@[simp] theorem State.elapse_twin (s : State) (dt : Nat) : (s.elapse dt).twin = s.twin := rfl
@[simp] theorem State.elapse_desk (s : State) (dt : Nat) : (s.elapse dt).desk = s.desk := rfl
@[simp] theorem State.elapse_pwr (s : State) (dt : Nat) : (s.elapse dt).pwr = s.pwr := rfl
@[simp] theorem State.elapse_lanes (s : State) (dt : Nat) : (s.elapse dt).lanes = s.lanes := rfl
@[simp] theorem State.elapse_flt (s : State) (dt : Nat) : (s.elapse dt).flt = s.flt := rfl
@[simp] theorem State.elapse_svc (s : State) (dt : Nat) : (s.elapse dt).svc = s.svc := rfl
@[simp] theorem State.elapse_jrn (s : State) (dt : Nat) : (s.elapse dt).jrn = s.jrn := rfl
@[simp] theorem State.elapse_pending (s : State) (dt : Nat) : (s.elapse dt).pending = s.pending := rfl
@[simp] theorem State.elapse_tb_freeCtr (s : State) (dt : Nat) : (s.elapse dt).tb.freeCtr = s.tb.freeCtr := rfl
@[simp] theorem State.elapse_tb_lock (s : State) (dt : Nat) : (s.elapse dt).tb.lock = s.tb.lock := rfl
@[simp] theorem State.elapse_tb_wasLocked (s : State) (dt : Nat) : (s.elapse dt).tb.wasLocked = s.tb.wasLocked := rfl
@[simp] theorem State.elapse_tb_acquired (s : State) (dt : Nat) : (s.elapse dt).tb.acquired = s.tb.acquired := rfl
@[simp] theorem State.elapse_tb_okSyncs (s : State) (dt : Nat) : (s.elapse dt).tb.okSyncs = s.tb.okSyncs := rfl
@[simp] theorem State.elapse_tb_badSyncs (s : State) (dt : Nat) : (s.elapse dt).tb.badSyncs = s.tb.badSyncs := rfl
@[simp] theorem State.elapse_tb_domain (s : State) (dt : Nat) : (s.elapse dt).tb.domain = s.tb.domain := rfl
@[simp] theorem State.elapse_tb_ring (s : State) (dt : Nat) : (s.elapse dt).tb.ring = s.tb.ring := rfl
@[simp] theorem State.elapse_tb_stepLimit (s : State) (dt : Nat) : (s.elapse dt).tb.stepLimit = s.tb.stepLimit := rfl
@[simp] theorem State.elapse_tb_lockLimit (s : State) (dt : Nat) : (s.elapse dt).tb.lockLimit = s.tb.lockLimit := rfl
@[simp] theorem State.elapse_tb_holdMax (s : State) (dt : Nat) : (s.elapse dt).tb.holdMax = s.tb.holdMax := rfl
@[simp] theorem State.elapse_tb_holdSince (s : State) (dt : Nat) : (s.elapse dt).tb.holdSince = s.tb.holdSince := rfl
@[simp] theorem State.elapse_tb_gm (s : State) (dt : Nat) : (s.elapse dt).tb.gm = s.tb.gm := rfl
@[simp] theorem State.elapse_tb_slavePort (s : State) (dt : Nat) : (s.elapse dt).tb.slavePort = s.tb.slavePort := rfl
@[simp] theorem State.elapse_tb_offset (s : State) (dt : Nat) : (s.elapse dt).tb.offset = s.tb.offset := rfl
@[simp] theorem State.elapse_tb_meanPath (s : State) (dt : Nat) : (s.elapse dt).tb.meanPath = s.tb.meanPath := rfl
@[simp] theorem State.elapse_tb_freqAdj (s : State) (dt : Nat) : (s.elapse dt).tb.freqAdj = s.tb.freqAdj := rfl
@[simp] theorem State.elapse_tb_utcOffset (s : State) (dt : Nat) : (s.elapse dt).tb.utcOffset = s.tb.utcOffset := rfl
@[simp] theorem State.elapse_tb_steps (s : State) (dt : Nat) : (s.elapse dt).tb.steps = s.tb.steps := rfl
@[simp] theorem State.elapse_tb_lastStep (s : State) (dt : Nat) : (s.elapse dt).tb.lastStep = s.tb.lastStep := rfl
@[simp] theorem State.elapse_tb_stepSum (s : State) (dt : Nat) : (s.elapse dt).tb.stepSum = s.tb.stepSum := rfl
@[simp] theorem State.elapse_tb_ptp (s : State) (dt : Nat) : (s.elapse dt).tb.ptp = s.tb.ptp := rfl
@[simp] theorem State.elapse_tb_frameAt (s : State) (dt : Nat) : (s.elapse dt).tb.frameAt = s.tb.frameAt := rfl
@[simp] theorem State.elapse_tb_now (s : State) (dt : Nat) : (s.elapse dt).tb.now = s.tb.now + dt := rfl
@[simp] theorem State.elapse_ring (s : State) (dt : Nat) (r : Nat) : (s.elapse dt).ring r = s.ring r := rfl
@[simp] theorem State.elapse_cmdQ (s : State) (dt : Nat) (r : Nat) : (s.elapse dt).cmdQ r = s.cmdQ r := rfl
@[simp] theorem State.elapse_evtQ (s : State) (dt : Nat) (n : Nat) : (s.elapse dt).evtQ n = s.evtQ n := rfl
@[simp] theorem State.elapse_window (s : State) (dt : Nat) (w : Nat) : (s.elapse dt).window w = s.window w := rfl
@[simp] theorem State.elapse_chan (s : State) (dt : Nat) (c : Nat) : (s.elapse dt).chan c = s.chan c := rfl
@[simp] theorem State.elapse_ctx (s : State) (dt : Nat) (c : Nat) : (s.elapse dt).ctx c = s.ctx c := rfl
@[simp] theorem State.elapse_engine (s : State) (dt : Nat) (e : Nat) : (s.elapse dt).engine e = s.engine e := rfl
@[simp] theorem State.elapse_port (s : State) (dt : Nat) (p : Nat) : (s.elapse dt).port p = s.port p := rfl
@[simp] theorem State.elapse_layer (s : State) (dt : Nat) (i : Nat) : (s.elapse dt).layer i = s.layer i := rfl
@[simp] theorem State.elapse_head (s : State) (dt : Nat) (h : Nat) : (s.elapse dt).head h = s.head h := rfl
@[simp] theorem State.elapse_dpPort (s : State) (dt : Nat) (p : Nat) : (s.elapse dt).dpPort p = s.dpPort p := rfl
@[simp] theorem State.elapse_plate (s : State) (dt : Nat) (h : Nat) : (s.elapse dt).plate h = s.plate h := rfl
@[simp] theorem State.elapse_session (s : State) (dt : Nat) (i : Nat) : (s.elapse dt).session i = s.session i := rfl
@[simp] theorem State.elapse_encoder (s : State) (dt : Nat) (e : Nat) : (s.elapse dt).encoder e = s.encoder e := rfl
@[simp] theorem State.elapse_island (s : State) (dt : Nat) (i : Nat) : (s.elapse dt).island i = s.island i := rfl
@[simp] theorem State.elapse_dram (s : State) (dt : Nat) (c : Nat) : (s.elapse dt).dram c = s.dram c := rfl
@[simp] theorem State.elapse_panel (s : State) (dt : Nat) (t : Nat) : (s.elapse dt).panel t = s.panel t := rfl
@[simp] theorem State.elapse_input (s : State) (dt : Nat) (i : Nat) : (s.elapse dt).input i = s.input i := rfl
@[simp] theorem State.elapse_output (s : State) (dt : Nat) (o : Nat) : (s.elapse dt).output o = s.output o := rfl
@[simp] theorem State.elapse_quad (s : State) (dt : Nat) (q : Nat) : (s.elapse dt).quad q = s.quad q := rfl
@[simp] theorem State.elapse_hostBox (s : State) (dt : Nat) (n : Nat) : (s.elapse dt).hostBox n = s.hostBox n := rfl
@[simp] theorem State.elapse_farBox (s : State) (dt : Nat) (m : Nat) : (s.elapse dt).farBox m = s.farBox m := rfl
@[simp] theorem State.elapse_member (s : State) (dt : Nat) (m : Nat) : (s.elapse dt).member m = s.member m := rfl
@[simp] theorem State.elapse_spineLink (s : State) (dt : Nat) (l : Nat) : (s.elapse dt).spineLink l = s.spineLink l := rfl
@[simp] theorem State.elapse_cvUnit (s : State) (dt : Nat) (u : Nat) : (s.elapse dt).cvUnit u = s.cvUnit u := rfl
@[simp] theorem State.elapse_zeEngine (s : State) (dt : Nat) (e : Nat) : (s.elapse dt).zeEngine e = s.zeEngine e := rfl
@[simp] theorem State.elapse_mapOf (s : State) (dt : Nat) (r : Nat) : (s.elapse dt).mapOf r = s.mapOf r := rfl

/-! ### Updates of one unit -/

@[simp] theorem State.modHost_tb (s : State) (f : HostIf → HostIf) : (s.modHost f).tb = s.tb := rfl
@[simp] theorem State.modHost_top (s : State) (f : HostIf → HostIf) : (s.modHost f).top = s.top := rfl
@[simp] theorem State.modHost_net (s : State) (f : HostIf → HostIf) : (s.modHost f).net = s.net := rfl
@[simp] theorem State.modHost_dec (s : State) (f : HostIf → HostIf) : (s.modHost f).dec = s.dec := rfl
@[simp] theorem State.modHost_comp (s : State) (f : HostIf → HostIf) : (s.modHost f).comp = s.comp := rfl
@[simp] theorem State.modHost_enc (s : State) (f : HostIf → HostIf) : (s.modHost f).enc = s.enc := rfl
@[simp] theorem State.modHost_fab (s : State) (f : HostIf → HostIf) : (s.modHost f).fab = s.fab := rfl
@[simp] theorem State.modHost_store (s : State) (f : HostIf → HostIf) : (s.modHost f).store = s.store := rfl
@[simp] theorem State.modHost_sec (s : State) (f : HostIf → HostIf) : (s.modHost f).sec = s.sec := rfl
@[simp] theorem State.modHost_mail (s : State) (f : HostIf → HostIf) : (s.modHost f).mail = s.mail := rfl
@[simp] theorem State.modHost_gath (s : State) (f : HostIf → HostIf) : (s.modHost f).gath = s.gath := rfl
@[simp] theorem State.modHost_twin (s : State) (f : HostIf → HostIf) : (s.modHost f).twin = s.twin := rfl
@[simp] theorem State.modHost_desk (s : State) (f : HostIf → HostIf) : (s.modHost f).desk = s.desk := rfl
@[simp] theorem State.modHost_pwr (s : State) (f : HostIf → HostIf) : (s.modHost f).pwr = s.pwr := rfl
@[simp] theorem State.modHost_lanes (s : State) (f : HostIf → HostIf) : (s.modHost f).lanes = s.lanes := rfl
@[simp] theorem State.modHost_flt (s : State) (f : HostIf → HostIf) : (s.modHost f).flt = s.flt := rfl
@[simp] theorem State.modHost_svc (s : State) (f : HostIf → HostIf) : (s.modHost f).svc = s.svc := rfl
@[simp] theorem State.modHost_jrn (s : State) (f : HostIf → HostIf) : (s.modHost f).jrn = s.jrn := rfl
@[simp] theorem State.modHost_pending (s : State) (f : HostIf → HostIf) : (s.modHost f).pending = s.pending := rfl
@[simp] theorem State.modHost_ctx (s : State) (f : HostIf → HostIf) (c_ : Nat) : (s.modHost f).ctx c_ = s.ctx c_ := rfl
@[simp] theorem State.modHost_engine (s : State) (f : HostIf → HostIf) (e_ : Nat) : (s.modHost f).engine e_ = s.engine e_ := rfl
@[simp] theorem State.modHost_port (s : State) (f : HostIf → HostIf) (p_ : Nat) : (s.modHost f).port p_ = s.port p_ := rfl
@[simp] theorem State.modHost_layer (s : State) (f : HostIf → HostIf) (i_ : Nat) : (s.modHost f).layer i_ = s.layer i_ := rfl
@[simp] theorem State.modHost_head (s : State) (f : HostIf → HostIf) (h_ : Nat) : (s.modHost f).head h_ = s.head h_ := rfl
@[simp] theorem State.modHost_dpPort (s : State) (f : HostIf → HostIf) (p_ : Nat) : (s.modHost f).dpPort p_ = s.dpPort p_ := rfl
@[simp] theorem State.modHost_plate (s : State) (f : HostIf → HostIf) (h_ : Nat) : (s.modHost f).plate h_ = s.plate h_ := rfl
@[simp] theorem State.modHost_session (s : State) (f : HostIf → HostIf) (i_ : Nat) : (s.modHost f).session i_ = s.session i_ := rfl
@[simp] theorem State.modHost_encoder (s : State) (f : HostIf → HostIf) (e_ : Nat) : (s.modHost f).encoder e_ = s.encoder e_ := rfl
@[simp] theorem State.modHost_island (s : State) (f : HostIf → HostIf) (i_ : Nat) : (s.modHost f).island i_ = s.island i_ := rfl
@[simp] theorem State.modHost_dram (s : State) (f : HostIf → HostIf) (c_ : Nat) : (s.modHost f).dram c_ = s.dram c_ := rfl
@[simp] theorem State.modHost_panel (s : State) (f : HostIf → HostIf) (t_ : Nat) : (s.modHost f).panel t_ = s.panel t_ := rfl
@[simp] theorem State.modHost_input (s : State) (f : HostIf → HostIf) (i_ : Nat) : (s.modHost f).input i_ = s.input i_ := rfl
@[simp] theorem State.modHost_output (s : State) (f : HostIf → HostIf) (o_ : Nat) : (s.modHost f).output o_ = s.output o_ := rfl
@[simp] theorem State.modHost_quad (s : State) (f : HostIf → HostIf) (q_ : Nat) : (s.modHost f).quad q_ = s.quad q_ := rfl
@[simp] theorem State.modHost_hostBox (s : State) (f : HostIf → HostIf) (n_ : Nat) : (s.modHost f).hostBox n_ = s.hostBox n_ := rfl
@[simp] theorem State.modHost_farBox (s : State) (f : HostIf → HostIf) (m_ : Nat) : (s.modHost f).farBox m_ = s.farBox m_ := rfl
@[simp] theorem State.modHost_member (s : State) (f : HostIf → HostIf) (m_ : Nat) : (s.modHost f).member m_ = s.member m_ := rfl
@[simp] theorem State.modHost_spineLink (s : State) (f : HostIf → HostIf) (l_ : Nat) : (s.modHost f).spineLink l_ = s.spineLink l_ := rfl
@[simp] theorem State.modHost_cvUnit (s : State) (f : HostIf → HostIf) (u_ : Nat) : (s.modHost f).cvUnit u_ = s.cvUnit u_ := rfl
@[simp] theorem State.modHost_zeEngine (s : State) (f : HostIf → HostIf) (e_ : Nat) : (s.modHost f).zeEngine e_ = s.zeEngine e_ := rfl
@[simp] theorem State.modHost_mapOf (s : State) (f : HostIf → HostIf) (r_ : Nat) : (s.modHost f).mapOf r_ = s.mapOf r_ := rfl
@[simp] theorem State.modDec_tb (s : State) (f : Dec → Dec) : (s.modDec f).tb = s.tb := rfl
@[simp] theorem State.modDec_top (s : State) (f : Dec → Dec) : (s.modDec f).top = s.top := rfl
@[simp] theorem State.modDec_host (s : State) (f : Dec → Dec) : (s.modDec f).host = s.host := rfl
@[simp] theorem State.modDec_net (s : State) (f : Dec → Dec) : (s.modDec f).net = s.net := rfl
@[simp] theorem State.modDec_comp (s : State) (f : Dec → Dec) : (s.modDec f).comp = s.comp := rfl
@[simp] theorem State.modDec_enc (s : State) (f : Dec → Dec) : (s.modDec f).enc = s.enc := rfl
@[simp] theorem State.modDec_fab (s : State) (f : Dec → Dec) : (s.modDec f).fab = s.fab := rfl
@[simp] theorem State.modDec_store (s : State) (f : Dec → Dec) : (s.modDec f).store = s.store := rfl
@[simp] theorem State.modDec_sec (s : State) (f : Dec → Dec) : (s.modDec f).sec = s.sec := rfl
@[simp] theorem State.modDec_mail (s : State) (f : Dec → Dec) : (s.modDec f).mail = s.mail := rfl
@[simp] theorem State.modDec_gath (s : State) (f : Dec → Dec) : (s.modDec f).gath = s.gath := rfl
@[simp] theorem State.modDec_twin (s : State) (f : Dec → Dec) : (s.modDec f).twin = s.twin := rfl
@[simp] theorem State.modDec_desk (s : State) (f : Dec → Dec) : (s.modDec f).desk = s.desk := rfl
@[simp] theorem State.modDec_pwr (s : State) (f : Dec → Dec) : (s.modDec f).pwr = s.pwr := rfl
@[simp] theorem State.modDec_lanes (s : State) (f : Dec → Dec) : (s.modDec f).lanes = s.lanes := rfl
@[simp] theorem State.modDec_flt (s : State) (f : Dec → Dec) : (s.modDec f).flt = s.flt := rfl
@[simp] theorem State.modDec_svc (s : State) (f : Dec → Dec) : (s.modDec f).svc = s.svc := rfl
@[simp] theorem State.modDec_jrn (s : State) (f : Dec → Dec) : (s.modDec f).jrn = s.jrn := rfl
@[simp] theorem State.modDec_pending (s : State) (f : Dec → Dec) : (s.modDec f).pending = s.pending := rfl
@[simp] theorem State.modDec_ring (s : State) (f : Dec → Dec) (r_ : Nat) : (s.modDec f).ring r_ = s.ring r_ := rfl
@[simp] theorem State.modDec_cmdQ (s : State) (f : Dec → Dec) (r_ : Nat) : (s.modDec f).cmdQ r_ = s.cmdQ r_ := rfl
@[simp] theorem State.modDec_evtQ (s : State) (f : Dec → Dec) (n_ : Nat) : (s.modDec f).evtQ n_ = s.evtQ n_ := rfl
@[simp] theorem State.modDec_window (s : State) (f : Dec → Dec) (w_ : Nat) : (s.modDec f).window w_ = s.window w_ := rfl
@[simp] theorem State.modDec_chan (s : State) (f : Dec → Dec) (c_ : Nat) : (s.modDec f).chan c_ = s.chan c_ := rfl
@[simp] theorem State.modDec_port (s : State) (f : Dec → Dec) (p_ : Nat) : (s.modDec f).port p_ = s.port p_ := rfl
@[simp] theorem State.modDec_layer (s : State) (f : Dec → Dec) (i_ : Nat) : (s.modDec f).layer i_ = s.layer i_ := rfl
@[simp] theorem State.modDec_head (s : State) (f : Dec → Dec) (h_ : Nat) : (s.modDec f).head h_ = s.head h_ := rfl
@[simp] theorem State.modDec_dpPort (s : State) (f : Dec → Dec) (p_ : Nat) : (s.modDec f).dpPort p_ = s.dpPort p_ := rfl
@[simp] theorem State.modDec_plate (s : State) (f : Dec → Dec) (h_ : Nat) : (s.modDec f).plate h_ = s.plate h_ := rfl
@[simp] theorem State.modDec_session (s : State) (f : Dec → Dec) (i_ : Nat) : (s.modDec f).session i_ = s.session i_ := rfl
@[simp] theorem State.modDec_encoder (s : State) (f : Dec → Dec) (e_ : Nat) : (s.modDec f).encoder e_ = s.encoder e_ := rfl
@[simp] theorem State.modDec_island (s : State) (f : Dec → Dec) (i_ : Nat) : (s.modDec f).island i_ = s.island i_ := rfl
@[simp] theorem State.modDec_dram (s : State) (f : Dec → Dec) (c_ : Nat) : (s.modDec f).dram c_ = s.dram c_ := rfl
@[simp] theorem State.modDec_panel (s : State) (f : Dec → Dec) (t_ : Nat) : (s.modDec f).panel t_ = s.panel t_ := rfl
@[simp] theorem State.modDec_input (s : State) (f : Dec → Dec) (i_ : Nat) : (s.modDec f).input i_ = s.input i_ := rfl
@[simp] theorem State.modDec_output (s : State) (f : Dec → Dec) (o_ : Nat) : (s.modDec f).output o_ = s.output o_ := rfl
@[simp] theorem State.modDec_quad (s : State) (f : Dec → Dec) (q_ : Nat) : (s.modDec f).quad q_ = s.quad q_ := rfl
@[simp] theorem State.modDec_hostBox (s : State) (f : Dec → Dec) (n_ : Nat) : (s.modDec f).hostBox n_ = s.hostBox n_ := rfl
@[simp] theorem State.modDec_farBox (s : State) (f : Dec → Dec) (m_ : Nat) : (s.modDec f).farBox m_ = s.farBox m_ := rfl
@[simp] theorem State.modDec_member (s : State) (f : Dec → Dec) (m_ : Nat) : (s.modDec f).member m_ = s.member m_ := rfl
@[simp] theorem State.modDec_spineLink (s : State) (f : Dec → Dec) (l_ : Nat) : (s.modDec f).spineLink l_ = s.spineLink l_ := rfl
@[simp] theorem State.modDec_cvUnit (s : State) (f : Dec → Dec) (u_ : Nat) : (s.modDec f).cvUnit u_ = s.cvUnit u_ := rfl
@[simp] theorem State.modDec_zeEngine (s : State) (f : Dec → Dec) (e_ : Nat) : (s.modDec f).zeEngine e_ = s.zeEngine e_ := rfl
@[simp] theorem State.modDec_mapOf (s : State) (f : Dec → Dec) (r_ : Nat) : (s.modDec f).mapOf r_ = s.mapOf r_ := rfl
@[simp] theorem State.modComp_tb (s : State) (f : Comp → Comp) : (s.modComp f).tb = s.tb := rfl
@[simp] theorem State.modComp_top (s : State) (f : Comp → Comp) : (s.modComp f).top = s.top := rfl
@[simp] theorem State.modComp_host (s : State) (f : Comp → Comp) : (s.modComp f).host = s.host := rfl
@[simp] theorem State.modComp_net (s : State) (f : Comp → Comp) : (s.modComp f).net = s.net := rfl
@[simp] theorem State.modComp_dec (s : State) (f : Comp → Comp) : (s.modComp f).dec = s.dec := rfl
@[simp] theorem State.modComp_enc (s : State) (f : Comp → Comp) : (s.modComp f).enc = s.enc := rfl
@[simp] theorem State.modComp_fab (s : State) (f : Comp → Comp) : (s.modComp f).fab = s.fab := rfl
@[simp] theorem State.modComp_store (s : State) (f : Comp → Comp) : (s.modComp f).store = s.store := rfl
@[simp] theorem State.modComp_sec (s : State) (f : Comp → Comp) : (s.modComp f).sec = s.sec := rfl
@[simp] theorem State.modComp_mail (s : State) (f : Comp → Comp) : (s.modComp f).mail = s.mail := rfl
@[simp] theorem State.modComp_gath (s : State) (f : Comp → Comp) : (s.modComp f).gath = s.gath := rfl
@[simp] theorem State.modComp_twin (s : State) (f : Comp → Comp) : (s.modComp f).twin = s.twin := rfl
@[simp] theorem State.modComp_desk (s : State) (f : Comp → Comp) : (s.modComp f).desk = s.desk := rfl
@[simp] theorem State.modComp_pwr (s : State) (f : Comp → Comp) : (s.modComp f).pwr = s.pwr := rfl
@[simp] theorem State.modComp_lanes (s : State) (f : Comp → Comp) : (s.modComp f).lanes = s.lanes := rfl
@[simp] theorem State.modComp_flt (s : State) (f : Comp → Comp) : (s.modComp f).flt = s.flt := rfl
@[simp] theorem State.modComp_svc (s : State) (f : Comp → Comp) : (s.modComp f).svc = s.svc := rfl
@[simp] theorem State.modComp_jrn (s : State) (f : Comp → Comp) : (s.modComp f).jrn = s.jrn := rfl
@[simp] theorem State.modComp_pending (s : State) (f : Comp → Comp) : (s.modComp f).pending = s.pending := rfl
@[simp] theorem State.modComp_ring (s : State) (f : Comp → Comp) (r_ : Nat) : (s.modComp f).ring r_ = s.ring r_ := rfl
@[simp] theorem State.modComp_cmdQ (s : State) (f : Comp → Comp) (r_ : Nat) : (s.modComp f).cmdQ r_ = s.cmdQ r_ := rfl
@[simp] theorem State.modComp_evtQ (s : State) (f : Comp → Comp) (n_ : Nat) : (s.modComp f).evtQ n_ = s.evtQ n_ := rfl
@[simp] theorem State.modComp_window (s : State) (f : Comp → Comp) (w_ : Nat) : (s.modComp f).window w_ = s.window w_ := rfl
@[simp] theorem State.modComp_chan (s : State) (f : Comp → Comp) (c_ : Nat) : (s.modComp f).chan c_ = s.chan c_ := rfl
@[simp] theorem State.modComp_ctx (s : State) (f : Comp → Comp) (c_ : Nat) : (s.modComp f).ctx c_ = s.ctx c_ := rfl
@[simp] theorem State.modComp_engine (s : State) (f : Comp → Comp) (e_ : Nat) : (s.modComp f).engine e_ = s.engine e_ := rfl
@[simp] theorem State.modComp_port (s : State) (f : Comp → Comp) (p_ : Nat) : (s.modComp f).port p_ = s.port p_ := rfl
@[simp] theorem State.modComp_session (s : State) (f : Comp → Comp) (i_ : Nat) : (s.modComp f).session i_ = s.session i_ := rfl
@[simp] theorem State.modComp_encoder (s : State) (f : Comp → Comp) (e_ : Nat) : (s.modComp f).encoder e_ = s.encoder e_ := rfl
@[simp] theorem State.modComp_island (s : State) (f : Comp → Comp) (i_ : Nat) : (s.modComp f).island i_ = s.island i_ := rfl
@[simp] theorem State.modComp_dram (s : State) (f : Comp → Comp) (c_ : Nat) : (s.modComp f).dram c_ = s.dram c_ := rfl
@[simp] theorem State.modComp_panel (s : State) (f : Comp → Comp) (t_ : Nat) : (s.modComp f).panel t_ = s.panel t_ := rfl
@[simp] theorem State.modComp_input (s : State) (f : Comp → Comp) (i_ : Nat) : (s.modComp f).input i_ = s.input i_ := rfl
@[simp] theorem State.modComp_output (s : State) (f : Comp → Comp) (o_ : Nat) : (s.modComp f).output o_ = s.output o_ := rfl
@[simp] theorem State.modComp_quad (s : State) (f : Comp → Comp) (q_ : Nat) : (s.modComp f).quad q_ = s.quad q_ := rfl
@[simp] theorem State.modComp_hostBox (s : State) (f : Comp → Comp) (n_ : Nat) : (s.modComp f).hostBox n_ = s.hostBox n_ := rfl
@[simp] theorem State.modComp_farBox (s : State) (f : Comp → Comp) (m_ : Nat) : (s.modComp f).farBox m_ = s.farBox m_ := rfl
@[simp] theorem State.modComp_member (s : State) (f : Comp → Comp) (m_ : Nat) : (s.modComp f).member m_ = s.member m_ := rfl
@[simp] theorem State.modComp_spineLink (s : State) (f : Comp → Comp) (l_ : Nat) : (s.modComp f).spineLink l_ = s.spineLink l_ := rfl
@[simp] theorem State.modComp_cvUnit (s : State) (f : Comp → Comp) (u_ : Nat) : (s.modComp f).cvUnit u_ = s.cvUnit u_ := rfl
@[simp] theorem State.modComp_zeEngine (s : State) (f : Comp → Comp) (e_ : Nat) : (s.modComp f).zeEngine e_ = s.zeEngine e_ := rfl
@[simp] theorem State.modComp_mapOf (s : State) (f : Comp → Comp) (r_ : Nat) : (s.modComp f).mapOf r_ = s.mapOf r_ := rfl
@[simp] theorem State.modRing_tb (s : State) (r : Nat) (f : Ring → Ring) : (s.modRing r f).tb = s.tb := rfl
@[simp] theorem State.modRing_top (s : State) (r : Nat) (f : Ring → Ring) : (s.modRing r f).top = s.top := rfl
@[simp] theorem State.modRing_net (s : State) (r : Nat) (f : Ring → Ring) : (s.modRing r f).net = s.net := rfl
@[simp] theorem State.modRing_dec (s : State) (r : Nat) (f : Ring → Ring) : (s.modRing r f).dec = s.dec := rfl
@[simp] theorem State.modRing_comp (s : State) (r : Nat) (f : Ring → Ring) : (s.modRing r f).comp = s.comp := rfl
@[simp] theorem State.modRing_enc (s : State) (r : Nat) (f : Ring → Ring) : (s.modRing r f).enc = s.enc := rfl
@[simp] theorem State.modRing_fab (s : State) (r : Nat) (f : Ring → Ring) : (s.modRing r f).fab = s.fab := rfl
@[simp] theorem State.modRing_store (s : State) (r : Nat) (f : Ring → Ring) : (s.modRing r f).store = s.store := rfl
@[simp] theorem State.modRing_sec (s : State) (r : Nat) (f : Ring → Ring) : (s.modRing r f).sec = s.sec := rfl
@[simp] theorem State.modRing_mail (s : State) (r : Nat) (f : Ring → Ring) : (s.modRing r f).mail = s.mail := rfl
@[simp] theorem State.modRing_gath (s : State) (r : Nat) (f : Ring → Ring) : (s.modRing r f).gath = s.gath := rfl
@[simp] theorem State.modRing_twin (s : State) (r : Nat) (f : Ring → Ring) : (s.modRing r f).twin = s.twin := rfl
@[simp] theorem State.modRing_desk (s : State) (r : Nat) (f : Ring → Ring) : (s.modRing r f).desk = s.desk := rfl
@[simp] theorem State.modRing_pwr (s : State) (r : Nat) (f : Ring → Ring) : (s.modRing r f).pwr = s.pwr := rfl
@[simp] theorem State.modRing_lanes (s : State) (r : Nat) (f : Ring → Ring) : (s.modRing r f).lanes = s.lanes := rfl
@[simp] theorem State.modRing_flt (s : State) (r : Nat) (f : Ring → Ring) : (s.modRing r f).flt = s.flt := rfl
@[simp] theorem State.modRing_svc (s : State) (r : Nat) (f : Ring → Ring) : (s.modRing r f).svc = s.svc := rfl
@[simp] theorem State.modRing_jrn (s : State) (r : Nat) (f : Ring → Ring) : (s.modRing r f).jrn = s.jrn := rfl
@[simp] theorem State.modRing_pending (s : State) (r : Nat) (f : Ring → Ring) : (s.modRing r f).pending = s.pending := rfl
@[simp] theorem State.modRing_host_cmdq (s : State) (r : Nat) (f : Ring → Ring) : (s.modRing r f).host.cmdq = s.host.cmdq := rfl
@[simp] theorem State.modRing_host_evtq (s : State) (r : Nat) (f : Ring → Ring) : (s.modRing r f).host.evtq = s.host.evtq := rfl
@[simp] theorem State.modRing_host_stmq (s : State) (r : Nat) (f : Ring → Ring) : (s.modRing r f).host.stmq = s.host.stmq := rfl
@[simp] theorem State.modRing_host_win (s : State) (r : Nat) (f : Ring → Ring) : (s.modRing r f).host.win = s.host.win := rfl
@[simp] theorem State.modRing_host_irq (s : State) (r : Nat) (f : Ring → Ring) : (s.modRing r f).host.irq = s.host.irq := rfl
@[simp] theorem State.modRing_host_msix (s : State) (r : Nat) (f : Ring → Ring) : (s.modRing r f).host.msix = s.host.msix := rfl
@[simp] theorem State.modRing_host_chan (s : State) (r : Nat) (f : Ring → Ring) : (s.modRing r f).host.chan = s.host.chan := rfl
@[simp] theorem State.modRing_host_bus (s : State) (r : Nat) (f : Ring → Ring) : (s.modRing r f).host.bus = s.host.bus := rfl
@[simp] theorem State.modRing_host_fetchNo (s : State) (r : Nat) (f : Ring → Ring) : (s.modRing r f).host.fetchNo = s.host.fetchNo := rfl
@[simp] theorem State.modRing_host_groupNo (s : State) (r : Nat) (f : Ring → Ring) : (s.modRing r f).host.groupNo = s.host.groupNo := rfl
@[simp] theorem State.modRing_host_nextSession (s : State) (r : Nat) (f : Ring → Ring) : (s.modRing r f).host.nextSession = s.host.nextSession := rfl
@[simp] theorem State.modRing_host_perst (s : State) (r : Nat) (f : Ring → Ring) : (s.modRing r f).host.perst = s.host.perst := rfl
@[simp] theorem State.modRing_host_linkTraining (s : State) (r : Nat) (f : Ring → Ring) : (s.modRing r f).host.linkTraining = s.host.linkTraining := rfl
@[simp] theorem State.modRing_host_rrNext (s : State) (r : Nat) (f : Ring → Ring) : (s.modRing r f).host.rrNext = s.host.rrNext := rfl
@[simp] theorem State.modRing_host_rrUrgent (s : State) (r : Nat) (f : Ring → Ring) : (s.modRing r f).host.rrUrgent = s.host.rrUrgent := rfl
@[simp] theorem State.modRing_cmdQ (s : State) (r : Nat) (f : Ring → Ring) (r_ : Nat) : (s.modRing r f).cmdQ r_ = s.cmdQ r_ := rfl
@[simp] theorem State.modRing_evtQ (s : State) (r : Nat) (f : Ring → Ring) (n_ : Nat) : (s.modRing r f).evtQ n_ = s.evtQ n_ := rfl
@[simp] theorem State.modRing_window (s : State) (r : Nat) (f : Ring → Ring) (w_ : Nat) : (s.modRing r f).window w_ = s.window w_ := rfl
@[simp] theorem State.modRing_chan (s : State) (r : Nat) (f : Ring → Ring) (c_ : Nat) : (s.modRing r f).chan c_ = s.chan c_ := rfl
@[simp] theorem State.modRing_ctx (s : State) (r : Nat) (f : Ring → Ring) (c_ : Nat) : (s.modRing r f).ctx c_ = s.ctx c_ := rfl
@[simp] theorem State.modRing_engine (s : State) (r : Nat) (f : Ring → Ring) (e_ : Nat) : (s.modRing r f).engine e_ = s.engine e_ := rfl
@[simp] theorem State.modRing_port (s : State) (r : Nat) (f : Ring → Ring) (p_ : Nat) : (s.modRing r f).port p_ = s.port p_ := rfl
@[simp] theorem State.modRing_layer (s : State) (r : Nat) (f : Ring → Ring) (i_ : Nat) : (s.modRing r f).layer i_ = s.layer i_ := rfl
@[simp] theorem State.modRing_head (s : State) (r : Nat) (f : Ring → Ring) (h_ : Nat) : (s.modRing r f).head h_ = s.head h_ := rfl
@[simp] theorem State.modRing_dpPort (s : State) (r : Nat) (f : Ring → Ring) (p_ : Nat) : (s.modRing r f).dpPort p_ = s.dpPort p_ := rfl
@[simp] theorem State.modRing_plate (s : State) (r : Nat) (f : Ring → Ring) (h_ : Nat) : (s.modRing r f).plate h_ = s.plate h_ := rfl
@[simp] theorem State.modRing_session (s : State) (r : Nat) (f : Ring → Ring) (i_ : Nat) : (s.modRing r f).session i_ = s.session i_ := rfl
@[simp] theorem State.modRing_encoder (s : State) (r : Nat) (f : Ring → Ring) (e_ : Nat) : (s.modRing r f).encoder e_ = s.encoder e_ := rfl
@[simp] theorem State.modRing_island (s : State) (r : Nat) (f : Ring → Ring) (i_ : Nat) : (s.modRing r f).island i_ = s.island i_ := rfl
@[simp] theorem State.modRing_dram (s : State) (r : Nat) (f : Ring → Ring) (c_ : Nat) : (s.modRing r f).dram c_ = s.dram c_ := rfl
@[simp] theorem State.modRing_panel (s : State) (r : Nat) (f : Ring → Ring) (t_ : Nat) : (s.modRing r f).panel t_ = s.panel t_ := rfl
@[simp] theorem State.modRing_input (s : State) (r : Nat) (f : Ring → Ring) (i_ : Nat) : (s.modRing r f).input i_ = s.input i_ := rfl
@[simp] theorem State.modRing_output (s : State) (r : Nat) (f : Ring → Ring) (o_ : Nat) : (s.modRing r f).output o_ = s.output o_ := rfl
@[simp] theorem State.modRing_quad (s : State) (r : Nat) (f : Ring → Ring) (q_ : Nat) : (s.modRing r f).quad q_ = s.quad q_ := rfl
@[simp] theorem State.modRing_hostBox (s : State) (r : Nat) (f : Ring → Ring) (n_ : Nat) : (s.modRing r f).hostBox n_ = s.hostBox n_ := rfl
@[simp] theorem State.modRing_farBox (s : State) (r : Nat) (f : Ring → Ring) (m_ : Nat) : (s.modRing r f).farBox m_ = s.farBox m_ := rfl
@[simp] theorem State.modRing_member (s : State) (r : Nat) (f : Ring → Ring) (m_ : Nat) : (s.modRing r f).member m_ = s.member m_ := rfl
@[simp] theorem State.modRing_spineLink (s : State) (r : Nat) (f : Ring → Ring) (l_ : Nat) : (s.modRing r f).spineLink l_ = s.spineLink l_ := rfl
@[simp] theorem State.modRing_cvUnit (s : State) (r : Nat) (f : Ring → Ring) (u_ : Nat) : (s.modRing r f).cvUnit u_ = s.cvUnit u_ := rfl
@[simp] theorem State.modRing_zeEngine (s : State) (r : Nat) (f : Ring → Ring) (e_ : Nat) : (s.modRing r f).zeEngine e_ = s.zeEngine e_ := rfl
@[simp] theorem State.modRing_mapOf (s : State) (r : Nat) (f : Ring → Ring) (r_ : Nat) : (s.modRing r f).mapOf r_ = s.mapOf r_ := rfl
@[simp] theorem State.modRing_self (s : State) (r : Nat) (f : Ring → Ring) (hlt : r < s.host.rings.length) : (s.modRing r f).ring r = f (s.ring r) :=
  getD_modify_self _ _ _ _ hlt
theorem State.modRing_other (s : State) (r : Nat) (f : Ring → Ring) (j_ : Nat) (hne : r ≠ j_) : (s.modRing r f).ring j_ = s.ring j_ :=
  getD_modify_other _ _ _ _ _ hne

@[simp] theorem State.modCmdQ_tb (s : State) (r : Nat) (f : CmdQ → CmdQ) : (s.modCmdQ r f).tb = s.tb := rfl
@[simp] theorem State.modCmdQ_top (s : State) (r : Nat) (f : CmdQ → CmdQ) : (s.modCmdQ r f).top = s.top := rfl
@[simp] theorem State.modCmdQ_net (s : State) (r : Nat) (f : CmdQ → CmdQ) : (s.modCmdQ r f).net = s.net := rfl
@[simp] theorem State.modCmdQ_dec (s : State) (r : Nat) (f : CmdQ → CmdQ) : (s.modCmdQ r f).dec = s.dec := rfl
@[simp] theorem State.modCmdQ_comp (s : State) (r : Nat) (f : CmdQ → CmdQ) : (s.modCmdQ r f).comp = s.comp := rfl
@[simp] theorem State.modCmdQ_enc (s : State) (r : Nat) (f : CmdQ → CmdQ) : (s.modCmdQ r f).enc = s.enc := rfl
@[simp] theorem State.modCmdQ_fab (s : State) (r : Nat) (f : CmdQ → CmdQ) : (s.modCmdQ r f).fab = s.fab := rfl
@[simp] theorem State.modCmdQ_store (s : State) (r : Nat) (f : CmdQ → CmdQ) : (s.modCmdQ r f).store = s.store := rfl
@[simp] theorem State.modCmdQ_sec (s : State) (r : Nat) (f : CmdQ → CmdQ) : (s.modCmdQ r f).sec = s.sec := rfl
@[simp] theorem State.modCmdQ_mail (s : State) (r : Nat) (f : CmdQ → CmdQ) : (s.modCmdQ r f).mail = s.mail := rfl
@[simp] theorem State.modCmdQ_gath (s : State) (r : Nat) (f : CmdQ → CmdQ) : (s.modCmdQ r f).gath = s.gath := rfl
@[simp] theorem State.modCmdQ_twin (s : State) (r : Nat) (f : CmdQ → CmdQ) : (s.modCmdQ r f).twin = s.twin := rfl
@[simp] theorem State.modCmdQ_desk (s : State) (r : Nat) (f : CmdQ → CmdQ) : (s.modCmdQ r f).desk = s.desk := rfl
@[simp] theorem State.modCmdQ_pwr (s : State) (r : Nat) (f : CmdQ → CmdQ) : (s.modCmdQ r f).pwr = s.pwr := rfl
@[simp] theorem State.modCmdQ_lanes (s : State) (r : Nat) (f : CmdQ → CmdQ) : (s.modCmdQ r f).lanes = s.lanes := rfl
@[simp] theorem State.modCmdQ_flt (s : State) (r : Nat) (f : CmdQ → CmdQ) : (s.modCmdQ r f).flt = s.flt := rfl
@[simp] theorem State.modCmdQ_svc (s : State) (r : Nat) (f : CmdQ → CmdQ) : (s.modCmdQ r f).svc = s.svc := rfl
@[simp] theorem State.modCmdQ_jrn (s : State) (r : Nat) (f : CmdQ → CmdQ) : (s.modCmdQ r f).jrn = s.jrn := rfl
@[simp] theorem State.modCmdQ_pending (s : State) (r : Nat) (f : CmdQ → CmdQ) : (s.modCmdQ r f).pending = s.pending := rfl
@[simp] theorem State.modCmdQ_host_rings (s : State) (r : Nat) (f : CmdQ → CmdQ) : (s.modCmdQ r f).host.rings = s.host.rings := rfl
@[simp] theorem State.modCmdQ_host_evtq (s : State) (r : Nat) (f : CmdQ → CmdQ) : (s.modCmdQ r f).host.evtq = s.host.evtq := rfl
@[simp] theorem State.modCmdQ_host_stmq (s : State) (r : Nat) (f : CmdQ → CmdQ) : (s.modCmdQ r f).host.stmq = s.host.stmq := rfl
@[simp] theorem State.modCmdQ_host_win (s : State) (r : Nat) (f : CmdQ → CmdQ) : (s.modCmdQ r f).host.win = s.host.win := rfl
@[simp] theorem State.modCmdQ_host_irq (s : State) (r : Nat) (f : CmdQ → CmdQ) : (s.modCmdQ r f).host.irq = s.host.irq := rfl
@[simp] theorem State.modCmdQ_host_msix (s : State) (r : Nat) (f : CmdQ → CmdQ) : (s.modCmdQ r f).host.msix = s.host.msix := rfl
@[simp] theorem State.modCmdQ_host_chan (s : State) (r : Nat) (f : CmdQ → CmdQ) : (s.modCmdQ r f).host.chan = s.host.chan := rfl
@[simp] theorem State.modCmdQ_host_bus (s : State) (r : Nat) (f : CmdQ → CmdQ) : (s.modCmdQ r f).host.bus = s.host.bus := rfl
@[simp] theorem State.modCmdQ_host_fetchNo (s : State) (r : Nat) (f : CmdQ → CmdQ) : (s.modCmdQ r f).host.fetchNo = s.host.fetchNo := rfl
@[simp] theorem State.modCmdQ_host_groupNo (s : State) (r : Nat) (f : CmdQ → CmdQ) : (s.modCmdQ r f).host.groupNo = s.host.groupNo := rfl
@[simp] theorem State.modCmdQ_host_nextSession (s : State) (r : Nat) (f : CmdQ → CmdQ) : (s.modCmdQ r f).host.nextSession = s.host.nextSession := rfl
@[simp] theorem State.modCmdQ_host_perst (s : State) (r : Nat) (f : CmdQ → CmdQ) : (s.modCmdQ r f).host.perst = s.host.perst := rfl
@[simp] theorem State.modCmdQ_host_linkTraining (s : State) (r : Nat) (f : CmdQ → CmdQ) : (s.modCmdQ r f).host.linkTraining = s.host.linkTraining := rfl
@[simp] theorem State.modCmdQ_host_rrNext (s : State) (r : Nat) (f : CmdQ → CmdQ) : (s.modCmdQ r f).host.rrNext = s.host.rrNext := rfl
@[simp] theorem State.modCmdQ_host_rrUrgent (s : State) (r : Nat) (f : CmdQ → CmdQ) : (s.modCmdQ r f).host.rrUrgent = s.host.rrUrgent := rfl
@[simp] theorem State.modCmdQ_ring (s : State) (r : Nat) (f : CmdQ → CmdQ) (r_ : Nat) : (s.modCmdQ r f).ring r_ = s.ring r_ := rfl
@[simp] theorem State.modCmdQ_evtQ (s : State) (r : Nat) (f : CmdQ → CmdQ) (n_ : Nat) : (s.modCmdQ r f).evtQ n_ = s.evtQ n_ := rfl
@[simp] theorem State.modCmdQ_window (s : State) (r : Nat) (f : CmdQ → CmdQ) (w_ : Nat) : (s.modCmdQ r f).window w_ = s.window w_ := rfl
@[simp] theorem State.modCmdQ_chan (s : State) (r : Nat) (f : CmdQ → CmdQ) (c_ : Nat) : (s.modCmdQ r f).chan c_ = s.chan c_ := rfl
@[simp] theorem State.modCmdQ_ctx (s : State) (r : Nat) (f : CmdQ → CmdQ) (c_ : Nat) : (s.modCmdQ r f).ctx c_ = s.ctx c_ := rfl
@[simp] theorem State.modCmdQ_engine (s : State) (r : Nat) (f : CmdQ → CmdQ) (e_ : Nat) : (s.modCmdQ r f).engine e_ = s.engine e_ := rfl
@[simp] theorem State.modCmdQ_port (s : State) (r : Nat) (f : CmdQ → CmdQ) (p_ : Nat) : (s.modCmdQ r f).port p_ = s.port p_ := rfl
@[simp] theorem State.modCmdQ_layer (s : State) (r : Nat) (f : CmdQ → CmdQ) (i_ : Nat) : (s.modCmdQ r f).layer i_ = s.layer i_ := rfl
@[simp] theorem State.modCmdQ_head (s : State) (r : Nat) (f : CmdQ → CmdQ) (h_ : Nat) : (s.modCmdQ r f).head h_ = s.head h_ := rfl
@[simp] theorem State.modCmdQ_dpPort (s : State) (r : Nat) (f : CmdQ → CmdQ) (p_ : Nat) : (s.modCmdQ r f).dpPort p_ = s.dpPort p_ := rfl
@[simp] theorem State.modCmdQ_plate (s : State) (r : Nat) (f : CmdQ → CmdQ) (h_ : Nat) : (s.modCmdQ r f).plate h_ = s.plate h_ := rfl
@[simp] theorem State.modCmdQ_session (s : State) (r : Nat) (f : CmdQ → CmdQ) (i_ : Nat) : (s.modCmdQ r f).session i_ = s.session i_ := rfl
@[simp] theorem State.modCmdQ_encoder (s : State) (r : Nat) (f : CmdQ → CmdQ) (e_ : Nat) : (s.modCmdQ r f).encoder e_ = s.encoder e_ := rfl
@[simp] theorem State.modCmdQ_island (s : State) (r : Nat) (f : CmdQ → CmdQ) (i_ : Nat) : (s.modCmdQ r f).island i_ = s.island i_ := rfl
@[simp] theorem State.modCmdQ_dram (s : State) (r : Nat) (f : CmdQ → CmdQ) (c_ : Nat) : (s.modCmdQ r f).dram c_ = s.dram c_ := rfl
@[simp] theorem State.modCmdQ_panel (s : State) (r : Nat) (f : CmdQ → CmdQ) (t_ : Nat) : (s.modCmdQ r f).panel t_ = s.panel t_ := rfl
@[simp] theorem State.modCmdQ_input (s : State) (r : Nat) (f : CmdQ → CmdQ) (i_ : Nat) : (s.modCmdQ r f).input i_ = s.input i_ := rfl
@[simp] theorem State.modCmdQ_output (s : State) (r : Nat) (f : CmdQ → CmdQ) (o_ : Nat) : (s.modCmdQ r f).output o_ = s.output o_ := rfl
@[simp] theorem State.modCmdQ_quad (s : State) (r : Nat) (f : CmdQ → CmdQ) (q_ : Nat) : (s.modCmdQ r f).quad q_ = s.quad q_ := rfl
@[simp] theorem State.modCmdQ_hostBox (s : State) (r : Nat) (f : CmdQ → CmdQ) (n_ : Nat) : (s.modCmdQ r f).hostBox n_ = s.hostBox n_ := rfl
@[simp] theorem State.modCmdQ_farBox (s : State) (r : Nat) (f : CmdQ → CmdQ) (m_ : Nat) : (s.modCmdQ r f).farBox m_ = s.farBox m_ := rfl
@[simp] theorem State.modCmdQ_member (s : State) (r : Nat) (f : CmdQ → CmdQ) (m_ : Nat) : (s.modCmdQ r f).member m_ = s.member m_ := rfl
@[simp] theorem State.modCmdQ_spineLink (s : State) (r : Nat) (f : CmdQ → CmdQ) (l_ : Nat) : (s.modCmdQ r f).spineLink l_ = s.spineLink l_ := rfl
@[simp] theorem State.modCmdQ_cvUnit (s : State) (r : Nat) (f : CmdQ → CmdQ) (u_ : Nat) : (s.modCmdQ r f).cvUnit u_ = s.cvUnit u_ := rfl
@[simp] theorem State.modCmdQ_zeEngine (s : State) (r : Nat) (f : CmdQ → CmdQ) (e_ : Nat) : (s.modCmdQ r f).zeEngine e_ = s.zeEngine e_ := rfl
@[simp] theorem State.modCmdQ_mapOf (s : State) (r : Nat) (f : CmdQ → CmdQ) (r_ : Nat) : (s.modCmdQ r f).mapOf r_ = s.mapOf r_ := rfl
@[simp] theorem State.modCmdQ_self (s : State) (r : Nat) (f : CmdQ → CmdQ) (hlt : r < s.host.cmdq.length) : (s.modCmdQ r f).cmdQ r = f (s.cmdQ r) :=
  getD_modify_self _ _ _ _ hlt
theorem State.modCmdQ_other (s : State) (r : Nat) (f : CmdQ → CmdQ) (j_ : Nat) (hne : r ≠ j_) : (s.modCmdQ r f).cmdQ j_ = s.cmdQ j_ :=
  getD_modify_other _ _ _ _ _ hne

@[simp] theorem State.modEvtQ_tb (s : State) (n : Nat) (f : EvtQ → EvtQ) : (s.modEvtQ n f).tb = s.tb := rfl
@[simp] theorem State.modEvtQ_top (s : State) (n : Nat) (f : EvtQ → EvtQ) : (s.modEvtQ n f).top = s.top := rfl
@[simp] theorem State.modEvtQ_net (s : State) (n : Nat) (f : EvtQ → EvtQ) : (s.modEvtQ n f).net = s.net := rfl
@[simp] theorem State.modEvtQ_dec (s : State) (n : Nat) (f : EvtQ → EvtQ) : (s.modEvtQ n f).dec = s.dec := rfl
@[simp] theorem State.modEvtQ_comp (s : State) (n : Nat) (f : EvtQ → EvtQ) : (s.modEvtQ n f).comp = s.comp := rfl
@[simp] theorem State.modEvtQ_enc (s : State) (n : Nat) (f : EvtQ → EvtQ) : (s.modEvtQ n f).enc = s.enc := rfl
@[simp] theorem State.modEvtQ_fab (s : State) (n : Nat) (f : EvtQ → EvtQ) : (s.modEvtQ n f).fab = s.fab := rfl
@[simp] theorem State.modEvtQ_store (s : State) (n : Nat) (f : EvtQ → EvtQ) : (s.modEvtQ n f).store = s.store := rfl
@[simp] theorem State.modEvtQ_sec (s : State) (n : Nat) (f : EvtQ → EvtQ) : (s.modEvtQ n f).sec = s.sec := rfl
@[simp] theorem State.modEvtQ_mail (s : State) (n : Nat) (f : EvtQ → EvtQ) : (s.modEvtQ n f).mail = s.mail := rfl
@[simp] theorem State.modEvtQ_gath (s : State) (n : Nat) (f : EvtQ → EvtQ) : (s.modEvtQ n f).gath = s.gath := rfl
@[simp] theorem State.modEvtQ_twin (s : State) (n : Nat) (f : EvtQ → EvtQ) : (s.modEvtQ n f).twin = s.twin := rfl
@[simp] theorem State.modEvtQ_desk (s : State) (n : Nat) (f : EvtQ → EvtQ) : (s.modEvtQ n f).desk = s.desk := rfl
@[simp] theorem State.modEvtQ_pwr (s : State) (n : Nat) (f : EvtQ → EvtQ) : (s.modEvtQ n f).pwr = s.pwr := rfl
@[simp] theorem State.modEvtQ_lanes (s : State) (n : Nat) (f : EvtQ → EvtQ) : (s.modEvtQ n f).lanes = s.lanes := rfl
@[simp] theorem State.modEvtQ_flt (s : State) (n : Nat) (f : EvtQ → EvtQ) : (s.modEvtQ n f).flt = s.flt := rfl
@[simp] theorem State.modEvtQ_svc (s : State) (n : Nat) (f : EvtQ → EvtQ) : (s.modEvtQ n f).svc = s.svc := rfl
@[simp] theorem State.modEvtQ_jrn (s : State) (n : Nat) (f : EvtQ → EvtQ) : (s.modEvtQ n f).jrn = s.jrn := rfl
@[simp] theorem State.modEvtQ_pending (s : State) (n : Nat) (f : EvtQ → EvtQ) : (s.modEvtQ n f).pending = s.pending := rfl
@[simp] theorem State.modEvtQ_host_rings (s : State) (n : Nat) (f : EvtQ → EvtQ) : (s.modEvtQ n f).host.rings = s.host.rings := rfl
@[simp] theorem State.modEvtQ_host_cmdq (s : State) (n : Nat) (f : EvtQ → EvtQ) : (s.modEvtQ n f).host.cmdq = s.host.cmdq := rfl
@[simp] theorem State.modEvtQ_host_stmq (s : State) (n : Nat) (f : EvtQ → EvtQ) : (s.modEvtQ n f).host.stmq = s.host.stmq := rfl
@[simp] theorem State.modEvtQ_host_win (s : State) (n : Nat) (f : EvtQ → EvtQ) : (s.modEvtQ n f).host.win = s.host.win := rfl
@[simp] theorem State.modEvtQ_host_irq (s : State) (n : Nat) (f : EvtQ → EvtQ) : (s.modEvtQ n f).host.irq = s.host.irq := rfl
@[simp] theorem State.modEvtQ_host_msix (s : State) (n : Nat) (f : EvtQ → EvtQ) : (s.modEvtQ n f).host.msix = s.host.msix := rfl
@[simp] theorem State.modEvtQ_host_chan (s : State) (n : Nat) (f : EvtQ → EvtQ) : (s.modEvtQ n f).host.chan = s.host.chan := rfl
@[simp] theorem State.modEvtQ_host_bus (s : State) (n : Nat) (f : EvtQ → EvtQ) : (s.modEvtQ n f).host.bus = s.host.bus := rfl
@[simp] theorem State.modEvtQ_host_fetchNo (s : State) (n : Nat) (f : EvtQ → EvtQ) : (s.modEvtQ n f).host.fetchNo = s.host.fetchNo := rfl
@[simp] theorem State.modEvtQ_host_groupNo (s : State) (n : Nat) (f : EvtQ → EvtQ) : (s.modEvtQ n f).host.groupNo = s.host.groupNo := rfl
@[simp] theorem State.modEvtQ_host_nextSession (s : State) (n : Nat) (f : EvtQ → EvtQ) : (s.modEvtQ n f).host.nextSession = s.host.nextSession := rfl
@[simp] theorem State.modEvtQ_host_perst (s : State) (n : Nat) (f : EvtQ → EvtQ) : (s.modEvtQ n f).host.perst = s.host.perst := rfl
@[simp] theorem State.modEvtQ_host_linkTraining (s : State) (n : Nat) (f : EvtQ → EvtQ) : (s.modEvtQ n f).host.linkTraining = s.host.linkTraining := rfl
@[simp] theorem State.modEvtQ_host_rrNext (s : State) (n : Nat) (f : EvtQ → EvtQ) : (s.modEvtQ n f).host.rrNext = s.host.rrNext := rfl
@[simp] theorem State.modEvtQ_host_rrUrgent (s : State) (n : Nat) (f : EvtQ → EvtQ) : (s.modEvtQ n f).host.rrUrgent = s.host.rrUrgent := rfl
@[simp] theorem State.modEvtQ_ring (s : State) (n : Nat) (f : EvtQ → EvtQ) (r_ : Nat) : (s.modEvtQ n f).ring r_ = s.ring r_ := rfl
@[simp] theorem State.modEvtQ_cmdQ (s : State) (n : Nat) (f : EvtQ → EvtQ) (r_ : Nat) : (s.modEvtQ n f).cmdQ r_ = s.cmdQ r_ := rfl
@[simp] theorem State.modEvtQ_window (s : State) (n : Nat) (f : EvtQ → EvtQ) (w_ : Nat) : (s.modEvtQ n f).window w_ = s.window w_ := rfl
@[simp] theorem State.modEvtQ_chan (s : State) (n : Nat) (f : EvtQ → EvtQ) (c_ : Nat) : (s.modEvtQ n f).chan c_ = s.chan c_ := rfl
@[simp] theorem State.modEvtQ_ctx (s : State) (n : Nat) (f : EvtQ → EvtQ) (c_ : Nat) : (s.modEvtQ n f).ctx c_ = s.ctx c_ := rfl
@[simp] theorem State.modEvtQ_engine (s : State) (n : Nat) (f : EvtQ → EvtQ) (e_ : Nat) : (s.modEvtQ n f).engine e_ = s.engine e_ := rfl
@[simp] theorem State.modEvtQ_port (s : State) (n : Nat) (f : EvtQ → EvtQ) (p_ : Nat) : (s.modEvtQ n f).port p_ = s.port p_ := rfl
@[simp] theorem State.modEvtQ_layer (s : State) (n : Nat) (f : EvtQ → EvtQ) (i_ : Nat) : (s.modEvtQ n f).layer i_ = s.layer i_ := rfl
@[simp] theorem State.modEvtQ_head (s : State) (n : Nat) (f : EvtQ → EvtQ) (h_ : Nat) : (s.modEvtQ n f).head h_ = s.head h_ := rfl
@[simp] theorem State.modEvtQ_dpPort (s : State) (n : Nat) (f : EvtQ → EvtQ) (p_ : Nat) : (s.modEvtQ n f).dpPort p_ = s.dpPort p_ := rfl
@[simp] theorem State.modEvtQ_plate (s : State) (n : Nat) (f : EvtQ → EvtQ) (h_ : Nat) : (s.modEvtQ n f).plate h_ = s.plate h_ := rfl
@[simp] theorem State.modEvtQ_session (s : State) (n : Nat) (f : EvtQ → EvtQ) (i_ : Nat) : (s.modEvtQ n f).session i_ = s.session i_ := rfl
@[simp] theorem State.modEvtQ_encoder (s : State) (n : Nat) (f : EvtQ → EvtQ) (e_ : Nat) : (s.modEvtQ n f).encoder e_ = s.encoder e_ := rfl
@[simp] theorem State.modEvtQ_island (s : State) (n : Nat) (f : EvtQ → EvtQ) (i_ : Nat) : (s.modEvtQ n f).island i_ = s.island i_ := rfl
@[simp] theorem State.modEvtQ_dram (s : State) (n : Nat) (f : EvtQ → EvtQ) (c_ : Nat) : (s.modEvtQ n f).dram c_ = s.dram c_ := rfl
@[simp] theorem State.modEvtQ_panel (s : State) (n : Nat) (f : EvtQ → EvtQ) (t_ : Nat) : (s.modEvtQ n f).panel t_ = s.panel t_ := rfl
@[simp] theorem State.modEvtQ_input (s : State) (n : Nat) (f : EvtQ → EvtQ) (i_ : Nat) : (s.modEvtQ n f).input i_ = s.input i_ := rfl
@[simp] theorem State.modEvtQ_output (s : State) (n : Nat) (f : EvtQ → EvtQ) (o_ : Nat) : (s.modEvtQ n f).output o_ = s.output o_ := rfl
@[simp] theorem State.modEvtQ_quad (s : State) (n : Nat) (f : EvtQ → EvtQ) (q_ : Nat) : (s.modEvtQ n f).quad q_ = s.quad q_ := rfl
@[simp] theorem State.modEvtQ_hostBox (s : State) (n : Nat) (f : EvtQ → EvtQ) (n_ : Nat) : (s.modEvtQ n f).hostBox n_ = s.hostBox n_ := rfl
@[simp] theorem State.modEvtQ_farBox (s : State) (n : Nat) (f : EvtQ → EvtQ) (m_ : Nat) : (s.modEvtQ n f).farBox m_ = s.farBox m_ := rfl
@[simp] theorem State.modEvtQ_member (s : State) (n : Nat) (f : EvtQ → EvtQ) (m_ : Nat) : (s.modEvtQ n f).member m_ = s.member m_ := rfl
@[simp] theorem State.modEvtQ_spineLink (s : State) (n : Nat) (f : EvtQ → EvtQ) (l_ : Nat) : (s.modEvtQ n f).spineLink l_ = s.spineLink l_ := rfl
@[simp] theorem State.modEvtQ_cvUnit (s : State) (n : Nat) (f : EvtQ → EvtQ) (u_ : Nat) : (s.modEvtQ n f).cvUnit u_ = s.cvUnit u_ := rfl
@[simp] theorem State.modEvtQ_zeEngine (s : State) (n : Nat) (f : EvtQ → EvtQ) (e_ : Nat) : (s.modEvtQ n f).zeEngine e_ = s.zeEngine e_ := rfl
@[simp] theorem State.modEvtQ_mapOf (s : State) (n : Nat) (f : EvtQ → EvtQ) (r_ : Nat) : (s.modEvtQ n f).mapOf r_ = s.mapOf r_ := rfl
@[simp] theorem State.modEvtQ_self (s : State) (n : Nat) (f : EvtQ → EvtQ) (hlt : n < s.host.evtq.length) : (s.modEvtQ n f).evtQ n = f (s.evtQ n) :=
  getD_modify_self _ _ _ _ hlt
theorem State.modEvtQ_other (s : State) (n : Nat) (f : EvtQ → EvtQ) (j_ : Nat) (hne : n ≠ j_) : (s.modEvtQ n f).evtQ j_ = s.evtQ j_ :=
  getD_modify_other _ _ _ _ _ hne

@[simp] theorem State.modWindow_tb (s : State) (w : Nat) (f : Window → Window) : (s.modWindow w f).tb = s.tb := rfl
@[simp] theorem State.modWindow_top (s : State) (w : Nat) (f : Window → Window) : (s.modWindow w f).top = s.top := rfl
@[simp] theorem State.modWindow_net (s : State) (w : Nat) (f : Window → Window) : (s.modWindow w f).net = s.net := rfl
@[simp] theorem State.modWindow_dec (s : State) (w : Nat) (f : Window → Window) : (s.modWindow w f).dec = s.dec := rfl
@[simp] theorem State.modWindow_comp (s : State) (w : Nat) (f : Window → Window) : (s.modWindow w f).comp = s.comp := rfl
@[simp] theorem State.modWindow_enc (s : State) (w : Nat) (f : Window → Window) : (s.modWindow w f).enc = s.enc := rfl
@[simp] theorem State.modWindow_fab (s : State) (w : Nat) (f : Window → Window) : (s.modWindow w f).fab = s.fab := rfl
@[simp] theorem State.modWindow_store (s : State) (w : Nat) (f : Window → Window) : (s.modWindow w f).store = s.store := rfl
@[simp] theorem State.modWindow_sec (s : State) (w : Nat) (f : Window → Window) : (s.modWindow w f).sec = s.sec := rfl
@[simp] theorem State.modWindow_mail (s : State) (w : Nat) (f : Window → Window) : (s.modWindow w f).mail = s.mail := rfl
@[simp] theorem State.modWindow_gath (s : State) (w : Nat) (f : Window → Window) : (s.modWindow w f).gath = s.gath := rfl
@[simp] theorem State.modWindow_twin (s : State) (w : Nat) (f : Window → Window) : (s.modWindow w f).twin = s.twin := rfl
@[simp] theorem State.modWindow_desk (s : State) (w : Nat) (f : Window → Window) : (s.modWindow w f).desk = s.desk := rfl
@[simp] theorem State.modWindow_pwr (s : State) (w : Nat) (f : Window → Window) : (s.modWindow w f).pwr = s.pwr := rfl
@[simp] theorem State.modWindow_lanes (s : State) (w : Nat) (f : Window → Window) : (s.modWindow w f).lanes = s.lanes := rfl
@[simp] theorem State.modWindow_flt (s : State) (w : Nat) (f : Window → Window) : (s.modWindow w f).flt = s.flt := rfl
@[simp] theorem State.modWindow_svc (s : State) (w : Nat) (f : Window → Window) : (s.modWindow w f).svc = s.svc := rfl
@[simp] theorem State.modWindow_jrn (s : State) (w : Nat) (f : Window → Window) : (s.modWindow w f).jrn = s.jrn := rfl
@[simp] theorem State.modWindow_pending (s : State) (w : Nat) (f : Window → Window) : (s.modWindow w f).pending = s.pending := rfl
@[simp] theorem State.modWindow_host_rings (s : State) (w : Nat) (f : Window → Window) : (s.modWindow w f).host.rings = s.host.rings := rfl
@[simp] theorem State.modWindow_host_cmdq (s : State) (w : Nat) (f : Window → Window) : (s.modWindow w f).host.cmdq = s.host.cmdq := rfl
@[simp] theorem State.modWindow_host_evtq (s : State) (w : Nat) (f : Window → Window) : (s.modWindow w f).host.evtq = s.host.evtq := rfl
@[simp] theorem State.modWindow_host_stmq (s : State) (w : Nat) (f : Window → Window) : (s.modWindow w f).host.stmq = s.host.stmq := rfl
@[simp] theorem State.modWindow_host_irq (s : State) (w : Nat) (f : Window → Window) : (s.modWindow w f).host.irq = s.host.irq := rfl
@[simp] theorem State.modWindow_host_msix (s : State) (w : Nat) (f : Window → Window) : (s.modWindow w f).host.msix = s.host.msix := rfl
@[simp] theorem State.modWindow_host_chan (s : State) (w : Nat) (f : Window → Window) : (s.modWindow w f).host.chan = s.host.chan := rfl
@[simp] theorem State.modWindow_host_bus (s : State) (w : Nat) (f : Window → Window) : (s.modWindow w f).host.bus = s.host.bus := rfl
@[simp] theorem State.modWindow_host_fetchNo (s : State) (w : Nat) (f : Window → Window) : (s.modWindow w f).host.fetchNo = s.host.fetchNo := rfl
@[simp] theorem State.modWindow_host_groupNo (s : State) (w : Nat) (f : Window → Window) : (s.modWindow w f).host.groupNo = s.host.groupNo := rfl
@[simp] theorem State.modWindow_host_nextSession (s : State) (w : Nat) (f : Window → Window) : (s.modWindow w f).host.nextSession = s.host.nextSession := rfl
@[simp] theorem State.modWindow_host_perst (s : State) (w : Nat) (f : Window → Window) : (s.modWindow w f).host.perst = s.host.perst := rfl
@[simp] theorem State.modWindow_host_linkTraining (s : State) (w : Nat) (f : Window → Window) : (s.modWindow w f).host.linkTraining = s.host.linkTraining := rfl
@[simp] theorem State.modWindow_host_rrNext (s : State) (w : Nat) (f : Window → Window) : (s.modWindow w f).host.rrNext = s.host.rrNext := rfl
@[simp] theorem State.modWindow_host_rrUrgent (s : State) (w : Nat) (f : Window → Window) : (s.modWindow w f).host.rrUrgent = s.host.rrUrgent := rfl
@[simp] theorem State.modWindow_ring (s : State) (w : Nat) (f : Window → Window) (r_ : Nat) : (s.modWindow w f).ring r_ = s.ring r_ := rfl
@[simp] theorem State.modWindow_cmdQ (s : State) (w : Nat) (f : Window → Window) (r_ : Nat) : (s.modWindow w f).cmdQ r_ = s.cmdQ r_ := rfl
@[simp] theorem State.modWindow_evtQ (s : State) (w : Nat) (f : Window → Window) (n_ : Nat) : (s.modWindow w f).evtQ n_ = s.evtQ n_ := rfl
@[simp] theorem State.modWindow_chan (s : State) (w : Nat) (f : Window → Window) (c_ : Nat) : (s.modWindow w f).chan c_ = s.chan c_ := rfl
@[simp] theorem State.modWindow_ctx (s : State) (w : Nat) (f : Window → Window) (c_ : Nat) : (s.modWindow w f).ctx c_ = s.ctx c_ := rfl
@[simp] theorem State.modWindow_engine (s : State) (w : Nat) (f : Window → Window) (e_ : Nat) : (s.modWindow w f).engine e_ = s.engine e_ := rfl
@[simp] theorem State.modWindow_port (s : State) (w : Nat) (f : Window → Window) (p_ : Nat) : (s.modWindow w f).port p_ = s.port p_ := rfl
@[simp] theorem State.modWindow_layer (s : State) (w : Nat) (f : Window → Window) (i_ : Nat) : (s.modWindow w f).layer i_ = s.layer i_ := rfl
@[simp] theorem State.modWindow_head (s : State) (w : Nat) (f : Window → Window) (h_ : Nat) : (s.modWindow w f).head h_ = s.head h_ := rfl
@[simp] theorem State.modWindow_dpPort (s : State) (w : Nat) (f : Window → Window) (p_ : Nat) : (s.modWindow w f).dpPort p_ = s.dpPort p_ := rfl
@[simp] theorem State.modWindow_plate (s : State) (w : Nat) (f : Window → Window) (h_ : Nat) : (s.modWindow w f).plate h_ = s.plate h_ := rfl
@[simp] theorem State.modWindow_session (s : State) (w : Nat) (f : Window → Window) (i_ : Nat) : (s.modWindow w f).session i_ = s.session i_ := rfl
@[simp] theorem State.modWindow_encoder (s : State) (w : Nat) (f : Window → Window) (e_ : Nat) : (s.modWindow w f).encoder e_ = s.encoder e_ := rfl
@[simp] theorem State.modWindow_island (s : State) (w : Nat) (f : Window → Window) (i_ : Nat) : (s.modWindow w f).island i_ = s.island i_ := rfl
@[simp] theorem State.modWindow_dram (s : State) (w : Nat) (f : Window → Window) (c_ : Nat) : (s.modWindow w f).dram c_ = s.dram c_ := rfl
@[simp] theorem State.modWindow_panel (s : State) (w : Nat) (f : Window → Window) (t_ : Nat) : (s.modWindow w f).panel t_ = s.panel t_ := rfl
@[simp] theorem State.modWindow_input (s : State) (w : Nat) (f : Window → Window) (i_ : Nat) : (s.modWindow w f).input i_ = s.input i_ := rfl
@[simp] theorem State.modWindow_output (s : State) (w : Nat) (f : Window → Window) (o_ : Nat) : (s.modWindow w f).output o_ = s.output o_ := rfl
@[simp] theorem State.modWindow_quad (s : State) (w : Nat) (f : Window → Window) (q_ : Nat) : (s.modWindow w f).quad q_ = s.quad q_ := rfl
@[simp] theorem State.modWindow_hostBox (s : State) (w : Nat) (f : Window → Window) (n_ : Nat) : (s.modWindow w f).hostBox n_ = s.hostBox n_ := rfl
@[simp] theorem State.modWindow_farBox (s : State) (w : Nat) (f : Window → Window) (m_ : Nat) : (s.modWindow w f).farBox m_ = s.farBox m_ := rfl
@[simp] theorem State.modWindow_member (s : State) (w : Nat) (f : Window → Window) (m_ : Nat) : (s.modWindow w f).member m_ = s.member m_ := rfl
@[simp] theorem State.modWindow_spineLink (s : State) (w : Nat) (f : Window → Window) (l_ : Nat) : (s.modWindow w f).spineLink l_ = s.spineLink l_ := rfl
@[simp] theorem State.modWindow_cvUnit (s : State) (w : Nat) (f : Window → Window) (u_ : Nat) : (s.modWindow w f).cvUnit u_ = s.cvUnit u_ := rfl
@[simp] theorem State.modWindow_zeEngine (s : State) (w : Nat) (f : Window → Window) (e_ : Nat) : (s.modWindow w f).zeEngine e_ = s.zeEngine e_ := rfl
@[simp] theorem State.modWindow_mapOf (s : State) (w : Nat) (f : Window → Window) (r_ : Nat) : (s.modWindow w f).mapOf r_ = s.mapOf r_ := rfl
@[simp] theorem State.modWindow_self (s : State) (w : Nat) (f : Window → Window) (hlt : w < s.host.win.length) : (s.modWindow w f).window w = f (s.window w) :=
  getD_modify_self _ _ _ _ hlt
theorem State.modWindow_other (s : State) (w : Nat) (f : Window → Window) (j_ : Nat) (hne : w ≠ j_) : (s.modWindow w f).window j_ = s.window j_ :=
  getD_modify_other _ _ _ _ _ hne

@[simp] theorem State.modChan_tb (s : State) (c : Nat) (f : Channel → Channel) : (s.modChan c f).tb = s.tb := rfl
@[simp] theorem State.modChan_top (s : State) (c : Nat) (f : Channel → Channel) : (s.modChan c f).top = s.top := rfl
@[simp] theorem State.modChan_net (s : State) (c : Nat) (f : Channel → Channel) : (s.modChan c f).net = s.net := rfl
@[simp] theorem State.modChan_dec (s : State) (c : Nat) (f : Channel → Channel) : (s.modChan c f).dec = s.dec := rfl
@[simp] theorem State.modChan_comp (s : State) (c : Nat) (f : Channel → Channel) : (s.modChan c f).comp = s.comp := rfl
@[simp] theorem State.modChan_enc (s : State) (c : Nat) (f : Channel → Channel) : (s.modChan c f).enc = s.enc := rfl
@[simp] theorem State.modChan_fab (s : State) (c : Nat) (f : Channel → Channel) : (s.modChan c f).fab = s.fab := rfl
@[simp] theorem State.modChan_store (s : State) (c : Nat) (f : Channel → Channel) : (s.modChan c f).store = s.store := rfl
@[simp] theorem State.modChan_sec (s : State) (c : Nat) (f : Channel → Channel) : (s.modChan c f).sec = s.sec := rfl
@[simp] theorem State.modChan_mail (s : State) (c : Nat) (f : Channel → Channel) : (s.modChan c f).mail = s.mail := rfl
@[simp] theorem State.modChan_gath (s : State) (c : Nat) (f : Channel → Channel) : (s.modChan c f).gath = s.gath := rfl
@[simp] theorem State.modChan_twin (s : State) (c : Nat) (f : Channel → Channel) : (s.modChan c f).twin = s.twin := rfl
@[simp] theorem State.modChan_desk (s : State) (c : Nat) (f : Channel → Channel) : (s.modChan c f).desk = s.desk := rfl
@[simp] theorem State.modChan_pwr (s : State) (c : Nat) (f : Channel → Channel) : (s.modChan c f).pwr = s.pwr := rfl
@[simp] theorem State.modChan_lanes (s : State) (c : Nat) (f : Channel → Channel) : (s.modChan c f).lanes = s.lanes := rfl
@[simp] theorem State.modChan_flt (s : State) (c : Nat) (f : Channel → Channel) : (s.modChan c f).flt = s.flt := rfl
@[simp] theorem State.modChan_svc (s : State) (c : Nat) (f : Channel → Channel) : (s.modChan c f).svc = s.svc := rfl
@[simp] theorem State.modChan_jrn (s : State) (c : Nat) (f : Channel → Channel) : (s.modChan c f).jrn = s.jrn := rfl
@[simp] theorem State.modChan_pending (s : State) (c : Nat) (f : Channel → Channel) : (s.modChan c f).pending = s.pending := rfl
@[simp] theorem State.modChan_host_rings (s : State) (c : Nat) (f : Channel → Channel) : (s.modChan c f).host.rings = s.host.rings := rfl
@[simp] theorem State.modChan_host_cmdq (s : State) (c : Nat) (f : Channel → Channel) : (s.modChan c f).host.cmdq = s.host.cmdq := rfl
@[simp] theorem State.modChan_host_evtq (s : State) (c : Nat) (f : Channel → Channel) : (s.modChan c f).host.evtq = s.host.evtq := rfl
@[simp] theorem State.modChan_host_stmq (s : State) (c : Nat) (f : Channel → Channel) : (s.modChan c f).host.stmq = s.host.stmq := rfl
@[simp] theorem State.modChan_host_win (s : State) (c : Nat) (f : Channel → Channel) : (s.modChan c f).host.win = s.host.win := rfl
@[simp] theorem State.modChan_host_irq (s : State) (c : Nat) (f : Channel → Channel) : (s.modChan c f).host.irq = s.host.irq := rfl
@[simp] theorem State.modChan_host_msix (s : State) (c : Nat) (f : Channel → Channel) : (s.modChan c f).host.msix = s.host.msix := rfl
@[simp] theorem State.modChan_host_bus (s : State) (c : Nat) (f : Channel → Channel) : (s.modChan c f).host.bus = s.host.bus := rfl
@[simp] theorem State.modChan_host_fetchNo (s : State) (c : Nat) (f : Channel → Channel) : (s.modChan c f).host.fetchNo = s.host.fetchNo := rfl
@[simp] theorem State.modChan_host_groupNo (s : State) (c : Nat) (f : Channel → Channel) : (s.modChan c f).host.groupNo = s.host.groupNo := rfl
@[simp] theorem State.modChan_host_nextSession (s : State) (c : Nat) (f : Channel → Channel) : (s.modChan c f).host.nextSession = s.host.nextSession := rfl
@[simp] theorem State.modChan_host_perst (s : State) (c : Nat) (f : Channel → Channel) : (s.modChan c f).host.perst = s.host.perst := rfl
@[simp] theorem State.modChan_host_linkTraining (s : State) (c : Nat) (f : Channel → Channel) : (s.modChan c f).host.linkTraining = s.host.linkTraining := rfl
@[simp] theorem State.modChan_host_rrNext (s : State) (c : Nat) (f : Channel → Channel) : (s.modChan c f).host.rrNext = s.host.rrNext := rfl
@[simp] theorem State.modChan_host_rrUrgent (s : State) (c : Nat) (f : Channel → Channel) : (s.modChan c f).host.rrUrgent = s.host.rrUrgent := rfl
@[simp] theorem State.modChan_ring (s : State) (c : Nat) (f : Channel → Channel) (r_ : Nat) : (s.modChan c f).ring r_ = s.ring r_ := rfl
@[simp] theorem State.modChan_cmdQ (s : State) (c : Nat) (f : Channel → Channel) (r_ : Nat) : (s.modChan c f).cmdQ r_ = s.cmdQ r_ := rfl
@[simp] theorem State.modChan_evtQ (s : State) (c : Nat) (f : Channel → Channel) (n_ : Nat) : (s.modChan c f).evtQ n_ = s.evtQ n_ := rfl
@[simp] theorem State.modChan_window (s : State) (c : Nat) (f : Channel → Channel) (w_ : Nat) : (s.modChan c f).window w_ = s.window w_ := rfl
@[simp] theorem State.modChan_ctx (s : State) (c : Nat) (f : Channel → Channel) (c_ : Nat) : (s.modChan c f).ctx c_ = s.ctx c_ := rfl
@[simp] theorem State.modChan_engine (s : State) (c : Nat) (f : Channel → Channel) (e_ : Nat) : (s.modChan c f).engine e_ = s.engine e_ := rfl
@[simp] theorem State.modChan_port (s : State) (c : Nat) (f : Channel → Channel) (p_ : Nat) : (s.modChan c f).port p_ = s.port p_ := rfl
@[simp] theorem State.modChan_layer (s : State) (c : Nat) (f : Channel → Channel) (i_ : Nat) : (s.modChan c f).layer i_ = s.layer i_ := rfl
@[simp] theorem State.modChan_head (s : State) (c : Nat) (f : Channel → Channel) (h_ : Nat) : (s.modChan c f).head h_ = s.head h_ := rfl
@[simp] theorem State.modChan_dpPort (s : State) (c : Nat) (f : Channel → Channel) (p_ : Nat) : (s.modChan c f).dpPort p_ = s.dpPort p_ := rfl
@[simp] theorem State.modChan_plate (s : State) (c : Nat) (f : Channel → Channel) (h_ : Nat) : (s.modChan c f).plate h_ = s.plate h_ := rfl
@[simp] theorem State.modChan_session (s : State) (c : Nat) (f : Channel → Channel) (i_ : Nat) : (s.modChan c f).session i_ = s.session i_ := rfl
@[simp] theorem State.modChan_encoder (s : State) (c : Nat) (f : Channel → Channel) (e_ : Nat) : (s.modChan c f).encoder e_ = s.encoder e_ := rfl
@[simp] theorem State.modChan_island (s : State) (c : Nat) (f : Channel → Channel) (i_ : Nat) : (s.modChan c f).island i_ = s.island i_ := rfl
@[simp] theorem State.modChan_dram (s : State) (c : Nat) (f : Channel → Channel) (c_ : Nat) : (s.modChan c f).dram c_ = s.dram c_ := rfl
@[simp] theorem State.modChan_panel (s : State) (c : Nat) (f : Channel → Channel) (t_ : Nat) : (s.modChan c f).panel t_ = s.panel t_ := rfl
@[simp] theorem State.modChan_input (s : State) (c : Nat) (f : Channel → Channel) (i_ : Nat) : (s.modChan c f).input i_ = s.input i_ := rfl
@[simp] theorem State.modChan_output (s : State) (c : Nat) (f : Channel → Channel) (o_ : Nat) : (s.modChan c f).output o_ = s.output o_ := rfl
@[simp] theorem State.modChan_quad (s : State) (c : Nat) (f : Channel → Channel) (q_ : Nat) : (s.modChan c f).quad q_ = s.quad q_ := rfl
@[simp] theorem State.modChan_hostBox (s : State) (c : Nat) (f : Channel → Channel) (n_ : Nat) : (s.modChan c f).hostBox n_ = s.hostBox n_ := rfl
@[simp] theorem State.modChan_farBox (s : State) (c : Nat) (f : Channel → Channel) (m_ : Nat) : (s.modChan c f).farBox m_ = s.farBox m_ := rfl
@[simp] theorem State.modChan_member (s : State) (c : Nat) (f : Channel → Channel) (m_ : Nat) : (s.modChan c f).member m_ = s.member m_ := rfl
@[simp] theorem State.modChan_spineLink (s : State) (c : Nat) (f : Channel → Channel) (l_ : Nat) : (s.modChan c f).spineLink l_ = s.spineLink l_ := rfl
@[simp] theorem State.modChan_cvUnit (s : State) (c : Nat) (f : Channel → Channel) (u_ : Nat) : (s.modChan c f).cvUnit u_ = s.cvUnit u_ := rfl
@[simp] theorem State.modChan_zeEngine (s : State) (c : Nat) (f : Channel → Channel) (e_ : Nat) : (s.modChan c f).zeEngine e_ = s.zeEngine e_ := rfl
@[simp] theorem State.modChan_mapOf (s : State) (c : Nat) (f : Channel → Channel) (r_ : Nat) : (s.modChan c f).mapOf r_ = s.mapOf r_ := rfl
@[simp] theorem State.modChan_self (s : State) (c : Nat) (f : Channel → Channel) (hlt : c < s.host.chan.length) : (s.modChan c f).chan c = f (s.chan c) :=
  getD_modify_self _ _ _ _ hlt
theorem State.modChan_other (s : State) (c : Nat) (f : Channel → Channel) (j_ : Nat) (hne : c ≠ j_) : (s.modChan c f).chan j_ = s.chan j_ :=
  getD_modify_other _ _ _ _ _ hne

@[simp] theorem State.modCtx_tb (s : State) (c : Nat) (f : Context → Context) : (s.modCtx c f).tb = s.tb := rfl
@[simp] theorem State.modCtx_top (s : State) (c : Nat) (f : Context → Context) : (s.modCtx c f).top = s.top := rfl
@[simp] theorem State.modCtx_host (s : State) (c : Nat) (f : Context → Context) : (s.modCtx c f).host = s.host := rfl
@[simp] theorem State.modCtx_net (s : State) (c : Nat) (f : Context → Context) : (s.modCtx c f).net = s.net := rfl
@[simp] theorem State.modCtx_comp (s : State) (c : Nat) (f : Context → Context) : (s.modCtx c f).comp = s.comp := rfl
@[simp] theorem State.modCtx_enc (s : State) (c : Nat) (f : Context → Context) : (s.modCtx c f).enc = s.enc := rfl
@[simp] theorem State.modCtx_fab (s : State) (c : Nat) (f : Context → Context) : (s.modCtx c f).fab = s.fab := rfl
@[simp] theorem State.modCtx_store (s : State) (c : Nat) (f : Context → Context) : (s.modCtx c f).store = s.store := rfl
@[simp] theorem State.modCtx_sec (s : State) (c : Nat) (f : Context → Context) : (s.modCtx c f).sec = s.sec := rfl
@[simp] theorem State.modCtx_mail (s : State) (c : Nat) (f : Context → Context) : (s.modCtx c f).mail = s.mail := rfl
@[simp] theorem State.modCtx_gath (s : State) (c : Nat) (f : Context → Context) : (s.modCtx c f).gath = s.gath := rfl
@[simp] theorem State.modCtx_twin (s : State) (c : Nat) (f : Context → Context) : (s.modCtx c f).twin = s.twin := rfl
@[simp] theorem State.modCtx_desk (s : State) (c : Nat) (f : Context → Context) : (s.modCtx c f).desk = s.desk := rfl
@[simp] theorem State.modCtx_pwr (s : State) (c : Nat) (f : Context → Context) : (s.modCtx c f).pwr = s.pwr := rfl
@[simp] theorem State.modCtx_lanes (s : State) (c : Nat) (f : Context → Context) : (s.modCtx c f).lanes = s.lanes := rfl
@[simp] theorem State.modCtx_flt (s : State) (c : Nat) (f : Context → Context) : (s.modCtx c f).flt = s.flt := rfl
@[simp] theorem State.modCtx_svc (s : State) (c : Nat) (f : Context → Context) : (s.modCtx c f).svc = s.svc := rfl
@[simp] theorem State.modCtx_jrn (s : State) (c : Nat) (f : Context → Context) : (s.modCtx c f).jrn = s.jrn := rfl
@[simp] theorem State.modCtx_pending (s : State) (c : Nat) (f : Context → Context) : (s.modCtx c f).pending = s.pending := rfl
@[simp] theorem State.modCtx_dec_de (s : State) (c : Nat) (f : Context → Context) : (s.modCtx c f).dec.de = s.dec.de := rfl
@[simp] theorem State.modCtx_ring (s : State) (c : Nat) (f : Context → Context) (r_ : Nat) : (s.modCtx c f).ring r_ = s.ring r_ := rfl
@[simp] theorem State.modCtx_cmdQ (s : State) (c : Nat) (f : Context → Context) (r_ : Nat) : (s.modCtx c f).cmdQ r_ = s.cmdQ r_ := rfl
@[simp] theorem State.modCtx_evtQ (s : State) (c : Nat) (f : Context → Context) (n_ : Nat) : (s.modCtx c f).evtQ n_ = s.evtQ n_ := rfl
@[simp] theorem State.modCtx_window (s : State) (c : Nat) (f : Context → Context) (w_ : Nat) : (s.modCtx c f).window w_ = s.window w_ := rfl
@[simp] theorem State.modCtx_chan (s : State) (c : Nat) (f : Context → Context) (c_ : Nat) : (s.modCtx c f).chan c_ = s.chan c_ := rfl
@[simp] theorem State.modCtx_engine (s : State) (c : Nat) (f : Context → Context) (e_ : Nat) : (s.modCtx c f).engine e_ = s.engine e_ := rfl
@[simp] theorem State.modCtx_port (s : State) (c : Nat) (f : Context → Context) (p_ : Nat) : (s.modCtx c f).port p_ = s.port p_ := rfl
@[simp] theorem State.modCtx_layer (s : State) (c : Nat) (f : Context → Context) (i_ : Nat) : (s.modCtx c f).layer i_ = s.layer i_ := rfl
@[simp] theorem State.modCtx_head (s : State) (c : Nat) (f : Context → Context) (h_ : Nat) : (s.modCtx c f).head h_ = s.head h_ := rfl
@[simp] theorem State.modCtx_dpPort (s : State) (c : Nat) (f : Context → Context) (p_ : Nat) : (s.modCtx c f).dpPort p_ = s.dpPort p_ := rfl
@[simp] theorem State.modCtx_plate (s : State) (c : Nat) (f : Context → Context) (h_ : Nat) : (s.modCtx c f).plate h_ = s.plate h_ := rfl
@[simp] theorem State.modCtx_session (s : State) (c : Nat) (f : Context → Context) (i_ : Nat) : (s.modCtx c f).session i_ = s.session i_ := rfl
@[simp] theorem State.modCtx_encoder (s : State) (c : Nat) (f : Context → Context) (e_ : Nat) : (s.modCtx c f).encoder e_ = s.encoder e_ := rfl
@[simp] theorem State.modCtx_island (s : State) (c : Nat) (f : Context → Context) (i_ : Nat) : (s.modCtx c f).island i_ = s.island i_ := rfl
@[simp] theorem State.modCtx_dram (s : State) (c : Nat) (f : Context → Context) (c_ : Nat) : (s.modCtx c f).dram c_ = s.dram c_ := rfl
@[simp] theorem State.modCtx_panel (s : State) (c : Nat) (f : Context → Context) (t_ : Nat) : (s.modCtx c f).panel t_ = s.panel t_ := rfl
@[simp] theorem State.modCtx_input (s : State) (c : Nat) (f : Context → Context) (i_ : Nat) : (s.modCtx c f).input i_ = s.input i_ := rfl
@[simp] theorem State.modCtx_output (s : State) (c : Nat) (f : Context → Context) (o_ : Nat) : (s.modCtx c f).output o_ = s.output o_ := rfl
@[simp] theorem State.modCtx_quad (s : State) (c : Nat) (f : Context → Context) (q_ : Nat) : (s.modCtx c f).quad q_ = s.quad q_ := rfl
@[simp] theorem State.modCtx_hostBox (s : State) (c : Nat) (f : Context → Context) (n_ : Nat) : (s.modCtx c f).hostBox n_ = s.hostBox n_ := rfl
@[simp] theorem State.modCtx_farBox (s : State) (c : Nat) (f : Context → Context) (m_ : Nat) : (s.modCtx c f).farBox m_ = s.farBox m_ := rfl
@[simp] theorem State.modCtx_member (s : State) (c : Nat) (f : Context → Context) (m_ : Nat) : (s.modCtx c f).member m_ = s.member m_ := rfl
@[simp] theorem State.modCtx_spineLink (s : State) (c : Nat) (f : Context → Context) (l_ : Nat) : (s.modCtx c f).spineLink l_ = s.spineLink l_ := rfl
@[simp] theorem State.modCtx_cvUnit (s : State) (c : Nat) (f : Context → Context) (u_ : Nat) : (s.modCtx c f).cvUnit u_ = s.cvUnit u_ := rfl
@[simp] theorem State.modCtx_zeEngine (s : State) (c : Nat) (f : Context → Context) (e_ : Nat) : (s.modCtx c f).zeEngine e_ = s.zeEngine e_ := rfl
@[simp] theorem State.modCtx_mapOf (s : State) (c : Nat) (f : Context → Context) (r_ : Nat) : (s.modCtx c f).mapOf r_ = s.mapOf r_ := rfl
@[simp] theorem State.modCtx_self (s : State) (c : Nat) (f : Context → Context) (hlt : c < s.dec.ctx.length) : (s.modCtx c f).ctx c = f (s.ctx c) :=
  getD_modify_self _ _ _ _ hlt
theorem State.modCtx_other (s : State) (c : Nat) (f : Context → Context) (j_ : Nat) (hne : c ≠ j_) : (s.modCtx c f).ctx j_ = s.ctx j_ :=
  getD_modify_other _ _ _ _ _ hne

@[simp] theorem State.modEngine_tb (s : State) (e : Nat) (f : Engine → Engine) : (s.modEngine e f).tb = s.tb := rfl
@[simp] theorem State.modEngine_top (s : State) (e : Nat) (f : Engine → Engine) : (s.modEngine e f).top = s.top := rfl
@[simp] theorem State.modEngine_host (s : State) (e : Nat) (f : Engine → Engine) : (s.modEngine e f).host = s.host := rfl
@[simp] theorem State.modEngine_net (s : State) (e : Nat) (f : Engine → Engine) : (s.modEngine e f).net = s.net := rfl
@[simp] theorem State.modEngine_comp (s : State) (e : Nat) (f : Engine → Engine) : (s.modEngine e f).comp = s.comp := rfl
@[simp] theorem State.modEngine_enc (s : State) (e : Nat) (f : Engine → Engine) : (s.modEngine e f).enc = s.enc := rfl
@[simp] theorem State.modEngine_fab (s : State) (e : Nat) (f : Engine → Engine) : (s.modEngine e f).fab = s.fab := rfl
@[simp] theorem State.modEngine_store (s : State) (e : Nat) (f : Engine → Engine) : (s.modEngine e f).store = s.store := rfl
@[simp] theorem State.modEngine_sec (s : State) (e : Nat) (f : Engine → Engine) : (s.modEngine e f).sec = s.sec := rfl
@[simp] theorem State.modEngine_mail (s : State) (e : Nat) (f : Engine → Engine) : (s.modEngine e f).mail = s.mail := rfl
@[simp] theorem State.modEngine_gath (s : State) (e : Nat) (f : Engine → Engine) : (s.modEngine e f).gath = s.gath := rfl
@[simp] theorem State.modEngine_twin (s : State) (e : Nat) (f : Engine → Engine) : (s.modEngine e f).twin = s.twin := rfl
@[simp] theorem State.modEngine_desk (s : State) (e : Nat) (f : Engine → Engine) : (s.modEngine e f).desk = s.desk := rfl
@[simp] theorem State.modEngine_pwr (s : State) (e : Nat) (f : Engine → Engine) : (s.modEngine e f).pwr = s.pwr := rfl
@[simp] theorem State.modEngine_lanes (s : State) (e : Nat) (f : Engine → Engine) : (s.modEngine e f).lanes = s.lanes := rfl
@[simp] theorem State.modEngine_flt (s : State) (e : Nat) (f : Engine → Engine) : (s.modEngine e f).flt = s.flt := rfl
@[simp] theorem State.modEngine_svc (s : State) (e : Nat) (f : Engine → Engine) : (s.modEngine e f).svc = s.svc := rfl
@[simp] theorem State.modEngine_jrn (s : State) (e : Nat) (f : Engine → Engine) : (s.modEngine e f).jrn = s.jrn := rfl
@[simp] theorem State.modEngine_pending (s : State) (e : Nat) (f : Engine → Engine) : (s.modEngine e f).pending = s.pending := rfl
@[simp] theorem State.modEngine_dec_ctx (s : State) (e : Nat) (f : Engine → Engine) : (s.modEngine e f).dec.ctx = s.dec.ctx := rfl
@[simp] theorem State.modEngine_ring (s : State) (e : Nat) (f : Engine → Engine) (r_ : Nat) : (s.modEngine e f).ring r_ = s.ring r_ := rfl
@[simp] theorem State.modEngine_cmdQ (s : State) (e : Nat) (f : Engine → Engine) (r_ : Nat) : (s.modEngine e f).cmdQ r_ = s.cmdQ r_ := rfl
@[simp] theorem State.modEngine_evtQ (s : State) (e : Nat) (f : Engine → Engine) (n_ : Nat) : (s.modEngine e f).evtQ n_ = s.evtQ n_ := rfl
@[simp] theorem State.modEngine_window (s : State) (e : Nat) (f : Engine → Engine) (w_ : Nat) : (s.modEngine e f).window w_ = s.window w_ := rfl
@[simp] theorem State.modEngine_chan (s : State) (e : Nat) (f : Engine → Engine) (c_ : Nat) : (s.modEngine e f).chan c_ = s.chan c_ := rfl
@[simp] theorem State.modEngine_ctx (s : State) (e : Nat) (f : Engine → Engine) (c_ : Nat) : (s.modEngine e f).ctx c_ = s.ctx c_ := rfl
@[simp] theorem State.modEngine_port (s : State) (e : Nat) (f : Engine → Engine) (p_ : Nat) : (s.modEngine e f).port p_ = s.port p_ := rfl
@[simp] theorem State.modEngine_layer (s : State) (e : Nat) (f : Engine → Engine) (i_ : Nat) : (s.modEngine e f).layer i_ = s.layer i_ := rfl
@[simp] theorem State.modEngine_head (s : State) (e : Nat) (f : Engine → Engine) (h_ : Nat) : (s.modEngine e f).head h_ = s.head h_ := rfl
@[simp] theorem State.modEngine_dpPort (s : State) (e : Nat) (f : Engine → Engine) (p_ : Nat) : (s.modEngine e f).dpPort p_ = s.dpPort p_ := rfl
@[simp] theorem State.modEngine_plate (s : State) (e : Nat) (f : Engine → Engine) (h_ : Nat) : (s.modEngine e f).plate h_ = s.plate h_ := rfl
@[simp] theorem State.modEngine_session (s : State) (e : Nat) (f : Engine → Engine) (i_ : Nat) : (s.modEngine e f).session i_ = s.session i_ := rfl
@[simp] theorem State.modEngine_encoder (s : State) (e : Nat) (f : Engine → Engine) (e_ : Nat) : (s.modEngine e f).encoder e_ = s.encoder e_ := rfl
@[simp] theorem State.modEngine_island (s : State) (e : Nat) (f : Engine → Engine) (i_ : Nat) : (s.modEngine e f).island i_ = s.island i_ := rfl
@[simp] theorem State.modEngine_dram (s : State) (e : Nat) (f : Engine → Engine) (c_ : Nat) : (s.modEngine e f).dram c_ = s.dram c_ := rfl
@[simp] theorem State.modEngine_panel (s : State) (e : Nat) (f : Engine → Engine) (t_ : Nat) : (s.modEngine e f).panel t_ = s.panel t_ := rfl
@[simp] theorem State.modEngine_input (s : State) (e : Nat) (f : Engine → Engine) (i_ : Nat) : (s.modEngine e f).input i_ = s.input i_ := rfl
@[simp] theorem State.modEngine_output (s : State) (e : Nat) (f : Engine → Engine) (o_ : Nat) : (s.modEngine e f).output o_ = s.output o_ := rfl
@[simp] theorem State.modEngine_quad (s : State) (e : Nat) (f : Engine → Engine) (q_ : Nat) : (s.modEngine e f).quad q_ = s.quad q_ := rfl
@[simp] theorem State.modEngine_hostBox (s : State) (e : Nat) (f : Engine → Engine) (n_ : Nat) : (s.modEngine e f).hostBox n_ = s.hostBox n_ := rfl
@[simp] theorem State.modEngine_farBox (s : State) (e : Nat) (f : Engine → Engine) (m_ : Nat) : (s.modEngine e f).farBox m_ = s.farBox m_ := rfl
@[simp] theorem State.modEngine_member (s : State) (e : Nat) (f : Engine → Engine) (m_ : Nat) : (s.modEngine e f).member m_ = s.member m_ := rfl
@[simp] theorem State.modEngine_spineLink (s : State) (e : Nat) (f : Engine → Engine) (l_ : Nat) : (s.modEngine e f).spineLink l_ = s.spineLink l_ := rfl
@[simp] theorem State.modEngine_cvUnit (s : State) (e : Nat) (f : Engine → Engine) (u_ : Nat) : (s.modEngine e f).cvUnit u_ = s.cvUnit u_ := rfl
@[simp] theorem State.modEngine_zeEngine (s : State) (e : Nat) (f : Engine → Engine) (e_ : Nat) : (s.modEngine e f).zeEngine e_ = s.zeEngine e_ := rfl
@[simp] theorem State.modEngine_mapOf (s : State) (e : Nat) (f : Engine → Engine) (r_ : Nat) : (s.modEngine e f).mapOf r_ = s.mapOf r_ := rfl
@[simp] theorem State.modEngine_self (s : State) (e : Nat) (f : Engine → Engine) (hlt : e < s.dec.de.length) : (s.modEngine e f).engine e = f (s.engine e) :=
  getD_modify_self _ _ _ _ hlt
theorem State.modEngine_other (s : State) (e : Nat) (f : Engine → Engine) (j_ : Nat) (hne : e ≠ j_) : (s.modEngine e f).engine j_ = s.engine j_ :=
  getD_modify_other _ _ _ _ _ hne

@[simp] theorem State.modPort_tb (s : State) (p : Nat) (f : NetPort → NetPort) : (s.modPort p f).tb = s.tb := rfl
@[simp] theorem State.modPort_top (s : State) (p : Nat) (f : NetPort → NetPort) : (s.modPort p f).top = s.top := rfl
@[simp] theorem State.modPort_host (s : State) (p : Nat) (f : NetPort → NetPort) : (s.modPort p f).host = s.host := rfl
@[simp] theorem State.modPort_dec (s : State) (p : Nat) (f : NetPort → NetPort) : (s.modPort p f).dec = s.dec := rfl
@[simp] theorem State.modPort_comp (s : State) (p : Nat) (f : NetPort → NetPort) : (s.modPort p f).comp = s.comp := rfl
@[simp] theorem State.modPort_enc (s : State) (p : Nat) (f : NetPort → NetPort) : (s.modPort p f).enc = s.enc := rfl
@[simp] theorem State.modPort_fab (s : State) (p : Nat) (f : NetPort → NetPort) : (s.modPort p f).fab = s.fab := rfl
@[simp] theorem State.modPort_store (s : State) (p : Nat) (f : NetPort → NetPort) : (s.modPort p f).store = s.store := rfl
@[simp] theorem State.modPort_sec (s : State) (p : Nat) (f : NetPort → NetPort) : (s.modPort p f).sec = s.sec := rfl
@[simp] theorem State.modPort_mail (s : State) (p : Nat) (f : NetPort → NetPort) : (s.modPort p f).mail = s.mail := rfl
@[simp] theorem State.modPort_gath (s : State) (p : Nat) (f : NetPort → NetPort) : (s.modPort p f).gath = s.gath := rfl
@[simp] theorem State.modPort_twin (s : State) (p : Nat) (f : NetPort → NetPort) : (s.modPort p f).twin = s.twin := rfl
@[simp] theorem State.modPort_desk (s : State) (p : Nat) (f : NetPort → NetPort) : (s.modPort p f).desk = s.desk := rfl
@[simp] theorem State.modPort_pwr (s : State) (p : Nat) (f : NetPort → NetPort) : (s.modPort p f).pwr = s.pwr := rfl
@[simp] theorem State.modPort_lanes (s : State) (p : Nat) (f : NetPort → NetPort) : (s.modPort p f).lanes = s.lanes := rfl
@[simp] theorem State.modPort_flt (s : State) (p : Nat) (f : NetPort → NetPort) : (s.modPort p f).flt = s.flt := rfl
@[simp] theorem State.modPort_svc (s : State) (p : Nat) (f : NetPort → NetPort) : (s.modPort p f).svc = s.svc := rfl
@[simp] theorem State.modPort_jrn (s : State) (p : Nat) (f : NetPort → NetPort) : (s.modPort p f).jrn = s.jrn := rfl
@[simp] theorem State.modPort_pending (s : State) (p : Nat) (f : NetPort → NetPort) : (s.modPort p f).pending = s.pending := rfl
@[simp] theorem State.modPort_net_sent (s : State) (p : Nat) (f : NetPort → NetPort) : (s.modPort p f).net.sent = s.net.sent := rfl
@[simp] theorem State.modPort_ring (s : State) (p : Nat) (f : NetPort → NetPort) (r_ : Nat) : (s.modPort p f).ring r_ = s.ring r_ := rfl
@[simp] theorem State.modPort_cmdQ (s : State) (p : Nat) (f : NetPort → NetPort) (r_ : Nat) : (s.modPort p f).cmdQ r_ = s.cmdQ r_ := rfl
@[simp] theorem State.modPort_evtQ (s : State) (p : Nat) (f : NetPort → NetPort) (n_ : Nat) : (s.modPort p f).evtQ n_ = s.evtQ n_ := rfl
@[simp] theorem State.modPort_window (s : State) (p : Nat) (f : NetPort → NetPort) (w_ : Nat) : (s.modPort p f).window w_ = s.window w_ := rfl
@[simp] theorem State.modPort_chan (s : State) (p : Nat) (f : NetPort → NetPort) (c_ : Nat) : (s.modPort p f).chan c_ = s.chan c_ := rfl
@[simp] theorem State.modPort_ctx (s : State) (p : Nat) (f : NetPort → NetPort) (c_ : Nat) : (s.modPort p f).ctx c_ = s.ctx c_ := rfl
@[simp] theorem State.modPort_engine (s : State) (p : Nat) (f : NetPort → NetPort) (e_ : Nat) : (s.modPort p f).engine e_ = s.engine e_ := rfl
@[simp] theorem State.modPort_layer (s : State) (p : Nat) (f : NetPort → NetPort) (i_ : Nat) : (s.modPort p f).layer i_ = s.layer i_ := rfl
@[simp] theorem State.modPort_head (s : State) (p : Nat) (f : NetPort → NetPort) (h_ : Nat) : (s.modPort p f).head h_ = s.head h_ := rfl
@[simp] theorem State.modPort_dpPort (s : State) (p : Nat) (f : NetPort → NetPort) (p_ : Nat) : (s.modPort p f).dpPort p_ = s.dpPort p_ := rfl
@[simp] theorem State.modPort_plate (s : State) (p : Nat) (f : NetPort → NetPort) (h_ : Nat) : (s.modPort p f).plate h_ = s.plate h_ := rfl
@[simp] theorem State.modPort_session (s : State) (p : Nat) (f : NetPort → NetPort) (i_ : Nat) : (s.modPort p f).session i_ = s.session i_ := rfl
@[simp] theorem State.modPort_encoder (s : State) (p : Nat) (f : NetPort → NetPort) (e_ : Nat) : (s.modPort p f).encoder e_ = s.encoder e_ := rfl
@[simp] theorem State.modPort_island (s : State) (p : Nat) (f : NetPort → NetPort) (i_ : Nat) : (s.modPort p f).island i_ = s.island i_ := rfl
@[simp] theorem State.modPort_dram (s : State) (p : Nat) (f : NetPort → NetPort) (c_ : Nat) : (s.modPort p f).dram c_ = s.dram c_ := rfl
@[simp] theorem State.modPort_panel (s : State) (p : Nat) (f : NetPort → NetPort) (t_ : Nat) : (s.modPort p f).panel t_ = s.panel t_ := rfl
@[simp] theorem State.modPort_input (s : State) (p : Nat) (f : NetPort → NetPort) (i_ : Nat) : (s.modPort p f).input i_ = s.input i_ := rfl
@[simp] theorem State.modPort_output (s : State) (p : Nat) (f : NetPort → NetPort) (o_ : Nat) : (s.modPort p f).output o_ = s.output o_ := rfl
@[simp] theorem State.modPort_quad (s : State) (p : Nat) (f : NetPort → NetPort) (q_ : Nat) : (s.modPort p f).quad q_ = s.quad q_ := rfl
@[simp] theorem State.modPort_hostBox (s : State) (p : Nat) (f : NetPort → NetPort) (n_ : Nat) : (s.modPort p f).hostBox n_ = s.hostBox n_ := rfl
@[simp] theorem State.modPort_farBox (s : State) (p : Nat) (f : NetPort → NetPort) (m_ : Nat) : (s.modPort p f).farBox m_ = s.farBox m_ := rfl
@[simp] theorem State.modPort_member (s : State) (p : Nat) (f : NetPort → NetPort) (m_ : Nat) : (s.modPort p f).member m_ = s.member m_ := rfl
@[simp] theorem State.modPort_spineLink (s : State) (p : Nat) (f : NetPort → NetPort) (l_ : Nat) : (s.modPort p f).spineLink l_ = s.spineLink l_ := rfl
@[simp] theorem State.modPort_cvUnit (s : State) (p : Nat) (f : NetPort → NetPort) (u_ : Nat) : (s.modPort p f).cvUnit u_ = s.cvUnit u_ := rfl
@[simp] theorem State.modPort_zeEngine (s : State) (p : Nat) (f : NetPort → NetPort) (e_ : Nat) : (s.modPort p f).zeEngine e_ = s.zeEngine e_ := rfl
@[simp] theorem State.modPort_mapOf (s : State) (p : Nat) (f : NetPort → NetPort) (r_ : Nat) : (s.modPort p f).mapOf r_ = s.mapOf r_ := rfl
@[simp] theorem State.modPort_self (s : State) (p : Nat) (f : NetPort → NetPort) (hlt : p < s.net.ports.length) : (s.modPort p f).port p = f (s.port p) :=
  getD_modify_self _ _ _ _ hlt
theorem State.modPort_other (s : State) (p : Nat) (f : NetPort → NetPort) (j_ : Nat) (hne : p ≠ j_) : (s.modPort p f).port j_ = s.port j_ :=
  getD_modify_other _ _ _ _ _ hne

@[simp] theorem State.modLayer_tb (s : State) (i : Nat) (f : Layer → Layer) : (s.modLayer i f).tb = s.tb := rfl
@[simp] theorem State.modLayer_top (s : State) (i : Nat) (f : Layer → Layer) : (s.modLayer i f).top = s.top := rfl
@[simp] theorem State.modLayer_host (s : State) (i : Nat) (f : Layer → Layer) : (s.modLayer i f).host = s.host := rfl
@[simp] theorem State.modLayer_net (s : State) (i : Nat) (f : Layer → Layer) : (s.modLayer i f).net = s.net := rfl
@[simp] theorem State.modLayer_dec (s : State) (i : Nat) (f : Layer → Layer) : (s.modLayer i f).dec = s.dec := rfl
@[simp] theorem State.modLayer_enc (s : State) (i : Nat) (f : Layer → Layer) : (s.modLayer i f).enc = s.enc := rfl
@[simp] theorem State.modLayer_fab (s : State) (i : Nat) (f : Layer → Layer) : (s.modLayer i f).fab = s.fab := rfl
@[simp] theorem State.modLayer_store (s : State) (i : Nat) (f : Layer → Layer) : (s.modLayer i f).store = s.store := rfl
@[simp] theorem State.modLayer_sec (s : State) (i : Nat) (f : Layer → Layer) : (s.modLayer i f).sec = s.sec := rfl
@[simp] theorem State.modLayer_mail (s : State) (i : Nat) (f : Layer → Layer) : (s.modLayer i f).mail = s.mail := rfl
@[simp] theorem State.modLayer_gath (s : State) (i : Nat) (f : Layer → Layer) : (s.modLayer i f).gath = s.gath := rfl
@[simp] theorem State.modLayer_twin (s : State) (i : Nat) (f : Layer → Layer) : (s.modLayer i f).twin = s.twin := rfl
@[simp] theorem State.modLayer_desk (s : State) (i : Nat) (f : Layer → Layer) : (s.modLayer i f).desk = s.desk := rfl
@[simp] theorem State.modLayer_pwr (s : State) (i : Nat) (f : Layer → Layer) : (s.modLayer i f).pwr = s.pwr := rfl
@[simp] theorem State.modLayer_lanes (s : State) (i : Nat) (f : Layer → Layer) : (s.modLayer i f).lanes = s.lanes := rfl
@[simp] theorem State.modLayer_flt (s : State) (i : Nat) (f : Layer → Layer) : (s.modLayer i f).flt = s.flt := rfl
@[simp] theorem State.modLayer_svc (s : State) (i : Nat) (f : Layer → Layer) : (s.modLayer i f).svc = s.svc := rfl
@[simp] theorem State.modLayer_jrn (s : State) (i : Nat) (f : Layer → Layer) : (s.modLayer i f).jrn = s.jrn := rfl
@[simp] theorem State.modLayer_pending (s : State) (i : Nat) (f : Layer → Layer) : (s.modLayer i f).pending = s.pending := rfl
@[simp] theorem State.modLayer_comp_pend (s : State) (i : Nat) (f : Layer → Layer) : (s.modLayer i f).comp.pend = s.comp.pend := rfl
@[simp] theorem State.modLayer_comp_matrix (s : State) (i : Nat) (f : Layer → Layer) : (s.modLayer i f).comp.matrix = s.comp.matrix := rfl
@[simp] theorem State.modLayer_comp_bank (s : State) (i : Nat) (f : Layer → Layer) : (s.modLayer i f).comp.bank = s.comp.bank := rfl
@[simp] theorem State.modLayer_comp_head (s : State) (i : Nat) (f : Layer → Layer) : (s.modLayer i f).comp.head = s.comp.head := rfl
@[simp] theorem State.modLayer_comp_port (s : State) (i : Nat) (f : Layer → Layer) : (s.modLayer i f).comp.port = s.comp.port := rfl
@[simp] theorem State.modLayer_comp_plate (s : State) (i : Nat) (f : Layer → Layer) : (s.modLayer i f).comp.plate = s.comp.plate := rfl
@[simp] theorem State.modLayer_comp_plateRead (s : State) (i : Nat) (f : Layer → Layer) : (s.modLayer i f).comp.plateRead = s.comp.plateRead := rfl
@[simp] theorem State.modLayer_comp_nonce (s : State) (i : Nat) (f : Layer → Layer) : (s.modLayer i f).comp.nonce = s.comp.nonce := rfl
@[simp] theorem State.modLayer_comp_pendNo (s : State) (i : Nat) (f : Layer → Layer) : (s.modLayer i f).comp.pendNo = s.comp.pendNo := rfl
@[simp] theorem State.modLayer_ring (s : State) (i : Nat) (f : Layer → Layer) (r_ : Nat) : (s.modLayer i f).ring r_ = s.ring r_ := rfl
@[simp] theorem State.modLayer_cmdQ (s : State) (i : Nat) (f : Layer → Layer) (r_ : Nat) : (s.modLayer i f).cmdQ r_ = s.cmdQ r_ := rfl
@[simp] theorem State.modLayer_evtQ (s : State) (i : Nat) (f : Layer → Layer) (n_ : Nat) : (s.modLayer i f).evtQ n_ = s.evtQ n_ := rfl
@[simp] theorem State.modLayer_window (s : State) (i : Nat) (f : Layer → Layer) (w_ : Nat) : (s.modLayer i f).window w_ = s.window w_ := rfl
@[simp] theorem State.modLayer_chan (s : State) (i : Nat) (f : Layer → Layer) (c_ : Nat) : (s.modLayer i f).chan c_ = s.chan c_ := rfl
@[simp] theorem State.modLayer_ctx (s : State) (i : Nat) (f : Layer → Layer) (c_ : Nat) : (s.modLayer i f).ctx c_ = s.ctx c_ := rfl
@[simp] theorem State.modLayer_engine (s : State) (i : Nat) (f : Layer → Layer) (e_ : Nat) : (s.modLayer i f).engine e_ = s.engine e_ := rfl
@[simp] theorem State.modLayer_port (s : State) (i : Nat) (f : Layer → Layer) (p_ : Nat) : (s.modLayer i f).port p_ = s.port p_ := rfl
@[simp] theorem State.modLayer_head (s : State) (i : Nat) (f : Layer → Layer) (h_ : Nat) : (s.modLayer i f).head h_ = s.head h_ := rfl
@[simp] theorem State.modLayer_dpPort (s : State) (i : Nat) (f : Layer → Layer) (p_ : Nat) : (s.modLayer i f).dpPort p_ = s.dpPort p_ := rfl
@[simp] theorem State.modLayer_plate (s : State) (i : Nat) (f : Layer → Layer) (h_ : Nat) : (s.modLayer i f).plate h_ = s.plate h_ := rfl
@[simp] theorem State.modLayer_session (s : State) (i : Nat) (f : Layer → Layer) (i_ : Nat) : (s.modLayer i f).session i_ = s.session i_ := rfl
@[simp] theorem State.modLayer_encoder (s : State) (i : Nat) (f : Layer → Layer) (e_ : Nat) : (s.modLayer i f).encoder e_ = s.encoder e_ := rfl
@[simp] theorem State.modLayer_island (s : State) (i : Nat) (f : Layer → Layer) (i_ : Nat) : (s.modLayer i f).island i_ = s.island i_ := rfl
@[simp] theorem State.modLayer_dram (s : State) (i : Nat) (f : Layer → Layer) (c_ : Nat) : (s.modLayer i f).dram c_ = s.dram c_ := rfl
@[simp] theorem State.modLayer_panel (s : State) (i : Nat) (f : Layer → Layer) (t_ : Nat) : (s.modLayer i f).panel t_ = s.panel t_ := rfl
@[simp] theorem State.modLayer_input (s : State) (i : Nat) (f : Layer → Layer) (i_ : Nat) : (s.modLayer i f).input i_ = s.input i_ := rfl
@[simp] theorem State.modLayer_output (s : State) (i : Nat) (f : Layer → Layer) (o_ : Nat) : (s.modLayer i f).output o_ = s.output o_ := rfl
@[simp] theorem State.modLayer_quad (s : State) (i : Nat) (f : Layer → Layer) (q_ : Nat) : (s.modLayer i f).quad q_ = s.quad q_ := rfl
@[simp] theorem State.modLayer_hostBox (s : State) (i : Nat) (f : Layer → Layer) (n_ : Nat) : (s.modLayer i f).hostBox n_ = s.hostBox n_ := rfl
@[simp] theorem State.modLayer_farBox (s : State) (i : Nat) (f : Layer → Layer) (m_ : Nat) : (s.modLayer i f).farBox m_ = s.farBox m_ := rfl
@[simp] theorem State.modLayer_member (s : State) (i : Nat) (f : Layer → Layer) (m_ : Nat) : (s.modLayer i f).member m_ = s.member m_ := rfl
@[simp] theorem State.modLayer_spineLink (s : State) (i : Nat) (f : Layer → Layer) (l_ : Nat) : (s.modLayer i f).spineLink l_ = s.spineLink l_ := rfl
@[simp] theorem State.modLayer_cvUnit (s : State) (i : Nat) (f : Layer → Layer) (u_ : Nat) : (s.modLayer i f).cvUnit u_ = s.cvUnit u_ := rfl
@[simp] theorem State.modLayer_zeEngine (s : State) (i : Nat) (f : Layer → Layer) (e_ : Nat) : (s.modLayer i f).zeEngine e_ = s.zeEngine e_ := rfl
@[simp] theorem State.modLayer_mapOf (s : State) (i : Nat) (f : Layer → Layer) (r_ : Nat) : (s.modLayer i f).mapOf r_ = s.mapOf r_ := rfl
@[simp] theorem State.modLayer_self (s : State) (i : Nat) (f : Layer → Layer) (hlt : i < s.comp.layer.length) : (s.modLayer i f).layer i = f (s.layer i) :=
  getD_modify_self _ _ _ _ hlt
theorem State.modLayer_other (s : State) (i : Nat) (f : Layer → Layer) (j_ : Nat) (hne : i ≠ j_) : (s.modLayer i f).layer j_ = s.layer j_ :=
  getD_modify_other _ _ _ _ _ hne

@[simp] theorem State.modHead_tb (s : State) (h : Nat) (f : Head → Head) : (s.modHead h f).tb = s.tb := rfl
@[simp] theorem State.modHead_top (s : State) (h : Nat) (f : Head → Head) : (s.modHead h f).top = s.top := rfl
@[simp] theorem State.modHead_host (s : State) (h : Nat) (f : Head → Head) : (s.modHead h f).host = s.host := rfl
@[simp] theorem State.modHead_net (s : State) (h : Nat) (f : Head → Head) : (s.modHead h f).net = s.net := rfl
@[simp] theorem State.modHead_dec (s : State) (h : Nat) (f : Head → Head) : (s.modHead h f).dec = s.dec := rfl
@[simp] theorem State.modHead_enc (s : State) (h : Nat) (f : Head → Head) : (s.modHead h f).enc = s.enc := rfl
@[simp] theorem State.modHead_fab (s : State) (h : Nat) (f : Head → Head) : (s.modHead h f).fab = s.fab := rfl
@[simp] theorem State.modHead_store (s : State) (h : Nat) (f : Head → Head) : (s.modHead h f).store = s.store := rfl
@[simp] theorem State.modHead_sec (s : State) (h : Nat) (f : Head → Head) : (s.modHead h f).sec = s.sec := rfl
@[simp] theorem State.modHead_mail (s : State) (h : Nat) (f : Head → Head) : (s.modHead h f).mail = s.mail := rfl
@[simp] theorem State.modHead_gath (s : State) (h : Nat) (f : Head → Head) : (s.modHead h f).gath = s.gath := rfl
@[simp] theorem State.modHead_twin (s : State) (h : Nat) (f : Head → Head) : (s.modHead h f).twin = s.twin := rfl
@[simp] theorem State.modHead_desk (s : State) (h : Nat) (f : Head → Head) : (s.modHead h f).desk = s.desk := rfl
@[simp] theorem State.modHead_pwr (s : State) (h : Nat) (f : Head → Head) : (s.modHead h f).pwr = s.pwr := rfl
@[simp] theorem State.modHead_lanes (s : State) (h : Nat) (f : Head → Head) : (s.modHead h f).lanes = s.lanes := rfl
@[simp] theorem State.modHead_flt (s : State) (h : Nat) (f : Head → Head) : (s.modHead h f).flt = s.flt := rfl
@[simp] theorem State.modHead_svc (s : State) (h : Nat) (f : Head → Head) : (s.modHead h f).svc = s.svc := rfl
@[simp] theorem State.modHead_jrn (s : State) (h : Nat) (f : Head → Head) : (s.modHead h f).jrn = s.jrn := rfl
@[simp] theorem State.modHead_pending (s : State) (h : Nat) (f : Head → Head) : (s.modHead h f).pending = s.pending := rfl
@[simp] theorem State.modHead_comp_layer (s : State) (h : Nat) (f : Head → Head) : (s.modHead h f).comp.layer = s.comp.layer := rfl
@[simp] theorem State.modHead_comp_pend (s : State) (h : Nat) (f : Head → Head) : (s.modHead h f).comp.pend = s.comp.pend := rfl
@[simp] theorem State.modHead_comp_matrix (s : State) (h : Nat) (f : Head → Head) : (s.modHead h f).comp.matrix = s.comp.matrix := rfl
@[simp] theorem State.modHead_comp_bank (s : State) (h : Nat) (f : Head → Head) : (s.modHead h f).comp.bank = s.comp.bank := rfl
@[simp] theorem State.modHead_comp_port (s : State) (h : Nat) (f : Head → Head) : (s.modHead h f).comp.port = s.comp.port := rfl
@[simp] theorem State.modHead_comp_plate (s : State) (h : Nat) (f : Head → Head) : (s.modHead h f).comp.plate = s.comp.plate := rfl
@[simp] theorem State.modHead_comp_plateRead (s : State) (h : Nat) (f : Head → Head) : (s.modHead h f).comp.plateRead = s.comp.plateRead := rfl
@[simp] theorem State.modHead_comp_nonce (s : State) (h : Nat) (f : Head → Head) : (s.modHead h f).comp.nonce = s.comp.nonce := rfl
@[simp] theorem State.modHead_comp_pendNo (s : State) (h : Nat) (f : Head → Head) : (s.modHead h f).comp.pendNo = s.comp.pendNo := rfl
@[simp] theorem State.modHead_ring (s : State) (h : Nat) (f : Head → Head) (r_ : Nat) : (s.modHead h f).ring r_ = s.ring r_ := rfl
@[simp] theorem State.modHead_cmdQ (s : State) (h : Nat) (f : Head → Head) (r_ : Nat) : (s.modHead h f).cmdQ r_ = s.cmdQ r_ := rfl
@[simp] theorem State.modHead_evtQ (s : State) (h : Nat) (f : Head → Head) (n_ : Nat) : (s.modHead h f).evtQ n_ = s.evtQ n_ := rfl
@[simp] theorem State.modHead_window (s : State) (h : Nat) (f : Head → Head) (w_ : Nat) : (s.modHead h f).window w_ = s.window w_ := rfl
@[simp] theorem State.modHead_chan (s : State) (h : Nat) (f : Head → Head) (c_ : Nat) : (s.modHead h f).chan c_ = s.chan c_ := rfl
@[simp] theorem State.modHead_ctx (s : State) (h : Nat) (f : Head → Head) (c_ : Nat) : (s.modHead h f).ctx c_ = s.ctx c_ := rfl
@[simp] theorem State.modHead_engine (s : State) (h : Nat) (f : Head → Head) (e_ : Nat) : (s.modHead h f).engine e_ = s.engine e_ := rfl
@[simp] theorem State.modHead_port (s : State) (h : Nat) (f : Head → Head) (p_ : Nat) : (s.modHead h f).port p_ = s.port p_ := rfl
@[simp] theorem State.modHead_layer (s : State) (h : Nat) (f : Head → Head) (i_ : Nat) : (s.modHead h f).layer i_ = s.layer i_ := rfl
@[simp] theorem State.modHead_dpPort (s : State) (h : Nat) (f : Head → Head) (p_ : Nat) : (s.modHead h f).dpPort p_ = s.dpPort p_ := rfl
@[simp] theorem State.modHead_plate (s : State) (h : Nat) (f : Head → Head) (h_ : Nat) : (s.modHead h f).plate h_ = s.plate h_ := rfl
@[simp] theorem State.modHead_session (s : State) (h : Nat) (f : Head → Head) (i_ : Nat) : (s.modHead h f).session i_ = s.session i_ := rfl
@[simp] theorem State.modHead_encoder (s : State) (h : Nat) (f : Head → Head) (e_ : Nat) : (s.modHead h f).encoder e_ = s.encoder e_ := rfl
@[simp] theorem State.modHead_island (s : State) (h : Nat) (f : Head → Head) (i_ : Nat) : (s.modHead h f).island i_ = s.island i_ := rfl
@[simp] theorem State.modHead_dram (s : State) (h : Nat) (f : Head → Head) (c_ : Nat) : (s.modHead h f).dram c_ = s.dram c_ := rfl
@[simp] theorem State.modHead_panel (s : State) (h : Nat) (f : Head → Head) (t_ : Nat) : (s.modHead h f).panel t_ = s.panel t_ := rfl
@[simp] theorem State.modHead_input (s : State) (h : Nat) (f : Head → Head) (i_ : Nat) : (s.modHead h f).input i_ = s.input i_ := rfl
@[simp] theorem State.modHead_output (s : State) (h : Nat) (f : Head → Head) (o_ : Nat) : (s.modHead h f).output o_ = s.output o_ := rfl
@[simp] theorem State.modHead_quad (s : State) (h : Nat) (f : Head → Head) (q_ : Nat) : (s.modHead h f).quad q_ = s.quad q_ := rfl
@[simp] theorem State.modHead_hostBox (s : State) (h : Nat) (f : Head → Head) (n_ : Nat) : (s.modHead h f).hostBox n_ = s.hostBox n_ := rfl
@[simp] theorem State.modHead_farBox (s : State) (h : Nat) (f : Head → Head) (m_ : Nat) : (s.modHead h f).farBox m_ = s.farBox m_ := rfl
@[simp] theorem State.modHead_member (s : State) (h : Nat) (f : Head → Head) (m_ : Nat) : (s.modHead h f).member m_ = s.member m_ := rfl
@[simp] theorem State.modHead_spineLink (s : State) (h : Nat) (f : Head → Head) (l_ : Nat) : (s.modHead h f).spineLink l_ = s.spineLink l_ := rfl
@[simp] theorem State.modHead_cvUnit (s : State) (h : Nat) (f : Head → Head) (u_ : Nat) : (s.modHead h f).cvUnit u_ = s.cvUnit u_ := rfl
@[simp] theorem State.modHead_zeEngine (s : State) (h : Nat) (f : Head → Head) (e_ : Nat) : (s.modHead h f).zeEngine e_ = s.zeEngine e_ := rfl
@[simp] theorem State.modHead_mapOf (s : State) (h : Nat) (f : Head → Head) (r_ : Nat) : (s.modHead h f).mapOf r_ = s.mapOf r_ := rfl
@[simp] theorem State.modHead_self (s : State) (h : Nat) (f : Head → Head) (hlt : h < s.comp.head.length) : (s.modHead h f).head h = f (s.head h) :=
  getD_modify_self _ _ _ _ hlt
theorem State.modHead_other (s : State) (h : Nat) (f : Head → Head) (j_ : Nat) (hne : h ≠ j_) : (s.modHead h f).head j_ = s.head j_ :=
  getD_modify_other _ _ _ _ _ hne

@[simp] theorem State.modDpPort_tb (s : State) (p : Nat) (f : Port → Port) : (s.modDpPort p f).tb = s.tb := rfl
@[simp] theorem State.modDpPort_top (s : State) (p : Nat) (f : Port → Port) : (s.modDpPort p f).top = s.top := rfl
@[simp] theorem State.modDpPort_host (s : State) (p : Nat) (f : Port → Port) : (s.modDpPort p f).host = s.host := rfl
@[simp] theorem State.modDpPort_net (s : State) (p : Nat) (f : Port → Port) : (s.modDpPort p f).net = s.net := rfl
@[simp] theorem State.modDpPort_dec (s : State) (p : Nat) (f : Port → Port) : (s.modDpPort p f).dec = s.dec := rfl
@[simp] theorem State.modDpPort_enc (s : State) (p : Nat) (f : Port → Port) : (s.modDpPort p f).enc = s.enc := rfl
@[simp] theorem State.modDpPort_fab (s : State) (p : Nat) (f : Port → Port) : (s.modDpPort p f).fab = s.fab := rfl
@[simp] theorem State.modDpPort_store (s : State) (p : Nat) (f : Port → Port) : (s.modDpPort p f).store = s.store := rfl
@[simp] theorem State.modDpPort_sec (s : State) (p : Nat) (f : Port → Port) : (s.modDpPort p f).sec = s.sec := rfl
@[simp] theorem State.modDpPort_mail (s : State) (p : Nat) (f : Port → Port) : (s.modDpPort p f).mail = s.mail := rfl
@[simp] theorem State.modDpPort_gath (s : State) (p : Nat) (f : Port → Port) : (s.modDpPort p f).gath = s.gath := rfl
@[simp] theorem State.modDpPort_twin (s : State) (p : Nat) (f : Port → Port) : (s.modDpPort p f).twin = s.twin := rfl
@[simp] theorem State.modDpPort_desk (s : State) (p : Nat) (f : Port → Port) : (s.modDpPort p f).desk = s.desk := rfl
@[simp] theorem State.modDpPort_pwr (s : State) (p : Nat) (f : Port → Port) : (s.modDpPort p f).pwr = s.pwr := rfl
@[simp] theorem State.modDpPort_lanes (s : State) (p : Nat) (f : Port → Port) : (s.modDpPort p f).lanes = s.lanes := rfl
@[simp] theorem State.modDpPort_flt (s : State) (p : Nat) (f : Port → Port) : (s.modDpPort p f).flt = s.flt := rfl
@[simp] theorem State.modDpPort_svc (s : State) (p : Nat) (f : Port → Port) : (s.modDpPort p f).svc = s.svc := rfl
@[simp] theorem State.modDpPort_jrn (s : State) (p : Nat) (f : Port → Port) : (s.modDpPort p f).jrn = s.jrn := rfl
@[simp] theorem State.modDpPort_pending (s : State) (p : Nat) (f : Port → Port) : (s.modDpPort p f).pending = s.pending := rfl
@[simp] theorem State.modDpPort_comp_layer (s : State) (p : Nat) (f : Port → Port) : (s.modDpPort p f).comp.layer = s.comp.layer := rfl
@[simp] theorem State.modDpPort_comp_pend (s : State) (p : Nat) (f : Port → Port) : (s.modDpPort p f).comp.pend = s.comp.pend := rfl
@[simp] theorem State.modDpPort_comp_matrix (s : State) (p : Nat) (f : Port → Port) : (s.modDpPort p f).comp.matrix = s.comp.matrix := rfl
@[simp] theorem State.modDpPort_comp_bank (s : State) (p : Nat) (f : Port → Port) : (s.modDpPort p f).comp.bank = s.comp.bank := rfl
@[simp] theorem State.modDpPort_comp_head (s : State) (p : Nat) (f : Port → Port) : (s.modDpPort p f).comp.head = s.comp.head := rfl
@[simp] theorem State.modDpPort_comp_plate (s : State) (p : Nat) (f : Port → Port) : (s.modDpPort p f).comp.plate = s.comp.plate := rfl
@[simp] theorem State.modDpPort_comp_plateRead (s : State) (p : Nat) (f : Port → Port) : (s.modDpPort p f).comp.plateRead = s.comp.plateRead := rfl
@[simp] theorem State.modDpPort_comp_nonce (s : State) (p : Nat) (f : Port → Port) : (s.modDpPort p f).comp.nonce = s.comp.nonce := rfl
@[simp] theorem State.modDpPort_comp_pendNo (s : State) (p : Nat) (f : Port → Port) : (s.modDpPort p f).comp.pendNo = s.comp.pendNo := rfl
@[simp] theorem State.modDpPort_ring (s : State) (p : Nat) (f : Port → Port) (r_ : Nat) : (s.modDpPort p f).ring r_ = s.ring r_ := rfl
@[simp] theorem State.modDpPort_cmdQ (s : State) (p : Nat) (f : Port → Port) (r_ : Nat) : (s.modDpPort p f).cmdQ r_ = s.cmdQ r_ := rfl
@[simp] theorem State.modDpPort_evtQ (s : State) (p : Nat) (f : Port → Port) (n_ : Nat) : (s.modDpPort p f).evtQ n_ = s.evtQ n_ := rfl
@[simp] theorem State.modDpPort_window (s : State) (p : Nat) (f : Port → Port) (w_ : Nat) : (s.modDpPort p f).window w_ = s.window w_ := rfl
@[simp] theorem State.modDpPort_chan (s : State) (p : Nat) (f : Port → Port) (c_ : Nat) : (s.modDpPort p f).chan c_ = s.chan c_ := rfl
@[simp] theorem State.modDpPort_ctx (s : State) (p : Nat) (f : Port → Port) (c_ : Nat) : (s.modDpPort p f).ctx c_ = s.ctx c_ := rfl
@[simp] theorem State.modDpPort_engine (s : State) (p : Nat) (f : Port → Port) (e_ : Nat) : (s.modDpPort p f).engine e_ = s.engine e_ := rfl
@[simp] theorem State.modDpPort_port (s : State) (p : Nat) (f : Port → Port) (p_ : Nat) : (s.modDpPort p f).port p_ = s.port p_ := rfl
@[simp] theorem State.modDpPort_layer (s : State) (p : Nat) (f : Port → Port) (i_ : Nat) : (s.modDpPort p f).layer i_ = s.layer i_ := rfl
@[simp] theorem State.modDpPort_head (s : State) (p : Nat) (f : Port → Port) (h_ : Nat) : (s.modDpPort p f).head h_ = s.head h_ := rfl
@[simp] theorem State.modDpPort_plate (s : State) (p : Nat) (f : Port → Port) (h_ : Nat) : (s.modDpPort p f).plate h_ = s.plate h_ := rfl
@[simp] theorem State.modDpPort_session (s : State) (p : Nat) (f : Port → Port) (i_ : Nat) : (s.modDpPort p f).session i_ = s.session i_ := rfl
@[simp] theorem State.modDpPort_encoder (s : State) (p : Nat) (f : Port → Port) (e_ : Nat) : (s.modDpPort p f).encoder e_ = s.encoder e_ := rfl
@[simp] theorem State.modDpPort_island (s : State) (p : Nat) (f : Port → Port) (i_ : Nat) : (s.modDpPort p f).island i_ = s.island i_ := rfl
@[simp] theorem State.modDpPort_dram (s : State) (p : Nat) (f : Port → Port) (c_ : Nat) : (s.modDpPort p f).dram c_ = s.dram c_ := rfl
@[simp] theorem State.modDpPort_panel (s : State) (p : Nat) (f : Port → Port) (t_ : Nat) : (s.modDpPort p f).panel t_ = s.panel t_ := rfl
@[simp] theorem State.modDpPort_input (s : State) (p : Nat) (f : Port → Port) (i_ : Nat) : (s.modDpPort p f).input i_ = s.input i_ := rfl
@[simp] theorem State.modDpPort_output (s : State) (p : Nat) (f : Port → Port) (o_ : Nat) : (s.modDpPort p f).output o_ = s.output o_ := rfl
@[simp] theorem State.modDpPort_quad (s : State) (p : Nat) (f : Port → Port) (q_ : Nat) : (s.modDpPort p f).quad q_ = s.quad q_ := rfl
@[simp] theorem State.modDpPort_hostBox (s : State) (p : Nat) (f : Port → Port) (n_ : Nat) : (s.modDpPort p f).hostBox n_ = s.hostBox n_ := rfl
@[simp] theorem State.modDpPort_farBox (s : State) (p : Nat) (f : Port → Port) (m_ : Nat) : (s.modDpPort p f).farBox m_ = s.farBox m_ := rfl
@[simp] theorem State.modDpPort_member (s : State) (p : Nat) (f : Port → Port) (m_ : Nat) : (s.modDpPort p f).member m_ = s.member m_ := rfl
@[simp] theorem State.modDpPort_spineLink (s : State) (p : Nat) (f : Port → Port) (l_ : Nat) : (s.modDpPort p f).spineLink l_ = s.spineLink l_ := rfl
@[simp] theorem State.modDpPort_cvUnit (s : State) (p : Nat) (f : Port → Port) (u_ : Nat) : (s.modDpPort p f).cvUnit u_ = s.cvUnit u_ := rfl
@[simp] theorem State.modDpPort_zeEngine (s : State) (p : Nat) (f : Port → Port) (e_ : Nat) : (s.modDpPort p f).zeEngine e_ = s.zeEngine e_ := rfl
@[simp] theorem State.modDpPort_mapOf (s : State) (p : Nat) (f : Port → Port) (r_ : Nat) : (s.modDpPort p f).mapOf r_ = s.mapOf r_ := rfl
@[simp] theorem State.modDpPort_self (s : State) (p : Nat) (f : Port → Port) (hlt : p < s.comp.port.length) : (s.modDpPort p f).dpPort p = f (s.dpPort p) :=
  getD_modify_self _ _ _ _ hlt
theorem State.modDpPort_other (s : State) (p : Nat) (f : Port → Port) (j_ : Nat) (hne : p ≠ j_) : (s.modDpPort p f).dpPort j_ = s.dpPort j_ :=
  getD_modify_other _ _ _ _ _ hne

@[simp] theorem State.modPlate_tb (s : State) (h : Nat) (f : PlateHead → PlateHead) : (s.modPlate h f).tb = s.tb := rfl
@[simp] theorem State.modPlate_top (s : State) (h : Nat) (f : PlateHead → PlateHead) : (s.modPlate h f).top = s.top := rfl
@[simp] theorem State.modPlate_host (s : State) (h : Nat) (f : PlateHead → PlateHead) : (s.modPlate h f).host = s.host := rfl
@[simp] theorem State.modPlate_net (s : State) (h : Nat) (f : PlateHead → PlateHead) : (s.modPlate h f).net = s.net := rfl
@[simp] theorem State.modPlate_dec (s : State) (h : Nat) (f : PlateHead → PlateHead) : (s.modPlate h f).dec = s.dec := rfl
@[simp] theorem State.modPlate_enc (s : State) (h : Nat) (f : PlateHead → PlateHead) : (s.modPlate h f).enc = s.enc := rfl
@[simp] theorem State.modPlate_fab (s : State) (h : Nat) (f : PlateHead → PlateHead) : (s.modPlate h f).fab = s.fab := rfl
@[simp] theorem State.modPlate_store (s : State) (h : Nat) (f : PlateHead → PlateHead) : (s.modPlate h f).store = s.store := rfl
@[simp] theorem State.modPlate_sec (s : State) (h : Nat) (f : PlateHead → PlateHead) : (s.modPlate h f).sec = s.sec := rfl
@[simp] theorem State.modPlate_mail (s : State) (h : Nat) (f : PlateHead → PlateHead) : (s.modPlate h f).mail = s.mail := rfl
@[simp] theorem State.modPlate_gath (s : State) (h : Nat) (f : PlateHead → PlateHead) : (s.modPlate h f).gath = s.gath := rfl
@[simp] theorem State.modPlate_twin (s : State) (h : Nat) (f : PlateHead → PlateHead) : (s.modPlate h f).twin = s.twin := rfl
@[simp] theorem State.modPlate_desk (s : State) (h : Nat) (f : PlateHead → PlateHead) : (s.modPlate h f).desk = s.desk := rfl
@[simp] theorem State.modPlate_pwr (s : State) (h : Nat) (f : PlateHead → PlateHead) : (s.modPlate h f).pwr = s.pwr := rfl
@[simp] theorem State.modPlate_lanes (s : State) (h : Nat) (f : PlateHead → PlateHead) : (s.modPlate h f).lanes = s.lanes := rfl
@[simp] theorem State.modPlate_flt (s : State) (h : Nat) (f : PlateHead → PlateHead) : (s.modPlate h f).flt = s.flt := rfl
@[simp] theorem State.modPlate_svc (s : State) (h : Nat) (f : PlateHead → PlateHead) : (s.modPlate h f).svc = s.svc := rfl
@[simp] theorem State.modPlate_jrn (s : State) (h : Nat) (f : PlateHead → PlateHead) : (s.modPlate h f).jrn = s.jrn := rfl
@[simp] theorem State.modPlate_pending (s : State) (h : Nat) (f : PlateHead → PlateHead) : (s.modPlate h f).pending = s.pending := rfl
@[simp] theorem State.modPlate_comp_layer (s : State) (h : Nat) (f : PlateHead → PlateHead) : (s.modPlate h f).comp.layer = s.comp.layer := rfl
@[simp] theorem State.modPlate_comp_pend (s : State) (h : Nat) (f : PlateHead → PlateHead) : (s.modPlate h f).comp.pend = s.comp.pend := rfl
@[simp] theorem State.modPlate_comp_matrix (s : State) (h : Nat) (f : PlateHead → PlateHead) : (s.modPlate h f).comp.matrix = s.comp.matrix := rfl
@[simp] theorem State.modPlate_comp_bank (s : State) (h : Nat) (f : PlateHead → PlateHead) : (s.modPlate h f).comp.bank = s.comp.bank := rfl
@[simp] theorem State.modPlate_comp_head (s : State) (h : Nat) (f : PlateHead → PlateHead) : (s.modPlate h f).comp.head = s.comp.head := rfl
@[simp] theorem State.modPlate_comp_port (s : State) (h : Nat) (f : PlateHead → PlateHead) : (s.modPlate h f).comp.port = s.comp.port := rfl
@[simp] theorem State.modPlate_comp_plateRead (s : State) (h : Nat) (f : PlateHead → PlateHead) : (s.modPlate h f).comp.plateRead = s.comp.plateRead := rfl
@[simp] theorem State.modPlate_comp_nonce (s : State) (h : Nat) (f : PlateHead → PlateHead) : (s.modPlate h f).comp.nonce = s.comp.nonce := rfl
@[simp] theorem State.modPlate_comp_pendNo (s : State) (h : Nat) (f : PlateHead → PlateHead) : (s.modPlate h f).comp.pendNo = s.comp.pendNo := rfl
@[simp] theorem State.modPlate_ring (s : State) (h : Nat) (f : PlateHead → PlateHead) (r_ : Nat) : (s.modPlate h f).ring r_ = s.ring r_ := rfl
@[simp] theorem State.modPlate_cmdQ (s : State) (h : Nat) (f : PlateHead → PlateHead) (r_ : Nat) : (s.modPlate h f).cmdQ r_ = s.cmdQ r_ := rfl
@[simp] theorem State.modPlate_evtQ (s : State) (h : Nat) (f : PlateHead → PlateHead) (n_ : Nat) : (s.modPlate h f).evtQ n_ = s.evtQ n_ := rfl
@[simp] theorem State.modPlate_window (s : State) (h : Nat) (f : PlateHead → PlateHead) (w_ : Nat) : (s.modPlate h f).window w_ = s.window w_ := rfl
@[simp] theorem State.modPlate_chan (s : State) (h : Nat) (f : PlateHead → PlateHead) (c_ : Nat) : (s.modPlate h f).chan c_ = s.chan c_ := rfl
@[simp] theorem State.modPlate_ctx (s : State) (h : Nat) (f : PlateHead → PlateHead) (c_ : Nat) : (s.modPlate h f).ctx c_ = s.ctx c_ := rfl
@[simp] theorem State.modPlate_engine (s : State) (h : Nat) (f : PlateHead → PlateHead) (e_ : Nat) : (s.modPlate h f).engine e_ = s.engine e_ := rfl
@[simp] theorem State.modPlate_port (s : State) (h : Nat) (f : PlateHead → PlateHead) (p_ : Nat) : (s.modPlate h f).port p_ = s.port p_ := rfl
@[simp] theorem State.modPlate_layer (s : State) (h : Nat) (f : PlateHead → PlateHead) (i_ : Nat) : (s.modPlate h f).layer i_ = s.layer i_ := rfl
@[simp] theorem State.modPlate_head (s : State) (h : Nat) (f : PlateHead → PlateHead) (h_ : Nat) : (s.modPlate h f).head h_ = s.head h_ := rfl
@[simp] theorem State.modPlate_dpPort (s : State) (h : Nat) (f : PlateHead → PlateHead) (p_ : Nat) : (s.modPlate h f).dpPort p_ = s.dpPort p_ := rfl
@[simp] theorem State.modPlate_session (s : State) (h : Nat) (f : PlateHead → PlateHead) (i_ : Nat) : (s.modPlate h f).session i_ = s.session i_ := rfl
@[simp] theorem State.modPlate_encoder (s : State) (h : Nat) (f : PlateHead → PlateHead) (e_ : Nat) : (s.modPlate h f).encoder e_ = s.encoder e_ := rfl
@[simp] theorem State.modPlate_island (s : State) (h : Nat) (f : PlateHead → PlateHead) (i_ : Nat) : (s.modPlate h f).island i_ = s.island i_ := rfl
@[simp] theorem State.modPlate_dram (s : State) (h : Nat) (f : PlateHead → PlateHead) (c_ : Nat) : (s.modPlate h f).dram c_ = s.dram c_ := rfl
@[simp] theorem State.modPlate_panel (s : State) (h : Nat) (f : PlateHead → PlateHead) (t_ : Nat) : (s.modPlate h f).panel t_ = s.panel t_ := rfl
@[simp] theorem State.modPlate_input (s : State) (h : Nat) (f : PlateHead → PlateHead) (i_ : Nat) : (s.modPlate h f).input i_ = s.input i_ := rfl
@[simp] theorem State.modPlate_output (s : State) (h : Nat) (f : PlateHead → PlateHead) (o_ : Nat) : (s.modPlate h f).output o_ = s.output o_ := rfl
@[simp] theorem State.modPlate_quad (s : State) (h : Nat) (f : PlateHead → PlateHead) (q_ : Nat) : (s.modPlate h f).quad q_ = s.quad q_ := rfl
@[simp] theorem State.modPlate_hostBox (s : State) (h : Nat) (f : PlateHead → PlateHead) (n_ : Nat) : (s.modPlate h f).hostBox n_ = s.hostBox n_ := rfl
@[simp] theorem State.modPlate_farBox (s : State) (h : Nat) (f : PlateHead → PlateHead) (m_ : Nat) : (s.modPlate h f).farBox m_ = s.farBox m_ := rfl
@[simp] theorem State.modPlate_member (s : State) (h : Nat) (f : PlateHead → PlateHead) (m_ : Nat) : (s.modPlate h f).member m_ = s.member m_ := rfl
@[simp] theorem State.modPlate_spineLink (s : State) (h : Nat) (f : PlateHead → PlateHead) (l_ : Nat) : (s.modPlate h f).spineLink l_ = s.spineLink l_ := rfl
@[simp] theorem State.modPlate_cvUnit (s : State) (h : Nat) (f : PlateHead → PlateHead) (u_ : Nat) : (s.modPlate h f).cvUnit u_ = s.cvUnit u_ := rfl
@[simp] theorem State.modPlate_zeEngine (s : State) (h : Nat) (f : PlateHead → PlateHead) (e_ : Nat) : (s.modPlate h f).zeEngine e_ = s.zeEngine e_ := rfl
@[simp] theorem State.modPlate_mapOf (s : State) (h : Nat) (f : PlateHead → PlateHead) (r_ : Nat) : (s.modPlate h f).mapOf r_ = s.mapOf r_ := rfl
@[simp] theorem State.modPlate_self (s : State) (h : Nat) (f : PlateHead → PlateHead) (hlt : h < s.comp.plate.length) : (s.modPlate h f).plate h = f (s.plate h) :=
  getD_modify_self _ _ _ _ hlt
theorem State.modPlate_other (s : State) (h : Nat) (f : PlateHead → PlateHead) (j_ : Nat) (hne : h ≠ j_) : (s.modPlate h f).plate j_ = s.plate j_ :=
  getD_modify_other _ _ _ _ _ hne

@[simp] theorem State.modSession_tb (s : State) (i : Nat) (f : EncSession → EncSession) : (s.modSession i f).tb = s.tb := rfl
@[simp] theorem State.modSession_top (s : State) (i : Nat) (f : EncSession → EncSession) : (s.modSession i f).top = s.top := rfl
@[simp] theorem State.modSession_host (s : State) (i : Nat) (f : EncSession → EncSession) : (s.modSession i f).host = s.host := rfl
@[simp] theorem State.modSession_net (s : State) (i : Nat) (f : EncSession → EncSession) : (s.modSession i f).net = s.net := rfl
@[simp] theorem State.modSession_dec (s : State) (i : Nat) (f : EncSession → EncSession) : (s.modSession i f).dec = s.dec := rfl
@[simp] theorem State.modSession_comp (s : State) (i : Nat) (f : EncSession → EncSession) : (s.modSession i f).comp = s.comp := rfl
@[simp] theorem State.modSession_fab (s : State) (i : Nat) (f : EncSession → EncSession) : (s.modSession i f).fab = s.fab := rfl
@[simp] theorem State.modSession_store (s : State) (i : Nat) (f : EncSession → EncSession) : (s.modSession i f).store = s.store := rfl
@[simp] theorem State.modSession_sec (s : State) (i : Nat) (f : EncSession → EncSession) : (s.modSession i f).sec = s.sec := rfl
@[simp] theorem State.modSession_mail (s : State) (i : Nat) (f : EncSession → EncSession) : (s.modSession i f).mail = s.mail := rfl
@[simp] theorem State.modSession_gath (s : State) (i : Nat) (f : EncSession → EncSession) : (s.modSession i f).gath = s.gath := rfl
@[simp] theorem State.modSession_twin (s : State) (i : Nat) (f : EncSession → EncSession) : (s.modSession i f).twin = s.twin := rfl
@[simp] theorem State.modSession_desk (s : State) (i : Nat) (f : EncSession → EncSession) : (s.modSession i f).desk = s.desk := rfl
@[simp] theorem State.modSession_pwr (s : State) (i : Nat) (f : EncSession → EncSession) : (s.modSession i f).pwr = s.pwr := rfl
@[simp] theorem State.modSession_lanes (s : State) (i : Nat) (f : EncSession → EncSession) : (s.modSession i f).lanes = s.lanes := rfl
@[simp] theorem State.modSession_flt (s : State) (i : Nat) (f : EncSession → EncSession) : (s.modSession i f).flt = s.flt := rfl
@[simp] theorem State.modSession_svc (s : State) (i : Nat) (f : EncSession → EncSession) : (s.modSession i f).svc = s.svc := rfl
@[simp] theorem State.modSession_jrn (s : State) (i : Nat) (f : EncSession → EncSession) : (s.modSession i f).jrn = s.jrn := rfl
@[simp] theorem State.modSession_pending (s : State) (i : Nat) (f : EncSession → EncSession) : (s.modSession i f).pending = s.pending := rfl
@[simp] theorem State.modSession_enc_ee (s : State) (i : Nat) (f : EncSession → EncSession) : (s.modSession i f).enc.ee = s.enc.ee := rfl
@[simp] theorem State.modSession_enc_demotions (s : State) (i : Nat) (f : EncSession → EncSession) : (s.modSession i f).enc.demotions = s.enc.demotions := rfl
@[simp] theorem State.modSession_ring (s : State) (i : Nat) (f : EncSession → EncSession) (r_ : Nat) : (s.modSession i f).ring r_ = s.ring r_ := rfl
@[simp] theorem State.modSession_cmdQ (s : State) (i : Nat) (f : EncSession → EncSession) (r_ : Nat) : (s.modSession i f).cmdQ r_ = s.cmdQ r_ := rfl
@[simp] theorem State.modSession_evtQ (s : State) (i : Nat) (f : EncSession → EncSession) (n_ : Nat) : (s.modSession i f).evtQ n_ = s.evtQ n_ := rfl
@[simp] theorem State.modSession_window (s : State) (i : Nat) (f : EncSession → EncSession) (w_ : Nat) : (s.modSession i f).window w_ = s.window w_ := rfl
@[simp] theorem State.modSession_chan (s : State) (i : Nat) (f : EncSession → EncSession) (c_ : Nat) : (s.modSession i f).chan c_ = s.chan c_ := rfl
@[simp] theorem State.modSession_ctx (s : State) (i : Nat) (f : EncSession → EncSession) (c_ : Nat) : (s.modSession i f).ctx c_ = s.ctx c_ := rfl
@[simp] theorem State.modSession_engine (s : State) (i : Nat) (f : EncSession → EncSession) (e_ : Nat) : (s.modSession i f).engine e_ = s.engine e_ := rfl
@[simp] theorem State.modSession_port (s : State) (i : Nat) (f : EncSession → EncSession) (p_ : Nat) : (s.modSession i f).port p_ = s.port p_ := rfl
@[simp] theorem State.modSession_layer (s : State) (i : Nat) (f : EncSession → EncSession) (i_ : Nat) : (s.modSession i f).layer i_ = s.layer i_ := rfl
@[simp] theorem State.modSession_head (s : State) (i : Nat) (f : EncSession → EncSession) (h_ : Nat) : (s.modSession i f).head h_ = s.head h_ := rfl
@[simp] theorem State.modSession_dpPort (s : State) (i : Nat) (f : EncSession → EncSession) (p_ : Nat) : (s.modSession i f).dpPort p_ = s.dpPort p_ := rfl
@[simp] theorem State.modSession_plate (s : State) (i : Nat) (f : EncSession → EncSession) (h_ : Nat) : (s.modSession i f).plate h_ = s.plate h_ := rfl
@[simp] theorem State.modSession_encoder (s : State) (i : Nat) (f : EncSession → EncSession) (e_ : Nat) : (s.modSession i f).encoder e_ = s.encoder e_ := rfl
@[simp] theorem State.modSession_island (s : State) (i : Nat) (f : EncSession → EncSession) (i_ : Nat) : (s.modSession i f).island i_ = s.island i_ := rfl
@[simp] theorem State.modSession_dram (s : State) (i : Nat) (f : EncSession → EncSession) (c_ : Nat) : (s.modSession i f).dram c_ = s.dram c_ := rfl
@[simp] theorem State.modSession_panel (s : State) (i : Nat) (f : EncSession → EncSession) (t_ : Nat) : (s.modSession i f).panel t_ = s.panel t_ := rfl
@[simp] theorem State.modSession_input (s : State) (i : Nat) (f : EncSession → EncSession) (i_ : Nat) : (s.modSession i f).input i_ = s.input i_ := rfl
@[simp] theorem State.modSession_output (s : State) (i : Nat) (f : EncSession → EncSession) (o_ : Nat) : (s.modSession i f).output o_ = s.output o_ := rfl
@[simp] theorem State.modSession_quad (s : State) (i : Nat) (f : EncSession → EncSession) (q_ : Nat) : (s.modSession i f).quad q_ = s.quad q_ := rfl
@[simp] theorem State.modSession_hostBox (s : State) (i : Nat) (f : EncSession → EncSession) (n_ : Nat) : (s.modSession i f).hostBox n_ = s.hostBox n_ := rfl
@[simp] theorem State.modSession_farBox (s : State) (i : Nat) (f : EncSession → EncSession) (m_ : Nat) : (s.modSession i f).farBox m_ = s.farBox m_ := rfl
@[simp] theorem State.modSession_member (s : State) (i : Nat) (f : EncSession → EncSession) (m_ : Nat) : (s.modSession i f).member m_ = s.member m_ := rfl
@[simp] theorem State.modSession_spineLink (s : State) (i : Nat) (f : EncSession → EncSession) (l_ : Nat) : (s.modSession i f).spineLink l_ = s.spineLink l_ := rfl
@[simp] theorem State.modSession_cvUnit (s : State) (i : Nat) (f : EncSession → EncSession) (u_ : Nat) : (s.modSession i f).cvUnit u_ = s.cvUnit u_ := rfl
@[simp] theorem State.modSession_zeEngine (s : State) (i : Nat) (f : EncSession → EncSession) (e_ : Nat) : (s.modSession i f).zeEngine e_ = s.zeEngine e_ := rfl
@[simp] theorem State.modSession_mapOf (s : State) (i : Nat) (f : EncSession → EncSession) (r_ : Nat) : (s.modSession i f).mapOf r_ = s.mapOf r_ := rfl
@[simp] theorem State.modSession_self (s : State) (i : Nat) (f : EncSession → EncSession) (hlt : i < s.enc.session.length) : (s.modSession i f).session i = f (s.session i) :=
  getD_modify_self _ _ _ _ hlt
theorem State.modSession_other (s : State) (i : Nat) (f : EncSession → EncSession) (j_ : Nat) (hne : i ≠ j_) : (s.modSession i f).session j_ = s.session j_ :=
  getD_modify_other _ _ _ _ _ hne

@[simp] theorem State.modEncoder_tb (s : State) (e : Nat) (f : Encoder → Encoder) : (s.modEncoder e f).tb = s.tb := rfl
@[simp] theorem State.modEncoder_top (s : State) (e : Nat) (f : Encoder → Encoder) : (s.modEncoder e f).top = s.top := rfl
@[simp] theorem State.modEncoder_host (s : State) (e : Nat) (f : Encoder → Encoder) : (s.modEncoder e f).host = s.host := rfl
@[simp] theorem State.modEncoder_net (s : State) (e : Nat) (f : Encoder → Encoder) : (s.modEncoder e f).net = s.net := rfl
@[simp] theorem State.modEncoder_dec (s : State) (e : Nat) (f : Encoder → Encoder) : (s.modEncoder e f).dec = s.dec := rfl
@[simp] theorem State.modEncoder_comp (s : State) (e : Nat) (f : Encoder → Encoder) : (s.modEncoder e f).comp = s.comp := rfl
@[simp] theorem State.modEncoder_fab (s : State) (e : Nat) (f : Encoder → Encoder) : (s.modEncoder e f).fab = s.fab := rfl
@[simp] theorem State.modEncoder_store (s : State) (e : Nat) (f : Encoder → Encoder) : (s.modEncoder e f).store = s.store := rfl
@[simp] theorem State.modEncoder_sec (s : State) (e : Nat) (f : Encoder → Encoder) : (s.modEncoder e f).sec = s.sec := rfl
@[simp] theorem State.modEncoder_mail (s : State) (e : Nat) (f : Encoder → Encoder) : (s.modEncoder e f).mail = s.mail := rfl
@[simp] theorem State.modEncoder_gath (s : State) (e : Nat) (f : Encoder → Encoder) : (s.modEncoder e f).gath = s.gath := rfl
@[simp] theorem State.modEncoder_twin (s : State) (e : Nat) (f : Encoder → Encoder) : (s.modEncoder e f).twin = s.twin := rfl
@[simp] theorem State.modEncoder_desk (s : State) (e : Nat) (f : Encoder → Encoder) : (s.modEncoder e f).desk = s.desk := rfl
@[simp] theorem State.modEncoder_pwr (s : State) (e : Nat) (f : Encoder → Encoder) : (s.modEncoder e f).pwr = s.pwr := rfl
@[simp] theorem State.modEncoder_lanes (s : State) (e : Nat) (f : Encoder → Encoder) : (s.modEncoder e f).lanes = s.lanes := rfl
@[simp] theorem State.modEncoder_flt (s : State) (e : Nat) (f : Encoder → Encoder) : (s.modEncoder e f).flt = s.flt := rfl
@[simp] theorem State.modEncoder_svc (s : State) (e : Nat) (f : Encoder → Encoder) : (s.modEncoder e f).svc = s.svc := rfl
@[simp] theorem State.modEncoder_jrn (s : State) (e : Nat) (f : Encoder → Encoder) : (s.modEncoder e f).jrn = s.jrn := rfl
@[simp] theorem State.modEncoder_pending (s : State) (e : Nat) (f : Encoder → Encoder) : (s.modEncoder e f).pending = s.pending := rfl
@[simp] theorem State.modEncoder_enc_session (s : State) (e : Nat) (f : Encoder → Encoder) : (s.modEncoder e f).enc.session = s.enc.session := rfl
@[simp] theorem State.modEncoder_enc_demotions (s : State) (e : Nat) (f : Encoder → Encoder) : (s.modEncoder e f).enc.demotions = s.enc.demotions := rfl
@[simp] theorem State.modEncoder_ring (s : State) (e : Nat) (f : Encoder → Encoder) (r_ : Nat) : (s.modEncoder e f).ring r_ = s.ring r_ := rfl
@[simp] theorem State.modEncoder_cmdQ (s : State) (e : Nat) (f : Encoder → Encoder) (r_ : Nat) : (s.modEncoder e f).cmdQ r_ = s.cmdQ r_ := rfl
@[simp] theorem State.modEncoder_evtQ (s : State) (e : Nat) (f : Encoder → Encoder) (n_ : Nat) : (s.modEncoder e f).evtQ n_ = s.evtQ n_ := rfl
@[simp] theorem State.modEncoder_window (s : State) (e : Nat) (f : Encoder → Encoder) (w_ : Nat) : (s.modEncoder e f).window w_ = s.window w_ := rfl
@[simp] theorem State.modEncoder_chan (s : State) (e : Nat) (f : Encoder → Encoder) (c_ : Nat) : (s.modEncoder e f).chan c_ = s.chan c_ := rfl
@[simp] theorem State.modEncoder_ctx (s : State) (e : Nat) (f : Encoder → Encoder) (c_ : Nat) : (s.modEncoder e f).ctx c_ = s.ctx c_ := rfl
@[simp] theorem State.modEncoder_engine (s : State) (e : Nat) (f : Encoder → Encoder) (e_ : Nat) : (s.modEncoder e f).engine e_ = s.engine e_ := rfl
@[simp] theorem State.modEncoder_port (s : State) (e : Nat) (f : Encoder → Encoder) (p_ : Nat) : (s.modEncoder e f).port p_ = s.port p_ := rfl
@[simp] theorem State.modEncoder_layer (s : State) (e : Nat) (f : Encoder → Encoder) (i_ : Nat) : (s.modEncoder e f).layer i_ = s.layer i_ := rfl
@[simp] theorem State.modEncoder_head (s : State) (e : Nat) (f : Encoder → Encoder) (h_ : Nat) : (s.modEncoder e f).head h_ = s.head h_ := rfl
@[simp] theorem State.modEncoder_dpPort (s : State) (e : Nat) (f : Encoder → Encoder) (p_ : Nat) : (s.modEncoder e f).dpPort p_ = s.dpPort p_ := rfl
@[simp] theorem State.modEncoder_plate (s : State) (e : Nat) (f : Encoder → Encoder) (h_ : Nat) : (s.modEncoder e f).plate h_ = s.plate h_ := rfl
@[simp] theorem State.modEncoder_session (s : State) (e : Nat) (f : Encoder → Encoder) (i_ : Nat) : (s.modEncoder e f).session i_ = s.session i_ := rfl
@[simp] theorem State.modEncoder_island (s : State) (e : Nat) (f : Encoder → Encoder) (i_ : Nat) : (s.modEncoder e f).island i_ = s.island i_ := rfl
@[simp] theorem State.modEncoder_dram (s : State) (e : Nat) (f : Encoder → Encoder) (c_ : Nat) : (s.modEncoder e f).dram c_ = s.dram c_ := rfl
@[simp] theorem State.modEncoder_panel (s : State) (e : Nat) (f : Encoder → Encoder) (t_ : Nat) : (s.modEncoder e f).panel t_ = s.panel t_ := rfl
@[simp] theorem State.modEncoder_input (s : State) (e : Nat) (f : Encoder → Encoder) (i_ : Nat) : (s.modEncoder e f).input i_ = s.input i_ := rfl
@[simp] theorem State.modEncoder_output (s : State) (e : Nat) (f : Encoder → Encoder) (o_ : Nat) : (s.modEncoder e f).output o_ = s.output o_ := rfl
@[simp] theorem State.modEncoder_quad (s : State) (e : Nat) (f : Encoder → Encoder) (q_ : Nat) : (s.modEncoder e f).quad q_ = s.quad q_ := rfl
@[simp] theorem State.modEncoder_hostBox (s : State) (e : Nat) (f : Encoder → Encoder) (n_ : Nat) : (s.modEncoder e f).hostBox n_ = s.hostBox n_ := rfl
@[simp] theorem State.modEncoder_farBox (s : State) (e : Nat) (f : Encoder → Encoder) (m_ : Nat) : (s.modEncoder e f).farBox m_ = s.farBox m_ := rfl
@[simp] theorem State.modEncoder_member (s : State) (e : Nat) (f : Encoder → Encoder) (m_ : Nat) : (s.modEncoder e f).member m_ = s.member m_ := rfl
@[simp] theorem State.modEncoder_spineLink (s : State) (e : Nat) (f : Encoder → Encoder) (l_ : Nat) : (s.modEncoder e f).spineLink l_ = s.spineLink l_ := rfl
@[simp] theorem State.modEncoder_cvUnit (s : State) (e : Nat) (f : Encoder → Encoder) (u_ : Nat) : (s.modEncoder e f).cvUnit u_ = s.cvUnit u_ := rfl
@[simp] theorem State.modEncoder_zeEngine (s : State) (e : Nat) (f : Encoder → Encoder) (e_ : Nat) : (s.modEncoder e f).zeEngine e_ = s.zeEngine e_ := rfl
@[simp] theorem State.modEncoder_mapOf (s : State) (e : Nat) (f : Encoder → Encoder) (r_ : Nat) : (s.modEncoder e f).mapOf r_ = s.mapOf r_ := rfl
@[simp] theorem State.modEncoder_self (s : State) (e : Nat) (f : Encoder → Encoder) (hlt : e < s.enc.ee.length) : (s.modEncoder e f).encoder e = f (s.encoder e) :=
  getD_modify_self _ _ _ _ hlt
theorem State.modEncoder_other (s : State) (e : Nat) (f : Encoder → Encoder) (j_ : Nat) (hne : e ≠ j_) : (s.modEncoder e f).encoder j_ = s.encoder j_ :=
  getD_modify_other _ _ _ _ _ hne

@[simp] theorem State.modIsland_tb (s : State) (i : Nat) (f : Island → Island) : (s.modIsland i f).tb = s.tb := rfl
@[simp] theorem State.modIsland_top (s : State) (i : Nat) (f : Island → Island) : (s.modIsland i f).top = s.top := rfl
@[simp] theorem State.modIsland_host (s : State) (i : Nat) (f : Island → Island) : (s.modIsland i f).host = s.host := rfl
@[simp] theorem State.modIsland_net (s : State) (i : Nat) (f : Island → Island) : (s.modIsland i f).net = s.net := rfl
@[simp] theorem State.modIsland_dec (s : State) (i : Nat) (f : Island → Island) : (s.modIsland i f).dec = s.dec := rfl
@[simp] theorem State.modIsland_comp (s : State) (i : Nat) (f : Island → Island) : (s.modIsland i f).comp = s.comp := rfl
@[simp] theorem State.modIsland_enc (s : State) (i : Nat) (f : Island → Island) : (s.modIsland i f).enc = s.enc := rfl
@[simp] theorem State.modIsland_store (s : State) (i : Nat) (f : Island → Island) : (s.modIsland i f).store = s.store := rfl
@[simp] theorem State.modIsland_sec (s : State) (i : Nat) (f : Island → Island) : (s.modIsland i f).sec = s.sec := rfl
@[simp] theorem State.modIsland_mail (s : State) (i : Nat) (f : Island → Island) : (s.modIsland i f).mail = s.mail := rfl
@[simp] theorem State.modIsland_gath (s : State) (i : Nat) (f : Island → Island) : (s.modIsland i f).gath = s.gath := rfl
@[simp] theorem State.modIsland_twin (s : State) (i : Nat) (f : Island → Island) : (s.modIsland i f).twin = s.twin := rfl
@[simp] theorem State.modIsland_desk (s : State) (i : Nat) (f : Island → Island) : (s.modIsland i f).desk = s.desk := rfl
@[simp] theorem State.modIsland_pwr (s : State) (i : Nat) (f : Island → Island) : (s.modIsland i f).pwr = s.pwr := rfl
@[simp] theorem State.modIsland_lanes (s : State) (i : Nat) (f : Island → Island) : (s.modIsland i f).lanes = s.lanes := rfl
@[simp] theorem State.modIsland_flt (s : State) (i : Nat) (f : Island → Island) : (s.modIsland i f).flt = s.flt := rfl
@[simp] theorem State.modIsland_svc (s : State) (i : Nat) (f : Island → Island) : (s.modIsland i f).svc = s.svc := rfl
@[simp] theorem State.modIsland_jrn (s : State) (i : Nat) (f : Island → Island) : (s.modIsland i f).jrn = s.jrn := rfl
@[simp] theorem State.modIsland_pending (s : State) (i : Nat) (f : Island → Island) : (s.modIsland i f).pending = s.pending := rfl
@[simp] theorem State.modIsland_fab_xing (s : State) (i : Nat) (f : Island → Island) : (s.modIsland i f).fab.xing = s.fab.xing := rfl
@[simp] theorem State.modIsland_fab_sram (s : State) (i : Nat) (f : Island → Island) : (s.modIsland i f).fab.sram = s.fab.sram := rfl
@[simp] theorem State.modIsland_ring (s : State) (i : Nat) (f : Island → Island) (r_ : Nat) : (s.modIsland i f).ring r_ = s.ring r_ := rfl
@[simp] theorem State.modIsland_cmdQ (s : State) (i : Nat) (f : Island → Island) (r_ : Nat) : (s.modIsland i f).cmdQ r_ = s.cmdQ r_ := rfl
@[simp] theorem State.modIsland_evtQ (s : State) (i : Nat) (f : Island → Island) (n_ : Nat) : (s.modIsland i f).evtQ n_ = s.evtQ n_ := rfl
@[simp] theorem State.modIsland_window (s : State) (i : Nat) (f : Island → Island) (w_ : Nat) : (s.modIsland i f).window w_ = s.window w_ := rfl
@[simp] theorem State.modIsland_chan (s : State) (i : Nat) (f : Island → Island) (c_ : Nat) : (s.modIsland i f).chan c_ = s.chan c_ := rfl
@[simp] theorem State.modIsland_ctx (s : State) (i : Nat) (f : Island → Island) (c_ : Nat) : (s.modIsland i f).ctx c_ = s.ctx c_ := rfl
@[simp] theorem State.modIsland_engine (s : State) (i : Nat) (f : Island → Island) (e_ : Nat) : (s.modIsland i f).engine e_ = s.engine e_ := rfl
@[simp] theorem State.modIsland_port (s : State) (i : Nat) (f : Island → Island) (p_ : Nat) : (s.modIsland i f).port p_ = s.port p_ := rfl
@[simp] theorem State.modIsland_layer (s : State) (i : Nat) (f : Island → Island) (i_ : Nat) : (s.modIsland i f).layer i_ = s.layer i_ := rfl
@[simp] theorem State.modIsland_head (s : State) (i : Nat) (f : Island → Island) (h_ : Nat) : (s.modIsland i f).head h_ = s.head h_ := rfl
@[simp] theorem State.modIsland_dpPort (s : State) (i : Nat) (f : Island → Island) (p_ : Nat) : (s.modIsland i f).dpPort p_ = s.dpPort p_ := rfl
@[simp] theorem State.modIsland_plate (s : State) (i : Nat) (f : Island → Island) (h_ : Nat) : (s.modIsland i f).plate h_ = s.plate h_ := rfl
@[simp] theorem State.modIsland_session (s : State) (i : Nat) (f : Island → Island) (i_ : Nat) : (s.modIsland i f).session i_ = s.session i_ := rfl
@[simp] theorem State.modIsland_encoder (s : State) (i : Nat) (f : Island → Island) (e_ : Nat) : (s.modIsland i f).encoder e_ = s.encoder e_ := rfl
@[simp] theorem State.modIsland_dram (s : State) (i : Nat) (f : Island → Island) (c_ : Nat) : (s.modIsland i f).dram c_ = s.dram c_ := rfl
@[simp] theorem State.modIsland_panel (s : State) (i : Nat) (f : Island → Island) (t_ : Nat) : (s.modIsland i f).panel t_ = s.panel t_ := rfl
@[simp] theorem State.modIsland_input (s : State) (i : Nat) (f : Island → Island) (i_ : Nat) : (s.modIsland i f).input i_ = s.input i_ := rfl
@[simp] theorem State.modIsland_output (s : State) (i : Nat) (f : Island → Island) (o_ : Nat) : (s.modIsland i f).output o_ = s.output o_ := rfl
@[simp] theorem State.modIsland_quad (s : State) (i : Nat) (f : Island → Island) (q_ : Nat) : (s.modIsland i f).quad q_ = s.quad q_ := rfl
@[simp] theorem State.modIsland_hostBox (s : State) (i : Nat) (f : Island → Island) (n_ : Nat) : (s.modIsland i f).hostBox n_ = s.hostBox n_ := rfl
@[simp] theorem State.modIsland_farBox (s : State) (i : Nat) (f : Island → Island) (m_ : Nat) : (s.modIsland i f).farBox m_ = s.farBox m_ := rfl
@[simp] theorem State.modIsland_member (s : State) (i : Nat) (f : Island → Island) (m_ : Nat) : (s.modIsland i f).member m_ = s.member m_ := rfl
@[simp] theorem State.modIsland_spineLink (s : State) (i : Nat) (f : Island → Island) (l_ : Nat) : (s.modIsland i f).spineLink l_ = s.spineLink l_ := rfl
@[simp] theorem State.modIsland_cvUnit (s : State) (i : Nat) (f : Island → Island) (u_ : Nat) : (s.modIsland i f).cvUnit u_ = s.cvUnit u_ := rfl
@[simp] theorem State.modIsland_zeEngine (s : State) (i : Nat) (f : Island → Island) (e_ : Nat) : (s.modIsland i f).zeEngine e_ = s.zeEngine e_ := rfl
@[simp] theorem State.modIsland_mapOf (s : State) (i : Nat) (f : Island → Island) (r_ : Nat) : (s.modIsland i f).mapOf r_ = s.mapOf r_ := rfl
@[simp] theorem State.modIsland_self (s : State) (i : Nat) (f : Island → Island) (hlt : i < s.fab.isl.length) : (s.modIsland i f).island i = f (s.island i) :=
  getD_modify_self _ _ _ _ hlt
theorem State.modIsland_other (s : State) (i : Nat) (f : Island → Island) (j_ : Nat) (hne : i ≠ j_) : (s.modIsland i f).island j_ = s.island j_ :=
  getD_modify_other _ _ _ _ _ hne

@[simp] theorem State.modDram_tb (s : State) (c : Nat) (f : DramChannel → DramChannel) : (s.modDram c f).tb = s.tb := rfl
@[simp] theorem State.modDram_top (s : State) (c : Nat) (f : DramChannel → DramChannel) : (s.modDram c f).top = s.top := rfl
@[simp] theorem State.modDram_host (s : State) (c : Nat) (f : DramChannel → DramChannel) : (s.modDram c f).host = s.host := rfl
@[simp] theorem State.modDram_net (s : State) (c : Nat) (f : DramChannel → DramChannel) : (s.modDram c f).net = s.net := rfl
@[simp] theorem State.modDram_dec (s : State) (c : Nat) (f : DramChannel → DramChannel) : (s.modDram c f).dec = s.dec := rfl
@[simp] theorem State.modDram_comp (s : State) (c : Nat) (f : DramChannel → DramChannel) : (s.modDram c f).comp = s.comp := rfl
@[simp] theorem State.modDram_enc (s : State) (c : Nat) (f : DramChannel → DramChannel) : (s.modDram c f).enc = s.enc := rfl
@[simp] theorem State.modDram_fab (s : State) (c : Nat) (f : DramChannel → DramChannel) : (s.modDram c f).fab = s.fab := rfl
@[simp] theorem State.modDram_sec (s : State) (c : Nat) (f : DramChannel → DramChannel) : (s.modDram c f).sec = s.sec := rfl
@[simp] theorem State.modDram_mail (s : State) (c : Nat) (f : DramChannel → DramChannel) : (s.modDram c f).mail = s.mail := rfl
@[simp] theorem State.modDram_gath (s : State) (c : Nat) (f : DramChannel → DramChannel) : (s.modDram c f).gath = s.gath := rfl
@[simp] theorem State.modDram_twin (s : State) (c : Nat) (f : DramChannel → DramChannel) : (s.modDram c f).twin = s.twin := rfl
@[simp] theorem State.modDram_desk (s : State) (c : Nat) (f : DramChannel → DramChannel) : (s.modDram c f).desk = s.desk := rfl
@[simp] theorem State.modDram_pwr (s : State) (c : Nat) (f : DramChannel → DramChannel) : (s.modDram c f).pwr = s.pwr := rfl
@[simp] theorem State.modDram_lanes (s : State) (c : Nat) (f : DramChannel → DramChannel) : (s.modDram c f).lanes = s.lanes := rfl
@[simp] theorem State.modDram_flt (s : State) (c : Nat) (f : DramChannel → DramChannel) : (s.modDram c f).flt = s.flt := rfl
@[simp] theorem State.modDram_svc (s : State) (c : Nat) (f : DramChannel → DramChannel) : (s.modDram c f).svc = s.svc := rfl
@[simp] theorem State.modDram_jrn (s : State) (c : Nat) (f : DramChannel → DramChannel) : (s.modDram c f).jrn = s.jrn := rfl
@[simp] theorem State.modDram_pending (s : State) (c : Nat) (f : DramChannel → DramChannel) : (s.modDram c f).pending = s.pending := rfl
@[simp] theorem State.modDram_store_mem (s : State) (c : Nat) (f : DramChannel → DramChannel) : (s.modDram c f).store.mem = s.store.mem := rfl
@[simp] theorem State.modDram_store_damaged (s : State) (c : Nat) (f : DramChannel → DramChannel) : (s.modDram c f).store.damaged = s.store.damaged := rfl
@[simp] theorem State.modDram_store_xtsKey (s : State) (c : Nat) (f : DramChannel → DramChannel) : (s.modDram c f).store.xtsKey = s.store.xtsKey := rfl
@[simp] theorem State.modDram_store_asked (s : State) (c : Nat) (f : DramChannel → DramChannel) : (s.modDram c f).store.asked = s.store.asked := rfl
@[simp] theorem State.modDram_store_ready (s : State) (c : Nat) (f : DramChannel → DramChannel) : (s.modDram c f).store.ready = s.store.ready := rfl
@[simp] theorem State.modDram_store_point (s : State) (c : Nat) (f : DramChannel → DramChannel) : (s.modDram c f).store.point = s.store.point := rfl
@[simp] theorem State.modDram_store_pinned (s : State) (c : Nat) (f : DramChannel → DramChannel) : (s.modDram c f).store.pinned = s.store.pinned := rfl
@[simp] theorem State.modDram_store_grain (s : State) (c : Nat) (f : DramChannel → DramChannel) : (s.modDram c f).store.grain = s.store.grain := rfl
@[simp] theorem State.modDram_store_switches (s : State) (c : Nat) (f : DramChannel → DramChannel) : (s.modDram c f).store.switches = s.store.switches := rfl
@[simp] theorem State.modDram_store_lastSwitch (s : State) (c : Nat) (f : DramChannel → DramChannel) : (s.modDram c f).store.lastSwitch = s.store.lastSwitch := rfl
@[simp] theorem State.modDram_store_switching (s : State) (c : Nat) (f : DramChannel → DramChannel) : (s.modDram c f).store.switching = s.store.switching := rfl
@[simp] theorem State.modDram_store_lowSince (s : State) (c : Nat) (f : DramChannel → DramChannel) : (s.modDram c f).store.lowSince = s.store.lowSince := rfl
@[simp] theorem State.modDram_store_age1 (s : State) (c : Nat) (f : DramChannel → DramChannel) : (s.modDram c f).store.age1 = s.store.age1 := rfl
@[simp] theorem State.modDram_store_age2 (s : State) (c : Nat) (f : DramChannel → DramChannel) : (s.modDram c f).store.age2 = s.store.age2 := rfl
@[simp] theorem State.modDram_store_age3 (s : State) (c : Nat) (f : DramChannel → DramChannel) : (s.modDram c f).store.age3 = s.store.age3 := rfl
@[simp] theorem State.modDram_store_promoted (s : State) (c : Nat) (f : DramChannel → DramChannel) : (s.modDram c f).store.promoted = s.store.promoted := rfl
@[simp] theorem State.modDram_store_shadow (s : State) (c : Nat) (f : DramChannel → DramChannel) : (s.modDram c f).store.shadow = s.store.shadow := rfl
@[simp] theorem State.modDram_store_active (s : State) (c : Nat) (f : DramChannel → DramChannel) : (s.modDram c f).store.active = s.store.active := rfl
@[simp] theorem State.modDram_store_watch (s : State) (c : Nat) (f : DramChannel → DramChannel) : (s.modDram c f).store.watch = s.store.watch := rfl
@[simp] theorem State.modDram_store_noSpare (s : State) (c : Nat) (f : DramChannel → DramChannel) : (s.modDram c f).store.noSpare = s.store.noSpare := rfl
@[simp] theorem State.modDram_store_rsp (s : State) (c : Nat) (f : DramChannel → DramChannel) : (s.modDram c f).store.rsp = s.store.rsp := rfl
@[simp] theorem State.modDram_store_regions (s : State) (c : Nat) (f : DramChannel → DramChannel) : (s.modDram c f).store.regions = s.store.regions := rfl
@[simp] theorem State.modDram_ring (s : State) (c : Nat) (f : DramChannel → DramChannel) (r_ : Nat) : (s.modDram c f).ring r_ = s.ring r_ := rfl
@[simp] theorem State.modDram_cmdQ (s : State) (c : Nat) (f : DramChannel → DramChannel) (r_ : Nat) : (s.modDram c f).cmdQ r_ = s.cmdQ r_ := rfl
@[simp] theorem State.modDram_evtQ (s : State) (c : Nat) (f : DramChannel → DramChannel) (n_ : Nat) : (s.modDram c f).evtQ n_ = s.evtQ n_ := rfl
@[simp] theorem State.modDram_window (s : State) (c : Nat) (f : DramChannel → DramChannel) (w_ : Nat) : (s.modDram c f).window w_ = s.window w_ := rfl
@[simp] theorem State.modDram_chan (s : State) (c : Nat) (f : DramChannel → DramChannel) (c_ : Nat) : (s.modDram c f).chan c_ = s.chan c_ := rfl
@[simp] theorem State.modDram_ctx (s : State) (c : Nat) (f : DramChannel → DramChannel) (c_ : Nat) : (s.modDram c f).ctx c_ = s.ctx c_ := rfl
@[simp] theorem State.modDram_engine (s : State) (c : Nat) (f : DramChannel → DramChannel) (e_ : Nat) : (s.modDram c f).engine e_ = s.engine e_ := rfl
@[simp] theorem State.modDram_port (s : State) (c : Nat) (f : DramChannel → DramChannel) (p_ : Nat) : (s.modDram c f).port p_ = s.port p_ := rfl
@[simp] theorem State.modDram_layer (s : State) (c : Nat) (f : DramChannel → DramChannel) (i_ : Nat) : (s.modDram c f).layer i_ = s.layer i_ := rfl
@[simp] theorem State.modDram_head (s : State) (c : Nat) (f : DramChannel → DramChannel) (h_ : Nat) : (s.modDram c f).head h_ = s.head h_ := rfl
@[simp] theorem State.modDram_dpPort (s : State) (c : Nat) (f : DramChannel → DramChannel) (p_ : Nat) : (s.modDram c f).dpPort p_ = s.dpPort p_ := rfl
@[simp] theorem State.modDram_plate (s : State) (c : Nat) (f : DramChannel → DramChannel) (h_ : Nat) : (s.modDram c f).plate h_ = s.plate h_ := rfl
@[simp] theorem State.modDram_session (s : State) (c : Nat) (f : DramChannel → DramChannel) (i_ : Nat) : (s.modDram c f).session i_ = s.session i_ := rfl
@[simp] theorem State.modDram_encoder (s : State) (c : Nat) (f : DramChannel → DramChannel) (e_ : Nat) : (s.modDram c f).encoder e_ = s.encoder e_ := rfl
@[simp] theorem State.modDram_island (s : State) (c : Nat) (f : DramChannel → DramChannel) (i_ : Nat) : (s.modDram c f).island i_ = s.island i_ := rfl
@[simp] theorem State.modDram_panel (s : State) (c : Nat) (f : DramChannel → DramChannel) (t_ : Nat) : (s.modDram c f).panel t_ = s.panel t_ := rfl
@[simp] theorem State.modDram_input (s : State) (c : Nat) (f : DramChannel → DramChannel) (i_ : Nat) : (s.modDram c f).input i_ = s.input i_ := rfl
@[simp] theorem State.modDram_output (s : State) (c : Nat) (f : DramChannel → DramChannel) (o_ : Nat) : (s.modDram c f).output o_ = s.output o_ := rfl
@[simp] theorem State.modDram_quad (s : State) (c : Nat) (f : DramChannel → DramChannel) (q_ : Nat) : (s.modDram c f).quad q_ = s.quad q_ := rfl
@[simp] theorem State.modDram_hostBox (s : State) (c : Nat) (f : DramChannel → DramChannel) (n_ : Nat) : (s.modDram c f).hostBox n_ = s.hostBox n_ := rfl
@[simp] theorem State.modDram_farBox (s : State) (c : Nat) (f : DramChannel → DramChannel) (m_ : Nat) : (s.modDram c f).farBox m_ = s.farBox m_ := rfl
@[simp] theorem State.modDram_member (s : State) (c : Nat) (f : DramChannel → DramChannel) (m_ : Nat) : (s.modDram c f).member m_ = s.member m_ := rfl
@[simp] theorem State.modDram_spineLink (s : State) (c : Nat) (f : DramChannel → DramChannel) (l_ : Nat) : (s.modDram c f).spineLink l_ = s.spineLink l_ := rfl
@[simp] theorem State.modDram_cvUnit (s : State) (c : Nat) (f : DramChannel → DramChannel) (u_ : Nat) : (s.modDram c f).cvUnit u_ = s.cvUnit u_ := rfl
@[simp] theorem State.modDram_zeEngine (s : State) (c : Nat) (f : DramChannel → DramChannel) (e_ : Nat) : (s.modDram c f).zeEngine e_ = s.zeEngine e_ := rfl
@[simp] theorem State.modDram_mapOf (s : State) (c : Nat) (f : DramChannel → DramChannel) (r_ : Nat) : (s.modDram c f).mapOf r_ = s.mapOf r_ := rfl
@[simp] theorem State.modDram_self (s : State) (c : Nat) (f : DramChannel → DramChannel) (hlt : c < s.store.ch.length) : (s.modDram c f).dram c = f (s.dram c) :=
  getD_modify_self _ _ _ _ hlt
theorem State.modDram_other (s : State) (c : Nat) (f : DramChannel → DramChannel) (j_ : Nat) (hne : c ≠ j_) : (s.modDram c f).dram j_ = s.dram j_ :=
  getD_modify_other _ _ _ _ _ hne

@[simp] theorem State.modPanel_tb (s : State) (t : Nat) (f : Panel → Panel) : (s.modPanel t f).tb = s.tb := rfl
@[simp] theorem State.modPanel_top (s : State) (t : Nat) (f : Panel → Panel) : (s.modPanel t f).top = s.top := rfl
@[simp] theorem State.modPanel_host (s : State) (t : Nat) (f : Panel → Panel) : (s.modPanel t f).host = s.host := rfl
@[simp] theorem State.modPanel_net (s : State) (t : Nat) (f : Panel → Panel) : (s.modPanel t f).net = s.net := rfl
@[simp] theorem State.modPanel_dec (s : State) (t : Nat) (f : Panel → Panel) : (s.modPanel t f).dec = s.dec := rfl
@[simp] theorem State.modPanel_comp (s : State) (t : Nat) (f : Panel → Panel) : (s.modPanel t f).comp = s.comp := rfl
@[simp] theorem State.modPanel_enc (s : State) (t : Nat) (f : Panel → Panel) : (s.modPanel t f).enc = s.enc := rfl
@[simp] theorem State.modPanel_fab (s : State) (t : Nat) (f : Panel → Panel) : (s.modPanel t f).fab = s.fab := rfl
@[simp] theorem State.modPanel_store (s : State) (t : Nat) (f : Panel → Panel) : (s.modPanel t f).store = s.store := rfl
@[simp] theorem State.modPanel_sec (s : State) (t : Nat) (f : Panel → Panel) : (s.modPanel t f).sec = s.sec := rfl
@[simp] theorem State.modPanel_mail (s : State) (t : Nat) (f : Panel → Panel) : (s.modPanel t f).mail = s.mail := rfl
@[simp] theorem State.modPanel_gath (s : State) (t : Nat) (f : Panel → Panel) : (s.modPanel t f).gath = s.gath := rfl
@[simp] theorem State.modPanel_twin (s : State) (t : Nat) (f : Panel → Panel) : (s.modPanel t f).twin = s.twin := rfl
@[simp] theorem State.modPanel_pwr (s : State) (t : Nat) (f : Panel → Panel) : (s.modPanel t f).pwr = s.pwr := rfl
@[simp] theorem State.modPanel_lanes (s : State) (t : Nat) (f : Panel → Panel) : (s.modPanel t f).lanes = s.lanes := rfl
@[simp] theorem State.modPanel_flt (s : State) (t : Nat) (f : Panel → Panel) : (s.modPanel t f).flt = s.flt := rfl
@[simp] theorem State.modPanel_svc (s : State) (t : Nat) (f : Panel → Panel) : (s.modPanel t f).svc = s.svc := rfl
@[simp] theorem State.modPanel_jrn (s : State) (t : Nat) (f : Panel → Panel) : (s.modPanel t f).jrn = s.jrn := rfl
@[simp] theorem State.modPanel_pending (s : State) (t : Nat) (f : Panel → Panel) : (s.modPanel t f).pending = s.pending := rfl
@[simp] theorem State.modPanel_desk_input (s : State) (t : Nat) (f : Panel → Panel) : (s.modPanel t f).desk.input = s.desk.input := rfl
@[simp] theorem State.modPanel_desk_output (s : State) (t : Nat) (f : Panel → Panel) : (s.modPanel t f).desk.output = s.desk.output := rfl
@[simp] theorem State.modPanel_desk_mirrorAt (s : State) (t : Nat) (f : Panel → Panel) : (s.modPanel t f).desk.mirrorAt = s.desk.mirrorAt := rfl
@[simp] theorem State.modPanel_ring (s : State) (t : Nat) (f : Panel → Panel) (r_ : Nat) : (s.modPanel t f).ring r_ = s.ring r_ := rfl
@[simp] theorem State.modPanel_cmdQ (s : State) (t : Nat) (f : Panel → Panel) (r_ : Nat) : (s.modPanel t f).cmdQ r_ = s.cmdQ r_ := rfl
@[simp] theorem State.modPanel_evtQ (s : State) (t : Nat) (f : Panel → Panel) (n_ : Nat) : (s.modPanel t f).evtQ n_ = s.evtQ n_ := rfl
@[simp] theorem State.modPanel_window (s : State) (t : Nat) (f : Panel → Panel) (w_ : Nat) : (s.modPanel t f).window w_ = s.window w_ := rfl
@[simp] theorem State.modPanel_chan (s : State) (t : Nat) (f : Panel → Panel) (c_ : Nat) : (s.modPanel t f).chan c_ = s.chan c_ := rfl
@[simp] theorem State.modPanel_ctx (s : State) (t : Nat) (f : Panel → Panel) (c_ : Nat) : (s.modPanel t f).ctx c_ = s.ctx c_ := rfl
@[simp] theorem State.modPanel_engine (s : State) (t : Nat) (f : Panel → Panel) (e_ : Nat) : (s.modPanel t f).engine e_ = s.engine e_ := rfl
@[simp] theorem State.modPanel_port (s : State) (t : Nat) (f : Panel → Panel) (p_ : Nat) : (s.modPanel t f).port p_ = s.port p_ := rfl
@[simp] theorem State.modPanel_layer (s : State) (t : Nat) (f : Panel → Panel) (i_ : Nat) : (s.modPanel t f).layer i_ = s.layer i_ := rfl
@[simp] theorem State.modPanel_head (s : State) (t : Nat) (f : Panel → Panel) (h_ : Nat) : (s.modPanel t f).head h_ = s.head h_ := rfl
@[simp] theorem State.modPanel_dpPort (s : State) (t : Nat) (f : Panel → Panel) (p_ : Nat) : (s.modPanel t f).dpPort p_ = s.dpPort p_ := rfl
@[simp] theorem State.modPanel_plate (s : State) (t : Nat) (f : Panel → Panel) (h_ : Nat) : (s.modPanel t f).plate h_ = s.plate h_ := rfl
@[simp] theorem State.modPanel_session (s : State) (t : Nat) (f : Panel → Panel) (i_ : Nat) : (s.modPanel t f).session i_ = s.session i_ := rfl
@[simp] theorem State.modPanel_encoder (s : State) (t : Nat) (f : Panel → Panel) (e_ : Nat) : (s.modPanel t f).encoder e_ = s.encoder e_ := rfl
@[simp] theorem State.modPanel_island (s : State) (t : Nat) (f : Panel → Panel) (i_ : Nat) : (s.modPanel t f).island i_ = s.island i_ := rfl
@[simp] theorem State.modPanel_dram (s : State) (t : Nat) (f : Panel → Panel) (c_ : Nat) : (s.modPanel t f).dram c_ = s.dram c_ := rfl
@[simp] theorem State.modPanel_input (s : State) (t : Nat) (f : Panel → Panel) (i_ : Nat) : (s.modPanel t f).input i_ = s.input i_ := rfl
@[simp] theorem State.modPanel_output (s : State) (t : Nat) (f : Panel → Panel) (o_ : Nat) : (s.modPanel t f).output o_ = s.output o_ := rfl
@[simp] theorem State.modPanel_quad (s : State) (t : Nat) (f : Panel → Panel) (q_ : Nat) : (s.modPanel t f).quad q_ = s.quad q_ := rfl
@[simp] theorem State.modPanel_hostBox (s : State) (t : Nat) (f : Panel → Panel) (n_ : Nat) : (s.modPanel t f).hostBox n_ = s.hostBox n_ := rfl
@[simp] theorem State.modPanel_farBox (s : State) (t : Nat) (f : Panel → Panel) (m_ : Nat) : (s.modPanel t f).farBox m_ = s.farBox m_ := rfl
@[simp] theorem State.modPanel_member (s : State) (t : Nat) (f : Panel → Panel) (m_ : Nat) : (s.modPanel t f).member m_ = s.member m_ := rfl
@[simp] theorem State.modPanel_spineLink (s : State) (t : Nat) (f : Panel → Panel) (l_ : Nat) : (s.modPanel t f).spineLink l_ = s.spineLink l_ := rfl
@[simp] theorem State.modPanel_cvUnit (s : State) (t : Nat) (f : Panel → Panel) (u_ : Nat) : (s.modPanel t f).cvUnit u_ = s.cvUnit u_ := rfl
@[simp] theorem State.modPanel_zeEngine (s : State) (t : Nat) (f : Panel → Panel) (e_ : Nat) : (s.modPanel t f).zeEngine e_ = s.zeEngine e_ := rfl
@[simp] theorem State.modPanel_mapOf (s : State) (t : Nat) (f : Panel → Panel) (r_ : Nat) : (s.modPanel t f).mapOf r_ = s.mapOf r_ := rfl
@[simp] theorem State.modPanel_self (s : State) (t : Nat) (f : Panel → Panel) (hlt : t < s.desk.panel.length) : (s.modPanel t f).panel t = f (s.panel t) :=
  getD_modify_self _ _ _ _ hlt
theorem State.modPanel_other (s : State) (t : Nat) (f : Panel → Panel) (j_ : Nat) (hne : t ≠ j_) : (s.modPanel t f).panel j_ = s.panel j_ :=
  getD_modify_other _ _ _ _ _ hne

@[simp] theorem State.modInput_tb (s : State) (i : Nat) (f : ConIn → ConIn) : (s.modInput i f).tb = s.tb := rfl
@[simp] theorem State.modInput_top (s : State) (i : Nat) (f : ConIn → ConIn) : (s.modInput i f).top = s.top := rfl
@[simp] theorem State.modInput_host (s : State) (i : Nat) (f : ConIn → ConIn) : (s.modInput i f).host = s.host := rfl
@[simp] theorem State.modInput_net (s : State) (i : Nat) (f : ConIn → ConIn) : (s.modInput i f).net = s.net := rfl
@[simp] theorem State.modInput_dec (s : State) (i : Nat) (f : ConIn → ConIn) : (s.modInput i f).dec = s.dec := rfl
@[simp] theorem State.modInput_comp (s : State) (i : Nat) (f : ConIn → ConIn) : (s.modInput i f).comp = s.comp := rfl
@[simp] theorem State.modInput_enc (s : State) (i : Nat) (f : ConIn → ConIn) : (s.modInput i f).enc = s.enc := rfl
@[simp] theorem State.modInput_fab (s : State) (i : Nat) (f : ConIn → ConIn) : (s.modInput i f).fab = s.fab := rfl
@[simp] theorem State.modInput_store (s : State) (i : Nat) (f : ConIn → ConIn) : (s.modInput i f).store = s.store := rfl
@[simp] theorem State.modInput_sec (s : State) (i : Nat) (f : ConIn → ConIn) : (s.modInput i f).sec = s.sec := rfl
@[simp] theorem State.modInput_mail (s : State) (i : Nat) (f : ConIn → ConIn) : (s.modInput i f).mail = s.mail := rfl
@[simp] theorem State.modInput_gath (s : State) (i : Nat) (f : ConIn → ConIn) : (s.modInput i f).gath = s.gath := rfl
@[simp] theorem State.modInput_twin (s : State) (i : Nat) (f : ConIn → ConIn) : (s.modInput i f).twin = s.twin := rfl
@[simp] theorem State.modInput_pwr (s : State) (i : Nat) (f : ConIn → ConIn) : (s.modInput i f).pwr = s.pwr := rfl
@[simp] theorem State.modInput_lanes (s : State) (i : Nat) (f : ConIn → ConIn) : (s.modInput i f).lanes = s.lanes := rfl
@[simp] theorem State.modInput_flt (s : State) (i : Nat) (f : ConIn → ConIn) : (s.modInput i f).flt = s.flt := rfl
@[simp] theorem State.modInput_svc (s : State) (i : Nat) (f : ConIn → ConIn) : (s.modInput i f).svc = s.svc := rfl
@[simp] theorem State.modInput_jrn (s : State) (i : Nat) (f : ConIn → ConIn) : (s.modInput i f).jrn = s.jrn := rfl
@[simp] theorem State.modInput_pending (s : State) (i : Nat) (f : ConIn → ConIn) : (s.modInput i f).pending = s.pending := rfl
@[simp] theorem State.modInput_desk_panel (s : State) (i : Nat) (f : ConIn → ConIn) : (s.modInput i f).desk.panel = s.desk.panel := rfl
@[simp] theorem State.modInput_desk_output (s : State) (i : Nat) (f : ConIn → ConIn) : (s.modInput i f).desk.output = s.desk.output := rfl
@[simp] theorem State.modInput_desk_mirrorAt (s : State) (i : Nat) (f : ConIn → ConIn) : (s.modInput i f).desk.mirrorAt = s.desk.mirrorAt := rfl
@[simp] theorem State.modInput_ring (s : State) (i : Nat) (f : ConIn → ConIn) (r_ : Nat) : (s.modInput i f).ring r_ = s.ring r_ := rfl
@[simp] theorem State.modInput_cmdQ (s : State) (i : Nat) (f : ConIn → ConIn) (r_ : Nat) : (s.modInput i f).cmdQ r_ = s.cmdQ r_ := rfl
@[simp] theorem State.modInput_evtQ (s : State) (i : Nat) (f : ConIn → ConIn) (n_ : Nat) : (s.modInput i f).evtQ n_ = s.evtQ n_ := rfl
@[simp] theorem State.modInput_window (s : State) (i : Nat) (f : ConIn → ConIn) (w_ : Nat) : (s.modInput i f).window w_ = s.window w_ := rfl
@[simp] theorem State.modInput_chan (s : State) (i : Nat) (f : ConIn → ConIn) (c_ : Nat) : (s.modInput i f).chan c_ = s.chan c_ := rfl
@[simp] theorem State.modInput_ctx (s : State) (i : Nat) (f : ConIn → ConIn) (c_ : Nat) : (s.modInput i f).ctx c_ = s.ctx c_ := rfl
@[simp] theorem State.modInput_engine (s : State) (i : Nat) (f : ConIn → ConIn) (e_ : Nat) : (s.modInput i f).engine e_ = s.engine e_ := rfl
@[simp] theorem State.modInput_port (s : State) (i : Nat) (f : ConIn → ConIn) (p_ : Nat) : (s.modInput i f).port p_ = s.port p_ := rfl
@[simp] theorem State.modInput_layer (s : State) (i : Nat) (f : ConIn → ConIn) (i_ : Nat) : (s.modInput i f).layer i_ = s.layer i_ := rfl
@[simp] theorem State.modInput_head (s : State) (i : Nat) (f : ConIn → ConIn) (h_ : Nat) : (s.modInput i f).head h_ = s.head h_ := rfl
@[simp] theorem State.modInput_dpPort (s : State) (i : Nat) (f : ConIn → ConIn) (p_ : Nat) : (s.modInput i f).dpPort p_ = s.dpPort p_ := rfl
@[simp] theorem State.modInput_plate (s : State) (i : Nat) (f : ConIn → ConIn) (h_ : Nat) : (s.modInput i f).plate h_ = s.plate h_ := rfl
@[simp] theorem State.modInput_session (s : State) (i : Nat) (f : ConIn → ConIn) (i_ : Nat) : (s.modInput i f).session i_ = s.session i_ := rfl
@[simp] theorem State.modInput_encoder (s : State) (i : Nat) (f : ConIn → ConIn) (e_ : Nat) : (s.modInput i f).encoder e_ = s.encoder e_ := rfl
@[simp] theorem State.modInput_island (s : State) (i : Nat) (f : ConIn → ConIn) (i_ : Nat) : (s.modInput i f).island i_ = s.island i_ := rfl
@[simp] theorem State.modInput_dram (s : State) (i : Nat) (f : ConIn → ConIn) (c_ : Nat) : (s.modInput i f).dram c_ = s.dram c_ := rfl
@[simp] theorem State.modInput_panel (s : State) (i : Nat) (f : ConIn → ConIn) (t_ : Nat) : (s.modInput i f).panel t_ = s.panel t_ := rfl
@[simp] theorem State.modInput_output (s : State) (i : Nat) (f : ConIn → ConIn) (o_ : Nat) : (s.modInput i f).output o_ = s.output o_ := rfl
@[simp] theorem State.modInput_quad (s : State) (i : Nat) (f : ConIn → ConIn) (q_ : Nat) : (s.modInput i f).quad q_ = s.quad q_ := rfl
@[simp] theorem State.modInput_hostBox (s : State) (i : Nat) (f : ConIn → ConIn) (n_ : Nat) : (s.modInput i f).hostBox n_ = s.hostBox n_ := rfl
@[simp] theorem State.modInput_farBox (s : State) (i : Nat) (f : ConIn → ConIn) (m_ : Nat) : (s.modInput i f).farBox m_ = s.farBox m_ := rfl
@[simp] theorem State.modInput_member (s : State) (i : Nat) (f : ConIn → ConIn) (m_ : Nat) : (s.modInput i f).member m_ = s.member m_ := rfl
@[simp] theorem State.modInput_spineLink (s : State) (i : Nat) (f : ConIn → ConIn) (l_ : Nat) : (s.modInput i f).spineLink l_ = s.spineLink l_ := rfl
@[simp] theorem State.modInput_cvUnit (s : State) (i : Nat) (f : ConIn → ConIn) (u_ : Nat) : (s.modInput i f).cvUnit u_ = s.cvUnit u_ := rfl
@[simp] theorem State.modInput_zeEngine (s : State) (i : Nat) (f : ConIn → ConIn) (e_ : Nat) : (s.modInput i f).zeEngine e_ = s.zeEngine e_ := rfl
@[simp] theorem State.modInput_mapOf (s : State) (i : Nat) (f : ConIn → ConIn) (r_ : Nat) : (s.modInput i f).mapOf r_ = s.mapOf r_ := rfl
@[simp] theorem State.modInput_self (s : State) (i : Nat) (f : ConIn → ConIn) (hlt : i < s.desk.input.length) : (s.modInput i f).input i = f (s.input i) :=
  getD_modify_self _ _ _ _ hlt
theorem State.modInput_other (s : State) (i : Nat) (f : ConIn → ConIn) (j_ : Nat) (hne : i ≠ j_) : (s.modInput i f).input j_ = s.input j_ :=
  getD_modify_other _ _ _ _ _ hne

@[simp] theorem State.modOutput_tb (s : State) (o : Nat) (f : ConOut → ConOut) : (s.modOutput o f).tb = s.tb := rfl
@[simp] theorem State.modOutput_top (s : State) (o : Nat) (f : ConOut → ConOut) : (s.modOutput o f).top = s.top := rfl
@[simp] theorem State.modOutput_host (s : State) (o : Nat) (f : ConOut → ConOut) : (s.modOutput o f).host = s.host := rfl
@[simp] theorem State.modOutput_net (s : State) (o : Nat) (f : ConOut → ConOut) : (s.modOutput o f).net = s.net := rfl
@[simp] theorem State.modOutput_dec (s : State) (o : Nat) (f : ConOut → ConOut) : (s.modOutput o f).dec = s.dec := rfl
@[simp] theorem State.modOutput_comp (s : State) (o : Nat) (f : ConOut → ConOut) : (s.modOutput o f).comp = s.comp := rfl
@[simp] theorem State.modOutput_enc (s : State) (o : Nat) (f : ConOut → ConOut) : (s.modOutput o f).enc = s.enc := rfl
@[simp] theorem State.modOutput_fab (s : State) (o : Nat) (f : ConOut → ConOut) : (s.modOutput o f).fab = s.fab := rfl
@[simp] theorem State.modOutput_store (s : State) (o : Nat) (f : ConOut → ConOut) : (s.modOutput o f).store = s.store := rfl
@[simp] theorem State.modOutput_sec (s : State) (o : Nat) (f : ConOut → ConOut) : (s.modOutput o f).sec = s.sec := rfl
@[simp] theorem State.modOutput_mail (s : State) (o : Nat) (f : ConOut → ConOut) : (s.modOutput o f).mail = s.mail := rfl
@[simp] theorem State.modOutput_gath (s : State) (o : Nat) (f : ConOut → ConOut) : (s.modOutput o f).gath = s.gath := rfl
@[simp] theorem State.modOutput_twin (s : State) (o : Nat) (f : ConOut → ConOut) : (s.modOutput o f).twin = s.twin := rfl
@[simp] theorem State.modOutput_pwr (s : State) (o : Nat) (f : ConOut → ConOut) : (s.modOutput o f).pwr = s.pwr := rfl
@[simp] theorem State.modOutput_lanes (s : State) (o : Nat) (f : ConOut → ConOut) : (s.modOutput o f).lanes = s.lanes := rfl
@[simp] theorem State.modOutput_flt (s : State) (o : Nat) (f : ConOut → ConOut) : (s.modOutput o f).flt = s.flt := rfl
@[simp] theorem State.modOutput_svc (s : State) (o : Nat) (f : ConOut → ConOut) : (s.modOutput o f).svc = s.svc := rfl
@[simp] theorem State.modOutput_jrn (s : State) (o : Nat) (f : ConOut → ConOut) : (s.modOutput o f).jrn = s.jrn := rfl
@[simp] theorem State.modOutput_pending (s : State) (o : Nat) (f : ConOut → ConOut) : (s.modOutput o f).pending = s.pending := rfl
@[simp] theorem State.modOutput_desk_panel (s : State) (o : Nat) (f : ConOut → ConOut) : (s.modOutput o f).desk.panel = s.desk.panel := rfl
@[simp] theorem State.modOutput_desk_input (s : State) (o : Nat) (f : ConOut → ConOut) : (s.modOutput o f).desk.input = s.desk.input := rfl
@[simp] theorem State.modOutput_desk_mirrorAt (s : State) (o : Nat) (f : ConOut → ConOut) : (s.modOutput o f).desk.mirrorAt = s.desk.mirrorAt := rfl
@[simp] theorem State.modOutput_ring (s : State) (o : Nat) (f : ConOut → ConOut) (r_ : Nat) : (s.modOutput o f).ring r_ = s.ring r_ := rfl
@[simp] theorem State.modOutput_cmdQ (s : State) (o : Nat) (f : ConOut → ConOut) (r_ : Nat) : (s.modOutput o f).cmdQ r_ = s.cmdQ r_ := rfl
@[simp] theorem State.modOutput_evtQ (s : State) (o : Nat) (f : ConOut → ConOut) (n_ : Nat) : (s.modOutput o f).evtQ n_ = s.evtQ n_ := rfl
@[simp] theorem State.modOutput_window (s : State) (o : Nat) (f : ConOut → ConOut) (w_ : Nat) : (s.modOutput o f).window w_ = s.window w_ := rfl
@[simp] theorem State.modOutput_chan (s : State) (o : Nat) (f : ConOut → ConOut) (c_ : Nat) : (s.modOutput o f).chan c_ = s.chan c_ := rfl
@[simp] theorem State.modOutput_ctx (s : State) (o : Nat) (f : ConOut → ConOut) (c_ : Nat) : (s.modOutput o f).ctx c_ = s.ctx c_ := rfl
@[simp] theorem State.modOutput_engine (s : State) (o : Nat) (f : ConOut → ConOut) (e_ : Nat) : (s.modOutput o f).engine e_ = s.engine e_ := rfl
@[simp] theorem State.modOutput_port (s : State) (o : Nat) (f : ConOut → ConOut) (p_ : Nat) : (s.modOutput o f).port p_ = s.port p_ := rfl
@[simp] theorem State.modOutput_layer (s : State) (o : Nat) (f : ConOut → ConOut) (i_ : Nat) : (s.modOutput o f).layer i_ = s.layer i_ := rfl
@[simp] theorem State.modOutput_head (s : State) (o : Nat) (f : ConOut → ConOut) (h_ : Nat) : (s.modOutput o f).head h_ = s.head h_ := rfl
@[simp] theorem State.modOutput_dpPort (s : State) (o : Nat) (f : ConOut → ConOut) (p_ : Nat) : (s.modOutput o f).dpPort p_ = s.dpPort p_ := rfl
@[simp] theorem State.modOutput_plate (s : State) (o : Nat) (f : ConOut → ConOut) (h_ : Nat) : (s.modOutput o f).plate h_ = s.plate h_ := rfl
@[simp] theorem State.modOutput_session (s : State) (o : Nat) (f : ConOut → ConOut) (i_ : Nat) : (s.modOutput o f).session i_ = s.session i_ := rfl
@[simp] theorem State.modOutput_encoder (s : State) (o : Nat) (f : ConOut → ConOut) (e_ : Nat) : (s.modOutput o f).encoder e_ = s.encoder e_ := rfl
@[simp] theorem State.modOutput_island (s : State) (o : Nat) (f : ConOut → ConOut) (i_ : Nat) : (s.modOutput o f).island i_ = s.island i_ := rfl
@[simp] theorem State.modOutput_dram (s : State) (o : Nat) (f : ConOut → ConOut) (c_ : Nat) : (s.modOutput o f).dram c_ = s.dram c_ := rfl
@[simp] theorem State.modOutput_panel (s : State) (o : Nat) (f : ConOut → ConOut) (t_ : Nat) : (s.modOutput o f).panel t_ = s.panel t_ := rfl
@[simp] theorem State.modOutput_input (s : State) (o : Nat) (f : ConOut → ConOut) (i_ : Nat) : (s.modOutput o f).input i_ = s.input i_ := rfl
@[simp] theorem State.modOutput_quad (s : State) (o : Nat) (f : ConOut → ConOut) (q_ : Nat) : (s.modOutput o f).quad q_ = s.quad q_ := rfl
@[simp] theorem State.modOutput_hostBox (s : State) (o : Nat) (f : ConOut → ConOut) (n_ : Nat) : (s.modOutput o f).hostBox n_ = s.hostBox n_ := rfl
@[simp] theorem State.modOutput_farBox (s : State) (o : Nat) (f : ConOut → ConOut) (m_ : Nat) : (s.modOutput o f).farBox m_ = s.farBox m_ := rfl
@[simp] theorem State.modOutput_member (s : State) (o : Nat) (f : ConOut → ConOut) (m_ : Nat) : (s.modOutput o f).member m_ = s.member m_ := rfl
@[simp] theorem State.modOutput_spineLink (s : State) (o : Nat) (f : ConOut → ConOut) (l_ : Nat) : (s.modOutput o f).spineLink l_ = s.spineLink l_ := rfl
@[simp] theorem State.modOutput_cvUnit (s : State) (o : Nat) (f : ConOut → ConOut) (u_ : Nat) : (s.modOutput o f).cvUnit u_ = s.cvUnit u_ := rfl
@[simp] theorem State.modOutput_zeEngine (s : State) (o : Nat) (f : ConOut → ConOut) (e_ : Nat) : (s.modOutput o f).zeEngine e_ = s.zeEngine e_ := rfl
@[simp] theorem State.modOutput_mapOf (s : State) (o : Nat) (f : ConOut → ConOut) (r_ : Nat) : (s.modOutput o f).mapOf r_ = s.mapOf r_ := rfl
@[simp] theorem State.modOutput_self (s : State) (o : Nat) (f : ConOut → ConOut) (hlt : o < s.desk.output.length) : (s.modOutput o f).output o = f (s.output o) :=
  getD_modify_self _ _ _ _ hlt
theorem State.modOutput_other (s : State) (o : Nat) (f : ConOut → ConOut) (j_ : Nat) (hne : o ≠ j_) : (s.modOutput o f).output j_ = s.output j_ :=
  getD_modify_other _ _ _ _ _ hne

@[simp] theorem State.modQuad_tb (s : State) (q : Nat) (f : Quad → Quad) : (s.modQuad q f).tb = s.tb := rfl
@[simp] theorem State.modQuad_top (s : State) (q : Nat) (f : Quad → Quad) : (s.modQuad q f).top = s.top := rfl
@[simp] theorem State.modQuad_host (s : State) (q : Nat) (f : Quad → Quad) : (s.modQuad q f).host = s.host := rfl
@[simp] theorem State.modQuad_net (s : State) (q : Nat) (f : Quad → Quad) : (s.modQuad q f).net = s.net := rfl
@[simp] theorem State.modQuad_dec (s : State) (q : Nat) (f : Quad → Quad) : (s.modQuad q f).dec = s.dec := rfl
@[simp] theorem State.modQuad_comp (s : State) (q : Nat) (f : Quad → Quad) : (s.modQuad q f).comp = s.comp := rfl
@[simp] theorem State.modQuad_enc (s : State) (q : Nat) (f : Quad → Quad) : (s.modQuad q f).enc = s.enc := rfl
@[simp] theorem State.modQuad_fab (s : State) (q : Nat) (f : Quad → Quad) : (s.modQuad q f).fab = s.fab := rfl
@[simp] theorem State.modQuad_store (s : State) (q : Nat) (f : Quad → Quad) : (s.modQuad q f).store = s.store := rfl
@[simp] theorem State.modQuad_sec (s : State) (q : Nat) (f : Quad → Quad) : (s.modQuad q f).sec = s.sec := rfl
@[simp] theorem State.modQuad_mail (s : State) (q : Nat) (f : Quad → Quad) : (s.modQuad q f).mail = s.mail := rfl
@[simp] theorem State.modQuad_gath (s : State) (q : Nat) (f : Quad → Quad) : (s.modQuad q f).gath = s.gath := rfl
@[simp] theorem State.modQuad_twin (s : State) (q : Nat) (f : Quad → Quad) : (s.modQuad q f).twin = s.twin := rfl
@[simp] theorem State.modQuad_desk (s : State) (q : Nat) (f : Quad → Quad) : (s.modQuad q f).desk = s.desk := rfl
@[simp] theorem State.modQuad_pwr (s : State) (q : Nat) (f : Quad → Quad) : (s.modQuad q f).pwr = s.pwr := rfl
@[simp] theorem State.modQuad_flt (s : State) (q : Nat) (f : Quad → Quad) : (s.modQuad q f).flt = s.flt := rfl
@[simp] theorem State.modQuad_svc (s : State) (q : Nat) (f : Quad → Quad) : (s.modQuad q f).svc = s.svc := rfl
@[simp] theorem State.modQuad_jrn (s : State) (q : Nat) (f : Quad → Quad) : (s.modQuad q f).jrn = s.jrn := rfl
@[simp] theorem State.modQuad_pending (s : State) (q : Nat) (f : Quad → Quad) : (s.modQuad q f).pending = s.pending := rfl
@[simp] theorem State.modQuad_lanes_watch (s : State) (q : Nat) (f : Quad → Quad) : (s.modQuad q f).lanes.watch = s.lanes.watch := rfl
@[simp] theorem State.modQuad_ring (s : State) (q : Nat) (f : Quad → Quad) (r_ : Nat) : (s.modQuad q f).ring r_ = s.ring r_ := rfl
@[simp] theorem State.modQuad_cmdQ (s : State) (q : Nat) (f : Quad → Quad) (r_ : Nat) : (s.modQuad q f).cmdQ r_ = s.cmdQ r_ := rfl
@[simp] theorem State.modQuad_evtQ (s : State) (q : Nat) (f : Quad → Quad) (n_ : Nat) : (s.modQuad q f).evtQ n_ = s.evtQ n_ := rfl
@[simp] theorem State.modQuad_window (s : State) (q : Nat) (f : Quad → Quad) (w_ : Nat) : (s.modQuad q f).window w_ = s.window w_ := rfl
@[simp] theorem State.modQuad_chan (s : State) (q : Nat) (f : Quad → Quad) (c_ : Nat) : (s.modQuad q f).chan c_ = s.chan c_ := rfl
@[simp] theorem State.modQuad_ctx (s : State) (q : Nat) (f : Quad → Quad) (c_ : Nat) : (s.modQuad q f).ctx c_ = s.ctx c_ := rfl
@[simp] theorem State.modQuad_engine (s : State) (q : Nat) (f : Quad → Quad) (e_ : Nat) : (s.modQuad q f).engine e_ = s.engine e_ := rfl
@[simp] theorem State.modQuad_port (s : State) (q : Nat) (f : Quad → Quad) (p_ : Nat) : (s.modQuad q f).port p_ = s.port p_ := rfl
@[simp] theorem State.modQuad_layer (s : State) (q : Nat) (f : Quad → Quad) (i_ : Nat) : (s.modQuad q f).layer i_ = s.layer i_ := rfl
@[simp] theorem State.modQuad_head (s : State) (q : Nat) (f : Quad → Quad) (h_ : Nat) : (s.modQuad q f).head h_ = s.head h_ := rfl
@[simp] theorem State.modQuad_dpPort (s : State) (q : Nat) (f : Quad → Quad) (p_ : Nat) : (s.modQuad q f).dpPort p_ = s.dpPort p_ := rfl
@[simp] theorem State.modQuad_plate (s : State) (q : Nat) (f : Quad → Quad) (h_ : Nat) : (s.modQuad q f).plate h_ = s.plate h_ := rfl
@[simp] theorem State.modQuad_session (s : State) (q : Nat) (f : Quad → Quad) (i_ : Nat) : (s.modQuad q f).session i_ = s.session i_ := rfl
@[simp] theorem State.modQuad_encoder (s : State) (q : Nat) (f : Quad → Quad) (e_ : Nat) : (s.modQuad q f).encoder e_ = s.encoder e_ := rfl
@[simp] theorem State.modQuad_island (s : State) (q : Nat) (f : Quad → Quad) (i_ : Nat) : (s.modQuad q f).island i_ = s.island i_ := rfl
@[simp] theorem State.modQuad_dram (s : State) (q : Nat) (f : Quad → Quad) (c_ : Nat) : (s.modQuad q f).dram c_ = s.dram c_ := rfl
@[simp] theorem State.modQuad_panel (s : State) (q : Nat) (f : Quad → Quad) (t_ : Nat) : (s.modQuad q f).panel t_ = s.panel t_ := rfl
@[simp] theorem State.modQuad_input (s : State) (q : Nat) (f : Quad → Quad) (i_ : Nat) : (s.modQuad q f).input i_ = s.input i_ := rfl
@[simp] theorem State.modQuad_output (s : State) (q : Nat) (f : Quad → Quad) (o_ : Nat) : (s.modQuad q f).output o_ = s.output o_ := rfl
@[simp] theorem State.modQuad_hostBox (s : State) (q : Nat) (f : Quad → Quad) (n_ : Nat) : (s.modQuad q f).hostBox n_ = s.hostBox n_ := rfl
@[simp] theorem State.modQuad_farBox (s : State) (q : Nat) (f : Quad → Quad) (m_ : Nat) : (s.modQuad q f).farBox m_ = s.farBox m_ := rfl
@[simp] theorem State.modQuad_member (s : State) (q : Nat) (f : Quad → Quad) (m_ : Nat) : (s.modQuad q f).member m_ = s.member m_ := rfl
@[simp] theorem State.modQuad_spineLink (s : State) (q : Nat) (f : Quad → Quad) (l_ : Nat) : (s.modQuad q f).spineLink l_ = s.spineLink l_ := rfl
@[simp] theorem State.modQuad_cvUnit (s : State) (q : Nat) (f : Quad → Quad) (u_ : Nat) : (s.modQuad q f).cvUnit u_ = s.cvUnit u_ := rfl
@[simp] theorem State.modQuad_zeEngine (s : State) (q : Nat) (f : Quad → Quad) (e_ : Nat) : (s.modQuad q f).zeEngine e_ = s.zeEngine e_ := rfl
@[simp] theorem State.modQuad_mapOf (s : State) (q : Nat) (f : Quad → Quad) (r_ : Nat) : (s.modQuad q f).mapOf r_ = s.mapOf r_ := rfl
@[simp] theorem State.modQuad_self (s : State) (q : Nat) (f : Quad → Quad) (hlt : q < s.lanes.quad.length) : (s.modQuad q f).quad q = f (s.quad q) :=
  getD_modify_self _ _ _ _ hlt
theorem State.modQuad_other (s : State) (q : Nat) (f : Quad → Quad) (j_ : Nat) (hne : q ≠ j_) : (s.modQuad q f).quad j_ = s.quad j_ :=
  getD_modify_other _ _ _ _ _ hne

@[simp] theorem State.modHostBox_tb (s : State) (n : Nat) (f : HostBox → HostBox) : (s.modHostBox n f).tb = s.tb := rfl
@[simp] theorem State.modHostBox_top (s : State) (n : Nat) (f : HostBox → HostBox) : (s.modHostBox n f).top = s.top := rfl
@[simp] theorem State.modHostBox_host (s : State) (n : Nat) (f : HostBox → HostBox) : (s.modHostBox n f).host = s.host := rfl
@[simp] theorem State.modHostBox_net (s : State) (n : Nat) (f : HostBox → HostBox) : (s.modHostBox n f).net = s.net := rfl
@[simp] theorem State.modHostBox_dec (s : State) (n : Nat) (f : HostBox → HostBox) : (s.modHostBox n f).dec = s.dec := rfl
@[simp] theorem State.modHostBox_comp (s : State) (n : Nat) (f : HostBox → HostBox) : (s.modHostBox n f).comp = s.comp := rfl
@[simp] theorem State.modHostBox_enc (s : State) (n : Nat) (f : HostBox → HostBox) : (s.modHostBox n f).enc = s.enc := rfl
@[simp] theorem State.modHostBox_fab (s : State) (n : Nat) (f : HostBox → HostBox) : (s.modHostBox n f).fab = s.fab := rfl
@[simp] theorem State.modHostBox_store (s : State) (n : Nat) (f : HostBox → HostBox) : (s.modHostBox n f).store = s.store := rfl
@[simp] theorem State.modHostBox_sec (s : State) (n : Nat) (f : HostBox → HostBox) : (s.modHostBox n f).sec = s.sec := rfl
@[simp] theorem State.modHostBox_gath (s : State) (n : Nat) (f : HostBox → HostBox) : (s.modHostBox n f).gath = s.gath := rfl
@[simp] theorem State.modHostBox_twin (s : State) (n : Nat) (f : HostBox → HostBox) : (s.modHostBox n f).twin = s.twin := rfl
@[simp] theorem State.modHostBox_desk (s : State) (n : Nat) (f : HostBox → HostBox) : (s.modHostBox n f).desk = s.desk := rfl
@[simp] theorem State.modHostBox_pwr (s : State) (n : Nat) (f : HostBox → HostBox) : (s.modHostBox n f).pwr = s.pwr := rfl
@[simp] theorem State.modHostBox_lanes (s : State) (n : Nat) (f : HostBox → HostBox) : (s.modHostBox n f).lanes = s.lanes := rfl
@[simp] theorem State.modHostBox_flt (s : State) (n : Nat) (f : HostBox → HostBox) : (s.modHostBox n f).flt = s.flt := rfl
@[simp] theorem State.modHostBox_svc (s : State) (n : Nat) (f : HostBox → HostBox) : (s.modHostBox n f).svc = s.svc := rfl
@[simp] theorem State.modHostBox_jrn (s : State) (n : Nat) (f : HostBox → HostBox) : (s.modHostBox n f).jrn = s.jrn := rfl
@[simp] theorem State.modHostBox_pending (s : State) (n : Nat) (f : HostBox → HostBox) : (s.modHostBox n f).pending = s.pending := rfl
@[simp] theorem State.modHostBox_mail_hostGen (s : State) (n : Nat) (f : HostBox → HostBox) : (s.modHostBox n f).mail.hostGen = s.mail.hostGen := rfl
@[simp] theorem State.modHostBox_mail_far (s : State) (n : Nat) (f : HostBox → HostBox) : (s.modHostBox n f).mail.far = s.mail.far := rfl
@[simp] theorem State.modHostBox_ring (s : State) (n : Nat) (f : HostBox → HostBox) (r_ : Nat) : (s.modHostBox n f).ring r_ = s.ring r_ := rfl
@[simp] theorem State.modHostBox_cmdQ (s : State) (n : Nat) (f : HostBox → HostBox) (r_ : Nat) : (s.modHostBox n f).cmdQ r_ = s.cmdQ r_ := rfl
@[simp] theorem State.modHostBox_evtQ (s : State) (n : Nat) (f : HostBox → HostBox) (n_ : Nat) : (s.modHostBox n f).evtQ n_ = s.evtQ n_ := rfl
@[simp] theorem State.modHostBox_window (s : State) (n : Nat) (f : HostBox → HostBox) (w_ : Nat) : (s.modHostBox n f).window w_ = s.window w_ := rfl
@[simp] theorem State.modHostBox_chan (s : State) (n : Nat) (f : HostBox → HostBox) (c_ : Nat) : (s.modHostBox n f).chan c_ = s.chan c_ := rfl
@[simp] theorem State.modHostBox_ctx (s : State) (n : Nat) (f : HostBox → HostBox) (c_ : Nat) : (s.modHostBox n f).ctx c_ = s.ctx c_ := rfl
@[simp] theorem State.modHostBox_engine (s : State) (n : Nat) (f : HostBox → HostBox) (e_ : Nat) : (s.modHostBox n f).engine e_ = s.engine e_ := rfl
@[simp] theorem State.modHostBox_port (s : State) (n : Nat) (f : HostBox → HostBox) (p_ : Nat) : (s.modHostBox n f).port p_ = s.port p_ := rfl
@[simp] theorem State.modHostBox_layer (s : State) (n : Nat) (f : HostBox → HostBox) (i_ : Nat) : (s.modHostBox n f).layer i_ = s.layer i_ := rfl
@[simp] theorem State.modHostBox_head (s : State) (n : Nat) (f : HostBox → HostBox) (h_ : Nat) : (s.modHostBox n f).head h_ = s.head h_ := rfl
@[simp] theorem State.modHostBox_dpPort (s : State) (n : Nat) (f : HostBox → HostBox) (p_ : Nat) : (s.modHostBox n f).dpPort p_ = s.dpPort p_ := rfl
@[simp] theorem State.modHostBox_plate (s : State) (n : Nat) (f : HostBox → HostBox) (h_ : Nat) : (s.modHostBox n f).plate h_ = s.plate h_ := rfl
@[simp] theorem State.modHostBox_session (s : State) (n : Nat) (f : HostBox → HostBox) (i_ : Nat) : (s.modHostBox n f).session i_ = s.session i_ := rfl
@[simp] theorem State.modHostBox_encoder (s : State) (n : Nat) (f : HostBox → HostBox) (e_ : Nat) : (s.modHostBox n f).encoder e_ = s.encoder e_ := rfl
@[simp] theorem State.modHostBox_island (s : State) (n : Nat) (f : HostBox → HostBox) (i_ : Nat) : (s.modHostBox n f).island i_ = s.island i_ := rfl
@[simp] theorem State.modHostBox_dram (s : State) (n : Nat) (f : HostBox → HostBox) (c_ : Nat) : (s.modHostBox n f).dram c_ = s.dram c_ := rfl
@[simp] theorem State.modHostBox_panel (s : State) (n : Nat) (f : HostBox → HostBox) (t_ : Nat) : (s.modHostBox n f).panel t_ = s.panel t_ := rfl
@[simp] theorem State.modHostBox_input (s : State) (n : Nat) (f : HostBox → HostBox) (i_ : Nat) : (s.modHostBox n f).input i_ = s.input i_ := rfl
@[simp] theorem State.modHostBox_output (s : State) (n : Nat) (f : HostBox → HostBox) (o_ : Nat) : (s.modHostBox n f).output o_ = s.output o_ := rfl
@[simp] theorem State.modHostBox_quad (s : State) (n : Nat) (f : HostBox → HostBox) (q_ : Nat) : (s.modHostBox n f).quad q_ = s.quad q_ := rfl
@[simp] theorem State.modHostBox_farBox (s : State) (n : Nat) (f : HostBox → HostBox) (m_ : Nat) : (s.modHostBox n f).farBox m_ = s.farBox m_ := rfl
@[simp] theorem State.modHostBox_member (s : State) (n : Nat) (f : HostBox → HostBox) (m_ : Nat) : (s.modHostBox n f).member m_ = s.member m_ := rfl
@[simp] theorem State.modHostBox_spineLink (s : State) (n : Nat) (f : HostBox → HostBox) (l_ : Nat) : (s.modHostBox n f).spineLink l_ = s.spineLink l_ := rfl
@[simp] theorem State.modHostBox_cvUnit (s : State) (n : Nat) (f : HostBox → HostBox) (u_ : Nat) : (s.modHostBox n f).cvUnit u_ = s.cvUnit u_ := rfl
@[simp] theorem State.modHostBox_zeEngine (s : State) (n : Nat) (f : HostBox → HostBox) (e_ : Nat) : (s.modHostBox n f).zeEngine e_ = s.zeEngine e_ := rfl
@[simp] theorem State.modHostBox_mapOf (s : State) (n : Nat) (f : HostBox → HostBox) (r_ : Nat) : (s.modHostBox n f).mapOf r_ = s.mapOf r_ := rfl
@[simp] theorem State.modHostBox_self (s : State) (n : Nat) (f : HostBox → HostBox) (hlt : n < s.mail.host.length) : (s.modHostBox n f).hostBox n = f (s.hostBox n) :=
  getD_modify_self _ _ _ _ hlt
theorem State.modHostBox_other (s : State) (n : Nat) (f : HostBox → HostBox) (j_ : Nat) (hne : n ≠ j_) : (s.modHostBox n f).hostBox j_ = s.hostBox j_ :=
  getD_modify_other _ _ _ _ _ hne

@[simp] theorem State.modFarBox_tb (s : State) (m : Nat) (f : FarBox → FarBox) : (s.modFarBox m f).tb = s.tb := rfl
@[simp] theorem State.modFarBox_top (s : State) (m : Nat) (f : FarBox → FarBox) : (s.modFarBox m f).top = s.top := rfl
@[simp] theorem State.modFarBox_host (s : State) (m : Nat) (f : FarBox → FarBox) : (s.modFarBox m f).host = s.host := rfl
@[simp] theorem State.modFarBox_net (s : State) (m : Nat) (f : FarBox → FarBox) : (s.modFarBox m f).net = s.net := rfl
@[simp] theorem State.modFarBox_dec (s : State) (m : Nat) (f : FarBox → FarBox) : (s.modFarBox m f).dec = s.dec := rfl
@[simp] theorem State.modFarBox_comp (s : State) (m : Nat) (f : FarBox → FarBox) : (s.modFarBox m f).comp = s.comp := rfl
@[simp] theorem State.modFarBox_enc (s : State) (m : Nat) (f : FarBox → FarBox) : (s.modFarBox m f).enc = s.enc := rfl
@[simp] theorem State.modFarBox_fab (s : State) (m : Nat) (f : FarBox → FarBox) : (s.modFarBox m f).fab = s.fab := rfl
@[simp] theorem State.modFarBox_store (s : State) (m : Nat) (f : FarBox → FarBox) : (s.modFarBox m f).store = s.store := rfl
@[simp] theorem State.modFarBox_sec (s : State) (m : Nat) (f : FarBox → FarBox) : (s.modFarBox m f).sec = s.sec := rfl
@[simp] theorem State.modFarBox_gath (s : State) (m : Nat) (f : FarBox → FarBox) : (s.modFarBox m f).gath = s.gath := rfl
@[simp] theorem State.modFarBox_twin (s : State) (m : Nat) (f : FarBox → FarBox) : (s.modFarBox m f).twin = s.twin := rfl
@[simp] theorem State.modFarBox_desk (s : State) (m : Nat) (f : FarBox → FarBox) : (s.modFarBox m f).desk = s.desk := rfl
@[simp] theorem State.modFarBox_pwr (s : State) (m : Nat) (f : FarBox → FarBox) : (s.modFarBox m f).pwr = s.pwr := rfl
@[simp] theorem State.modFarBox_lanes (s : State) (m : Nat) (f : FarBox → FarBox) : (s.modFarBox m f).lanes = s.lanes := rfl
@[simp] theorem State.modFarBox_flt (s : State) (m : Nat) (f : FarBox → FarBox) : (s.modFarBox m f).flt = s.flt := rfl
@[simp] theorem State.modFarBox_svc (s : State) (m : Nat) (f : FarBox → FarBox) : (s.modFarBox m f).svc = s.svc := rfl
@[simp] theorem State.modFarBox_jrn (s : State) (m : Nat) (f : FarBox → FarBox) : (s.modFarBox m f).jrn = s.jrn := rfl
@[simp] theorem State.modFarBox_pending (s : State) (m : Nat) (f : FarBox → FarBox) : (s.modFarBox m f).pending = s.pending := rfl
@[simp] theorem State.modFarBox_mail_host (s : State) (m : Nat) (f : FarBox → FarBox) : (s.modFarBox m f).mail.host = s.mail.host := rfl
@[simp] theorem State.modFarBox_mail_hostGen (s : State) (m : Nat) (f : FarBox → FarBox) : (s.modFarBox m f).mail.hostGen = s.mail.hostGen := rfl
@[simp] theorem State.modFarBox_ring (s : State) (m : Nat) (f : FarBox → FarBox) (r_ : Nat) : (s.modFarBox m f).ring r_ = s.ring r_ := rfl
@[simp] theorem State.modFarBox_cmdQ (s : State) (m : Nat) (f : FarBox → FarBox) (r_ : Nat) : (s.modFarBox m f).cmdQ r_ = s.cmdQ r_ := rfl
@[simp] theorem State.modFarBox_evtQ (s : State) (m : Nat) (f : FarBox → FarBox) (n_ : Nat) : (s.modFarBox m f).evtQ n_ = s.evtQ n_ := rfl
@[simp] theorem State.modFarBox_window (s : State) (m : Nat) (f : FarBox → FarBox) (w_ : Nat) : (s.modFarBox m f).window w_ = s.window w_ := rfl
@[simp] theorem State.modFarBox_chan (s : State) (m : Nat) (f : FarBox → FarBox) (c_ : Nat) : (s.modFarBox m f).chan c_ = s.chan c_ := rfl
@[simp] theorem State.modFarBox_ctx (s : State) (m : Nat) (f : FarBox → FarBox) (c_ : Nat) : (s.modFarBox m f).ctx c_ = s.ctx c_ := rfl
@[simp] theorem State.modFarBox_engine (s : State) (m : Nat) (f : FarBox → FarBox) (e_ : Nat) : (s.modFarBox m f).engine e_ = s.engine e_ := rfl
@[simp] theorem State.modFarBox_port (s : State) (m : Nat) (f : FarBox → FarBox) (p_ : Nat) : (s.modFarBox m f).port p_ = s.port p_ := rfl
@[simp] theorem State.modFarBox_layer (s : State) (m : Nat) (f : FarBox → FarBox) (i_ : Nat) : (s.modFarBox m f).layer i_ = s.layer i_ := rfl
@[simp] theorem State.modFarBox_head (s : State) (m : Nat) (f : FarBox → FarBox) (h_ : Nat) : (s.modFarBox m f).head h_ = s.head h_ := rfl
@[simp] theorem State.modFarBox_dpPort (s : State) (m : Nat) (f : FarBox → FarBox) (p_ : Nat) : (s.modFarBox m f).dpPort p_ = s.dpPort p_ := rfl
@[simp] theorem State.modFarBox_plate (s : State) (m : Nat) (f : FarBox → FarBox) (h_ : Nat) : (s.modFarBox m f).plate h_ = s.plate h_ := rfl
@[simp] theorem State.modFarBox_session (s : State) (m : Nat) (f : FarBox → FarBox) (i_ : Nat) : (s.modFarBox m f).session i_ = s.session i_ := rfl
@[simp] theorem State.modFarBox_encoder (s : State) (m : Nat) (f : FarBox → FarBox) (e_ : Nat) : (s.modFarBox m f).encoder e_ = s.encoder e_ := rfl
@[simp] theorem State.modFarBox_island (s : State) (m : Nat) (f : FarBox → FarBox) (i_ : Nat) : (s.modFarBox m f).island i_ = s.island i_ := rfl
@[simp] theorem State.modFarBox_dram (s : State) (m : Nat) (f : FarBox → FarBox) (c_ : Nat) : (s.modFarBox m f).dram c_ = s.dram c_ := rfl
@[simp] theorem State.modFarBox_panel (s : State) (m : Nat) (f : FarBox → FarBox) (t_ : Nat) : (s.modFarBox m f).panel t_ = s.panel t_ := rfl
@[simp] theorem State.modFarBox_input (s : State) (m : Nat) (f : FarBox → FarBox) (i_ : Nat) : (s.modFarBox m f).input i_ = s.input i_ := rfl
@[simp] theorem State.modFarBox_output (s : State) (m : Nat) (f : FarBox → FarBox) (o_ : Nat) : (s.modFarBox m f).output o_ = s.output o_ := rfl
@[simp] theorem State.modFarBox_quad (s : State) (m : Nat) (f : FarBox → FarBox) (q_ : Nat) : (s.modFarBox m f).quad q_ = s.quad q_ := rfl
@[simp] theorem State.modFarBox_hostBox (s : State) (m : Nat) (f : FarBox → FarBox) (n_ : Nat) : (s.modFarBox m f).hostBox n_ = s.hostBox n_ := rfl
@[simp] theorem State.modFarBox_member (s : State) (m : Nat) (f : FarBox → FarBox) (m_ : Nat) : (s.modFarBox m f).member m_ = s.member m_ := rfl
@[simp] theorem State.modFarBox_spineLink (s : State) (m : Nat) (f : FarBox → FarBox) (l_ : Nat) : (s.modFarBox m f).spineLink l_ = s.spineLink l_ := rfl
@[simp] theorem State.modFarBox_cvUnit (s : State) (m : Nat) (f : FarBox → FarBox) (u_ : Nat) : (s.modFarBox m f).cvUnit u_ = s.cvUnit u_ := rfl
@[simp] theorem State.modFarBox_zeEngine (s : State) (m : Nat) (f : FarBox → FarBox) (e_ : Nat) : (s.modFarBox m f).zeEngine e_ = s.zeEngine e_ := rfl
@[simp] theorem State.modFarBox_mapOf (s : State) (m : Nat) (f : FarBox → FarBox) (r_ : Nat) : (s.modFarBox m f).mapOf r_ = s.mapOf r_ := rfl
@[simp] theorem State.modFarBox_self (s : State) (m : Nat) (f : FarBox → FarBox) (hlt : (m - 4) < s.mail.far.length) : (s.modFarBox m f).farBox m = f (s.farBox m) :=
  getD_modify_self _ _ _ _ hlt
theorem State.modFarBox_other (s : State) (m : Nat) (f : FarBox → FarBox) (j_ : Nat) (hne : (m - 4) ≠ (j_ - 4)) : (s.modFarBox m f).farBox j_ = s.farBox j_ :=
  getD_modify_other _ _ _ _ _ hne

@[simp] theorem State.modMember_tb (s : State) (m : Nat) (f : Member → Member) : (s.modMember m f).tb = s.tb := rfl
@[simp] theorem State.modMember_top (s : State) (m : Nat) (f : Member → Member) : (s.modMember m f).top = s.top := rfl
@[simp] theorem State.modMember_host (s : State) (m : Nat) (f : Member → Member) : (s.modMember m f).host = s.host := rfl
@[simp] theorem State.modMember_net (s : State) (m : Nat) (f : Member → Member) : (s.modMember m f).net = s.net := rfl
@[simp] theorem State.modMember_dec (s : State) (m : Nat) (f : Member → Member) : (s.modMember m f).dec = s.dec := rfl
@[simp] theorem State.modMember_comp (s : State) (m : Nat) (f : Member → Member) : (s.modMember m f).comp = s.comp := rfl
@[simp] theorem State.modMember_enc (s : State) (m : Nat) (f : Member → Member) : (s.modMember m f).enc = s.enc := rfl
@[simp] theorem State.modMember_fab (s : State) (m : Nat) (f : Member → Member) : (s.modMember m f).fab = s.fab := rfl
@[simp] theorem State.modMember_store (s : State) (m : Nat) (f : Member → Member) : (s.modMember m f).store = s.store := rfl
@[simp] theorem State.modMember_sec (s : State) (m : Nat) (f : Member → Member) : (s.modMember m f).sec = s.sec := rfl
@[simp] theorem State.modMember_mail (s : State) (m : Nat) (f : Member → Member) : (s.modMember m f).mail = s.mail := rfl
@[simp] theorem State.modMember_twin (s : State) (m : Nat) (f : Member → Member) : (s.modMember m f).twin = s.twin := rfl
@[simp] theorem State.modMember_desk (s : State) (m : Nat) (f : Member → Member) : (s.modMember m f).desk = s.desk := rfl
@[simp] theorem State.modMember_pwr (s : State) (m : Nat) (f : Member → Member) : (s.modMember m f).pwr = s.pwr := rfl
@[simp] theorem State.modMember_lanes (s : State) (m : Nat) (f : Member → Member) : (s.modMember m f).lanes = s.lanes := rfl
@[simp] theorem State.modMember_flt (s : State) (m : Nat) (f : Member → Member) : (s.modMember m f).flt = s.flt := rfl
@[simp] theorem State.modMember_svc (s : State) (m : Nat) (f : Member → Member) : (s.modMember m f).svc = s.svc := rfl
@[simp] theorem State.modMember_jrn (s : State) (m : Nat) (f : Member → Member) : (s.modMember m f).jrn = s.jrn := rfl
@[simp] theorem State.modMember_pending (s : State) (m : Nat) (f : Member → Member) : (s.modMember m f).pending = s.pending := rfl
@[simp] theorem State.modMember_gath_lead (s : State) (m : Nat) (f : Member → Member) : (s.modMember m f).gath.lead = s.gath.lead := rfl
@[simp] theorem State.modMember_gath_ring (s : State) (m : Nat) (f : Member → Member) : (s.modMember m f).gath.ring = s.gath.ring := rfl
@[simp] theorem State.modMember_gath_link (s : State) (m : Nat) (f : Member → Member) : (s.modMember m f).gath.link = s.gath.link := rfl
@[simp] theorem State.modMember_gath_relayOnly (s : State) (m : Nat) (f : Member → Member) : (s.modMember m f).gath.relayOnly = s.gath.relayOnly := rfl
@[simp] theorem State.modMember_gath_outcomes (s : State) (m : Nat) (f : Member → Member) : (s.modMember m f).gath.outcomes = s.gath.outcomes := rfl
@[simp] theorem State.modMember_gath_replies (s : State) (m : Nat) (f : Member → Member) : (s.modMember m f).gath.replies = s.gath.replies := rfl
@[simp] theorem State.modMember_gath_sent (s : State) (m : Nat) (f : Member → Member) : (s.modMember m f).gath.sent = s.gath.sent := rfl
@[simp] theorem State.modMember_gath_acks (s : State) (m : Nat) (f : Member → Member) : (s.modMember m f).gath.acks = s.gath.acks := rfl
@[simp] theorem State.modMember_gath_rx (s : State) (m : Nat) (f : Member → Member) : (s.modMember m f).gath.rx = s.gath.rx := rfl
@[simp] theorem State.modMember_gath_fwdEvents (s : State) (m : Nat) (f : Member → Member) : (s.modMember m f).gath.fwdEvents = s.gath.fwdEvents := rfl
@[simp] theorem State.modMember_gath_resent (s : State) (m : Nat) (f : Member → Member) : (s.modMember m f).gath.resent = s.gath.resent := rfl
@[simp] theorem State.modMember_gath_watch (s : State) (m : Nat) (f : Member → Member) : (s.modMember m f).gath.watch = s.gath.watch := rfl
@[simp] theorem State.modMember_gath_evCount (s : State) (m : Nat) (f : Member → Member) : (s.modMember m f).gath.evCount = s.gath.evCount := rfl
@[simp] theorem State.modMember_gath_fwdSent (s : State) (m : Nat) (f : Member → Member) : (s.modMember m f).gath.fwdSent = s.gath.fwdSent := rfl
@[simp] theorem State.modMember_gath_frameNo (s : State) (m : Nat) (f : Member → Member) : (s.modMember m f).gath.frameNo = s.gath.frameNo := rfl
@[simp] theorem State.modMember_gath_noPathSince (s : State) (m : Nat) (f : Member → Member) : (s.modMember m f).gath.noPathSince = s.gath.noPathSince := rfl
@[simp] theorem State.modMember_ring (s : State) (m : Nat) (f : Member → Member) (r_ : Nat) : (s.modMember m f).ring r_ = s.ring r_ := rfl
@[simp] theorem State.modMember_cmdQ (s : State) (m : Nat) (f : Member → Member) (r_ : Nat) : (s.modMember m f).cmdQ r_ = s.cmdQ r_ := rfl
@[simp] theorem State.modMember_evtQ (s : State) (m : Nat) (f : Member → Member) (n_ : Nat) : (s.modMember m f).evtQ n_ = s.evtQ n_ := rfl
@[simp] theorem State.modMember_window (s : State) (m : Nat) (f : Member → Member) (w_ : Nat) : (s.modMember m f).window w_ = s.window w_ := rfl
@[simp] theorem State.modMember_chan (s : State) (m : Nat) (f : Member → Member) (c_ : Nat) : (s.modMember m f).chan c_ = s.chan c_ := rfl
@[simp] theorem State.modMember_ctx (s : State) (m : Nat) (f : Member → Member) (c_ : Nat) : (s.modMember m f).ctx c_ = s.ctx c_ := rfl
@[simp] theorem State.modMember_engine (s : State) (m : Nat) (f : Member → Member) (e_ : Nat) : (s.modMember m f).engine e_ = s.engine e_ := rfl
@[simp] theorem State.modMember_port (s : State) (m : Nat) (f : Member → Member) (p_ : Nat) : (s.modMember m f).port p_ = s.port p_ := rfl
@[simp] theorem State.modMember_layer (s : State) (m : Nat) (f : Member → Member) (i_ : Nat) : (s.modMember m f).layer i_ = s.layer i_ := rfl
@[simp] theorem State.modMember_head (s : State) (m : Nat) (f : Member → Member) (h_ : Nat) : (s.modMember m f).head h_ = s.head h_ := rfl
@[simp] theorem State.modMember_dpPort (s : State) (m : Nat) (f : Member → Member) (p_ : Nat) : (s.modMember m f).dpPort p_ = s.dpPort p_ := rfl
@[simp] theorem State.modMember_plate (s : State) (m : Nat) (f : Member → Member) (h_ : Nat) : (s.modMember m f).plate h_ = s.plate h_ := rfl
@[simp] theorem State.modMember_session (s : State) (m : Nat) (f : Member → Member) (i_ : Nat) : (s.modMember m f).session i_ = s.session i_ := rfl
@[simp] theorem State.modMember_encoder (s : State) (m : Nat) (f : Member → Member) (e_ : Nat) : (s.modMember m f).encoder e_ = s.encoder e_ := rfl
@[simp] theorem State.modMember_island (s : State) (m : Nat) (f : Member → Member) (i_ : Nat) : (s.modMember m f).island i_ = s.island i_ := rfl
@[simp] theorem State.modMember_dram (s : State) (m : Nat) (f : Member → Member) (c_ : Nat) : (s.modMember m f).dram c_ = s.dram c_ := rfl
@[simp] theorem State.modMember_panel (s : State) (m : Nat) (f : Member → Member) (t_ : Nat) : (s.modMember m f).panel t_ = s.panel t_ := rfl
@[simp] theorem State.modMember_input (s : State) (m : Nat) (f : Member → Member) (i_ : Nat) : (s.modMember m f).input i_ = s.input i_ := rfl
@[simp] theorem State.modMember_output (s : State) (m : Nat) (f : Member → Member) (o_ : Nat) : (s.modMember m f).output o_ = s.output o_ := rfl
@[simp] theorem State.modMember_quad (s : State) (m : Nat) (f : Member → Member) (q_ : Nat) : (s.modMember m f).quad q_ = s.quad q_ := rfl
@[simp] theorem State.modMember_hostBox (s : State) (m : Nat) (f : Member → Member) (n_ : Nat) : (s.modMember m f).hostBox n_ = s.hostBox n_ := rfl
@[simp] theorem State.modMember_farBox (s : State) (m : Nat) (f : Member → Member) (m_ : Nat) : (s.modMember m f).farBox m_ = s.farBox m_ := rfl
@[simp] theorem State.modMember_spineLink (s : State) (m : Nat) (f : Member → Member) (l_ : Nat) : (s.modMember m f).spineLink l_ = s.spineLink l_ := rfl
@[simp] theorem State.modMember_cvUnit (s : State) (m : Nat) (f : Member → Member) (u_ : Nat) : (s.modMember m f).cvUnit u_ = s.cvUnit u_ := rfl
@[simp] theorem State.modMember_zeEngine (s : State) (m : Nat) (f : Member → Member) (e_ : Nat) : (s.modMember m f).zeEngine e_ = s.zeEngine e_ := rfl
@[simp] theorem State.modMember_mapOf (s : State) (m : Nat) (f : Member → Member) (r_ : Nat) : (s.modMember m f).mapOf r_ = s.mapOf r_ := rfl
@[simp] theorem State.modMember_self (s : State) (m : Nat) (f : Member → Member) (hlt : m < s.gath.mem.length) : (s.modMember m f).member m = f (s.member m) :=
  getD_modify_self _ _ _ _ hlt
theorem State.modMember_other (s : State) (m : Nat) (f : Member → Member) (j_ : Nat) (hne : m ≠ j_) : (s.modMember m f).member j_ = s.member j_ :=
  getD_modify_other _ _ _ _ _ hne

@[simp] theorem State.modLink_tb (s : State) (l : Nat) (f : SpineLink → SpineLink) : (s.modLink l f).tb = s.tb := rfl
@[simp] theorem State.modLink_top (s : State) (l : Nat) (f : SpineLink → SpineLink) : (s.modLink l f).top = s.top := rfl
@[simp] theorem State.modLink_host (s : State) (l : Nat) (f : SpineLink → SpineLink) : (s.modLink l f).host = s.host := rfl
@[simp] theorem State.modLink_net (s : State) (l : Nat) (f : SpineLink → SpineLink) : (s.modLink l f).net = s.net := rfl
@[simp] theorem State.modLink_dec (s : State) (l : Nat) (f : SpineLink → SpineLink) : (s.modLink l f).dec = s.dec := rfl
@[simp] theorem State.modLink_comp (s : State) (l : Nat) (f : SpineLink → SpineLink) : (s.modLink l f).comp = s.comp := rfl
@[simp] theorem State.modLink_enc (s : State) (l : Nat) (f : SpineLink → SpineLink) : (s.modLink l f).enc = s.enc := rfl
@[simp] theorem State.modLink_fab (s : State) (l : Nat) (f : SpineLink → SpineLink) : (s.modLink l f).fab = s.fab := rfl
@[simp] theorem State.modLink_store (s : State) (l : Nat) (f : SpineLink → SpineLink) : (s.modLink l f).store = s.store := rfl
@[simp] theorem State.modLink_sec (s : State) (l : Nat) (f : SpineLink → SpineLink) : (s.modLink l f).sec = s.sec := rfl
@[simp] theorem State.modLink_mail (s : State) (l : Nat) (f : SpineLink → SpineLink) : (s.modLink l f).mail = s.mail := rfl
@[simp] theorem State.modLink_twin (s : State) (l : Nat) (f : SpineLink → SpineLink) : (s.modLink l f).twin = s.twin := rfl
@[simp] theorem State.modLink_desk (s : State) (l : Nat) (f : SpineLink → SpineLink) : (s.modLink l f).desk = s.desk := rfl
@[simp] theorem State.modLink_pwr (s : State) (l : Nat) (f : SpineLink → SpineLink) : (s.modLink l f).pwr = s.pwr := rfl
@[simp] theorem State.modLink_lanes (s : State) (l : Nat) (f : SpineLink → SpineLink) : (s.modLink l f).lanes = s.lanes := rfl
@[simp] theorem State.modLink_flt (s : State) (l : Nat) (f : SpineLink → SpineLink) : (s.modLink l f).flt = s.flt := rfl
@[simp] theorem State.modLink_svc (s : State) (l : Nat) (f : SpineLink → SpineLink) : (s.modLink l f).svc = s.svc := rfl
@[simp] theorem State.modLink_jrn (s : State) (l : Nat) (f : SpineLink → SpineLink) : (s.modLink l f).jrn = s.jrn := rfl
@[simp] theorem State.modLink_pending (s : State) (l : Nat) (f : SpineLink → SpineLink) : (s.modLink l f).pending = s.pending := rfl
@[simp] theorem State.modLink_gath_mem (s : State) (l : Nat) (f : SpineLink → SpineLink) : (s.modLink l f).gath.mem = s.gath.mem := rfl
@[simp] theorem State.modLink_gath_lead (s : State) (l : Nat) (f : SpineLink → SpineLink) : (s.modLink l f).gath.lead = s.gath.lead := rfl
@[simp] theorem State.modLink_gath_ring (s : State) (l : Nat) (f : SpineLink → SpineLink) : (s.modLink l f).gath.ring = s.gath.ring := rfl
@[simp] theorem State.modLink_gath_relayOnly (s : State) (l : Nat) (f : SpineLink → SpineLink) : (s.modLink l f).gath.relayOnly = s.gath.relayOnly := rfl
@[simp] theorem State.modLink_gath_outcomes (s : State) (l : Nat) (f : SpineLink → SpineLink) : (s.modLink l f).gath.outcomes = s.gath.outcomes := rfl
@[simp] theorem State.modLink_gath_replies (s : State) (l : Nat) (f : SpineLink → SpineLink) : (s.modLink l f).gath.replies = s.gath.replies := rfl
@[simp] theorem State.modLink_gath_sent (s : State) (l : Nat) (f : SpineLink → SpineLink) : (s.modLink l f).gath.sent = s.gath.sent := rfl
@[simp] theorem State.modLink_gath_acks (s : State) (l : Nat) (f : SpineLink → SpineLink) : (s.modLink l f).gath.acks = s.gath.acks := rfl
@[simp] theorem State.modLink_gath_rx (s : State) (l : Nat) (f : SpineLink → SpineLink) : (s.modLink l f).gath.rx = s.gath.rx := rfl
@[simp] theorem State.modLink_gath_fwdEvents (s : State) (l : Nat) (f : SpineLink → SpineLink) : (s.modLink l f).gath.fwdEvents = s.gath.fwdEvents := rfl
@[simp] theorem State.modLink_gath_resent (s : State) (l : Nat) (f : SpineLink → SpineLink) : (s.modLink l f).gath.resent = s.gath.resent := rfl
@[simp] theorem State.modLink_gath_watch (s : State) (l : Nat) (f : SpineLink → SpineLink) : (s.modLink l f).gath.watch = s.gath.watch := rfl
@[simp] theorem State.modLink_gath_evCount (s : State) (l : Nat) (f : SpineLink → SpineLink) : (s.modLink l f).gath.evCount = s.gath.evCount := rfl
@[simp] theorem State.modLink_gath_fwdSent (s : State) (l : Nat) (f : SpineLink → SpineLink) : (s.modLink l f).gath.fwdSent = s.gath.fwdSent := rfl
@[simp] theorem State.modLink_gath_frameNo (s : State) (l : Nat) (f : SpineLink → SpineLink) : (s.modLink l f).gath.frameNo = s.gath.frameNo := rfl
@[simp] theorem State.modLink_gath_noPathSince (s : State) (l : Nat) (f : SpineLink → SpineLink) : (s.modLink l f).gath.noPathSince = s.gath.noPathSince := rfl
@[simp] theorem State.modLink_ring (s : State) (l : Nat) (f : SpineLink → SpineLink) (r_ : Nat) : (s.modLink l f).ring r_ = s.ring r_ := rfl
@[simp] theorem State.modLink_cmdQ (s : State) (l : Nat) (f : SpineLink → SpineLink) (r_ : Nat) : (s.modLink l f).cmdQ r_ = s.cmdQ r_ := rfl
@[simp] theorem State.modLink_evtQ (s : State) (l : Nat) (f : SpineLink → SpineLink) (n_ : Nat) : (s.modLink l f).evtQ n_ = s.evtQ n_ := rfl
@[simp] theorem State.modLink_window (s : State) (l : Nat) (f : SpineLink → SpineLink) (w_ : Nat) : (s.modLink l f).window w_ = s.window w_ := rfl
@[simp] theorem State.modLink_chan (s : State) (l : Nat) (f : SpineLink → SpineLink) (c_ : Nat) : (s.modLink l f).chan c_ = s.chan c_ := rfl
@[simp] theorem State.modLink_ctx (s : State) (l : Nat) (f : SpineLink → SpineLink) (c_ : Nat) : (s.modLink l f).ctx c_ = s.ctx c_ := rfl
@[simp] theorem State.modLink_engine (s : State) (l : Nat) (f : SpineLink → SpineLink) (e_ : Nat) : (s.modLink l f).engine e_ = s.engine e_ := rfl
@[simp] theorem State.modLink_port (s : State) (l : Nat) (f : SpineLink → SpineLink) (p_ : Nat) : (s.modLink l f).port p_ = s.port p_ := rfl
@[simp] theorem State.modLink_layer (s : State) (l : Nat) (f : SpineLink → SpineLink) (i_ : Nat) : (s.modLink l f).layer i_ = s.layer i_ := rfl
@[simp] theorem State.modLink_head (s : State) (l : Nat) (f : SpineLink → SpineLink) (h_ : Nat) : (s.modLink l f).head h_ = s.head h_ := rfl
@[simp] theorem State.modLink_dpPort (s : State) (l : Nat) (f : SpineLink → SpineLink) (p_ : Nat) : (s.modLink l f).dpPort p_ = s.dpPort p_ := rfl
@[simp] theorem State.modLink_plate (s : State) (l : Nat) (f : SpineLink → SpineLink) (h_ : Nat) : (s.modLink l f).plate h_ = s.plate h_ := rfl
@[simp] theorem State.modLink_session (s : State) (l : Nat) (f : SpineLink → SpineLink) (i_ : Nat) : (s.modLink l f).session i_ = s.session i_ := rfl
@[simp] theorem State.modLink_encoder (s : State) (l : Nat) (f : SpineLink → SpineLink) (e_ : Nat) : (s.modLink l f).encoder e_ = s.encoder e_ := rfl
@[simp] theorem State.modLink_island (s : State) (l : Nat) (f : SpineLink → SpineLink) (i_ : Nat) : (s.modLink l f).island i_ = s.island i_ := rfl
@[simp] theorem State.modLink_dram (s : State) (l : Nat) (f : SpineLink → SpineLink) (c_ : Nat) : (s.modLink l f).dram c_ = s.dram c_ := rfl
@[simp] theorem State.modLink_panel (s : State) (l : Nat) (f : SpineLink → SpineLink) (t_ : Nat) : (s.modLink l f).panel t_ = s.panel t_ := rfl
@[simp] theorem State.modLink_input (s : State) (l : Nat) (f : SpineLink → SpineLink) (i_ : Nat) : (s.modLink l f).input i_ = s.input i_ := rfl
@[simp] theorem State.modLink_output (s : State) (l : Nat) (f : SpineLink → SpineLink) (o_ : Nat) : (s.modLink l f).output o_ = s.output o_ := rfl
@[simp] theorem State.modLink_quad (s : State) (l : Nat) (f : SpineLink → SpineLink) (q_ : Nat) : (s.modLink l f).quad q_ = s.quad q_ := rfl
@[simp] theorem State.modLink_hostBox (s : State) (l : Nat) (f : SpineLink → SpineLink) (n_ : Nat) : (s.modLink l f).hostBox n_ = s.hostBox n_ := rfl
@[simp] theorem State.modLink_farBox (s : State) (l : Nat) (f : SpineLink → SpineLink) (m_ : Nat) : (s.modLink l f).farBox m_ = s.farBox m_ := rfl
@[simp] theorem State.modLink_member (s : State) (l : Nat) (f : SpineLink → SpineLink) (m_ : Nat) : (s.modLink l f).member m_ = s.member m_ := rfl
@[simp] theorem State.modLink_cvUnit (s : State) (l : Nat) (f : SpineLink → SpineLink) (u_ : Nat) : (s.modLink l f).cvUnit u_ = s.cvUnit u_ := rfl
@[simp] theorem State.modLink_zeEngine (s : State) (l : Nat) (f : SpineLink → SpineLink) (e_ : Nat) : (s.modLink l f).zeEngine e_ = s.zeEngine e_ := rfl
@[simp] theorem State.modLink_mapOf (s : State) (l : Nat) (f : SpineLink → SpineLink) (r_ : Nat) : (s.modLink l f).mapOf r_ = s.mapOf r_ := rfl
@[simp] theorem State.modLink_self (s : State) (l : Nat) (f : SpineLink → SpineLink) (hlt : l < s.gath.link.length) : (s.modLink l f).spineLink l = f (s.spineLink l) :=
  getD_modify_self _ _ _ _ hlt
theorem State.modLink_other (s : State) (l : Nat) (f : SpineLink → SpineLink) (j_ : Nat) (hne : l ≠ j_) : (s.modLink l f).spineLink j_ = s.spineLink j_ :=
  getD_modify_other _ _ _ _ _ hne

@[simp] theorem State.modCv_tb (s : State) (u : Nat) (f : CvUnit → CvUnit) : (s.modCv u f).tb = s.tb := rfl
@[simp] theorem State.modCv_top (s : State) (u : Nat) (f : CvUnit → CvUnit) : (s.modCv u f).top = s.top := rfl
@[simp] theorem State.modCv_host (s : State) (u : Nat) (f : CvUnit → CvUnit) : (s.modCv u f).host = s.host := rfl
@[simp] theorem State.modCv_net (s : State) (u : Nat) (f : CvUnit → CvUnit) : (s.modCv u f).net = s.net := rfl
@[simp] theorem State.modCv_dec (s : State) (u : Nat) (f : CvUnit → CvUnit) : (s.modCv u f).dec = s.dec := rfl
@[simp] theorem State.modCv_comp (s : State) (u : Nat) (f : CvUnit → CvUnit) : (s.modCv u f).comp = s.comp := rfl
@[simp] theorem State.modCv_enc (s : State) (u : Nat) (f : CvUnit → CvUnit) : (s.modCv u f).enc = s.enc := rfl
@[simp] theorem State.modCv_fab (s : State) (u : Nat) (f : CvUnit → CvUnit) : (s.modCv u f).fab = s.fab := rfl
@[simp] theorem State.modCv_store (s : State) (u : Nat) (f : CvUnit → CvUnit) : (s.modCv u f).store = s.store := rfl
@[simp] theorem State.modCv_sec (s : State) (u : Nat) (f : CvUnit → CvUnit) : (s.modCv u f).sec = s.sec := rfl
@[simp] theorem State.modCv_mail (s : State) (u : Nat) (f : CvUnit → CvUnit) : (s.modCv u f).mail = s.mail := rfl
@[simp] theorem State.modCv_gath (s : State) (u : Nat) (f : CvUnit → CvUnit) : (s.modCv u f).gath = s.gath := rfl
@[simp] theorem State.modCv_twin (s : State) (u : Nat) (f : CvUnit → CvUnit) : (s.modCv u f).twin = s.twin := rfl
@[simp] theorem State.modCv_desk (s : State) (u : Nat) (f : CvUnit → CvUnit) : (s.modCv u f).desk = s.desk := rfl
@[simp] theorem State.modCv_pwr (s : State) (u : Nat) (f : CvUnit → CvUnit) : (s.modCv u f).pwr = s.pwr := rfl
@[simp] theorem State.modCv_lanes (s : State) (u : Nat) (f : CvUnit → CvUnit) : (s.modCv u f).lanes = s.lanes := rfl
@[simp] theorem State.modCv_flt (s : State) (u : Nat) (f : CvUnit → CvUnit) : (s.modCv u f).flt = s.flt := rfl
@[simp] theorem State.modCv_jrn (s : State) (u : Nat) (f : CvUnit → CvUnit) : (s.modCv u f).jrn = s.jrn := rfl
@[simp] theorem State.modCv_pending (s : State) (u : Nat) (f : CvUnit → CvUnit) : (s.modCv u f).pending = s.pending := rfl
@[simp] theorem State.modCv_svc_ze (s : State) (u : Nat) (f : CvUnit → CvUnit) : (s.modCv u f).svc.ze = s.svc.ze := rfl
@[simp] theorem State.modCv_ring (s : State) (u : Nat) (f : CvUnit → CvUnit) (r_ : Nat) : (s.modCv u f).ring r_ = s.ring r_ := rfl
@[simp] theorem State.modCv_cmdQ (s : State) (u : Nat) (f : CvUnit → CvUnit) (r_ : Nat) : (s.modCv u f).cmdQ r_ = s.cmdQ r_ := rfl
@[simp] theorem State.modCv_evtQ (s : State) (u : Nat) (f : CvUnit → CvUnit) (n_ : Nat) : (s.modCv u f).evtQ n_ = s.evtQ n_ := rfl
@[simp] theorem State.modCv_window (s : State) (u : Nat) (f : CvUnit → CvUnit) (w_ : Nat) : (s.modCv u f).window w_ = s.window w_ := rfl
@[simp] theorem State.modCv_chan (s : State) (u : Nat) (f : CvUnit → CvUnit) (c_ : Nat) : (s.modCv u f).chan c_ = s.chan c_ := rfl
@[simp] theorem State.modCv_ctx (s : State) (u : Nat) (f : CvUnit → CvUnit) (c_ : Nat) : (s.modCv u f).ctx c_ = s.ctx c_ := rfl
@[simp] theorem State.modCv_engine (s : State) (u : Nat) (f : CvUnit → CvUnit) (e_ : Nat) : (s.modCv u f).engine e_ = s.engine e_ := rfl
@[simp] theorem State.modCv_port (s : State) (u : Nat) (f : CvUnit → CvUnit) (p_ : Nat) : (s.modCv u f).port p_ = s.port p_ := rfl
@[simp] theorem State.modCv_layer (s : State) (u : Nat) (f : CvUnit → CvUnit) (i_ : Nat) : (s.modCv u f).layer i_ = s.layer i_ := rfl
@[simp] theorem State.modCv_head (s : State) (u : Nat) (f : CvUnit → CvUnit) (h_ : Nat) : (s.modCv u f).head h_ = s.head h_ := rfl
@[simp] theorem State.modCv_dpPort (s : State) (u : Nat) (f : CvUnit → CvUnit) (p_ : Nat) : (s.modCv u f).dpPort p_ = s.dpPort p_ := rfl
@[simp] theorem State.modCv_plate (s : State) (u : Nat) (f : CvUnit → CvUnit) (h_ : Nat) : (s.modCv u f).plate h_ = s.plate h_ := rfl
@[simp] theorem State.modCv_session (s : State) (u : Nat) (f : CvUnit → CvUnit) (i_ : Nat) : (s.modCv u f).session i_ = s.session i_ := rfl
@[simp] theorem State.modCv_encoder (s : State) (u : Nat) (f : CvUnit → CvUnit) (e_ : Nat) : (s.modCv u f).encoder e_ = s.encoder e_ := rfl
@[simp] theorem State.modCv_island (s : State) (u : Nat) (f : CvUnit → CvUnit) (i_ : Nat) : (s.modCv u f).island i_ = s.island i_ := rfl
@[simp] theorem State.modCv_dram (s : State) (u : Nat) (f : CvUnit → CvUnit) (c_ : Nat) : (s.modCv u f).dram c_ = s.dram c_ := rfl
@[simp] theorem State.modCv_panel (s : State) (u : Nat) (f : CvUnit → CvUnit) (t_ : Nat) : (s.modCv u f).panel t_ = s.panel t_ := rfl
@[simp] theorem State.modCv_input (s : State) (u : Nat) (f : CvUnit → CvUnit) (i_ : Nat) : (s.modCv u f).input i_ = s.input i_ := rfl
@[simp] theorem State.modCv_output (s : State) (u : Nat) (f : CvUnit → CvUnit) (o_ : Nat) : (s.modCv u f).output o_ = s.output o_ := rfl
@[simp] theorem State.modCv_quad (s : State) (u : Nat) (f : CvUnit → CvUnit) (q_ : Nat) : (s.modCv u f).quad q_ = s.quad q_ := rfl
@[simp] theorem State.modCv_hostBox (s : State) (u : Nat) (f : CvUnit → CvUnit) (n_ : Nat) : (s.modCv u f).hostBox n_ = s.hostBox n_ := rfl
@[simp] theorem State.modCv_farBox (s : State) (u : Nat) (f : CvUnit → CvUnit) (m_ : Nat) : (s.modCv u f).farBox m_ = s.farBox m_ := rfl
@[simp] theorem State.modCv_member (s : State) (u : Nat) (f : CvUnit → CvUnit) (m_ : Nat) : (s.modCv u f).member m_ = s.member m_ := rfl
@[simp] theorem State.modCv_spineLink (s : State) (u : Nat) (f : CvUnit → CvUnit) (l_ : Nat) : (s.modCv u f).spineLink l_ = s.spineLink l_ := rfl
@[simp] theorem State.modCv_zeEngine (s : State) (u : Nat) (f : CvUnit → CvUnit) (e_ : Nat) : (s.modCv u f).zeEngine e_ = s.zeEngine e_ := rfl
@[simp] theorem State.modCv_mapOf (s : State) (u : Nat) (f : CvUnit → CvUnit) (r_ : Nat) : (s.modCv u f).mapOf r_ = s.mapOf r_ := rfl
@[simp] theorem State.modCv_self (s : State) (u : Nat) (f : CvUnit → CvUnit) (hlt : u < s.svc.cv.length) : (s.modCv u f).cvUnit u = f (s.cvUnit u) :=
  getD_modify_self _ _ _ _ hlt
theorem State.modCv_other (s : State) (u : Nat) (f : CvUnit → CvUnit) (j_ : Nat) (hne : u ≠ j_) : (s.modCv u f).cvUnit j_ = s.cvUnit j_ :=
  getD_modify_other _ _ _ _ _ hne

@[simp] theorem State.modZe_tb (s : State) (e : Nat) (f : ZeEngine → ZeEngine) : (s.modZe e f).tb = s.tb := rfl
@[simp] theorem State.modZe_top (s : State) (e : Nat) (f : ZeEngine → ZeEngine) : (s.modZe e f).top = s.top := rfl
@[simp] theorem State.modZe_host (s : State) (e : Nat) (f : ZeEngine → ZeEngine) : (s.modZe e f).host = s.host := rfl
@[simp] theorem State.modZe_net (s : State) (e : Nat) (f : ZeEngine → ZeEngine) : (s.modZe e f).net = s.net := rfl
@[simp] theorem State.modZe_dec (s : State) (e : Nat) (f : ZeEngine → ZeEngine) : (s.modZe e f).dec = s.dec := rfl
@[simp] theorem State.modZe_comp (s : State) (e : Nat) (f : ZeEngine → ZeEngine) : (s.modZe e f).comp = s.comp := rfl
@[simp] theorem State.modZe_enc (s : State) (e : Nat) (f : ZeEngine → ZeEngine) : (s.modZe e f).enc = s.enc := rfl
@[simp] theorem State.modZe_fab (s : State) (e : Nat) (f : ZeEngine → ZeEngine) : (s.modZe e f).fab = s.fab := rfl
@[simp] theorem State.modZe_store (s : State) (e : Nat) (f : ZeEngine → ZeEngine) : (s.modZe e f).store = s.store := rfl
@[simp] theorem State.modZe_sec (s : State) (e : Nat) (f : ZeEngine → ZeEngine) : (s.modZe e f).sec = s.sec := rfl
@[simp] theorem State.modZe_mail (s : State) (e : Nat) (f : ZeEngine → ZeEngine) : (s.modZe e f).mail = s.mail := rfl
@[simp] theorem State.modZe_gath (s : State) (e : Nat) (f : ZeEngine → ZeEngine) : (s.modZe e f).gath = s.gath := rfl
@[simp] theorem State.modZe_twin (s : State) (e : Nat) (f : ZeEngine → ZeEngine) : (s.modZe e f).twin = s.twin := rfl
@[simp] theorem State.modZe_desk (s : State) (e : Nat) (f : ZeEngine → ZeEngine) : (s.modZe e f).desk = s.desk := rfl
@[simp] theorem State.modZe_pwr (s : State) (e : Nat) (f : ZeEngine → ZeEngine) : (s.modZe e f).pwr = s.pwr := rfl
@[simp] theorem State.modZe_lanes (s : State) (e : Nat) (f : ZeEngine → ZeEngine) : (s.modZe e f).lanes = s.lanes := rfl
@[simp] theorem State.modZe_flt (s : State) (e : Nat) (f : ZeEngine → ZeEngine) : (s.modZe e f).flt = s.flt := rfl
@[simp] theorem State.modZe_jrn (s : State) (e : Nat) (f : ZeEngine → ZeEngine) : (s.modZe e f).jrn = s.jrn := rfl
@[simp] theorem State.modZe_pending (s : State) (e : Nat) (f : ZeEngine → ZeEngine) : (s.modZe e f).pending = s.pending := rfl
@[simp] theorem State.modZe_svc_cv (s : State) (e : Nat) (f : ZeEngine → ZeEngine) : (s.modZe e f).svc.cv = s.svc.cv := rfl
@[simp] theorem State.modZe_ring (s : State) (e : Nat) (f : ZeEngine → ZeEngine) (r_ : Nat) : (s.modZe e f).ring r_ = s.ring r_ := rfl
@[simp] theorem State.modZe_cmdQ (s : State) (e : Nat) (f : ZeEngine → ZeEngine) (r_ : Nat) : (s.modZe e f).cmdQ r_ = s.cmdQ r_ := rfl
@[simp] theorem State.modZe_evtQ (s : State) (e : Nat) (f : ZeEngine → ZeEngine) (n_ : Nat) : (s.modZe e f).evtQ n_ = s.evtQ n_ := rfl
@[simp] theorem State.modZe_window (s : State) (e : Nat) (f : ZeEngine → ZeEngine) (w_ : Nat) : (s.modZe e f).window w_ = s.window w_ := rfl
@[simp] theorem State.modZe_chan (s : State) (e : Nat) (f : ZeEngine → ZeEngine) (c_ : Nat) : (s.modZe e f).chan c_ = s.chan c_ := rfl
@[simp] theorem State.modZe_ctx (s : State) (e : Nat) (f : ZeEngine → ZeEngine) (c_ : Nat) : (s.modZe e f).ctx c_ = s.ctx c_ := rfl
@[simp] theorem State.modZe_engine (s : State) (e : Nat) (f : ZeEngine → ZeEngine) (e_ : Nat) : (s.modZe e f).engine e_ = s.engine e_ := rfl
@[simp] theorem State.modZe_port (s : State) (e : Nat) (f : ZeEngine → ZeEngine) (p_ : Nat) : (s.modZe e f).port p_ = s.port p_ := rfl
@[simp] theorem State.modZe_layer (s : State) (e : Nat) (f : ZeEngine → ZeEngine) (i_ : Nat) : (s.modZe e f).layer i_ = s.layer i_ := rfl
@[simp] theorem State.modZe_head (s : State) (e : Nat) (f : ZeEngine → ZeEngine) (h_ : Nat) : (s.modZe e f).head h_ = s.head h_ := rfl
@[simp] theorem State.modZe_dpPort (s : State) (e : Nat) (f : ZeEngine → ZeEngine) (p_ : Nat) : (s.modZe e f).dpPort p_ = s.dpPort p_ := rfl
@[simp] theorem State.modZe_plate (s : State) (e : Nat) (f : ZeEngine → ZeEngine) (h_ : Nat) : (s.modZe e f).plate h_ = s.plate h_ := rfl
@[simp] theorem State.modZe_session (s : State) (e : Nat) (f : ZeEngine → ZeEngine) (i_ : Nat) : (s.modZe e f).session i_ = s.session i_ := rfl
@[simp] theorem State.modZe_encoder (s : State) (e : Nat) (f : ZeEngine → ZeEngine) (e_ : Nat) : (s.modZe e f).encoder e_ = s.encoder e_ := rfl
@[simp] theorem State.modZe_island (s : State) (e : Nat) (f : ZeEngine → ZeEngine) (i_ : Nat) : (s.modZe e f).island i_ = s.island i_ := rfl
@[simp] theorem State.modZe_dram (s : State) (e : Nat) (f : ZeEngine → ZeEngine) (c_ : Nat) : (s.modZe e f).dram c_ = s.dram c_ := rfl
@[simp] theorem State.modZe_panel (s : State) (e : Nat) (f : ZeEngine → ZeEngine) (t_ : Nat) : (s.modZe e f).panel t_ = s.panel t_ := rfl
@[simp] theorem State.modZe_input (s : State) (e : Nat) (f : ZeEngine → ZeEngine) (i_ : Nat) : (s.modZe e f).input i_ = s.input i_ := rfl
@[simp] theorem State.modZe_output (s : State) (e : Nat) (f : ZeEngine → ZeEngine) (o_ : Nat) : (s.modZe e f).output o_ = s.output o_ := rfl
@[simp] theorem State.modZe_quad (s : State) (e : Nat) (f : ZeEngine → ZeEngine) (q_ : Nat) : (s.modZe e f).quad q_ = s.quad q_ := rfl
@[simp] theorem State.modZe_hostBox (s : State) (e : Nat) (f : ZeEngine → ZeEngine) (n_ : Nat) : (s.modZe e f).hostBox n_ = s.hostBox n_ := rfl
@[simp] theorem State.modZe_farBox (s : State) (e : Nat) (f : ZeEngine → ZeEngine) (m_ : Nat) : (s.modZe e f).farBox m_ = s.farBox m_ := rfl
@[simp] theorem State.modZe_member (s : State) (e : Nat) (f : ZeEngine → ZeEngine) (m_ : Nat) : (s.modZe e f).member m_ = s.member m_ := rfl
@[simp] theorem State.modZe_spineLink (s : State) (e : Nat) (f : ZeEngine → ZeEngine) (l_ : Nat) : (s.modZe e f).spineLink l_ = s.spineLink l_ := rfl
@[simp] theorem State.modZe_cvUnit (s : State) (e : Nat) (f : ZeEngine → ZeEngine) (u_ : Nat) : (s.modZe e f).cvUnit u_ = s.cvUnit u_ := rfl
@[simp] theorem State.modZe_mapOf (s : State) (e : Nat) (f : ZeEngine → ZeEngine) (r_ : Nat) : (s.modZe e f).mapOf r_ = s.mapOf r_ := rfl
@[simp] theorem State.modZe_self (s : State) (e : Nat) (f : ZeEngine → ZeEngine) (hlt : e < s.svc.ze.length) : (s.modZe e f).zeEngine e = f (s.zeEngine e) :=
  getD_modify_self _ _ _ _ hlt
theorem State.modZe_other (s : State) (e : Nat) (f : ZeEngine → ZeEngine) (j_ : Nat) (hne : e ≠ j_) : (s.modZe e f).zeEngine j_ = s.zeEngine j_ :=
  getD_modify_other _ _ _ _ _ hne

end Sys2Proof.Machine
end

