-- ==== Sys2Proof/Laws/Records.lean ====
section
/-!
SUPPORT. What raising an interrupt, logging a host-access fault and posting a record can change.
-/

namespace Sys2Proof.Machine

/-- A raise changes a vector and nothing else (R348). -/
theorem State.raise_only (s : State) (src : Nat) :
    ∃ msix_, s.raise src = { s with host := { s.host with msix := msix_ } } := by
  unfold State.raise
  dsimp only
  split
  · exact ⟨_, rfl⟩
  · exact ⟨_, rfl⟩

@[simp] theorem State.raise_tb (s : State) (src : Nat) : (s.raise src).tb = s.tb := by obtain ⟨_, h_⟩ := State.raise_only s src; rw [h_]
@[simp] theorem State.raise_top (s : State) (src : Nat) : (s.raise src).top = s.top := by obtain ⟨_, h_⟩ := State.raise_only s src; rw [h_]
@[simp] theorem State.raise_host_rings (s : State) (src : Nat) : (s.raise src).host.rings = s.host.rings := by obtain ⟨_, h_⟩ := State.raise_only s src; rw [h_]
@[simp] theorem State.raise_host_cmdq (s : State) (src : Nat) : (s.raise src).host.cmdq = s.host.cmdq := by obtain ⟨_, h_⟩ := State.raise_only s src; rw [h_]
@[simp] theorem State.raise_host_evtq (s : State) (src : Nat) : (s.raise src).host.evtq = s.host.evtq := by obtain ⟨_, h_⟩ := State.raise_only s src; rw [h_]
@[simp] theorem State.raise_host_stmq (s : State) (src : Nat) : (s.raise src).host.stmq = s.host.stmq := by obtain ⟨_, h_⟩ := State.raise_only s src; rw [h_]
@[simp] theorem State.raise_host_win (s : State) (src : Nat) : (s.raise src).host.win = s.host.win := by obtain ⟨_, h_⟩ := State.raise_only s src; rw [h_]
@[simp] theorem State.raise_host_irq (s : State) (src : Nat) : (s.raise src).host.irq = s.host.irq := by obtain ⟨_, h_⟩ := State.raise_only s src; rw [h_]
@[simp] theorem State.raise_host_chan (s : State) (src : Nat) : (s.raise src).host.chan = s.host.chan := by obtain ⟨_, h_⟩ := State.raise_only s src; rw [h_]
@[simp] theorem State.raise_host_bus (s : State) (src : Nat) : (s.raise src).host.bus = s.host.bus := by obtain ⟨_, h_⟩ := State.raise_only s src; rw [h_]
@[simp] theorem State.raise_host_fetchNo (s : State) (src : Nat) : (s.raise src).host.fetchNo = s.host.fetchNo := by obtain ⟨_, h_⟩ := State.raise_only s src; rw [h_]
@[simp] theorem State.raise_host_groupNo (s : State) (src : Nat) : (s.raise src).host.groupNo = s.host.groupNo := by obtain ⟨_, h_⟩ := State.raise_only s src; rw [h_]
@[simp] theorem State.raise_host_nextSession (s : State) (src : Nat) : (s.raise src).host.nextSession = s.host.nextSession := by obtain ⟨_, h_⟩ := State.raise_only s src; rw [h_]
@[simp] theorem State.raise_host_perst (s : State) (src : Nat) : (s.raise src).host.perst = s.host.perst := by obtain ⟨_, h_⟩ := State.raise_only s src; rw [h_]
@[simp] theorem State.raise_host_linkTraining (s : State) (src : Nat) : (s.raise src).host.linkTraining = s.host.linkTraining := by obtain ⟨_, h_⟩ := State.raise_only s src; rw [h_]
@[simp] theorem State.raise_host_rrNext (s : State) (src : Nat) : (s.raise src).host.rrNext = s.host.rrNext := by obtain ⟨_, h_⟩ := State.raise_only s src; rw [h_]
@[simp] theorem State.raise_host_rrUrgent (s : State) (src : Nat) : (s.raise src).host.rrUrgent = s.host.rrUrgent := by obtain ⟨_, h_⟩ := State.raise_only s src; rw [h_]
@[simp] theorem State.raise_net (s : State) (src : Nat) : (s.raise src).net = s.net := by obtain ⟨_, h_⟩ := State.raise_only s src; rw [h_]
@[simp] theorem State.raise_dec (s : State) (src : Nat) : (s.raise src).dec = s.dec := by obtain ⟨_, h_⟩ := State.raise_only s src; rw [h_]
@[simp] theorem State.raise_comp (s : State) (src : Nat) : (s.raise src).comp = s.comp := by obtain ⟨_, h_⟩ := State.raise_only s src; rw [h_]
@[simp] theorem State.raise_enc (s : State) (src : Nat) : (s.raise src).enc = s.enc := by obtain ⟨_, h_⟩ := State.raise_only s src; rw [h_]
@[simp] theorem State.raise_fab (s : State) (src : Nat) : (s.raise src).fab = s.fab := by obtain ⟨_, h_⟩ := State.raise_only s src; rw [h_]
@[simp] theorem State.raise_store (s : State) (src : Nat) : (s.raise src).store = s.store := by obtain ⟨_, h_⟩ := State.raise_only s src; rw [h_]
@[simp] theorem State.raise_sec (s : State) (src : Nat) : (s.raise src).sec = s.sec := by obtain ⟨_, h_⟩ := State.raise_only s src; rw [h_]
@[simp] theorem State.raise_mail (s : State) (src : Nat) : (s.raise src).mail = s.mail := by obtain ⟨_, h_⟩ := State.raise_only s src; rw [h_]
@[simp] theorem State.raise_gath (s : State) (src : Nat) : (s.raise src).gath = s.gath := by obtain ⟨_, h_⟩ := State.raise_only s src; rw [h_]
@[simp] theorem State.raise_twin (s : State) (src : Nat) : (s.raise src).twin = s.twin := by obtain ⟨_, h_⟩ := State.raise_only s src; rw [h_]
@[simp] theorem State.raise_desk (s : State) (src : Nat) : (s.raise src).desk = s.desk := by obtain ⟨_, h_⟩ := State.raise_only s src; rw [h_]
@[simp] theorem State.raise_pwr (s : State) (src : Nat) : (s.raise src).pwr = s.pwr := by obtain ⟨_, h_⟩ := State.raise_only s src; rw [h_]
@[simp] theorem State.raise_lanes (s : State) (src : Nat) : (s.raise src).lanes = s.lanes := by obtain ⟨_, h_⟩ := State.raise_only s src; rw [h_]
@[simp] theorem State.raise_flt (s : State) (src : Nat) : (s.raise src).flt = s.flt := by obtain ⟨_, h_⟩ := State.raise_only s src; rw [h_]
@[simp] theorem State.raise_svc (s : State) (src : Nat) : (s.raise src).svc = s.svc := by obtain ⟨_, h_⟩ := State.raise_only s src; rw [h_]
@[simp] theorem State.raise_jrn (s : State) (src : Nat) : (s.raise src).jrn = s.jrn := by obtain ⟨_, h_⟩ := State.raise_only s src; rw [h_]
@[simp] theorem State.raise_pending (s : State) (src : Nat) : (s.raise src).pending = s.pending := by obtain ⟨_, h_⟩ := State.raise_only s src; rw [h_]
@[simp] theorem State.raise_ring (s : State) (src : Nat) (r_ : Nat) : (s.raise src).ring r_ = s.ring r_ := by obtain ⟨_, h_⟩ := State.raise_only s src; rw [h_]; rfl
@[simp] theorem State.raise_cmdQ (s : State) (src : Nat) (r_ : Nat) : (s.raise src).cmdQ r_ = s.cmdQ r_ := by obtain ⟨_, h_⟩ := State.raise_only s src; rw [h_]; rfl
@[simp] theorem State.raise_evtQ (s : State) (src : Nat) (n_ : Nat) : (s.raise src).evtQ n_ = s.evtQ n_ := by obtain ⟨_, h_⟩ := State.raise_only s src; rw [h_]; rfl
@[simp] theorem State.raise_window (s : State) (src : Nat) (w_ : Nat) : (s.raise src).window w_ = s.window w_ := by obtain ⟨_, h_⟩ := State.raise_only s src; rw [h_]; rfl
@[simp] theorem State.raise_chan (s : State) (src : Nat) (c_ : Nat) : (s.raise src).chan c_ = s.chan c_ := by obtain ⟨_, h_⟩ := State.raise_only s src; rw [h_]; rfl
@[simp] theorem State.raise_ctx (s : State) (src : Nat) (c_ : Nat) : (s.raise src).ctx c_ = s.ctx c_ := by obtain ⟨_, h_⟩ := State.raise_only s src; rw [h_]; rfl
@[simp] theorem State.raise_engine (s : State) (src : Nat) (e_ : Nat) : (s.raise src).engine e_ = s.engine e_ := by obtain ⟨_, h_⟩ := State.raise_only s src; rw [h_]; rfl
@[simp] theorem State.raise_port (s : State) (src : Nat) (p_ : Nat) : (s.raise src).port p_ = s.port p_ := by obtain ⟨_, h_⟩ := State.raise_only s src; rw [h_]; rfl
@[simp] theorem State.raise_layer (s : State) (src : Nat) (i_ : Nat) : (s.raise src).layer i_ = s.layer i_ := by obtain ⟨_, h_⟩ := State.raise_only s src; rw [h_]; rfl
@[simp] theorem State.raise_head (s : State) (src : Nat) (h_ : Nat) : (s.raise src).head h_ = s.head h_ := by obtain ⟨_, h_⟩ := State.raise_only s src; rw [h_]; rfl
@[simp] theorem State.raise_dpPort (s : State) (src : Nat) (p_ : Nat) : (s.raise src).dpPort p_ = s.dpPort p_ := by obtain ⟨_, h_⟩ := State.raise_only s src; rw [h_]; rfl
@[simp] theorem State.raise_plate (s : State) (src : Nat) (h_ : Nat) : (s.raise src).plate h_ = s.plate h_ := by obtain ⟨_, h_⟩ := State.raise_only s src; rw [h_]; rfl
@[simp] theorem State.raise_session (s : State) (src : Nat) (i_ : Nat) : (s.raise src).session i_ = s.session i_ := by obtain ⟨_, h_⟩ := State.raise_only s src; rw [h_]; rfl
@[simp] theorem State.raise_encoder (s : State) (src : Nat) (e_ : Nat) : (s.raise src).encoder e_ = s.encoder e_ := by obtain ⟨_, h_⟩ := State.raise_only s src; rw [h_]; rfl
@[simp] theorem State.raise_island (s : State) (src : Nat) (i_ : Nat) : (s.raise src).island i_ = s.island i_ := by obtain ⟨_, h_⟩ := State.raise_only s src; rw [h_]; rfl
@[simp] theorem State.raise_dram (s : State) (src : Nat) (c_ : Nat) : (s.raise src).dram c_ = s.dram c_ := by obtain ⟨_, h_⟩ := State.raise_only s src; rw [h_]; rfl
@[simp] theorem State.raise_panel (s : State) (src : Nat) (t_ : Nat) : (s.raise src).panel t_ = s.panel t_ := by obtain ⟨_, h_⟩ := State.raise_only s src; rw [h_]; rfl
@[simp] theorem State.raise_input (s : State) (src : Nat) (i_ : Nat) : (s.raise src).input i_ = s.input i_ := by obtain ⟨_, h_⟩ := State.raise_only s src; rw [h_]; rfl
@[simp] theorem State.raise_output (s : State) (src : Nat) (o_ : Nat) : (s.raise src).output o_ = s.output o_ := by obtain ⟨_, h_⟩ := State.raise_only s src; rw [h_]; rfl
@[simp] theorem State.raise_quad (s : State) (src : Nat) (q_ : Nat) : (s.raise src).quad q_ = s.quad q_ := by obtain ⟨_, h_⟩ := State.raise_only s src; rw [h_]; rfl
@[simp] theorem State.raise_hostBox (s : State) (src : Nat) (n_ : Nat) : (s.raise src).hostBox n_ = s.hostBox n_ := by obtain ⟨_, h_⟩ := State.raise_only s src; rw [h_]; rfl
@[simp] theorem State.raise_farBox (s : State) (src : Nat) (m_ : Nat) : (s.raise src).farBox m_ = s.farBox m_ := by obtain ⟨_, h_⟩ := State.raise_only s src; rw [h_]; rfl
@[simp] theorem State.raise_member (s : State) (src : Nat) (m_ : Nat) : (s.raise src).member m_ = s.member m_ := by obtain ⟨_, h_⟩ := State.raise_only s src; rw [h_]; rfl
@[simp] theorem State.raise_spineLink (s : State) (src : Nat) (l_ : Nat) : (s.raise src).spineLink l_ = s.spineLink l_ := by obtain ⟨_, h_⟩ := State.raise_only s src; rw [h_]; rfl
@[simp] theorem State.raise_cvUnit (s : State) (src : Nat) (u_ : Nat) : (s.raise src).cvUnit u_ = s.cvUnit u_ := by obtain ⟨_, h_⟩ := State.raise_only s src; rw [h_]; rfl
@[simp] theorem State.raise_zeEngine (s : State) (src : Nat) (e_ : Nat) : (s.raise src).zeEngine e_ = s.zeEngine e_ := by obtain ⟨_, h_⟩ := State.raise_only s src; rw [h_]; rfl
@[simp] theorem State.raise_mapOf (s : State) (src : Nat) (r_ : Nat) : (s.raise src).mapOf r_ = s.mapOf r_ := by obtain ⟨_, h_⟩ := State.raise_only s src; rw [h_]; rfl

/-- Setting bits of `TOP.CHANGE` changes them and the vector of source 104 (R348). -/
theorem State.change_only (s : State) (bits : BitVec 6) :
    ∃ change_ msix_, s.change bits = { s with top := { s.top with change := change_ }, host := { s.host with msix := msix_ } } := by
  unfold State.change
  obtain ⟨_, h⟩ := State.raise_only { s with top := { s.top with change := s.top.change ||| bits } } 104
  rw [h]
  exact ⟨_, _, rfl⟩

@[simp] theorem State.change_tb (s : State) (bits : BitVec 6) : (s.change bits).tb = s.tb := by obtain ⟨_, _, h_⟩ := State.change_only s bits; rw [h_]
@[simp] theorem State.change_top_step (s : State) (bits : BitVec 6) : (s.change bits).top.step = s.top.step := by obtain ⟨_, _, h_⟩ := State.change_only s bits; rw [h_]
@[simp] theorem State.change_top_line (s : State) (bits : BitVec 6) : (s.change bits).top.line = s.top.line := by obtain ⟨_, _, h_⟩ := State.change_only s bits; rw [h_]
@[simp] theorem State.change_top_build (s : State) (bits : BitVec 6) : (s.change bits).top.build = s.top.build := by obtain ⟨_, _, h_⟩ := State.change_only s bits; rw [h_]
@[simp] theorem State.change_top_ready (s : State) (bits : BitVec 6) : (s.change bits).top.ready = s.top.ready := by obtain ⟨_, _, h_⟩ := State.change_only s bits; rw [h_]
@[simp] theorem State.change_top_handover (s : State) (bits : BitVec 6) : (s.change bits).top.handover = s.top.handover := by obtain ⟨_, _, h_⟩ := State.change_only s bits; rw [h_]
@[simp] theorem State.change_top_pairB (s : State) (bits : BitVec 6) : (s.change bits).top.pairB = s.top.pairB := by obtain ⟨_, _, h_⟩ := State.change_only s bits; rw [h_]
@[simp] theorem State.change_top_gatherId (s : State) (bits : BitVec 6) : (s.change bits).top.gatherId = s.top.gatherId := by obtain ⟨_, _, h_⟩ := State.change_only s bits; rw [h_]
@[simp] theorem State.change_top_wiping (s : State) (bits : BitVec 6) : (s.change bits).top.wiping = s.top.wiping := by obtain ⟨_, _, h_⟩ := State.change_only s bits; rw [h_]
@[simp] theorem State.change_top_replay (s : State) (bits : BitVec 6) : (s.change bits).top.replay = s.top.replay := by obtain ⟨_, _, h_⟩ := State.change_only s bits; rw [h_]
@[simp] theorem State.change_top_faults (s : State) (bits : BitVec 6) : (s.change bits).top.faults = s.top.faults := by obtain ⟨_, _, h_⟩ := State.change_only s bits; rw [h_]
@[simp] theorem State.change_top_hfaults (s : State) (bits : BitVec 6) : (s.change bits).top.hfaults = s.top.hfaults := by obtain ⟨_, _, h_⟩ := State.change_only s bits; rw [h_]
@[simp] theorem State.change_top_hfKind (s : State) (bits : BitVec 6) : (s.change bits).top.hfKind = s.top.hfKind := by obtain ⟨_, _, h_⟩ := State.change_only s bits; rw [h_]
@[simp] theorem State.change_top_hfWindow (s : State) (bits : BitVec 6) : (s.change bits).top.hfWindow = s.top.hfWindow := by obtain ⟨_, _, h_⟩ := State.change_only s bits; rw [h_]
@[simp] theorem State.change_top_hfWrite (s : State) (bits : BitVec 6) : (s.change bits).top.hfWrite = s.top.hfWrite := by obtain ⟨_, _, h_⟩ := State.change_only s bits; rw [h_]
@[simp] theorem State.change_top_hfOffset (s : State) (bits : BitVec 6) : (s.change bits).top.hfOffset = s.top.hfOffset := by obtain ⟨_, _, h_⟩ := State.change_only s bits; rw [h_]
@[simp] theorem State.change_top_ringMap (s : State) (bits : BitVec 6) : (s.change bits).top.ringMap = s.top.ringMap := by obtain ⟨_, _, h_⟩ := State.change_only s bits; rw [h_]
@[simp] theorem State.change_top_timeHi (s : State) (bits : BitVec 6) : (s.change bits).top.timeHi = s.top.timeHi := by obtain ⟨_, _, h_⟩ := State.change_only s bits; rw [h_]
@[simp] theorem State.change_host_rings (s : State) (bits : BitVec 6) : (s.change bits).host.rings = s.host.rings := by obtain ⟨_, _, h_⟩ := State.change_only s bits; rw [h_]
@[simp] theorem State.change_host_cmdq (s : State) (bits : BitVec 6) : (s.change bits).host.cmdq = s.host.cmdq := by obtain ⟨_, _, h_⟩ := State.change_only s bits; rw [h_]
@[simp] theorem State.change_host_evtq (s : State) (bits : BitVec 6) : (s.change bits).host.evtq = s.host.evtq := by obtain ⟨_, _, h_⟩ := State.change_only s bits; rw [h_]
@[simp] theorem State.change_host_stmq (s : State) (bits : BitVec 6) : (s.change bits).host.stmq = s.host.stmq := by obtain ⟨_, _, h_⟩ := State.change_only s bits; rw [h_]
@[simp] theorem State.change_host_win (s : State) (bits : BitVec 6) : (s.change bits).host.win = s.host.win := by obtain ⟨_, _, h_⟩ := State.change_only s bits; rw [h_]
@[simp] theorem State.change_host_irq (s : State) (bits : BitVec 6) : (s.change bits).host.irq = s.host.irq := by obtain ⟨_, _, h_⟩ := State.change_only s bits; rw [h_]
@[simp] theorem State.change_host_chan (s : State) (bits : BitVec 6) : (s.change bits).host.chan = s.host.chan := by obtain ⟨_, _, h_⟩ := State.change_only s bits; rw [h_]
@[simp] theorem State.change_host_bus (s : State) (bits : BitVec 6) : (s.change bits).host.bus = s.host.bus := by obtain ⟨_, _, h_⟩ := State.change_only s bits; rw [h_]
@[simp] theorem State.change_host_fetchNo (s : State) (bits : BitVec 6) : (s.change bits).host.fetchNo = s.host.fetchNo := by obtain ⟨_, _, h_⟩ := State.change_only s bits; rw [h_]
@[simp] theorem State.change_host_groupNo (s : State) (bits : BitVec 6) : (s.change bits).host.groupNo = s.host.groupNo := by obtain ⟨_, _, h_⟩ := State.change_only s bits; rw [h_]
@[simp] theorem State.change_host_nextSession (s : State) (bits : BitVec 6) : (s.change bits).host.nextSession = s.host.nextSession := by obtain ⟨_, _, h_⟩ := State.change_only s bits; rw [h_]
@[simp] theorem State.change_host_perst (s : State) (bits : BitVec 6) : (s.change bits).host.perst = s.host.perst := by obtain ⟨_, _, h_⟩ := State.change_only s bits; rw [h_]
@[simp] theorem State.change_host_linkTraining (s : State) (bits : BitVec 6) : (s.change bits).host.linkTraining = s.host.linkTraining := by obtain ⟨_, _, h_⟩ := State.change_only s bits; rw [h_]
@[simp] theorem State.change_host_rrNext (s : State) (bits : BitVec 6) : (s.change bits).host.rrNext = s.host.rrNext := by obtain ⟨_, _, h_⟩ := State.change_only s bits; rw [h_]
@[simp] theorem State.change_host_rrUrgent (s : State) (bits : BitVec 6) : (s.change bits).host.rrUrgent = s.host.rrUrgent := by obtain ⟨_, _, h_⟩ := State.change_only s bits; rw [h_]
@[simp] theorem State.change_net (s : State) (bits : BitVec 6) : (s.change bits).net = s.net := by obtain ⟨_, _, h_⟩ := State.change_only s bits; rw [h_]
@[simp] theorem State.change_dec (s : State) (bits : BitVec 6) : (s.change bits).dec = s.dec := by obtain ⟨_, _, h_⟩ := State.change_only s bits; rw [h_]
@[simp] theorem State.change_comp (s : State) (bits : BitVec 6) : (s.change bits).comp = s.comp := by obtain ⟨_, _, h_⟩ := State.change_only s bits; rw [h_]
@[simp] theorem State.change_enc (s : State) (bits : BitVec 6) : (s.change bits).enc = s.enc := by obtain ⟨_, _, h_⟩ := State.change_only s bits; rw [h_]
@[simp] theorem State.change_fab (s : State) (bits : BitVec 6) : (s.change bits).fab = s.fab := by obtain ⟨_, _, h_⟩ := State.change_only s bits; rw [h_]
@[simp] theorem State.change_store (s : State) (bits : BitVec 6) : (s.change bits).store = s.store := by obtain ⟨_, _, h_⟩ := State.change_only s bits; rw [h_]
@[simp] theorem State.change_sec (s : State) (bits : BitVec 6) : (s.change bits).sec = s.sec := by obtain ⟨_, _, h_⟩ := State.change_only s bits; rw [h_]
@[simp] theorem State.change_mail (s : State) (bits : BitVec 6) : (s.change bits).mail = s.mail := by obtain ⟨_, _, h_⟩ := State.change_only s bits; rw [h_]
@[simp] theorem State.change_gath (s : State) (bits : BitVec 6) : (s.change bits).gath = s.gath := by obtain ⟨_, _, h_⟩ := State.change_only s bits; rw [h_]
@[simp] theorem State.change_twin (s : State) (bits : BitVec 6) : (s.change bits).twin = s.twin := by obtain ⟨_, _, h_⟩ := State.change_only s bits; rw [h_]
@[simp] theorem State.change_desk (s : State) (bits : BitVec 6) : (s.change bits).desk = s.desk := by obtain ⟨_, _, h_⟩ := State.change_only s bits; rw [h_]
@[simp] theorem State.change_pwr (s : State) (bits : BitVec 6) : (s.change bits).pwr = s.pwr := by obtain ⟨_, _, h_⟩ := State.change_only s bits; rw [h_]
@[simp] theorem State.change_lanes (s : State) (bits : BitVec 6) : (s.change bits).lanes = s.lanes := by obtain ⟨_, _, h_⟩ := State.change_only s bits; rw [h_]
@[simp] theorem State.change_flt (s : State) (bits : BitVec 6) : (s.change bits).flt = s.flt := by obtain ⟨_, _, h_⟩ := State.change_only s bits; rw [h_]
@[simp] theorem State.change_svc (s : State) (bits : BitVec 6) : (s.change bits).svc = s.svc := by obtain ⟨_, _, h_⟩ := State.change_only s bits; rw [h_]
@[simp] theorem State.change_jrn (s : State) (bits : BitVec 6) : (s.change bits).jrn = s.jrn := by obtain ⟨_, _, h_⟩ := State.change_only s bits; rw [h_]
@[simp] theorem State.change_pending (s : State) (bits : BitVec 6) : (s.change bits).pending = s.pending := by obtain ⟨_, _, h_⟩ := State.change_only s bits; rw [h_]
@[simp] theorem State.change_ring (s : State) (bits : BitVec 6) (r_ : Nat) : (s.change bits).ring r_ = s.ring r_ := by obtain ⟨_, _, h_⟩ := State.change_only s bits; rw [h_]; rfl
@[simp] theorem State.change_cmdQ (s : State) (bits : BitVec 6) (r_ : Nat) : (s.change bits).cmdQ r_ = s.cmdQ r_ := by obtain ⟨_, _, h_⟩ := State.change_only s bits; rw [h_]; rfl
@[simp] theorem State.change_evtQ (s : State) (bits : BitVec 6) (n_ : Nat) : (s.change bits).evtQ n_ = s.evtQ n_ := by obtain ⟨_, _, h_⟩ := State.change_only s bits; rw [h_]; rfl
@[simp] theorem State.change_window (s : State) (bits : BitVec 6) (w_ : Nat) : (s.change bits).window w_ = s.window w_ := by obtain ⟨_, _, h_⟩ := State.change_only s bits; rw [h_]; rfl
@[simp] theorem State.change_chan (s : State) (bits : BitVec 6) (c_ : Nat) : (s.change bits).chan c_ = s.chan c_ := by obtain ⟨_, _, h_⟩ := State.change_only s bits; rw [h_]; rfl
@[simp] theorem State.change_ctx (s : State) (bits : BitVec 6) (c_ : Nat) : (s.change bits).ctx c_ = s.ctx c_ := by obtain ⟨_, _, h_⟩ := State.change_only s bits; rw [h_]; rfl
@[simp] theorem State.change_engine (s : State) (bits : BitVec 6) (e_ : Nat) : (s.change bits).engine e_ = s.engine e_ := by obtain ⟨_, _, h_⟩ := State.change_only s bits; rw [h_]; rfl
@[simp] theorem State.change_port (s : State) (bits : BitVec 6) (p_ : Nat) : (s.change bits).port p_ = s.port p_ := by obtain ⟨_, _, h_⟩ := State.change_only s bits; rw [h_]; rfl
@[simp] theorem State.change_layer (s : State) (bits : BitVec 6) (i_ : Nat) : (s.change bits).layer i_ = s.layer i_ := by obtain ⟨_, _, h_⟩ := State.change_only s bits; rw [h_]; rfl
@[simp] theorem State.change_head (s : State) (bits : BitVec 6) (h_ : Nat) : (s.change bits).head h_ = s.head h_ := by obtain ⟨_, _, h_⟩ := State.change_only s bits; rw [h_]; rfl
@[simp] theorem State.change_dpPort (s : State) (bits : BitVec 6) (p_ : Nat) : (s.change bits).dpPort p_ = s.dpPort p_ := by obtain ⟨_, _, h_⟩ := State.change_only s bits; rw [h_]; rfl
@[simp] theorem State.change_plate (s : State) (bits : BitVec 6) (h_ : Nat) : (s.change bits).plate h_ = s.plate h_ := by obtain ⟨_, _, h_⟩ := State.change_only s bits; rw [h_]; rfl
@[simp] theorem State.change_session (s : State) (bits : BitVec 6) (i_ : Nat) : (s.change bits).session i_ = s.session i_ := by obtain ⟨_, _, h_⟩ := State.change_only s bits; rw [h_]; rfl
@[simp] theorem State.change_encoder (s : State) (bits : BitVec 6) (e_ : Nat) : (s.change bits).encoder e_ = s.encoder e_ := by obtain ⟨_, _, h_⟩ := State.change_only s bits; rw [h_]; rfl
@[simp] theorem State.change_island (s : State) (bits : BitVec 6) (i_ : Nat) : (s.change bits).island i_ = s.island i_ := by obtain ⟨_, _, h_⟩ := State.change_only s bits; rw [h_]; rfl
@[simp] theorem State.change_dram (s : State) (bits : BitVec 6) (c_ : Nat) : (s.change bits).dram c_ = s.dram c_ := by obtain ⟨_, _, h_⟩ := State.change_only s bits; rw [h_]; rfl
@[simp] theorem State.change_panel (s : State) (bits : BitVec 6) (t_ : Nat) : (s.change bits).panel t_ = s.panel t_ := by obtain ⟨_, _, h_⟩ := State.change_only s bits; rw [h_]; rfl
@[simp] theorem State.change_input (s : State) (bits : BitVec 6) (i_ : Nat) : (s.change bits).input i_ = s.input i_ := by obtain ⟨_, _, h_⟩ := State.change_only s bits; rw [h_]; rfl
@[simp] theorem State.change_output (s : State) (bits : BitVec 6) (o_ : Nat) : (s.change bits).output o_ = s.output o_ := by obtain ⟨_, _, h_⟩ := State.change_only s bits; rw [h_]; rfl
@[simp] theorem State.change_quad (s : State) (bits : BitVec 6) (q_ : Nat) : (s.change bits).quad q_ = s.quad q_ := by obtain ⟨_, _, h_⟩ := State.change_only s bits; rw [h_]; rfl
@[simp] theorem State.change_hostBox (s : State) (bits : BitVec 6) (n_ : Nat) : (s.change bits).hostBox n_ = s.hostBox n_ := by obtain ⟨_, _, h_⟩ := State.change_only s bits; rw [h_]; rfl
@[simp] theorem State.change_farBox (s : State) (bits : BitVec 6) (m_ : Nat) : (s.change bits).farBox m_ = s.farBox m_ := by obtain ⟨_, _, h_⟩ := State.change_only s bits; rw [h_]; rfl
@[simp] theorem State.change_member (s : State) (bits : BitVec 6) (m_ : Nat) : (s.change bits).member m_ = s.member m_ := by obtain ⟨_, _, h_⟩ := State.change_only s bits; rw [h_]; rfl
@[simp] theorem State.change_spineLink (s : State) (bits : BitVec 6) (l_ : Nat) : (s.change bits).spineLink l_ = s.spineLink l_ := by obtain ⟨_, _, h_⟩ := State.change_only s bits; rw [h_]; rfl
@[simp] theorem State.change_cvUnit (s : State) (bits : BitVec 6) (u_ : Nat) : (s.change bits).cvUnit u_ = s.cvUnit u_ := by obtain ⟨_, _, h_⟩ := State.change_only s bits; rw [h_]; rfl
@[simp] theorem State.change_zeEngine (s : State) (bits : BitVec 6) (e_ : Nat) : (s.change bits).zeEngine e_ = s.zeEngine e_ := by obtain ⟨_, _, h_⟩ := State.change_only s bits; rw [h_]; rfl
@[simp] theorem State.change_mapOf (s : State) (bits : BitVec 6) (r_ : Nat) : (s.change bits).mapOf r_ = s.mapOf r_ := by obtain ⟨_, _, h_⟩ := State.change_only s bits; rw [h_]; rfl

/-- A host-access fault changes the registers that report it (R349). -/
theorem State.hostFault_only (s : State) (kind : Nat) (wr : Bool) (win off : Nat) :
    ∃ hfaults_ hfKind_ hfWindow_ hfWrite_ hfOffset_, s.hostFault kind wr win off = { s with top := { s.top with hfaults := hfaults_, hfKind := hfKind_, hfWindow := hfWindow_, hfWrite := hfWrite_, hfOffset := hfOffset_ } } := by
  exact ⟨_, _, _, _, _, rfl⟩

@[simp] theorem State.hostFault_tb (s : State) (kind : Nat) (wr : Bool) (win off : Nat) : (s.hostFault kind wr win off).tb = s.tb := by obtain ⟨_, _, _, _, _, h_⟩ := State.hostFault_only s kind wr win off; rw [h_]
@[simp] theorem State.hostFault_top_step (s : State) (kind : Nat) (wr : Bool) (win off : Nat) : (s.hostFault kind wr win off).top.step = s.top.step := by obtain ⟨_, _, _, _, _, h_⟩ := State.hostFault_only s kind wr win off; rw [h_]
@[simp] theorem State.hostFault_top_line (s : State) (kind : Nat) (wr : Bool) (win off : Nat) : (s.hostFault kind wr win off).top.line = s.top.line := by obtain ⟨_, _, _, _, _, h_⟩ := State.hostFault_only s kind wr win off; rw [h_]
@[simp] theorem State.hostFault_top_build (s : State) (kind : Nat) (wr : Bool) (win off : Nat) : (s.hostFault kind wr win off).top.build = s.top.build := by obtain ⟨_, _, _, _, _, h_⟩ := State.hostFault_only s kind wr win off; rw [h_]
@[simp] theorem State.hostFault_top_ready (s : State) (kind : Nat) (wr : Bool) (win off : Nat) : (s.hostFault kind wr win off).top.ready = s.top.ready := by obtain ⟨_, _, _, _, _, h_⟩ := State.hostFault_only s kind wr win off; rw [h_]
@[simp] theorem State.hostFault_top_handover (s : State) (kind : Nat) (wr : Bool) (win off : Nat) : (s.hostFault kind wr win off).top.handover = s.top.handover := by obtain ⟨_, _, _, _, _, h_⟩ := State.hostFault_only s kind wr win off; rw [h_]
@[simp] theorem State.hostFault_top_pairB (s : State) (kind : Nat) (wr : Bool) (win off : Nat) : (s.hostFault kind wr win off).top.pairB = s.top.pairB := by obtain ⟨_, _, _, _, _, h_⟩ := State.hostFault_only s kind wr win off; rw [h_]
@[simp] theorem State.hostFault_top_gatherId (s : State) (kind : Nat) (wr : Bool) (win off : Nat) : (s.hostFault kind wr win off).top.gatherId = s.top.gatherId := by obtain ⟨_, _, _, _, _, h_⟩ := State.hostFault_only s kind wr win off; rw [h_]
@[simp] theorem State.hostFault_top_wiping (s : State) (kind : Nat) (wr : Bool) (win off : Nat) : (s.hostFault kind wr win off).top.wiping = s.top.wiping := by obtain ⟨_, _, _, _, _, h_⟩ := State.hostFault_only s kind wr win off; rw [h_]
@[simp] theorem State.hostFault_top_replay (s : State) (kind : Nat) (wr : Bool) (win off : Nat) : (s.hostFault kind wr win off).top.replay = s.top.replay := by obtain ⟨_, _, _, _, _, h_⟩ := State.hostFault_only s kind wr win off; rw [h_]
@[simp] theorem State.hostFault_top_faults (s : State) (kind : Nat) (wr : Bool) (win off : Nat) : (s.hostFault kind wr win off).top.faults = s.top.faults := by obtain ⟨_, _, _, _, _, h_⟩ := State.hostFault_only s kind wr win off; rw [h_]
@[simp] theorem State.hostFault_top_change (s : State) (kind : Nat) (wr : Bool) (win off : Nat) : (s.hostFault kind wr win off).top.change = s.top.change := by obtain ⟨_, _, _, _, _, h_⟩ := State.hostFault_only s kind wr win off; rw [h_]
@[simp] theorem State.hostFault_top_ringMap (s : State) (kind : Nat) (wr : Bool) (win off : Nat) : (s.hostFault kind wr win off).top.ringMap = s.top.ringMap := by obtain ⟨_, _, _, _, _, h_⟩ := State.hostFault_only s kind wr win off; rw [h_]
@[simp] theorem State.hostFault_top_timeHi (s : State) (kind : Nat) (wr : Bool) (win off : Nat) : (s.hostFault kind wr win off).top.timeHi = s.top.timeHi := by obtain ⟨_, _, _, _, _, h_⟩ := State.hostFault_only s kind wr win off; rw [h_]
@[simp] theorem State.hostFault_host (s : State) (kind : Nat) (wr : Bool) (win off : Nat) : (s.hostFault kind wr win off).host = s.host := by obtain ⟨_, _, _, _, _, h_⟩ := State.hostFault_only s kind wr win off; rw [h_]
@[simp] theorem State.hostFault_net (s : State) (kind : Nat) (wr : Bool) (win off : Nat) : (s.hostFault kind wr win off).net = s.net := by obtain ⟨_, _, _, _, _, h_⟩ := State.hostFault_only s kind wr win off; rw [h_]
@[simp] theorem State.hostFault_dec (s : State) (kind : Nat) (wr : Bool) (win off : Nat) : (s.hostFault kind wr win off).dec = s.dec := by obtain ⟨_, _, _, _, _, h_⟩ := State.hostFault_only s kind wr win off; rw [h_]
@[simp] theorem State.hostFault_comp (s : State) (kind : Nat) (wr : Bool) (win off : Nat) : (s.hostFault kind wr win off).comp = s.comp := by obtain ⟨_, _, _, _, _, h_⟩ := State.hostFault_only s kind wr win off; rw [h_]
@[simp] theorem State.hostFault_enc (s : State) (kind : Nat) (wr : Bool) (win off : Nat) : (s.hostFault kind wr win off).enc = s.enc := by obtain ⟨_, _, _, _, _, h_⟩ := State.hostFault_only s kind wr win off; rw [h_]
@[simp] theorem State.hostFault_fab (s : State) (kind : Nat) (wr : Bool) (win off : Nat) : (s.hostFault kind wr win off).fab = s.fab := by obtain ⟨_, _, _, _, _, h_⟩ := State.hostFault_only s kind wr win off; rw [h_]
@[simp] theorem State.hostFault_store (s : State) (kind : Nat) (wr : Bool) (win off : Nat) : (s.hostFault kind wr win off).store = s.store := by obtain ⟨_, _, _, _, _, h_⟩ := State.hostFault_only s kind wr win off; rw [h_]
@[simp] theorem State.hostFault_sec (s : State) (kind : Nat) (wr : Bool) (win off : Nat) : (s.hostFault kind wr win off).sec = s.sec := by obtain ⟨_, _, _, _, _, h_⟩ := State.hostFault_only s kind wr win off; rw [h_]
@[simp] theorem State.hostFault_mail (s : State) (kind : Nat) (wr : Bool) (win off : Nat) : (s.hostFault kind wr win off).mail = s.mail := by obtain ⟨_, _, _, _, _, h_⟩ := State.hostFault_only s kind wr win off; rw [h_]
@[simp] theorem State.hostFault_gath (s : State) (kind : Nat) (wr : Bool) (win off : Nat) : (s.hostFault kind wr win off).gath = s.gath := by obtain ⟨_, _, _, _, _, h_⟩ := State.hostFault_only s kind wr win off; rw [h_]
@[simp] theorem State.hostFault_twin (s : State) (kind : Nat) (wr : Bool) (win off : Nat) : (s.hostFault kind wr win off).twin = s.twin := by obtain ⟨_, _, _, _, _, h_⟩ := State.hostFault_only s kind wr win off; rw [h_]
@[simp] theorem State.hostFault_desk (s : State) (kind : Nat) (wr : Bool) (win off : Nat) : (s.hostFault kind wr win off).desk = s.desk := by obtain ⟨_, _, _, _, _, h_⟩ := State.hostFault_only s kind wr win off; rw [h_]
@[simp] theorem State.hostFault_pwr (s : State) (kind : Nat) (wr : Bool) (win off : Nat) : (s.hostFault kind wr win off).pwr = s.pwr := by obtain ⟨_, _, _, _, _, h_⟩ := State.hostFault_only s kind wr win off; rw [h_]
@[simp] theorem State.hostFault_lanes (s : State) (kind : Nat) (wr : Bool) (win off : Nat) : (s.hostFault kind wr win off).lanes = s.lanes := by obtain ⟨_, _, _, _, _, h_⟩ := State.hostFault_only s kind wr win off; rw [h_]
@[simp] theorem State.hostFault_flt (s : State) (kind : Nat) (wr : Bool) (win off : Nat) : (s.hostFault kind wr win off).flt = s.flt := by obtain ⟨_, _, _, _, _, h_⟩ := State.hostFault_only s kind wr win off; rw [h_]
@[simp] theorem State.hostFault_svc (s : State) (kind : Nat) (wr : Bool) (win off : Nat) : (s.hostFault kind wr win off).svc = s.svc := by obtain ⟨_, _, _, _, _, h_⟩ := State.hostFault_only s kind wr win off; rw [h_]
@[simp] theorem State.hostFault_jrn (s : State) (kind : Nat) (wr : Bool) (win off : Nat) : (s.hostFault kind wr win off).jrn = s.jrn := by obtain ⟨_, _, _, _, _, h_⟩ := State.hostFault_only s kind wr win off; rw [h_]
@[simp] theorem State.hostFault_pending (s : State) (kind : Nat) (wr : Bool) (win off : Nat) : (s.hostFault kind wr win off).pending = s.pending := by obtain ⟨_, _, _, _, _, h_⟩ := State.hostFault_only s kind wr win off; rw [h_]
@[simp] theorem State.hostFault_ring (s : State) (kind : Nat) (wr : Bool) (win off : Nat) (r_ : Nat) : (s.hostFault kind wr win off).ring r_ = s.ring r_ := by obtain ⟨_, _, _, _, _, h_⟩ := State.hostFault_only s kind wr win off; rw [h_]; rfl
@[simp] theorem State.hostFault_cmdQ (s : State) (kind : Nat) (wr : Bool) (win off : Nat) (r_ : Nat) : (s.hostFault kind wr win off).cmdQ r_ = s.cmdQ r_ := by obtain ⟨_, _, _, _, _, h_⟩ := State.hostFault_only s kind wr win off; rw [h_]; rfl
@[simp] theorem State.hostFault_evtQ (s : State) (kind : Nat) (wr : Bool) (win off : Nat) (n_ : Nat) : (s.hostFault kind wr win off).evtQ n_ = s.evtQ n_ := by obtain ⟨_, _, _, _, _, h_⟩ := State.hostFault_only s kind wr win off; rw [h_]; rfl
@[simp] theorem State.hostFault_window (s : State) (kind : Nat) (wr : Bool) (win off : Nat) (w_ : Nat) : (s.hostFault kind wr win off).window w_ = s.window w_ := by obtain ⟨_, _, _, _, _, h_⟩ := State.hostFault_only s kind wr win off; rw [h_]; rfl
@[simp] theorem State.hostFault_chan (s : State) (kind : Nat) (wr : Bool) (win off : Nat) (c_ : Nat) : (s.hostFault kind wr win off).chan c_ = s.chan c_ := by obtain ⟨_, _, _, _, _, h_⟩ := State.hostFault_only s kind wr win off; rw [h_]; rfl
@[simp] theorem State.hostFault_ctx (s : State) (kind : Nat) (wr : Bool) (win off : Nat) (c_ : Nat) : (s.hostFault kind wr win off).ctx c_ = s.ctx c_ := by obtain ⟨_, _, _, _, _, h_⟩ := State.hostFault_only s kind wr win off; rw [h_]; rfl
@[simp] theorem State.hostFault_engine (s : State) (kind : Nat) (wr : Bool) (win off : Nat) (e_ : Nat) : (s.hostFault kind wr win off).engine e_ = s.engine e_ := by obtain ⟨_, _, _, _, _, h_⟩ := State.hostFault_only s kind wr win off; rw [h_]; rfl
@[simp] theorem State.hostFault_port (s : State) (kind : Nat) (wr : Bool) (win off : Nat) (p_ : Nat) : (s.hostFault kind wr win off).port p_ = s.port p_ := by obtain ⟨_, _, _, _, _, h_⟩ := State.hostFault_only s kind wr win off; rw [h_]; rfl
@[simp] theorem State.hostFault_layer (s : State) (kind : Nat) (wr : Bool) (win off : Nat) (i_ : Nat) : (s.hostFault kind wr win off).layer i_ = s.layer i_ := by obtain ⟨_, _, _, _, _, h_⟩ := State.hostFault_only s kind wr win off; rw [h_]; rfl
@[simp] theorem State.hostFault_head (s : State) (kind : Nat) (wr : Bool) (win off : Nat) (h_ : Nat) : (s.hostFault kind wr win off).head h_ = s.head h_ := by obtain ⟨_, _, _, _, _, h_⟩ := State.hostFault_only s kind wr win off; rw [h_]; rfl
@[simp] theorem State.hostFault_dpPort (s : State) (kind : Nat) (wr : Bool) (win off : Nat) (p_ : Nat) : (s.hostFault kind wr win off).dpPort p_ = s.dpPort p_ := by obtain ⟨_, _, _, _, _, h_⟩ := State.hostFault_only s kind wr win off; rw [h_]; rfl
@[simp] theorem State.hostFault_plate (s : State) (kind : Nat) (wr : Bool) (win off : Nat) (h_ : Nat) : (s.hostFault kind wr win off).plate h_ = s.plate h_ := by obtain ⟨_, _, _, _, _, h_⟩ := State.hostFault_only s kind wr win off; rw [h_]; rfl
@[simp] theorem State.hostFault_session (s : State) (kind : Nat) (wr : Bool) (win off : Nat) (i_ : Nat) : (s.hostFault kind wr win off).session i_ = s.session i_ := by obtain ⟨_, _, _, _, _, h_⟩ := State.hostFault_only s kind wr win off; rw [h_]; rfl
@[simp] theorem State.hostFault_encoder (s : State) (kind : Nat) (wr : Bool) (win off : Nat) (e_ : Nat) : (s.hostFault kind wr win off).encoder e_ = s.encoder e_ := by obtain ⟨_, _, _, _, _, h_⟩ := State.hostFault_only s kind wr win off; rw [h_]; rfl
@[simp] theorem State.hostFault_island (s : State) (kind : Nat) (wr : Bool) (win off : Nat) (i_ : Nat) : (s.hostFault kind wr win off).island i_ = s.island i_ := by obtain ⟨_, _, _, _, _, h_⟩ := State.hostFault_only s kind wr win off; rw [h_]; rfl
@[simp] theorem State.hostFault_dram (s : State) (kind : Nat) (wr : Bool) (win off : Nat) (c_ : Nat) : (s.hostFault kind wr win off).dram c_ = s.dram c_ := by obtain ⟨_, _, _, _, _, h_⟩ := State.hostFault_only s kind wr win off; rw [h_]; rfl
@[simp] theorem State.hostFault_panel (s : State) (kind : Nat) (wr : Bool) (win off : Nat) (t_ : Nat) : (s.hostFault kind wr win off).panel t_ = s.panel t_ := by obtain ⟨_, _, _, _, _, h_⟩ := State.hostFault_only s kind wr win off; rw [h_]; rfl
@[simp] theorem State.hostFault_input (s : State) (kind : Nat) (wr : Bool) (win off : Nat) (i_ : Nat) : (s.hostFault kind wr win off).input i_ = s.input i_ := by obtain ⟨_, _, _, _, _, h_⟩ := State.hostFault_only s kind wr win off; rw [h_]; rfl
@[simp] theorem State.hostFault_output (s : State) (kind : Nat) (wr : Bool) (win off : Nat) (o_ : Nat) : (s.hostFault kind wr win off).output o_ = s.output o_ := by obtain ⟨_, _, _, _, _, h_⟩ := State.hostFault_only s kind wr win off; rw [h_]; rfl
@[simp] theorem State.hostFault_quad (s : State) (kind : Nat) (wr : Bool) (win off : Nat) (q_ : Nat) : (s.hostFault kind wr win off).quad q_ = s.quad q_ := by obtain ⟨_, _, _, _, _, h_⟩ := State.hostFault_only s kind wr win off; rw [h_]; rfl
@[simp] theorem State.hostFault_hostBox (s : State) (kind : Nat) (wr : Bool) (win off : Nat) (n_ : Nat) : (s.hostFault kind wr win off).hostBox n_ = s.hostBox n_ := by obtain ⟨_, _, _, _, _, h_⟩ := State.hostFault_only s kind wr win off; rw [h_]; rfl
@[simp] theorem State.hostFault_farBox (s : State) (kind : Nat) (wr : Bool) (win off : Nat) (m_ : Nat) : (s.hostFault kind wr win off).farBox m_ = s.farBox m_ := by obtain ⟨_, _, _, _, _, h_⟩ := State.hostFault_only s kind wr win off; rw [h_]; rfl
@[simp] theorem State.hostFault_member (s : State) (kind : Nat) (wr : Bool) (win off : Nat) (m_ : Nat) : (s.hostFault kind wr win off).member m_ = s.member m_ := by obtain ⟨_, _, _, _, _, h_⟩ := State.hostFault_only s kind wr win off; rw [h_]; rfl
@[simp] theorem State.hostFault_spineLink (s : State) (kind : Nat) (wr : Bool) (win off : Nat) (l_ : Nat) : (s.hostFault kind wr win off).spineLink l_ = s.spineLink l_ := by obtain ⟨_, _, _, _, _, h_⟩ := State.hostFault_only s kind wr win off; rw [h_]; rfl
@[simp] theorem State.hostFault_cvUnit (s : State) (kind : Nat) (wr : Bool) (win off : Nat) (u_ : Nat) : (s.hostFault kind wr win off).cvUnit u_ = s.cvUnit u_ := by obtain ⟨_, _, _, _, _, h_⟩ := State.hostFault_only s kind wr win off; rw [h_]; rfl
@[simp] theorem State.hostFault_zeEngine (s : State) (kind : Nat) (wr : Bool) (win off : Nat) (e_ : Nat) : (s.hostFault kind wr win off).zeEngine e_ = s.zeEngine e_ := by obtain ⟨_, _, _, _, _, h_⟩ := State.hostFault_only s kind wr win off; rw [h_]; rfl
@[simp] theorem State.hostFault_mapOf (s : State) (kind : Nat) (wr : Bool) (win off : Nat) (r_ : Nat) : (s.hostFault kind wr win off).mapOf r_ = s.mapOf r_ := by obtain ⟨_, _, _, _, _, h_⟩ := State.hostFault_only s kind wr win off; rw [h_]; rfl

/-- A record that enters a holding queue, or is dropped, changes that queue and `RING.LOST` (R342). -/
theorem State.enqueue_only (s : State) (n : Nat) (h : Held) :
    ∃ evtq_ rings_, s.enqueue n h = { s with host := { s.host with evtq := evtq_, rings := rings_ } } := by
  unfold State.enqueue
  generalize (if s.mirroring = true then 1 else 0) = k
  dsimp only
  split
  · exact ⟨_, s.host.rings, rfl⟩
  · exact ⟨_, _, rfl⟩

@[simp] theorem State.enqueue_tb (s : State) (n : Nat) (h : Held) : (s.enqueue n h).tb = s.tb := by obtain ⟨_, _, h_⟩ := State.enqueue_only s n h; rw [h_]
@[simp] theorem State.enqueue_top (s : State) (n : Nat) (h : Held) : (s.enqueue n h).top = s.top := by obtain ⟨_, _, h_⟩ := State.enqueue_only s n h; rw [h_]
@[simp] theorem State.enqueue_host_cmdq (s : State) (n : Nat) (h : Held) : (s.enqueue n h).host.cmdq = s.host.cmdq := by obtain ⟨_, _, h_⟩ := State.enqueue_only s n h; rw [h_]
@[simp] theorem State.enqueue_host_stmq (s : State) (n : Nat) (h : Held) : (s.enqueue n h).host.stmq = s.host.stmq := by obtain ⟨_, _, h_⟩ := State.enqueue_only s n h; rw [h_]
@[simp] theorem State.enqueue_host_win (s : State) (n : Nat) (h : Held) : (s.enqueue n h).host.win = s.host.win := by obtain ⟨_, _, h_⟩ := State.enqueue_only s n h; rw [h_]
@[simp] theorem State.enqueue_host_irq (s : State) (n : Nat) (h : Held) : (s.enqueue n h).host.irq = s.host.irq := by obtain ⟨_, _, h_⟩ := State.enqueue_only s n h; rw [h_]
@[simp] theorem State.enqueue_host_msix (s : State) (n : Nat) (h : Held) : (s.enqueue n h).host.msix = s.host.msix := by obtain ⟨_, _, h_⟩ := State.enqueue_only s n h; rw [h_]
@[simp] theorem State.enqueue_host_chan (s : State) (n : Nat) (h : Held) : (s.enqueue n h).host.chan = s.host.chan := by obtain ⟨_, _, h_⟩ := State.enqueue_only s n h; rw [h_]
@[simp] theorem State.enqueue_host_bus (s : State) (n : Nat) (h : Held) : (s.enqueue n h).host.bus = s.host.bus := by obtain ⟨_, _, h_⟩ := State.enqueue_only s n h; rw [h_]
@[simp] theorem State.enqueue_host_fetchNo (s : State) (n : Nat) (h : Held) : (s.enqueue n h).host.fetchNo = s.host.fetchNo := by obtain ⟨_, _, h_⟩ := State.enqueue_only s n h; rw [h_]
@[simp] theorem State.enqueue_host_groupNo (s : State) (n : Nat) (h : Held) : (s.enqueue n h).host.groupNo = s.host.groupNo := by obtain ⟨_, _, h_⟩ := State.enqueue_only s n h; rw [h_]
@[simp] theorem State.enqueue_host_nextSession (s : State) (n : Nat) (h : Held) : (s.enqueue n h).host.nextSession = s.host.nextSession := by obtain ⟨_, _, h_⟩ := State.enqueue_only s n h; rw [h_]
@[simp] theorem State.enqueue_host_perst (s : State) (n : Nat) (h : Held) : (s.enqueue n h).host.perst = s.host.perst := by obtain ⟨_, _, h_⟩ := State.enqueue_only s n h; rw [h_]
@[simp] theorem State.enqueue_host_linkTraining (s : State) (n : Nat) (h : Held) : (s.enqueue n h).host.linkTraining = s.host.linkTraining := by obtain ⟨_, _, h_⟩ := State.enqueue_only s n h; rw [h_]
@[simp] theorem State.enqueue_host_rrNext (s : State) (n : Nat) (h : Held) : (s.enqueue n h).host.rrNext = s.host.rrNext := by obtain ⟨_, _, h_⟩ := State.enqueue_only s n h; rw [h_]
@[simp] theorem State.enqueue_host_rrUrgent (s : State) (n : Nat) (h : Held) : (s.enqueue n h).host.rrUrgent = s.host.rrUrgent := by obtain ⟨_, _, h_⟩ := State.enqueue_only s n h; rw [h_]
@[simp] theorem State.enqueue_net (s : State) (n : Nat) (h : Held) : (s.enqueue n h).net = s.net := by obtain ⟨_, _, h_⟩ := State.enqueue_only s n h; rw [h_]
@[simp] theorem State.enqueue_dec (s : State) (n : Nat) (h : Held) : (s.enqueue n h).dec = s.dec := by obtain ⟨_, _, h_⟩ := State.enqueue_only s n h; rw [h_]
@[simp] theorem State.enqueue_comp (s : State) (n : Nat) (h : Held) : (s.enqueue n h).comp = s.comp := by obtain ⟨_, _, h_⟩ := State.enqueue_only s n h; rw [h_]
@[simp] theorem State.enqueue_enc (s : State) (n : Nat) (h : Held) : (s.enqueue n h).enc = s.enc := by obtain ⟨_, _, h_⟩ := State.enqueue_only s n h; rw [h_]
@[simp] theorem State.enqueue_fab (s : State) (n : Nat) (h : Held) : (s.enqueue n h).fab = s.fab := by obtain ⟨_, _, h_⟩ := State.enqueue_only s n h; rw [h_]
@[simp] theorem State.enqueue_store (s : State) (n : Nat) (h : Held) : (s.enqueue n h).store = s.store := by obtain ⟨_, _, h_⟩ := State.enqueue_only s n h; rw [h_]
@[simp] theorem State.enqueue_sec (s : State) (n : Nat) (h : Held) : (s.enqueue n h).sec = s.sec := by obtain ⟨_, _, h_⟩ := State.enqueue_only s n h; rw [h_]
@[simp] theorem State.enqueue_mail (s : State) (n : Nat) (h : Held) : (s.enqueue n h).mail = s.mail := by obtain ⟨_, _, h_⟩ := State.enqueue_only s n h; rw [h_]
@[simp] theorem State.enqueue_gath (s : State) (n : Nat) (h : Held) : (s.enqueue n h).gath = s.gath := by obtain ⟨_, _, h_⟩ := State.enqueue_only s n h; rw [h_]
@[simp] theorem State.enqueue_twin (s : State) (n : Nat) (h : Held) : (s.enqueue n h).twin = s.twin := by obtain ⟨_, _, h_⟩ := State.enqueue_only s n h; rw [h_]
@[simp] theorem State.enqueue_desk (s : State) (n : Nat) (h : Held) : (s.enqueue n h).desk = s.desk := by obtain ⟨_, _, h_⟩ := State.enqueue_only s n h; rw [h_]
@[simp] theorem State.enqueue_pwr (s : State) (n : Nat) (h : Held) : (s.enqueue n h).pwr = s.pwr := by obtain ⟨_, _, h_⟩ := State.enqueue_only s n h; rw [h_]
@[simp] theorem State.enqueue_lanes (s : State) (n : Nat) (h : Held) : (s.enqueue n h).lanes = s.lanes := by obtain ⟨_, _, h_⟩ := State.enqueue_only s n h; rw [h_]
@[simp] theorem State.enqueue_flt (s : State) (n : Nat) (h : Held) : (s.enqueue n h).flt = s.flt := by obtain ⟨_, _, h_⟩ := State.enqueue_only s n h; rw [h_]
@[simp] theorem State.enqueue_svc (s : State) (n : Nat) (h : Held) : (s.enqueue n h).svc = s.svc := by obtain ⟨_, _, h_⟩ := State.enqueue_only s n h; rw [h_]
@[simp] theorem State.enqueue_jrn (s : State) (n : Nat) (h : Held) : (s.enqueue n h).jrn = s.jrn := by obtain ⟨_, _, h_⟩ := State.enqueue_only s n h; rw [h_]
@[simp] theorem State.enqueue_pending (s : State) (n : Nat) (h : Held) : (s.enqueue n h).pending = s.pending := by obtain ⟨_, _, h_⟩ := State.enqueue_only s n h; rw [h_]
@[simp] theorem State.enqueue_cmdQ (s : State) (n : Nat) (h : Held) (r_ : Nat) : (s.enqueue n h).cmdQ r_ = s.cmdQ r_ := by obtain ⟨_, _, h_⟩ := State.enqueue_only s n h; rw [h_]; rfl
@[simp] theorem State.enqueue_window (s : State) (n : Nat) (h : Held) (w_ : Nat) : (s.enqueue n h).window w_ = s.window w_ := by obtain ⟨_, _, h_⟩ := State.enqueue_only s n h; rw [h_]; rfl
@[simp] theorem State.enqueue_chan (s : State) (n : Nat) (h : Held) (c_ : Nat) : (s.enqueue n h).chan c_ = s.chan c_ := by obtain ⟨_, _, h_⟩ := State.enqueue_only s n h; rw [h_]; rfl
@[simp] theorem State.enqueue_ctx (s : State) (n : Nat) (h : Held) (c_ : Nat) : (s.enqueue n h).ctx c_ = s.ctx c_ := by obtain ⟨_, _, h_⟩ := State.enqueue_only s n h; rw [h_]; rfl
@[simp] theorem State.enqueue_engine (s : State) (n : Nat) (h : Held) (e_ : Nat) : (s.enqueue n h).engine e_ = s.engine e_ := by obtain ⟨_, _, h_⟩ := State.enqueue_only s n h; rw [h_]; rfl
@[simp] theorem State.enqueue_port (s : State) (n : Nat) (h : Held) (p_ : Nat) : (s.enqueue n h).port p_ = s.port p_ := by obtain ⟨_, _, h_⟩ := State.enqueue_only s n h; rw [h_]; rfl
@[simp] theorem State.enqueue_layer (s : State) (n : Nat) (h : Held) (i_ : Nat) : (s.enqueue n h).layer i_ = s.layer i_ := by obtain ⟨_, _, h_⟩ := State.enqueue_only s n h; rw [h_]; rfl
@[simp] theorem State.enqueue_head (s : State) (n : Nat) (h : Held) (h_ : Nat) : (s.enqueue n h).head h_ = s.head h_ := by obtain ⟨_, _, h_⟩ := State.enqueue_only s n h; rw [h_]; rfl
@[simp] theorem State.enqueue_dpPort (s : State) (n : Nat) (h : Held) (p_ : Nat) : (s.enqueue n h).dpPort p_ = s.dpPort p_ := by obtain ⟨_, _, h_⟩ := State.enqueue_only s n h; rw [h_]; rfl
@[simp] theorem State.enqueue_plate (s : State) (n : Nat) (h : Held) (h_ : Nat) : (s.enqueue n h).plate h_ = s.plate h_ := by obtain ⟨_, _, h_⟩ := State.enqueue_only s n h; rw [h_]; rfl
@[simp] theorem State.enqueue_session (s : State) (n : Nat) (h : Held) (i_ : Nat) : (s.enqueue n h).session i_ = s.session i_ := by obtain ⟨_, _, h_⟩ := State.enqueue_only s n h; rw [h_]; rfl
@[simp] theorem State.enqueue_encoder (s : State) (n : Nat) (h : Held) (e_ : Nat) : (s.enqueue n h).encoder e_ = s.encoder e_ := by obtain ⟨_, _, h_⟩ := State.enqueue_only s n h; rw [h_]; rfl
@[simp] theorem State.enqueue_island (s : State) (n : Nat) (h : Held) (i_ : Nat) : (s.enqueue n h).island i_ = s.island i_ := by obtain ⟨_, _, h_⟩ := State.enqueue_only s n h; rw [h_]; rfl
@[simp] theorem State.enqueue_dram (s : State) (n : Nat) (h : Held) (c_ : Nat) : (s.enqueue n h).dram c_ = s.dram c_ := by obtain ⟨_, _, h_⟩ := State.enqueue_only s n h; rw [h_]; rfl
@[simp] theorem State.enqueue_panel (s : State) (n : Nat) (h : Held) (t_ : Nat) : (s.enqueue n h).panel t_ = s.panel t_ := by obtain ⟨_, _, h_⟩ := State.enqueue_only s n h; rw [h_]; rfl
@[simp] theorem State.enqueue_input (s : State) (n : Nat) (h : Held) (i_ : Nat) : (s.enqueue n h).input i_ = s.input i_ := by obtain ⟨_, _, h_⟩ := State.enqueue_only s n h; rw [h_]; rfl
@[simp] theorem State.enqueue_output (s : State) (n : Nat) (h : Held) (o_ : Nat) : (s.enqueue n h).output o_ = s.output o_ := by obtain ⟨_, _, h_⟩ := State.enqueue_only s n h; rw [h_]; rfl
@[simp] theorem State.enqueue_quad (s : State) (n : Nat) (h : Held) (q_ : Nat) : (s.enqueue n h).quad q_ = s.quad q_ := by obtain ⟨_, _, h_⟩ := State.enqueue_only s n h; rw [h_]; rfl
@[simp] theorem State.enqueue_hostBox (s : State) (n : Nat) (h : Held) (n_ : Nat) : (s.enqueue n h).hostBox n_ = s.hostBox n_ := by obtain ⟨_, _, h_⟩ := State.enqueue_only s n h; rw [h_]; rfl
@[simp] theorem State.enqueue_farBox (s : State) (n : Nat) (h : Held) (m_ : Nat) : (s.enqueue n h).farBox m_ = s.farBox m_ := by obtain ⟨_, _, h_⟩ := State.enqueue_only s n h; rw [h_]; rfl
@[simp] theorem State.enqueue_member (s : State) (n : Nat) (h : Held) (m_ : Nat) : (s.enqueue n h).member m_ = s.member m_ := by obtain ⟨_, _, h_⟩ := State.enqueue_only s n h; rw [h_]; rfl
@[simp] theorem State.enqueue_spineLink (s : State) (n : Nat) (h : Held) (l_ : Nat) : (s.enqueue n h).spineLink l_ = s.spineLink l_ := by obtain ⟨_, _, h_⟩ := State.enqueue_only s n h; rw [h_]; rfl
@[simp] theorem State.enqueue_cvUnit (s : State) (n : Nat) (h : Held) (u_ : Nat) : (s.enqueue n h).cvUnit u_ = s.cvUnit u_ := by obtain ⟨_, _, h_⟩ := State.enqueue_only s n h; rw [h_]; rfl
@[simp] theorem State.enqueue_zeEngine (s : State) (n : Nat) (h : Held) (e_ : Nat) : (s.enqueue n h).zeEngine e_ = s.zeEngine e_ := by obtain ⟨_, _, h_⟩ := State.enqueue_only s n h; rw [h_]; rfl
@[simp] theorem State.enqueue_mapOf (s : State) (n : Nat) (h : Held) (r_ : Nat) : (s.enqueue n h).mapOf r_ = s.mapOf r_ := by obtain ⟨_, _, h_⟩ := State.enqueue_only s n h; rw [h_]; rfl

/-- EV_TICK changes its queue (R154). -/
theorem State.tick_only (s : State) (n : Nat) :
    ∃ evtq_ rings_, s.tick n = { s with host := { s.host with evtq := evtq_, rings := rings_ } } := by
  unfold State.tick
  dsimp only
  obtain ⟨_, _, h⟩ := State.enqueue_only s n (Held.of 0x8111 0 s.tb.dev n s.top.gatherId.toNat (s.tickBody s.tb.dev))
  rw [h]
  exact ⟨_, _, rfl⟩

@[simp] theorem State.tick_tb (s : State) (n : Nat) : (s.tick n).tb = s.tb := by obtain ⟨_, _, h_⟩ := State.tick_only s n; rw [h_]
@[simp] theorem State.tick_top (s : State) (n : Nat) : (s.tick n).top = s.top := by obtain ⟨_, _, h_⟩ := State.tick_only s n; rw [h_]
@[simp] theorem State.tick_host_cmdq (s : State) (n : Nat) : (s.tick n).host.cmdq = s.host.cmdq := by obtain ⟨_, _, h_⟩ := State.tick_only s n; rw [h_]
@[simp] theorem State.tick_host_stmq (s : State) (n : Nat) : (s.tick n).host.stmq = s.host.stmq := by obtain ⟨_, _, h_⟩ := State.tick_only s n; rw [h_]
@[simp] theorem State.tick_host_win (s : State) (n : Nat) : (s.tick n).host.win = s.host.win := by obtain ⟨_, _, h_⟩ := State.tick_only s n; rw [h_]
@[simp] theorem State.tick_host_irq (s : State) (n : Nat) : (s.tick n).host.irq = s.host.irq := by obtain ⟨_, _, h_⟩ := State.tick_only s n; rw [h_]
@[simp] theorem State.tick_host_msix (s : State) (n : Nat) : (s.tick n).host.msix = s.host.msix := by obtain ⟨_, _, h_⟩ := State.tick_only s n; rw [h_]
@[simp] theorem State.tick_host_chan (s : State) (n : Nat) : (s.tick n).host.chan = s.host.chan := by obtain ⟨_, _, h_⟩ := State.tick_only s n; rw [h_]
@[simp] theorem State.tick_host_bus (s : State) (n : Nat) : (s.tick n).host.bus = s.host.bus := by obtain ⟨_, _, h_⟩ := State.tick_only s n; rw [h_]
@[simp] theorem State.tick_host_fetchNo (s : State) (n : Nat) : (s.tick n).host.fetchNo = s.host.fetchNo := by obtain ⟨_, _, h_⟩ := State.tick_only s n; rw [h_]
@[simp] theorem State.tick_host_groupNo (s : State) (n : Nat) : (s.tick n).host.groupNo = s.host.groupNo := by obtain ⟨_, _, h_⟩ := State.tick_only s n; rw [h_]
@[simp] theorem State.tick_host_nextSession (s : State) (n : Nat) : (s.tick n).host.nextSession = s.host.nextSession := by obtain ⟨_, _, h_⟩ := State.tick_only s n; rw [h_]
@[simp] theorem State.tick_host_perst (s : State) (n : Nat) : (s.tick n).host.perst = s.host.perst := by obtain ⟨_, _, h_⟩ := State.tick_only s n; rw [h_]
@[simp] theorem State.tick_host_linkTraining (s : State) (n : Nat) : (s.tick n).host.linkTraining = s.host.linkTraining := by obtain ⟨_, _, h_⟩ := State.tick_only s n; rw [h_]
@[simp] theorem State.tick_host_rrNext (s : State) (n : Nat) : (s.tick n).host.rrNext = s.host.rrNext := by obtain ⟨_, _, h_⟩ := State.tick_only s n; rw [h_]
@[simp] theorem State.tick_host_rrUrgent (s : State) (n : Nat) : (s.tick n).host.rrUrgent = s.host.rrUrgent := by obtain ⟨_, _, h_⟩ := State.tick_only s n; rw [h_]
@[simp] theorem State.tick_net (s : State) (n : Nat) : (s.tick n).net = s.net := by obtain ⟨_, _, h_⟩ := State.tick_only s n; rw [h_]
@[simp] theorem State.tick_dec (s : State) (n : Nat) : (s.tick n).dec = s.dec := by obtain ⟨_, _, h_⟩ := State.tick_only s n; rw [h_]
@[simp] theorem State.tick_comp (s : State) (n : Nat) : (s.tick n).comp = s.comp := by obtain ⟨_, _, h_⟩ := State.tick_only s n; rw [h_]
@[simp] theorem State.tick_enc (s : State) (n : Nat) : (s.tick n).enc = s.enc := by obtain ⟨_, _, h_⟩ := State.tick_only s n; rw [h_]
@[simp] theorem State.tick_fab (s : State) (n : Nat) : (s.tick n).fab = s.fab := by obtain ⟨_, _, h_⟩ := State.tick_only s n; rw [h_]
@[simp] theorem State.tick_store (s : State) (n : Nat) : (s.tick n).store = s.store := by obtain ⟨_, _, h_⟩ := State.tick_only s n; rw [h_]
@[simp] theorem State.tick_sec (s : State) (n : Nat) : (s.tick n).sec = s.sec := by obtain ⟨_, _, h_⟩ := State.tick_only s n; rw [h_]
@[simp] theorem State.tick_mail (s : State) (n : Nat) : (s.tick n).mail = s.mail := by obtain ⟨_, _, h_⟩ := State.tick_only s n; rw [h_]
@[simp] theorem State.tick_gath (s : State) (n : Nat) : (s.tick n).gath = s.gath := by obtain ⟨_, _, h_⟩ := State.tick_only s n; rw [h_]
@[simp] theorem State.tick_twin (s : State) (n : Nat) : (s.tick n).twin = s.twin := by obtain ⟨_, _, h_⟩ := State.tick_only s n; rw [h_]
@[simp] theorem State.tick_desk (s : State) (n : Nat) : (s.tick n).desk = s.desk := by obtain ⟨_, _, h_⟩ := State.tick_only s n; rw [h_]
@[simp] theorem State.tick_pwr (s : State) (n : Nat) : (s.tick n).pwr = s.pwr := by obtain ⟨_, _, h_⟩ := State.tick_only s n; rw [h_]
@[simp] theorem State.tick_lanes (s : State) (n : Nat) : (s.tick n).lanes = s.lanes := by obtain ⟨_, _, h_⟩ := State.tick_only s n; rw [h_]
@[simp] theorem State.tick_flt (s : State) (n : Nat) : (s.tick n).flt = s.flt := by obtain ⟨_, _, h_⟩ := State.tick_only s n; rw [h_]
@[simp] theorem State.tick_svc (s : State) (n : Nat) : (s.tick n).svc = s.svc := by obtain ⟨_, _, h_⟩ := State.tick_only s n; rw [h_]
@[simp] theorem State.tick_jrn (s : State) (n : Nat) : (s.tick n).jrn = s.jrn := by obtain ⟨_, _, h_⟩ := State.tick_only s n; rw [h_]
@[simp] theorem State.tick_pending (s : State) (n : Nat) : (s.tick n).pending = s.pending := by obtain ⟨_, _, h_⟩ := State.tick_only s n; rw [h_]
@[simp] theorem State.tick_cmdQ (s : State) (n : Nat) (r_ : Nat) : (s.tick n).cmdQ r_ = s.cmdQ r_ := by obtain ⟨_, _, h_⟩ := State.tick_only s n; rw [h_]; rfl
@[simp] theorem State.tick_window (s : State) (n : Nat) (w_ : Nat) : (s.tick n).window w_ = s.window w_ := by obtain ⟨_, _, h_⟩ := State.tick_only s n; rw [h_]; rfl
@[simp] theorem State.tick_chan (s : State) (n : Nat) (c_ : Nat) : (s.tick n).chan c_ = s.chan c_ := by obtain ⟨_, _, h_⟩ := State.tick_only s n; rw [h_]; rfl
@[simp] theorem State.tick_ctx (s : State) (n : Nat) (c_ : Nat) : (s.tick n).ctx c_ = s.ctx c_ := by obtain ⟨_, _, h_⟩ := State.tick_only s n; rw [h_]; rfl
@[simp] theorem State.tick_engine (s : State) (n : Nat) (e_ : Nat) : (s.tick n).engine e_ = s.engine e_ := by obtain ⟨_, _, h_⟩ := State.tick_only s n; rw [h_]; rfl
@[simp] theorem State.tick_port (s : State) (n : Nat) (p_ : Nat) : (s.tick n).port p_ = s.port p_ := by obtain ⟨_, _, h_⟩ := State.tick_only s n; rw [h_]; rfl
@[simp] theorem State.tick_layer (s : State) (n : Nat) (i_ : Nat) : (s.tick n).layer i_ = s.layer i_ := by obtain ⟨_, _, h_⟩ := State.tick_only s n; rw [h_]; rfl
@[simp] theorem State.tick_head (s : State) (n : Nat) (h_ : Nat) : (s.tick n).head h_ = s.head h_ := by obtain ⟨_, _, h_⟩ := State.tick_only s n; rw [h_]; rfl
@[simp] theorem State.tick_dpPort (s : State) (n : Nat) (p_ : Nat) : (s.tick n).dpPort p_ = s.dpPort p_ := by obtain ⟨_, _, h_⟩ := State.tick_only s n; rw [h_]; rfl
@[simp] theorem State.tick_plate (s : State) (n : Nat) (h_ : Nat) : (s.tick n).plate h_ = s.plate h_ := by obtain ⟨_, _, h_⟩ := State.tick_only s n; rw [h_]; rfl
@[simp] theorem State.tick_session (s : State) (n : Nat) (i_ : Nat) : (s.tick n).session i_ = s.session i_ := by obtain ⟨_, _, h_⟩ := State.tick_only s n; rw [h_]; rfl
@[simp] theorem State.tick_encoder (s : State) (n : Nat) (e_ : Nat) : (s.tick n).encoder e_ = s.encoder e_ := by obtain ⟨_, _, h_⟩ := State.tick_only s n; rw [h_]; rfl
@[simp] theorem State.tick_island (s : State) (n : Nat) (i_ : Nat) : (s.tick n).island i_ = s.island i_ := by obtain ⟨_, _, h_⟩ := State.tick_only s n; rw [h_]; rfl
@[simp] theorem State.tick_dram (s : State) (n : Nat) (c_ : Nat) : (s.tick n).dram c_ = s.dram c_ := by obtain ⟨_, _, h_⟩ := State.tick_only s n; rw [h_]; rfl
@[simp] theorem State.tick_panel (s : State) (n : Nat) (t_ : Nat) : (s.tick n).panel t_ = s.panel t_ := by obtain ⟨_, _, h_⟩ := State.tick_only s n; rw [h_]; rfl
@[simp] theorem State.tick_input (s : State) (n : Nat) (i_ : Nat) : (s.tick n).input i_ = s.input i_ := by obtain ⟨_, _, h_⟩ := State.tick_only s n; rw [h_]; rfl
@[simp] theorem State.tick_output (s : State) (n : Nat) (o_ : Nat) : (s.tick n).output o_ = s.output o_ := by obtain ⟨_, _, h_⟩ := State.tick_only s n; rw [h_]; rfl
@[simp] theorem State.tick_quad (s : State) (n : Nat) (q_ : Nat) : (s.tick n).quad q_ = s.quad q_ := by obtain ⟨_, _, h_⟩ := State.tick_only s n; rw [h_]; rfl
@[simp] theorem State.tick_hostBox (s : State) (n : Nat) (n_ : Nat) : (s.tick n).hostBox n_ = s.hostBox n_ := by obtain ⟨_, _, h_⟩ := State.tick_only s n; rw [h_]; rfl
@[simp] theorem State.tick_farBox (s : State) (n : Nat) (m_ : Nat) : (s.tick n).farBox m_ = s.farBox m_ := by obtain ⟨_, _, h_⟩ := State.tick_only s n; rw [h_]; rfl
@[simp] theorem State.tick_member (s : State) (n : Nat) (m_ : Nat) : (s.tick n).member m_ = s.member m_ := by obtain ⟨_, _, h_⟩ := State.tick_only s n; rw [h_]; rfl
@[simp] theorem State.tick_spineLink (s : State) (n : Nat) (l_ : Nat) : (s.tick n).spineLink l_ = s.spineLink l_ := by obtain ⟨_, _, h_⟩ := State.tick_only s n; rw [h_]; rfl
@[simp] theorem State.tick_cvUnit (s : State) (n : Nat) (u_ : Nat) : (s.tick n).cvUnit u_ = s.cvUnit u_ := by obtain ⟨_, _, h_⟩ := State.tick_only s n; rw [h_]; rfl
@[simp] theorem State.tick_zeEngine (s : State) (n : Nat) (e_ : Nat) : (s.tick n).zeEngine e_ = s.zeEngine e_ := by obtain ⟨_, _, h_⟩ := State.tick_only s n; rw [h_]; rfl
@[simp] theorem State.tick_mapOf (s : State) (n : Nat) (r_ : Nat) : (s.tick n).mapOf r_ = s.mapOf r_ := by obtain ⟨_, _, h_⟩ := State.tick_only s n; rw [h_]; rfl

/-- A posted event changes the holding queues, `RING.LOST` and the records bound for other members (R341, R342, R458). -/
theorem State.postAt_only (s : State) (n code tag time : Nat) (body : List Byte) :
    ∃ evtq_ rings_ fwdEvents_, s.postAt n code tag time body = { s with host := { s.host with evtq := evtq_, rings := rings_ }, gath := { s.gath with fwdEvents := fwdEvents_ } } := by
  unfold State.postAt
  split
  · exact ⟨_, _, _, rfl⟩
  · split
    · exact ⟨_, _, _, rfl⟩
    · dsimp only
      split
      · obtain ⟨_, _, h1⟩ := State.tick_only s n
        rw [h1]
        obtain ⟨_, _, h2⟩ := State.enqueue_only { s with host := { s.host with rings := _, evtq := _ } } n _
        exact ⟨_, _, _, h2⟩
      · obtain ⟨_, _, h2⟩ := State.enqueue_only s n (Held.of code tag time n s.top.gatherId.toNat body)
        exact ⟨_, _, _, h2⟩

@[simp] theorem State.postAt_tb (s : State) (n code tag time : Nat) (body : List Byte) : (s.postAt n code tag time body).tb = s.tb := by obtain ⟨_, _, _, h_⟩ := State.postAt_only s n code tag time body; rw [h_]
@[simp] theorem State.postAt_top (s : State) (n code tag time : Nat) (body : List Byte) : (s.postAt n code tag time body).top = s.top := by obtain ⟨_, _, _, h_⟩ := State.postAt_only s n code tag time body; rw [h_]
@[simp] theorem State.postAt_host_cmdq (s : State) (n code tag time : Nat) (body : List Byte) : (s.postAt n code tag time body).host.cmdq = s.host.cmdq := by obtain ⟨_, _, _, h_⟩ := State.postAt_only s n code tag time body; rw [h_]
@[simp] theorem State.postAt_host_stmq (s : State) (n code tag time : Nat) (body : List Byte) : (s.postAt n code tag time body).host.stmq = s.host.stmq := by obtain ⟨_, _, _, h_⟩ := State.postAt_only s n code tag time body; rw [h_]
@[simp] theorem State.postAt_host_win (s : State) (n code tag time : Nat) (body : List Byte) : (s.postAt n code tag time body).host.win = s.host.win := by obtain ⟨_, _, _, h_⟩ := State.postAt_only s n code tag time body; rw [h_]
@[simp] theorem State.postAt_host_irq (s : State) (n code tag time : Nat) (body : List Byte) : (s.postAt n code tag time body).host.irq = s.host.irq := by obtain ⟨_, _, _, h_⟩ := State.postAt_only s n code tag time body; rw [h_]
@[simp] theorem State.postAt_host_msix (s : State) (n code tag time : Nat) (body : List Byte) : (s.postAt n code tag time body).host.msix = s.host.msix := by obtain ⟨_, _, _, h_⟩ := State.postAt_only s n code tag time body; rw [h_]
@[simp] theorem State.postAt_host_chan (s : State) (n code tag time : Nat) (body : List Byte) : (s.postAt n code tag time body).host.chan = s.host.chan := by obtain ⟨_, _, _, h_⟩ := State.postAt_only s n code tag time body; rw [h_]
@[simp] theorem State.postAt_host_bus (s : State) (n code tag time : Nat) (body : List Byte) : (s.postAt n code tag time body).host.bus = s.host.bus := by obtain ⟨_, _, _, h_⟩ := State.postAt_only s n code tag time body; rw [h_]
@[simp] theorem State.postAt_host_fetchNo (s : State) (n code tag time : Nat) (body : List Byte) : (s.postAt n code tag time body).host.fetchNo = s.host.fetchNo := by obtain ⟨_, _, _, h_⟩ := State.postAt_only s n code tag time body; rw [h_]
@[simp] theorem State.postAt_host_groupNo (s : State) (n code tag time : Nat) (body : List Byte) : (s.postAt n code tag time body).host.groupNo = s.host.groupNo := by obtain ⟨_, _, _, h_⟩ := State.postAt_only s n code tag time body; rw [h_]
@[simp] theorem State.postAt_host_nextSession (s : State) (n code tag time : Nat) (body : List Byte) : (s.postAt n code tag time body).host.nextSession = s.host.nextSession := by obtain ⟨_, _, _, h_⟩ := State.postAt_only s n code tag time body; rw [h_]
@[simp] theorem State.postAt_host_perst (s : State) (n code tag time : Nat) (body : List Byte) : (s.postAt n code tag time body).host.perst = s.host.perst := by obtain ⟨_, _, _, h_⟩ := State.postAt_only s n code tag time body; rw [h_]
@[simp] theorem State.postAt_host_linkTraining (s : State) (n code tag time : Nat) (body : List Byte) : (s.postAt n code tag time body).host.linkTraining = s.host.linkTraining := by obtain ⟨_, _, _, h_⟩ := State.postAt_only s n code tag time body; rw [h_]
@[simp] theorem State.postAt_host_rrNext (s : State) (n code tag time : Nat) (body : List Byte) : (s.postAt n code tag time body).host.rrNext = s.host.rrNext := by obtain ⟨_, _, _, h_⟩ := State.postAt_only s n code tag time body; rw [h_]
@[simp] theorem State.postAt_host_rrUrgent (s : State) (n code tag time : Nat) (body : List Byte) : (s.postAt n code tag time body).host.rrUrgent = s.host.rrUrgent := by obtain ⟨_, _, _, h_⟩ := State.postAt_only s n code tag time body; rw [h_]
@[simp] theorem State.postAt_net (s : State) (n code tag time : Nat) (body : List Byte) : (s.postAt n code tag time body).net = s.net := by obtain ⟨_, _, _, h_⟩ := State.postAt_only s n code tag time body; rw [h_]
@[simp] theorem State.postAt_dec (s : State) (n code tag time : Nat) (body : List Byte) : (s.postAt n code tag time body).dec = s.dec := by obtain ⟨_, _, _, h_⟩ := State.postAt_only s n code tag time body; rw [h_]
@[simp] theorem State.postAt_comp (s : State) (n code tag time : Nat) (body : List Byte) : (s.postAt n code tag time body).comp = s.comp := by obtain ⟨_, _, _, h_⟩ := State.postAt_only s n code tag time body; rw [h_]
@[simp] theorem State.postAt_enc (s : State) (n code tag time : Nat) (body : List Byte) : (s.postAt n code tag time body).enc = s.enc := by obtain ⟨_, _, _, h_⟩ := State.postAt_only s n code tag time body; rw [h_]
@[simp] theorem State.postAt_fab (s : State) (n code tag time : Nat) (body : List Byte) : (s.postAt n code tag time body).fab = s.fab := by obtain ⟨_, _, _, h_⟩ := State.postAt_only s n code tag time body; rw [h_]
@[simp] theorem State.postAt_store (s : State) (n code tag time : Nat) (body : List Byte) : (s.postAt n code tag time body).store = s.store := by obtain ⟨_, _, _, h_⟩ := State.postAt_only s n code tag time body; rw [h_]
@[simp] theorem State.postAt_sec (s : State) (n code tag time : Nat) (body : List Byte) : (s.postAt n code tag time body).sec = s.sec := by obtain ⟨_, _, _, h_⟩ := State.postAt_only s n code tag time body; rw [h_]
@[simp] theorem State.postAt_mail (s : State) (n code tag time : Nat) (body : List Byte) : (s.postAt n code tag time body).mail = s.mail := by obtain ⟨_, _, _, h_⟩ := State.postAt_only s n code tag time body; rw [h_]
@[simp] theorem State.postAt_gath_mem (s : State) (n code tag time : Nat) (body : List Byte) : (s.postAt n code tag time body).gath.mem = s.gath.mem := by obtain ⟨_, _, _, h_⟩ := State.postAt_only s n code tag time body; rw [h_]
@[simp] theorem State.postAt_gath_lead (s : State) (n code tag time : Nat) (body : List Byte) : (s.postAt n code tag time body).gath.lead = s.gath.lead := by obtain ⟨_, _, _, h_⟩ := State.postAt_only s n code tag time body; rw [h_]
@[simp] theorem State.postAt_gath_ring (s : State) (n code tag time : Nat) (body : List Byte) : (s.postAt n code tag time body).gath.ring = s.gath.ring := by obtain ⟨_, _, _, h_⟩ := State.postAt_only s n code tag time body; rw [h_]
@[simp] theorem State.postAt_gath_link (s : State) (n code tag time : Nat) (body : List Byte) : (s.postAt n code tag time body).gath.link = s.gath.link := by obtain ⟨_, _, _, h_⟩ := State.postAt_only s n code tag time body; rw [h_]
@[simp] theorem State.postAt_gath_relayOnly (s : State) (n code tag time : Nat) (body : List Byte) : (s.postAt n code tag time body).gath.relayOnly = s.gath.relayOnly := by obtain ⟨_, _, _, h_⟩ := State.postAt_only s n code tag time body; rw [h_]
@[simp] theorem State.postAt_gath_outcomes (s : State) (n code tag time : Nat) (body : List Byte) : (s.postAt n code tag time body).gath.outcomes = s.gath.outcomes := by obtain ⟨_, _, _, h_⟩ := State.postAt_only s n code tag time body; rw [h_]
@[simp] theorem State.postAt_gath_replies (s : State) (n code tag time : Nat) (body : List Byte) : (s.postAt n code tag time body).gath.replies = s.gath.replies := by obtain ⟨_, _, _, h_⟩ := State.postAt_only s n code tag time body; rw [h_]
@[simp] theorem State.postAt_gath_sent (s : State) (n code tag time : Nat) (body : List Byte) : (s.postAt n code tag time body).gath.sent = s.gath.sent := by obtain ⟨_, _, _, h_⟩ := State.postAt_only s n code tag time body; rw [h_]
@[simp] theorem State.postAt_gath_acks (s : State) (n code tag time : Nat) (body : List Byte) : (s.postAt n code tag time body).gath.acks = s.gath.acks := by obtain ⟨_, _, _, h_⟩ := State.postAt_only s n code tag time body; rw [h_]
@[simp] theorem State.postAt_gath_rx (s : State) (n code tag time : Nat) (body : List Byte) : (s.postAt n code tag time body).gath.rx = s.gath.rx := by obtain ⟨_, _, _, h_⟩ := State.postAt_only s n code tag time body; rw [h_]
@[simp] theorem State.postAt_gath_resent (s : State) (n code tag time : Nat) (body : List Byte) : (s.postAt n code tag time body).gath.resent = s.gath.resent := by obtain ⟨_, _, _, h_⟩ := State.postAt_only s n code tag time body; rw [h_]
@[simp] theorem State.postAt_gath_watch (s : State) (n code tag time : Nat) (body : List Byte) : (s.postAt n code tag time body).gath.watch = s.gath.watch := by obtain ⟨_, _, _, h_⟩ := State.postAt_only s n code tag time body; rw [h_]
@[simp] theorem State.postAt_gath_evCount (s : State) (n code tag time : Nat) (body : List Byte) : (s.postAt n code tag time body).gath.evCount = s.gath.evCount := by obtain ⟨_, _, _, h_⟩ := State.postAt_only s n code tag time body; rw [h_]
@[simp] theorem State.postAt_gath_fwdSent (s : State) (n code tag time : Nat) (body : List Byte) : (s.postAt n code tag time body).gath.fwdSent = s.gath.fwdSent := by obtain ⟨_, _, _, h_⟩ := State.postAt_only s n code tag time body; rw [h_]
@[simp] theorem State.postAt_gath_frameNo (s : State) (n code tag time : Nat) (body : List Byte) : (s.postAt n code tag time body).gath.frameNo = s.gath.frameNo := by obtain ⟨_, _, _, h_⟩ := State.postAt_only s n code tag time body; rw [h_]
@[simp] theorem State.postAt_gath_noPathSince (s : State) (n code tag time : Nat) (body : List Byte) : (s.postAt n code tag time body).gath.noPathSince = s.gath.noPathSince := by obtain ⟨_, _, _, h_⟩ := State.postAt_only s n code tag time body; rw [h_]
@[simp] theorem State.postAt_twin (s : State) (n code tag time : Nat) (body : List Byte) : (s.postAt n code tag time body).twin = s.twin := by obtain ⟨_, _, _, h_⟩ := State.postAt_only s n code tag time body; rw [h_]
@[simp] theorem State.postAt_desk (s : State) (n code tag time : Nat) (body : List Byte) : (s.postAt n code tag time body).desk = s.desk := by obtain ⟨_, _, _, h_⟩ := State.postAt_only s n code tag time body; rw [h_]
@[simp] theorem State.postAt_pwr (s : State) (n code tag time : Nat) (body : List Byte) : (s.postAt n code tag time body).pwr = s.pwr := by obtain ⟨_, _, _, h_⟩ := State.postAt_only s n code tag time body; rw [h_]
@[simp] theorem State.postAt_lanes (s : State) (n code tag time : Nat) (body : List Byte) : (s.postAt n code tag time body).lanes = s.lanes := by obtain ⟨_, _, _, h_⟩ := State.postAt_only s n code tag time body; rw [h_]
@[simp] theorem State.postAt_flt (s : State) (n code tag time : Nat) (body : List Byte) : (s.postAt n code tag time body).flt = s.flt := by obtain ⟨_, _, _, h_⟩ := State.postAt_only s n code tag time body; rw [h_]
@[simp] theorem State.postAt_svc (s : State) (n code tag time : Nat) (body : List Byte) : (s.postAt n code tag time body).svc = s.svc := by obtain ⟨_, _, _, h_⟩ := State.postAt_only s n code tag time body; rw [h_]
@[simp] theorem State.postAt_jrn (s : State) (n code tag time : Nat) (body : List Byte) : (s.postAt n code tag time body).jrn = s.jrn := by obtain ⟨_, _, _, h_⟩ := State.postAt_only s n code tag time body; rw [h_]
@[simp] theorem State.postAt_pending (s : State) (n code tag time : Nat) (body : List Byte) : (s.postAt n code tag time body).pending = s.pending := by obtain ⟨_, _, _, h_⟩ := State.postAt_only s n code tag time body; rw [h_]
@[simp] theorem State.postAt_cmdQ (s : State) (n code tag time : Nat) (body : List Byte) (r_ : Nat) : (s.postAt n code tag time body).cmdQ r_ = s.cmdQ r_ := by obtain ⟨_, _, _, h_⟩ := State.postAt_only s n code tag time body; rw [h_]; rfl
@[simp] theorem State.postAt_window (s : State) (n code tag time : Nat) (body : List Byte) (w_ : Nat) : (s.postAt n code tag time body).window w_ = s.window w_ := by obtain ⟨_, _, _, h_⟩ := State.postAt_only s n code tag time body; rw [h_]; rfl
@[simp] theorem State.postAt_chan (s : State) (n code tag time : Nat) (body : List Byte) (c_ : Nat) : (s.postAt n code tag time body).chan c_ = s.chan c_ := by obtain ⟨_, _, _, h_⟩ := State.postAt_only s n code tag time body; rw [h_]; rfl
@[simp] theorem State.postAt_ctx (s : State) (n code tag time : Nat) (body : List Byte) (c_ : Nat) : (s.postAt n code tag time body).ctx c_ = s.ctx c_ := by obtain ⟨_, _, _, h_⟩ := State.postAt_only s n code tag time body; rw [h_]; rfl
@[simp] theorem State.postAt_engine (s : State) (n code tag time : Nat) (body : List Byte) (e_ : Nat) : (s.postAt n code tag time body).engine e_ = s.engine e_ := by obtain ⟨_, _, _, h_⟩ := State.postAt_only s n code tag time body; rw [h_]; rfl
@[simp] theorem State.postAt_port (s : State) (n code tag time : Nat) (body : List Byte) (p_ : Nat) : (s.postAt n code tag time body).port p_ = s.port p_ := by obtain ⟨_, _, _, h_⟩ := State.postAt_only s n code tag time body; rw [h_]; rfl
@[simp] theorem State.postAt_layer (s : State) (n code tag time : Nat) (body : List Byte) (i_ : Nat) : (s.postAt n code tag time body).layer i_ = s.layer i_ := by obtain ⟨_, _, _, h_⟩ := State.postAt_only s n code tag time body; rw [h_]; rfl
@[simp] theorem State.postAt_head (s : State) (n code tag time : Nat) (body : List Byte) (h_ : Nat) : (s.postAt n code tag time body).head h_ = s.head h_ := by obtain ⟨_, _, _, h_⟩ := State.postAt_only s n code tag time body; rw [h_]; rfl
@[simp] theorem State.postAt_dpPort (s : State) (n code tag time : Nat) (body : List Byte) (p_ : Nat) : (s.postAt n code tag time body).dpPort p_ = s.dpPort p_ := by obtain ⟨_, _, _, h_⟩ := State.postAt_only s n code tag time body; rw [h_]; rfl
@[simp] theorem State.postAt_plate (s : State) (n code tag time : Nat) (body : List Byte) (h_ : Nat) : (s.postAt n code tag time body).plate h_ = s.plate h_ := by obtain ⟨_, _, _, h_⟩ := State.postAt_only s n code tag time body; rw [h_]; rfl
@[simp] theorem State.postAt_session (s : State) (n code tag time : Nat) (body : List Byte) (i_ : Nat) : (s.postAt n code tag time body).session i_ = s.session i_ := by obtain ⟨_, _, _, h_⟩ := State.postAt_only s n code tag time body; rw [h_]; rfl
@[simp] theorem State.postAt_encoder (s : State) (n code tag time : Nat) (body : List Byte) (e_ : Nat) : (s.postAt n code tag time body).encoder e_ = s.encoder e_ := by obtain ⟨_, _, _, h_⟩ := State.postAt_only s n code tag time body; rw [h_]; rfl
@[simp] theorem State.postAt_island (s : State) (n code tag time : Nat) (body : List Byte) (i_ : Nat) : (s.postAt n code tag time body).island i_ = s.island i_ := by obtain ⟨_, _, _, h_⟩ := State.postAt_only s n code tag time body; rw [h_]; rfl
@[simp] theorem State.postAt_dram (s : State) (n code tag time : Nat) (body : List Byte) (c_ : Nat) : (s.postAt n code tag time body).dram c_ = s.dram c_ := by obtain ⟨_, _, _, h_⟩ := State.postAt_only s n code tag time body; rw [h_]; rfl
@[simp] theorem State.postAt_panel (s : State) (n code tag time : Nat) (body : List Byte) (t_ : Nat) : (s.postAt n code tag time body).panel t_ = s.panel t_ := by obtain ⟨_, _, _, h_⟩ := State.postAt_only s n code tag time body; rw [h_]; rfl
@[simp] theorem State.postAt_input (s : State) (n code tag time : Nat) (body : List Byte) (i_ : Nat) : (s.postAt n code tag time body).input i_ = s.input i_ := by obtain ⟨_, _, _, h_⟩ := State.postAt_only s n code tag time body; rw [h_]; rfl
@[simp] theorem State.postAt_output (s : State) (n code tag time : Nat) (body : List Byte) (o_ : Nat) : (s.postAt n code tag time body).output o_ = s.output o_ := by obtain ⟨_, _, _, h_⟩ := State.postAt_only s n code tag time body; rw [h_]; rfl
@[simp] theorem State.postAt_quad (s : State) (n code tag time : Nat) (body : List Byte) (q_ : Nat) : (s.postAt n code tag time body).quad q_ = s.quad q_ := by obtain ⟨_, _, _, h_⟩ := State.postAt_only s n code tag time body; rw [h_]; rfl
@[simp] theorem State.postAt_hostBox (s : State) (n code tag time : Nat) (body : List Byte) (n_ : Nat) : (s.postAt n code tag time body).hostBox n_ = s.hostBox n_ := by obtain ⟨_, _, _, h_⟩ := State.postAt_only s n code tag time body; rw [h_]; rfl
@[simp] theorem State.postAt_farBox (s : State) (n code tag time : Nat) (body : List Byte) (m_ : Nat) : (s.postAt n code tag time body).farBox m_ = s.farBox m_ := by obtain ⟨_, _, _, h_⟩ := State.postAt_only s n code tag time body; rw [h_]; rfl
@[simp] theorem State.postAt_member (s : State) (n code tag time : Nat) (body : List Byte) (m_ : Nat) : (s.postAt n code tag time body).member m_ = s.member m_ := by obtain ⟨_, _, _, h_⟩ := State.postAt_only s n code tag time body; rw [h_]; rfl
@[simp] theorem State.postAt_spineLink (s : State) (n code tag time : Nat) (body : List Byte) (l_ : Nat) : (s.postAt n code tag time body).spineLink l_ = s.spineLink l_ := by obtain ⟨_, _, _, h_⟩ := State.postAt_only s n code tag time body; rw [h_]; rfl
@[simp] theorem State.postAt_cvUnit (s : State) (n code tag time : Nat) (body : List Byte) (u_ : Nat) : (s.postAt n code tag time body).cvUnit u_ = s.cvUnit u_ := by obtain ⟨_, _, _, h_⟩ := State.postAt_only s n code tag time body; rw [h_]; rfl
@[simp] theorem State.postAt_zeEngine (s : State) (n code tag time : Nat) (body : List Byte) (e_ : Nat) : (s.postAt n code tag time body).zeEngine e_ = s.zeEngine e_ := by obtain ⟨_, _, _, h_⟩ := State.postAt_only s n code tag time body; rw [h_]; rfl
@[simp] theorem State.postAt_mapOf (s : State) (n code tag time : Nat) (body : List Byte) (r_ : Nat) : (s.postAt n code tag time body).mapOf r_ = s.mapOf r_ := by obtain ⟨_, _, _, h_⟩ := State.postAt_only s n code tag time body; rw [h_]; rfl

/-- The same for an event posted now. -/
theorem State.post_only (s : State) (n code tag : Nat) (body : List Byte) :
    ∃ evtq_ rings_ fwdEvents_, s.post n code tag body = { s with host := { s.host with evtq := evtq_, rings := rings_ }, gath := { s.gath with fwdEvents := fwdEvents_ } } := by
  exact State.postAt_only ..

@[simp] theorem State.post_tb (s : State) (n code tag : Nat) (body : List Byte) : (s.post n code tag body).tb = s.tb := by obtain ⟨_, _, _, h_⟩ := State.post_only s n code tag body; rw [h_]
@[simp] theorem State.post_top (s : State) (n code tag : Nat) (body : List Byte) : (s.post n code tag body).top = s.top := by obtain ⟨_, _, _, h_⟩ := State.post_only s n code tag body; rw [h_]
@[simp] theorem State.post_host_cmdq (s : State) (n code tag : Nat) (body : List Byte) : (s.post n code tag body).host.cmdq = s.host.cmdq := by obtain ⟨_, _, _, h_⟩ := State.post_only s n code tag body; rw [h_]
@[simp] theorem State.post_host_stmq (s : State) (n code tag : Nat) (body : List Byte) : (s.post n code tag body).host.stmq = s.host.stmq := by obtain ⟨_, _, _, h_⟩ := State.post_only s n code tag body; rw [h_]
@[simp] theorem State.post_host_win (s : State) (n code tag : Nat) (body : List Byte) : (s.post n code tag body).host.win = s.host.win := by obtain ⟨_, _, _, h_⟩ := State.post_only s n code tag body; rw [h_]
@[simp] theorem State.post_host_irq (s : State) (n code tag : Nat) (body : List Byte) : (s.post n code tag body).host.irq = s.host.irq := by obtain ⟨_, _, _, h_⟩ := State.post_only s n code tag body; rw [h_]
@[simp] theorem State.post_host_msix (s : State) (n code tag : Nat) (body : List Byte) : (s.post n code tag body).host.msix = s.host.msix := by obtain ⟨_, _, _, h_⟩ := State.post_only s n code tag body; rw [h_]
@[simp] theorem State.post_host_chan (s : State) (n code tag : Nat) (body : List Byte) : (s.post n code tag body).host.chan = s.host.chan := by obtain ⟨_, _, _, h_⟩ := State.post_only s n code tag body; rw [h_]
@[simp] theorem State.post_host_bus (s : State) (n code tag : Nat) (body : List Byte) : (s.post n code tag body).host.bus = s.host.bus := by obtain ⟨_, _, _, h_⟩ := State.post_only s n code tag body; rw [h_]
@[simp] theorem State.post_host_fetchNo (s : State) (n code tag : Nat) (body : List Byte) : (s.post n code tag body).host.fetchNo = s.host.fetchNo := by obtain ⟨_, _, _, h_⟩ := State.post_only s n code tag body; rw [h_]
@[simp] theorem State.post_host_groupNo (s : State) (n code tag : Nat) (body : List Byte) : (s.post n code tag body).host.groupNo = s.host.groupNo := by obtain ⟨_, _, _, h_⟩ := State.post_only s n code tag body; rw [h_]
@[simp] theorem State.post_host_nextSession (s : State) (n code tag : Nat) (body : List Byte) : (s.post n code tag body).host.nextSession = s.host.nextSession := by obtain ⟨_, _, _, h_⟩ := State.post_only s n code tag body; rw [h_]
@[simp] theorem State.post_host_perst (s : State) (n code tag : Nat) (body : List Byte) : (s.post n code tag body).host.perst = s.host.perst := by obtain ⟨_, _, _, h_⟩ := State.post_only s n code tag body; rw [h_]
@[simp] theorem State.post_host_linkTraining (s : State) (n code tag : Nat) (body : List Byte) : (s.post n code tag body).host.linkTraining = s.host.linkTraining := by obtain ⟨_, _, _, h_⟩ := State.post_only s n code tag body; rw [h_]
@[simp] theorem State.post_host_rrNext (s : State) (n code tag : Nat) (body : List Byte) : (s.post n code tag body).host.rrNext = s.host.rrNext := by obtain ⟨_, _, _, h_⟩ := State.post_only s n code tag body; rw [h_]
@[simp] theorem State.post_host_rrUrgent (s : State) (n code tag : Nat) (body : List Byte) : (s.post n code tag body).host.rrUrgent = s.host.rrUrgent := by obtain ⟨_, _, _, h_⟩ := State.post_only s n code tag body; rw [h_]
@[simp] theorem State.post_net (s : State) (n code tag : Nat) (body : List Byte) : (s.post n code tag body).net = s.net := by obtain ⟨_, _, _, h_⟩ := State.post_only s n code tag body; rw [h_]
@[simp] theorem State.post_dec (s : State) (n code tag : Nat) (body : List Byte) : (s.post n code tag body).dec = s.dec := by obtain ⟨_, _, _, h_⟩ := State.post_only s n code tag body; rw [h_]
@[simp] theorem State.post_comp (s : State) (n code tag : Nat) (body : List Byte) : (s.post n code tag body).comp = s.comp := by obtain ⟨_, _, _, h_⟩ := State.post_only s n code tag body; rw [h_]
@[simp] theorem State.post_enc (s : State) (n code tag : Nat) (body : List Byte) : (s.post n code tag body).enc = s.enc := by obtain ⟨_, _, _, h_⟩ := State.post_only s n code tag body; rw [h_]
@[simp] theorem State.post_fab (s : State) (n code tag : Nat) (body : List Byte) : (s.post n code tag body).fab = s.fab := by obtain ⟨_, _, _, h_⟩ := State.post_only s n code tag body; rw [h_]
@[simp] theorem State.post_store (s : State) (n code tag : Nat) (body : List Byte) : (s.post n code tag body).store = s.store := by obtain ⟨_, _, _, h_⟩ := State.post_only s n code tag body; rw [h_]
@[simp] theorem State.post_sec (s : State) (n code tag : Nat) (body : List Byte) : (s.post n code tag body).sec = s.sec := by obtain ⟨_, _, _, h_⟩ := State.post_only s n code tag body; rw [h_]
@[simp] theorem State.post_mail (s : State) (n code tag : Nat) (body : List Byte) : (s.post n code tag body).mail = s.mail := by obtain ⟨_, _, _, h_⟩ := State.post_only s n code tag body; rw [h_]
@[simp] theorem State.post_gath_mem (s : State) (n code tag : Nat) (body : List Byte) : (s.post n code tag body).gath.mem = s.gath.mem := by obtain ⟨_, _, _, h_⟩ := State.post_only s n code tag body; rw [h_]
@[simp] theorem State.post_gath_lead (s : State) (n code tag : Nat) (body : List Byte) : (s.post n code tag body).gath.lead = s.gath.lead := by obtain ⟨_, _, _, h_⟩ := State.post_only s n code tag body; rw [h_]
@[simp] theorem State.post_gath_ring (s : State) (n code tag : Nat) (body : List Byte) : (s.post n code tag body).gath.ring = s.gath.ring := by obtain ⟨_, _, _, h_⟩ := State.post_only s n code tag body; rw [h_]
@[simp] theorem State.post_gath_link (s : State) (n code tag : Nat) (body : List Byte) : (s.post n code tag body).gath.link = s.gath.link := by obtain ⟨_, _, _, h_⟩ := State.post_only s n code tag body; rw [h_]
@[simp] theorem State.post_gath_relayOnly (s : State) (n code tag : Nat) (body : List Byte) : (s.post n code tag body).gath.relayOnly = s.gath.relayOnly := by obtain ⟨_, _, _, h_⟩ := State.post_only s n code tag body; rw [h_]
@[simp] theorem State.post_gath_outcomes (s : State) (n code tag : Nat) (body : List Byte) : (s.post n code tag body).gath.outcomes = s.gath.outcomes := by obtain ⟨_, _, _, h_⟩ := State.post_only s n code tag body; rw [h_]
@[simp] theorem State.post_gath_replies (s : State) (n code tag : Nat) (body : List Byte) : (s.post n code tag body).gath.replies = s.gath.replies := by obtain ⟨_, _, _, h_⟩ := State.post_only s n code tag body; rw [h_]
@[simp] theorem State.post_gath_sent (s : State) (n code tag : Nat) (body : List Byte) : (s.post n code tag body).gath.sent = s.gath.sent := by obtain ⟨_, _, _, h_⟩ := State.post_only s n code tag body; rw [h_]
@[simp] theorem State.post_gath_acks (s : State) (n code tag : Nat) (body : List Byte) : (s.post n code tag body).gath.acks = s.gath.acks := by obtain ⟨_, _, _, h_⟩ := State.post_only s n code tag body; rw [h_]
@[simp] theorem State.post_gath_rx (s : State) (n code tag : Nat) (body : List Byte) : (s.post n code tag body).gath.rx = s.gath.rx := by obtain ⟨_, _, _, h_⟩ := State.post_only s n code tag body; rw [h_]
@[simp] theorem State.post_gath_resent (s : State) (n code tag : Nat) (body : List Byte) : (s.post n code tag body).gath.resent = s.gath.resent := by obtain ⟨_, _, _, h_⟩ := State.post_only s n code tag body; rw [h_]
@[simp] theorem State.post_gath_watch (s : State) (n code tag : Nat) (body : List Byte) : (s.post n code tag body).gath.watch = s.gath.watch := by obtain ⟨_, _, _, h_⟩ := State.post_only s n code tag body; rw [h_]
@[simp] theorem State.post_gath_evCount (s : State) (n code tag : Nat) (body : List Byte) : (s.post n code tag body).gath.evCount = s.gath.evCount := by obtain ⟨_, _, _, h_⟩ := State.post_only s n code tag body; rw [h_]
@[simp] theorem State.post_gath_fwdSent (s : State) (n code tag : Nat) (body : List Byte) : (s.post n code tag body).gath.fwdSent = s.gath.fwdSent := by obtain ⟨_, _, _, h_⟩ := State.post_only s n code tag body; rw [h_]
@[simp] theorem State.post_gath_frameNo (s : State) (n code tag : Nat) (body : List Byte) : (s.post n code tag body).gath.frameNo = s.gath.frameNo := by obtain ⟨_, _, _, h_⟩ := State.post_only s n code tag body; rw [h_]
@[simp] theorem State.post_gath_noPathSince (s : State) (n code tag : Nat) (body : List Byte) : (s.post n code tag body).gath.noPathSince = s.gath.noPathSince := by obtain ⟨_, _, _, h_⟩ := State.post_only s n code tag body; rw [h_]
@[simp] theorem State.post_twin (s : State) (n code tag : Nat) (body : List Byte) : (s.post n code tag body).twin = s.twin := by obtain ⟨_, _, _, h_⟩ := State.post_only s n code tag body; rw [h_]
@[simp] theorem State.post_desk (s : State) (n code tag : Nat) (body : List Byte) : (s.post n code tag body).desk = s.desk := by obtain ⟨_, _, _, h_⟩ := State.post_only s n code tag body; rw [h_]
@[simp] theorem State.post_pwr (s : State) (n code tag : Nat) (body : List Byte) : (s.post n code tag body).pwr = s.pwr := by obtain ⟨_, _, _, h_⟩ := State.post_only s n code tag body; rw [h_]
@[simp] theorem State.post_lanes (s : State) (n code tag : Nat) (body : List Byte) : (s.post n code tag body).lanes = s.lanes := by obtain ⟨_, _, _, h_⟩ := State.post_only s n code tag body; rw [h_]
@[simp] theorem State.post_flt (s : State) (n code tag : Nat) (body : List Byte) : (s.post n code tag body).flt = s.flt := by obtain ⟨_, _, _, h_⟩ := State.post_only s n code tag body; rw [h_]
@[simp] theorem State.post_svc (s : State) (n code tag : Nat) (body : List Byte) : (s.post n code tag body).svc = s.svc := by obtain ⟨_, _, _, h_⟩ := State.post_only s n code tag body; rw [h_]
@[simp] theorem State.post_jrn (s : State) (n code tag : Nat) (body : List Byte) : (s.post n code tag body).jrn = s.jrn := by obtain ⟨_, _, _, h_⟩ := State.post_only s n code tag body; rw [h_]
@[simp] theorem State.post_pending (s : State) (n code tag : Nat) (body : List Byte) : (s.post n code tag body).pending = s.pending := by obtain ⟨_, _, _, h_⟩ := State.post_only s n code tag body; rw [h_]
@[simp] theorem State.post_cmdQ (s : State) (n code tag : Nat) (body : List Byte) (r_ : Nat) : (s.post n code tag body).cmdQ r_ = s.cmdQ r_ := by obtain ⟨_, _, _, h_⟩ := State.post_only s n code tag body; rw [h_]; rfl
@[simp] theorem State.post_window (s : State) (n code tag : Nat) (body : List Byte) (w_ : Nat) : (s.post n code tag body).window w_ = s.window w_ := by obtain ⟨_, _, _, h_⟩ := State.post_only s n code tag body; rw [h_]; rfl
@[simp] theorem State.post_chan (s : State) (n code tag : Nat) (body : List Byte) (c_ : Nat) : (s.post n code tag body).chan c_ = s.chan c_ := by obtain ⟨_, _, _, h_⟩ := State.post_only s n code tag body; rw [h_]; rfl
@[simp] theorem State.post_ctx (s : State) (n code tag : Nat) (body : List Byte) (c_ : Nat) : (s.post n code tag body).ctx c_ = s.ctx c_ := by obtain ⟨_, _, _, h_⟩ := State.post_only s n code tag body; rw [h_]; rfl
@[simp] theorem State.post_engine (s : State) (n code tag : Nat) (body : List Byte) (e_ : Nat) : (s.post n code tag body).engine e_ = s.engine e_ := by obtain ⟨_, _, _, h_⟩ := State.post_only s n code tag body; rw [h_]; rfl
@[simp] theorem State.post_port (s : State) (n code tag : Nat) (body : List Byte) (p_ : Nat) : (s.post n code tag body).port p_ = s.port p_ := by obtain ⟨_, _, _, h_⟩ := State.post_only s n code tag body; rw [h_]; rfl
@[simp] theorem State.post_layer (s : State) (n code tag : Nat) (body : List Byte) (i_ : Nat) : (s.post n code tag body).layer i_ = s.layer i_ := by obtain ⟨_, _, _, h_⟩ := State.post_only s n code tag body; rw [h_]; rfl
@[simp] theorem State.post_head (s : State) (n code tag : Nat) (body : List Byte) (h_ : Nat) : (s.post n code tag body).head h_ = s.head h_ := by obtain ⟨_, _, _, h_⟩ := State.post_only s n code tag body; rw [h_]; rfl
@[simp] theorem State.post_dpPort (s : State) (n code tag : Nat) (body : List Byte) (p_ : Nat) : (s.post n code tag body).dpPort p_ = s.dpPort p_ := by obtain ⟨_, _, _, h_⟩ := State.post_only s n code tag body; rw [h_]; rfl
@[simp] theorem State.post_plate (s : State) (n code tag : Nat) (body : List Byte) (h_ : Nat) : (s.post n code tag body).plate h_ = s.plate h_ := by obtain ⟨_, _, _, h_⟩ := State.post_only s n code tag body; rw [h_]; rfl
@[simp] theorem State.post_session (s : State) (n code tag : Nat) (body : List Byte) (i_ : Nat) : (s.post n code tag body).session i_ = s.session i_ := by obtain ⟨_, _, _, h_⟩ := State.post_only s n code tag body; rw [h_]; rfl
@[simp] theorem State.post_encoder (s : State) (n code tag : Nat) (body : List Byte) (e_ : Nat) : (s.post n code tag body).encoder e_ = s.encoder e_ := by obtain ⟨_, _, _, h_⟩ := State.post_only s n code tag body; rw [h_]; rfl
@[simp] theorem State.post_island (s : State) (n code tag : Nat) (body : List Byte) (i_ : Nat) : (s.post n code tag body).island i_ = s.island i_ := by obtain ⟨_, _, _, h_⟩ := State.post_only s n code tag body; rw [h_]; rfl
@[simp] theorem State.post_dram (s : State) (n code tag : Nat) (body : List Byte) (c_ : Nat) : (s.post n code tag body).dram c_ = s.dram c_ := by obtain ⟨_, _, _, h_⟩ := State.post_only s n code tag body; rw [h_]; rfl
@[simp] theorem State.post_panel (s : State) (n code tag : Nat) (body : List Byte) (t_ : Nat) : (s.post n code tag body).panel t_ = s.panel t_ := by obtain ⟨_, _, _, h_⟩ := State.post_only s n code tag body; rw [h_]; rfl
@[simp] theorem State.post_input (s : State) (n code tag : Nat) (body : List Byte) (i_ : Nat) : (s.post n code tag body).input i_ = s.input i_ := by obtain ⟨_, _, _, h_⟩ := State.post_only s n code tag body; rw [h_]; rfl
@[simp] theorem State.post_output (s : State) (n code tag : Nat) (body : List Byte) (o_ : Nat) : (s.post n code tag body).output o_ = s.output o_ := by obtain ⟨_, _, _, h_⟩ := State.post_only s n code tag body; rw [h_]; rfl
@[simp] theorem State.post_quad (s : State) (n code tag : Nat) (body : List Byte) (q_ : Nat) : (s.post n code tag body).quad q_ = s.quad q_ := by obtain ⟨_, _, _, h_⟩ := State.post_only s n code tag body; rw [h_]; rfl
@[simp] theorem State.post_hostBox (s : State) (n code tag : Nat) (body : List Byte) (n_ : Nat) : (s.post n code tag body).hostBox n_ = s.hostBox n_ := by obtain ⟨_, _, _, h_⟩ := State.post_only s n code tag body; rw [h_]; rfl
@[simp] theorem State.post_farBox (s : State) (n code tag : Nat) (body : List Byte) (m_ : Nat) : (s.post n code tag body).farBox m_ = s.farBox m_ := by obtain ⟨_, _, _, h_⟩ := State.post_only s n code tag body; rw [h_]; rfl
@[simp] theorem State.post_member (s : State) (n code tag : Nat) (body : List Byte) (m_ : Nat) : (s.post n code tag body).member m_ = s.member m_ := by obtain ⟨_, _, _, h_⟩ := State.post_only s n code tag body; rw [h_]; rfl
@[simp] theorem State.post_spineLink (s : State) (n code tag : Nat) (body : List Byte) (l_ : Nat) : (s.post n code tag body).spineLink l_ = s.spineLink l_ := by obtain ⟨_, _, _, h_⟩ := State.post_only s n code tag body; rw [h_]; rfl
@[simp] theorem State.post_cvUnit (s : State) (n code tag : Nat) (body : List Byte) (u_ : Nat) : (s.post n code tag body).cvUnit u_ = s.cvUnit u_ := by obtain ⟨_, _, _, h_⟩ := State.post_only s n code tag body; rw [h_]; rfl
@[simp] theorem State.post_zeEngine (s : State) (n code tag : Nat) (body : List Byte) (e_ : Nat) : (s.post n code tag body).zeEngine e_ = s.zeEngine e_ := by obtain ⟨_, _, _, h_⟩ := State.post_only s n code tag body; rw [h_]; rfl
@[simp] theorem State.post_mapOf (s : State) (n code tag : Nat) (body : List Byte) (r_ : Nat) : (s.post n code tag body).mapOf r_ = s.mapOf r_ := by obtain ⟨_, _, _, h_⟩ := State.post_only s n code tag body; rw [h_]; rfl

/-- The same for an event posted on every ring of a list. -/
theorem State.postAll_only (s : State) (ns : List Nat) (code : Nat) (body : List Byte) :
    ∃ evtq_ rings_ fwdEvents_, s.postAll ns code body = { s with host := { s.host with evtq := evtq_, rings := rings_ }, gath := { s.gath with fwdEvents := fwdEvents_ } } := by
  unfold State.postAll
  induction ns generalizing s with
  | nil => exact ⟨_, _, _, rfl⟩
  | cons n ns ih =>
    rw [List.foldl_cons]
    obtain ⟨_, _, _, h⟩ := State.post_only s n code 0 body
    obtain ⟨_, _, _, h2⟩ := ih (s.post n code 0 body)
    rw [h2, h]
    exact ⟨_, _, _, rfl⟩

@[simp] theorem State.postAll_tb (s : State) (ns : List Nat) (code : Nat) (body : List Byte) : (s.postAll ns code body).tb = s.tb := by obtain ⟨_, _, _, h_⟩ := State.postAll_only s ns code body; rw [h_]
@[simp] theorem State.postAll_top (s : State) (ns : List Nat) (code : Nat) (body : List Byte) : (s.postAll ns code body).top = s.top := by obtain ⟨_, _, _, h_⟩ := State.postAll_only s ns code body; rw [h_]
@[simp] theorem State.postAll_host_cmdq (s : State) (ns : List Nat) (code : Nat) (body : List Byte) : (s.postAll ns code body).host.cmdq = s.host.cmdq := by obtain ⟨_, _, _, h_⟩ := State.postAll_only s ns code body; rw [h_]
@[simp] theorem State.postAll_host_stmq (s : State) (ns : List Nat) (code : Nat) (body : List Byte) : (s.postAll ns code body).host.stmq = s.host.stmq := by obtain ⟨_, _, _, h_⟩ := State.postAll_only s ns code body; rw [h_]
@[simp] theorem State.postAll_host_win (s : State) (ns : List Nat) (code : Nat) (body : List Byte) : (s.postAll ns code body).host.win = s.host.win := by obtain ⟨_, _, _, h_⟩ := State.postAll_only s ns code body; rw [h_]
@[simp] theorem State.postAll_host_irq (s : State) (ns : List Nat) (code : Nat) (body : List Byte) : (s.postAll ns code body).host.irq = s.host.irq := by obtain ⟨_, _, _, h_⟩ := State.postAll_only s ns code body; rw [h_]
@[simp] theorem State.postAll_host_msix (s : State) (ns : List Nat) (code : Nat) (body : List Byte) : (s.postAll ns code body).host.msix = s.host.msix := by obtain ⟨_, _, _, h_⟩ := State.postAll_only s ns code body; rw [h_]
@[simp] theorem State.postAll_host_chan (s : State) (ns : List Nat) (code : Nat) (body : List Byte) : (s.postAll ns code body).host.chan = s.host.chan := by obtain ⟨_, _, _, h_⟩ := State.postAll_only s ns code body; rw [h_]
@[simp] theorem State.postAll_host_bus (s : State) (ns : List Nat) (code : Nat) (body : List Byte) : (s.postAll ns code body).host.bus = s.host.bus := by obtain ⟨_, _, _, h_⟩ := State.postAll_only s ns code body; rw [h_]
@[simp] theorem State.postAll_host_fetchNo (s : State) (ns : List Nat) (code : Nat) (body : List Byte) : (s.postAll ns code body).host.fetchNo = s.host.fetchNo := by obtain ⟨_, _, _, h_⟩ := State.postAll_only s ns code body; rw [h_]
@[simp] theorem State.postAll_host_groupNo (s : State) (ns : List Nat) (code : Nat) (body : List Byte) : (s.postAll ns code body).host.groupNo = s.host.groupNo := by obtain ⟨_, _, _, h_⟩ := State.postAll_only s ns code body; rw [h_]
@[simp] theorem State.postAll_host_nextSession (s : State) (ns : List Nat) (code : Nat) (body : List Byte) : (s.postAll ns code body).host.nextSession = s.host.nextSession := by obtain ⟨_, _, _, h_⟩ := State.postAll_only s ns code body; rw [h_]
@[simp] theorem State.postAll_host_perst (s : State) (ns : List Nat) (code : Nat) (body : List Byte) : (s.postAll ns code body).host.perst = s.host.perst := by obtain ⟨_, _, _, h_⟩ := State.postAll_only s ns code body; rw [h_]
@[simp] theorem State.postAll_host_linkTraining (s : State) (ns : List Nat) (code : Nat) (body : List Byte) : (s.postAll ns code body).host.linkTraining = s.host.linkTraining := by obtain ⟨_, _, _, h_⟩ := State.postAll_only s ns code body; rw [h_]
@[simp] theorem State.postAll_host_rrNext (s : State) (ns : List Nat) (code : Nat) (body : List Byte) : (s.postAll ns code body).host.rrNext = s.host.rrNext := by obtain ⟨_, _, _, h_⟩ := State.postAll_only s ns code body; rw [h_]
@[simp] theorem State.postAll_host_rrUrgent (s : State) (ns : List Nat) (code : Nat) (body : List Byte) : (s.postAll ns code body).host.rrUrgent = s.host.rrUrgent := by obtain ⟨_, _, _, h_⟩ := State.postAll_only s ns code body; rw [h_]
@[simp] theorem State.postAll_net (s : State) (ns : List Nat) (code : Nat) (body : List Byte) : (s.postAll ns code body).net = s.net := by obtain ⟨_, _, _, h_⟩ := State.postAll_only s ns code body; rw [h_]
@[simp] theorem State.postAll_dec (s : State) (ns : List Nat) (code : Nat) (body : List Byte) : (s.postAll ns code body).dec = s.dec := by obtain ⟨_, _, _, h_⟩ := State.postAll_only s ns code body; rw [h_]
@[simp] theorem State.postAll_comp (s : State) (ns : List Nat) (code : Nat) (body : List Byte) : (s.postAll ns code body).comp = s.comp := by obtain ⟨_, _, _, h_⟩ := State.postAll_only s ns code body; rw [h_]
@[simp] theorem State.postAll_enc (s : State) (ns : List Nat) (code : Nat) (body : List Byte) : (s.postAll ns code body).enc = s.enc := by obtain ⟨_, _, _, h_⟩ := State.postAll_only s ns code body; rw [h_]
@[simp] theorem State.postAll_fab (s : State) (ns : List Nat) (code : Nat) (body : List Byte) : (s.postAll ns code body).fab = s.fab := by obtain ⟨_, _, _, h_⟩ := State.postAll_only s ns code body; rw [h_]
@[simp] theorem State.postAll_store (s : State) (ns : List Nat) (code : Nat) (body : List Byte) : (s.postAll ns code body).store = s.store := by obtain ⟨_, _, _, h_⟩ := State.postAll_only s ns code body; rw [h_]
@[simp] theorem State.postAll_sec (s : State) (ns : List Nat) (code : Nat) (body : List Byte) : (s.postAll ns code body).sec = s.sec := by obtain ⟨_, _, _, h_⟩ := State.postAll_only s ns code body; rw [h_]
@[simp] theorem State.postAll_mail (s : State) (ns : List Nat) (code : Nat) (body : List Byte) : (s.postAll ns code body).mail = s.mail := by obtain ⟨_, _, _, h_⟩ := State.postAll_only s ns code body; rw [h_]
@[simp] theorem State.postAll_gath_mem (s : State) (ns : List Nat) (code : Nat) (body : List Byte) : (s.postAll ns code body).gath.mem = s.gath.mem := by obtain ⟨_, _, _, h_⟩ := State.postAll_only s ns code body; rw [h_]
@[simp] theorem State.postAll_gath_lead (s : State) (ns : List Nat) (code : Nat) (body : List Byte) : (s.postAll ns code body).gath.lead = s.gath.lead := by obtain ⟨_, _, _, h_⟩ := State.postAll_only s ns code body; rw [h_]
@[simp] theorem State.postAll_gath_ring (s : State) (ns : List Nat) (code : Nat) (body : List Byte) : (s.postAll ns code body).gath.ring = s.gath.ring := by obtain ⟨_, _, _, h_⟩ := State.postAll_only s ns code body; rw [h_]
@[simp] theorem State.postAll_gath_link (s : State) (ns : List Nat) (code : Nat) (body : List Byte) : (s.postAll ns code body).gath.link = s.gath.link := by obtain ⟨_, _, _, h_⟩ := State.postAll_only s ns code body; rw [h_]
@[simp] theorem State.postAll_gath_relayOnly (s : State) (ns : List Nat) (code : Nat) (body : List Byte) : (s.postAll ns code body).gath.relayOnly = s.gath.relayOnly := by obtain ⟨_, _, _, h_⟩ := State.postAll_only s ns code body; rw [h_]
@[simp] theorem State.postAll_gath_outcomes (s : State) (ns : List Nat) (code : Nat) (body : List Byte) : (s.postAll ns code body).gath.outcomes = s.gath.outcomes := by obtain ⟨_, _, _, h_⟩ := State.postAll_only s ns code body; rw [h_]
@[simp] theorem State.postAll_gath_replies (s : State) (ns : List Nat) (code : Nat) (body : List Byte) : (s.postAll ns code body).gath.replies = s.gath.replies := by obtain ⟨_, _, _, h_⟩ := State.postAll_only s ns code body; rw [h_]
@[simp] theorem State.postAll_gath_sent (s : State) (ns : List Nat) (code : Nat) (body : List Byte) : (s.postAll ns code body).gath.sent = s.gath.sent := by obtain ⟨_, _, _, h_⟩ := State.postAll_only s ns code body; rw [h_]
@[simp] theorem State.postAll_gath_acks (s : State) (ns : List Nat) (code : Nat) (body : List Byte) : (s.postAll ns code body).gath.acks = s.gath.acks := by obtain ⟨_, _, _, h_⟩ := State.postAll_only s ns code body; rw [h_]
@[simp] theorem State.postAll_gath_rx (s : State) (ns : List Nat) (code : Nat) (body : List Byte) : (s.postAll ns code body).gath.rx = s.gath.rx := by obtain ⟨_, _, _, h_⟩ := State.postAll_only s ns code body; rw [h_]
@[simp] theorem State.postAll_gath_resent (s : State) (ns : List Nat) (code : Nat) (body : List Byte) : (s.postAll ns code body).gath.resent = s.gath.resent := by obtain ⟨_, _, _, h_⟩ := State.postAll_only s ns code body; rw [h_]
@[simp] theorem State.postAll_gath_watch (s : State) (ns : List Nat) (code : Nat) (body : List Byte) : (s.postAll ns code body).gath.watch = s.gath.watch := by obtain ⟨_, _, _, h_⟩ := State.postAll_only s ns code body; rw [h_]
@[simp] theorem State.postAll_gath_evCount (s : State) (ns : List Nat) (code : Nat) (body : List Byte) : (s.postAll ns code body).gath.evCount = s.gath.evCount := by obtain ⟨_, _, _, h_⟩ := State.postAll_only s ns code body; rw [h_]
@[simp] theorem State.postAll_gath_fwdSent (s : State) (ns : List Nat) (code : Nat) (body : List Byte) : (s.postAll ns code body).gath.fwdSent = s.gath.fwdSent := by obtain ⟨_, _, _, h_⟩ := State.postAll_only s ns code body; rw [h_]
@[simp] theorem State.postAll_gath_frameNo (s : State) (ns : List Nat) (code : Nat) (body : List Byte) : (s.postAll ns code body).gath.frameNo = s.gath.frameNo := by obtain ⟨_, _, _, h_⟩ := State.postAll_only s ns code body; rw [h_]
@[simp] theorem State.postAll_gath_noPathSince (s : State) (ns : List Nat) (code : Nat) (body : List Byte) : (s.postAll ns code body).gath.noPathSince = s.gath.noPathSince := by obtain ⟨_, _, _, h_⟩ := State.postAll_only s ns code body; rw [h_]
@[simp] theorem State.postAll_twin (s : State) (ns : List Nat) (code : Nat) (body : List Byte) : (s.postAll ns code body).twin = s.twin := by obtain ⟨_, _, _, h_⟩ := State.postAll_only s ns code body; rw [h_]
@[simp] theorem State.postAll_desk (s : State) (ns : List Nat) (code : Nat) (body : List Byte) : (s.postAll ns code body).desk = s.desk := by obtain ⟨_, _, _, h_⟩ := State.postAll_only s ns code body; rw [h_]
@[simp] theorem State.postAll_pwr (s : State) (ns : List Nat) (code : Nat) (body : List Byte) : (s.postAll ns code body).pwr = s.pwr := by obtain ⟨_, _, _, h_⟩ := State.postAll_only s ns code body; rw [h_]
@[simp] theorem State.postAll_lanes (s : State) (ns : List Nat) (code : Nat) (body : List Byte) : (s.postAll ns code body).lanes = s.lanes := by obtain ⟨_, _, _, h_⟩ := State.postAll_only s ns code body; rw [h_]
@[simp] theorem State.postAll_flt (s : State) (ns : List Nat) (code : Nat) (body : List Byte) : (s.postAll ns code body).flt = s.flt := by obtain ⟨_, _, _, h_⟩ := State.postAll_only s ns code body; rw [h_]
@[simp] theorem State.postAll_svc (s : State) (ns : List Nat) (code : Nat) (body : List Byte) : (s.postAll ns code body).svc = s.svc := by obtain ⟨_, _, _, h_⟩ := State.postAll_only s ns code body; rw [h_]
@[simp] theorem State.postAll_jrn (s : State) (ns : List Nat) (code : Nat) (body : List Byte) : (s.postAll ns code body).jrn = s.jrn := by obtain ⟨_, _, _, h_⟩ := State.postAll_only s ns code body; rw [h_]
@[simp] theorem State.postAll_pending (s : State) (ns : List Nat) (code : Nat) (body : List Byte) : (s.postAll ns code body).pending = s.pending := by obtain ⟨_, _, _, h_⟩ := State.postAll_only s ns code body; rw [h_]
@[simp] theorem State.postAll_cmdQ (s : State) (ns : List Nat) (code : Nat) (body : List Byte) (r_ : Nat) : (s.postAll ns code body).cmdQ r_ = s.cmdQ r_ := by obtain ⟨_, _, _, h_⟩ := State.postAll_only s ns code body; rw [h_]; rfl
@[simp] theorem State.postAll_window (s : State) (ns : List Nat) (code : Nat) (body : List Byte) (w_ : Nat) : (s.postAll ns code body).window w_ = s.window w_ := by obtain ⟨_, _, _, h_⟩ := State.postAll_only s ns code body; rw [h_]; rfl
@[simp] theorem State.postAll_chan (s : State) (ns : List Nat) (code : Nat) (body : List Byte) (c_ : Nat) : (s.postAll ns code body).chan c_ = s.chan c_ := by obtain ⟨_, _, _, h_⟩ := State.postAll_only s ns code body; rw [h_]; rfl
@[simp] theorem State.postAll_ctx (s : State) (ns : List Nat) (code : Nat) (body : List Byte) (c_ : Nat) : (s.postAll ns code body).ctx c_ = s.ctx c_ := by obtain ⟨_, _, _, h_⟩ := State.postAll_only s ns code body; rw [h_]; rfl
@[simp] theorem State.postAll_engine (s : State) (ns : List Nat) (code : Nat) (body : List Byte) (e_ : Nat) : (s.postAll ns code body).engine e_ = s.engine e_ := by obtain ⟨_, _, _, h_⟩ := State.postAll_only s ns code body; rw [h_]; rfl
@[simp] theorem State.postAll_port (s : State) (ns : List Nat) (code : Nat) (body : List Byte) (p_ : Nat) : (s.postAll ns code body).port p_ = s.port p_ := by obtain ⟨_, _, _, h_⟩ := State.postAll_only s ns code body; rw [h_]; rfl
@[simp] theorem State.postAll_layer (s : State) (ns : List Nat) (code : Nat) (body : List Byte) (i_ : Nat) : (s.postAll ns code body).layer i_ = s.layer i_ := by obtain ⟨_, _, _, h_⟩ := State.postAll_only s ns code body; rw [h_]; rfl
@[simp] theorem State.postAll_head (s : State) (ns : List Nat) (code : Nat) (body : List Byte) (h_ : Nat) : (s.postAll ns code body).head h_ = s.head h_ := by obtain ⟨_, _, _, h_⟩ := State.postAll_only s ns code body; rw [h_]; rfl
@[simp] theorem State.postAll_dpPort (s : State) (ns : List Nat) (code : Nat) (body : List Byte) (p_ : Nat) : (s.postAll ns code body).dpPort p_ = s.dpPort p_ := by obtain ⟨_, _, _, h_⟩ := State.postAll_only s ns code body; rw [h_]; rfl
@[simp] theorem State.postAll_plate (s : State) (ns : List Nat) (code : Nat) (body : List Byte) (h_ : Nat) : (s.postAll ns code body).plate h_ = s.plate h_ := by obtain ⟨_, _, _, h_⟩ := State.postAll_only s ns code body; rw [h_]; rfl
@[simp] theorem State.postAll_session (s : State) (ns : List Nat) (code : Nat) (body : List Byte) (i_ : Nat) : (s.postAll ns code body).session i_ = s.session i_ := by obtain ⟨_, _, _, h_⟩ := State.postAll_only s ns code body; rw [h_]; rfl
@[simp] theorem State.postAll_encoder (s : State) (ns : List Nat) (code : Nat) (body : List Byte) (e_ : Nat) : (s.postAll ns code body).encoder e_ = s.encoder e_ := by obtain ⟨_, _, _, h_⟩ := State.postAll_only s ns code body; rw [h_]; rfl
@[simp] theorem State.postAll_island (s : State) (ns : List Nat) (code : Nat) (body : List Byte) (i_ : Nat) : (s.postAll ns code body).island i_ = s.island i_ := by obtain ⟨_, _, _, h_⟩ := State.postAll_only s ns code body; rw [h_]; rfl
@[simp] theorem State.postAll_dram (s : State) (ns : List Nat) (code : Nat) (body : List Byte) (c_ : Nat) : (s.postAll ns code body).dram c_ = s.dram c_ := by obtain ⟨_, _, _, h_⟩ := State.postAll_only s ns code body; rw [h_]; rfl
@[simp] theorem State.postAll_panel (s : State) (ns : List Nat) (code : Nat) (body : List Byte) (t_ : Nat) : (s.postAll ns code body).panel t_ = s.panel t_ := by obtain ⟨_, _, _, h_⟩ := State.postAll_only s ns code body; rw [h_]; rfl
@[simp] theorem State.postAll_input (s : State) (ns : List Nat) (code : Nat) (body : List Byte) (i_ : Nat) : (s.postAll ns code body).input i_ = s.input i_ := by obtain ⟨_, _, _, h_⟩ := State.postAll_only s ns code body; rw [h_]; rfl
@[simp] theorem State.postAll_output (s : State) (ns : List Nat) (code : Nat) (body : List Byte) (o_ : Nat) : (s.postAll ns code body).output o_ = s.output o_ := by obtain ⟨_, _, _, h_⟩ := State.postAll_only s ns code body; rw [h_]; rfl
@[simp] theorem State.postAll_quad (s : State) (ns : List Nat) (code : Nat) (body : List Byte) (q_ : Nat) : (s.postAll ns code body).quad q_ = s.quad q_ := by obtain ⟨_, _, _, h_⟩ := State.postAll_only s ns code body; rw [h_]; rfl
@[simp] theorem State.postAll_hostBox (s : State) (ns : List Nat) (code : Nat) (body : List Byte) (n_ : Nat) : (s.postAll ns code body).hostBox n_ = s.hostBox n_ := by obtain ⟨_, _, _, h_⟩ := State.postAll_only s ns code body; rw [h_]; rfl
@[simp] theorem State.postAll_farBox (s : State) (ns : List Nat) (code : Nat) (body : List Byte) (m_ : Nat) : (s.postAll ns code body).farBox m_ = s.farBox m_ := by obtain ⟨_, _, _, h_⟩ := State.postAll_only s ns code body; rw [h_]; rfl
@[simp] theorem State.postAll_member (s : State) (ns : List Nat) (code : Nat) (body : List Byte) (m_ : Nat) : (s.postAll ns code body).member m_ = s.member m_ := by obtain ⟨_, _, _, h_⟩ := State.postAll_only s ns code body; rw [h_]; rfl
@[simp] theorem State.postAll_spineLink (s : State) (ns : List Nat) (code : Nat) (body : List Byte) (l_ : Nat) : (s.postAll ns code body).spineLink l_ = s.spineLink l_ := by obtain ⟨_, _, _, h_⟩ := State.postAll_only s ns code body; rw [h_]; rfl
@[simp] theorem State.postAll_cvUnit (s : State) (ns : List Nat) (code : Nat) (body : List Byte) (u_ : Nat) : (s.postAll ns code body).cvUnit u_ = s.cvUnit u_ := by obtain ⟨_, _, _, h_⟩ := State.postAll_only s ns code body; rw [h_]; rfl
@[simp] theorem State.postAll_zeEngine (s : State) (ns : List Nat) (code : Nat) (body : List Byte) (e_ : Nat) : (s.postAll ns code body).zeEngine e_ = s.zeEngine e_ := by obtain ⟨_, _, _, h_⟩ := State.postAll_only s ns code body; rw [h_]; rfl
@[simp] theorem State.postAll_mapOf (s : State) (ns : List Nat) (code : Nat) (body : List Byte) (r_ : Nat) : (s.postAll ns code body).mapOf r_ = s.mapOf r_ := by obtain ⟨_, _, _, h_⟩ := State.postAll_only s ns code body; rw [h_]; rfl

/-- A completion record changes its holding queue (R342). -/
theorem State.postCompletion_only (s : State) (r tag : Nat) (body : List Byte) (irq : Bool) :
    ∃ evtq_ rings_, s.postCompletion r tag body irq = { s with host := { s.host with evtq := evtq_, rings := rings_ } } := by
  unfold State.postCompletion
  dsimp only
  split
  · obtain ⟨_, _, h⟩ := State.tick_only s r
    rw [h]
    exact ⟨_, _, rfl⟩
  · exact ⟨_, _, rfl⟩

@[simp] theorem State.postCompletion_tb (s : State) (r tag : Nat) (body : List Byte) (irq : Bool) : (s.postCompletion r tag body irq).tb = s.tb := by obtain ⟨_, _, h_⟩ := State.postCompletion_only s r tag body irq; rw [h_]
@[simp] theorem State.postCompletion_top (s : State) (r tag : Nat) (body : List Byte) (irq : Bool) : (s.postCompletion r tag body irq).top = s.top := by obtain ⟨_, _, h_⟩ := State.postCompletion_only s r tag body irq; rw [h_]
@[simp] theorem State.postCompletion_host_cmdq (s : State) (r tag : Nat) (body : List Byte) (irq : Bool) : (s.postCompletion r tag body irq).host.cmdq = s.host.cmdq := by obtain ⟨_, _, h_⟩ := State.postCompletion_only s r tag body irq; rw [h_]
@[simp] theorem State.postCompletion_host_stmq (s : State) (r tag : Nat) (body : List Byte) (irq : Bool) : (s.postCompletion r tag body irq).host.stmq = s.host.stmq := by obtain ⟨_, _, h_⟩ := State.postCompletion_only s r tag body irq; rw [h_]
@[simp] theorem State.postCompletion_host_win (s : State) (r tag : Nat) (body : List Byte) (irq : Bool) : (s.postCompletion r tag body irq).host.win = s.host.win := by obtain ⟨_, _, h_⟩ := State.postCompletion_only s r tag body irq; rw [h_]
@[simp] theorem State.postCompletion_host_irq (s : State) (r tag : Nat) (body : List Byte) (irq : Bool) : (s.postCompletion r tag body irq).host.irq = s.host.irq := by obtain ⟨_, _, h_⟩ := State.postCompletion_only s r tag body irq; rw [h_]
@[simp] theorem State.postCompletion_host_msix (s : State) (r tag : Nat) (body : List Byte) (irq : Bool) : (s.postCompletion r tag body irq).host.msix = s.host.msix := by obtain ⟨_, _, h_⟩ := State.postCompletion_only s r tag body irq; rw [h_]
@[simp] theorem State.postCompletion_host_chan (s : State) (r tag : Nat) (body : List Byte) (irq : Bool) : (s.postCompletion r tag body irq).host.chan = s.host.chan := by obtain ⟨_, _, h_⟩ := State.postCompletion_only s r tag body irq; rw [h_]
@[simp] theorem State.postCompletion_host_bus (s : State) (r tag : Nat) (body : List Byte) (irq : Bool) : (s.postCompletion r tag body irq).host.bus = s.host.bus := by obtain ⟨_, _, h_⟩ := State.postCompletion_only s r tag body irq; rw [h_]
@[simp] theorem State.postCompletion_host_fetchNo (s : State) (r tag : Nat) (body : List Byte) (irq : Bool) : (s.postCompletion r tag body irq).host.fetchNo = s.host.fetchNo := by obtain ⟨_, _, h_⟩ := State.postCompletion_only s r tag body irq; rw [h_]
@[simp] theorem State.postCompletion_host_groupNo (s : State) (r tag : Nat) (body : List Byte) (irq : Bool) : (s.postCompletion r tag body irq).host.groupNo = s.host.groupNo := by obtain ⟨_, _, h_⟩ := State.postCompletion_only s r tag body irq; rw [h_]
@[simp] theorem State.postCompletion_host_nextSession (s : State) (r tag : Nat) (body : List Byte) (irq : Bool) : (s.postCompletion r tag body irq).host.nextSession = s.host.nextSession := by obtain ⟨_, _, h_⟩ := State.postCompletion_only s r tag body irq; rw [h_]
@[simp] theorem State.postCompletion_host_perst (s : State) (r tag : Nat) (body : List Byte) (irq : Bool) : (s.postCompletion r tag body irq).host.perst = s.host.perst := by obtain ⟨_, _, h_⟩ := State.postCompletion_only s r tag body irq; rw [h_]
@[simp] theorem State.postCompletion_host_linkTraining (s : State) (r tag : Nat) (body : List Byte) (irq : Bool) : (s.postCompletion r tag body irq).host.linkTraining = s.host.linkTraining := by obtain ⟨_, _, h_⟩ := State.postCompletion_only s r tag body irq; rw [h_]
@[simp] theorem State.postCompletion_host_rrNext (s : State) (r tag : Nat) (body : List Byte) (irq : Bool) : (s.postCompletion r tag body irq).host.rrNext = s.host.rrNext := by obtain ⟨_, _, h_⟩ := State.postCompletion_only s r tag body irq; rw [h_]
@[simp] theorem State.postCompletion_host_rrUrgent (s : State) (r tag : Nat) (body : List Byte) (irq : Bool) : (s.postCompletion r tag body irq).host.rrUrgent = s.host.rrUrgent := by obtain ⟨_, _, h_⟩ := State.postCompletion_only s r tag body irq; rw [h_]
@[simp] theorem State.postCompletion_net (s : State) (r tag : Nat) (body : List Byte) (irq : Bool) : (s.postCompletion r tag body irq).net = s.net := by obtain ⟨_, _, h_⟩ := State.postCompletion_only s r tag body irq; rw [h_]
@[simp] theorem State.postCompletion_dec (s : State) (r tag : Nat) (body : List Byte) (irq : Bool) : (s.postCompletion r tag body irq).dec = s.dec := by obtain ⟨_, _, h_⟩ := State.postCompletion_only s r tag body irq; rw [h_]
@[simp] theorem State.postCompletion_comp (s : State) (r tag : Nat) (body : List Byte) (irq : Bool) : (s.postCompletion r tag body irq).comp = s.comp := by obtain ⟨_, _, h_⟩ := State.postCompletion_only s r tag body irq; rw [h_]
@[simp] theorem State.postCompletion_enc (s : State) (r tag : Nat) (body : List Byte) (irq : Bool) : (s.postCompletion r tag body irq).enc = s.enc := by obtain ⟨_, _, h_⟩ := State.postCompletion_only s r tag body irq; rw [h_]
@[simp] theorem State.postCompletion_fab (s : State) (r tag : Nat) (body : List Byte) (irq : Bool) : (s.postCompletion r tag body irq).fab = s.fab := by obtain ⟨_, _, h_⟩ := State.postCompletion_only s r tag body irq; rw [h_]
@[simp] theorem State.postCompletion_store (s : State) (r tag : Nat) (body : List Byte) (irq : Bool) : (s.postCompletion r tag body irq).store = s.store := by obtain ⟨_, _, h_⟩ := State.postCompletion_only s r tag body irq; rw [h_]
@[simp] theorem State.postCompletion_sec (s : State) (r tag : Nat) (body : List Byte) (irq : Bool) : (s.postCompletion r tag body irq).sec = s.sec := by obtain ⟨_, _, h_⟩ := State.postCompletion_only s r tag body irq; rw [h_]
@[simp] theorem State.postCompletion_mail (s : State) (r tag : Nat) (body : List Byte) (irq : Bool) : (s.postCompletion r tag body irq).mail = s.mail := by obtain ⟨_, _, h_⟩ := State.postCompletion_only s r tag body irq; rw [h_]
@[simp] theorem State.postCompletion_gath (s : State) (r tag : Nat) (body : List Byte) (irq : Bool) : (s.postCompletion r tag body irq).gath = s.gath := by obtain ⟨_, _, h_⟩ := State.postCompletion_only s r tag body irq; rw [h_]
@[simp] theorem State.postCompletion_twin (s : State) (r tag : Nat) (body : List Byte) (irq : Bool) : (s.postCompletion r tag body irq).twin = s.twin := by obtain ⟨_, _, h_⟩ := State.postCompletion_only s r tag body irq; rw [h_]
@[simp] theorem State.postCompletion_desk (s : State) (r tag : Nat) (body : List Byte) (irq : Bool) : (s.postCompletion r tag body irq).desk = s.desk := by obtain ⟨_, _, h_⟩ := State.postCompletion_only s r tag body irq; rw [h_]
@[simp] theorem State.postCompletion_pwr (s : State) (r tag : Nat) (body : List Byte) (irq : Bool) : (s.postCompletion r tag body irq).pwr = s.pwr := by obtain ⟨_, _, h_⟩ := State.postCompletion_only s r tag body irq; rw [h_]
@[simp] theorem State.postCompletion_lanes (s : State) (r tag : Nat) (body : List Byte) (irq : Bool) : (s.postCompletion r tag body irq).lanes = s.lanes := by obtain ⟨_, _, h_⟩ := State.postCompletion_only s r tag body irq; rw [h_]
@[simp] theorem State.postCompletion_flt (s : State) (r tag : Nat) (body : List Byte) (irq : Bool) : (s.postCompletion r tag body irq).flt = s.flt := by obtain ⟨_, _, h_⟩ := State.postCompletion_only s r tag body irq; rw [h_]
@[simp] theorem State.postCompletion_svc (s : State) (r tag : Nat) (body : List Byte) (irq : Bool) : (s.postCompletion r tag body irq).svc = s.svc := by obtain ⟨_, _, h_⟩ := State.postCompletion_only s r tag body irq; rw [h_]
@[simp] theorem State.postCompletion_jrn (s : State) (r tag : Nat) (body : List Byte) (irq : Bool) : (s.postCompletion r tag body irq).jrn = s.jrn := by obtain ⟨_, _, h_⟩ := State.postCompletion_only s r tag body irq; rw [h_]
@[simp] theorem State.postCompletion_pending (s : State) (r tag : Nat) (body : List Byte) (irq : Bool) : (s.postCompletion r tag body irq).pending = s.pending := by obtain ⟨_, _, h_⟩ := State.postCompletion_only s r tag body irq; rw [h_]
@[simp] theorem State.postCompletion_cmdQ (s : State) (r tag : Nat) (body : List Byte) (irq : Bool) (r_ : Nat) : (s.postCompletion r tag body irq).cmdQ r_ = s.cmdQ r_ := by obtain ⟨_, _, h_⟩ := State.postCompletion_only s r tag body irq; rw [h_]; rfl
@[simp] theorem State.postCompletion_window (s : State) (r tag : Nat) (body : List Byte) (irq : Bool) (w_ : Nat) : (s.postCompletion r tag body irq).window w_ = s.window w_ := by obtain ⟨_, _, h_⟩ := State.postCompletion_only s r tag body irq; rw [h_]; rfl
@[simp] theorem State.postCompletion_chan (s : State) (r tag : Nat) (body : List Byte) (irq : Bool) (c_ : Nat) : (s.postCompletion r tag body irq).chan c_ = s.chan c_ := by obtain ⟨_, _, h_⟩ := State.postCompletion_only s r tag body irq; rw [h_]; rfl
@[simp] theorem State.postCompletion_ctx (s : State) (r tag : Nat) (body : List Byte) (irq : Bool) (c_ : Nat) : (s.postCompletion r tag body irq).ctx c_ = s.ctx c_ := by obtain ⟨_, _, h_⟩ := State.postCompletion_only s r tag body irq; rw [h_]; rfl
@[simp] theorem State.postCompletion_engine (s : State) (r tag : Nat) (body : List Byte) (irq : Bool) (e_ : Nat) : (s.postCompletion r tag body irq).engine e_ = s.engine e_ := by obtain ⟨_, _, h_⟩ := State.postCompletion_only s r tag body irq; rw [h_]; rfl
@[simp] theorem State.postCompletion_port (s : State) (r tag : Nat) (body : List Byte) (irq : Bool) (p_ : Nat) : (s.postCompletion r tag body irq).port p_ = s.port p_ := by obtain ⟨_, _, h_⟩ := State.postCompletion_only s r tag body irq; rw [h_]; rfl
@[simp] theorem State.postCompletion_layer (s : State) (r tag : Nat) (body : List Byte) (irq : Bool) (i_ : Nat) : (s.postCompletion r tag body irq).layer i_ = s.layer i_ := by obtain ⟨_, _, h_⟩ := State.postCompletion_only s r tag body irq; rw [h_]; rfl
@[simp] theorem State.postCompletion_head (s : State) (r tag : Nat) (body : List Byte) (irq : Bool) (h_ : Nat) : (s.postCompletion r tag body irq).head h_ = s.head h_ := by obtain ⟨_, _, h_⟩ := State.postCompletion_only s r tag body irq; rw [h_]; rfl
@[simp] theorem State.postCompletion_dpPort (s : State) (r tag : Nat) (body : List Byte) (irq : Bool) (p_ : Nat) : (s.postCompletion r tag body irq).dpPort p_ = s.dpPort p_ := by obtain ⟨_, _, h_⟩ := State.postCompletion_only s r tag body irq; rw [h_]; rfl
@[simp] theorem State.postCompletion_plate (s : State) (r tag : Nat) (body : List Byte) (irq : Bool) (h_ : Nat) : (s.postCompletion r tag body irq).plate h_ = s.plate h_ := by obtain ⟨_, _, h_⟩ := State.postCompletion_only s r tag body irq; rw [h_]; rfl
@[simp] theorem State.postCompletion_session (s : State) (r tag : Nat) (body : List Byte) (irq : Bool) (i_ : Nat) : (s.postCompletion r tag body irq).session i_ = s.session i_ := by obtain ⟨_, _, h_⟩ := State.postCompletion_only s r tag body irq; rw [h_]; rfl
@[simp] theorem State.postCompletion_encoder (s : State) (r tag : Nat) (body : List Byte) (irq : Bool) (e_ : Nat) : (s.postCompletion r tag body irq).encoder e_ = s.encoder e_ := by obtain ⟨_, _, h_⟩ := State.postCompletion_only s r tag body irq; rw [h_]; rfl
@[simp] theorem State.postCompletion_island (s : State) (r tag : Nat) (body : List Byte) (irq : Bool) (i_ : Nat) : (s.postCompletion r tag body irq).island i_ = s.island i_ := by obtain ⟨_, _, h_⟩ := State.postCompletion_only s r tag body irq; rw [h_]; rfl
@[simp] theorem State.postCompletion_dram (s : State) (r tag : Nat) (body : List Byte) (irq : Bool) (c_ : Nat) : (s.postCompletion r tag body irq).dram c_ = s.dram c_ := by obtain ⟨_, _, h_⟩ := State.postCompletion_only s r tag body irq; rw [h_]; rfl
@[simp] theorem State.postCompletion_panel (s : State) (r tag : Nat) (body : List Byte) (irq : Bool) (t_ : Nat) : (s.postCompletion r tag body irq).panel t_ = s.panel t_ := by obtain ⟨_, _, h_⟩ := State.postCompletion_only s r tag body irq; rw [h_]; rfl
@[simp] theorem State.postCompletion_input (s : State) (r tag : Nat) (body : List Byte) (irq : Bool) (i_ : Nat) : (s.postCompletion r tag body irq).input i_ = s.input i_ := by obtain ⟨_, _, h_⟩ := State.postCompletion_only s r tag body irq; rw [h_]; rfl
@[simp] theorem State.postCompletion_output (s : State) (r tag : Nat) (body : List Byte) (irq : Bool) (o_ : Nat) : (s.postCompletion r tag body irq).output o_ = s.output o_ := by obtain ⟨_, _, h_⟩ := State.postCompletion_only s r tag body irq; rw [h_]; rfl
@[simp] theorem State.postCompletion_quad (s : State) (r tag : Nat) (body : List Byte) (irq : Bool) (q_ : Nat) : (s.postCompletion r tag body irq).quad q_ = s.quad q_ := by obtain ⟨_, _, h_⟩ := State.postCompletion_only s r tag body irq; rw [h_]; rfl
@[simp] theorem State.postCompletion_hostBox (s : State) (r tag : Nat) (body : List Byte) (irq : Bool) (n_ : Nat) : (s.postCompletion r tag body irq).hostBox n_ = s.hostBox n_ := by obtain ⟨_, _, h_⟩ := State.postCompletion_only s r tag body irq; rw [h_]; rfl
@[simp] theorem State.postCompletion_farBox (s : State) (r tag : Nat) (body : List Byte) (irq : Bool) (m_ : Nat) : (s.postCompletion r tag body irq).farBox m_ = s.farBox m_ := by obtain ⟨_, _, h_⟩ := State.postCompletion_only s r tag body irq; rw [h_]; rfl
@[simp] theorem State.postCompletion_member (s : State) (r tag : Nat) (body : List Byte) (irq : Bool) (m_ : Nat) : (s.postCompletion r tag body irq).member m_ = s.member m_ := by obtain ⟨_, _, h_⟩ := State.postCompletion_only s r tag body irq; rw [h_]; rfl
@[simp] theorem State.postCompletion_spineLink (s : State) (r tag : Nat) (body : List Byte) (irq : Bool) (l_ : Nat) : (s.postCompletion r tag body irq).spineLink l_ = s.spineLink l_ := by obtain ⟨_, _, h_⟩ := State.postCompletion_only s r tag body irq; rw [h_]; rfl
@[simp] theorem State.postCompletion_cvUnit (s : State) (r tag : Nat) (body : List Byte) (irq : Bool) (u_ : Nat) : (s.postCompletion r tag body irq).cvUnit u_ = s.cvUnit u_ := by obtain ⟨_, _, h_⟩ := State.postCompletion_only s r tag body irq; rw [h_]; rfl
@[simp] theorem State.postCompletion_zeEngine (s : State) (r tag : Nat) (body : List Byte) (irq : Bool) (e_ : Nat) : (s.postCompletion r tag body irq).zeEngine e_ = s.zeEngine e_ := by obtain ⟨_, _, h_⟩ := State.postCompletion_only s r tag body irq; rw [h_]; rfl
@[simp] theorem State.postCompletion_mapOf (s : State) (r tag : Nat) (body : List Byte) (irq : Bool) (r_ : Nat) : (s.postCompletion r tag body irq).mapOf r_ = s.mapOf r_ := by obtain ⟨_, _, h_⟩ := State.postCompletion_only s r tag body irq; rw [h_]; rfl

end Sys2Proof.Machine
end

