-- ==== Sys2Proof/Laws/Folios.lean ====
section
/-!
SUPPORT. What the end of a folio can change, whatever the folio is: its completion record or reply, the ring it ends on, the SYNCs it
releases and the islands that its work needs.
-/

namespace Sys2Proof.Machine

/-- An outcome kept for the member a folio came from (R458). -/
theorem State.keepOutcome_only (s : State) (origin ring : Nat) (seq : BitVec 32) (st result : Nat) :
    ∃ outcomes_ replies_, s.keepOutcome origin ring seq st result = { s with gath := { s.gath with outcomes := outcomes_, replies := replies_ } } := by
  exact ⟨_, _, rfl⟩

@[simp] theorem State.keepOutcome_tb (s : State) (origin ring : Nat) (seq : BitVec 32) (st result : Nat) : (s.keepOutcome origin ring seq st result).tb = s.tb := by obtain ⟨_, _, h_⟩ := State.keepOutcome_only s origin ring seq st result; rw [h_]
@[simp] theorem State.keepOutcome_top (s : State) (origin ring : Nat) (seq : BitVec 32) (st result : Nat) : (s.keepOutcome origin ring seq st result).top = s.top := by obtain ⟨_, _, h_⟩ := State.keepOutcome_only s origin ring seq st result; rw [h_]
@[simp] theorem State.keepOutcome_host (s : State) (origin ring : Nat) (seq : BitVec 32) (st result : Nat) : (s.keepOutcome origin ring seq st result).host = s.host := by obtain ⟨_, _, h_⟩ := State.keepOutcome_only s origin ring seq st result; rw [h_]
@[simp] theorem State.keepOutcome_net (s : State) (origin ring : Nat) (seq : BitVec 32) (st result : Nat) : (s.keepOutcome origin ring seq st result).net = s.net := by obtain ⟨_, _, h_⟩ := State.keepOutcome_only s origin ring seq st result; rw [h_]
@[simp] theorem State.keepOutcome_dec (s : State) (origin ring : Nat) (seq : BitVec 32) (st result : Nat) : (s.keepOutcome origin ring seq st result).dec = s.dec := by obtain ⟨_, _, h_⟩ := State.keepOutcome_only s origin ring seq st result; rw [h_]
@[simp] theorem State.keepOutcome_comp (s : State) (origin ring : Nat) (seq : BitVec 32) (st result : Nat) : (s.keepOutcome origin ring seq st result).comp = s.comp := by obtain ⟨_, _, h_⟩ := State.keepOutcome_only s origin ring seq st result; rw [h_]
@[simp] theorem State.keepOutcome_enc (s : State) (origin ring : Nat) (seq : BitVec 32) (st result : Nat) : (s.keepOutcome origin ring seq st result).enc = s.enc := by obtain ⟨_, _, h_⟩ := State.keepOutcome_only s origin ring seq st result; rw [h_]
@[simp] theorem State.keepOutcome_fab (s : State) (origin ring : Nat) (seq : BitVec 32) (st result : Nat) : (s.keepOutcome origin ring seq st result).fab = s.fab := by obtain ⟨_, _, h_⟩ := State.keepOutcome_only s origin ring seq st result; rw [h_]
@[simp] theorem State.keepOutcome_store (s : State) (origin ring : Nat) (seq : BitVec 32) (st result : Nat) : (s.keepOutcome origin ring seq st result).store = s.store := by obtain ⟨_, _, h_⟩ := State.keepOutcome_only s origin ring seq st result; rw [h_]
@[simp] theorem State.keepOutcome_sec (s : State) (origin ring : Nat) (seq : BitVec 32) (st result : Nat) : (s.keepOutcome origin ring seq st result).sec = s.sec := by obtain ⟨_, _, h_⟩ := State.keepOutcome_only s origin ring seq st result; rw [h_]
@[simp] theorem State.keepOutcome_mail (s : State) (origin ring : Nat) (seq : BitVec 32) (st result : Nat) : (s.keepOutcome origin ring seq st result).mail = s.mail := by obtain ⟨_, _, h_⟩ := State.keepOutcome_only s origin ring seq st result; rw [h_]
@[simp] theorem State.keepOutcome_gath_mem (s : State) (origin ring : Nat) (seq : BitVec 32) (st result : Nat) : (s.keepOutcome origin ring seq st result).gath.mem = s.gath.mem := by obtain ⟨_, _, h_⟩ := State.keepOutcome_only s origin ring seq st result; rw [h_]
@[simp] theorem State.keepOutcome_gath_lead (s : State) (origin ring : Nat) (seq : BitVec 32) (st result : Nat) : (s.keepOutcome origin ring seq st result).gath.lead = s.gath.lead := by obtain ⟨_, _, h_⟩ := State.keepOutcome_only s origin ring seq st result; rw [h_]
@[simp] theorem State.keepOutcome_gath_ring (s : State) (origin ring : Nat) (seq : BitVec 32) (st result : Nat) : (s.keepOutcome origin ring seq st result).gath.ring = s.gath.ring := by obtain ⟨_, _, h_⟩ := State.keepOutcome_only s origin ring seq st result; rw [h_]
@[simp] theorem State.keepOutcome_gath_link (s : State) (origin ring : Nat) (seq : BitVec 32) (st result : Nat) : (s.keepOutcome origin ring seq st result).gath.link = s.gath.link := by obtain ⟨_, _, h_⟩ := State.keepOutcome_only s origin ring seq st result; rw [h_]
@[simp] theorem State.keepOutcome_gath_relayOnly (s : State) (origin ring : Nat) (seq : BitVec 32) (st result : Nat) : (s.keepOutcome origin ring seq st result).gath.relayOnly = s.gath.relayOnly := by obtain ⟨_, _, h_⟩ := State.keepOutcome_only s origin ring seq st result; rw [h_]
@[simp] theorem State.keepOutcome_gath_sent (s : State) (origin ring : Nat) (seq : BitVec 32) (st result : Nat) : (s.keepOutcome origin ring seq st result).gath.sent = s.gath.sent := by obtain ⟨_, _, h_⟩ := State.keepOutcome_only s origin ring seq st result; rw [h_]
@[simp] theorem State.keepOutcome_gath_acks (s : State) (origin ring : Nat) (seq : BitVec 32) (st result : Nat) : (s.keepOutcome origin ring seq st result).gath.acks = s.gath.acks := by obtain ⟨_, _, h_⟩ := State.keepOutcome_only s origin ring seq st result; rw [h_]
@[simp] theorem State.keepOutcome_gath_rx (s : State) (origin ring : Nat) (seq : BitVec 32) (st result : Nat) : (s.keepOutcome origin ring seq st result).gath.rx = s.gath.rx := by obtain ⟨_, _, h_⟩ := State.keepOutcome_only s origin ring seq st result; rw [h_]
@[simp] theorem State.keepOutcome_gath_fwdEvents (s : State) (origin ring : Nat) (seq : BitVec 32) (st result : Nat) : (s.keepOutcome origin ring seq st result).gath.fwdEvents = s.gath.fwdEvents := by obtain ⟨_, _, h_⟩ := State.keepOutcome_only s origin ring seq st result; rw [h_]
@[simp] theorem State.keepOutcome_gath_resent (s : State) (origin ring : Nat) (seq : BitVec 32) (st result : Nat) : (s.keepOutcome origin ring seq st result).gath.resent = s.gath.resent := by obtain ⟨_, _, h_⟩ := State.keepOutcome_only s origin ring seq st result; rw [h_]
@[simp] theorem State.keepOutcome_gath_watch (s : State) (origin ring : Nat) (seq : BitVec 32) (st result : Nat) : (s.keepOutcome origin ring seq st result).gath.watch = s.gath.watch := by obtain ⟨_, _, h_⟩ := State.keepOutcome_only s origin ring seq st result; rw [h_]
@[simp] theorem State.keepOutcome_gath_evCount (s : State) (origin ring : Nat) (seq : BitVec 32) (st result : Nat) : (s.keepOutcome origin ring seq st result).gath.evCount = s.gath.evCount := by obtain ⟨_, _, h_⟩ := State.keepOutcome_only s origin ring seq st result; rw [h_]
@[simp] theorem State.keepOutcome_gath_fwdSent (s : State) (origin ring : Nat) (seq : BitVec 32) (st result : Nat) : (s.keepOutcome origin ring seq st result).gath.fwdSent = s.gath.fwdSent := by obtain ⟨_, _, h_⟩ := State.keepOutcome_only s origin ring seq st result; rw [h_]
@[simp] theorem State.keepOutcome_gath_frameNo (s : State) (origin ring : Nat) (seq : BitVec 32) (st result : Nat) : (s.keepOutcome origin ring seq st result).gath.frameNo = s.gath.frameNo := by obtain ⟨_, _, h_⟩ := State.keepOutcome_only s origin ring seq st result; rw [h_]
@[simp] theorem State.keepOutcome_gath_noPathSince (s : State) (origin ring : Nat) (seq : BitVec 32) (st result : Nat) : (s.keepOutcome origin ring seq st result).gath.noPathSince = s.gath.noPathSince := by obtain ⟨_, _, h_⟩ := State.keepOutcome_only s origin ring seq st result; rw [h_]
@[simp] theorem State.keepOutcome_twin (s : State) (origin ring : Nat) (seq : BitVec 32) (st result : Nat) : (s.keepOutcome origin ring seq st result).twin = s.twin := by obtain ⟨_, _, h_⟩ := State.keepOutcome_only s origin ring seq st result; rw [h_]
@[simp] theorem State.keepOutcome_desk (s : State) (origin ring : Nat) (seq : BitVec 32) (st result : Nat) : (s.keepOutcome origin ring seq st result).desk = s.desk := by obtain ⟨_, _, h_⟩ := State.keepOutcome_only s origin ring seq st result; rw [h_]
@[simp] theorem State.keepOutcome_pwr (s : State) (origin ring : Nat) (seq : BitVec 32) (st result : Nat) : (s.keepOutcome origin ring seq st result).pwr = s.pwr := by obtain ⟨_, _, h_⟩ := State.keepOutcome_only s origin ring seq st result; rw [h_]
@[simp] theorem State.keepOutcome_lanes (s : State) (origin ring : Nat) (seq : BitVec 32) (st result : Nat) : (s.keepOutcome origin ring seq st result).lanes = s.lanes := by obtain ⟨_, _, h_⟩ := State.keepOutcome_only s origin ring seq st result; rw [h_]
@[simp] theorem State.keepOutcome_flt (s : State) (origin ring : Nat) (seq : BitVec 32) (st result : Nat) : (s.keepOutcome origin ring seq st result).flt = s.flt := by obtain ⟨_, _, h_⟩ := State.keepOutcome_only s origin ring seq st result; rw [h_]
@[simp] theorem State.keepOutcome_svc (s : State) (origin ring : Nat) (seq : BitVec 32) (st result : Nat) : (s.keepOutcome origin ring seq st result).svc = s.svc := by obtain ⟨_, _, h_⟩ := State.keepOutcome_only s origin ring seq st result; rw [h_]
@[simp] theorem State.keepOutcome_jrn (s : State) (origin ring : Nat) (seq : BitVec 32) (st result : Nat) : (s.keepOutcome origin ring seq st result).jrn = s.jrn := by obtain ⟨_, _, h_⟩ := State.keepOutcome_only s origin ring seq st result; rw [h_]
@[simp] theorem State.keepOutcome_pending (s : State) (origin ring : Nat) (seq : BitVec 32) (st result : Nat) : (s.keepOutcome origin ring seq st result).pending = s.pending := by obtain ⟨_, _, h_⟩ := State.keepOutcome_only s origin ring seq st result; rw [h_]
@[simp] theorem State.keepOutcome_ring (s : State) (origin ring : Nat) (seq : BitVec 32) (st result : Nat) (r_ : Nat) : (s.keepOutcome origin ring seq st result).ring r_ = s.ring r_ := by obtain ⟨_, _, h_⟩ := State.keepOutcome_only s origin ring seq st result; rw [h_]; rfl
@[simp] theorem State.keepOutcome_cmdQ (s : State) (origin ring : Nat) (seq : BitVec 32) (st result : Nat) (r_ : Nat) : (s.keepOutcome origin ring seq st result).cmdQ r_ = s.cmdQ r_ := by obtain ⟨_, _, h_⟩ := State.keepOutcome_only s origin ring seq st result; rw [h_]; rfl
@[simp] theorem State.keepOutcome_evtQ (s : State) (origin ring : Nat) (seq : BitVec 32) (st result : Nat) (n_ : Nat) : (s.keepOutcome origin ring seq st result).evtQ n_ = s.evtQ n_ := by obtain ⟨_, _, h_⟩ := State.keepOutcome_only s origin ring seq st result; rw [h_]; rfl
@[simp] theorem State.keepOutcome_window (s : State) (origin ring : Nat) (seq : BitVec 32) (st result : Nat) (w_ : Nat) : (s.keepOutcome origin ring seq st result).window w_ = s.window w_ := by obtain ⟨_, _, h_⟩ := State.keepOutcome_only s origin ring seq st result; rw [h_]; rfl
@[simp] theorem State.keepOutcome_chan (s : State) (origin ring : Nat) (seq : BitVec 32) (st result : Nat) (c_ : Nat) : (s.keepOutcome origin ring seq st result).chan c_ = s.chan c_ := by obtain ⟨_, _, h_⟩ := State.keepOutcome_only s origin ring seq st result; rw [h_]; rfl
@[simp] theorem State.keepOutcome_ctx (s : State) (origin ring : Nat) (seq : BitVec 32) (st result : Nat) (c_ : Nat) : (s.keepOutcome origin ring seq st result).ctx c_ = s.ctx c_ := by obtain ⟨_, _, h_⟩ := State.keepOutcome_only s origin ring seq st result; rw [h_]; rfl
@[simp] theorem State.keepOutcome_engine (s : State) (origin ring : Nat) (seq : BitVec 32) (st result : Nat) (e_ : Nat) : (s.keepOutcome origin ring seq st result).engine e_ = s.engine e_ := by obtain ⟨_, _, h_⟩ := State.keepOutcome_only s origin ring seq st result; rw [h_]; rfl
@[simp] theorem State.keepOutcome_port (s : State) (origin ring : Nat) (seq : BitVec 32) (st result : Nat) (p_ : Nat) : (s.keepOutcome origin ring seq st result).port p_ = s.port p_ := by obtain ⟨_, _, h_⟩ := State.keepOutcome_only s origin ring seq st result; rw [h_]; rfl
@[simp] theorem State.keepOutcome_layer (s : State) (origin ring : Nat) (seq : BitVec 32) (st result : Nat) (i_ : Nat) : (s.keepOutcome origin ring seq st result).layer i_ = s.layer i_ := by obtain ⟨_, _, h_⟩ := State.keepOutcome_only s origin ring seq st result; rw [h_]; rfl
@[simp] theorem State.keepOutcome_head (s : State) (origin ring : Nat) (seq : BitVec 32) (st result : Nat) (h_ : Nat) : (s.keepOutcome origin ring seq st result).head h_ = s.head h_ := by obtain ⟨_, _, h_⟩ := State.keepOutcome_only s origin ring seq st result; rw [h_]; rfl
@[simp] theorem State.keepOutcome_dpPort (s : State) (origin ring : Nat) (seq : BitVec 32) (st result : Nat) (p_ : Nat) : (s.keepOutcome origin ring seq st result).dpPort p_ = s.dpPort p_ := by obtain ⟨_, _, h_⟩ := State.keepOutcome_only s origin ring seq st result; rw [h_]; rfl
@[simp] theorem State.keepOutcome_plate (s : State) (origin ring : Nat) (seq : BitVec 32) (st result : Nat) (h_ : Nat) : (s.keepOutcome origin ring seq st result).plate h_ = s.plate h_ := by obtain ⟨_, _, h_⟩ := State.keepOutcome_only s origin ring seq st result; rw [h_]; rfl
@[simp] theorem State.keepOutcome_session (s : State) (origin ring : Nat) (seq : BitVec 32) (st result : Nat) (i_ : Nat) : (s.keepOutcome origin ring seq st result).session i_ = s.session i_ := by obtain ⟨_, _, h_⟩ := State.keepOutcome_only s origin ring seq st result; rw [h_]; rfl
@[simp] theorem State.keepOutcome_encoder (s : State) (origin ring : Nat) (seq : BitVec 32) (st result : Nat) (e_ : Nat) : (s.keepOutcome origin ring seq st result).encoder e_ = s.encoder e_ := by obtain ⟨_, _, h_⟩ := State.keepOutcome_only s origin ring seq st result; rw [h_]; rfl
@[simp] theorem State.keepOutcome_island (s : State) (origin ring : Nat) (seq : BitVec 32) (st result : Nat) (i_ : Nat) : (s.keepOutcome origin ring seq st result).island i_ = s.island i_ := by obtain ⟨_, _, h_⟩ := State.keepOutcome_only s origin ring seq st result; rw [h_]; rfl
@[simp] theorem State.keepOutcome_dram (s : State) (origin ring : Nat) (seq : BitVec 32) (st result : Nat) (c_ : Nat) : (s.keepOutcome origin ring seq st result).dram c_ = s.dram c_ := by obtain ⟨_, _, h_⟩ := State.keepOutcome_only s origin ring seq st result; rw [h_]; rfl
@[simp] theorem State.keepOutcome_panel (s : State) (origin ring : Nat) (seq : BitVec 32) (st result : Nat) (t_ : Nat) : (s.keepOutcome origin ring seq st result).panel t_ = s.panel t_ := by obtain ⟨_, _, h_⟩ := State.keepOutcome_only s origin ring seq st result; rw [h_]; rfl
@[simp] theorem State.keepOutcome_input (s : State) (origin ring : Nat) (seq : BitVec 32) (st result : Nat) (i_ : Nat) : (s.keepOutcome origin ring seq st result).input i_ = s.input i_ := by obtain ⟨_, _, h_⟩ := State.keepOutcome_only s origin ring seq st result; rw [h_]; rfl
@[simp] theorem State.keepOutcome_output (s : State) (origin ring : Nat) (seq : BitVec 32) (st result : Nat) (o_ : Nat) : (s.keepOutcome origin ring seq st result).output o_ = s.output o_ := by obtain ⟨_, _, h_⟩ := State.keepOutcome_only s origin ring seq st result; rw [h_]; rfl
@[simp] theorem State.keepOutcome_quad (s : State) (origin ring : Nat) (seq : BitVec 32) (st result : Nat) (q_ : Nat) : (s.keepOutcome origin ring seq st result).quad q_ = s.quad q_ := by obtain ⟨_, _, h_⟩ := State.keepOutcome_only s origin ring seq st result; rw [h_]; rfl
@[simp] theorem State.keepOutcome_hostBox (s : State) (origin ring : Nat) (seq : BitVec 32) (st result : Nat) (n_ : Nat) : (s.keepOutcome origin ring seq st result).hostBox n_ = s.hostBox n_ := by obtain ⟨_, _, h_⟩ := State.keepOutcome_only s origin ring seq st result; rw [h_]; rfl
@[simp] theorem State.keepOutcome_farBox (s : State) (origin ring : Nat) (seq : BitVec 32) (st result : Nat) (m_ : Nat) : (s.keepOutcome origin ring seq st result).farBox m_ = s.farBox m_ := by obtain ⟨_, _, h_⟩ := State.keepOutcome_only s origin ring seq st result; rw [h_]; rfl
@[simp] theorem State.keepOutcome_member (s : State) (origin ring : Nat) (seq : BitVec 32) (st result : Nat) (m_ : Nat) : (s.keepOutcome origin ring seq st result).member m_ = s.member m_ := by obtain ⟨_, _, h_⟩ := State.keepOutcome_only s origin ring seq st result; rw [h_]; rfl
@[simp] theorem State.keepOutcome_spineLink (s : State) (origin ring : Nat) (seq : BitVec 32) (st result : Nat) (l_ : Nat) : (s.keepOutcome origin ring seq st result).spineLink l_ = s.spineLink l_ := by obtain ⟨_, _, h_⟩ := State.keepOutcome_only s origin ring seq st result; rw [h_]; rfl
@[simp] theorem State.keepOutcome_cvUnit (s : State) (origin ring : Nat) (seq : BitVec 32) (st result : Nat) (u_ : Nat) : (s.keepOutcome origin ring seq st result).cvUnit u_ = s.cvUnit u_ := by obtain ⟨_, _, h_⟩ := State.keepOutcome_only s origin ring seq st result; rw [h_]; rfl
@[simp] theorem State.keepOutcome_zeEngine (s : State) (origin ring : Nat) (seq : BitVec 32) (st result : Nat) (e_ : Nat) : (s.keepOutcome origin ring seq st result).zeEngine e_ = s.zeEngine e_ := by obtain ⟨_, _, h_⟩ := State.keepOutcome_only s origin ring seq st result; rw [h_]; rfl
@[simp] theorem State.keepOutcome_mapOf (s : State) (origin ring : Nat) (seq : BitVec 32) (st result : Nat) (r_ : Nat) : (s.keepOutcome origin ring seq st result).mapOf r_ = s.mapOf r_ := by obtain ⟨_, _, h_⟩ := State.keepOutcome_only s origin ring seq st result; rw [h_]; rfl

/-- A completion changes the ring's place, the paired holding queue and the outcomes kept for other members (R341, R458). -/
theorem State.complete_only (s : State) (slot : Nat) (st : Status) (result : Nat) :
    ∃ cmdq_ evtq_ rings_ outcomes_ replies_, s.complete slot st result = { s with host := { s.host with cmdq := cmdq_, evtq := evtq_, rings := rings_ }, gath := { s.gath with outcomes := outcomes_, replies := replies_ } } := by
  unfold State.complete
  split
  · exact ⟨_, _, _, _, _, rfl⟩
  · dsimp only
    split
    · exact ⟨_, _, _, _, _, rfl⟩
    · split
      · exact ⟨_, _, _, _, _, rfl⟩
      · rename_i b _ _ _ _
        obtain ⟨_, _, h⟩ := State.postCompletion_only (s.modCmdQ slot fun q => { q with begun := none, lastDone := b.cmdSeq }) slot b.folio.tag
          (compBody st b.folio.opcode b.cmdSeq result) (bitOf b.folio.flags 1 || b.folio.urgent)
        rw [h]
        exact ⟨_, _, _, _, _, rfl⟩

@[simp] theorem State.complete_tb (s : State) (slot : Nat) (st : Status) (result : Nat) : (s.complete slot st result).tb = s.tb := by obtain ⟨_, _, _, _, _, h_⟩ := State.complete_only s slot st result; rw [h_]
@[simp] theorem State.complete_top (s : State) (slot : Nat) (st : Status) (result : Nat) : (s.complete slot st result).top = s.top := by obtain ⟨_, _, _, _, _, h_⟩ := State.complete_only s slot st result; rw [h_]
@[simp] theorem State.complete_host_stmq (s : State) (slot : Nat) (st : Status) (result : Nat) : (s.complete slot st result).host.stmq = s.host.stmq := by obtain ⟨_, _, _, _, _, h_⟩ := State.complete_only s slot st result; rw [h_]
@[simp] theorem State.complete_host_win (s : State) (slot : Nat) (st : Status) (result : Nat) : (s.complete slot st result).host.win = s.host.win := by obtain ⟨_, _, _, _, _, h_⟩ := State.complete_only s slot st result; rw [h_]
@[simp] theorem State.complete_host_irq (s : State) (slot : Nat) (st : Status) (result : Nat) : (s.complete slot st result).host.irq = s.host.irq := by obtain ⟨_, _, _, _, _, h_⟩ := State.complete_only s slot st result; rw [h_]
@[simp] theorem State.complete_host_msix (s : State) (slot : Nat) (st : Status) (result : Nat) : (s.complete slot st result).host.msix = s.host.msix := by obtain ⟨_, _, _, _, _, h_⟩ := State.complete_only s slot st result; rw [h_]
@[simp] theorem State.complete_host_chan (s : State) (slot : Nat) (st : Status) (result : Nat) : (s.complete slot st result).host.chan = s.host.chan := by obtain ⟨_, _, _, _, _, h_⟩ := State.complete_only s slot st result; rw [h_]
@[simp] theorem State.complete_host_bus (s : State) (slot : Nat) (st : Status) (result : Nat) : (s.complete slot st result).host.bus = s.host.bus := by obtain ⟨_, _, _, _, _, h_⟩ := State.complete_only s slot st result; rw [h_]
@[simp] theorem State.complete_host_fetchNo (s : State) (slot : Nat) (st : Status) (result : Nat) : (s.complete slot st result).host.fetchNo = s.host.fetchNo := by obtain ⟨_, _, _, _, _, h_⟩ := State.complete_only s slot st result; rw [h_]
@[simp] theorem State.complete_host_groupNo (s : State) (slot : Nat) (st : Status) (result : Nat) : (s.complete slot st result).host.groupNo = s.host.groupNo := by obtain ⟨_, _, _, _, _, h_⟩ := State.complete_only s slot st result; rw [h_]
@[simp] theorem State.complete_host_nextSession (s : State) (slot : Nat) (st : Status) (result : Nat) : (s.complete slot st result).host.nextSession = s.host.nextSession := by obtain ⟨_, _, _, _, _, h_⟩ := State.complete_only s slot st result; rw [h_]
@[simp] theorem State.complete_host_perst (s : State) (slot : Nat) (st : Status) (result : Nat) : (s.complete slot st result).host.perst = s.host.perst := by obtain ⟨_, _, _, _, _, h_⟩ := State.complete_only s slot st result; rw [h_]
@[simp] theorem State.complete_host_linkTraining (s : State) (slot : Nat) (st : Status) (result : Nat) : (s.complete slot st result).host.linkTraining = s.host.linkTraining := by obtain ⟨_, _, _, _, _, h_⟩ := State.complete_only s slot st result; rw [h_]
@[simp] theorem State.complete_host_rrNext (s : State) (slot : Nat) (st : Status) (result : Nat) : (s.complete slot st result).host.rrNext = s.host.rrNext := by obtain ⟨_, _, _, _, _, h_⟩ := State.complete_only s slot st result; rw [h_]
@[simp] theorem State.complete_host_rrUrgent (s : State) (slot : Nat) (st : Status) (result : Nat) : (s.complete slot st result).host.rrUrgent = s.host.rrUrgent := by obtain ⟨_, _, _, _, _, h_⟩ := State.complete_only s slot st result; rw [h_]
@[simp] theorem State.complete_net (s : State) (slot : Nat) (st : Status) (result : Nat) : (s.complete slot st result).net = s.net := by obtain ⟨_, _, _, _, _, h_⟩ := State.complete_only s slot st result; rw [h_]
@[simp] theorem State.complete_dec (s : State) (slot : Nat) (st : Status) (result : Nat) : (s.complete slot st result).dec = s.dec := by obtain ⟨_, _, _, _, _, h_⟩ := State.complete_only s slot st result; rw [h_]
@[simp] theorem State.complete_comp (s : State) (slot : Nat) (st : Status) (result : Nat) : (s.complete slot st result).comp = s.comp := by obtain ⟨_, _, _, _, _, h_⟩ := State.complete_only s slot st result; rw [h_]
@[simp] theorem State.complete_enc (s : State) (slot : Nat) (st : Status) (result : Nat) : (s.complete slot st result).enc = s.enc := by obtain ⟨_, _, _, _, _, h_⟩ := State.complete_only s slot st result; rw [h_]
@[simp] theorem State.complete_fab (s : State) (slot : Nat) (st : Status) (result : Nat) : (s.complete slot st result).fab = s.fab := by obtain ⟨_, _, _, _, _, h_⟩ := State.complete_only s slot st result; rw [h_]
@[simp] theorem State.complete_store (s : State) (slot : Nat) (st : Status) (result : Nat) : (s.complete slot st result).store = s.store := by obtain ⟨_, _, _, _, _, h_⟩ := State.complete_only s slot st result; rw [h_]
@[simp] theorem State.complete_sec (s : State) (slot : Nat) (st : Status) (result : Nat) : (s.complete slot st result).sec = s.sec := by obtain ⟨_, _, _, _, _, h_⟩ := State.complete_only s slot st result; rw [h_]
@[simp] theorem State.complete_mail (s : State) (slot : Nat) (st : Status) (result : Nat) : (s.complete slot st result).mail = s.mail := by obtain ⟨_, _, _, _, _, h_⟩ := State.complete_only s slot st result; rw [h_]
@[simp] theorem State.complete_gath_mem (s : State) (slot : Nat) (st : Status) (result : Nat) : (s.complete slot st result).gath.mem = s.gath.mem := by obtain ⟨_, _, _, _, _, h_⟩ := State.complete_only s slot st result; rw [h_]
@[simp] theorem State.complete_gath_lead (s : State) (slot : Nat) (st : Status) (result : Nat) : (s.complete slot st result).gath.lead = s.gath.lead := by obtain ⟨_, _, _, _, _, h_⟩ := State.complete_only s slot st result; rw [h_]
@[simp] theorem State.complete_gath_ring (s : State) (slot : Nat) (st : Status) (result : Nat) : (s.complete slot st result).gath.ring = s.gath.ring := by obtain ⟨_, _, _, _, _, h_⟩ := State.complete_only s slot st result; rw [h_]
@[simp] theorem State.complete_gath_link (s : State) (slot : Nat) (st : Status) (result : Nat) : (s.complete slot st result).gath.link = s.gath.link := by obtain ⟨_, _, _, _, _, h_⟩ := State.complete_only s slot st result; rw [h_]
@[simp] theorem State.complete_gath_relayOnly (s : State) (slot : Nat) (st : Status) (result : Nat) : (s.complete slot st result).gath.relayOnly = s.gath.relayOnly := by obtain ⟨_, _, _, _, _, h_⟩ := State.complete_only s slot st result; rw [h_]
@[simp] theorem State.complete_gath_sent (s : State) (slot : Nat) (st : Status) (result : Nat) : (s.complete slot st result).gath.sent = s.gath.sent := by obtain ⟨_, _, _, _, _, h_⟩ := State.complete_only s slot st result; rw [h_]
@[simp] theorem State.complete_gath_acks (s : State) (slot : Nat) (st : Status) (result : Nat) : (s.complete slot st result).gath.acks = s.gath.acks := by obtain ⟨_, _, _, _, _, h_⟩ := State.complete_only s slot st result; rw [h_]
@[simp] theorem State.complete_gath_rx (s : State) (slot : Nat) (st : Status) (result : Nat) : (s.complete slot st result).gath.rx = s.gath.rx := by obtain ⟨_, _, _, _, _, h_⟩ := State.complete_only s slot st result; rw [h_]
@[simp] theorem State.complete_gath_fwdEvents (s : State) (slot : Nat) (st : Status) (result : Nat) : (s.complete slot st result).gath.fwdEvents = s.gath.fwdEvents := by obtain ⟨_, _, _, _, _, h_⟩ := State.complete_only s slot st result; rw [h_]
@[simp] theorem State.complete_gath_resent (s : State) (slot : Nat) (st : Status) (result : Nat) : (s.complete slot st result).gath.resent = s.gath.resent := by obtain ⟨_, _, _, _, _, h_⟩ := State.complete_only s slot st result; rw [h_]
@[simp] theorem State.complete_gath_watch (s : State) (slot : Nat) (st : Status) (result : Nat) : (s.complete slot st result).gath.watch = s.gath.watch := by obtain ⟨_, _, _, _, _, h_⟩ := State.complete_only s slot st result; rw [h_]
@[simp] theorem State.complete_gath_evCount (s : State) (slot : Nat) (st : Status) (result : Nat) : (s.complete slot st result).gath.evCount = s.gath.evCount := by obtain ⟨_, _, _, _, _, h_⟩ := State.complete_only s slot st result; rw [h_]
@[simp] theorem State.complete_gath_fwdSent (s : State) (slot : Nat) (st : Status) (result : Nat) : (s.complete slot st result).gath.fwdSent = s.gath.fwdSent := by obtain ⟨_, _, _, _, _, h_⟩ := State.complete_only s slot st result; rw [h_]
@[simp] theorem State.complete_gath_frameNo (s : State) (slot : Nat) (st : Status) (result : Nat) : (s.complete slot st result).gath.frameNo = s.gath.frameNo := by obtain ⟨_, _, _, _, _, h_⟩ := State.complete_only s slot st result; rw [h_]
@[simp] theorem State.complete_gath_noPathSince (s : State) (slot : Nat) (st : Status) (result : Nat) : (s.complete slot st result).gath.noPathSince = s.gath.noPathSince := by obtain ⟨_, _, _, _, _, h_⟩ := State.complete_only s slot st result; rw [h_]
@[simp] theorem State.complete_twin (s : State) (slot : Nat) (st : Status) (result : Nat) : (s.complete slot st result).twin = s.twin := by obtain ⟨_, _, _, _, _, h_⟩ := State.complete_only s slot st result; rw [h_]
@[simp] theorem State.complete_desk (s : State) (slot : Nat) (st : Status) (result : Nat) : (s.complete slot st result).desk = s.desk := by obtain ⟨_, _, _, _, _, h_⟩ := State.complete_only s slot st result; rw [h_]
@[simp] theorem State.complete_pwr (s : State) (slot : Nat) (st : Status) (result : Nat) : (s.complete slot st result).pwr = s.pwr := by obtain ⟨_, _, _, _, _, h_⟩ := State.complete_only s slot st result; rw [h_]
@[simp] theorem State.complete_lanes (s : State) (slot : Nat) (st : Status) (result : Nat) : (s.complete slot st result).lanes = s.lanes := by obtain ⟨_, _, _, _, _, h_⟩ := State.complete_only s slot st result; rw [h_]
@[simp] theorem State.complete_flt (s : State) (slot : Nat) (st : Status) (result : Nat) : (s.complete slot st result).flt = s.flt := by obtain ⟨_, _, _, _, _, h_⟩ := State.complete_only s slot st result; rw [h_]
@[simp] theorem State.complete_svc (s : State) (slot : Nat) (st : Status) (result : Nat) : (s.complete slot st result).svc = s.svc := by obtain ⟨_, _, _, _, _, h_⟩ := State.complete_only s slot st result; rw [h_]
@[simp] theorem State.complete_jrn (s : State) (slot : Nat) (st : Status) (result : Nat) : (s.complete slot st result).jrn = s.jrn := by obtain ⟨_, _, _, _, _, h_⟩ := State.complete_only s slot st result; rw [h_]
@[simp] theorem State.complete_pending (s : State) (slot : Nat) (st : Status) (result : Nat) : (s.complete slot st result).pending = s.pending := by obtain ⟨_, _, _, _, _, h_⟩ := State.complete_only s slot st result; rw [h_]
@[simp] theorem State.complete_window (s : State) (slot : Nat) (st : Status) (result : Nat) (w_ : Nat) : (s.complete slot st result).window w_ = s.window w_ := by obtain ⟨_, _, _, _, _, h_⟩ := State.complete_only s slot st result; rw [h_]; rfl
@[simp] theorem State.complete_chan (s : State) (slot : Nat) (st : Status) (result : Nat) (c_ : Nat) : (s.complete slot st result).chan c_ = s.chan c_ := by obtain ⟨_, _, _, _, _, h_⟩ := State.complete_only s slot st result; rw [h_]; rfl
@[simp] theorem State.complete_ctx (s : State) (slot : Nat) (st : Status) (result : Nat) (c_ : Nat) : (s.complete slot st result).ctx c_ = s.ctx c_ := by obtain ⟨_, _, _, _, _, h_⟩ := State.complete_only s slot st result; rw [h_]; rfl
@[simp] theorem State.complete_engine (s : State) (slot : Nat) (st : Status) (result : Nat) (e_ : Nat) : (s.complete slot st result).engine e_ = s.engine e_ := by obtain ⟨_, _, _, _, _, h_⟩ := State.complete_only s slot st result; rw [h_]; rfl
@[simp] theorem State.complete_port (s : State) (slot : Nat) (st : Status) (result : Nat) (p_ : Nat) : (s.complete slot st result).port p_ = s.port p_ := by obtain ⟨_, _, _, _, _, h_⟩ := State.complete_only s slot st result; rw [h_]; rfl
@[simp] theorem State.complete_layer (s : State) (slot : Nat) (st : Status) (result : Nat) (i_ : Nat) : (s.complete slot st result).layer i_ = s.layer i_ := by obtain ⟨_, _, _, _, _, h_⟩ := State.complete_only s slot st result; rw [h_]; rfl
@[simp] theorem State.complete_head (s : State) (slot : Nat) (st : Status) (result : Nat) (h_ : Nat) : (s.complete slot st result).head h_ = s.head h_ := by obtain ⟨_, _, _, _, _, h_⟩ := State.complete_only s slot st result; rw [h_]; rfl
@[simp] theorem State.complete_dpPort (s : State) (slot : Nat) (st : Status) (result : Nat) (p_ : Nat) : (s.complete slot st result).dpPort p_ = s.dpPort p_ := by obtain ⟨_, _, _, _, _, h_⟩ := State.complete_only s slot st result; rw [h_]; rfl
@[simp] theorem State.complete_plate (s : State) (slot : Nat) (st : Status) (result : Nat) (h_ : Nat) : (s.complete slot st result).plate h_ = s.plate h_ := by obtain ⟨_, _, _, _, _, h_⟩ := State.complete_only s slot st result; rw [h_]; rfl
@[simp] theorem State.complete_session (s : State) (slot : Nat) (st : Status) (result : Nat) (i_ : Nat) : (s.complete slot st result).session i_ = s.session i_ := by obtain ⟨_, _, _, _, _, h_⟩ := State.complete_only s slot st result; rw [h_]; rfl
@[simp] theorem State.complete_encoder (s : State) (slot : Nat) (st : Status) (result : Nat) (e_ : Nat) : (s.complete slot st result).encoder e_ = s.encoder e_ := by obtain ⟨_, _, _, _, _, h_⟩ := State.complete_only s slot st result; rw [h_]; rfl
@[simp] theorem State.complete_island (s : State) (slot : Nat) (st : Status) (result : Nat) (i_ : Nat) : (s.complete slot st result).island i_ = s.island i_ := by obtain ⟨_, _, _, _, _, h_⟩ := State.complete_only s slot st result; rw [h_]; rfl
@[simp] theorem State.complete_dram (s : State) (slot : Nat) (st : Status) (result : Nat) (c_ : Nat) : (s.complete slot st result).dram c_ = s.dram c_ := by obtain ⟨_, _, _, _, _, h_⟩ := State.complete_only s slot st result; rw [h_]; rfl
@[simp] theorem State.complete_panel (s : State) (slot : Nat) (st : Status) (result : Nat) (t_ : Nat) : (s.complete slot st result).panel t_ = s.panel t_ := by obtain ⟨_, _, _, _, _, h_⟩ := State.complete_only s slot st result; rw [h_]; rfl
@[simp] theorem State.complete_input (s : State) (slot : Nat) (st : Status) (result : Nat) (i_ : Nat) : (s.complete slot st result).input i_ = s.input i_ := by obtain ⟨_, _, _, _, _, h_⟩ := State.complete_only s slot st result; rw [h_]; rfl
@[simp] theorem State.complete_output (s : State) (slot : Nat) (st : Status) (result : Nat) (o_ : Nat) : (s.complete slot st result).output o_ = s.output o_ := by obtain ⟨_, _, _, _, _, h_⟩ := State.complete_only s slot st result; rw [h_]; rfl
@[simp] theorem State.complete_quad (s : State) (slot : Nat) (st : Status) (result : Nat) (q_ : Nat) : (s.complete slot st result).quad q_ = s.quad q_ := by obtain ⟨_, _, _, _, _, h_⟩ := State.complete_only s slot st result; rw [h_]; rfl
@[simp] theorem State.complete_hostBox (s : State) (slot : Nat) (st : Status) (result : Nat) (n_ : Nat) : (s.complete slot st result).hostBox n_ = s.hostBox n_ := by obtain ⟨_, _, _, _, _, h_⟩ := State.complete_only s slot st result; rw [h_]; rfl
@[simp] theorem State.complete_farBox (s : State) (slot : Nat) (st : Status) (result : Nat) (m_ : Nat) : (s.complete slot st result).farBox m_ = s.farBox m_ := by obtain ⟨_, _, _, _, _, h_⟩ := State.complete_only s slot st result; rw [h_]; rfl
@[simp] theorem State.complete_member (s : State) (slot : Nat) (st : Status) (result : Nat) (m_ : Nat) : (s.complete slot st result).member m_ = s.member m_ := by obtain ⟨_, _, _, _, _, h_⟩ := State.complete_only s slot st result; rw [h_]; rfl
@[simp] theorem State.complete_spineLink (s : State) (slot : Nat) (st : Status) (result : Nat) (l_ : Nat) : (s.complete slot st result).spineLink l_ = s.spineLink l_ := by obtain ⟨_, _, _, _, _, h_⟩ := State.complete_only s slot st result; rw [h_]; rfl
@[simp] theorem State.complete_cvUnit (s : State) (slot : Nat) (st : Status) (result : Nat) (u_ : Nat) : (s.complete slot st result).cvUnit u_ = s.cvUnit u_ := by obtain ⟨_, _, _, _, _, h_⟩ := State.complete_only s slot st result; rw [h_]; rfl
@[simp] theorem State.complete_zeEngine (s : State) (slot : Nat) (st : Status) (result : Nat) (e_ : Nat) : (s.complete slot st result).zeEngine e_ = s.zeEngine e_ := by obtain ⟨_, _, _, _, _, h_⟩ := State.complete_only s slot st result; rw [h_]; rfl
@[simp] theorem State.complete_mapOf (s : State) (slot : Nat) (st : Status) (result : Nat) (r_ : Nat) : (s.complete slot st result).mapOf r_ = s.mapOf r_ := by obtain ⟨_, _, _, _, _, h_⟩ := State.complete_only s slot st result; rw [h_]; rfl

/-- A discarded group leaves the pending configuration (R238). -/
theorem State.dropStaged_only (s : State) (g : Nat) :
    ∃ pend_, s.dropStaged g = { s with comp := { s.comp with pend := pend_ } } := by
  exact ⟨_, rfl⟩

@[simp] theorem State.dropStaged_tb (s : State) (g : Nat) : (s.dropStaged g).tb = s.tb := by obtain ⟨_, h_⟩ := State.dropStaged_only s g; rw [h_]
@[simp] theorem State.dropStaged_top (s : State) (g : Nat) : (s.dropStaged g).top = s.top := by obtain ⟨_, h_⟩ := State.dropStaged_only s g; rw [h_]
@[simp] theorem State.dropStaged_host (s : State) (g : Nat) : (s.dropStaged g).host = s.host := by obtain ⟨_, h_⟩ := State.dropStaged_only s g; rw [h_]
@[simp] theorem State.dropStaged_net (s : State) (g : Nat) : (s.dropStaged g).net = s.net := by obtain ⟨_, h_⟩ := State.dropStaged_only s g; rw [h_]
@[simp] theorem State.dropStaged_dec (s : State) (g : Nat) : (s.dropStaged g).dec = s.dec := by obtain ⟨_, h_⟩ := State.dropStaged_only s g; rw [h_]
@[simp] theorem State.dropStaged_comp_layer (s : State) (g : Nat) : (s.dropStaged g).comp.layer = s.comp.layer := by obtain ⟨_, h_⟩ := State.dropStaged_only s g; rw [h_]
@[simp] theorem State.dropStaged_comp_matrix (s : State) (g : Nat) : (s.dropStaged g).comp.matrix = s.comp.matrix := by obtain ⟨_, h_⟩ := State.dropStaged_only s g; rw [h_]
@[simp] theorem State.dropStaged_comp_bank (s : State) (g : Nat) : (s.dropStaged g).comp.bank = s.comp.bank := by obtain ⟨_, h_⟩ := State.dropStaged_only s g; rw [h_]
@[simp] theorem State.dropStaged_comp_head (s : State) (g : Nat) : (s.dropStaged g).comp.head = s.comp.head := by obtain ⟨_, h_⟩ := State.dropStaged_only s g; rw [h_]
@[simp] theorem State.dropStaged_comp_port (s : State) (g : Nat) : (s.dropStaged g).comp.port = s.comp.port := by obtain ⟨_, h_⟩ := State.dropStaged_only s g; rw [h_]
@[simp] theorem State.dropStaged_comp_plate (s : State) (g : Nat) : (s.dropStaged g).comp.plate = s.comp.plate := by obtain ⟨_, h_⟩ := State.dropStaged_only s g; rw [h_]
@[simp] theorem State.dropStaged_comp_plateRead (s : State) (g : Nat) : (s.dropStaged g).comp.plateRead = s.comp.plateRead := by obtain ⟨_, h_⟩ := State.dropStaged_only s g; rw [h_]
@[simp] theorem State.dropStaged_comp_nonce (s : State) (g : Nat) : (s.dropStaged g).comp.nonce = s.comp.nonce := by obtain ⟨_, h_⟩ := State.dropStaged_only s g; rw [h_]
@[simp] theorem State.dropStaged_comp_pendNo (s : State) (g : Nat) : (s.dropStaged g).comp.pendNo = s.comp.pendNo := by obtain ⟨_, h_⟩ := State.dropStaged_only s g; rw [h_]
@[simp] theorem State.dropStaged_enc (s : State) (g : Nat) : (s.dropStaged g).enc = s.enc := by obtain ⟨_, h_⟩ := State.dropStaged_only s g; rw [h_]
@[simp] theorem State.dropStaged_fab (s : State) (g : Nat) : (s.dropStaged g).fab = s.fab := by obtain ⟨_, h_⟩ := State.dropStaged_only s g; rw [h_]
@[simp] theorem State.dropStaged_store (s : State) (g : Nat) : (s.dropStaged g).store = s.store := by obtain ⟨_, h_⟩ := State.dropStaged_only s g; rw [h_]
@[simp] theorem State.dropStaged_sec (s : State) (g : Nat) : (s.dropStaged g).sec = s.sec := by obtain ⟨_, h_⟩ := State.dropStaged_only s g; rw [h_]
@[simp] theorem State.dropStaged_mail (s : State) (g : Nat) : (s.dropStaged g).mail = s.mail := by obtain ⟨_, h_⟩ := State.dropStaged_only s g; rw [h_]
@[simp] theorem State.dropStaged_gath (s : State) (g : Nat) : (s.dropStaged g).gath = s.gath := by obtain ⟨_, h_⟩ := State.dropStaged_only s g; rw [h_]
@[simp] theorem State.dropStaged_twin (s : State) (g : Nat) : (s.dropStaged g).twin = s.twin := by obtain ⟨_, h_⟩ := State.dropStaged_only s g; rw [h_]
@[simp] theorem State.dropStaged_desk (s : State) (g : Nat) : (s.dropStaged g).desk = s.desk := by obtain ⟨_, h_⟩ := State.dropStaged_only s g; rw [h_]
@[simp] theorem State.dropStaged_pwr (s : State) (g : Nat) : (s.dropStaged g).pwr = s.pwr := by obtain ⟨_, h_⟩ := State.dropStaged_only s g; rw [h_]
@[simp] theorem State.dropStaged_lanes (s : State) (g : Nat) : (s.dropStaged g).lanes = s.lanes := by obtain ⟨_, h_⟩ := State.dropStaged_only s g; rw [h_]
@[simp] theorem State.dropStaged_flt (s : State) (g : Nat) : (s.dropStaged g).flt = s.flt := by obtain ⟨_, h_⟩ := State.dropStaged_only s g; rw [h_]
@[simp] theorem State.dropStaged_svc (s : State) (g : Nat) : (s.dropStaged g).svc = s.svc := by obtain ⟨_, h_⟩ := State.dropStaged_only s g; rw [h_]
@[simp] theorem State.dropStaged_jrn (s : State) (g : Nat) : (s.dropStaged g).jrn = s.jrn := by obtain ⟨_, h_⟩ := State.dropStaged_only s g; rw [h_]
@[simp] theorem State.dropStaged_pending (s : State) (g : Nat) : (s.dropStaged g).pending = s.pending := by obtain ⟨_, h_⟩ := State.dropStaged_only s g; rw [h_]
@[simp] theorem State.dropStaged_ring (s : State) (g : Nat) (r_ : Nat) : (s.dropStaged g).ring r_ = s.ring r_ := by obtain ⟨_, h_⟩ := State.dropStaged_only s g; rw [h_]; rfl
@[simp] theorem State.dropStaged_cmdQ (s : State) (g : Nat) (r_ : Nat) : (s.dropStaged g).cmdQ r_ = s.cmdQ r_ := by obtain ⟨_, h_⟩ := State.dropStaged_only s g; rw [h_]; rfl
@[simp] theorem State.dropStaged_evtQ (s : State) (g : Nat) (n_ : Nat) : (s.dropStaged g).evtQ n_ = s.evtQ n_ := by obtain ⟨_, h_⟩ := State.dropStaged_only s g; rw [h_]; rfl
@[simp] theorem State.dropStaged_window (s : State) (g : Nat) (w_ : Nat) : (s.dropStaged g).window w_ = s.window w_ := by obtain ⟨_, h_⟩ := State.dropStaged_only s g; rw [h_]; rfl
@[simp] theorem State.dropStaged_chan (s : State) (g : Nat) (c_ : Nat) : (s.dropStaged g).chan c_ = s.chan c_ := by obtain ⟨_, h_⟩ := State.dropStaged_only s g; rw [h_]; rfl
@[simp] theorem State.dropStaged_ctx (s : State) (g : Nat) (c_ : Nat) : (s.dropStaged g).ctx c_ = s.ctx c_ := by obtain ⟨_, h_⟩ := State.dropStaged_only s g; rw [h_]; rfl
@[simp] theorem State.dropStaged_engine (s : State) (g : Nat) (e_ : Nat) : (s.dropStaged g).engine e_ = s.engine e_ := by obtain ⟨_, h_⟩ := State.dropStaged_only s g; rw [h_]; rfl
@[simp] theorem State.dropStaged_port (s : State) (g : Nat) (p_ : Nat) : (s.dropStaged g).port p_ = s.port p_ := by obtain ⟨_, h_⟩ := State.dropStaged_only s g; rw [h_]; rfl
@[simp] theorem State.dropStaged_layer (s : State) (g : Nat) (i_ : Nat) : (s.dropStaged g).layer i_ = s.layer i_ := by obtain ⟨_, h_⟩ := State.dropStaged_only s g; rw [h_]; rfl
@[simp] theorem State.dropStaged_head (s : State) (g : Nat) (h_ : Nat) : (s.dropStaged g).head h_ = s.head h_ := by obtain ⟨_, h_⟩ := State.dropStaged_only s g; rw [h_]; rfl
@[simp] theorem State.dropStaged_dpPort (s : State) (g : Nat) (p_ : Nat) : (s.dropStaged g).dpPort p_ = s.dpPort p_ := by obtain ⟨_, h_⟩ := State.dropStaged_only s g; rw [h_]; rfl
@[simp] theorem State.dropStaged_plate (s : State) (g : Nat) (h_ : Nat) : (s.dropStaged g).plate h_ = s.plate h_ := by obtain ⟨_, h_⟩ := State.dropStaged_only s g; rw [h_]; rfl
@[simp] theorem State.dropStaged_session (s : State) (g : Nat) (i_ : Nat) : (s.dropStaged g).session i_ = s.session i_ := by obtain ⟨_, h_⟩ := State.dropStaged_only s g; rw [h_]; rfl
@[simp] theorem State.dropStaged_encoder (s : State) (g : Nat) (e_ : Nat) : (s.dropStaged g).encoder e_ = s.encoder e_ := by obtain ⟨_, h_⟩ := State.dropStaged_only s g; rw [h_]; rfl
@[simp] theorem State.dropStaged_island (s : State) (g : Nat) (i_ : Nat) : (s.dropStaged g).island i_ = s.island i_ := by obtain ⟨_, h_⟩ := State.dropStaged_only s g; rw [h_]; rfl
@[simp] theorem State.dropStaged_dram (s : State) (g : Nat) (c_ : Nat) : (s.dropStaged g).dram c_ = s.dram c_ := by obtain ⟨_, h_⟩ := State.dropStaged_only s g; rw [h_]; rfl
@[simp] theorem State.dropStaged_panel (s : State) (g : Nat) (t_ : Nat) : (s.dropStaged g).panel t_ = s.panel t_ := by obtain ⟨_, h_⟩ := State.dropStaged_only s g; rw [h_]; rfl
@[simp] theorem State.dropStaged_input (s : State) (g : Nat) (i_ : Nat) : (s.dropStaged g).input i_ = s.input i_ := by obtain ⟨_, h_⟩ := State.dropStaged_only s g; rw [h_]; rfl
@[simp] theorem State.dropStaged_output (s : State) (g : Nat) (o_ : Nat) : (s.dropStaged g).output o_ = s.output o_ := by obtain ⟨_, h_⟩ := State.dropStaged_only s g; rw [h_]; rfl
@[simp] theorem State.dropStaged_quad (s : State) (g : Nat) (q_ : Nat) : (s.dropStaged g).quad q_ = s.quad q_ := by obtain ⟨_, h_⟩ := State.dropStaged_only s g; rw [h_]; rfl
@[simp] theorem State.dropStaged_hostBox (s : State) (g : Nat) (n_ : Nat) : (s.dropStaged g).hostBox n_ = s.hostBox n_ := by obtain ⟨_, h_⟩ := State.dropStaged_only s g; rw [h_]; rfl
@[simp] theorem State.dropStaged_farBox (s : State) (g : Nat) (m_ : Nat) : (s.dropStaged g).farBox m_ = s.farBox m_ := by obtain ⟨_, h_⟩ := State.dropStaged_only s g; rw [h_]; rfl
@[simp] theorem State.dropStaged_member (s : State) (g : Nat) (m_ : Nat) : (s.dropStaged g).member m_ = s.member m_ := by obtain ⟨_, h_⟩ := State.dropStaged_only s g; rw [h_]; rfl
@[simp] theorem State.dropStaged_spineLink (s : State) (g : Nat) (l_ : Nat) : (s.dropStaged g).spineLink l_ = s.spineLink l_ := by obtain ⟨_, h_⟩ := State.dropStaged_only s g; rw [h_]; rfl
@[simp] theorem State.dropStaged_cvUnit (s : State) (g : Nat) (u_ : Nat) : (s.dropStaged g).cvUnit u_ = s.cvUnit u_ := by obtain ⟨_, h_⟩ := State.dropStaged_only s g; rw [h_]; rfl
@[simp] theorem State.dropStaged_zeEngine (s : State) (g : Nat) (e_ : Nat) : (s.dropStaged g).zeEngine e_ = s.zeEngine e_ := by obtain ⟨_, h_⟩ := State.dropStaged_only s g; rw [h_]; rfl
@[simp] theorem State.dropStaged_mapOf (s : State) (g : Nat) (r_ : Nat) : (s.dropStaged g).mapOf r_ = s.mapOf r_ := by obtain ⟨_, h_⟩ := State.dropStaged_only s g; rw [h_]; rfl

/-- A CMD ring that becomes DISABLED loses its open group (R238). -/
theorem State.disableCmd_only (s : State) (r : Nat) :
    ∃ cmdq_ rings_ pend_, s.disableCmd r = { s with host := { s.host with cmdq := cmdq_, rings := rings_ }, comp := { s.comp with pend := pend_ } } := by
  unfold State.disableCmd
  dsimp only
  split
  · exact ⟨_, _, _, rfl⟩
  · exact ⟨_, _, _, rfl⟩

@[simp] theorem State.disableCmd_tb (s : State) (r : Nat) : (s.disableCmd r).tb = s.tb := by obtain ⟨_, _, _, h_⟩ := State.disableCmd_only s r; rw [h_]
@[simp] theorem State.disableCmd_top (s : State) (r : Nat) : (s.disableCmd r).top = s.top := by obtain ⟨_, _, _, h_⟩ := State.disableCmd_only s r; rw [h_]
@[simp] theorem State.disableCmd_host_evtq (s : State) (r : Nat) : (s.disableCmd r).host.evtq = s.host.evtq := by obtain ⟨_, _, _, h_⟩ := State.disableCmd_only s r; rw [h_]
@[simp] theorem State.disableCmd_host_stmq (s : State) (r : Nat) : (s.disableCmd r).host.stmq = s.host.stmq := by obtain ⟨_, _, _, h_⟩ := State.disableCmd_only s r; rw [h_]
@[simp] theorem State.disableCmd_host_win (s : State) (r : Nat) : (s.disableCmd r).host.win = s.host.win := by obtain ⟨_, _, _, h_⟩ := State.disableCmd_only s r; rw [h_]
@[simp] theorem State.disableCmd_host_irq (s : State) (r : Nat) : (s.disableCmd r).host.irq = s.host.irq := by obtain ⟨_, _, _, h_⟩ := State.disableCmd_only s r; rw [h_]
@[simp] theorem State.disableCmd_host_msix (s : State) (r : Nat) : (s.disableCmd r).host.msix = s.host.msix := by obtain ⟨_, _, _, h_⟩ := State.disableCmd_only s r; rw [h_]
@[simp] theorem State.disableCmd_host_chan (s : State) (r : Nat) : (s.disableCmd r).host.chan = s.host.chan := by obtain ⟨_, _, _, h_⟩ := State.disableCmd_only s r; rw [h_]
@[simp] theorem State.disableCmd_host_bus (s : State) (r : Nat) : (s.disableCmd r).host.bus = s.host.bus := by obtain ⟨_, _, _, h_⟩ := State.disableCmd_only s r; rw [h_]
@[simp] theorem State.disableCmd_host_fetchNo (s : State) (r : Nat) : (s.disableCmd r).host.fetchNo = s.host.fetchNo := by obtain ⟨_, _, _, h_⟩ := State.disableCmd_only s r; rw [h_]
@[simp] theorem State.disableCmd_host_groupNo (s : State) (r : Nat) : (s.disableCmd r).host.groupNo = s.host.groupNo := by obtain ⟨_, _, _, h_⟩ := State.disableCmd_only s r; rw [h_]
@[simp] theorem State.disableCmd_host_nextSession (s : State) (r : Nat) : (s.disableCmd r).host.nextSession = s.host.nextSession := by obtain ⟨_, _, _, h_⟩ := State.disableCmd_only s r; rw [h_]
@[simp] theorem State.disableCmd_host_perst (s : State) (r : Nat) : (s.disableCmd r).host.perst = s.host.perst := by obtain ⟨_, _, _, h_⟩ := State.disableCmd_only s r; rw [h_]
@[simp] theorem State.disableCmd_host_linkTraining (s : State) (r : Nat) : (s.disableCmd r).host.linkTraining = s.host.linkTraining := by obtain ⟨_, _, _, h_⟩ := State.disableCmd_only s r; rw [h_]
@[simp] theorem State.disableCmd_host_rrNext (s : State) (r : Nat) : (s.disableCmd r).host.rrNext = s.host.rrNext := by obtain ⟨_, _, _, h_⟩ := State.disableCmd_only s r; rw [h_]
@[simp] theorem State.disableCmd_host_rrUrgent (s : State) (r : Nat) : (s.disableCmd r).host.rrUrgent = s.host.rrUrgent := by obtain ⟨_, _, _, h_⟩ := State.disableCmd_only s r; rw [h_]
@[simp] theorem State.disableCmd_net (s : State) (r : Nat) : (s.disableCmd r).net = s.net := by obtain ⟨_, _, _, h_⟩ := State.disableCmd_only s r; rw [h_]
@[simp] theorem State.disableCmd_dec (s : State) (r : Nat) : (s.disableCmd r).dec = s.dec := by obtain ⟨_, _, _, h_⟩ := State.disableCmd_only s r; rw [h_]
@[simp] theorem State.disableCmd_comp_layer (s : State) (r : Nat) : (s.disableCmd r).comp.layer = s.comp.layer := by obtain ⟨_, _, _, h_⟩ := State.disableCmd_only s r; rw [h_]
@[simp] theorem State.disableCmd_comp_matrix (s : State) (r : Nat) : (s.disableCmd r).comp.matrix = s.comp.matrix := by obtain ⟨_, _, _, h_⟩ := State.disableCmd_only s r; rw [h_]
@[simp] theorem State.disableCmd_comp_bank (s : State) (r : Nat) : (s.disableCmd r).comp.bank = s.comp.bank := by obtain ⟨_, _, _, h_⟩ := State.disableCmd_only s r; rw [h_]
@[simp] theorem State.disableCmd_comp_head (s : State) (r : Nat) : (s.disableCmd r).comp.head = s.comp.head := by obtain ⟨_, _, _, h_⟩ := State.disableCmd_only s r; rw [h_]
@[simp] theorem State.disableCmd_comp_port (s : State) (r : Nat) : (s.disableCmd r).comp.port = s.comp.port := by obtain ⟨_, _, _, h_⟩ := State.disableCmd_only s r; rw [h_]
@[simp] theorem State.disableCmd_comp_plate (s : State) (r : Nat) : (s.disableCmd r).comp.plate = s.comp.plate := by obtain ⟨_, _, _, h_⟩ := State.disableCmd_only s r; rw [h_]
@[simp] theorem State.disableCmd_comp_plateRead (s : State) (r : Nat) : (s.disableCmd r).comp.plateRead = s.comp.plateRead := by obtain ⟨_, _, _, h_⟩ := State.disableCmd_only s r; rw [h_]
@[simp] theorem State.disableCmd_comp_nonce (s : State) (r : Nat) : (s.disableCmd r).comp.nonce = s.comp.nonce := by obtain ⟨_, _, _, h_⟩ := State.disableCmd_only s r; rw [h_]
@[simp] theorem State.disableCmd_comp_pendNo (s : State) (r : Nat) : (s.disableCmd r).comp.pendNo = s.comp.pendNo := by obtain ⟨_, _, _, h_⟩ := State.disableCmd_only s r; rw [h_]
@[simp] theorem State.disableCmd_enc (s : State) (r : Nat) : (s.disableCmd r).enc = s.enc := by obtain ⟨_, _, _, h_⟩ := State.disableCmd_only s r; rw [h_]
@[simp] theorem State.disableCmd_fab (s : State) (r : Nat) : (s.disableCmd r).fab = s.fab := by obtain ⟨_, _, _, h_⟩ := State.disableCmd_only s r; rw [h_]
@[simp] theorem State.disableCmd_store (s : State) (r : Nat) : (s.disableCmd r).store = s.store := by obtain ⟨_, _, _, h_⟩ := State.disableCmd_only s r; rw [h_]
@[simp] theorem State.disableCmd_sec (s : State) (r : Nat) : (s.disableCmd r).sec = s.sec := by obtain ⟨_, _, _, h_⟩ := State.disableCmd_only s r; rw [h_]
@[simp] theorem State.disableCmd_mail (s : State) (r : Nat) : (s.disableCmd r).mail = s.mail := by obtain ⟨_, _, _, h_⟩ := State.disableCmd_only s r; rw [h_]
@[simp] theorem State.disableCmd_gath (s : State) (r : Nat) : (s.disableCmd r).gath = s.gath := by obtain ⟨_, _, _, h_⟩ := State.disableCmd_only s r; rw [h_]
@[simp] theorem State.disableCmd_twin (s : State) (r : Nat) : (s.disableCmd r).twin = s.twin := by obtain ⟨_, _, _, h_⟩ := State.disableCmd_only s r; rw [h_]
@[simp] theorem State.disableCmd_desk (s : State) (r : Nat) : (s.disableCmd r).desk = s.desk := by obtain ⟨_, _, _, h_⟩ := State.disableCmd_only s r; rw [h_]
@[simp] theorem State.disableCmd_pwr (s : State) (r : Nat) : (s.disableCmd r).pwr = s.pwr := by obtain ⟨_, _, _, h_⟩ := State.disableCmd_only s r; rw [h_]
@[simp] theorem State.disableCmd_lanes (s : State) (r : Nat) : (s.disableCmd r).lanes = s.lanes := by obtain ⟨_, _, _, h_⟩ := State.disableCmd_only s r; rw [h_]
@[simp] theorem State.disableCmd_flt (s : State) (r : Nat) : (s.disableCmd r).flt = s.flt := by obtain ⟨_, _, _, h_⟩ := State.disableCmd_only s r; rw [h_]
@[simp] theorem State.disableCmd_svc (s : State) (r : Nat) : (s.disableCmd r).svc = s.svc := by obtain ⟨_, _, _, h_⟩ := State.disableCmd_only s r; rw [h_]
@[simp] theorem State.disableCmd_jrn (s : State) (r : Nat) : (s.disableCmd r).jrn = s.jrn := by obtain ⟨_, _, _, h_⟩ := State.disableCmd_only s r; rw [h_]
@[simp] theorem State.disableCmd_pending (s : State) (r : Nat) : (s.disableCmd r).pending = s.pending := by obtain ⟨_, _, _, h_⟩ := State.disableCmd_only s r; rw [h_]
@[simp] theorem State.disableCmd_evtQ (s : State) (r : Nat) (n_ : Nat) : (s.disableCmd r).evtQ n_ = s.evtQ n_ := by obtain ⟨_, _, _, h_⟩ := State.disableCmd_only s r; rw [h_]; rfl
@[simp] theorem State.disableCmd_window (s : State) (r : Nat) (w_ : Nat) : (s.disableCmd r).window w_ = s.window w_ := by obtain ⟨_, _, _, h_⟩ := State.disableCmd_only s r; rw [h_]; rfl
@[simp] theorem State.disableCmd_chan (s : State) (r : Nat) (c_ : Nat) : (s.disableCmd r).chan c_ = s.chan c_ := by obtain ⟨_, _, _, h_⟩ := State.disableCmd_only s r; rw [h_]; rfl
@[simp] theorem State.disableCmd_ctx (s : State) (r : Nat) (c_ : Nat) : (s.disableCmd r).ctx c_ = s.ctx c_ := by obtain ⟨_, _, _, h_⟩ := State.disableCmd_only s r; rw [h_]; rfl
@[simp] theorem State.disableCmd_engine (s : State) (r : Nat) (e_ : Nat) : (s.disableCmd r).engine e_ = s.engine e_ := by obtain ⟨_, _, _, h_⟩ := State.disableCmd_only s r; rw [h_]; rfl
@[simp] theorem State.disableCmd_port (s : State) (r : Nat) (p_ : Nat) : (s.disableCmd r).port p_ = s.port p_ := by obtain ⟨_, _, _, h_⟩ := State.disableCmd_only s r; rw [h_]; rfl
@[simp] theorem State.disableCmd_layer (s : State) (r : Nat) (i_ : Nat) : (s.disableCmd r).layer i_ = s.layer i_ := by obtain ⟨_, _, _, h_⟩ := State.disableCmd_only s r; rw [h_]; rfl
@[simp] theorem State.disableCmd_head (s : State) (r : Nat) (h_ : Nat) : (s.disableCmd r).head h_ = s.head h_ := by obtain ⟨_, _, _, h_⟩ := State.disableCmd_only s r; rw [h_]; rfl
@[simp] theorem State.disableCmd_dpPort (s : State) (r : Nat) (p_ : Nat) : (s.disableCmd r).dpPort p_ = s.dpPort p_ := by obtain ⟨_, _, _, h_⟩ := State.disableCmd_only s r; rw [h_]; rfl
@[simp] theorem State.disableCmd_plate (s : State) (r : Nat) (h_ : Nat) : (s.disableCmd r).plate h_ = s.plate h_ := by obtain ⟨_, _, _, h_⟩ := State.disableCmd_only s r; rw [h_]; rfl
@[simp] theorem State.disableCmd_session (s : State) (r : Nat) (i_ : Nat) : (s.disableCmd r).session i_ = s.session i_ := by obtain ⟨_, _, _, h_⟩ := State.disableCmd_only s r; rw [h_]; rfl
@[simp] theorem State.disableCmd_encoder (s : State) (r : Nat) (e_ : Nat) : (s.disableCmd r).encoder e_ = s.encoder e_ := by obtain ⟨_, _, _, h_⟩ := State.disableCmd_only s r; rw [h_]; rfl
@[simp] theorem State.disableCmd_island (s : State) (r : Nat) (i_ : Nat) : (s.disableCmd r).island i_ = s.island i_ := by obtain ⟨_, _, _, h_⟩ := State.disableCmd_only s r; rw [h_]; rfl
@[simp] theorem State.disableCmd_dram (s : State) (r : Nat) (c_ : Nat) : (s.disableCmd r).dram c_ = s.dram c_ := by obtain ⟨_, _, _, h_⟩ := State.disableCmd_only s r; rw [h_]; rfl
@[simp] theorem State.disableCmd_panel (s : State) (r : Nat) (t_ : Nat) : (s.disableCmd r).panel t_ = s.panel t_ := by obtain ⟨_, _, _, h_⟩ := State.disableCmd_only s r; rw [h_]; rfl
@[simp] theorem State.disableCmd_input (s : State) (r : Nat) (i_ : Nat) : (s.disableCmd r).input i_ = s.input i_ := by obtain ⟨_, _, _, h_⟩ := State.disableCmd_only s r; rw [h_]; rfl
@[simp] theorem State.disableCmd_output (s : State) (r : Nat) (o_ : Nat) : (s.disableCmd r).output o_ = s.output o_ := by obtain ⟨_, _, _, h_⟩ := State.disableCmd_only s r; rw [h_]; rfl
@[simp] theorem State.disableCmd_quad (s : State) (r : Nat) (q_ : Nat) : (s.disableCmd r).quad q_ = s.quad q_ := by obtain ⟨_, _, _, h_⟩ := State.disableCmd_only s r; rw [h_]; rfl
@[simp] theorem State.disableCmd_hostBox (s : State) (r : Nat) (n_ : Nat) : (s.disableCmd r).hostBox n_ = s.hostBox n_ := by obtain ⟨_, _, _, h_⟩ := State.disableCmd_only s r; rw [h_]; rfl
@[simp] theorem State.disableCmd_farBox (s : State) (r : Nat) (m_ : Nat) : (s.disableCmd r).farBox m_ = s.farBox m_ := by obtain ⟨_, _, _, h_⟩ := State.disableCmd_only s r; rw [h_]; rfl
@[simp] theorem State.disableCmd_member (s : State) (r : Nat) (m_ : Nat) : (s.disableCmd r).member m_ = s.member m_ := by obtain ⟨_, _, _, h_⟩ := State.disableCmd_only s r; rw [h_]; rfl
@[simp] theorem State.disableCmd_spineLink (s : State) (r : Nat) (l_ : Nat) : (s.disableCmd r).spineLink l_ = s.spineLink l_ := by obtain ⟨_, _, _, h_⟩ := State.disableCmd_only s r; rw [h_]; rfl
@[simp] theorem State.disableCmd_cvUnit (s : State) (r : Nat) (u_ : Nat) : (s.disableCmd r).cvUnit u_ = s.cvUnit u_ := by obtain ⟨_, _, _, h_⟩ := State.disableCmd_only s r; rw [h_]; rfl
@[simp] theorem State.disableCmd_zeEngine (s : State) (r : Nat) (e_ : Nat) : (s.disableCmd r).zeEngine e_ = s.zeEngine e_ := by obtain ⟨_, _, _, h_⟩ := State.disableCmd_only s r; rw [h_]; rfl
@[simp] theorem State.disableCmd_mapOf (s : State) (r : Nat) (r_ : Nat) : (s.disableCmd r).mapOf r_ = s.mapOf r_ := by obtain ⟨_, _, _, h_⟩ := State.disableCmd_only s r; rw [h_]; rfl

/-- The same where the ring has drained (R328). -/
theorem State.drained_only (s : State) (r : Nat) :
    ∃ cmdq_ rings_ pend_, s.drained r = { s with host := { s.host with cmdq := cmdq_, rings := rings_ }, comp := { s.comp with pend := pend_ } } := by
  unfold State.drained
  split
  · exact State.disableCmd_only s r
  · exact ⟨_, _, _, rfl⟩

@[simp] theorem State.drained_tb (s : State) (r : Nat) : (s.drained r).tb = s.tb := by obtain ⟨_, _, _, h_⟩ := State.drained_only s r; rw [h_]
@[simp] theorem State.drained_top (s : State) (r : Nat) : (s.drained r).top = s.top := by obtain ⟨_, _, _, h_⟩ := State.drained_only s r; rw [h_]
@[simp] theorem State.drained_host_evtq (s : State) (r : Nat) : (s.drained r).host.evtq = s.host.evtq := by obtain ⟨_, _, _, h_⟩ := State.drained_only s r; rw [h_]
@[simp] theorem State.drained_host_stmq (s : State) (r : Nat) : (s.drained r).host.stmq = s.host.stmq := by obtain ⟨_, _, _, h_⟩ := State.drained_only s r; rw [h_]
@[simp] theorem State.drained_host_win (s : State) (r : Nat) : (s.drained r).host.win = s.host.win := by obtain ⟨_, _, _, h_⟩ := State.drained_only s r; rw [h_]
@[simp] theorem State.drained_host_irq (s : State) (r : Nat) : (s.drained r).host.irq = s.host.irq := by obtain ⟨_, _, _, h_⟩ := State.drained_only s r; rw [h_]
@[simp] theorem State.drained_host_msix (s : State) (r : Nat) : (s.drained r).host.msix = s.host.msix := by obtain ⟨_, _, _, h_⟩ := State.drained_only s r; rw [h_]
@[simp] theorem State.drained_host_chan (s : State) (r : Nat) : (s.drained r).host.chan = s.host.chan := by obtain ⟨_, _, _, h_⟩ := State.drained_only s r; rw [h_]
@[simp] theorem State.drained_host_bus (s : State) (r : Nat) : (s.drained r).host.bus = s.host.bus := by obtain ⟨_, _, _, h_⟩ := State.drained_only s r; rw [h_]
@[simp] theorem State.drained_host_fetchNo (s : State) (r : Nat) : (s.drained r).host.fetchNo = s.host.fetchNo := by obtain ⟨_, _, _, h_⟩ := State.drained_only s r; rw [h_]
@[simp] theorem State.drained_host_groupNo (s : State) (r : Nat) : (s.drained r).host.groupNo = s.host.groupNo := by obtain ⟨_, _, _, h_⟩ := State.drained_only s r; rw [h_]
@[simp] theorem State.drained_host_nextSession (s : State) (r : Nat) : (s.drained r).host.nextSession = s.host.nextSession := by obtain ⟨_, _, _, h_⟩ := State.drained_only s r; rw [h_]
@[simp] theorem State.drained_host_perst (s : State) (r : Nat) : (s.drained r).host.perst = s.host.perst := by obtain ⟨_, _, _, h_⟩ := State.drained_only s r; rw [h_]
@[simp] theorem State.drained_host_linkTraining (s : State) (r : Nat) : (s.drained r).host.linkTraining = s.host.linkTraining := by obtain ⟨_, _, _, h_⟩ := State.drained_only s r; rw [h_]
@[simp] theorem State.drained_host_rrNext (s : State) (r : Nat) : (s.drained r).host.rrNext = s.host.rrNext := by obtain ⟨_, _, _, h_⟩ := State.drained_only s r; rw [h_]
@[simp] theorem State.drained_host_rrUrgent (s : State) (r : Nat) : (s.drained r).host.rrUrgent = s.host.rrUrgent := by obtain ⟨_, _, _, h_⟩ := State.drained_only s r; rw [h_]
@[simp] theorem State.drained_net (s : State) (r : Nat) : (s.drained r).net = s.net := by obtain ⟨_, _, _, h_⟩ := State.drained_only s r; rw [h_]
@[simp] theorem State.drained_dec (s : State) (r : Nat) : (s.drained r).dec = s.dec := by obtain ⟨_, _, _, h_⟩ := State.drained_only s r; rw [h_]
@[simp] theorem State.drained_comp_layer (s : State) (r : Nat) : (s.drained r).comp.layer = s.comp.layer := by obtain ⟨_, _, _, h_⟩ := State.drained_only s r; rw [h_]
@[simp] theorem State.drained_comp_matrix (s : State) (r : Nat) : (s.drained r).comp.matrix = s.comp.matrix := by obtain ⟨_, _, _, h_⟩ := State.drained_only s r; rw [h_]
@[simp] theorem State.drained_comp_bank (s : State) (r : Nat) : (s.drained r).comp.bank = s.comp.bank := by obtain ⟨_, _, _, h_⟩ := State.drained_only s r; rw [h_]
@[simp] theorem State.drained_comp_head (s : State) (r : Nat) : (s.drained r).comp.head = s.comp.head := by obtain ⟨_, _, _, h_⟩ := State.drained_only s r; rw [h_]
@[simp] theorem State.drained_comp_port (s : State) (r : Nat) : (s.drained r).comp.port = s.comp.port := by obtain ⟨_, _, _, h_⟩ := State.drained_only s r; rw [h_]
@[simp] theorem State.drained_comp_plate (s : State) (r : Nat) : (s.drained r).comp.plate = s.comp.plate := by obtain ⟨_, _, _, h_⟩ := State.drained_only s r; rw [h_]
@[simp] theorem State.drained_comp_plateRead (s : State) (r : Nat) : (s.drained r).comp.plateRead = s.comp.plateRead := by obtain ⟨_, _, _, h_⟩ := State.drained_only s r; rw [h_]
@[simp] theorem State.drained_comp_nonce (s : State) (r : Nat) : (s.drained r).comp.nonce = s.comp.nonce := by obtain ⟨_, _, _, h_⟩ := State.drained_only s r; rw [h_]
@[simp] theorem State.drained_comp_pendNo (s : State) (r : Nat) : (s.drained r).comp.pendNo = s.comp.pendNo := by obtain ⟨_, _, _, h_⟩ := State.drained_only s r; rw [h_]
@[simp] theorem State.drained_enc (s : State) (r : Nat) : (s.drained r).enc = s.enc := by obtain ⟨_, _, _, h_⟩ := State.drained_only s r; rw [h_]
@[simp] theorem State.drained_fab (s : State) (r : Nat) : (s.drained r).fab = s.fab := by obtain ⟨_, _, _, h_⟩ := State.drained_only s r; rw [h_]
@[simp] theorem State.drained_store (s : State) (r : Nat) : (s.drained r).store = s.store := by obtain ⟨_, _, _, h_⟩ := State.drained_only s r; rw [h_]
@[simp] theorem State.drained_sec (s : State) (r : Nat) : (s.drained r).sec = s.sec := by obtain ⟨_, _, _, h_⟩ := State.drained_only s r; rw [h_]
@[simp] theorem State.drained_mail (s : State) (r : Nat) : (s.drained r).mail = s.mail := by obtain ⟨_, _, _, h_⟩ := State.drained_only s r; rw [h_]
@[simp] theorem State.drained_gath (s : State) (r : Nat) : (s.drained r).gath = s.gath := by obtain ⟨_, _, _, h_⟩ := State.drained_only s r; rw [h_]
@[simp] theorem State.drained_twin (s : State) (r : Nat) : (s.drained r).twin = s.twin := by obtain ⟨_, _, _, h_⟩ := State.drained_only s r; rw [h_]
@[simp] theorem State.drained_desk (s : State) (r : Nat) : (s.drained r).desk = s.desk := by obtain ⟨_, _, _, h_⟩ := State.drained_only s r; rw [h_]
@[simp] theorem State.drained_pwr (s : State) (r : Nat) : (s.drained r).pwr = s.pwr := by obtain ⟨_, _, _, h_⟩ := State.drained_only s r; rw [h_]
@[simp] theorem State.drained_lanes (s : State) (r : Nat) : (s.drained r).lanes = s.lanes := by obtain ⟨_, _, _, h_⟩ := State.drained_only s r; rw [h_]
@[simp] theorem State.drained_flt (s : State) (r : Nat) : (s.drained r).flt = s.flt := by obtain ⟨_, _, _, h_⟩ := State.drained_only s r; rw [h_]
@[simp] theorem State.drained_svc (s : State) (r : Nat) : (s.drained r).svc = s.svc := by obtain ⟨_, _, _, h_⟩ := State.drained_only s r; rw [h_]
@[simp] theorem State.drained_jrn (s : State) (r : Nat) : (s.drained r).jrn = s.jrn := by obtain ⟨_, _, _, h_⟩ := State.drained_only s r; rw [h_]
@[simp] theorem State.drained_pending (s : State) (r : Nat) : (s.drained r).pending = s.pending := by obtain ⟨_, _, _, h_⟩ := State.drained_only s r; rw [h_]
@[simp] theorem State.drained_evtQ (s : State) (r : Nat) (n_ : Nat) : (s.drained r).evtQ n_ = s.evtQ n_ := by obtain ⟨_, _, _, h_⟩ := State.drained_only s r; rw [h_]; rfl
@[simp] theorem State.drained_window (s : State) (r : Nat) (w_ : Nat) : (s.drained r).window w_ = s.window w_ := by obtain ⟨_, _, _, h_⟩ := State.drained_only s r; rw [h_]; rfl
@[simp] theorem State.drained_chan (s : State) (r : Nat) (c_ : Nat) : (s.drained r).chan c_ = s.chan c_ := by obtain ⟨_, _, _, h_⟩ := State.drained_only s r; rw [h_]; rfl
@[simp] theorem State.drained_ctx (s : State) (r : Nat) (c_ : Nat) : (s.drained r).ctx c_ = s.ctx c_ := by obtain ⟨_, _, _, h_⟩ := State.drained_only s r; rw [h_]; rfl
@[simp] theorem State.drained_engine (s : State) (r : Nat) (e_ : Nat) : (s.drained r).engine e_ = s.engine e_ := by obtain ⟨_, _, _, h_⟩ := State.drained_only s r; rw [h_]; rfl
@[simp] theorem State.drained_port (s : State) (r : Nat) (p_ : Nat) : (s.drained r).port p_ = s.port p_ := by obtain ⟨_, _, _, h_⟩ := State.drained_only s r; rw [h_]; rfl
@[simp] theorem State.drained_layer (s : State) (r : Nat) (i_ : Nat) : (s.drained r).layer i_ = s.layer i_ := by obtain ⟨_, _, _, h_⟩ := State.drained_only s r; rw [h_]; rfl
@[simp] theorem State.drained_head (s : State) (r : Nat) (h_ : Nat) : (s.drained r).head h_ = s.head h_ := by obtain ⟨_, _, _, h_⟩ := State.drained_only s r; rw [h_]; rfl
@[simp] theorem State.drained_dpPort (s : State) (r : Nat) (p_ : Nat) : (s.drained r).dpPort p_ = s.dpPort p_ := by obtain ⟨_, _, _, h_⟩ := State.drained_only s r; rw [h_]; rfl
@[simp] theorem State.drained_plate (s : State) (r : Nat) (h_ : Nat) : (s.drained r).plate h_ = s.plate h_ := by obtain ⟨_, _, _, h_⟩ := State.drained_only s r; rw [h_]; rfl
@[simp] theorem State.drained_session (s : State) (r : Nat) (i_ : Nat) : (s.drained r).session i_ = s.session i_ := by obtain ⟨_, _, _, h_⟩ := State.drained_only s r; rw [h_]; rfl
@[simp] theorem State.drained_encoder (s : State) (r : Nat) (e_ : Nat) : (s.drained r).encoder e_ = s.encoder e_ := by obtain ⟨_, _, _, h_⟩ := State.drained_only s r; rw [h_]; rfl
@[simp] theorem State.drained_island (s : State) (r : Nat) (i_ : Nat) : (s.drained r).island i_ = s.island i_ := by obtain ⟨_, _, _, h_⟩ := State.drained_only s r; rw [h_]; rfl
@[simp] theorem State.drained_dram (s : State) (r : Nat) (c_ : Nat) : (s.drained r).dram c_ = s.dram c_ := by obtain ⟨_, _, _, h_⟩ := State.drained_only s r; rw [h_]; rfl
@[simp] theorem State.drained_panel (s : State) (r : Nat) (t_ : Nat) : (s.drained r).panel t_ = s.panel t_ := by obtain ⟨_, _, _, h_⟩ := State.drained_only s r; rw [h_]; rfl
@[simp] theorem State.drained_input (s : State) (r : Nat) (i_ : Nat) : (s.drained r).input i_ = s.input i_ := by obtain ⟨_, _, _, h_⟩ := State.drained_only s r; rw [h_]; rfl
@[simp] theorem State.drained_output (s : State) (r : Nat) (o_ : Nat) : (s.drained r).output o_ = s.output o_ := by obtain ⟨_, _, _, h_⟩ := State.drained_only s r; rw [h_]; rfl
@[simp] theorem State.drained_quad (s : State) (r : Nat) (q_ : Nat) : (s.drained r).quad q_ = s.quad q_ := by obtain ⟨_, _, _, h_⟩ := State.drained_only s r; rw [h_]; rfl
@[simp] theorem State.drained_hostBox (s : State) (r : Nat) (n_ : Nat) : (s.drained r).hostBox n_ = s.hostBox n_ := by obtain ⟨_, _, _, h_⟩ := State.drained_only s r; rw [h_]; rfl
@[simp] theorem State.drained_farBox (s : State) (r : Nat) (m_ : Nat) : (s.drained r).farBox m_ = s.farBox m_ := by obtain ⟨_, _, _, h_⟩ := State.drained_only s r; rw [h_]; rfl
@[simp] theorem State.drained_member (s : State) (r : Nat) (m_ : Nat) : (s.drained r).member m_ = s.member m_ := by obtain ⟨_, _, _, h_⟩ := State.drained_only s r; rw [h_]; rfl
@[simp] theorem State.drained_spineLink (s : State) (r : Nat) (l_ : Nat) : (s.drained r).spineLink l_ = s.spineLink l_ := by obtain ⟨_, _, _, h_⟩ := State.drained_only s r; rw [h_]; rfl
@[simp] theorem State.drained_cvUnit (s : State) (r : Nat) (u_ : Nat) : (s.drained r).cvUnit u_ = s.cvUnit u_ := by obtain ⟨_, _, _, h_⟩ := State.drained_only s r; rw [h_]; rfl
@[simp] theorem State.drained_zeEngine (s : State) (r : Nat) (e_ : Nat) : (s.drained r).zeEngine e_ = s.zeEngine e_ := by obtain ⟨_, _, _, h_⟩ := State.drained_only s r; rw [h_]; rfl
@[simp] theorem State.drained_mapOf (s : State) (r : Nat) (r_ : Nat) : (s.drained r).mapOf r_ = s.mapOf r_ := by obtain ⟨_, _, _, h_⟩ := State.drained_only s r; rw [h_]; rfl

/-- SYNCs that complete change what completions change (R346). -/
theorem State.syncsFrom_only (s : State) (n : Nat) :
    ∃ cmdq_ evtq_ rings_ pend_ outcomes_ replies_, s.syncsFrom n = { s with host := { s.host with cmdq := cmdq_, evtq := evtq_, rings := rings_ }, comp := { s.comp with pend := pend_ }, gath := { s.gath with outcomes := outcomes_, replies := replies_ } } := by
  induction n generalizing s with
  | zero => exact ⟨_, _, _, _, _, _, rfl⟩
  | succ n ih =>
    unfold State.syncsFrom
    split
    · rename_i r _
      obtain ⟨_, _, _, _, _, h1⟩ := State.complete_only s r .ok 0
      obtain ⟨_, _, _, h2⟩ := State.drained_only (s.complete r .ok 0) r
      obtain ⟨_, _, _, _, _, _, h3⟩ := ih ((s.complete r .ok 0).drained r)
      rw [h3, h2, h1]
      exact ⟨_, _, _, _, _, _, rfl⟩
    · exact ⟨_, _, _, _, _, _, rfl⟩

@[simp] theorem State.syncsFrom_tb (s : State) (n : Nat) : (s.syncsFrom n).tb = s.tb := by obtain ⟨_, _, _, _, _, _, h_⟩ := State.syncsFrom_only s n; rw [h_]
@[simp] theorem State.syncsFrom_top (s : State) (n : Nat) : (s.syncsFrom n).top = s.top := by obtain ⟨_, _, _, _, _, _, h_⟩ := State.syncsFrom_only s n; rw [h_]
@[simp] theorem State.syncsFrom_host_stmq (s : State) (n : Nat) : (s.syncsFrom n).host.stmq = s.host.stmq := by obtain ⟨_, _, _, _, _, _, h_⟩ := State.syncsFrom_only s n; rw [h_]
@[simp] theorem State.syncsFrom_host_win (s : State) (n : Nat) : (s.syncsFrom n).host.win = s.host.win := by obtain ⟨_, _, _, _, _, _, h_⟩ := State.syncsFrom_only s n; rw [h_]
@[simp] theorem State.syncsFrom_host_irq (s : State) (n : Nat) : (s.syncsFrom n).host.irq = s.host.irq := by obtain ⟨_, _, _, _, _, _, h_⟩ := State.syncsFrom_only s n; rw [h_]
@[simp] theorem State.syncsFrom_host_msix (s : State) (n : Nat) : (s.syncsFrom n).host.msix = s.host.msix := by obtain ⟨_, _, _, _, _, _, h_⟩ := State.syncsFrom_only s n; rw [h_]
@[simp] theorem State.syncsFrom_host_chan (s : State) (n : Nat) : (s.syncsFrom n).host.chan = s.host.chan := by obtain ⟨_, _, _, _, _, _, h_⟩ := State.syncsFrom_only s n; rw [h_]
@[simp] theorem State.syncsFrom_host_bus (s : State) (n : Nat) : (s.syncsFrom n).host.bus = s.host.bus := by obtain ⟨_, _, _, _, _, _, h_⟩ := State.syncsFrom_only s n; rw [h_]
@[simp] theorem State.syncsFrom_host_fetchNo (s : State) (n : Nat) : (s.syncsFrom n).host.fetchNo = s.host.fetchNo := by obtain ⟨_, _, _, _, _, _, h_⟩ := State.syncsFrom_only s n; rw [h_]
@[simp] theorem State.syncsFrom_host_groupNo (s : State) (n : Nat) : (s.syncsFrom n).host.groupNo = s.host.groupNo := by obtain ⟨_, _, _, _, _, _, h_⟩ := State.syncsFrom_only s n; rw [h_]
@[simp] theorem State.syncsFrom_host_nextSession (s : State) (n : Nat) : (s.syncsFrom n).host.nextSession = s.host.nextSession := by obtain ⟨_, _, _, _, _, _, h_⟩ := State.syncsFrom_only s n; rw [h_]
@[simp] theorem State.syncsFrom_host_perst (s : State) (n : Nat) : (s.syncsFrom n).host.perst = s.host.perst := by obtain ⟨_, _, _, _, _, _, h_⟩ := State.syncsFrom_only s n; rw [h_]
@[simp] theorem State.syncsFrom_host_linkTraining (s : State) (n : Nat) : (s.syncsFrom n).host.linkTraining = s.host.linkTraining := by obtain ⟨_, _, _, _, _, _, h_⟩ := State.syncsFrom_only s n; rw [h_]
@[simp] theorem State.syncsFrom_host_rrNext (s : State) (n : Nat) : (s.syncsFrom n).host.rrNext = s.host.rrNext := by obtain ⟨_, _, _, _, _, _, h_⟩ := State.syncsFrom_only s n; rw [h_]
@[simp] theorem State.syncsFrom_host_rrUrgent (s : State) (n : Nat) : (s.syncsFrom n).host.rrUrgent = s.host.rrUrgent := by obtain ⟨_, _, _, _, _, _, h_⟩ := State.syncsFrom_only s n; rw [h_]
@[simp] theorem State.syncsFrom_net (s : State) (n : Nat) : (s.syncsFrom n).net = s.net := by obtain ⟨_, _, _, _, _, _, h_⟩ := State.syncsFrom_only s n; rw [h_]
@[simp] theorem State.syncsFrom_dec (s : State) (n : Nat) : (s.syncsFrom n).dec = s.dec := by obtain ⟨_, _, _, _, _, _, h_⟩ := State.syncsFrom_only s n; rw [h_]
@[simp] theorem State.syncsFrom_comp_layer (s : State) (n : Nat) : (s.syncsFrom n).comp.layer = s.comp.layer := by obtain ⟨_, _, _, _, _, _, h_⟩ := State.syncsFrom_only s n; rw [h_]
@[simp] theorem State.syncsFrom_comp_matrix (s : State) (n : Nat) : (s.syncsFrom n).comp.matrix = s.comp.matrix := by obtain ⟨_, _, _, _, _, _, h_⟩ := State.syncsFrom_only s n; rw [h_]
@[simp] theorem State.syncsFrom_comp_bank (s : State) (n : Nat) : (s.syncsFrom n).comp.bank = s.comp.bank := by obtain ⟨_, _, _, _, _, _, h_⟩ := State.syncsFrom_only s n; rw [h_]
@[simp] theorem State.syncsFrom_comp_head (s : State) (n : Nat) : (s.syncsFrom n).comp.head = s.comp.head := by obtain ⟨_, _, _, _, _, _, h_⟩ := State.syncsFrom_only s n; rw [h_]
@[simp] theorem State.syncsFrom_comp_port (s : State) (n : Nat) : (s.syncsFrom n).comp.port = s.comp.port := by obtain ⟨_, _, _, _, _, _, h_⟩ := State.syncsFrom_only s n; rw [h_]
@[simp] theorem State.syncsFrom_comp_plate (s : State) (n : Nat) : (s.syncsFrom n).comp.plate = s.comp.plate := by obtain ⟨_, _, _, _, _, _, h_⟩ := State.syncsFrom_only s n; rw [h_]
@[simp] theorem State.syncsFrom_comp_plateRead (s : State) (n : Nat) : (s.syncsFrom n).comp.plateRead = s.comp.plateRead := by obtain ⟨_, _, _, _, _, _, h_⟩ := State.syncsFrom_only s n; rw [h_]
@[simp] theorem State.syncsFrom_comp_nonce (s : State) (n : Nat) : (s.syncsFrom n).comp.nonce = s.comp.nonce := by obtain ⟨_, _, _, _, _, _, h_⟩ := State.syncsFrom_only s n; rw [h_]
@[simp] theorem State.syncsFrom_comp_pendNo (s : State) (n : Nat) : (s.syncsFrom n).comp.pendNo = s.comp.pendNo := by obtain ⟨_, _, _, _, _, _, h_⟩ := State.syncsFrom_only s n; rw [h_]
@[simp] theorem State.syncsFrom_enc (s : State) (n : Nat) : (s.syncsFrom n).enc = s.enc := by obtain ⟨_, _, _, _, _, _, h_⟩ := State.syncsFrom_only s n; rw [h_]
@[simp] theorem State.syncsFrom_fab (s : State) (n : Nat) : (s.syncsFrom n).fab = s.fab := by obtain ⟨_, _, _, _, _, _, h_⟩ := State.syncsFrom_only s n; rw [h_]
@[simp] theorem State.syncsFrom_store (s : State) (n : Nat) : (s.syncsFrom n).store = s.store := by obtain ⟨_, _, _, _, _, _, h_⟩ := State.syncsFrom_only s n; rw [h_]
@[simp] theorem State.syncsFrom_sec (s : State) (n : Nat) : (s.syncsFrom n).sec = s.sec := by obtain ⟨_, _, _, _, _, _, h_⟩ := State.syncsFrom_only s n; rw [h_]
@[simp] theorem State.syncsFrom_mail (s : State) (n : Nat) : (s.syncsFrom n).mail = s.mail := by obtain ⟨_, _, _, _, _, _, h_⟩ := State.syncsFrom_only s n; rw [h_]
@[simp] theorem State.syncsFrom_gath_mem (s : State) (n : Nat) : (s.syncsFrom n).gath.mem = s.gath.mem := by obtain ⟨_, _, _, _, _, _, h_⟩ := State.syncsFrom_only s n; rw [h_]
@[simp] theorem State.syncsFrom_gath_lead (s : State) (n : Nat) : (s.syncsFrom n).gath.lead = s.gath.lead := by obtain ⟨_, _, _, _, _, _, h_⟩ := State.syncsFrom_only s n; rw [h_]
@[simp] theorem State.syncsFrom_gath_ring (s : State) (n : Nat) : (s.syncsFrom n).gath.ring = s.gath.ring := by obtain ⟨_, _, _, _, _, _, h_⟩ := State.syncsFrom_only s n; rw [h_]
@[simp] theorem State.syncsFrom_gath_link (s : State) (n : Nat) : (s.syncsFrom n).gath.link = s.gath.link := by obtain ⟨_, _, _, _, _, _, h_⟩ := State.syncsFrom_only s n; rw [h_]
@[simp] theorem State.syncsFrom_gath_relayOnly (s : State) (n : Nat) : (s.syncsFrom n).gath.relayOnly = s.gath.relayOnly := by obtain ⟨_, _, _, _, _, _, h_⟩ := State.syncsFrom_only s n; rw [h_]
@[simp] theorem State.syncsFrom_gath_sent (s : State) (n : Nat) : (s.syncsFrom n).gath.sent = s.gath.sent := by obtain ⟨_, _, _, _, _, _, h_⟩ := State.syncsFrom_only s n; rw [h_]
@[simp] theorem State.syncsFrom_gath_acks (s : State) (n : Nat) : (s.syncsFrom n).gath.acks = s.gath.acks := by obtain ⟨_, _, _, _, _, _, h_⟩ := State.syncsFrom_only s n; rw [h_]
@[simp] theorem State.syncsFrom_gath_rx (s : State) (n : Nat) : (s.syncsFrom n).gath.rx = s.gath.rx := by obtain ⟨_, _, _, _, _, _, h_⟩ := State.syncsFrom_only s n; rw [h_]
@[simp] theorem State.syncsFrom_gath_fwdEvents (s : State) (n : Nat) : (s.syncsFrom n).gath.fwdEvents = s.gath.fwdEvents := by obtain ⟨_, _, _, _, _, _, h_⟩ := State.syncsFrom_only s n; rw [h_]
@[simp] theorem State.syncsFrom_gath_resent (s : State) (n : Nat) : (s.syncsFrom n).gath.resent = s.gath.resent := by obtain ⟨_, _, _, _, _, _, h_⟩ := State.syncsFrom_only s n; rw [h_]
@[simp] theorem State.syncsFrom_gath_watch (s : State) (n : Nat) : (s.syncsFrom n).gath.watch = s.gath.watch := by obtain ⟨_, _, _, _, _, _, h_⟩ := State.syncsFrom_only s n; rw [h_]
@[simp] theorem State.syncsFrom_gath_evCount (s : State) (n : Nat) : (s.syncsFrom n).gath.evCount = s.gath.evCount := by obtain ⟨_, _, _, _, _, _, h_⟩ := State.syncsFrom_only s n; rw [h_]
@[simp] theorem State.syncsFrom_gath_fwdSent (s : State) (n : Nat) : (s.syncsFrom n).gath.fwdSent = s.gath.fwdSent := by obtain ⟨_, _, _, _, _, _, h_⟩ := State.syncsFrom_only s n; rw [h_]
@[simp] theorem State.syncsFrom_gath_frameNo (s : State) (n : Nat) : (s.syncsFrom n).gath.frameNo = s.gath.frameNo := by obtain ⟨_, _, _, _, _, _, h_⟩ := State.syncsFrom_only s n; rw [h_]
@[simp] theorem State.syncsFrom_gath_noPathSince (s : State) (n : Nat) : (s.syncsFrom n).gath.noPathSince = s.gath.noPathSince := by obtain ⟨_, _, _, _, _, _, h_⟩ := State.syncsFrom_only s n; rw [h_]
@[simp] theorem State.syncsFrom_twin (s : State) (n : Nat) : (s.syncsFrom n).twin = s.twin := by obtain ⟨_, _, _, _, _, _, h_⟩ := State.syncsFrom_only s n; rw [h_]
@[simp] theorem State.syncsFrom_desk (s : State) (n : Nat) : (s.syncsFrom n).desk = s.desk := by obtain ⟨_, _, _, _, _, _, h_⟩ := State.syncsFrom_only s n; rw [h_]
@[simp] theorem State.syncsFrom_pwr (s : State) (n : Nat) : (s.syncsFrom n).pwr = s.pwr := by obtain ⟨_, _, _, _, _, _, h_⟩ := State.syncsFrom_only s n; rw [h_]
@[simp] theorem State.syncsFrom_lanes (s : State) (n : Nat) : (s.syncsFrom n).lanes = s.lanes := by obtain ⟨_, _, _, _, _, _, h_⟩ := State.syncsFrom_only s n; rw [h_]
@[simp] theorem State.syncsFrom_flt (s : State) (n : Nat) : (s.syncsFrom n).flt = s.flt := by obtain ⟨_, _, _, _, _, _, h_⟩ := State.syncsFrom_only s n; rw [h_]
@[simp] theorem State.syncsFrom_svc (s : State) (n : Nat) : (s.syncsFrom n).svc = s.svc := by obtain ⟨_, _, _, _, _, _, h_⟩ := State.syncsFrom_only s n; rw [h_]
@[simp] theorem State.syncsFrom_jrn (s : State) (n : Nat) : (s.syncsFrom n).jrn = s.jrn := by obtain ⟨_, _, _, _, _, _, h_⟩ := State.syncsFrom_only s n; rw [h_]
@[simp] theorem State.syncsFrom_pending (s : State) (n : Nat) : (s.syncsFrom n).pending = s.pending := by obtain ⟨_, _, _, _, _, _, h_⟩ := State.syncsFrom_only s n; rw [h_]
@[simp] theorem State.syncsFrom_window (s : State) (n : Nat) (w_ : Nat) : (s.syncsFrom n).window w_ = s.window w_ := by obtain ⟨_, _, _, _, _, _, h_⟩ := State.syncsFrom_only s n; rw [h_]; rfl
@[simp] theorem State.syncsFrom_chan (s : State) (n : Nat) (c_ : Nat) : (s.syncsFrom n).chan c_ = s.chan c_ := by obtain ⟨_, _, _, _, _, _, h_⟩ := State.syncsFrom_only s n; rw [h_]; rfl
@[simp] theorem State.syncsFrom_ctx (s : State) (n : Nat) (c_ : Nat) : (s.syncsFrom n).ctx c_ = s.ctx c_ := by obtain ⟨_, _, _, _, _, _, h_⟩ := State.syncsFrom_only s n; rw [h_]; rfl
@[simp] theorem State.syncsFrom_engine (s : State) (n : Nat) (e_ : Nat) : (s.syncsFrom n).engine e_ = s.engine e_ := by obtain ⟨_, _, _, _, _, _, h_⟩ := State.syncsFrom_only s n; rw [h_]; rfl
@[simp] theorem State.syncsFrom_port (s : State) (n : Nat) (p_ : Nat) : (s.syncsFrom n).port p_ = s.port p_ := by obtain ⟨_, _, _, _, _, _, h_⟩ := State.syncsFrom_only s n; rw [h_]; rfl
@[simp] theorem State.syncsFrom_layer (s : State) (n : Nat) (i_ : Nat) : (s.syncsFrom n).layer i_ = s.layer i_ := by obtain ⟨_, _, _, _, _, _, h_⟩ := State.syncsFrom_only s n; rw [h_]; rfl
@[simp] theorem State.syncsFrom_head (s : State) (n : Nat) (h_ : Nat) : (s.syncsFrom n).head h_ = s.head h_ := by obtain ⟨_, _, _, _, _, _, h_⟩ := State.syncsFrom_only s n; rw [h_]; rfl
@[simp] theorem State.syncsFrom_dpPort (s : State) (n : Nat) (p_ : Nat) : (s.syncsFrom n).dpPort p_ = s.dpPort p_ := by obtain ⟨_, _, _, _, _, _, h_⟩ := State.syncsFrom_only s n; rw [h_]; rfl
@[simp] theorem State.syncsFrom_plate (s : State) (n : Nat) (h_ : Nat) : (s.syncsFrom n).plate h_ = s.plate h_ := by obtain ⟨_, _, _, _, _, _, h_⟩ := State.syncsFrom_only s n; rw [h_]; rfl
@[simp] theorem State.syncsFrom_session (s : State) (n : Nat) (i_ : Nat) : (s.syncsFrom n).session i_ = s.session i_ := by obtain ⟨_, _, _, _, _, _, h_⟩ := State.syncsFrom_only s n; rw [h_]; rfl
@[simp] theorem State.syncsFrom_encoder (s : State) (n : Nat) (e_ : Nat) : (s.syncsFrom n).encoder e_ = s.encoder e_ := by obtain ⟨_, _, _, _, _, _, h_⟩ := State.syncsFrom_only s n; rw [h_]; rfl
@[simp] theorem State.syncsFrom_island (s : State) (n : Nat) (i_ : Nat) : (s.syncsFrom n).island i_ = s.island i_ := by obtain ⟨_, _, _, _, _, _, h_⟩ := State.syncsFrom_only s n; rw [h_]; rfl
@[simp] theorem State.syncsFrom_dram (s : State) (n : Nat) (c_ : Nat) : (s.syncsFrom n).dram c_ = s.dram c_ := by obtain ⟨_, _, _, _, _, _, h_⟩ := State.syncsFrom_only s n; rw [h_]; rfl
@[simp] theorem State.syncsFrom_panel (s : State) (n : Nat) (t_ : Nat) : (s.syncsFrom n).panel t_ = s.panel t_ := by obtain ⟨_, _, _, _, _, _, h_⟩ := State.syncsFrom_only s n; rw [h_]; rfl
@[simp] theorem State.syncsFrom_input (s : State) (n : Nat) (i_ : Nat) : (s.syncsFrom n).input i_ = s.input i_ := by obtain ⟨_, _, _, _, _, _, h_⟩ := State.syncsFrom_only s n; rw [h_]; rfl
@[simp] theorem State.syncsFrom_output (s : State) (n : Nat) (o_ : Nat) : (s.syncsFrom n).output o_ = s.output o_ := by obtain ⟨_, _, _, _, _, _, h_⟩ := State.syncsFrom_only s n; rw [h_]; rfl
@[simp] theorem State.syncsFrom_quad (s : State) (n : Nat) (q_ : Nat) : (s.syncsFrom n).quad q_ = s.quad q_ := by obtain ⟨_, _, _, _, _, _, h_⟩ := State.syncsFrom_only s n; rw [h_]; rfl
@[simp] theorem State.syncsFrom_hostBox (s : State) (n : Nat) (n_ : Nat) : (s.syncsFrom n).hostBox n_ = s.hostBox n_ := by obtain ⟨_, _, _, _, _, _, h_⟩ := State.syncsFrom_only s n; rw [h_]; rfl
@[simp] theorem State.syncsFrom_farBox (s : State) (n : Nat) (m_ : Nat) : (s.syncsFrom n).farBox m_ = s.farBox m_ := by obtain ⟨_, _, _, _, _, _, h_⟩ := State.syncsFrom_only s n; rw [h_]; rfl
@[simp] theorem State.syncsFrom_member (s : State) (n : Nat) (m_ : Nat) : (s.syncsFrom n).member m_ = s.member m_ := by obtain ⟨_, _, _, _, _, _, h_⟩ := State.syncsFrom_only s n; rw [h_]; rfl
@[simp] theorem State.syncsFrom_spineLink (s : State) (n : Nat) (l_ : Nat) : (s.syncsFrom n).spineLink l_ = s.spineLink l_ := by obtain ⟨_, _, _, _, _, _, h_⟩ := State.syncsFrom_only s n; rw [h_]; rfl
@[simp] theorem State.syncsFrom_cvUnit (s : State) (n : Nat) (u_ : Nat) : (s.syncsFrom n).cvUnit u_ = s.cvUnit u_ := by obtain ⟨_, _, _, _, _, _, h_⟩ := State.syncsFrom_only s n; rw [h_]; rfl
@[simp] theorem State.syncsFrom_zeEngine (s : State) (n : Nat) (e_ : Nat) : (s.syncsFrom n).zeEngine e_ = s.zeEngine e_ := by obtain ⟨_, _, _, _, _, _, h_⟩ := State.syncsFrom_only s n; rw [h_]; rfl
@[simp] theorem State.syncsFrom_mapOf (s : State) (n : Nat) (r_ : Nat) : (s.syncsFrom n).mapOf r_ = s.mapOf r_ := by obtain ⟨_, _, _, _, _, _, h_⟩ := State.syncsFrom_only s n; rw [h_]; rfl

/-- The same for all that may complete. -/
theorem State.releaseSyncs_only (s : State) :
    ∃ cmdq_ evtq_ rings_ pend_ outcomes_ replies_, s.releaseSyncs = { s with host := { s.host with cmdq := cmdq_, evtq := evtq_, rings := rings_ }, comp := { s.comp with pend := pend_ }, gath := { s.gath with outcomes := outcomes_, replies := replies_ } } := by
  exact State.syncsFrom_only s 48

@[simp] theorem State.releaseSyncs_tb (s : State) : (s.releaseSyncs).tb = s.tb := by obtain ⟨_, _, _, _, _, _, h_⟩ := State.releaseSyncs_only s ; rw [h_]
@[simp] theorem State.releaseSyncs_top (s : State) : (s.releaseSyncs).top = s.top := by obtain ⟨_, _, _, _, _, _, h_⟩ := State.releaseSyncs_only s ; rw [h_]
@[simp] theorem State.releaseSyncs_host_stmq (s : State) : (s.releaseSyncs).host.stmq = s.host.stmq := by obtain ⟨_, _, _, _, _, _, h_⟩ := State.releaseSyncs_only s ; rw [h_]
@[simp] theorem State.releaseSyncs_host_win (s : State) : (s.releaseSyncs).host.win = s.host.win := by obtain ⟨_, _, _, _, _, _, h_⟩ := State.releaseSyncs_only s ; rw [h_]
@[simp] theorem State.releaseSyncs_host_irq (s : State) : (s.releaseSyncs).host.irq = s.host.irq := by obtain ⟨_, _, _, _, _, _, h_⟩ := State.releaseSyncs_only s ; rw [h_]
@[simp] theorem State.releaseSyncs_host_msix (s : State) : (s.releaseSyncs).host.msix = s.host.msix := by obtain ⟨_, _, _, _, _, _, h_⟩ := State.releaseSyncs_only s ; rw [h_]
@[simp] theorem State.releaseSyncs_host_chan (s : State) : (s.releaseSyncs).host.chan = s.host.chan := by obtain ⟨_, _, _, _, _, _, h_⟩ := State.releaseSyncs_only s ; rw [h_]
@[simp] theorem State.releaseSyncs_host_bus (s : State) : (s.releaseSyncs).host.bus = s.host.bus := by obtain ⟨_, _, _, _, _, _, h_⟩ := State.releaseSyncs_only s ; rw [h_]
@[simp] theorem State.releaseSyncs_host_fetchNo (s : State) : (s.releaseSyncs).host.fetchNo = s.host.fetchNo := by obtain ⟨_, _, _, _, _, _, h_⟩ := State.releaseSyncs_only s ; rw [h_]
@[simp] theorem State.releaseSyncs_host_groupNo (s : State) : (s.releaseSyncs).host.groupNo = s.host.groupNo := by obtain ⟨_, _, _, _, _, _, h_⟩ := State.releaseSyncs_only s ; rw [h_]
@[simp] theorem State.releaseSyncs_host_nextSession (s : State) : (s.releaseSyncs).host.nextSession = s.host.nextSession := by obtain ⟨_, _, _, _, _, _, h_⟩ := State.releaseSyncs_only s ; rw [h_]
@[simp] theorem State.releaseSyncs_host_perst (s : State) : (s.releaseSyncs).host.perst = s.host.perst := by obtain ⟨_, _, _, _, _, _, h_⟩ := State.releaseSyncs_only s ; rw [h_]
@[simp] theorem State.releaseSyncs_host_linkTraining (s : State) : (s.releaseSyncs).host.linkTraining = s.host.linkTraining := by obtain ⟨_, _, _, _, _, _, h_⟩ := State.releaseSyncs_only s ; rw [h_]
@[simp] theorem State.releaseSyncs_host_rrNext (s : State) : (s.releaseSyncs).host.rrNext = s.host.rrNext := by obtain ⟨_, _, _, _, _, _, h_⟩ := State.releaseSyncs_only s ; rw [h_]
@[simp] theorem State.releaseSyncs_host_rrUrgent (s : State) : (s.releaseSyncs).host.rrUrgent = s.host.rrUrgent := by obtain ⟨_, _, _, _, _, _, h_⟩ := State.releaseSyncs_only s ; rw [h_]
@[simp] theorem State.releaseSyncs_net (s : State) : (s.releaseSyncs).net = s.net := by obtain ⟨_, _, _, _, _, _, h_⟩ := State.releaseSyncs_only s ; rw [h_]
@[simp] theorem State.releaseSyncs_dec (s : State) : (s.releaseSyncs).dec = s.dec := by obtain ⟨_, _, _, _, _, _, h_⟩ := State.releaseSyncs_only s ; rw [h_]
@[simp] theorem State.releaseSyncs_comp_layer (s : State) : (s.releaseSyncs).comp.layer = s.comp.layer := by obtain ⟨_, _, _, _, _, _, h_⟩ := State.releaseSyncs_only s ; rw [h_]
@[simp] theorem State.releaseSyncs_comp_matrix (s : State) : (s.releaseSyncs).comp.matrix = s.comp.matrix := by obtain ⟨_, _, _, _, _, _, h_⟩ := State.releaseSyncs_only s ; rw [h_]
@[simp] theorem State.releaseSyncs_comp_bank (s : State) : (s.releaseSyncs).comp.bank = s.comp.bank := by obtain ⟨_, _, _, _, _, _, h_⟩ := State.releaseSyncs_only s ; rw [h_]
@[simp] theorem State.releaseSyncs_comp_head (s : State) : (s.releaseSyncs).comp.head = s.comp.head := by obtain ⟨_, _, _, _, _, _, h_⟩ := State.releaseSyncs_only s ; rw [h_]
@[simp] theorem State.releaseSyncs_comp_port (s : State) : (s.releaseSyncs).comp.port = s.comp.port := by obtain ⟨_, _, _, _, _, _, h_⟩ := State.releaseSyncs_only s ; rw [h_]
@[simp] theorem State.releaseSyncs_comp_plate (s : State) : (s.releaseSyncs).comp.plate = s.comp.plate := by obtain ⟨_, _, _, _, _, _, h_⟩ := State.releaseSyncs_only s ; rw [h_]
@[simp] theorem State.releaseSyncs_comp_plateRead (s : State) : (s.releaseSyncs).comp.plateRead = s.comp.plateRead := by obtain ⟨_, _, _, _, _, _, h_⟩ := State.releaseSyncs_only s ; rw [h_]
@[simp] theorem State.releaseSyncs_comp_nonce (s : State) : (s.releaseSyncs).comp.nonce = s.comp.nonce := by obtain ⟨_, _, _, _, _, _, h_⟩ := State.releaseSyncs_only s ; rw [h_]
@[simp] theorem State.releaseSyncs_comp_pendNo (s : State) : (s.releaseSyncs).comp.pendNo = s.comp.pendNo := by obtain ⟨_, _, _, _, _, _, h_⟩ := State.releaseSyncs_only s ; rw [h_]
@[simp] theorem State.releaseSyncs_enc (s : State) : (s.releaseSyncs).enc = s.enc := by obtain ⟨_, _, _, _, _, _, h_⟩ := State.releaseSyncs_only s ; rw [h_]
@[simp] theorem State.releaseSyncs_fab (s : State) : (s.releaseSyncs).fab = s.fab := by obtain ⟨_, _, _, _, _, _, h_⟩ := State.releaseSyncs_only s ; rw [h_]
@[simp] theorem State.releaseSyncs_store (s : State) : (s.releaseSyncs).store = s.store := by obtain ⟨_, _, _, _, _, _, h_⟩ := State.releaseSyncs_only s ; rw [h_]
@[simp] theorem State.releaseSyncs_sec (s : State) : (s.releaseSyncs).sec = s.sec := by obtain ⟨_, _, _, _, _, _, h_⟩ := State.releaseSyncs_only s ; rw [h_]
@[simp] theorem State.releaseSyncs_mail (s : State) : (s.releaseSyncs).mail = s.mail := by obtain ⟨_, _, _, _, _, _, h_⟩ := State.releaseSyncs_only s ; rw [h_]
@[simp] theorem State.releaseSyncs_gath_mem (s : State) : (s.releaseSyncs).gath.mem = s.gath.mem := by obtain ⟨_, _, _, _, _, _, h_⟩ := State.releaseSyncs_only s ; rw [h_]
@[simp] theorem State.releaseSyncs_gath_lead (s : State) : (s.releaseSyncs).gath.lead = s.gath.lead := by obtain ⟨_, _, _, _, _, _, h_⟩ := State.releaseSyncs_only s ; rw [h_]
@[simp] theorem State.releaseSyncs_gath_ring (s : State) : (s.releaseSyncs).gath.ring = s.gath.ring := by obtain ⟨_, _, _, _, _, _, h_⟩ := State.releaseSyncs_only s ; rw [h_]
@[simp] theorem State.releaseSyncs_gath_link (s : State) : (s.releaseSyncs).gath.link = s.gath.link := by obtain ⟨_, _, _, _, _, _, h_⟩ := State.releaseSyncs_only s ; rw [h_]
@[simp] theorem State.releaseSyncs_gath_relayOnly (s : State) : (s.releaseSyncs).gath.relayOnly = s.gath.relayOnly := by obtain ⟨_, _, _, _, _, _, h_⟩ := State.releaseSyncs_only s ; rw [h_]
@[simp] theorem State.releaseSyncs_gath_sent (s : State) : (s.releaseSyncs).gath.sent = s.gath.sent := by obtain ⟨_, _, _, _, _, _, h_⟩ := State.releaseSyncs_only s ; rw [h_]
@[simp] theorem State.releaseSyncs_gath_acks (s : State) : (s.releaseSyncs).gath.acks = s.gath.acks := by obtain ⟨_, _, _, _, _, _, h_⟩ := State.releaseSyncs_only s ; rw [h_]
@[simp] theorem State.releaseSyncs_gath_rx (s : State) : (s.releaseSyncs).gath.rx = s.gath.rx := by obtain ⟨_, _, _, _, _, _, h_⟩ := State.releaseSyncs_only s ; rw [h_]
@[simp] theorem State.releaseSyncs_gath_fwdEvents (s : State) : (s.releaseSyncs).gath.fwdEvents = s.gath.fwdEvents := by obtain ⟨_, _, _, _, _, _, h_⟩ := State.releaseSyncs_only s ; rw [h_]
@[simp] theorem State.releaseSyncs_gath_resent (s : State) : (s.releaseSyncs).gath.resent = s.gath.resent := by obtain ⟨_, _, _, _, _, _, h_⟩ := State.releaseSyncs_only s ; rw [h_]
@[simp] theorem State.releaseSyncs_gath_watch (s : State) : (s.releaseSyncs).gath.watch = s.gath.watch := by obtain ⟨_, _, _, _, _, _, h_⟩ := State.releaseSyncs_only s ; rw [h_]
@[simp] theorem State.releaseSyncs_gath_evCount (s : State) : (s.releaseSyncs).gath.evCount = s.gath.evCount := by obtain ⟨_, _, _, _, _, _, h_⟩ := State.releaseSyncs_only s ; rw [h_]
@[simp] theorem State.releaseSyncs_gath_fwdSent (s : State) : (s.releaseSyncs).gath.fwdSent = s.gath.fwdSent := by obtain ⟨_, _, _, _, _, _, h_⟩ := State.releaseSyncs_only s ; rw [h_]
@[simp] theorem State.releaseSyncs_gath_frameNo (s : State) : (s.releaseSyncs).gath.frameNo = s.gath.frameNo := by obtain ⟨_, _, _, _, _, _, h_⟩ := State.releaseSyncs_only s ; rw [h_]
@[simp] theorem State.releaseSyncs_gath_noPathSince (s : State) : (s.releaseSyncs).gath.noPathSince = s.gath.noPathSince := by obtain ⟨_, _, _, _, _, _, h_⟩ := State.releaseSyncs_only s ; rw [h_]
@[simp] theorem State.releaseSyncs_twin (s : State) : (s.releaseSyncs).twin = s.twin := by obtain ⟨_, _, _, _, _, _, h_⟩ := State.releaseSyncs_only s ; rw [h_]
@[simp] theorem State.releaseSyncs_desk (s : State) : (s.releaseSyncs).desk = s.desk := by obtain ⟨_, _, _, _, _, _, h_⟩ := State.releaseSyncs_only s ; rw [h_]
@[simp] theorem State.releaseSyncs_pwr (s : State) : (s.releaseSyncs).pwr = s.pwr := by obtain ⟨_, _, _, _, _, _, h_⟩ := State.releaseSyncs_only s ; rw [h_]
@[simp] theorem State.releaseSyncs_lanes (s : State) : (s.releaseSyncs).lanes = s.lanes := by obtain ⟨_, _, _, _, _, _, h_⟩ := State.releaseSyncs_only s ; rw [h_]
@[simp] theorem State.releaseSyncs_flt (s : State) : (s.releaseSyncs).flt = s.flt := by obtain ⟨_, _, _, _, _, _, h_⟩ := State.releaseSyncs_only s ; rw [h_]
@[simp] theorem State.releaseSyncs_svc (s : State) : (s.releaseSyncs).svc = s.svc := by obtain ⟨_, _, _, _, _, _, h_⟩ := State.releaseSyncs_only s ; rw [h_]
@[simp] theorem State.releaseSyncs_jrn (s : State) : (s.releaseSyncs).jrn = s.jrn := by obtain ⟨_, _, _, _, _, _, h_⟩ := State.releaseSyncs_only s ; rw [h_]
@[simp] theorem State.releaseSyncs_pending (s : State) : (s.releaseSyncs).pending = s.pending := by obtain ⟨_, _, _, _, _, _, h_⟩ := State.releaseSyncs_only s ; rw [h_]
@[simp] theorem State.releaseSyncs_window (s : State) (w_ : Nat) : (s.releaseSyncs).window w_ = s.window w_ := by obtain ⟨_, _, _, _, _, _, h_⟩ := State.releaseSyncs_only s ; rw [h_]; rfl
@[simp] theorem State.releaseSyncs_chan (s : State) (c_ : Nat) : (s.releaseSyncs).chan c_ = s.chan c_ := by obtain ⟨_, _, _, _, _, _, h_⟩ := State.releaseSyncs_only s ; rw [h_]; rfl
@[simp] theorem State.releaseSyncs_ctx (s : State) (c_ : Nat) : (s.releaseSyncs).ctx c_ = s.ctx c_ := by obtain ⟨_, _, _, _, _, _, h_⟩ := State.releaseSyncs_only s ; rw [h_]; rfl
@[simp] theorem State.releaseSyncs_engine (s : State) (e_ : Nat) : (s.releaseSyncs).engine e_ = s.engine e_ := by obtain ⟨_, _, _, _, _, _, h_⟩ := State.releaseSyncs_only s ; rw [h_]; rfl
@[simp] theorem State.releaseSyncs_port (s : State) (p_ : Nat) : (s.releaseSyncs).port p_ = s.port p_ := by obtain ⟨_, _, _, _, _, _, h_⟩ := State.releaseSyncs_only s ; rw [h_]; rfl
@[simp] theorem State.releaseSyncs_layer (s : State) (i_ : Nat) : (s.releaseSyncs).layer i_ = s.layer i_ := by obtain ⟨_, _, _, _, _, _, h_⟩ := State.releaseSyncs_only s ; rw [h_]; rfl
@[simp] theorem State.releaseSyncs_head (s : State) (h_ : Nat) : (s.releaseSyncs).head h_ = s.head h_ := by obtain ⟨_, _, _, _, _, _, h_⟩ := State.releaseSyncs_only s ; rw [h_]; rfl
@[simp] theorem State.releaseSyncs_dpPort (s : State) (p_ : Nat) : (s.releaseSyncs).dpPort p_ = s.dpPort p_ := by obtain ⟨_, _, _, _, _, _, h_⟩ := State.releaseSyncs_only s ; rw [h_]; rfl
@[simp] theorem State.releaseSyncs_plate (s : State) (h_ : Nat) : (s.releaseSyncs).plate h_ = s.plate h_ := by obtain ⟨_, _, _, _, _, _, h_⟩ := State.releaseSyncs_only s ; rw [h_]; rfl
@[simp] theorem State.releaseSyncs_session (s : State) (i_ : Nat) : (s.releaseSyncs).session i_ = s.session i_ := by obtain ⟨_, _, _, _, _, _, h_⟩ := State.releaseSyncs_only s ; rw [h_]; rfl
@[simp] theorem State.releaseSyncs_encoder (s : State) (e_ : Nat) : (s.releaseSyncs).encoder e_ = s.encoder e_ := by obtain ⟨_, _, _, _, _, _, h_⟩ := State.releaseSyncs_only s ; rw [h_]; rfl
@[simp] theorem State.releaseSyncs_island (s : State) (i_ : Nat) : (s.releaseSyncs).island i_ = s.island i_ := by obtain ⟨_, _, _, _, _, _, h_⟩ := State.releaseSyncs_only s ; rw [h_]; rfl
@[simp] theorem State.releaseSyncs_dram (s : State) (c_ : Nat) : (s.releaseSyncs).dram c_ = s.dram c_ := by obtain ⟨_, _, _, _, _, _, h_⟩ := State.releaseSyncs_only s ; rw [h_]; rfl
@[simp] theorem State.releaseSyncs_panel (s : State) (t_ : Nat) : (s.releaseSyncs).panel t_ = s.panel t_ := by obtain ⟨_, _, _, _, _, _, h_⟩ := State.releaseSyncs_only s ; rw [h_]; rfl
@[simp] theorem State.releaseSyncs_input (s : State) (i_ : Nat) : (s.releaseSyncs).input i_ = s.input i_ := by obtain ⟨_, _, _, _, _, _, h_⟩ := State.releaseSyncs_only s ; rw [h_]; rfl
@[simp] theorem State.releaseSyncs_output (s : State) (o_ : Nat) : (s.releaseSyncs).output o_ = s.output o_ := by obtain ⟨_, _, _, _, _, _, h_⟩ := State.releaseSyncs_only s ; rw [h_]; rfl
@[simp] theorem State.releaseSyncs_quad (s : State) (q_ : Nat) : (s.releaseSyncs).quad q_ = s.quad q_ := by obtain ⟨_, _, _, _, _, _, h_⟩ := State.releaseSyncs_only s ; rw [h_]; rfl
@[simp] theorem State.releaseSyncs_hostBox (s : State) (n_ : Nat) : (s.releaseSyncs).hostBox n_ = s.hostBox n_ := by obtain ⟨_, _, _, _, _, _, h_⟩ := State.releaseSyncs_only s ; rw [h_]; rfl
@[simp] theorem State.releaseSyncs_farBox (s : State) (m_ : Nat) : (s.releaseSyncs).farBox m_ = s.farBox m_ := by obtain ⟨_, _, _, _, _, _, h_⟩ := State.releaseSyncs_only s ; rw [h_]; rfl
@[simp] theorem State.releaseSyncs_member (s : State) (m_ : Nat) : (s.releaseSyncs).member m_ = s.member m_ := by obtain ⟨_, _, _, _, _, _, h_⟩ := State.releaseSyncs_only s ; rw [h_]; rfl
@[simp] theorem State.releaseSyncs_spineLink (s : State) (l_ : Nat) : (s.releaseSyncs).spineLink l_ = s.spineLink l_ := by obtain ⟨_, _, _, _, _, _, h_⟩ := State.releaseSyncs_only s ; rw [h_]; rfl
@[simp] theorem State.releaseSyncs_cvUnit (s : State) (u_ : Nat) : (s.releaseSyncs).cvUnit u_ = s.cvUnit u_ := by obtain ⟨_, _, _, _, _, _, h_⟩ := State.releaseSyncs_only s ; rw [h_]; rfl
@[simp] theorem State.releaseSyncs_zeEngine (s : State) (e_ : Nat) : (s.releaseSyncs).zeEngine e_ = s.zeEngine e_ := by obtain ⟨_, _, _, _, _, _, h_⟩ := State.releaseSyncs_only s ; rw [h_]; rfl
@[simp] theorem State.releaseSyncs_mapOf (s : State) (r_ : Nat) : (s.releaseSyncs).mapOf r_ = s.mapOf r_ := by obtain ⟨_, _, _, _, _, _, h_⟩ := State.releaseSyncs_only s ; rw [h_]; rfl

/-- A failed folio of an open group marks it (R237). -/
theorem State.markBroken_only (s : State) (slot : Nat) (st : Status) :
    ∃ cmdq_, s.markBroken slot st = { s with host := { s.host with cmdq := cmdq_ } } := by
  unfold State.markBroken
  split
  · split
    · exact ⟨_, rfl⟩
    · exact ⟨_, rfl⟩
  · exact ⟨_, rfl⟩

@[simp] theorem State.markBroken_tb (s : State) (slot : Nat) (st : Status) : (s.markBroken slot st).tb = s.tb := by obtain ⟨_, h_⟩ := State.markBroken_only s slot st; rw [h_]
@[simp] theorem State.markBroken_top (s : State) (slot : Nat) (st : Status) : (s.markBroken slot st).top = s.top := by obtain ⟨_, h_⟩ := State.markBroken_only s slot st; rw [h_]
@[simp] theorem State.markBroken_host_rings (s : State) (slot : Nat) (st : Status) : (s.markBroken slot st).host.rings = s.host.rings := by obtain ⟨_, h_⟩ := State.markBroken_only s slot st; rw [h_]
@[simp] theorem State.markBroken_host_evtq (s : State) (slot : Nat) (st : Status) : (s.markBroken slot st).host.evtq = s.host.evtq := by obtain ⟨_, h_⟩ := State.markBroken_only s slot st; rw [h_]
@[simp] theorem State.markBroken_host_stmq (s : State) (slot : Nat) (st : Status) : (s.markBroken slot st).host.stmq = s.host.stmq := by obtain ⟨_, h_⟩ := State.markBroken_only s slot st; rw [h_]
@[simp] theorem State.markBroken_host_win (s : State) (slot : Nat) (st : Status) : (s.markBroken slot st).host.win = s.host.win := by obtain ⟨_, h_⟩ := State.markBroken_only s slot st; rw [h_]
@[simp] theorem State.markBroken_host_irq (s : State) (slot : Nat) (st : Status) : (s.markBroken slot st).host.irq = s.host.irq := by obtain ⟨_, h_⟩ := State.markBroken_only s slot st; rw [h_]
@[simp] theorem State.markBroken_host_msix (s : State) (slot : Nat) (st : Status) : (s.markBroken slot st).host.msix = s.host.msix := by obtain ⟨_, h_⟩ := State.markBroken_only s slot st; rw [h_]
@[simp] theorem State.markBroken_host_chan (s : State) (slot : Nat) (st : Status) : (s.markBroken slot st).host.chan = s.host.chan := by obtain ⟨_, h_⟩ := State.markBroken_only s slot st; rw [h_]
@[simp] theorem State.markBroken_host_bus (s : State) (slot : Nat) (st : Status) : (s.markBroken slot st).host.bus = s.host.bus := by obtain ⟨_, h_⟩ := State.markBroken_only s slot st; rw [h_]
@[simp] theorem State.markBroken_host_fetchNo (s : State) (slot : Nat) (st : Status) : (s.markBroken slot st).host.fetchNo = s.host.fetchNo := by obtain ⟨_, h_⟩ := State.markBroken_only s slot st; rw [h_]
@[simp] theorem State.markBroken_host_groupNo (s : State) (slot : Nat) (st : Status) : (s.markBroken slot st).host.groupNo = s.host.groupNo := by obtain ⟨_, h_⟩ := State.markBroken_only s slot st; rw [h_]
@[simp] theorem State.markBroken_host_nextSession (s : State) (slot : Nat) (st : Status) : (s.markBroken slot st).host.nextSession = s.host.nextSession := by obtain ⟨_, h_⟩ := State.markBroken_only s slot st; rw [h_]
@[simp] theorem State.markBroken_host_perst (s : State) (slot : Nat) (st : Status) : (s.markBroken slot st).host.perst = s.host.perst := by obtain ⟨_, h_⟩ := State.markBroken_only s slot st; rw [h_]
@[simp] theorem State.markBroken_host_linkTraining (s : State) (slot : Nat) (st : Status) : (s.markBroken slot st).host.linkTraining = s.host.linkTraining := by obtain ⟨_, h_⟩ := State.markBroken_only s slot st; rw [h_]
@[simp] theorem State.markBroken_host_rrNext (s : State) (slot : Nat) (st : Status) : (s.markBroken slot st).host.rrNext = s.host.rrNext := by obtain ⟨_, h_⟩ := State.markBroken_only s slot st; rw [h_]
@[simp] theorem State.markBroken_host_rrUrgent (s : State) (slot : Nat) (st : Status) : (s.markBroken slot st).host.rrUrgent = s.host.rrUrgent := by obtain ⟨_, h_⟩ := State.markBroken_only s slot st; rw [h_]
@[simp] theorem State.markBroken_net (s : State) (slot : Nat) (st : Status) : (s.markBroken slot st).net = s.net := by obtain ⟨_, h_⟩ := State.markBroken_only s slot st; rw [h_]
@[simp] theorem State.markBroken_dec (s : State) (slot : Nat) (st : Status) : (s.markBroken slot st).dec = s.dec := by obtain ⟨_, h_⟩ := State.markBroken_only s slot st; rw [h_]
@[simp] theorem State.markBroken_comp (s : State) (slot : Nat) (st : Status) : (s.markBroken slot st).comp = s.comp := by obtain ⟨_, h_⟩ := State.markBroken_only s slot st; rw [h_]
@[simp] theorem State.markBroken_enc (s : State) (slot : Nat) (st : Status) : (s.markBroken slot st).enc = s.enc := by obtain ⟨_, h_⟩ := State.markBroken_only s slot st; rw [h_]
@[simp] theorem State.markBroken_fab (s : State) (slot : Nat) (st : Status) : (s.markBroken slot st).fab = s.fab := by obtain ⟨_, h_⟩ := State.markBroken_only s slot st; rw [h_]
@[simp] theorem State.markBroken_store (s : State) (slot : Nat) (st : Status) : (s.markBroken slot st).store = s.store := by obtain ⟨_, h_⟩ := State.markBroken_only s slot st; rw [h_]
@[simp] theorem State.markBroken_sec (s : State) (slot : Nat) (st : Status) : (s.markBroken slot st).sec = s.sec := by obtain ⟨_, h_⟩ := State.markBroken_only s slot st; rw [h_]
@[simp] theorem State.markBroken_mail (s : State) (slot : Nat) (st : Status) : (s.markBroken slot st).mail = s.mail := by obtain ⟨_, h_⟩ := State.markBroken_only s slot st; rw [h_]
@[simp] theorem State.markBroken_gath (s : State) (slot : Nat) (st : Status) : (s.markBroken slot st).gath = s.gath := by obtain ⟨_, h_⟩ := State.markBroken_only s slot st; rw [h_]
@[simp] theorem State.markBroken_twin (s : State) (slot : Nat) (st : Status) : (s.markBroken slot st).twin = s.twin := by obtain ⟨_, h_⟩ := State.markBroken_only s slot st; rw [h_]
@[simp] theorem State.markBroken_desk (s : State) (slot : Nat) (st : Status) : (s.markBroken slot st).desk = s.desk := by obtain ⟨_, h_⟩ := State.markBroken_only s slot st; rw [h_]
@[simp] theorem State.markBroken_pwr (s : State) (slot : Nat) (st : Status) : (s.markBroken slot st).pwr = s.pwr := by obtain ⟨_, h_⟩ := State.markBroken_only s slot st; rw [h_]
@[simp] theorem State.markBroken_lanes (s : State) (slot : Nat) (st : Status) : (s.markBroken slot st).lanes = s.lanes := by obtain ⟨_, h_⟩ := State.markBroken_only s slot st; rw [h_]
@[simp] theorem State.markBroken_flt (s : State) (slot : Nat) (st : Status) : (s.markBroken slot st).flt = s.flt := by obtain ⟨_, h_⟩ := State.markBroken_only s slot st; rw [h_]
@[simp] theorem State.markBroken_svc (s : State) (slot : Nat) (st : Status) : (s.markBroken slot st).svc = s.svc := by obtain ⟨_, h_⟩ := State.markBroken_only s slot st; rw [h_]
@[simp] theorem State.markBroken_jrn (s : State) (slot : Nat) (st : Status) : (s.markBroken slot st).jrn = s.jrn := by obtain ⟨_, h_⟩ := State.markBroken_only s slot st; rw [h_]
@[simp] theorem State.markBroken_pending (s : State) (slot : Nat) (st : Status) : (s.markBroken slot st).pending = s.pending := by obtain ⟨_, h_⟩ := State.markBroken_only s slot st; rw [h_]
@[simp] theorem State.markBroken_ring (s : State) (slot : Nat) (st : Status) (r_ : Nat) : (s.markBroken slot st).ring r_ = s.ring r_ := by obtain ⟨_, h_⟩ := State.markBroken_only s slot st; rw [h_]; rfl
@[simp] theorem State.markBroken_evtQ (s : State) (slot : Nat) (st : Status) (n_ : Nat) : (s.markBroken slot st).evtQ n_ = s.evtQ n_ := by obtain ⟨_, h_⟩ := State.markBroken_only s slot st; rw [h_]; rfl
@[simp] theorem State.markBroken_window (s : State) (slot : Nat) (st : Status) (w_ : Nat) : (s.markBroken slot st).window w_ = s.window w_ := by obtain ⟨_, h_⟩ := State.markBroken_only s slot st; rw [h_]; rfl
@[simp] theorem State.markBroken_chan (s : State) (slot : Nat) (st : Status) (c_ : Nat) : (s.markBroken slot st).chan c_ = s.chan c_ := by obtain ⟨_, h_⟩ := State.markBroken_only s slot st; rw [h_]; rfl
@[simp] theorem State.markBroken_ctx (s : State) (slot : Nat) (st : Status) (c_ : Nat) : (s.markBroken slot st).ctx c_ = s.ctx c_ := by obtain ⟨_, h_⟩ := State.markBroken_only s slot st; rw [h_]; rfl
@[simp] theorem State.markBroken_engine (s : State) (slot : Nat) (st : Status) (e_ : Nat) : (s.markBroken slot st).engine e_ = s.engine e_ := by obtain ⟨_, h_⟩ := State.markBroken_only s slot st; rw [h_]; rfl
@[simp] theorem State.markBroken_port (s : State) (slot : Nat) (st : Status) (p_ : Nat) : (s.markBroken slot st).port p_ = s.port p_ := by obtain ⟨_, h_⟩ := State.markBroken_only s slot st; rw [h_]; rfl
@[simp] theorem State.markBroken_layer (s : State) (slot : Nat) (st : Status) (i_ : Nat) : (s.markBroken slot st).layer i_ = s.layer i_ := by obtain ⟨_, h_⟩ := State.markBroken_only s slot st; rw [h_]; rfl
@[simp] theorem State.markBroken_head (s : State) (slot : Nat) (st : Status) (h_ : Nat) : (s.markBroken slot st).head h_ = s.head h_ := by obtain ⟨_, h_⟩ := State.markBroken_only s slot st; rw [h_]; rfl
@[simp] theorem State.markBroken_dpPort (s : State) (slot : Nat) (st : Status) (p_ : Nat) : (s.markBroken slot st).dpPort p_ = s.dpPort p_ := by obtain ⟨_, h_⟩ := State.markBroken_only s slot st; rw [h_]; rfl
@[simp] theorem State.markBroken_plate (s : State) (slot : Nat) (st : Status) (h_ : Nat) : (s.markBroken slot st).plate h_ = s.plate h_ := by obtain ⟨_, h_⟩ := State.markBroken_only s slot st; rw [h_]; rfl
@[simp] theorem State.markBroken_session (s : State) (slot : Nat) (st : Status) (i_ : Nat) : (s.markBroken slot st).session i_ = s.session i_ := by obtain ⟨_, h_⟩ := State.markBroken_only s slot st; rw [h_]; rfl
@[simp] theorem State.markBroken_encoder (s : State) (slot : Nat) (st : Status) (e_ : Nat) : (s.markBroken slot st).encoder e_ = s.encoder e_ := by obtain ⟨_, h_⟩ := State.markBroken_only s slot st; rw [h_]; rfl
@[simp] theorem State.markBroken_island (s : State) (slot : Nat) (st : Status) (i_ : Nat) : (s.markBroken slot st).island i_ = s.island i_ := by obtain ⟨_, h_⟩ := State.markBroken_only s slot st; rw [h_]; rfl
@[simp] theorem State.markBroken_dram (s : State) (slot : Nat) (st : Status) (c_ : Nat) : (s.markBroken slot st).dram c_ = s.dram c_ := by obtain ⟨_, h_⟩ := State.markBroken_only s slot st; rw [h_]; rfl
@[simp] theorem State.markBroken_panel (s : State) (slot : Nat) (st : Status) (t_ : Nat) : (s.markBroken slot st).panel t_ = s.panel t_ := by obtain ⟨_, h_⟩ := State.markBroken_only s slot st; rw [h_]; rfl
@[simp] theorem State.markBroken_input (s : State) (slot : Nat) (st : Status) (i_ : Nat) : (s.markBroken slot st).input i_ = s.input i_ := by obtain ⟨_, h_⟩ := State.markBroken_only s slot st; rw [h_]; rfl
@[simp] theorem State.markBroken_output (s : State) (slot : Nat) (st : Status) (o_ : Nat) : (s.markBroken slot st).output o_ = s.output o_ := by obtain ⟨_, h_⟩ := State.markBroken_only s slot st; rw [h_]; rfl
@[simp] theorem State.markBroken_quad (s : State) (slot : Nat) (st : Status) (q_ : Nat) : (s.markBroken slot st).quad q_ = s.quad q_ := by obtain ⟨_, h_⟩ := State.markBroken_only s slot st; rw [h_]; rfl
@[simp] theorem State.markBroken_hostBox (s : State) (slot : Nat) (st : Status) (n_ : Nat) : (s.markBroken slot st).hostBox n_ = s.hostBox n_ := by obtain ⟨_, h_⟩ := State.markBroken_only s slot st; rw [h_]; rfl
@[simp] theorem State.markBroken_farBox (s : State) (slot : Nat) (st : Status) (m_ : Nat) : (s.markBroken slot st).farBox m_ = s.farBox m_ := by obtain ⟨_, h_⟩ := State.markBroken_only s slot st; rw [h_]; rfl
@[simp] theorem State.markBroken_member (s : State) (slot : Nat) (st : Status) (m_ : Nat) : (s.markBroken slot st).member m_ = s.member m_ := by obtain ⟨_, h_⟩ := State.markBroken_only s slot st; rw [h_]; rfl
@[simp] theorem State.markBroken_spineLink (s : State) (slot : Nat) (st : Status) (l_ : Nat) : (s.markBroken slot st).spineLink l_ = s.spineLink l_ := by obtain ⟨_, h_⟩ := State.markBroken_only s slot st; rw [h_]; rfl
@[simp] theorem State.markBroken_cvUnit (s : State) (slot : Nat) (st : Status) (u_ : Nat) : (s.markBroken slot st).cvUnit u_ = s.cvUnit u_ := by obtain ⟨_, h_⟩ := State.markBroken_only s slot st; rw [h_]; rfl
@[simp] theorem State.markBroken_zeEngine (s : State) (slot : Nat) (st : Status) (e_ : Nat) : (s.markBroken slot st).zeEngine e_ = s.zeEngine e_ := by obtain ⟨_, h_⟩ := State.markBroken_only s slot st; rw [h_]; rfl
@[simp] theorem State.markBroken_mapOf (s : State) (slot : Nat) (st : Status) (r_ : Nat) : (s.markBroken slot st).mapOf r_ = s.mapOf r_ := by obtain ⟨_, h_⟩ := State.markBroken_only s slot st; rw [h_]; rfl

/-- Islands that have work run at their rated point, and nothing else changes (R525). -/
theorem State.rateIslands_only (s : State) :
    ∃ isl_, s.rateIslands = { s with fab := { s.fab with isl := isl_ } } := by
  unfold State.rateIslands
  generalize List.range 43 = l
  induction l generalizing s with
  | nil => exact ⟨_, rfl⟩
  | cons r l ih =>
    rw [List.foldl_cons]
    split
    · obtain ⟨_, h⟩ := ih (s.modIsland r fun x => { x with power := .run, rated := true })
      rw [h]
      exact ⟨_, rfl⟩
    · exact ih s

@[simp] theorem State.rateIslands_tb (s : State) : (s.rateIslands).tb = s.tb := by obtain ⟨_, h_⟩ := State.rateIslands_only s ; rw [h_]
@[simp] theorem State.rateIslands_top (s : State) : (s.rateIslands).top = s.top := by obtain ⟨_, h_⟩ := State.rateIslands_only s ; rw [h_]
@[simp] theorem State.rateIslands_host (s : State) : (s.rateIslands).host = s.host := by obtain ⟨_, h_⟩ := State.rateIslands_only s ; rw [h_]
@[simp] theorem State.rateIslands_net (s : State) : (s.rateIslands).net = s.net := by obtain ⟨_, h_⟩ := State.rateIslands_only s ; rw [h_]
@[simp] theorem State.rateIslands_dec (s : State) : (s.rateIslands).dec = s.dec := by obtain ⟨_, h_⟩ := State.rateIslands_only s ; rw [h_]
@[simp] theorem State.rateIslands_comp (s : State) : (s.rateIslands).comp = s.comp := by obtain ⟨_, h_⟩ := State.rateIslands_only s ; rw [h_]
@[simp] theorem State.rateIslands_enc (s : State) : (s.rateIslands).enc = s.enc := by obtain ⟨_, h_⟩ := State.rateIslands_only s ; rw [h_]
@[simp] theorem State.rateIslands_fab_xing (s : State) : (s.rateIslands).fab.xing = s.fab.xing := by obtain ⟨_, h_⟩ := State.rateIslands_only s ; rw [h_]
@[simp] theorem State.rateIslands_fab_sram (s : State) : (s.rateIslands).fab.sram = s.fab.sram := by obtain ⟨_, h_⟩ := State.rateIslands_only s ; rw [h_]
@[simp] theorem State.rateIslands_store (s : State) : (s.rateIslands).store = s.store := by obtain ⟨_, h_⟩ := State.rateIslands_only s ; rw [h_]
@[simp] theorem State.rateIslands_sec (s : State) : (s.rateIslands).sec = s.sec := by obtain ⟨_, h_⟩ := State.rateIslands_only s ; rw [h_]
@[simp] theorem State.rateIslands_mail (s : State) : (s.rateIslands).mail = s.mail := by obtain ⟨_, h_⟩ := State.rateIslands_only s ; rw [h_]
@[simp] theorem State.rateIslands_gath (s : State) : (s.rateIslands).gath = s.gath := by obtain ⟨_, h_⟩ := State.rateIslands_only s ; rw [h_]
@[simp] theorem State.rateIslands_twin (s : State) : (s.rateIslands).twin = s.twin := by obtain ⟨_, h_⟩ := State.rateIslands_only s ; rw [h_]
@[simp] theorem State.rateIslands_desk (s : State) : (s.rateIslands).desk = s.desk := by obtain ⟨_, h_⟩ := State.rateIslands_only s ; rw [h_]
@[simp] theorem State.rateIslands_pwr (s : State) : (s.rateIslands).pwr = s.pwr := by obtain ⟨_, h_⟩ := State.rateIslands_only s ; rw [h_]
@[simp] theorem State.rateIslands_lanes (s : State) : (s.rateIslands).lanes = s.lanes := by obtain ⟨_, h_⟩ := State.rateIslands_only s ; rw [h_]
@[simp] theorem State.rateIslands_flt (s : State) : (s.rateIslands).flt = s.flt := by obtain ⟨_, h_⟩ := State.rateIslands_only s ; rw [h_]
@[simp] theorem State.rateIslands_svc (s : State) : (s.rateIslands).svc = s.svc := by obtain ⟨_, h_⟩ := State.rateIslands_only s ; rw [h_]
@[simp] theorem State.rateIslands_jrn (s : State) : (s.rateIslands).jrn = s.jrn := by obtain ⟨_, h_⟩ := State.rateIslands_only s ; rw [h_]
@[simp] theorem State.rateIslands_pending (s : State) : (s.rateIslands).pending = s.pending := by obtain ⟨_, h_⟩ := State.rateIslands_only s ; rw [h_]
@[simp] theorem State.rateIslands_ring (s : State) (r_ : Nat) : (s.rateIslands).ring r_ = s.ring r_ := by obtain ⟨_, h_⟩ := State.rateIslands_only s ; rw [h_]; rfl
@[simp] theorem State.rateIslands_cmdQ (s : State) (r_ : Nat) : (s.rateIslands).cmdQ r_ = s.cmdQ r_ := by obtain ⟨_, h_⟩ := State.rateIslands_only s ; rw [h_]; rfl
@[simp] theorem State.rateIslands_evtQ (s : State) (n_ : Nat) : (s.rateIslands).evtQ n_ = s.evtQ n_ := by obtain ⟨_, h_⟩ := State.rateIslands_only s ; rw [h_]; rfl
@[simp] theorem State.rateIslands_window (s : State) (w_ : Nat) : (s.rateIslands).window w_ = s.window w_ := by obtain ⟨_, h_⟩ := State.rateIslands_only s ; rw [h_]; rfl
@[simp] theorem State.rateIslands_chan (s : State) (c_ : Nat) : (s.rateIslands).chan c_ = s.chan c_ := by obtain ⟨_, h_⟩ := State.rateIslands_only s ; rw [h_]; rfl
@[simp] theorem State.rateIslands_ctx (s : State) (c_ : Nat) : (s.rateIslands).ctx c_ = s.ctx c_ := by obtain ⟨_, h_⟩ := State.rateIslands_only s ; rw [h_]; rfl
@[simp] theorem State.rateIslands_engine (s : State) (e_ : Nat) : (s.rateIslands).engine e_ = s.engine e_ := by obtain ⟨_, h_⟩ := State.rateIslands_only s ; rw [h_]; rfl
@[simp] theorem State.rateIslands_port (s : State) (p_ : Nat) : (s.rateIslands).port p_ = s.port p_ := by obtain ⟨_, h_⟩ := State.rateIslands_only s ; rw [h_]; rfl
@[simp] theorem State.rateIslands_layer (s : State) (i_ : Nat) : (s.rateIslands).layer i_ = s.layer i_ := by obtain ⟨_, h_⟩ := State.rateIslands_only s ; rw [h_]; rfl
@[simp] theorem State.rateIslands_head (s : State) (h_ : Nat) : (s.rateIslands).head h_ = s.head h_ := by obtain ⟨_, h_⟩ := State.rateIslands_only s ; rw [h_]; rfl
@[simp] theorem State.rateIslands_dpPort (s : State) (p_ : Nat) : (s.rateIslands).dpPort p_ = s.dpPort p_ := by obtain ⟨_, h_⟩ := State.rateIslands_only s ; rw [h_]; rfl
@[simp] theorem State.rateIslands_plate (s : State) (h_ : Nat) : (s.rateIslands).plate h_ = s.plate h_ := by obtain ⟨_, h_⟩ := State.rateIslands_only s ; rw [h_]; rfl
@[simp] theorem State.rateIslands_session (s : State) (i_ : Nat) : (s.rateIslands).session i_ = s.session i_ := by obtain ⟨_, h_⟩ := State.rateIslands_only s ; rw [h_]; rfl
@[simp] theorem State.rateIslands_encoder (s : State) (e_ : Nat) : (s.rateIslands).encoder e_ = s.encoder e_ := by obtain ⟨_, h_⟩ := State.rateIslands_only s ; rw [h_]; rfl
@[simp] theorem State.rateIslands_dram (s : State) (c_ : Nat) : (s.rateIslands).dram c_ = s.dram c_ := by obtain ⟨_, h_⟩ := State.rateIslands_only s ; rw [h_]; rfl
@[simp] theorem State.rateIslands_panel (s : State) (t_ : Nat) : (s.rateIslands).panel t_ = s.panel t_ := by obtain ⟨_, h_⟩ := State.rateIslands_only s ; rw [h_]; rfl
@[simp] theorem State.rateIslands_input (s : State) (i_ : Nat) : (s.rateIslands).input i_ = s.input i_ := by obtain ⟨_, h_⟩ := State.rateIslands_only s ; rw [h_]; rfl
@[simp] theorem State.rateIslands_output (s : State) (o_ : Nat) : (s.rateIslands).output o_ = s.output o_ := by obtain ⟨_, h_⟩ := State.rateIslands_only s ; rw [h_]; rfl
@[simp] theorem State.rateIslands_quad (s : State) (q_ : Nat) : (s.rateIslands).quad q_ = s.quad q_ := by obtain ⟨_, h_⟩ := State.rateIslands_only s ; rw [h_]; rfl
@[simp] theorem State.rateIslands_hostBox (s : State) (n_ : Nat) : (s.rateIslands).hostBox n_ = s.hostBox n_ := by obtain ⟨_, h_⟩ := State.rateIslands_only s ; rw [h_]; rfl
@[simp] theorem State.rateIslands_farBox (s : State) (m_ : Nat) : (s.rateIslands).farBox m_ = s.farBox m_ := by obtain ⟨_, h_⟩ := State.rateIslands_only s ; rw [h_]; rfl
@[simp] theorem State.rateIslands_member (s : State) (m_ : Nat) : (s.rateIslands).member m_ = s.member m_ := by obtain ⟨_, h_⟩ := State.rateIslands_only s ; rw [h_]; rfl
@[simp] theorem State.rateIslands_spineLink (s : State) (l_ : Nat) : (s.rateIslands).spineLink l_ = s.spineLink l_ := by obtain ⟨_, h_⟩ := State.rateIslands_only s ; rw [h_]; rfl
@[simp] theorem State.rateIslands_cvUnit (s : State) (u_ : Nat) : (s.rateIslands).cvUnit u_ = s.cvUnit u_ := by obtain ⟨_, h_⟩ := State.rateIslands_only s ; rw [h_]; rfl
@[simp] theorem State.rateIslands_zeEngine (s : State) (e_ : Nat) : (s.rateIslands).zeEngine e_ = s.zeEngine e_ := by obtain ⟨_, h_⟩ := State.rateIslands_only s ; rw [h_]; rfl
@[simp] theorem State.rateIslands_mapOf (s : State) (r_ : Nat) : (s.rateIslands).mapOf r_ = s.mapOf r_ := by obtain ⟨_, h_⟩ := State.rateIslands_only s ; rw [h_]; rfl

/-- The TAG of a folio changes the records it caused, waiting here or bound for other members (R341). -/
theorem State.causedBy_only (s : State) (before : State) (tag : Nat) :
    ∃ evtq_ fwdEvents_, s.causedBy before tag = { s with host := { s.host with evtq := evtq_ }, gath := { s.gath with fwdEvents := fwdEvents_ } } := by
  exact ⟨_, _, rfl⟩

@[simp] theorem State.causedBy_tb (s : State) (before : State) (tag : Nat) : (s.causedBy before tag).tb = s.tb := by obtain ⟨_, _, h_⟩ := State.causedBy_only s before tag; rw [h_]
@[simp] theorem State.causedBy_top (s : State) (before : State) (tag : Nat) : (s.causedBy before tag).top = s.top := by obtain ⟨_, _, h_⟩ := State.causedBy_only s before tag; rw [h_]
@[simp] theorem State.causedBy_host_rings (s : State) (before : State) (tag : Nat) : (s.causedBy before tag).host.rings = s.host.rings := by obtain ⟨_, _, h_⟩ := State.causedBy_only s before tag; rw [h_]
@[simp] theorem State.causedBy_host_cmdq (s : State) (before : State) (tag : Nat) : (s.causedBy before tag).host.cmdq = s.host.cmdq := by obtain ⟨_, _, h_⟩ := State.causedBy_only s before tag; rw [h_]
@[simp] theorem State.causedBy_host_stmq (s : State) (before : State) (tag : Nat) : (s.causedBy before tag).host.stmq = s.host.stmq := by obtain ⟨_, _, h_⟩ := State.causedBy_only s before tag; rw [h_]
@[simp] theorem State.causedBy_host_win (s : State) (before : State) (tag : Nat) : (s.causedBy before tag).host.win = s.host.win := by obtain ⟨_, _, h_⟩ := State.causedBy_only s before tag; rw [h_]
@[simp] theorem State.causedBy_host_irq (s : State) (before : State) (tag : Nat) : (s.causedBy before tag).host.irq = s.host.irq := by obtain ⟨_, _, h_⟩ := State.causedBy_only s before tag; rw [h_]
@[simp] theorem State.causedBy_host_msix (s : State) (before : State) (tag : Nat) : (s.causedBy before tag).host.msix = s.host.msix := by obtain ⟨_, _, h_⟩ := State.causedBy_only s before tag; rw [h_]
@[simp] theorem State.causedBy_host_chan (s : State) (before : State) (tag : Nat) : (s.causedBy before tag).host.chan = s.host.chan := by obtain ⟨_, _, h_⟩ := State.causedBy_only s before tag; rw [h_]
@[simp] theorem State.causedBy_host_bus (s : State) (before : State) (tag : Nat) : (s.causedBy before tag).host.bus = s.host.bus := by obtain ⟨_, _, h_⟩ := State.causedBy_only s before tag; rw [h_]
@[simp] theorem State.causedBy_host_fetchNo (s : State) (before : State) (tag : Nat) : (s.causedBy before tag).host.fetchNo = s.host.fetchNo := by obtain ⟨_, _, h_⟩ := State.causedBy_only s before tag; rw [h_]
@[simp] theorem State.causedBy_host_groupNo (s : State) (before : State) (tag : Nat) : (s.causedBy before tag).host.groupNo = s.host.groupNo := by obtain ⟨_, _, h_⟩ := State.causedBy_only s before tag; rw [h_]
@[simp] theorem State.causedBy_host_nextSession (s : State) (before : State) (tag : Nat) : (s.causedBy before tag).host.nextSession = s.host.nextSession := by obtain ⟨_, _, h_⟩ := State.causedBy_only s before tag; rw [h_]
@[simp] theorem State.causedBy_host_perst (s : State) (before : State) (tag : Nat) : (s.causedBy before tag).host.perst = s.host.perst := by obtain ⟨_, _, h_⟩ := State.causedBy_only s before tag; rw [h_]
@[simp] theorem State.causedBy_host_linkTraining (s : State) (before : State) (tag : Nat) : (s.causedBy before tag).host.linkTraining = s.host.linkTraining := by obtain ⟨_, _, h_⟩ := State.causedBy_only s before tag; rw [h_]
@[simp] theorem State.causedBy_host_rrNext (s : State) (before : State) (tag : Nat) : (s.causedBy before tag).host.rrNext = s.host.rrNext := by obtain ⟨_, _, h_⟩ := State.causedBy_only s before tag; rw [h_]
@[simp] theorem State.causedBy_host_rrUrgent (s : State) (before : State) (tag : Nat) : (s.causedBy before tag).host.rrUrgent = s.host.rrUrgent := by obtain ⟨_, _, h_⟩ := State.causedBy_only s before tag; rw [h_]
@[simp] theorem State.causedBy_net (s : State) (before : State) (tag : Nat) : (s.causedBy before tag).net = s.net := by obtain ⟨_, _, h_⟩ := State.causedBy_only s before tag; rw [h_]
@[simp] theorem State.causedBy_dec (s : State) (before : State) (tag : Nat) : (s.causedBy before tag).dec = s.dec := by obtain ⟨_, _, h_⟩ := State.causedBy_only s before tag; rw [h_]
@[simp] theorem State.causedBy_comp (s : State) (before : State) (tag : Nat) : (s.causedBy before tag).comp = s.comp := by obtain ⟨_, _, h_⟩ := State.causedBy_only s before tag; rw [h_]
@[simp] theorem State.causedBy_enc (s : State) (before : State) (tag : Nat) : (s.causedBy before tag).enc = s.enc := by obtain ⟨_, _, h_⟩ := State.causedBy_only s before tag; rw [h_]
@[simp] theorem State.causedBy_fab (s : State) (before : State) (tag : Nat) : (s.causedBy before tag).fab = s.fab := by obtain ⟨_, _, h_⟩ := State.causedBy_only s before tag; rw [h_]
@[simp] theorem State.causedBy_store (s : State) (before : State) (tag : Nat) : (s.causedBy before tag).store = s.store := by obtain ⟨_, _, h_⟩ := State.causedBy_only s before tag; rw [h_]
@[simp] theorem State.causedBy_sec (s : State) (before : State) (tag : Nat) : (s.causedBy before tag).sec = s.sec := by obtain ⟨_, _, h_⟩ := State.causedBy_only s before tag; rw [h_]
@[simp] theorem State.causedBy_mail (s : State) (before : State) (tag : Nat) : (s.causedBy before tag).mail = s.mail := by obtain ⟨_, _, h_⟩ := State.causedBy_only s before tag; rw [h_]
@[simp] theorem State.causedBy_gath_mem (s : State) (before : State) (tag : Nat) : (s.causedBy before tag).gath.mem = s.gath.mem := by obtain ⟨_, _, h_⟩ := State.causedBy_only s before tag; rw [h_]
@[simp] theorem State.causedBy_gath_lead (s : State) (before : State) (tag : Nat) : (s.causedBy before tag).gath.lead = s.gath.lead := by obtain ⟨_, _, h_⟩ := State.causedBy_only s before tag; rw [h_]
@[simp] theorem State.causedBy_gath_ring (s : State) (before : State) (tag : Nat) : (s.causedBy before tag).gath.ring = s.gath.ring := by obtain ⟨_, _, h_⟩ := State.causedBy_only s before tag; rw [h_]
@[simp] theorem State.causedBy_gath_link (s : State) (before : State) (tag : Nat) : (s.causedBy before tag).gath.link = s.gath.link := by obtain ⟨_, _, h_⟩ := State.causedBy_only s before tag; rw [h_]
@[simp] theorem State.causedBy_gath_relayOnly (s : State) (before : State) (tag : Nat) : (s.causedBy before tag).gath.relayOnly = s.gath.relayOnly := by obtain ⟨_, _, h_⟩ := State.causedBy_only s before tag; rw [h_]
@[simp] theorem State.causedBy_gath_outcomes (s : State) (before : State) (tag : Nat) : (s.causedBy before tag).gath.outcomes = s.gath.outcomes := by obtain ⟨_, _, h_⟩ := State.causedBy_only s before tag; rw [h_]
@[simp] theorem State.causedBy_gath_replies (s : State) (before : State) (tag : Nat) : (s.causedBy before tag).gath.replies = s.gath.replies := by obtain ⟨_, _, h_⟩ := State.causedBy_only s before tag; rw [h_]
@[simp] theorem State.causedBy_gath_sent (s : State) (before : State) (tag : Nat) : (s.causedBy before tag).gath.sent = s.gath.sent := by obtain ⟨_, _, h_⟩ := State.causedBy_only s before tag; rw [h_]
@[simp] theorem State.causedBy_gath_acks (s : State) (before : State) (tag : Nat) : (s.causedBy before tag).gath.acks = s.gath.acks := by obtain ⟨_, _, h_⟩ := State.causedBy_only s before tag; rw [h_]
@[simp] theorem State.causedBy_gath_rx (s : State) (before : State) (tag : Nat) : (s.causedBy before tag).gath.rx = s.gath.rx := by obtain ⟨_, _, h_⟩ := State.causedBy_only s before tag; rw [h_]
@[simp] theorem State.causedBy_gath_resent (s : State) (before : State) (tag : Nat) : (s.causedBy before tag).gath.resent = s.gath.resent := by obtain ⟨_, _, h_⟩ := State.causedBy_only s before tag; rw [h_]
@[simp] theorem State.causedBy_gath_watch (s : State) (before : State) (tag : Nat) : (s.causedBy before tag).gath.watch = s.gath.watch := by obtain ⟨_, _, h_⟩ := State.causedBy_only s before tag; rw [h_]
@[simp] theorem State.causedBy_gath_evCount (s : State) (before : State) (tag : Nat) : (s.causedBy before tag).gath.evCount = s.gath.evCount := by obtain ⟨_, _, h_⟩ := State.causedBy_only s before tag; rw [h_]
@[simp] theorem State.causedBy_gath_fwdSent (s : State) (before : State) (tag : Nat) : (s.causedBy before tag).gath.fwdSent = s.gath.fwdSent := by obtain ⟨_, _, h_⟩ := State.causedBy_only s before tag; rw [h_]
@[simp] theorem State.causedBy_gath_frameNo (s : State) (before : State) (tag : Nat) : (s.causedBy before tag).gath.frameNo = s.gath.frameNo := by obtain ⟨_, _, h_⟩ := State.causedBy_only s before tag; rw [h_]
@[simp] theorem State.causedBy_gath_noPathSince (s : State) (before : State) (tag : Nat) : (s.causedBy before tag).gath.noPathSince = s.gath.noPathSince := by obtain ⟨_, _, h_⟩ := State.causedBy_only s before tag; rw [h_]
@[simp] theorem State.causedBy_twin (s : State) (before : State) (tag : Nat) : (s.causedBy before tag).twin = s.twin := by obtain ⟨_, _, h_⟩ := State.causedBy_only s before tag; rw [h_]
@[simp] theorem State.causedBy_desk (s : State) (before : State) (tag : Nat) : (s.causedBy before tag).desk = s.desk := by obtain ⟨_, _, h_⟩ := State.causedBy_only s before tag; rw [h_]
@[simp] theorem State.causedBy_pwr (s : State) (before : State) (tag : Nat) : (s.causedBy before tag).pwr = s.pwr := by obtain ⟨_, _, h_⟩ := State.causedBy_only s before tag; rw [h_]
@[simp] theorem State.causedBy_lanes (s : State) (before : State) (tag : Nat) : (s.causedBy before tag).lanes = s.lanes := by obtain ⟨_, _, h_⟩ := State.causedBy_only s before tag; rw [h_]
@[simp] theorem State.causedBy_flt (s : State) (before : State) (tag : Nat) : (s.causedBy before tag).flt = s.flt := by obtain ⟨_, _, h_⟩ := State.causedBy_only s before tag; rw [h_]
@[simp] theorem State.causedBy_svc (s : State) (before : State) (tag : Nat) : (s.causedBy before tag).svc = s.svc := by obtain ⟨_, _, h_⟩ := State.causedBy_only s before tag; rw [h_]
@[simp] theorem State.causedBy_jrn (s : State) (before : State) (tag : Nat) : (s.causedBy before tag).jrn = s.jrn := by obtain ⟨_, _, h_⟩ := State.causedBy_only s before tag; rw [h_]
@[simp] theorem State.causedBy_pending (s : State) (before : State) (tag : Nat) : (s.causedBy before tag).pending = s.pending := by obtain ⟨_, _, h_⟩ := State.causedBy_only s before tag; rw [h_]
@[simp] theorem State.causedBy_ring (s : State) (before : State) (tag : Nat) (r_ : Nat) : (s.causedBy before tag).ring r_ = s.ring r_ := by obtain ⟨_, _, h_⟩ := State.causedBy_only s before tag; rw [h_]; rfl
@[simp] theorem State.causedBy_cmdQ (s : State) (before : State) (tag : Nat) (r_ : Nat) : (s.causedBy before tag).cmdQ r_ = s.cmdQ r_ := by obtain ⟨_, _, h_⟩ := State.causedBy_only s before tag; rw [h_]; rfl
@[simp] theorem State.causedBy_window (s : State) (before : State) (tag : Nat) (w_ : Nat) : (s.causedBy before tag).window w_ = s.window w_ := by obtain ⟨_, _, h_⟩ := State.causedBy_only s before tag; rw [h_]; rfl
@[simp] theorem State.causedBy_chan (s : State) (before : State) (tag : Nat) (c_ : Nat) : (s.causedBy before tag).chan c_ = s.chan c_ := by obtain ⟨_, _, h_⟩ := State.causedBy_only s before tag; rw [h_]; rfl
@[simp] theorem State.causedBy_ctx (s : State) (before : State) (tag : Nat) (c_ : Nat) : (s.causedBy before tag).ctx c_ = s.ctx c_ := by obtain ⟨_, _, h_⟩ := State.causedBy_only s before tag; rw [h_]; rfl
@[simp] theorem State.causedBy_engine (s : State) (before : State) (tag : Nat) (e_ : Nat) : (s.causedBy before tag).engine e_ = s.engine e_ := by obtain ⟨_, _, h_⟩ := State.causedBy_only s before tag; rw [h_]; rfl
@[simp] theorem State.causedBy_port (s : State) (before : State) (tag : Nat) (p_ : Nat) : (s.causedBy before tag).port p_ = s.port p_ := by obtain ⟨_, _, h_⟩ := State.causedBy_only s before tag; rw [h_]; rfl
@[simp] theorem State.causedBy_layer (s : State) (before : State) (tag : Nat) (i_ : Nat) : (s.causedBy before tag).layer i_ = s.layer i_ := by obtain ⟨_, _, h_⟩ := State.causedBy_only s before tag; rw [h_]; rfl
@[simp] theorem State.causedBy_head (s : State) (before : State) (tag : Nat) (h_ : Nat) : (s.causedBy before tag).head h_ = s.head h_ := by obtain ⟨_, _, h_⟩ := State.causedBy_only s before tag; rw [h_]; rfl
@[simp] theorem State.causedBy_dpPort (s : State) (before : State) (tag : Nat) (p_ : Nat) : (s.causedBy before tag).dpPort p_ = s.dpPort p_ := by obtain ⟨_, _, h_⟩ := State.causedBy_only s before tag; rw [h_]; rfl
@[simp] theorem State.causedBy_plate (s : State) (before : State) (tag : Nat) (h_ : Nat) : (s.causedBy before tag).plate h_ = s.plate h_ := by obtain ⟨_, _, h_⟩ := State.causedBy_only s before tag; rw [h_]; rfl
@[simp] theorem State.causedBy_session (s : State) (before : State) (tag : Nat) (i_ : Nat) : (s.causedBy before tag).session i_ = s.session i_ := by obtain ⟨_, _, h_⟩ := State.causedBy_only s before tag; rw [h_]; rfl
@[simp] theorem State.causedBy_encoder (s : State) (before : State) (tag : Nat) (e_ : Nat) : (s.causedBy before tag).encoder e_ = s.encoder e_ := by obtain ⟨_, _, h_⟩ := State.causedBy_only s before tag; rw [h_]; rfl
@[simp] theorem State.causedBy_island (s : State) (before : State) (tag : Nat) (i_ : Nat) : (s.causedBy before tag).island i_ = s.island i_ := by obtain ⟨_, _, h_⟩ := State.causedBy_only s before tag; rw [h_]; rfl
@[simp] theorem State.causedBy_dram (s : State) (before : State) (tag : Nat) (c_ : Nat) : (s.causedBy before tag).dram c_ = s.dram c_ := by obtain ⟨_, _, h_⟩ := State.causedBy_only s before tag; rw [h_]; rfl
@[simp] theorem State.causedBy_panel (s : State) (before : State) (tag : Nat) (t_ : Nat) : (s.causedBy before tag).panel t_ = s.panel t_ := by obtain ⟨_, _, h_⟩ := State.causedBy_only s before tag; rw [h_]; rfl
@[simp] theorem State.causedBy_input (s : State) (before : State) (tag : Nat) (i_ : Nat) : (s.causedBy before tag).input i_ = s.input i_ := by obtain ⟨_, _, h_⟩ := State.causedBy_only s before tag; rw [h_]; rfl
@[simp] theorem State.causedBy_output (s : State) (before : State) (tag : Nat) (o_ : Nat) : (s.causedBy before tag).output o_ = s.output o_ := by obtain ⟨_, _, h_⟩ := State.causedBy_only s before tag; rw [h_]; rfl
@[simp] theorem State.causedBy_quad (s : State) (before : State) (tag : Nat) (q_ : Nat) : (s.causedBy before tag).quad q_ = s.quad q_ := by obtain ⟨_, _, h_⟩ := State.causedBy_only s before tag; rw [h_]; rfl
@[simp] theorem State.causedBy_hostBox (s : State) (before : State) (tag : Nat) (n_ : Nat) : (s.causedBy before tag).hostBox n_ = s.hostBox n_ := by obtain ⟨_, _, h_⟩ := State.causedBy_only s before tag; rw [h_]; rfl
@[simp] theorem State.causedBy_farBox (s : State) (before : State) (tag : Nat) (m_ : Nat) : (s.causedBy before tag).farBox m_ = s.farBox m_ := by obtain ⟨_, _, h_⟩ := State.causedBy_only s before tag; rw [h_]; rfl
@[simp] theorem State.causedBy_member (s : State) (before : State) (tag : Nat) (m_ : Nat) : (s.causedBy before tag).member m_ = s.member m_ := by obtain ⟨_, _, h_⟩ := State.causedBy_only s before tag; rw [h_]; rfl
@[simp] theorem State.causedBy_spineLink (s : State) (before : State) (tag : Nat) (l_ : Nat) : (s.causedBy before tag).spineLink l_ = s.spineLink l_ := by obtain ⟨_, _, h_⟩ := State.causedBy_only s before tag; rw [h_]; rfl
@[simp] theorem State.causedBy_cvUnit (s : State) (before : State) (tag : Nat) (u_ : Nat) : (s.causedBy before tag).cvUnit u_ = s.cvUnit u_ := by obtain ⟨_, _, h_⟩ := State.causedBy_only s before tag; rw [h_]; rfl
@[simp] theorem State.causedBy_zeEngine (s : State) (before : State) (tag : Nat) (e_ : Nat) : (s.causedBy before tag).zeEngine e_ = s.zeEngine e_ := by obtain ⟨_, _, h_⟩ := State.causedBy_only s before tag; rw [h_]; rfl
@[simp] theorem State.causedBy_mapOf (s : State) (before : State) (tag : Nat) (r_ : Nat) : (s.causedBy before tag).mapOf r_ = s.mapOf r_ := by obtain ⟨_, _, h_⟩ := State.causedBy_only s before tag; rw [h_]; rfl

end Sys2Proof.Machine
end

