-- ==== Sys2Proof/Laws/Carry.lean ====
section
/-!
SUPPORT. Carrying out a folio, once for every opcode: what its body's answer makes of the state, that its place is free
afterwards, and that its completion record waits in the paired event ring's queue.
-/

namespace Sys2Proof.Machine

/-! ### Where nothing is begun, nothing is begun afterwards -/

theorem cmdQ_modCmdQ (s : State) (k r : Nat) (f : CmdQ → CmdQ) :
    (s.modCmdQ k f).cmdQ r = if k = r ∧ r < s.host.cmdq.length then f (s.cmdQ r) else s.cmdQ r := by
  unfold State.modCmdQ State.cmdQ
  by_cases h : k = r
  · subst h
    by_cases hl : k < s.host.cmdq.length
    · simp [hl]
    · simp [hl]
  · simp [h]

/-- A place that has begun a folio is one of the family. -/
theorem begun_in_range (s : State) (r : Nat) (b : Begun) (h : (s.cmdQ r).begun = some b) : r < s.host.cmdq.length := by
  by_cases hl : r < s.host.cmdq.length
  · exact hl
  · simp [State.cmdQ, List.getD_eq_getElem?_getD, List.getElem?_eq_none (Nat.le_of_not_lt hl), CmdQ.reset] at h

theorem ended_modCmdQ (s : State) (k r : Nat) (f : CmdQ → CmdQ) (hf : ∀ q, q.begun = none → (f q).begun = none) (h : s.ended r) :
    (s.modCmdQ k f).ended r := by
  unfold State.ended at *
  rw [cmdQ_modCmdQ]
  split
  · exact hf _ h
  · exact h

theorem complete_ended (s : State) (k r : Nat) (st : Status) (v : Nat) (h : s.ended r) : (s.complete k st v).ended r := by
  unfold State.complete
  split
  · exact h
  · rename_i b hb
    have h2 := ended_modCmdQ s k r (fun q => { q with begun := none, lastDone := b.cmdSeq }) (fun _ _ => rfl) h
    dsimp only
    split
    · exact h2
    · split
      · exact h2
      · unfold State.ended at h2 ⊢
        rw [State.postCompletion_cmdQ]
        exact h2

theorem complete_ends (s : State) (k : Nat) (st : Status) (v : Nat) : (s.complete k st v).ended k := by
  unfold State.complete
  split
  · assumption
  · rename_i b hb
    have h2 : (s.modCmdQ k fun q => { q with begun := none, lastDone := b.cmdSeq }).ended k := by
      unfold State.ended
      rw [cmdQ_modCmdQ, if_pos ⟨rfl, begun_in_range s k b hb⟩]
    dsimp only
    split
    · exact h2
    · split
      · exact h2
      · unfold State.ended at h2 ⊢
        rw [State.postCompletion_cmdQ]
        exact h2

theorem disableCmd_ended (s : State) (k r : Nat) (h : s.ended r) : (s.disableCmd k).ended r := by
  unfold State.disableCmd
  dsimp only
  split
  · rename_i g _
    have h2 : (s.dropStaged g).ended r := h
    exact ended_modCmdQ _ k r (fun q => { q with groupOpen := none, broken := false }) (fun _ hq => hq) h2
  · exact h

theorem drained_ended (s : State) (k r : Nat) (h : s.ended r) : (s.drained k).ended r := by
  unfold State.drained
  split
  · exact disableCmd_ended s k r h
  · exact h

theorem syncsFrom_ended (s : State) (n r : Nat) (h : s.ended r) : (s.syncsFrom n).ended r := by
  induction n generalizing s with
  | zero => exact h
  | succ n ih =>
    unfold State.syncsFrom
    split
    · exact ih _ (drained_ended _ _ r (complete_ended s _ r .ok 0 h))
    · exact h

theorem releaseSyncs_ended (s : State) (r : Nat) (h : s.ended r) : s.releaseSyncs.ended r := syncsFrom_ended s 48 r h

/-! ### The completion record stays in its queue until it is written -/

/-- Every record that a queue holds stays in it, but for the counts of an EV_LOST. -/
def EvtQ.keeps (p q : EvtQ) : Prop := ∀ x ∈ p.hold, x.lost = false → x ∈ q.hold

theorem EvtQ.keeps_refl (q : EvtQ) : q.keeps q := fun _ h _ => h

theorem EvtQ.keeps_trans {p q r : EvtQ} (h1 : p.keeps q) (h2 : q.keeps r) : p.keeps r := fun x h hl => h2 x (h1 x h hl) hl

theorem accept_keeps (q : EvtQ) (h : Held) (m : Nat) : q.keeps (q.accept h m).1 := by
  intro x hx hl
  unfold EvtQ.accept
  split
  · simp [hx]
  · split
    · simp only [List.mem_map]
      exact ⟨x, hx, by simp [hl]⟩
    · simp [hx]

theorem evtQ_modEvtQ (s : State) (k r : Nat) (f : EvtQ → EvtQ) :
    (s.modEvtQ k f).evtQ r = if k = r ∧ r < s.host.evtq.length then f (s.evtQ r) else s.evtQ r := by
  unfold State.modEvtQ State.evtQ
  by_cases h : k = r
  · subst h
    by_cases hl : k < s.host.evtq.length
    · simp [hl]
    · simp [hl]
  · simp [h]

theorem modEvtQ_keeps (s : State) (k r : Nat) (f : EvtQ → EvtQ) (hf : (s.evtQ r).keeps (f (s.evtQ r))) :
    (s.evtQ r).keeps ((s.modEvtQ k f).evtQ r) := by
  rw [evtQ_modEvtQ]
  split
  · exact hf
  · exact EvtQ.keeps_refl _

theorem enqueue_keeps (s : State) (k r : Nat) (h : Held) : (s.evtQ r).keeps ((s.enqueue k h).evtQ r) := by
  unfold State.enqueue
  generalize (if s.mirroring = true then 1 else 0) = n
  dsimp only
  have h2 : (s.evtQ r).keeps ((s.modEvtQ k fun _ => ((s.evtQ k).accept { h with acks := n } s.top.gatherId.toNat).1).evtQ r) := by
    rw [evtQ_modEvtQ]
    split
    · rename_i hk
      rw [← hk.1]
      exact accept_keeps _ _ _
    · exact EvtQ.keeps_refl _
  split
  · exact h2
  · exact h2

theorem enqueue_evtq_length (s : State) (n : Nat) (h : Held) : (s.enqueue n h).host.evtq.length = s.host.evtq.length := by
  unfold State.enqueue
  generalize (if s.mirroring = true then 1 else 0) = k
  dsimp only
  split <;> simp [State.modEvtQ, State.modRing]

theorem tick_evtq_length (s : State) (n : Nat) : (s.tick n).host.evtq.length = s.host.evtq.length := by
  unfold State.tick
  simp [State.modEvtQ, enqueue_evtq_length]

theorem tick_keeps (s : State) (k r : Nat) : (s.evtQ r).keeps ((s.tick k).evtQ r) := by
  unfold State.tick
  refine EvtQ.keeps_trans (enqueue_keeps s k r (Held.of 0x8111 0 s.tb.dev k s.top.gatherId.toNat (s.tickBody s.tb.dev))) ?_
  refine modEvtQ_keeps _ k r _ fun _ h _ => ?_
  split
  · exact h
  · exact h

theorem postAt_keeps (s : State) (n code tag time r : Nat) (body : List Byte) :
    (s.evtQ r).keeps ((s.postAt n code tag time body).evtQ r) := by
  unfold State.postAt
  split
  · exact EvtQ.keeps_refl _
  · split
    · exact EvtQ.keeps_refl _
    · dsimp only
      split
      · exact EvtQ.keeps_trans (tick_keeps s n r) (enqueue_keeps _ n r _)
      · exact enqueue_keeps s n r _

theorem postAll_keeps (s : State) (ns : List Nat) (code r : Nat) (body : List Byte) :
    (s.evtQ r).keeps ((s.postAll ns code body).evtQ r) := by
  unfold State.postAll
  induction ns generalizing s with
  | nil => exact EvtQ.keeps_refl _
  | cons n ns ih => exact EvtQ.keeps_trans (postAt_keeps s n code 0 s.tb.dev r body) (ih (s.post n code 0 body))

theorem postCompletion_keeps (s : State) (k tag r : Nat) (body : List Byte) (irq : Bool) :
    (s.evtQ r).keeps ((s.postCompletion k tag body irq).evtQ r) := by
  unfold State.postCompletion
  dsimp only
  split
  · refine EvtQ.keeps_trans (tick_keeps s k r) (modEvtQ_keeps _ k r _ ?_)
    intro x hx _
    simp [hx]
  · refine modEvtQ_keeps _ k r _ ?_
    intro x hx _
    simp [hx]

theorem complete_keeps (s : State) (k r : Nat) (st : Status) (v : Nat) : (s.evtQ r).keeps ((s.complete k st v).evtQ r) := by
  unfold State.complete
  split
  · exact EvtQ.keeps_refl _
  · dsimp only
    split
    · exact EvtQ.keeps_refl _
    · split
      · exact EvtQ.keeps_refl _
      · rename_i b _ _ _ _
        exact postCompletion_keeps (s.modCmdQ k fun q => { q with begun := none, lastDone := b.cmdSeq }) k _ r _ _

theorem drained_keeps (s : State) (k r : Nat) : (s.evtQ r).keeps ((s.drained k).evtQ r) := by
  obtain ⟨_, _, _, h⟩ := State.drained_only s k
  rw [h]
  exact EvtQ.keeps_refl _

theorem syncsFrom_keeps (s : State) (n r : Nat) : (s.evtQ r).keeps ((s.syncsFrom n).evtQ r) := by
  induction n generalizing s with
  | zero => exact EvtQ.keeps_refl _
  | succ n ih =>
    unfold State.syncsFrom
    split
    · exact EvtQ.keeps_trans (EvtQ.keeps_trans (complete_keeps s _ r .ok 0) (drained_keeps _ _ r)) (ih _)
    · exact EvtQ.keeps_refl _

theorem releaseSyncs_keeps (s : State) (r : Nat) : (s.evtQ r).keeps (s.releaseSyncs.evtQ r) := syncsFrom_keeps s 48 r

/-- What a queue holds it holds for the host: an answer in it is still in it where the queue is kept. -/
theorem answered_of_keeps {s t : State} {r : Nat} {b : Begun} {st : Status} {v : Nat} (hk : (s.evtQ r).keeps (t.evtQ r))
    (h : ∃ x ∈ (s.evtQ r).hold, x.lost = false ∧ x.comp = true ∧ x.code = 0 ∧ x.tag = BitVec.ofNat 16 b.folio.tag ∧ x.ring = r ∧
      x.body = padTo 16 (compBody st b.folio.opcode b.cmdSeq v)) : t.answered r b st v := by
  obtain ⟨x, hx, hl, h⟩ := h
  exact ⟨x, hk x hx hl, h⟩

/-- The record that a completion posts, where QUIET does not hold it back and the folio is the ring's own (R333, R341). -/
theorem complete_answers (s : State) (r : Nat) (b : Begun) (st : Status) (v : Nat) (hb : (s.cmdQ r).begun = some b)
    (ho : b.origin = none) (hq : bitOf b.folio.flags 0 = false ∨ st ≠ .ok) (hr : r < s.host.evtq.length) :
    ∃ x ∈ ((s.complete r st v).evtQ r).hold, x.lost = false ∧ x.comp = true ∧ x.code = 0 ∧ x.tag = BitVec.ofNat 16 b.folio.tag ∧ x.ring = r ∧
      x.body = padTo 16 (compBody st b.folio.opcode b.cmdSeq v) := by
  have hn : (bitOf b.folio.flags 0 && decide (st = .ok)) = false := by
    rcases hq with h | h <;> simp [h]
  unfold State.complete
  rw [hb]
  dsimp only
  rw [ho]
  dsimp only
  rw [if_neg (by rw [hn]; exact Bool.false_ne_true)]
  unfold State.postCompletion
  dsimp only
  split
  · rw [evtQ_modEvtQ, if_pos ⟨rfl, by rw [tick_evtq_length]; exact hr⟩]
    exact ⟨_, List.mem_append_right _ (List.mem_singleton.2 rfl), rfl, rfl, rfl, rfl, rfl, rfl⟩
  · rw [evtQ_modEvtQ, if_pos ⟨rfl, hr⟩]
    exact ⟨_, List.mem_append_right _ (List.mem_singleton.2 rfl), rfl, rfl, rfl, rfl, rfl, rfl⟩

/-! ### The whole end of a folio -/

/-- The unit that the folio needs is not isolated. -/
theorem hasFolio_up {s : State} {slot op i : Nat} {b : Begun} (h : s.hasFolio slot op b) (hu : unitOf op = some i) :
    (s.island i).isolated = false := by simpa [hu] using h.2.2.2.2

/-- A folio's body that completes: the folio's end, whatever its opcode (R336, R341, R343). -/
theorem runFolio_done {s s' : State} {slot op v : Nat} {b : Begun} {st : Status} {after : State → State} {body : FCtx → State → FRes}
    (h : s.hasFolio slot op b) (hb : body (s.fctx slot b) s = .done st v s' after) :
    s.runFolio slot op body = (s'.finish slot st v after).causedBy s b.folio.tag := by
  have hg : (FRes.done st v s' after).guardUnit op s = .done st v s' after := by
    unfold FRes.guardUnit
    cases hu : unitOf op with
    | none => cases st <;> rfl
    | some i => cases st <;> simp [hasFolio_up h hu]
  unfold State.runFolio
  rw [h.1]
  dsimp only
  rw [if_pos ⟨h.2.1, h.2.2.1⟩, h.2.2.2.1, hb]
  simp only [if_true, hg]
  rfl

/-- A folio with an unnamed parameter byte that is not zero: it ends with E_PARAM, whatever its body (R14; log entry 16). -/
theorem runFolio_unnamed {s : State} {slot op : Nat} {b : Begun} {body : FCtx → State → FRes} (hb : (s.cmdQ slot).begun = some b)
    (hw : b.wait = .run) (ho : b.folio.opcode = op) (hr : b.folio.reservedOk = false) :
    s.runFolio slot op body = (s.finish slot .param 0 id).causedBy s b.folio.tag := by
  unfold State.runFolio
  rw [hb]
  dsimp only
  rw [if_pos ⟨hw, ho⟩, hr]
  rfl

/-- A folio's body that waits (R338). -/
theorem runFolio_wait {s s' : State} {slot op : Nat} {b : Begun} {w : Wait} {body : FCtx → State → FRes}
    (h : s.hasFolio slot op b) (hb : body (s.fctx slot b) s = .wait w s') :
    s.runFolio slot op body =
      (s'.modCmdQ slot fun q => { q with begun := q.begun.map fun b => { b with wait := w } }).releaseSyncs.causedBy s b.folio.tag := by
  have hg : (FRes.wait w s').guardUnit op s = .wait w s' := by
    unfold FRes.guardUnit
    cases hu : unitOf op with
    | none => rfl
    | some i => simp [hasFolio_up h hu]
  unfold State.runFolio
  rw [h.1]
  dsimp only
  rw [if_pos ⟨h.2.1, h.2.2.1⟩, h.2.2.2.1, hb]
  simp only [if_true, hg]
  rfl

/-- After a folio's end its place is free, where the events it causes leave the places alone. -/
theorem finish_ended (s : State) (slot v : Nat) (st : Status) (after : State → State)
    (ha : ∀ t, t.ended slot → (after t).ended slot) : (s.finish slot st v after).ended slot := by
  unfold State.finish
  exact releaseSyncs_ended _ _ (drained_ended _ _ _ (ha _ (complete_ends _ _ _ _)))

theorem markBroken_begun (s : State) (k : Nat) (st : Status) : ((s.markBroken k st).cmdQ k).begun = (s.cmdQ k).begun := by
  unfold State.markBroken
  split
  · split
    · rw [cmdQ_modCmdQ]
      split <;> rfl
    · rfl
  · rfl

/-- After a folio's end its completion record waits in the paired event queue. -/
theorem finish_answers (s : State) (r v : Nat) (b : Begun) (st : Status) (after : State → State) (hb : (s.cmdQ r).begun = some b)
    (ho : b.origin = none) (hq : bitOf b.folio.flags 0 = false ∨ st ≠ .ok) (hr : r < s.host.evtq.length)
    (ha : ∀ t : State, (t.evtQ r).keeps ((after t).evtQ r)) : (s.finish r st v after).answered r b st v := by
  unfold State.finish
  refine answered_of_keeps ?_ (complete_answers (s.rateIslands.markBroken r st) r b st v ?_ ho hq ?_)
  · exact EvtQ.keeps_trans (ha _) (EvtQ.keeps_trans (drained_keeps _ r r) (releaseSyncs_keeps _ r))
  · rw [markBroken_begun, State.rateIslands_cmdQ]
    exact hb
  · simpa using hr

theorem post_ended (s : State) (n code tag slot : Nat) (body : List Byte) (h : s.ended slot) : (s.post n code tag body).ended slot := by
  unfold State.ended at *
  simpa using h

theorem postAll_ended (s : State) (ns : List Nat) (code slot : Nat) (body : List Byte) (h : s.ended slot) :
    (s.postAll ns code body).ended slot := by
  unfold State.ended at *
  simpa using h

/-! ### The TAG of the records that a folio causes (R341) -/

/-- A holding queue after the records of a folio's work are given its TAG. -/
theorem causedBy_evtQ (s before : State) (tag n : Nat) : (s.causedBy before tag).evtQ n =
    { s.evtQ n with hold := (s.evtQ n).hold.mapIdx fun i h => if i < (before.evtQ n).hold.length then h else h.tagged tag } := by
  unfold State.causedBy State.evtQ
  simp only [List.getD_eq_getElem?_getD, List.getElem?_mapIdx]
  cases h : s.host.evtq[n]? with
  | none => rfl
  | some q => rfl

/-- Records that were there keep their TAG; those that the work has appended are given the folio's. -/
theorem causedBy_hold (s before : State) (tag n : Nat) (l : List Held) (h : (s.evtQ n).hold = (before.evtQ n).hold ++ l) :
    ((s.causedBy before tag).evtQ n).hold = (before.evtQ n).hold ++ l.map fun x => x.tagged tag := by
  rw [causedBy_evtQ, h]
  apply List.ext_getElem?
  intro i
  rw [List.getElem?_mapIdx]
  by_cases hi : i < (before.evtQ n).hold.length
  · simp [List.getElem?_append_left hi, hi]
  · rw [List.getElem?_append_right (by omega), List.getElem?_append_right (by omega), List.getElem?_map]
    simp [hi]

/-- A completion record has the TAG of its own folio. -/
theorem tagged_comp (h : Held) (tag : Nat) (hc : h.comp = true) : h.tagged tag = h := by simp [Held.tagged, hc]

@[simp] theorem causedBy_evtq_length (s before : State) (tag : Nat) : (s.causedBy before tag).host.evtq.length = s.host.evtq.length := by
  simp [State.causedBy]

theorem causedBy_ended (s before : State) (tag slot : Nat) (h : s.ended slot) : (s.causedBy before tag).ended slot := h

theorem causedBy_answered {s : State} (before : State) (tag : Nat) {r v : Nat} {b : Begun} {st : Status} (h : s.answered r b st v) :
    (s.causedBy before tag).answered r b st v := by
  obtain ⟨x, hx, hc, hr⟩ := h
  refine ⟨x, ?_, hc, hr⟩
  rw [causedBy_evtQ]
  obtain ⟨i, hi, e⟩ := List.mem_iff_getElem.1 hx
  refine List.mem_iff_getElem.2 ⟨i, by simpa using hi, ?_⟩
  simp [e, tagged_comp x tag hc]

/-! ### Frames -/

@[simp] theorem causedBy_bare (s before : State) (tag : Nat) : (s.causedBy before tag).bare = s.bare := rfl

@[simp] theorem rateIslands_bare (s : State) : s.rateIslands.bare = s.bare := by
  obtain ⟨_, h⟩ := State.rateIslands_only s
  rw [h]
  rfl

@[simp] theorem markBroken_bare (s : State) (k : Nat) (st : Status) : (s.markBroken k st).bare = s.bare := by
  obtain ⟨_, h⟩ := State.markBroken_only s k st
  rw [h]
  rfl

@[simp] theorem complete_bare (s : State) (k v : Nat) (st : Status) : (s.complete k st v).bare = s.bare := by
  obtain ⟨_, _, _, _, _, h⟩ := State.complete_only s k st v
  rw [h]
  rfl

@[simp] theorem drained_bare (s : State) (k : Nat) : (s.drained k).bare = s.bare := by
  obtain ⟨_, _, _, h⟩ := State.drained_only s k
  rw [h]
  rfl

@[simp] theorem releaseSyncs_bare (s : State) : s.releaseSyncs.bare = s.bare := by
  obtain ⟨_, _, _, _, _, _, h⟩ := State.releaseSyncs_only s
  rw [h]
  rfl

@[simp] theorem postAt_bare (s : State) (n code tag time : Nat) (body : List Byte) : (s.postAt n code tag time body).bare = s.bare := by
  obtain ⟨_, _, _, h⟩ := State.postAt_only s n code tag time body
  rw [h]
  rfl

@[simp] theorem post_bare (s : State) (n code tag : Nat) (body : List Byte) : (s.post n code tag body).bare = s.bare := postAt_bare ..

@[simp] theorem postAll_bare (s : State) (ns : List Nat) (code : Nat) (body : List Byte) : (s.postAll ns code body).bare = s.bare := by
  obtain ⟨_, _, _, h⟩ := State.postAll_only s ns code body
  rw [h]
  rfl

@[simp] theorem raise_bare (s : State) (src : Nat) : (s.raise src).bare = s.bare := by
  obtain ⟨_, h⟩ := State.raise_only s src
  rw [h]
  rfl

@[simp] theorem modCmdQ_bare (s : State) (r : Nat) (f : CmdQ → CmdQ) : (s.modCmdQ r f).bare = s.bare := rfl
@[simp] theorem modEvtQ_bare (s : State) (r : Nat) (f : EvtQ → EvtQ) : (s.modEvtQ r f).bare = s.bare := rfl
@[simp] theorem modRing_bare (s : State) (r : Nat) (f : Ring → Ring) : (s.modRing r f).bare = s.bare := rfl
@[simp] theorem modIsland_bare (s : State) (i : Nat) (f : Island → Island) : (s.modIsland i f).bare = s.bare := rfl

/-- A folio's end leaves the bare state as the events it causes leave it. -/
theorem finish_bare (s : State) (slot v : Nat) (st : Status) (after : State → State) (ha : ∀ t, (after t).bare = t.bare) :
    (s.finish slot st v after).bare = s.bare := by
  simp [State.finish, ha]

theorem kept_refl (s : State) (but : List Part) : s.kept s but := by simp [State.kept]

/-- What has the same bare state as another is kept as that one is. -/
theorem kept_of_bare {s t u : State} {but : List Part} (h : u.bare = t.bare) (hk : s.kept t but) : s.kept u but := by
  have e (f : State → Prop) : f t.bare → f u.bare := fun x => h ▸ x
  obtain ⟨h1, h2, h3, h4, h5, h6, h7, h8, h9, h10, h11, h12, h13, h14, h15, h16, h17, h18, h19, h20⟩ := hk
  exact ⟨e (fun x => _ → x.tb = s.tb) h1, e (fun x => _ → x.top = s.top) h2, by rw [h]; exact h3,
    e (fun x => _ → x.net = s.net) h4, e (fun x => _ → x.dec = s.dec) h5, by rw [h]; exact h6, e (fun x => _ → x.enc = s.enc) h7,
    by rw [h]; exact h8, e (fun x => _ → x.store = s.store) h9, e (fun x => _ → x.sec = s.sec) h10, e (fun x => _ → x.mail = s.mail) h11,
    by rw [h]; exact h12, e (fun x => _ → x.twin = s.twin) h13, e (fun x => _ → x.desk = s.desk) h14, e (fun x => _ → x.pwr = s.pwr) h15,
    e (fun x => _ → x.lanes = s.lanes) h16, e (fun x => _ → x.flt = s.flt) h17, e (fun x => _ → x.svc = s.svc) h18,
    e (fun x => _ → x.jrn = s.jrn) h19, e (fun x => x.pending = s.pending) h20⟩

/-! ### What a row is once its body's answer is known -/

theorem hasFolio_elapse {s : State} {slot op : Nat} {b : Begun} (dt : Nat) (h : s.hasFolio slot op b) : (s.elapse dt).hasFolio slot op b :=
  h

@[simp] theorem fctx_elapse (s : State) (dt slot : Nat) (b : Begun) : (s.elapse dt).fctx slot b = s.fctx slot b := rfl

/-- Events that leave the folios in hand, the records held and the bare state as they are. -/
structure Quiet (after : State → State) : Prop where
  ends  : ∀ t slot, t.ended slot → (after t).ended slot
  keeps : ∀ (t : State) r, (t.evtQ r).keeps ((after t).evtQ r)
  bare  : ∀ t, (after t).bare = t.bare

theorem quiet_id : Quiet id := ⟨fun _ _ h => h, fun _ _ => EvtQ.keeps_refl _, fun _ => rfl⟩

theorem quiet_post (n code tag : Nat) (body : List Byte) : Quiet fun t => t.post n code tag body :=
  ⟨fun _ _ h => post_ended _ _ _ _ _ _ h, fun _ _ => postAt_keeps _ _ _ _ _ _ _, fun _ => post_bare ..⟩

theorem quiet_postAll (ns : List Nat) (code : Nat) (body : List Byte) : Quiet fun t => t.postAll ns code body :=
  ⟨fun _ _ h => postAll_ended _ _ _ _ _ h, fun _ _ => postAll_keeps _ _ _ _ _, fun _ => postAll_bare ..⟩

/-- The row of a folio whose body completes (R336, R341). -/
theorem completes_of {i : Instr} {s s' : State} {dt slot op v : Nat} {b : Begun} {st : Status} {after : State → State}
    {body : FCtx → State → FRes} {but : List Part} {post : State → Prop}
    (hx : exec i s = .next ((s.elapse dt).runFolio slot op body)) (h : s.hasFolio slot op b)
    (hb : body (s.fctx slot b) (s.elapse dt) = .done st v s' after) (hc : s'.cmdQ slot = s.cmdQ slot)
    (hl : s'.host.evtq.length = s.host.evtq.length) (ha : Quiet after) (hk : (s.elapse dt).kept s' but)
    (hp : post ((s'.finish slot st v after).causedBy (s.elapse dt) b.folio.tag)) : completes i s dt slot b st v but post := by
  refine ⟨(s'.finish slot st v after).causedBy (s.elapse dt) b.folio.tag, ?_,
    causedBy_ended _ _ _ _ (finish_ended _ _ _ _ _ (fun t => ha.ends t slot)), ?_,
    kept_of_bare ((causedBy_bare ..).trans (finish_bare _ _ _ _ _ ha.bare)) hk, hp⟩
  · rw [hx, runFolio_done (hasFolio_elapse dt h) (by simpa using hb)]
  · intro hr hd
    exact causedBy_answered _ _ (finish_answers s' slot v b st after (by rw [hc]; exact h.1) hd.1 hd.2 (by omega) (fun t => ha.keeps t slot))

/-- A folio that waits is not ended by the SYNCs that go on. -/
theorem complete_other_begun (s : State) (k r v : Nat) (st : Status) (h : k ≠ r) :
    ((s.complete k st v).cmdQ r).begun = (s.cmdQ r).begun := by
  unfold State.complete
  split
  · rfl
  · rename_i b _
    have h2 : ((s.modCmdQ k fun q => { q with begun := none, lastDone := b.cmdSeq }).cmdQ r).begun = (s.cmdQ r).begun := by
      rw [cmdQ_modCmdQ, if_neg (fun x => h x.1)]
    dsimp only
    split
    · exact h2
    · split
      · exact h2
      · rw [State.postCompletion_cmdQ]
        exact h2

theorem drained_begun (s : State) (k r : Nat) : ((s.drained k).cmdQ r).begun = (s.cmdQ r).begun := by
  unfold State.drained
  split
  · unfold State.disableCmd
    dsimp only
    split
    · rename_i g _
      show (((s.dropStaged g).modCmdQ k _).cmdQ r).begun = _
      rw [cmdQ_modCmdQ]
      split <;> rfl
    · rfl
  · rfl

theorem nextSync_is_sync (s : State) (r : Nat) (b : Begun) (h : s.nextSync = some r) (hb : (s.cmdQ r).begun = some b) : b.wait = .sync := by
  have := List.find?_some h
  simp only [hb, Bool.and_eq_true, decide_eq_true_eq] at this
  exact this.1

theorem syncsFrom_begun (s : State) (n r : Nat) (b : Begun) (hb : (s.cmdQ r).begun = some b) (hw : b.wait ≠ .sync) :
    ((s.syncsFrom n).cmdQ r).begun = some b := by
  induction n generalizing s with
  | zero => exact hb
  | succ n ih =>
    unfold State.syncsFrom
    split
    · rename_i k hk
      apply ih
      have hne : k ≠ r := by
        intro e
        subst e
        exact hw (nextSync_is_sync s _ b hk hb)
      rw [drained_begun, complete_other_begun _ _ _ _ _ hne]
      exact hb
    · exact hb

/-- The row of a folio whose body waits (R338). -/
theorem waits_of {i : Instr} {s s' : State} {dt slot op : Nat} {b : Begun} {w : Wait} {body : FCtx → State → FRes} {but : List Part}
    {post : State → Prop} (hx : exec i s = .next ((s.elapse dt).runFolio slot op body)) (h : s.hasFolio slot op b)
    (hb : body (s.fctx slot b) (s.elapse dt) = .wait w s') (hc : s'.cmdQ slot = s.cmdQ slot)
    (hn : s'.host.cmdq.length = s.host.cmdq.length) (hw : w ≠ .sync) (hk : (s.elapse dt).kept s' but)
    (hp : post ((s'.modCmdQ slot fun q => { q with begun := q.begun.map fun b => { b with wait := w } }).releaseSyncs.causedBy (s.elapse dt)
      b.folio.tag)) :
    waits i s dt slot b w but post := by
  refine ⟨_, ?_, ?_, kept_of_bare ?_ hk, hp⟩
  · rw [hx, runFolio_wait (hasFolio_elapse dt h) (by simpa using hb)]
  · apply syncsFrom_begun
    · rw [cmdQ_modCmdQ, if_pos ⟨rfl, by rw [hn]; exact begun_in_range s slot b h.1⟩, hc, h.1]
      rfl
    · exact hw
  · simp

/-! ### The same as conditions on the body's answer, for `simp` to work out -/

/-- The body's answer completes with this status and RESULT, and `Q` holds of its state and events. -/
def FRes.ends (r : FRes) (st : Status) (v : Nat) (Q : State → (State → State) → Prop) : Prop :=
  match r with
  | .done st' v' s' after => st' = st ∧ v' = v ∧ Q s' after
  | .wait _ _ => False

/-- The body's answer waits, and `Q` holds of its state. -/
def FRes.holds (r : FRes) (w : Wait) (Q : State → Prop) : Prop :=
  match r with
  | .done _ _ _ _ => False
  | .wait w' s' => w' = w ∧ Q s'

@[simp] theorem ends_done (st st' : Status) (v v' : Nat) (s' : State) (after : State → State) (Q : State → (State → State) → Prop) :
    (FRes.done st' v' s' after).ends st v Q ↔ st' = st ∧ v' = v ∧ Q s' after := Iff.rfl

@[simp] theorem ends_ok (st : Status) (v : Nat) (s' : State) (Q : State → (State → State) → Prop) :
    (FRes.ok s').ends st v Q ↔ Status.ok = st ∧ 0 = v ∧ Q s' id := Iff.rfl

@[simp] theorem holds_wait (w w' : Wait) (s' : State) (Q : State → Prop) : (FRes.wait w' s').holds w Q ↔ w' = w ∧ Q s' := Iff.rfl

@[simp] theorem firstBad_nil : firstBad [] = none := rfl
@[simp] theorem firstBad_cons (c : Bool) (st : Status) (l : List (Bool × Status)) :
    firstBad ((c, st) :: l) = if c then firstBad l else some st := rfl

@[simp] theorem checks_none (l : List (Bool × Status)) (s : State) (k : FRes) (h : firstBad l = none) : FRes.checks l s k = k := by
  simp [FRes.checks, h]

theorem completes_of_ends {i : Instr} {s : State} {dt slot op v : Nat} {b : Begun} {st : Status} {body : FCtx → State → FRes}
    {but : List Part} {post : State → Prop} (hx : exec i s = .next ((s.elapse dt).runFolio slot op body)) (h : s.hasFolio slot op b)
    (hb : (body (s.fctx slot b) (s.elapse dt)).ends st v fun s' after => s'.cmdQ slot = s.cmdQ slot ∧
      s'.host.evtq.length = s.host.evtq.length ∧ Quiet after ∧ (s.elapse dt).kept s' but ∧
      post ((s'.finish slot st v after).causedBy (s.elapse dt) b.folio.tag)) :
    completes i s dt slot b st v but post := by
  cases hr : body (s.fctx slot b) (s.elapse dt) with
  | wait w s' => rw [hr] at hb; exact hb.elim
  | done st' v' s' after =>
    rw [hr] at hb
    obtain ⟨e1, e2, hc, hl, ha, hk, hp⟩ := hb
    subst e1 e2
    exact completes_of hx h hr hc hl ha hk hp

theorem waits_of_holds {i : Instr} {s : State} {dt slot op : Nat} {b : Begun} {w : Wait} {body : FCtx → State → FRes}
    {but : List Part} {post : State → Prop} (hx : exec i s = .next ((s.elapse dt).runFolio slot op body)) (h : s.hasFolio slot op b)
    (hw : w ≠ .sync) (hb : (body (s.fctx slot b) (s.elapse dt)).holds w fun s' => s'.cmdQ slot = s.cmdQ slot ∧
      s'.host.cmdq.length = s.host.cmdq.length ∧ (s.elapse dt).kept s' but ∧
      post ((s'.modCmdQ slot fun q => { q with begun := q.begun.map fun b => { b with wait := w } }).releaseSyncs.causedBy (s.elapse dt)
        b.folio.tag)) :
    waits i s dt slot b w but post := by
  cases hr : body (s.fctx slot b) (s.elapse dt) with
  | done st' v' s' after => rw [hr] at hb; exact hb.elim
  | wait w' s' =>
    rw [hr] at hb
    obtain ⟨e1, hc, hn, hk, hp⟩ := hb
    subst e1
    exact waits_of hx h hr hc hn hw hk hp

end Sys2Proof.Machine
end

