-- ==== Sys2Proof/Laws/Memory.lean ====
section
/-!
SUPPORT. The laws of the sparse memory, and of the store's writes and reads over it: a read after a write, and that every operation keeps
the canonical form.
-/

namespace Sys2Proof

namespace Mem

/-- Every listed address lies above `a`. -/
def above (a : Nat) (m : Mem) : Bool := m.all fun c => decide (a < c.1)

theorem wf_cons (a : Nat) (b : Byte) (m : Mem) : wf ((a, b) :: m) = (above a m && (b != unlisted) && wf m) := by
  induction m generalizing a b with
  | nil => simp [wf, above]
  | cons c m ih =>
    obtain ⟨a', b'⟩ := c
    have step : wf ((a, b) :: (a', b') :: m) = (decide (a < a') && (b != unlisted) && wf ((a', b') :: m)) := rfl
    rw [step, ih]
    by_cases h : a < a'
    · have mono : above a' m = true → above a m = true := by
        simp only [above, List.all_eq_true, decide_eq_true_eq]
        exact fun hm x hx => Nat.lt_trans h (hm x hx)
      have split_above : above a ((a', b') :: m) = above a m := by simp [above, h]
      rw [split_above]
      cases hm : above a' m
      · cases above a m <;> cases (b != unlisted) <;> simp [h]
      · simp [mono hm, h]
    · simp [above, h]

/-- An address below every listed one reads as an unlisted one does. -/
theorem read_of_above (m : Mem) (a x : Nat) (h : above a m = true) (hx : x ≤ a) : read m x = unlisted := by
  induction m with
  | nil => rfl
  | cons c m ih =>
    obtain ⟨a', b'⟩ := c
    simp only [above, List.all_cons, Bool.and_eq_true, decide_eq_true_eq] at h
    have hne : x ≠ a' := by omega
    simp only [read, hne, if_false]
    exact ih (by simpa [above] using h.2)

/-- The byte written reads back. -/
theorem read_write_self (m : Mem) (a : Nat) (b : Byte) (h : wf m = true) : read (write m a b) a = b := by
  induction m with
  | nil =>
    simp only [write]
    split
    · simp [read, *]
    · simp [read]
  | cons c m ih =>
    obtain ⟨a', b'⟩ := c
    rw [wf_cons] at h
    simp only [Bool.and_eq_true] at h
    have low : ∀ x, x ≤ a' → read m x = unlisted := fun x hx => read_of_above m a' x h.1.1 hx
    simp only [write]
    split
    · rename_i hlt
      split
      · rename_i hb
        have hne : a ≠ a' := by omega
        simp [read, hne, low a (by omega), hb]
      · simp [read]
    · split
      · rename_i heq
        split
        · rename_i hb
          rw [low a (by omega), hb]
        · simp [read]
      · rename_i hne
        simp [read, hne, ih h.2]

/-- Every other byte reads as before. -/
theorem read_write_other (m : Mem) (a x : Nat) (b : Byte) (h : wf m = true) (hx : x ≠ a) : read (write m a b) x = read m x := by
  induction m with
  | nil =>
    simp only [write]
    split
    · rfl
    · simp [read, hx]
  | cons c m ih =>
    obtain ⟨a', b'⟩ := c
    rw [wf_cons] at h
    simp only [Bool.and_eq_true] at h
    have low : ∀ x, x ≤ a' → read m x = unlisted := fun x hx => read_of_above m a' x h.1.1 hx
    simp only [write]
    split
    · split <;> simp [read, hx]
    · split
      · rename_i heq
        split
        · rw [show read ((a', b') :: m) x = read m x by simp [read, show x ≠ a' by omega]]
        · simp [read, hx, show x ≠ a' by omega]
      · by_cases hxa : x = a' <;> simp [read, hxa]
        exact ih h.2

theorem above_write (m : Mem) (a x : Nat) (b : Byte) (h : above x m = true) (hx : x < a) : above x (write m a b) = true := by
  induction m with
  | nil =>
    simp only [write]
    split <;> simp [above, hx]
  | cons c m ih =>
    obtain ⟨a', b'⟩ := c
    simp only [above, List.all_cons, Bool.and_eq_true, decide_eq_true_eq] at h ih ⊢
    simp only [write]
    split
    · split <;> simp [hx, h.1] <;> simpa using h.2
    · split
      · split <;> simp [hx] <;> simpa using h.2
      · simp only [List.all_cons, Bool.and_eq_true, decide_eq_true_eq]
        exact ⟨h.1, ih h.2⟩

/-- A write keeps the form. -/
theorem wf_write (m : Mem) (a : Nat) (b : Byte) (h : wf m = true) : wf (write m a b) = true := by
  induction m with
  | nil =>
    simp only [write]
    split
    · rfl
    · simp [wf, *]
  | cons c m ih =>
    obtain ⟨a', b'⟩ := c
    have hm := h
    rw [wf_cons] at hm
    simp only [Bool.and_eq_true] at hm
    simp only [write]
    split
    · rename_i hlt
      split
      · exact h
      · rename_i hb
        show (decide (a < a') && (b != unlisted) && wf ((a', b') :: m)) = true
        simp [hlt, hb, h]
    · split
      · rename_i heq
        split
        · exact hm.2
        · rename_i hb
          rw [wf_cons, heq]
          simp [hm.1.1, hm.2, hb]
      · rename_i hlt hne
        rw [wf_cons, ih hm.2, above_write m a a' b hm.1.1 (by omega), hm.1.2]
        rfl

/-- A write of several bytes keeps the form. -/
theorem wf_writeN (bs : List Byte) (m : Mem) (a : Nat) (h : wf m = true) : wf (writeN m a bs) = true := by
  induction bs generalizing m a with
  | nil => exact h
  | cons b bs ih => exact ih _ _ (wf_write m a b h)

/-- A byte outside those written reads as before. -/
theorem read_writeN_other (bs : List Byte) (m : Mem) (a x : Nat) (h : wf m = true) (hx : x < a ∨ a + bs.length ≤ x) :
    read (writeN m a bs) x = read m x := by
  induction bs generalizing m a with
  | nil => rfl
  | cons b bs ih =>
    simp only [List.length_cons] at hx
    show read (writeN (write m a b) (a + 1) bs) x = read m x
    rw [ih _ _ (wf_write m a b h) (by omega), read_write_other m a x b h (by omega)]

/-- The bytes written read back. -/
theorem read_writeN_at (bs : List Byte) (m : Mem) (a i : Nat) (h : wf m = true) (hi : i < bs.length) :
    read (writeN m a bs) (a + i) = bs.getD i 0 := by
  induction bs generalizing m a i with
  | nil => simp at hi
  | cons b bs ih =>
    show read (writeN (write m a b) (a + 1) bs) (a + i) = _
    cases i with
    | zero =>
      rw [read_writeN_other bs _ _ _ (wf_write m a b h) (by omega), Nat.add_zero, read_write_self m a b h]
      simp
    | succ i =>
      rw [show a + (i + 1) = a + 1 + i by omega, ih _ _ i (wf_write m a b h) (by simpa using hi)]
      simp

/-- The span written reads back whole. -/
theorem readN_writeN (bs : List Byte) (m : Mem) (a : Nat) (h : wf m = true) : readN (writeN m a bs) a bs.length = bs := by
  apply List.ext_getElem
  · simp [readN]
  · intro i h1 h2
    simp only [readN, List.getElem_map, List.getElem_range]
    rw [read_writeN_at bs m a i h h2]
    simp [List.getD_eq_getElem?_getD, h2]

/-- What is put into the form has it. -/
theorem wf_canon (m : Mem) : wf (canon m) = true := by
  have h : ∀ (l : Mem) (x : Mem), wf x = true → wf (l.foldl (fun x c => write x c.1 c.2) x) = true := by
    intro l
    induction l with
    | nil => exact fun _ hx => hx
    | cons c l ih => exact fun x hx => ih _ (wf_write x c.1 c.2 hx)
  exact h m [] rfl

theorem above_filter (p : Host.Cell → Bool) (m : Mem) (a : Nat) (h : above a m = true) : above a (m.filter p) = true := by
  simp only [above, List.all_eq_true, List.mem_filter] at h ⊢
  exact fun x hx => h x hx.1

/-- Leaving entries out keeps the form. -/
theorem wf_filter (p : Host.Cell → Bool) (m : Mem) (h : wf m = true) : wf (m.filter p) = true := by
  induction m with
  | nil => rfl
  | cons c m ih =>
    obtain ⟨a, b⟩ := c
    rw [wf_cons] at h
    simp only [Bool.and_eq_true] at h
    simp only [List.filter_cons]
    split
    · rw [wf_cons, ih h.2, above_filter p m a h.1.1, h.1.2]
      rfl
    · exact ih h.2

/-- A wipe keeps the form. -/
theorem wf_clear (m : Mem) (a n : Nat) (h : wf m = true) : wf (clear m a n) = true := wf_filter _ m h

/-- What an address reads as once entries are left out: as before where its entry stays, else as an unlisted one. -/
theorem read_filter (q : Nat → Bool) (m : Mem) (x : Nat) : read (m.filter fun c => q c.1) x = if q x then read m x else unlisted := by
  induction m with
  | nil => simp [read]
  | cons c m ih =>
    obtain ⟨a, b⟩ := c
    simp only [List.filter_cons]
    by_cases hx : x = a
    · cases ha : q a <;> simp [ha, read, hx]
      rw [← hx, ih, hx, ha]; rfl
    · cases ha : q a <;> simp [read, hx, ih]

/-- A wiped byte reads as zero, every other as before (R401). -/
theorem read_clear (m : Mem) (a n x : Nat) : read (clear m a n) x = if a ≤ x ∧ x < a + n then unlisted else read m x := by
  rw [clear, read_filter (fun y => !(decide (a ≤ y) && decide (y < a + n)))]
  by_cases h1 : a ≤ x <;> by_cases h2 : x < a + n <;> simp [h1, h2]

end Mem

namespace Machine

/-! ### Bytes -/

theorem length_padTo (n : Nat) (l : List Byte) : (padTo n l).length = n := by simp [padTo]; omega

/-! ### What came earlier takes effect (R42, R383) -/

@[simp] theorem putBlock_ch (x : Store) (a : Nat) (bs : List Byte) : (x.putBlock a bs).ch = x.ch := rfl

theorem putBlock_wf (x : Store) (a : Nat) (bs : List Byte) (h : x.mem.wf = true) : (x.putBlock a bs).mem.wf = true :=
  Mem.wf_writeN bs x.mem a h

theorem putBlock_damaged (x : Store) (a b : Nat) (bs : List Byte) (h : x.damagedAt b = false) : (x.putBlock a bs).damagedAt b = false := by
  simp only [Store.damagedAt, Store.putBlock, List.any_eq_false, List.mem_filter] at h ⊢
  exact fun d hd => h d hd.1

/-- Every request of a queue that a span concerns has taken effect. -/
def settled (p : Nat → Bool) (l : List StoreReq) : Prop := ∀ q ∈ l, q.landed = true ∨ p q.addr = false

/-- What landing a queue keeps and makes: the form, the channels, an undamaged block, every byte but those of the blocks concerned; and the
queue is settled, empty where it was. -/
theorem landReqs_spec (p : Nat → Bool) (l : List StoreReq) (x : Store) (h : x.mem.wf = true) :
    (x.landReqs p l).2.mem.wf = true ∧ (x.landReqs p l).2.ch = x.ch ∧ settled p (x.landReqs p l).1 ∧
    (x.landReqs p l).1.isEmpty = l.isEmpty ∧ (∀ b, x.damagedAt b = false → (x.landReqs p l).2.damagedAt b = false) ∧
    ∀ y, (∀ b, p b = true → y < b ∨ b + 256 ≤ y) → (x.landReqs p l).2.mem.read y = x.mem.read y := by
  induction l generalizing x with
  | nil => exact ⟨h, rfl, by simp [settled, Store.landReqs], rfl, fun _ hb => hb, fun _ _ => rfl⟩
  | cons q l ih =>
    unfold Store.landReqs
    split
    · rename_i hq
      obtain ⟨h1, h2, h3, _, h5, h6⟩ := ih x h
      refine ⟨h1, h2, ?_, rfl, h5, h6⟩
      intro r hr
      rcases List.mem_cons.1 hr with e | hr
      · subst e
        cases hl : r.landed <;> simp [hl] at hq ⊢
        exact hq
      · exact h3 r hr
    · rename_i hq
      have hp : p q.addr = true := by
        cases hp : p q.addr <;> simp [hp] at hq ⊢
      split
      · obtain ⟨h1, h2, h3, _, h5, h6⟩ := ih (x.putBlock q.addr (padTo 256 q.data)) (putBlock_wf _ _ _ h)
        refine ⟨h1, h2, ?_, rfl, fun b hb => h5 b (putBlock_damaged _ _ _ _ hb), ?_⟩
        · intro r hr
          rcases List.mem_cons.1 hr with e | hr
          · exact Or.inl (by rw [e])
          · exact h3 r hr
        · intro y hy
          refine (h6 y hy).trans (Mem.read_writeN_other _ _ _ _ h ?_)
          rw [length_padTo]
          exact hy _ hp
      · obtain ⟨h1, h2, h3, _, h5, h6⟩ := ih x h
        refine ⟨h1, h2, ?_, rfl, h5, h6⟩
        intro r hr
        rcases List.mem_cons.1 hr with e | hr
        · exact Or.inl (by rw [e])
        · exact h3 r hr

/-- A settled queue lands nothing more. -/
theorem landReqs_settled (p : Nat → Bool) (l : List StoreReq) (x : Store) (h : settled p l) : x.landReqs p l = (l, x) := by
  induction l with
  | nil => rfl
  | cons q l ih =>
    have hq : (q.landed || !p q.addr) = true := by
      rcases h q (List.mem_cons_self ..) with e | e <;> simp [e]
    unfold Store.landReqs
    rw [if_pos hq, ih fun r hr => h r (List.mem_cons_of_mem _ hr)]

/-- The same over the channels. -/
theorem landChans_spec (p : Nat → Bool) (l : List DramChannel) (x : Store) (h : x.mem.wf = true) :
    (x.landChans p l).2.mem.wf = true ∧ (∀ c ∈ (x.landChans p l).1, settled p c.queue) ∧
    ((x.landChans p l).1.all fun (c : DramChannel) => c.queue.isEmpty) = (l.all fun (c : DramChannel) => c.queue.isEmpty) ∧
    (∀ b, x.damagedAt b = false → (x.landChans p l).2.damagedAt b = false) ∧
    ∀ y, (∀ b, p b = true → y < b ∨ b + 256 ≤ y) → (x.landChans p l).2.mem.read y = x.mem.read y := by
  induction l generalizing x with
  | nil => exact ⟨h, fun _ hc => by simp [Store.landChans] at hc, rfl, fun _ hb => hb, fun _ _ => rfl⟩
  | cons c l ih =>
    obtain ⟨r1, _, r3, r4, r5, r6⟩ := landReqs_spec p c.queue x h
    obtain ⟨h1, h2, h3, h4, h5⟩ := ih (x.landReqs p c.queue).2 r1
    unfold Store.landChans
    refine ⟨h1, ?_, by simp only [List.all_cons]; rw [h3, r4], fun b hb => h4 b (r5 b hb), fun y hy => (h5 y hy).trans (r6 y hy)⟩
    intro d hd
    rcases List.mem_cons.1 hd with e | hd
    · rw [e]
      exact r3
    · exact h2 d hd

theorem landChans_settled (p : Nat → Bool) (l : List DramChannel) (x : Store) (h : ∀ c ∈ l, settled p c.queue) :
    x.landChans p l = (l, x) := by
  induction l with
  | nil => rfl
  | cons c l ih =>
    unfold Store.landChans
    dsimp only
    rw [landReqs_settled p c.queue x (h c (List.mem_cons_self ..)), ih fun d hd => h d (List.mem_cons_of_mem _ hd)]

/-- What an access that comes now finds: the form is kept, no block comes to be damaged, and every byte outside the blocks of its span is as it
was. -/
theorem land_spec (x : Store) (a n : Nat) (h : x.mem.wf = true) :
    (x.land a n).mem.wf = true ∧ (∀ b, x.damagedAt b = false → (x.land a n).damagedAt b = false) ∧
    ∀ y, (y / 256 < a / 256 ∨ (a + n + 255) / 256 ≤ y / 256) → (x.land a n).mem.read y = x.mem.read y := by
  unfold Store.land
  split
  · exact ⟨h, fun _ hb => hb, fun _ _ => rfl⟩
  · obtain ⟨h1, _, _, h4, h5⟩ := landChans_spec (fun b => decide (b % 256 = 0) && decide (b < a + n) && decide (a < b + 256)) x.ch x h
    refine ⟨h1, h4, fun y hy => h5 y fun b hb => ?_⟩
    simp only [Bool.and_eq_true, decide_eq_true_eq] at hb
    omega

/-- Once an access has found what came earlier, the next to the same span finds nothing more. -/
theorem land_again (x y : Store) (a n : Nat) (h : x.mem.wf = true) (hc : y.ch = (x.land a n).ch) : y.land a n = y := by
  unfold Store.land
  split
  · rfl
  · rename_i hy
    unfold Store.land at hc
    split at hc
    · rename_i hx
      rw [hc] at hy
      exact absurd hx hy
    · obtain ⟨_, h2, _, _, _⟩ := landChans_spec (fun b => decide (b % 256 = 0) && decide (b < a + n) && decide (a < b + 256)) x.ch x h
      rw [landChans_settled _ y.ch y (by rw [hc]; exact h2)]

/-! ### Bytes put into the store (R27, R41–R43, R397) -/

/-- What one block's part of a write does: it takes its bytes, unless it is a part of a damaged block; no other byte changes. -/
theorem mergeBlock_spec (x : Store) (a b : Nat) (bs : List Byte) (h : x.mem.wf = true) :
    (x.mergeBlock a bs b).mem.wf = true ∧ (x.mergeBlock a bs b).ch = x.ch ∧
    (∀ c, x.damagedAt c = false → (x.mergeBlock a bs b).damagedAt c = false) ∧
    (∀ y, y < a ∨ a + bs.length ≤ y ∨ y < b ∨ b + 256 ≤ y → (x.mergeBlock a bs b).mem.read y = x.mem.read y) ∧
    (x.damagedAt b = false ∨ (a ≤ b ∧ b + 256 ≤ a + bs.length) →
      ∀ y, a ≤ y → y < a + bs.length → b ≤ y → y < b + 256 → (x.mergeBlock a bs b).mem.read y = bs.getD (y - a) 0) := by
  unfold Store.mergeBlock
  dsimp only
  split
  · rename_i hs
    refine ⟨h, rfl, fun _ hc => hc, fun _ _ => rfl, fun hd => ?_⟩
    simp only [Bool.and_eq_true, decide_eq_true_eq] at hs
    rcases hd with hd | hd
    · rw [hd] at hs
      exact absurd hs.2 Bool.false_ne_true
    · omega
  · have hlen : ((bs.drop (max a b - a)).take (min (a + bs.length) (b + 256) - max a b)).length = min (a + bs.length) (b + 256) - max a b := by
      simp only [List.length_take, List.length_drop]
      omega
    refine ⟨putBlock_wf _ _ _ h, rfl, fun c hc => putBlock_damaged _ _ _ _ hc, fun y hy => ?_, fun _ y h1 h2 h3 h4 => ?_⟩
    · refine Mem.read_writeN_other _ _ _ _ h ?_
      rw [hlen]
      omega
    · have hr := Mem.read_writeN_at ((bs.drop (max a b - a)).take (min (a + bs.length) (b + 256) - max a b)) x.mem (max a b) (y - max a b) h
        (by rw [hlen]; omega)
      rw [show max a b + (y - max a b) = y by omega] at hr
      refine hr.trans ?_
      simp only [List.getD_eq_getElem?_getD]
      rw [List.getElem?_take_of_lt (by omega), List.getElem?_drop, show max a b - a + (y - max a b) = y - a by omega]

/-- The same for a list of blocks. -/
theorem mergeBlocks_spec (l : List Nat) (x : Store) (a : Nat) (bs : List Byte) (h : x.mem.wf = true) :
    (l.foldl (fun y b => y.mergeBlock a bs b) x).mem.wf = true ∧ (l.foldl (fun y b => y.mergeBlock a bs b) x).ch = x.ch ∧
    (∀ y, y < a ∨ a + bs.length ≤ y ∨ (∀ b ∈ l, y < b ∨ b + 256 ≤ y) → (l.foldl (fun y b => y.mergeBlock a bs b) x).mem.read y = x.mem.read y) ∧
    ((∀ b ∈ l, x.damagedAt b = false ∨ (a ≤ b ∧ b + 256 ≤ a + bs.length)) → ∀ y, a ≤ y → y < a + bs.length → (∃ b ∈ l, b ≤ y ∧ y < b + 256) →
      (l.foldl (fun y b => y.mergeBlock a bs b) x).mem.read y = bs.getD (y - a) 0) := by
  induction l generalizing x with
  | nil => exact ⟨h, rfl, fun _ _ => rfl, fun _ _ _ _ hb => by simp at hb⟩
  | cons b l ih =>
    obtain ⟨m1, m2, m3, m4, m5⟩ := mergeBlock_spec x a b bs h
    obtain ⟨i1, i2, i3, i4⟩ := ih (x.mergeBlock a bs b) m1
    simp only [List.foldl_cons]
    refine ⟨i1, i2.trans m2, fun y hy => ?_, fun hd y h1 h2 hb => ?_⟩
    · rw [i3 y ?_, m4 y ?_]
      · rcases hy with hy | hy | hy
        · exact Or.inl hy
        · exact Or.inr (Or.inl hy)
        · exact Or.inr (Or.inr (hy b (List.mem_cons_self ..)))
      · rcases hy with hy | hy | hy
        · exact Or.inl hy
        · exact Or.inr (Or.inl hy)
        · exact Or.inr (Or.inr fun c hc => hy c (List.mem_cons_of_mem _ hc))
    · by_cases hl : ∃ c ∈ l, c ≤ y ∧ y < c + 256
      · exact i4 (fun c hc => (hd c (List.mem_cons_of_mem _ hc)).imp (m3 c) id) y h1 h2 hl
      · rw [i3 y (Or.inr (Or.inr fun c hc => ?_))]
        · obtain ⟨c, hc, hy⟩ := hb
          rcases List.mem_cons.1 hc with e | hc
          · subst e
            exact m5 (hd c (List.mem_cons_self ..)) y h1 h2 hy.1 hy.2
          · exact absurd ⟨c, hc, hy⟩ hl
        · by_cases hlt : y < c
          · exact Or.inl hlt
          · exact Or.inr (Nat.le_of_not_lt fun hn => hl ⟨c, hc, by omega, hn⟩)

/-- Every byte of a span lies in one of its blocks. -/
theorem blocksOf_covers (a n y : Nat) (h1 : a ≤ y) (h2 : y < a + n) : ∃ b ∈ blocksOf a n, b ≤ y ∧ y < b + 256 := by
  unfold blocksOf
  rw [if_neg (by omega)]
  refine ⟨(a / 256 + (y / 256 - a / 256)) * 256, List.mem_map.2 ⟨y / 256 - a / 256, List.mem_range.2 ?_, rfl⟩, ?_, ?_⟩ <;> omega

/-- What a write does: the form and the channels are kept, no byte outside it changes, and its bytes read back where no block is damaged that it
changes in part. -/
theorem putBytes_spec (x : Store) (a : Nat) (bs : List Byte) (h : x.mem.wf = true) :
    (x.putBytes a bs).mem.wf = true ∧ (x.putBytes a bs).ch = x.ch ∧
    (∀ y, y < a ∨ a + bs.length ≤ y → (x.putBytes a bs).mem.read y = x.mem.read y) ∧
    ((∀ b ∈ blocksOf a bs.length, x.damagedAt b = false ∨ (a ≤ b ∧ b + 256 ≤ a + bs.length)) →
      (x.putBytes a bs).mem.readN a bs.length = bs) := by
  unfold Store.putBytes
  split
  · exact ⟨Mem.wf_writeN bs x.mem a h, rfl, fun y hy => Mem.read_writeN_other bs _ _ _ h hy, fun _ => Mem.readN_writeN bs x.mem a h⟩
  · obtain ⟨h1, h2, h3, h4⟩ := mergeBlocks_spec (blocksOf a bs.length) x a bs h
    refine ⟨h1, h2, fun y hy => h3 y (hy.imp id Or.inl), fun hd => ?_⟩
    apply List.ext_getElem
    · simp [Mem.readN]
    · intro i hi hi2
      simp only [Mem.readN, List.getElem_map, List.getElem_range]
      rw [h4 hd (a + i) (by omega) (by omega) (blocksOf_covers a _ _ (by omega) (by omega))]
      simp [List.getD_eq_getElem?_getD, hi2]

/-! ### Writes and reads of the store, as commands make them -/

/-- A write keeps the form. -/
theorem storeWrite_wf (s : State) (a : Nat) (bs : List Byte) (h : s.store.mem.wf = true) : (s.storeWrite a bs).store.mem.wf = true :=
  (putBytes_spec _ a bs (land_spec s.store a bs.length h).1).1

/-- A byte outside a write is as the accesses that came earlier to its blocks leave it. -/
theorem storeWrite_other (s : State) (a y : Nat) (bs : List Byte) (h : s.store.mem.wf = true) (hy : y < a ∨ a + bs.length ≤ y) :
    (s.storeWrite a bs).store.mem.read y = (s.store.land a bs.length).mem.read y :=
  (putBytes_spec _ a bs (land_spec s.store a bs.length h).1).2.2.1 y hy

/-- What a write has put into the store an access that comes after it finds. -/
theorem seen_storeWrite (s : State) (a : Nat) (bs : List Byte) (h : s.store.mem.wf = true) (hd : s.mergesClean a bs.length = true) :
    (s.storeWrite a bs).store.seen a bs.length = bs := by
  have hl := land_spec s.store a bs.length h
  have hp := putBytes_spec (s.store.land a bs.length) a bs hl.1
  unfold Store.seen State.storeWrite
  dsimp only
  rw [land_again s.store _ a bs.length h hp.2.1]
  apply hp.2.2.2
  intro b hb
  have := List.all_eq_true.1 hd b hb
  simp only [Bool.or_eq_true, Bool.and_eq_true, Bool.not_eq_true', decide_eq_true_eq] at this
  exact this.imp (hl.2.1 b) id

end Machine

end Sys2Proof
end

