-- ==== Sys2Proof/WellFormed.lean ====
section
/-!
DEFINITION. A command is well formed when every unit it names exists: the ring, head, port, context, engine, lane or other unit
number lies in the range the spec gives the units (R16). The meanings treat a number out of range as naming nothing.
-/

namespace Sys2Proof

/-- Every unit the command names exists. -/
def Instr.wf : Instr → Bool
  | .nop _ ring => decide (ring < 48)
  | .sync _ ring => decide (ring < 48)
  | .windowMap _ ring => decide (ring < 48)
  | .windowUnmap _ ring => decide (ring < 48)
  | .netPort _ ring => decide (ring < 48)
  | .streamOpen _ ring => decide (ring < 48)
  | .streamClose _ ring => decide (ring < 48)
  | .streamSprop _ ring => decide (ring < 48)
  | .streamState _ ring => decide (ring < 48)
  | .timeConfig _ ring => decide (ring < 48)
  | .timeWrap _ ring => decide (ring < 48)
  | .ptpPort _ ring => decide (ring < 48)
  | .timeState _ ring => decide (ring < 48)
  | .launch _ ring => decide (ring < 48)
  | .launchCancel _ ring => decide (ring < 48)
  | .genlock _ ring => decide (ring < 48)
  | .freshSource _ ring => decide (ring < 48)
  | .freshLayer _ ring => decide (ring < 48)
  | .freshHead _ ring => decide (ring < 48)
  | .freshState _ ring => decide (ring < 48)
  | .decDeclare _ ring => decide (ring < 48)
  | .decState _ ring => decide (ring < 48)
  | .layerSet _ ring => decide (ring < 48)
  | .layerRelease _ ring => decide (ring < 48)
  | .colourMatrix _ ring => decide (ring < 48)
  | .scalerCoef _ ring => decide (ring < 48)
  | .headBlend _ ring => decide (ring < 48)
  | .layerState _ ring => decide (ring < 48)
  | .flipBegin _ ring => decide (ring < 48)
  | .flipCommit _ ring => decide (ring < 48)
  | .flipCancel _ ring => decide (ring < 48)
  | .plateUpdate _ ring => decide (ring < 48)
  | .plateState _ ring => decide (ring < 48)
  | .pressTouch _ ring => decide (ring < 48)
  | .headTiming _ ring => decide (ring < 48)
  | .headStop _ ring => decide (ring < 48)
  | .headGuests _ ring => decide (ring < 48)
  | .portConfig _ ring => decide (ring < 48)
  | .headState _ ring => decide (ring < 48)
  | .portSink _ ring => decide (ring < 48)
  | .encOpen _ ring => decide (ring < 48)
  | .encClose _ ring => decide (ring < 48)
  | .encConsume _ ring => decide (ring < 48)
  | .encKey _ ring => decide (ring < 48)
  | .encRate _ ring => decide (ring < 48)
  | .encState _ ring => decide (ring < 48)
  | .storeTune _ ring => decide (ring < 48)
  | .storeState _ ring => decide (ring < 48)
  | .storeWatch _ ring => decide (ring < 48)
  | .attest _ ring _ => decide (ring < 48)
  | .provision _ ring => decide (ring < 48)
  | .ownerSet _ ring => decide (ring < 48)
  | .lifecycle _ ring _ => decide (ring < 48)
  | .imageStage _ ring => decide (ring < 48)
  | .imageActivate _ ring => decide (ring < 48)
  | .imageCommit _ ring => decide (ring < 48)
  | .secWatch _ ring => decide (ring < 48)
  | .mailSend _ ring => decide (ring < 48)
  | .mailTake _ ring => decide (ring < 48)
  | .mailWatch _ ring => decide (ring < 48)
  | .gatherShare _ ring _ => decide (ring < 48)
  | .gatherState _ ring => decide (ring < 48)
  | .gatherWatch _ ring => decide (ring < 48)
  | .swap _ ring => decide (ring < 48)
  | .force _ ring => decide (ring < 48)
  | .twinPort _ ring => decide (ring < 48)
  | .twinState _ ring => decide (ring < 48)
  | .touchPanel _ ring => decide (ring < 48)
  | .touchRebase _ ring => decide (ring < 48)
  | .touchState _ ring => decide (ring < 48)
  | .inputConfig _ ring => decide (ring < 48)
  | .inputState _ ring => decide (ring < 48)
  | .outputSet _ ring => decide (ring < 48)
  | .returnA _ ring _ => decide (ring < 48)
  | .clockFuse _ ring => decide (ring < 48)
  | .powerState _ ring => decide (ring < 48)
  | .marginState _ ring => decide (ring < 48)
  | .powerWatch _ ring => decide (ring < 48)
  | .laneTest _ ring => decide (ring < 48)
  | .laneState _ ring => decide (ring < 48)
  | .laneWatch _ ring => decide (ring < 48)
  | .faultConfig _ ring => decide (ring < 48)
  | .faultState _ ring => decide (ring < 48)
  | .faultWatch _ ring => decide (ring < 48)
  | .cvConfig _ ring => decide (ring < 48)
  | .cvRun _ ring => decide (ring < 48)
  | .cvAttach _ ring => decide (ring < 48)
  | .zeRun _ ring => decide (ring < 48)
  | .journalConfig _ ring => decide (ring < 48)
  | .journalHold _ ring => decide (ring < 48)
  | .journalExport _ ring _ => decide (ring < 48)
  | .journalImport _ ring _ _ _ => decide (ring < 48)
  | .replayStart _ ring => decide (ring < 48)
  | .replayStop _ ring => decide (ring < 48)
  | .journalState _ ring => decide (ring < 48)
  | .undefinedOpcode _ ring => decide (ring < 48)
  | .ringEnable _ k => decide (k < 128)
  | .ringDisable _ k => decide (k < 128)
  | .doorbell _ k _ => decide (k < 128)
  | .resyncDoorbell _ n _ => decide (n < 32)
  | .ringLostRead _ n => decide (n < 32)
  | .topChangeWrite _ _ => true
  | .topHfaultsRead _ => true
  | .timeLoRead _ => true
  | .interruptSourceWrite _ src _ => decide (src < 105)
  | .mbTake _ n => decide (n < 4)
  | .mblClaim _ n a => decide (n < 4) && decide (a < 16)
  | .mblRelease _ n a => decide (n < 4) && decide (a < 16)
  | .mblGo _ n a => decide (n < 4) && decide (a < 16)
  | .hostRestart _ => true
  | .hostMailService _ n => decide (n < 4)
  | .actCommit _ => true
  | .storeGo _ => true
  | .clkForcedWrite _ _ => true
  | .laneCounterRead _ q lane _ => decide (q < 13) && decide (lane < 4)
  | .laneBitsLoRead _ q lane => decide (q < 13) && decide (lane < 4)
  | .registerWrite _ space _ _ _ => (match space with | .bar0 => true | .island i colour => decide (i < 43) && decide (colour < 64))
  | .bar0BadAccess _ _ _ _ => true
  | .bar2Read _ _ _ => true
  | .bar2Write _ _ _ => true
  | .folioFetch _ ring _ => decide (ring < 48)
  | .folioBegin _ => true
  | .stmFetch _ k _ _ _ => decide (k < 64)
  | .eventRecordWrite _ n _ => decide (n < 32)
  | .moderationTimeout _ n => decide (n < 32)
  | .evTick _ n => decide (n < 32)
  | .packetReceive _ _ => true
  | .reorderTimeout _ c => decide (c < 64)
  | .streamSilence _ c => decide (c < 64)
  | .evLoss _ c => decide (c < 64)
  | .rrSend _ c => decide (c < 64)
  | .arpRequest _ port _ _ _ => decide (port < 4)
  | .igmpQuery _ port version _ => decide (port < 4) && decide (version < 4)
  | .linkChange _ port _ _ => decide (port < 4)
  | .ptpMessage _ port _ => decide (port < 4)
  | .announceTimeout _ => true
  | .holdoverExpiry _ => true
  | .launchRead _ port queue => decide (port < 4) && decide (queue < 8)
  | .launchDue _ port queue => decide (port < 4) && decide (queue < 8)
  | .sliceParse _ c _ => decide (c < 64)
  | .jobStart _ e _ => decide (e < 8)
  | .rowComplete _ e _ => decide (e < 8)
  | .leafComplete _ c _ leaf => decide (c < 64) && decide (leaf < 136)
  | .decodeTimeout _ job => decide (job.engine < 8)
  | .engineIsolate _ e => decide (e < 8)
  | .engineReturn _ e _ => decide (e < 8)
  | .firRepeat _ c => decide (c < 64)
  | .pickPoint _ h layer => decide (h < 16) && decide (layer < 128)
  | .fetchInstant _ h layer leaf => decide (h < 16) && decide (layer < 128) && decide (leaf < 136)
  | .bandRequest _ h layer _ _ _ => decide (h < 16) && decide (layer < 129)
  | .leafScan _ h leaf => decide (h < 16) && decide (leaf < 136)
  | .outputLeafStart _ h leaf => decide (h < 16) && decide (leaf < 136)
  | .latch _ h => decide (h < 16)
  | .headEpoch _ h => decide (h < 16)
  | .plateFrameCopy _ h => decide (h < 16)
  | .plateScrub _ => true
  | .genlockPull _ h => decide (h < 16)
  | .planLearned _ h => decide (h < 16)
  | .fencePoll _ ring => decide (ring < 48)
  | .flattenDone _ h => decide (h < 16)
  | .flipTimeout _ ring => decide (ring < 48)
  | .hpdHigh _ p => decide (p < 8)
  | .hpdLow _ p => decide (p < 8)
  | .hpdShortPulse _ p _ => decide (p < 8)
  | .trainingDone _ p _ => decide (p < 8)
  | .headIsolate _ h _ => decide (h < 16)
  | .rateRowReady _ session _ _ _ => decide (session < 16)
  | .rateRowCoded _ e _ => decide (e < 2)
  | .pictureCoded _ session => decide (session < 16)
  | .sideRecord _ session => decide (session < 16)
  | .encoderIsolate _ e => decide (e < 2)
  | .blockArrive _ snd rcv _ _ _ => decide (snd < 43) && decide (rcv < 43)
  | .blockAck _ snd rcv _ => decide (snd < 43) && decide (rcv < 43)
  | .islandIsolate _ island => decide (island < 43)
  | .islandReturn _ island _ => decide (island < 43)
  | .storeRequest _ _ _ => true
  | .writeQueueDrain _ c _ => decide (c < 8)
  | .refreshDue _ c => decide (c < 8)
  | .mr4Read _ c _ _ => decide (c < 8)
  | .pointSwitch _ target => decide (target < 3)
  | .pointDownTimeout _ => true
  | .storeReread _ rcv _ _ _ _ => decide (rcv < 43)
  | .bankRowRetire _ c _ => decide (c < 8)
  | .resetWipe _ _ => true
  | .regionWipeDone _ ring => decide (ring < 48)
  | .removalDrain _ colour => decide (colour < 64)
  | .deviceReset _ _ => true
  | .supplyGood _ => true
  | .clockStart _ _ _ _ => true
  | .boot _ _ => true
  | .perstAssert _ => true
  | .perstRelease _ => true
  | .supplyLow _ rail _ _ => decide (rail < 10)
  | .thermalReading _ sensor _ => decide (sensor < 33)
  | .thermalShutdown _ sensor _ => decide (sensor < 33)
  | .thermalTrip _ sensor _ => decide (sensor < 33)
  | .thermalTripRelease _ => true
  | .crystalStop _ _ => true
  | .crystalCompare _ _ _ _ => true
  | .forcedSwitch _ island => decide (island < 43)
  | .vfChange _ island _ => decide (island < 43)
  | .gateRequest _ island _ _ => decide (island < 43)
  | .islandWake _ island => decide (island < 43)
  | .ageingMeasure _ island _ _ => decide (island < 43)
  | .marginRecheck _ island _ => decide (island < 43)
  | .freezeAdaptation _ q lane => decide (q < 13) && decide (lane < 4)
  | .freezeEnd _ q lane _ _ => decide (q < 13) && decide (lane < 4)
  | .cdrLockFail _ q lane => decide (q < 13) && decide (lane < 4)
  | .quadPllLoss _ q => decide (q < 13)
  | .laneStateChange _ q lane _ _ => decide (q < 13) && decide (lane < 4)
  | .testDone _ q lane => decide (q < 13) && decide (lane < 4)
  | .counterPoll _ q lane _ => decide (q < 13) && decide (lane < 4)
  | .faultEvent _ source island _ _ _ => decide (source < 16) && decide (island < 43)
  | .faultClear _ source island _ _ => decide (source < 16) && decide (island < 43)
  | .handover _ _ => true
  | .ctrlRestart _ => true
  | .hello _ ch _ => decide (ch < 8)
  | .data _ ch _ => decide (ch < 8)
  | .close _ ch _ _ => decide (ch < 8)
  | .channelResend _ ch => decide (ch < 8)
  | .channelSessionTimeout _ ch => decide (ch < 8)
  | .channelSessionAge _ ch => decide (ch < 8)
  | .linkAuthenticated _ link _ => decide (link < 3)
  | .linkHandshakeRetry _ link => decide (link < 3)
  | .linkLost _ link => decide (link < 3)
  | .memberAnnounce _ _ => true
  | .timeFrame _ _ => true
  | .timeFrameLoss _ => true
  | .forwardedFolio _ origin ring _ _ => decide (origin < 8) && decide (ring < 32)
  | .forwardTimeout _ ring _ => decide (ring < 48)
  | .leafSend _ c _ leaf member _ => decide (c < 64) && decide (leaf < 136) && decide (member < 8)
  | .leafReceive _ _ => true
  | .mailDeliver _ box _ _ => decide (box < 16)
  | .mailOutcome _ box _ => decide (box < 16)
  | .hbSilent _ => true
  | .claimReleased _ => true
  | .twinWatchdogTrip _ => true
  | .seniorDelayEnd _ => true
  | .claimCheckEnd _ _ _ => true
  | .takeover _ => true
  | .twinYield _ _ => true
  | .stateSnapshot _ => true
  | .healthReport _ _ => true
  | .standbySelftest _ island _ => decide (island < 43)
  | .twinMirror _ _ => true
  | .standbyPliRequest _ c => decide (c < 64)
  | .scanCycle _ t => decide (t < 4)
  | .mutualFrameEnd _ t _ => decide (t < 4)
  | .selfFrameEnd _ t _ _ => decide (t < 4)
  | .noiseListenEnd _ t _ => decide (t < 4)
  | .panelStart _ t _ _ _ _ => decide (t < 4)
  | .baselineDrift _ t => decide (t < 4)
  | .inputSample _ _ => true
  | .chatterQuiet _ k => decide (k < 32)
  | .inputStuck _ k => decide (k < 32)
  | .pairDiscrepancy _ k => decide (k < 16)
  | .blinkPhase _ o => decide (o < 16)
  | .followStaleUpdate _ o => decide (o < 16)
  | .outputOverload _ o => decide (o < 16)
  | .touchMirror _ _ => true
  | .debugSession _ _ => true
  | .entropyFail _ => true
  | .journalEntry _ _ _ _ => true
  | .journalChunk _ _ => true
  | .journalSnapshot _ _ => true
  | .gapEnd _ => true
  | .replayEntry _ _ _ _ => true
  | .folioWaitComplete _ ring _ => decide (ring < 48)
  | .forwardedReply _ ring member _ _ _ _ => decide (ring < 48) && decide (member < 8)
  | .mailContactTimeout _ ring => decide (ring < 48)
  | .claimLow _ => true
  | .hbInAlive _ => true
  | .gatheringTable _ _ => true
  | .removalAccessTimeout _ colour => decide (colour < 64)
  | .clockJudgeRetry _ _ _ _ => true
  | .checkerSync _ q lane _ => decide (q < 13) && decide (lane < 4)
  | .functionLevelReset _ => true

end Sys2Proof
end

