-- ==== Sys2Proof/Tests/Slice0.lean ====
section
/-!
SUPPORT. The model's own tests.
-/

namespace Sys2Proof.Tests

open Sys2Proof Sys2Proof.Machine

/-! ### Well-formedness: an ill-formed term for each check, which the check refuses -/

theorem test_wf_refuses_0 : (([.nop 0 48, .sync 0 48, .windowMap 0 48, .windowUnmap 0 48, .netPort 0 48, .streamOpen 0 48, .streamClose 0 48, .streamSprop 0 48, .streamState 0 48, .timeConfig 0 48, .timeWrap 0 48, .ptpPort 0 48, .timeState 0 48, .launch 0 48, .launchCancel 0 48, .genlock 0 48, .freshSource 0 48, .freshLayer 0 48, .freshHead 0 48, .freshState 0 48] : List Instr).all fun i => !i.wf) = true := by decide

theorem test_wf_refuses_1 : (([.decDeclare 0 48, .decState 0 48, .layerSet 0 48, .layerRelease 0 48, .colourMatrix 0 48, .scalerCoef 0 48, .headBlend 0 48, .layerState 0 48, .flipBegin 0 48, .flipCommit 0 48, .flipCancel 0 48, .plateUpdate 0 48, .plateState 0 48, .pressTouch 0 48, .headTiming 0 48, .headStop 0 48, .headGuests 0 48, .portConfig 0 48, .headState 0 48, .portSink 0 48] : List Instr).all fun i => !i.wf) = true := by decide

theorem test_wf_refuses_2 : (([.encOpen 0 48, .encClose 0 48, .encConsume 0 48, .encKey 0 48, .encRate 0 48, .encState 0 48, .storeTune 0 48, .storeState 0 48, .storeWatch 0 48, .attest 0 48 [], .provision 0 48, .ownerSet 0 48, .lifecycle 0 48 false, .imageStage 0 48, .imageActivate 0 48, .imageCommit 0 48, .secWatch 0 48, .mailSend 0 48, .mailTake 0 48, .mailWatch 0 48] : List Instr).all fun i => !i.wf) = true := by decide

theorem test_wf_refuses_3 : (([.gatherShare 0 48 default, .gatherState 0 48, .gatherWatch 0 48, .swap 0 48, .force 0 48, .twinPort 0 48, .twinState 0 48, .touchPanel 0 48, .touchRebase 0 48, .touchState 0 48, .inputConfig 0 48, .inputState 0 48, .outputSet 0 48, .returnA 0 48 [], .clockFuse 0 48, .powerState 0 48, .marginState 0 48, .powerWatch 0 48, .laneTest 0 48, .laneState 0 48] : List Instr).all fun i => !i.wf) = true := by decide

theorem test_wf_refuses_4 : (([.laneWatch 0 48, .faultConfig 0 48, .faultState 0 48, .faultWatch 0 48, .cvConfig 0 48, .cvRun 0 48, .cvAttach 0 48, .zeRun 0 48, .journalConfig 0 48, .journalHold 0 48, .journalExport 0 48 false, .journalImport 0 48 false false [], .replayStart 0 48, .replayStop 0 48, .journalState 0 48, .undefinedOpcode 0 48, .ringEnable 0 128, .ringDisable 0 128, .doorbell 0 128 0, .resyncDoorbell 0 32 0] : List Instr).all fun i => !i.wf) = true := by decide

theorem test_wf_refuses_5 : (([.ringLostRead 0 32, .interruptSourceWrite 0 105 0, .mbTake 0 4, .mblClaim 0 4 0, .mblClaim 0 0 16, .mblRelease 0 4 0, .mblRelease 0 0 16, .mblGo 0 4 0, .mblGo 0 0 16, .hostMailService 0 4, .laneCounterRead 0 13 0 default, .laneCounterRead 0 0 4 default, .laneBitsLoRead 0 13 0, .laneBitsLoRead 0 0 4, .registerWrite 0 (.island 43 0) 0 false 0, .registerWrite 0 (.island 0 64) 0 false 0, .folioFetch 0 48 default, .stmFetch 0 64 default default false, .eventRecordWrite 0 32 false, .moderationTimeout 0 32] : List Instr).all fun i => !i.wf) = true := by decide

theorem test_wf_refuses_6 : (([.evTick 0 32, .reorderTimeout 0 64, .streamSilence 0 64, .evLoss 0 64, .rrSend 0 64, .arpRequest 0 4 0 0 0, .igmpQuery 0 4 0 default, .igmpQuery 0 0 4 default, .linkChange 0 4 false 0, .ptpMessage 0 4 default, .launchRead 0 4 0, .launchRead 0 0 8, .launchDue 0 4 0, .launchDue 0 0 8, .sliceParse 0 64 default, .jobStart 0 8 false, .rowComplete 0 8 default, .leafComplete 0 64 0 0, .leafComplete 0 0 0 136, .decodeTimeout 0 { engine := 8, bits := [] }] : List Instr).all fun i => !i.wf) = true := by decide

theorem test_wf_refuses_7 : (([.engineIsolate 0 8, .engineReturn 0 8 false, .firRepeat 0 64, .pickPoint 0 16 0, .pickPoint 0 0 128, .fetchInstant 0 16 0 0, .fetchInstant 0 0 128 0, .fetchInstant 0 0 0 136, .bandRequest 0 16 0 0 false false, .bandRequest 0 0 129 0 false false, .leafScan 0 16 0, .leafScan 0 0 136, .outputLeafStart 0 16 0, .outputLeafStart 0 0 136, .latch 0 16, .headEpoch 0 16, .plateFrameCopy 0 16, .genlockPull 0 16, .planLearned 0 16, .fencePoll 0 48] : List Instr).all fun i => !i.wf) = true := by decide

theorem test_wf_refuses_8 : (([.flattenDone 0 16, .flipTimeout 0 48, .hpdHigh 0 8, .hpdLow 0 8, .hpdShortPulse 0 8 false, .trainingDone 0 8 default, .headIsolate 0 16 false, .rateRowReady 0 16 0 false default, .rateRowCoded 0 2 default, .pictureCoded 0 16, .sideRecord 0 16, .encoderIsolate 0 2, .blockArrive 0 43 0 0 [] 0, .blockArrive 0 0 43 0 [] 0, .blockAck 0 43 0 0, .blockAck 0 0 43 0, .islandIsolate 0 43, .islandReturn 0 43 false, .writeQueueDrain 0 8 0, .refreshDue 0 8] : List Instr).all fun i => !i.wf) = true := by decide

theorem test_wf_refuses_9 : (([.mr4Read 0 8 0 false, .pointSwitch 0 3, .storeReread 0 43 0 0 false false, .bankRowRetire 0 8 0, .regionWipeDone 0 48, .removalDrain 0 64, .supplyLow 0 10 0 0, .thermalReading 0 33 0, .thermalShutdown 0 33 0, .thermalTrip 0 33 0, .forcedSwitch 0 43, .vfChange 0 43 false, .gateRequest 0 43 default false, .islandWake 0 43, .ageingMeasure 0 43 [] 0, .marginRecheck 0 43 0, .freezeAdaptation 0 13 0, .freezeAdaptation 0 0 4, .freezeEnd 0 13 0 false 0, .freezeEnd 0 0 4 false 0] : List Instr).all fun i => !i.wf) = true := by decide

theorem test_wf_refuses_10 : (([.cdrLockFail 0 13 0, .cdrLockFail 0 0 4, .quadPllLoss 0 13, .laneStateChange 0 13 0 false default, .laneStateChange 0 0 4 false default, .testDone 0 13 0, .testDone 0 0 4, .counterPoll 0 13 0 default, .counterPoll 0 0 4 default, .faultEvent 0 16 0 0 0 0, .faultEvent 0 0 43 0 0 0, .faultClear 0 16 0 0 0, .faultClear 0 0 43 0 0, .hello 0 8 default, .data 0 8 default, .close 0 8 0 false, .channelResend 0 8, .channelSessionTimeout 0 8, .channelSessionAge 0 8, .linkAuthenticated 0 3 default] : List Instr).all fun i => !i.wf) = true := by decide

theorem test_wf_refuses_11 : (([.linkHandshakeRetry 0 3, .linkLost 0 3, .forwardedFolio 0 8 0 0 [], .forwardedFolio 0 0 32 0 [], .forwardTimeout 0 48 false, .leafSend 0 64 0 0 0 0, .leafSend 0 0 0 136 0 0, .leafSend 0 0 0 0 8 0, .mailDeliver 0 16 [] 0, .mailOutcome 0 16 false, .standbySelftest 0 43 false, .standbyPliRequest 0 64, .scanCycle 0 4, .mutualFrameEnd 0 4 [], .selfFrameEnd 0 4 [] [], .noiseListenEnd 0 4 [], .panelStart 0 4 [] [] [] [], .baselineDrift 0 4, .chatterQuiet 0 32, .inputStuck 0 32] : List Instr).all fun i => !i.wf) = true := by decide

theorem test_wf_refuses_12 : (([.pairDiscrepancy 0 16, .blinkPhase 0 16, .followStaleUpdate 0 16, .outputOverload 0 16, .folioWaitComplete 0 48 default, .forwardedReply 0 48 0 0 0 0 [], .forwardedReply 0 0 8 0 0 0 [], .mailContactTimeout 0 48, .removalAccessTimeout 0 64, .checkerSync 0 13 0 0, .checkerSync 0 0 4 0] : List Instr).all fun i => !i.wf) = true := by decide

/-! ### Witnesses: for every statement with hypotheses, states and operands that meet them, clause by clause -/

/-- A folio's bytes: LENGTH 240, the opcode, and what is put at some offsets. -/
def raw (op : Nat) (ps : List (Nat × Nat × Nat)) : List Byte :=
  ps.foldl (fun bs p => bs.take p.1 ++ leBytes p.2.1 p.2.2 ++ bs.drop (p.1 + p.2.1))
    (leBytes 2 op ++ List.replicate 6 0 ++ leBytes 2 240 ++ List.replicate 70 0)

/-- A place has begun a folio of an opcode, with parameters of some sizes at some offsets. -/
def fol (r op : Nat) (ps : List (Nat × Nat × Nat)) (s : State) : State :=
  s.modCmdQ r fun q => { q with begun := some { Begun.reset with folio := { raw := raw op ps } } }

/-- What a place has begun. -/
def bg (s : State) (r : Nat) : Begun := (s.cmdQ r).begun.getD Begun.reset

/-- A folio that waits. -/
def wt (r : Nat) (w : Wait) (s : State) : State := s.modCmdQ r fun q => { q with begun := q.begun.map fun b => { b with wait := w } }

/-- The state right after reset, with CMD ring 0 of colour 1, firmware started, and the part ACTIVE. -/
def W : State :=
  { State.reset with
    top := { State.reset.top with ready := true, ringMap := { RingMapEntry.reset with colour := 1, valid := true } :: List.replicate 31 RingMapEntry.reset }
    twin := { State.reset.twin with st := .active }
    pwr := { State.reset.pwr with booted := true } }

/-- An entry of the access table that grants colour 1 a MiB of the store. -/
def grant : ActEntry :=
  { ActEntry.reset with base := 0x50000, last := 0x500FF, colour := 1, valid := true, read := true, write := true }

/-- Window 0 shows that MiB to colour 1. -/
def win (s : State) : State :=
  let s := { s with sec := { s.sec with act := [(0, grant)] } }
  s.modWindow 0 fun x => { x with mapped := true, colour := 1, size := 0x100000, base := 0x50000000 }

/-- A frame with a UDP datagram to 239.0.0.1, port 5000. -/
def frame (p : List Byte) : List Byte :=
  List.replicate 12 0 ++ [8, 0, 0x45, 0, 0, 0, 0, 0, 0, 0, 64, 17, 0, 0, 10, 0, 0, 1, 239, 0, 0, 1, 0x13, 0x88, 0x13, 0x88, 0,
    BitVec.ofNat 8 (8 + p.length), 0, 0] ++ p

/-- An RTP packet of source 7 and payload type 96. -/
def rtp (seq : Nat) (p : List Byte) : List Byte := [0x80, 96, BitVec.ofNat 8 (seq / 256), BitVec.ofNat 8 seq, 0, 0, 0, 1, 0, 0, 0, 7] ++ p

/-- The datagram of that frame. -/
def dgram (p : List Byte) : Dgram := { tag := none, srcIp := 0x0A000001, dstIp := 0xEF000001, srcUdp := 5000, dstUdp := 5000, payload := p }

/-- Port 0 is up, and a context is open on it for those packets. -/
def live (k : Nat) (s : State) : State :=
  (s.modPort 0 fun p => { p with mode := 1, link := true, maxFrame := 1518, address := 0x0A000002 }).modCtx k fun x =>
    { x with
      opened := true, owner := 1, ssrc := some 7, tokens := [100000000000, 0, 0, 0]
      cfg := { x.cfg with ports := 1, dstIp := 0xEF000001, dstUdp := 5000, rtcpUdp := 5001, pt := 96, buffer := 4096, burst := 65536, maxRate := 1000, reorder := 10, rrInterval := 5 } }

/-- 3840 by 2160 at 60 Hz, on no port. -/
def uhd : Timing :=
  { Timing.reset with
    pclk := 594000, hActive := 3840, hFront := 176, hSync := 88, hBack := 296, vActive := 2160, vFront := 8, vSync := 10, vBack := 72 }

/-- A head of colour 1 that runs. -/
def hd (h : Nat) (s : State) : State := s.modHead h fun x => { x with st := .running, owner := some 1, timing := uhd, frame := 1 }

/-- Bytes put into the store. -/
def put (a : Nat) (bs : List Byte) (s : State) : State := { s with store := { s.store with mem := s.store.mem.writeN a bs } }

/-- A timing with one leaf of four lines. -/
def tiny : Timing := { uhd with hActive := 4, vActive := 4 }

/-- The life cycle is DEVELOP, and an owner is set. -/
def dev (s : State) : State := { s with sec := { s.sec with fuses := { s.sec.fuses with lcDevelop := 1, ownerDigest := some [1] } } }

/-- Some spine links are up. -/
def links (l : List Nat) (s : State) : State := l.foldl (fun (s : State) k => s.modLink k fun x => { x with st := 2 }) s

/-- A frame in which node 27 of an 8 by 8 panel stands out. -/
def dip : List Int := List.replicate 27 0 ++ [-300]

/-- A panel that runs, its self capacitance low on drive line 3 and sense line 3. -/
def pad : Panel :=
  { Panel.reset with st := .running, owner := some 1, rawD := [0, 0, 0, 200], rawS := [0, 0, 0, 200] }

/-- A state in which colour 1 reads what it uses. -/
def readers : State :=
  (((hd 3 (live 3 W)).modLayer 3 fun x => { x with st := .idle, owner := 1 }).modSession 3 fun x => { x with st := .coding, owner := 1 }).modCtx 3 fun x => { x with everOpened := true }

/-- A value that is given meets a property. -/
theorem one {α : Type} {p : α → Prop} {v : α} (h : p v) : ∃ x ∈ [v], p x := ⟨v, List.mem_singleton_self v, h⟩

theorem ne_flip (x : BitVec 32) : x ≠ x ^^^ 1 := by
  intro h
  have h := congrArg (x ^^^ ·) h
  simp [← BitVec.xor_assoc] at h

theorem ne_cons (a : Byte) (l : List Byte) : a :: l ≠ l := fun h => by simpa using congrArg List.length h

theorem wf_put (a : Nat) (bs : List Byte) (s : State) (h : s.store.mem.wf = true) : (put a bs s).store.mem.wf = true :=
  Mem.wf_writeN bs s.store.mem a h

/-- What was put into the store reads back. -/
theorem read_put (a : Nat) (bs : List Byte) (s : State) (h : s.store.mem.wf = true) : (put a bs s).store.mem.readN a bs.length = bs :=
  Mem.readN_writeN bs s.store.mem a h

/-- What is put elsewhere changes nothing of it. -/
theorem read_put_other (a : Nat) (bs : List Byte) (s : State) (x n : Nat) (h : s.store.mem.wf = true) (hx : x + n ≤ a) :
    (put a bs s).store.mem.readN x n = s.store.mem.readN x n := by
  simp only [Mem.readN]
  refine List.map_congr_left fun i hi => Mem.read_writeN_other bs _ _ _ h ?_
  have := List.mem_range.mp hi
  omega

theorem one' {α : Type} {p : α → Prop} {v w : α} (e : v = w) (h : p w) : ∃ x ∈ [v], p x := ⟨w, by simp [e], h⟩

/-- An identity token of the form that LIFECYCLE takes: its target, and the key it answers. -/
def token (target key : List Byte) : List Byte :=
  [1, 0, 2, 0] ++ List.replicate 12 0 ++ padTo 16 target ++ padTo 97 key ++ List.replicate 127 0

/-- The taps of an interpolation that repeats its sample. -/
def taps (n k : Nat) : List Byte := (List.replicate 64 ([0, 0, 0, 0, 0, 0, 0, 4].drop (8 - n) ++ List.replicate k 0)).flatten

theorem length_token (t k : List Byte) : (token t k).length = 256 := by simp [token, length_padTo]

theorem token_target (t k : List Byte) : ((token t k).drop 0x10).take 16 = padTo 16 t := by
  simp [token, length_padTo, List.drop_append]

theorem token_key (t k : List Byte) : ((token t k).drop 0x20).take 97 = padTo 97 k := by
  simp [token, length_padTo]

theorem token_rest (t k : List Byte) : ((token t k).drop 0x81).take 127 = List.replicate 127 0 := by
  simp [token, length_padTo, List.drop_append, List.take_append]

theorem head_ne (l : List Byte) : padTo 16 [l.headD 0 ^^^ 1] ≠ l := fun h => by
  have h := congrArg (l.headD 0 ^^^ ·.headD 0) h
  simp [padTo, List.replicate, ← BitVec.xor_assoc] at h

/-- Its taps for the horizontal scaler, and for the vertical. -/
theorem read_taps8 (s : State) (h : s.store.mem.wf = true) :
    (put 0x50000400 (taps 4 8) (put 0x50000000 (taps 8 8) s)).store.mem.readN 0x50000000 1024 = taps 8 8 := by
  rw [read_put_other _ _ _ _ _ (wf_put _ _ _ h) (by omega)]
  have e := read_put 0x50000000 (taps 8 8) s h
  rwa [show (taps 8 8).length = 1024 by decide +kernel] at e

theorem read_taps6 (s : State) (h : s.store.mem.wf = true) : (put 0x50000400 (taps 4 8) s).store.mem.readN 0x50000400 768 = taps 4 8 := by
  have e := read_put 0x50000400 (taps 4 8) s h
  rwa [show (taps 4 8).length = 768 by decide +kernel] at e

/-- A state in which that token stands in window 0. -/
def tokenAt (target key : List Byte) : State :=
  { put 0x50000000 (token target key) (win (fol 0 0x0B03 [] W)) with
    sec := { W.sec with act := [(0, grant)], provKey := W.sec.provKey.set 1 (some [5]), fuses := { W.sec.fuses with lcDevelop := 1, ownerDigest := some [1] } } }

theorem read_token (t k : List Byte) : (tokenAt t k).winRead 0 0 0x100 = token t k := by
  have h := read_put 0x50000000 (token t k) (win (fol 0 0x0B03 [] W)) rfl
  rw [length_token] at h
  exact h

/-- A state in which a bank's taps stand in window 0. -/
def tapsAt : State := put 0x50000400 (taps 4 8) (put 0x50000000 (taps 8 8) (win (fol 0 0x0403 [(0x10,1,7)] W)))

theorem winRead_taps8 : tapsAt.winRead 0 0 1024 = taps 8 8 := by
  unfold State.winRead
  rw [show (tapsAt.window 0).base + 0 = 0x50000000 by decide +kernel]
  exact read_taps8 _ rfl

theorem winRead_taps6 : tapsAt.winRead 0 (0 + 1024) 768 = taps 4 8 := by
  unfold State.winRead
  rw [show (tapsAt.window 0).base + (0 + 1024) = 0x50000400 by decide +kernel]
  exact read_taps6 (put 0x50000000 (taps 8 8) (win (fol 0 0x0403 [(0x10,1,7)] W))) (wf_put _ _ _ rfl)

/-- Bytes taken in pairs. -/
def pairs : List Byte → List Nat
  | a :: b :: l => leNat [a, b] :: pairs l
  | _ => []

theorem map_pairs (n : Nat) (bs : List Byte) (h : bs.length = 2 * n) :
    ((List.range n).map fun k => leNat ((bs.drop (2 * k)).take 2)) = pairs bs := by
  induction n generalizing bs with
  | zero => simp [List.eq_nil_of_length_eq_zero h, pairs]
  | succ n ih =>
    match bs, h with
    | a :: b :: l, h =>
      rw [List.range_succ_eq_map, List.map_cons, List.map_map, pairs, ← ih l (by simp at h; omega)]
      rfl

/-- A table whose rows are all the same passes where the row does. -/
theorem tableOk_rows (row : List Nat) (hw : row.all weightOk = true) (hs : (row.map (signedOf 16)).foldl (· + ·) (0 : Int) = 1024) :
    tableOk (List.replicate 64 row).flatten row.length = true := by
  have rows : ∀ n p, p < n → ((List.replicate n row).flatten.drop (p * row.length)).take row.length = row := by
    intro n
    induction n with
    | zero => intro p h; omega
    | succ n ih =>
      intro p h
      rw [List.replicate_succ, List.flatten_cons]
      cases p with
      | zero => simp
      | succ p =>
        rw [Nat.succ_mul, Nat.add_comm, List.drop_append, List.drop_eq_nil_of_le (by omega), List.nil_append, Nat.add_sub_cancel_left]
        exact ih p (by omega)
  simp only [tableOk, Bool.and_eq_true, List.all_eq_true, List.mem_range, decide_eq_true_eq]
  refine ⟨fun x hx => ?_, fun p hp => by rw [rows 64 p hp, hs]⟩
  simp only [List.mem_flatten, List.mem_replicate] at hx
  obtain ⟨l, ⟨-, rfl⟩, hx⟩ := hx
  exact List.all_eq_true.mp hw x hx

theorem taps8_ok : tableOk (tableOf (taps 8 8) 8) 8 = true := by
  rw [tableOf, map_pairs _ _ (by decide +kernel), show pairs (taps 8 8) = (List.replicate 64 [0, 0, 0, 1024, 0, 0, 0, 0]).flatten by decide +kernel]
  exact tableOk_rows [0, 0, 0, 1024, 0, 0, 0, 0] (by decide) (by decide)

theorem taps6_ok : tableOk (tableOf (taps 4 8) 6) 6 = true := by
  rw [tableOf, map_pairs _ _ (by decide +kernel), show pairs (taps 4 8) = (List.replicate 64 [0, 1024, 0, 0, 0, 0]).flatten by decide +kernel]
  exact tableOk_rows [0, 1024, 0, 0, 0, 0] (by decide) (by decide)

theorem lt_room (l : List Byte) (n : Nat) (hl : l = List.replicate 0x4000000 0) (h : 0 < n) : stagingBytes < l.length + n := by
  rw [hl, List.length_replicate, stagingBytes]
  omega

/-- The journal's staging is full. -/
def full : State := { W with jrn := { W.jrn with st := .recording, size := 256, staging := List.replicate 0x4000000 0 } }

theorem full_staging : full.jrn.staging = List.replicate 0x4000000 0 := rfl

set_option Elab.async false
set_option synthInstance.maxSize 100000
set_option synthInstance.maxHeartbeats 2000000

/-- A store that lists a byte, and a command in front. -/
theorem test_witness_StepKeepsMemoriesCanonical :
    ∃ s t : State, s.memOk = true ∧ s.store.mem ≠ [] ∧ step s = .next t :=
  ⟨{ put 0x50000000 [1] W with pending := [.nop 5 0] }, _, by decide +kernel, by decide +kernel, rfl⟩

theorem test_witness_BlocksCrossInOrder :
    (∃ s ∈ [(W : State)], ∃ snd ∈ [(7 : Nat)], ∃ rcv ∈ [(30 : Nat)], ∃ place ∈ [(0 : Nat)], ∃ payload ∈ [(List.replicate 256 1 : List Byte)], s.endsRun snd rcv = true ∧ place = (s.crossing snd rcv).next ∧ (s.crossing snd rcv).unacked.length < 16 ∧ (∀ y ∈ (s.crossing snd rcv).unacked, y.delivered = true ∧ y.place < place) ∧ (s.crossing snd rcv).faults < 2 ^ 32 ∧ payload.length = 256 ∧ crc32c payload = (crc32c payload : BitVec 32)) ∧
    (∃ s ∈ [(W : State)], ∃ snd ∈ [(7 : Nat)], ∃ rcv ∈ [(30 : Nat)], ∃ place ∈ [(0 : Nat)], ∃ payload ∈ [(List.replicate 256 1 : List Byte)], s.endsRun snd rcv = true ∧ place = (s.crossing snd rcv).next ∧ (s.crossing snd rcv).unacked.length < 16 ∧ (∀ y ∈ (s.crossing snd rcv).unacked, y.delivered = true ∧ y.place < place) ∧ (s.crossing snd rcv).faults < 2 ^ 32 ∧ crc32c payload ≠ (crc32c payload ^^^ 1 : BitVec 32)) ∧
    (∃ place ∈ [(4 : Nat)], ∃ payload ∈ [([1] : List Byte)], ∃ x ∈ [({ Crossing.reset with snd := 7, rcv := 30, unacked := [XBlock.mk 4 [1] 7 3 false false false], next := 5 } : Crossing)], ∃ y ∈ [(XBlock.mk 4 [1] 7 3 false false false : XBlock)], ∃ l ∈ [([] : List XBlock)], x.unacked = y :: l ∧ y.place = place ∧ y.here = false ∧ y.delivered = false ∧ y.asks = 3 ∧ y.poisoned = false ∧ place < x.next ∧ (∀ z ∈ l, z.place ≠ place ∧ z.here = false ∧ z.delivered = false) ∧ crc32c payload ≠ (0 : BitVec 32) ∧ x.faults < 2 ^ 32 - 1 ∧ x.poisonedCount < 2 ^ 32 - 1) ∧
    (∃ place ∈ [(5 : Nat)], ∃ x ∈ [({ Crossing.reset with snd := 7, rcv := 30, unacked := [XBlock.mk 4 [1] 7 1 false false false], next := 5 } : Crossing)], ∃ y ∈ [(XBlock.mk 4 [1] 7 1 false false false : XBlock)], ∃ l ∈ [([] : List XBlock)], x.unacked = y :: l ∧ y.here = false ∧ y.delivered = false ∧ y.place ≠ place) ∧
    (∃ s ∈ [(W.setCrossing { Crossing.reset with snd := 7, rcv := 30, unacked := [XBlock.mk 3 [1] 7 0 true false true], next := 4 } : State)], ∃ snd ∈ [(7 : Nat)], ∃ rcv ∈ [(30 : Nat)], ∃ place ∈ [(3 : Nat)], ∃ y ∈ [(XBlock.mk 3 [1] 7 0 true false true : XBlock)], ∃ l ∈ [([] : List XBlock)], (s.crossing snd rcv).unacked = y :: l ∧ y.place = place ∧ y.delivered = true) ∧
    (∃ s ∈ [(W.setCrossing { Crossing.reset with snd := 7, rcv := 30, unacked := [XBlock.mk 3 [1] 7 0 true false true], next := 4 } : State)], ∃ snd ∈ [(7 : Nat)], ∃ rcv ∈ [(30 : Nat)], ∃ place ∈ [(4 : Nat)], ∃ y ∈ [(XBlock.mk 3 [1] 7 0 true false true : XBlock)], ∃ l ∈ [([] : List XBlock)], (s.crossing snd rcv).unacked = y :: l ∧ (y.place ≠ place ∨ y.delivered = false)) := by
  refine ⟨one (one (one (one (one ⟨by decide +kernel, by decide +kernel, by decide +kernel, by decide +kernel, by decide +kernel, List.length_replicate, rfl⟩)))), ?_⟩
  refine ⟨one (one (one (one (one ⟨by decide +kernel, by decide +kernel, by decide +kernel, by decide +kernel, by decide +kernel, ne_flip _⟩)))), ?_⟩
  iterate 3 refine ⟨by decide +kernel, ?_⟩
  decide +kernel

theorem test_witness_IslandsIsolateAndReturn :
    (∃ s ∈ [(W.setCrossing { Crossing.reset with snd := 7, rcv := 30, unacked := [XBlock.mk 3 [1] 7 0 true false false] } : State)], ∃ island ∈ [(7 : Nat)], island < s.fab.isl.length ∧ island ∈ [1, 3, 4, 5, 6, 7, 8, 9, 10, 13, 32, 33, 34] ∧ (s.island island).isolated = false) ∧
    (∃ x ∈ [({ Crossing.reset with snd := 7, rcv := 30, unacked := [XBlock.mk 3 [1] 7 0 true false false] } : Crossing)], ∃ island ∈ [(7 : Nat)], x.unacked ≠ [] ∧ x.snd = island) ∧
    (∃ x ∈ [({ Crossing.reset with snd := 30, rcv := 7, unacked := [XBlock.mk 3 [1] 7 0 true false false] } : Crossing)], ∃ island ∈ [(7 : Nat)], x.unacked ≠ [] ∧ x.snd ≠ island ∧ x.rcv = island) ∧
    (∃ x ∈ [({ Crossing.reset with snd := 30, rcv := 8, unacked := [XBlock.mk 3 [1] 7 0 true false false] } : Crossing)], ∃ island ∈ [(7 : Nat)], x.unacked ≠ [] ∧ x.snd ≠ island ∧ x.rcv ≠ island) ∧
    (∃ s ∈ [(W : State)], ∃ dt ∈ [(5 : Nat)], (s.island 0).isolated = false ∧ (((s.elapse dt).tb.now :: s.flt.restarts).filter (fun a => decide ((s.elapse dt).tb.now ≤ a + 600000000000)) = [(s.elapse dt).tb.now])) ∧
    (∃ s ∈ [(W.modIsland 32 fun x => { x with isolated := true } : State)], ∃ island ∈ [(32 : Nat)], island < s.fab.isl.length ∧ island ∈ [1, 2, 13, 31, 32, 33, 34] ∧ (s.island island).isolated = true ∧ (s.island island).barred = false) := by
  iterate 5 refine ⟨by decide +kernel, ?_⟩
  decide +kernel

theorem test_witness_FreshnessGenlockAndPlans :
    (∃ s ∈ [(fol 0 0x0210 [(0x10,1,63),(0x11,1,1),(0x14,4,20000),(0x18,4,10000)] (W.modCtx 63 fun x => { x with opened := true, owner := 1 }) : State)], ∃ ring ∈ [(0 : Nat)], ∃ b ∈ [(bg s ring : Begun)], s.hasFolio ring 0x0210 b ∧ ∃ c ∈ [(s.fctx ring b)], ∃ i ∈ [(c.u 0x10 1)], i < 64 ∧ i < s.dec.ctx.length ∧ c.u 0x11 1 < 2 ∧ c.u 0x12 2 = 0 ∧ c.u 0x14 4 ≤ 20000 ∧ 10000 ≤ c.u 0x18 4 ∧ c.u 0x18 4 ≤ 600000 ∧ (s.ctx i).opened = true ∧ (s.ctx i).owner = c.colour) ∧
    (∃ s ∈ [((fol 0 0x0210 [(0x10,1,63),(0x11,1,1),(0x14,4,20000),(0x18,4,10000)] (W.modCtx 63 fun x => { x with opened := true, owner := 1 })).modCtx 63 fun x => { x with owner := 2 } : State)], ∃ ring ∈ [(0 : Nat)], ∃ b ∈ [(bg s ring : Begun)], s.hasFolio ring 0x0210 b ∧ ∃ c ∈ [(s.fctx ring b)], ∃ i ∈ [(c.u 0x10 1)], i < 64 ∧ i < s.dec.ctx.length ∧ c.u 0x11 1 < 2 ∧ c.u 0x12 2 = 0 ∧ c.u 0x14 4 ≤ 20000 ∧ 10000 ≤ c.u 0x18 4 ∧ c.u 0x18 4 ≤ 600000 ∧ (s.ctx i).opened = true ∧ (s.ctx i).owner ≠ c.colour) ∧
    (∃ s ∈ [((fol 0 0x0210 [(0x10,1,63),(0x11,1,1),(0x14,4,20000),(0x18,4,10000)] (W.modCtx 63 fun x => { x with opened := true, owner := 1 })).modCtx 63 fun x => { x with opened := false } : State)], ∃ ring ∈ [(0 : Nat)], ∃ b ∈ [(bg s ring : Begun)], s.hasFolio ring 0x0210 b ∧ ∃ c ∈ [(s.fctx ring b)], ∃ i ∈ [(c.u 0x10 1)], i < 64 ∧ i < s.dec.ctx.length ∧ c.u 0x11 1 < 2 ∧ c.u 0x12 2 = 0 ∧ c.u 0x14 4 ≤ 20000 ∧ 10000 ≤ c.u 0x18 4 ∧ c.u 0x18 4 ≤ 600000 ∧ (s.ctx i).opened = false) ∧
    (∃ s ∈ [((fol 0 0x0211 [(0x10,1,7),(0x12,2,0x5F),(0x14,4,1000),(0x20,1,255),(0x21,1,4),(0x2C,4,1000)] (W.modLayer 7 fun x => { x with st := .idle, owner := 1 })).modHead 2 fun x => { x with on_ := [{ Shown.reset with index := 7 }] } : State)], ∃ ring ∈ [(0 : Nat)], ∃ b ∈ [(bg s ring : Begun)], s.hasFolio ring 0x0211 b ∧ (s.cmdQ ring).groupOpen = none ∧ ∃ c ∈ [(s.fctx ring b)], ∃ i ∈ [(c.u 0x10 1)], ∃ f ∈ [(freshCfgOf c)], ∃ old ∈ [((s.view none).layer i)], ∃ tm ∈ [(match old.head with | some h => (s.timings h).getLast? | none => none)], freshRanges c f = true ∧ (f.freezeN = 0 ∨ (f.sizeOk = true ∧ f.inside old.cfg tm = true)) ∧ i < s.comp.layer.length ∧ old.st ≠ .free ∧ old.owner = c.colour ∧ old.st ≠ .held ∧ s.layerReserved i none = false ∧ s.touched old i none ≠ []) ∧
    (∃ s ∈ [(fol 0 0x0211 [(0x10,1,7),(0x12,2,0x5F),(0x14,4,1000),(0x20,1,255),(0x21,1,4),(0x2C,4,1000)] (W.modLayer 7 fun x => { x with st := .idle, owner := 1 }) : State)], ∃ ring ∈ [(0 : Nat)], ∃ b ∈ [(bg s ring : Begun)], s.hasFolio ring 0x0211 b ∧ (s.cmdQ ring).groupOpen = none ∧ ∃ c ∈ [(s.fctx ring b)], ∃ i ∈ [(c.u 0x10 1)], ∃ f ∈ [(freshCfgOf c)], ∃ old ∈ [((s.view none).layer i)], ∃ tm ∈ [(match old.head with | some h => (s.timings h).getLast? | none => none)], freshRanges c f = true ∧ (f.freezeN = 0 ∨ (f.sizeOk = true ∧ f.inside old.cfg tm = true)) ∧ i < s.comp.layer.length ∧ old.st ≠ .free ∧ old.owner = c.colour ∧ old.st ≠ .held ∧ s.layerReserved i none = false ∧ s.touched old i none = []) ∧
    (∃ s ∈ [((fol 0 0x0211 [(0x10,1,7),(0x12,2,0x5F),(0x14,4,1000),(0x20,1,255),(0x21,1,4),(0x2C,4,1000)] (W.modLayer 7 fun x => { x with st := .idle, owner := 1 })).modLayer 7 fun x => { x with owner := 2 } : State)], ∃ ring ∈ [(0 : Nat)], ∃ b ∈ [(bg s ring : Begun)], s.hasFolio ring 0x0211 b ∧ (s.cmdQ ring).groupOpen = none ∧ ∃ c ∈ [(s.fctx ring b)], ∃ i ∈ [(c.u 0x10 1)], ∃ f ∈ [(freshCfgOf c)], ∃ old ∈ [((s.view none).layer i)], ∃ tm ∈ [(match old.head with | some h => (s.timings h).getLast? | none => none)], freshRanges c f = true ∧ (f.freezeN = 0 ∨ (f.sizeOk = true ∧ f.inside old.cfg tm = true)) ∧ i < s.comp.layer.length ∧ old.st ≠ .free ∧ old.owner ≠ c.colour) ∧
    (∃ s ∈ [((fol 0 0x0211 [(0x10,1,7),(0x12,2,0x5F),(0x14,4,1000),(0x20,1,255),(0x21,1,4),(0x2C,4,1000)] (W.modLayer 7 fun x => { x with st := .idle, owner := 1 })).modLayer 7 fun x => { x with st := .free } : State)], ∃ ring ∈ [(0 : Nat)], ∃ b ∈ [(bg s ring : Begun)], s.hasFolio ring 0x0211 b ∧ (s.cmdQ ring).groupOpen = none ∧ ∃ c ∈ [(s.fctx ring b)], ∃ i ∈ [(c.u 0x10 1)], ∃ f ∈ [(freshCfgOf c)], ∃ old ∈ [((s.view none).layer i)], ∃ tm ∈ [(match old.head with | some h => (s.timings h).getLast? | none => none)], freshRanges c f = true ∧ (f.freezeN = 0 ∨ (f.sizeOk = true ∧ f.inside old.cfg tm = true)) ∧ i < s.comp.layer.length ∧ old.st = .free) ∧
    (∃ s ∈ [((fol 0 0x0130 [(0x10,1,15),(0x14,4,1),(0x18,4,60)] (W.modHead 15 fun x => { x with owner := some 1 })).modHead 15 fun x => { x with owner := some 2 } : State)], ∃ ring ∈ [(0 : Nat)], ∃ b ∈ [(bg s ring : Begun)], s.hasFolio ring 0x0130 b ∧ ∃ c ∈ [(s.fctx ring b)], ∃ h ∈ [(c.u 0x10 1)], ∃ mode ∈ [(c.u 0x11 1)], h < 16 ∧ h < s.comp.head.length ∧ mode < 3 ∧ c.u 0x12 2 = 0 ∧ c.u 0x1C 4 = 0 ∧ 0 < c.u 0x18 4 ∧ c.u 0x20 8 * c.u 0x18 4 < c.u 0x14 4 * 1000000000 ∧ ((s.head h).st = .off ∨ within200 (c.u 0x14 4) (c.u 0x18 4) (((s.timings h).getLast?).getD Timing.reset) = true) ∧ (s.head h).owner ≠ some c.colour) ∧
    (∃ s ∈ [((fol 0 0x0130 [(0x10,1,15),(0x14,4,1),(0x18,4,60)] (W.modHead 15 fun x => { x with owner := some 1 })).modHead 15 fun x => { x with plan := { x.plan with st := .learning } } : State)], ∃ ring ∈ [(0 : Nat)], ∃ b ∈ [(bg s ring : Begun)], s.hasFolio ring 0x0130 b ∧ ∃ c ∈ [(s.fctx ring b)], ∃ h ∈ [(c.u 0x10 1)], ∃ mode ∈ [(c.u 0x11 1)], h < 16 ∧ h < s.comp.head.length ∧ mode < 3 ∧ c.u 0x12 2 = 0 ∧ c.u 0x1C 4 = 0 ∧ 0 < c.u 0x18 4 ∧ c.u 0x20 8 * c.u 0x18 4 < c.u 0x14 4 * 1000000000 ∧ ((s.head h).st = .off ∨ within200 (c.u 0x14 4) (c.u 0x18 4) (((s.timings h).getLast?).getD Timing.reset) = true) ∧ (s.head h).owner = some c.colour ∧ (s.head h).stopped = false ∧ mode = 0 ∧ (s.head h).plan.st ≠ .off) ∧
    (∃ s ∈ [(fol 0 0x0130 [(0x10,1,15),(0x11,1,2),(0x14,4,1),(0x18,4,60)] (W.modHead 15 fun x => { x with owner := some 1, st := .running, timing := { Timing.reset with pclk := 297000, hActive := 1920, hFront := 80, hSync := 100, hBack := 100, vActive := 2160, vFront := 40, vSync := 10, vBack := 40 } }) : State)], ∃ ring ∈ [(0 : Nat)], ∃ b ∈ [(bg s ring : Begun)], s.hasFolio ring 0x0130 b ∧ ∃ c ∈ [(s.fctx ring b)], ∃ h ∈ [(c.u 0x10 1)], ∃ mode ∈ [(c.u 0x11 1)], h < 16 ∧ h < s.comp.head.length ∧ mode < 3 ∧ c.u 0x12 2 = 0 ∧ c.u 0x1C 4 = 0 ∧ 0 < c.u 0x18 4 ∧ c.u 0x20 8 * c.u 0x18 4 < c.u 0x14 4 * 1000000000 ∧ ((s.head h).st = .off ∨ within200 (c.u 0x14 4) (c.u 0x18 4) (((s.timings h).getLast?).getD Timing.reset) = true) ∧ (s.head h).owner = some c.colour ∧ (s.head h).stopped = false ∧ (mode ≠ 0 ∨ (s.head h).plan.st = .off)) ∧
    (∃ s ∈ [(W.modHead 3 fun x => { x with st := .running, genlock := { x.genlock with mode := 1, num := 1, den := 60 }, freshRing := some 0 } : State)], ∃ h ∈ [(3 : Nat)], h < s.comp.head.length ∧ (s.head h).genlock.mode ≠ 0 ∧ ((s.head h).st = .running ∨ (s.head h).st = .changing) ∧ (s.head h).isolated = false) ∧
    (∃ s ∈ [(((fol 0 0x0212 [(0x10,1,4),(0x11,1,1),(0x12,2,60),(0x14,4,0xFFFFFF05),(0x18,2,1000),(0x20,4,2)] (W.modHead 4 fun x => { x with owner := some 1 })).modHead 4 fun x => { x with genlock := { x.genlock with mode := 1, num := 1, den := 60 } }).modCtx 5 fun x => { x with opened := true, timing := some false, cfg := { x.cfg with cls := .urgent }, decl := { x.decl with rateNum := 30, rateDen := 1 } } : State)], ∃ ring ∈ [(0 : Nat)], ∃ b ∈ [(bg s ring : Begun)], s.hasFolio ring 0x0212 b ∧ ∃ c ∈ [(s.fctx ring b)], ∃ h ∈ [(c.u 0x10 1)], ∃ size ∈ [(recordBlocks (s.head h).timing.leaves)], ∃ blocks ∈ [(c.u 0x20 4)], ∃ off ∈ [(c.u 0x1C 4)], ∃ log ∈ [(decide (8 ≤ c.u 0x1B 1))], h < 16 ∧ h < s.comp.head.length ∧ c.u 0x1A 1 < 32 ∧ c.u 0x1B 1 < 16 ∧ c.u 0x11 1 < 4 ∧ 60 ≤ c.u 0x12 2 ∧ c.u 0x12 2 ≤ 600 ∧ (∀ a ∈ anchorsOf c, a < 64) ∧ c.u 0x18 2 ≤ 1000 ∧ off % 256 = 0 ∧ blocks % size = 0 ∧ 2 * size ≤ blocks ∧ (s.head h).owner = some c.colour ∧ evOk c s (c.u 0x1A 1) = true ∧ (log = true → s.winOk (c.u 0x1B 1 % 8) c.colour = true ∧ s.winSpan (c.u 0x1B 1 % 8) off (blocks * 256) true = true) ∧ (s.head h).stopped = false ∧ c.u 0x11 1 % 2 = 1 ∧ (s.head h).genlock.mode ≠ 0 ∧ (anchorsOf c).all (s.anchorOk h) = true) ∧
    (∃ s ∈ [(fol 0 0x0212 [(0x10,1,4),(0x11,1,1),(0x12,2,60),(0x14,4,0xFFFFFF05),(0x18,2,1000),(0x20,4,2)] (W.modHead 4 fun x => { x with owner := some 1 }) : State)], ∃ ring ∈ [(0 : Nat)], ∃ b ∈ [(bg s ring : Begun)], s.hasFolio ring 0x0212 b ∧ ∃ c ∈ [(s.fctx ring b)], ∃ h ∈ [(c.u 0x10 1)], ∃ size ∈ [(recordBlocks (s.head h).timing.leaves)], ∃ blocks ∈ [(c.u 0x20 4)], ∃ off ∈ [(c.u 0x1C 4)], ∃ log ∈ [(decide (8 ≤ c.u 0x1B 1))], h < 16 ∧ h < s.comp.head.length ∧ c.u 0x1A 1 < 32 ∧ c.u 0x1B 1 < 16 ∧ c.u 0x11 1 < 4 ∧ 60 ≤ c.u 0x12 2 ∧ c.u 0x12 2 ≤ 600 ∧ (∀ a ∈ anchorsOf c, a < 64) ∧ c.u 0x18 2 ≤ 1000 ∧ off % 256 = 0 ∧ blocks % size = 0 ∧ 2 * size ≤ blocks ∧ (s.head h).owner = some c.colour ∧ evOk c s (c.u 0x1A 1) = true ∧ (log = true → s.winOk (c.u 0x1B 1 % 8) c.colour = true ∧ s.winSpan (c.u 0x1B 1 % 8) off (blocks * 256) true = true) ∧ (s.head h).stopped = false ∧ c.u 0x11 1 % 2 = 1 ∧ ((s.head h).genlock.mode = 0 ∨ (anchorsOf c).all (s.anchorOk h) = false)) ∧
    (∃ s ∈ [(fol 0 0x0212 [(0x10,1,4),(0x12,2,600),(0x20,4,4)] (W.modHead 4 fun x => { x with owner := some 1 }) : State)], ∃ ring ∈ [(0 : Nat)], ∃ b ∈ [(bg s ring : Begun)], s.hasFolio ring 0x0212 b ∧ ∃ c ∈ [(s.fctx ring b)], ∃ h ∈ [(c.u 0x10 1)], ∃ size ∈ [(recordBlocks (s.head h).timing.leaves)], ∃ blocks ∈ [(c.u 0x20 4)], ∃ off ∈ [(c.u 0x1C 4)], ∃ log ∈ [(decide (8 ≤ c.u 0x1B 1))], h < 16 ∧ h < s.comp.head.length ∧ c.u 0x1A 1 < 32 ∧ c.u 0x1B 1 < 16 ∧ c.u 0x11 1 < 4 ∧ 60 ≤ c.u 0x12 2 ∧ c.u 0x12 2 ≤ 600 ∧ (∀ a ∈ anchorsOf c, a < 64) ∧ c.u 0x18 2 ≤ 1000 ∧ off % 256 = 0 ∧ blocks % size = 0 ∧ 2 * size ≤ blocks ∧ (s.head h).owner = some c.colour ∧ evOk c s (c.u 0x1A 1) = true ∧ (log = true → s.winOk (c.u 0x1B 1 % 8) c.colour = true ∧ s.winSpan (c.u 0x1B 1 % 8) off (blocks * 256) true = true) ∧ (s.head h).stopped = false ∧ c.u 0x11 1 % 2 = 0) ∧
    (∃ s ∈ [(W.modHead 4 fun x => { x with plan := { x.plan with st := .learning } } : State)], ∃ h ∈ [(4 : Nat)], h < s.comp.head.length ∧ (s.head h).plan.st = .learning ∧ (s.head h).plan.learned = true) := by
  iterate 14 refine ⟨by decide +kernel, ?_⟩
  decide +kernel

theorem test_witness_EthernetPortsFollowTheirCommands :
    (∃ s ∈ [((fol 0 0x0100 [(0x10,1,3),(0x11,1,4),(0x12,2,1518),(0x14,4,0x0A000005),(0x18,1,8)] W).modPort 3 fun p => { p with mode := 4, link := true } : State)], ∃ ring ∈ [(0 : Nat)], ∃ b ∈ [(bg s ring : Begun)], s.hasFolio ring 0x0100 b ∧ ∃ c ∈ [(s.fctx ring b)], ∃ p ∈ [(c.u 0x10 1)], ∃ mode ∈ [(c.u 0x11 1)], p < 4 ∧ mode ≤ 4 ∧ 1518 ≤ c.u 0x12 2 ∧ c.u 0x12 2 ≤ 9022 ∧ 8 ≤ c.u 0x18 1 ∧ c.u 0x18 1 ≤ 30 ∧ c.u 0x19 1 = 0 ∧ c.u 0x1A 2 / 2 ^ 12 % 8 = 0 ∧ p < s.net.ports.length ∧ c.colour = s.admin ∧ mode = (s.port p).mode) ∧
    (∃ s ∈ [((fol 0 0x0100 [(0x10,1,3),(0x11,1,4),(0x12,2,1518),(0x14,4,0x0A000005),(0x18,1,8)] W).modPort 3 fun p => { p with mode := 1, link := true } : State)], ∃ ring ∈ [(0 : Nat)], ∃ b ∈ [(bg s ring : Begun)], s.hasFolio ring 0x0100 b ∧ ∃ c ∈ [(s.fctx ring b)], ∃ p ∈ [(c.u 0x10 1)], ∃ mode ∈ [(c.u 0x11 1)], p < 4 ∧ mode ≤ 4 ∧ 1518 ≤ c.u 0x12 2 ∧ c.u 0x12 2 ≤ 9022 ∧ 8 ≤ c.u 0x18 1 ∧ c.u 0x18 1 ≤ 30 ∧ c.u 0x19 1 = 0 ∧ c.u 0x1A 2 / 2 ^ 12 % 8 = 0 ∧ p < s.net.ports.length ∧ c.colour = s.admin ∧ mode ≠ (s.port p).mode) ∧
    (∃ s ∈ [(fol 0 0x0100 [(0x10,1,3),(0x11,1,4),(0x12,2,9022),(0x18,1,30)] { W with sec := { W.sec with config := { W.sec.config with admin := 2 } } } : State)], ∃ ring ∈ [(0 : Nat)], ∃ b ∈ [(bg s ring : Begun)], s.hasFolio ring 0x0100 b ∧ ∃ c ∈ [(s.fctx ring b)], ∃ p ∈ [(c.u 0x10 1)], ∃ mode ∈ [(c.u 0x11 1)], p < 4 ∧ mode ≤ 4 ∧ 1518 ≤ c.u 0x12 2 ∧ c.u 0x12 2 ≤ 9022 ∧ 8 ≤ c.u 0x18 1 ∧ c.u 0x18 1 ≤ 30 ∧ c.u 0x19 1 = 0 ∧ c.u 0x1A 2 / 2 ^ 12 % 8 = 0 ∧ p < s.net.ports.length ∧ c.colour ≠ s.admin) ∧
    (∃ s ∈ [(W.modPort 3 fun p => { p with mode := 1 } : State)], ∃ p ∈ [(3 : Nat)], ∃ up ∈ [(true : Bool)], p < 4 ∧ p < s.net.ports.length ∧ (s.port p).link ≠ up ∧ (up = true → (s.port p).mode ≠ 0)) ∧
    (∃ s ∈ [(live 0 W : State)], ∃ p ∈ [(0 : Nat)], (s.port p).link = true ∧ (s.port p).mode ≠ 0 ∧ s.portIp (s.port p) = (0x0A000002 : BitVec 32) ∧ s.top.ready = true ∧ s.top.replay = false) ∧
    (∃ s ∈ [(live 0 W : State)], ∃ p ∈ [(0 : Nat)], s.portIp (s.port p) ≠ (0x0A000003 : BitVec 32)) ∧
    (∃ s ∈ [(live 0 W : State)], ∃ p ∈ [(0 : Nat)], ∃ version ∈ [(2 : Nat)], 2 ≤ version ∧ p < s.net.ports.length ∧ (s.port p).link = true ∧ s.top.ready = true ∧ s.top.replay = false) := by
  iterate 6 refine ⟨by decide +kernel, ?_⟩
  decide +kernel

theorem test_witness_StreamContextsOpenAndClose :
    (∃ s ∈ [(fol 0 0x0101 [(0x10,1,63),(0x11,1,2),(0x12,1,1),(0x14,4,0x010000EF),(0x1C,2,6000),(0x1E,2,6001),(0x22,1,96),(0x24,4,7),(0x38,4,8000),(0x3C,4,65536),(0x40,4,4096),(0x44,2,10),(0x46,2,1)] { W with store := { W.store with ready := true } } : State)], ∃ dt ∈ [(5 : Nat)], ∃ ring ∈ [(0 : Nat)], ∃ b ∈ [(bg s ring : Begun)], s.hasFolio ring 0x0101 b ∧ ∃ c ∈ [(s.fctx ring b)], ∃ i ∈ [(c.u 0x10 1)], ∃ cfg ∈ [(openCfg c)], openRanges c = true ∧ profilesMatch ((s.ctx i).openDecl c.colour cfg.hevc).profiles cfg.hevc = true ∧ i < s.dec.ctx.length ∧ (s.ctx i).opened = false ∧ evOk c s (c.u 0x23 1) = true ∧ s.slotOk c.colour cfg.srtp cfg.keySlot = true ∧ ∃ r ∈ [((s.elapse dt).discardKept c)], (∀ o ∈ s.dec.ctx, o.opened = true → o.cfg.overlaps cfg = false) ∧ (((s.dec.ctx.filter (·.opened)).map fun o => o.cfg.maxRate).sum + cfg.maxRate ≤ 8000000) ∧ State.groupsFit { r with dec := { r.dec with ctx := r.openList c } } = true ∧ (r.admitContext (r.openList c) i false).isSome = true ∧ (bodyStreamOpen c r).withinPoint r true = true) ∧
    (∃ s ∈ [(live 0 (fol 0 0x0101 [(0x10,1,63),(0x11,1,2),(0x12,1,1),(0x14,4,0x010000EF),(0x1C,2,5000),(0x1E,2,6001),(0x22,1,96),(0x24,4,7),(0x28,2,1),(0x38,4,8000),(0x3C,4,65536),(0x40,4,4096),(0x44,2,10),(0x46,2,1)] W) : State)], ∃ ring ∈ [(0 : Nat)], ∃ b ∈ [(bg s ring : Begun)], s.hasFolio ring 0x0101 b ∧ ∃ c ∈ [(s.fctx ring b)], ∃ i ∈ [(c.u 0x10 1)], ∃ cfg ∈ [(openCfg c)], openRanges c = true ∧ profilesMatch ((s.ctx i).openDecl c.colour cfg.hevc).profiles cfg.hevc = true ∧ i < s.dec.ctx.length ∧ (s.ctx i).opened = false ∧ evOk c s (c.u 0x23 1) = true ∧ s.slotOk c.colour cfg.srtp cfg.keySlot = true ∧ ∃ o ∈ [((live 0 W).ctx 0)], o ∈ s.dec.ctx ∧ o.opened = true ∧ o.cfg.overlaps cfg = true) ∧
    (∃ s ∈ [(fol 0 0x0103 [(0x10,1,63),(0x12,2,232),(0x18,4,0x67)] (W.modCtx 63 fun x => { x with opened := true, owner := 1 }) : State)], ∃ ring ∈ [(0 : Nat)], ∃ b ∈ [(bg s ring : Begun)], s.hasFolio ring 0x0103 b ∧ ∃ c ∈ [(s.fctx ring b)], ∃ i ∈ [(c.u 0x10 1)], ∃ n ∈ [(c.u 0x12 2)], i < 64 ∧ 1 ≤ n ∧ n ≤ 232 ∧ i < s.dec.ctx.length ∧ (s.ctx i).opened = true ∧ (s.ctx i).owner = c.colour) ∧
    (∃ s ∈ [(fol 0 0x0102 [(0x10,1,0)] (live 0 W) : State)], ∃ ring ∈ [(0 : Nat)], ∃ b ∈ [(bg s ring : Begun)], s.hasFolio ring 0x0102 b ∧ ∃ c ∈ [(s.fctx ring b)], ∃ i ∈ [(c.u 0x10 1)], i < 64 ∧ i < s.dec.ctx.length ∧ (s.ctx i).opened = true ∧ (s.ctx i).owner = c.colour) ∧
    (∃ s ∈ [((fol 0 0x0102 [(0x10,1,0)] (live 0 W)).modCtx 0 fun x => { x with owner := 2 } : State)], ∃ ring ∈ [(0 : Nat)], ∃ b ∈ [(bg s ring : Begun)], s.hasFolio ring 0x0102 b ∧ ∃ c ∈ [(s.fctx ring b)], ∃ i ∈ [(c.u 0x10 1)], i < 64 ∧ i < s.dec.ctx.length ∧ (s.ctx i).opened = true ∧ (s.ctx i).owner ≠ c.colour) := by
  iterate 4 refine ⟨by decide +kernel, ?_⟩
  decide +kernel

theorem test_witness_PacketsReachTheirContext :
    (∃ s ∈ [(live 9 W : State)], ∃ f ∈ [(FrameIn.mk 0 false [1] true [] : FrameIn)], f.port < s.net.ports.length ∧ (s.port f.port).link = true ∧ (s.port f.port).mode ≠ 0 ∧ (s.island islNet).isolated = false ∧ f.fcsOk = false) ∧
    (∃ s ∈ [(live 9 W : State)], ∃ dt ∈ [(5 : Nat)], ∃ f ∈ [(FrameIn.mk 0 true (frame [1,2]) true [] : FrameIn)], f.port < s.net.ports.length ∧ (s.port f.port).link = true ∧ (s.port f.port).mode ≠ 0 ∧ (s.island islNet).isolated = false ∧ ∃ d ∈ [(dgram [1,2])], classify (s.port f.port).maxFrame f.fcsOk f.bytes = .udp d ∧ (s.elapse dt).consumer f.port d = .nobody) ∧
    (∃ s ∈ [((live 9 W).modCtx 9 fun x => { x with tokens := [0,0,0,0] } : State)], ∃ dt ∈ [(5 : Nat)], ∃ f ∈ [(FrameIn.mk 0 true (frame (rtp 5 [0x65, 0x80])) true [] : FrameIn)], ∃ d ∈ [(dgram (rtp 5 [0x65, 0x80]) : Dgram)], ∃ k ∈ [(9 : Nat)], (s.port f.port).link = true ∧ (s.port f.port).mode ≠ 0 ∧ (s.island islNet).isolated = false ∧ s.top.replay = false ∧ classify (s.port f.port).maxFrame f.fcsOk f.bytes = .udp d ∧ (s.elapse dt).consumer f.port d = .rtp k ∧ k < s.dec.ctx.length ∧ ∃ x ∈ [(s.ctx k)], ∃ e ∈ [(x.extend (rtpSeq d.payload))], x.cfg.srtp = 0 ∧ x.credit f.port (s.elapse dt).tb.now < d.payload.length * tokenUnit ∧ (x.ssrc.isSome = false ∨ x.ssrcOk (rtpSsrc d.payload) = false ∨ (fb d.payload 0 1 / 64 = 2 ∧ x.fate f.port e (payKind x.cfg.hevc (rtpPayload d.payload)) = .store))) ∧
    (∃ s ∈ [((live 9 W).modCtx 9 fun x => { x with seen := [(5,1)], highest := some 5 } : State)], ∃ dt ∈ [(5 : Nat)], ∃ f ∈ [(FrameIn.mk 0 true (frame (rtp 5 [0x65, 0x80])) true [] : FrameIn)], ∃ d ∈ [(dgram (rtp 5 [0x65, 0x80]) : Dgram)], ∃ k ∈ [(9 : Nat)], (s.port f.port).link = true ∧ (s.port f.port).mode ≠ 0 ∧ (s.island islNet).isolated = false ∧ s.top.replay = false ∧ classify (s.port f.port).maxFrame f.fcsOk f.bytes = .udp d ∧ (s.elapse dt).consumer f.port d = .rtp k ∧ k < s.dec.ctx.length ∧ ∃ x ∈ [(s.ctx k)], ∃ e ∈ [(x.extend (rtpSeq d.payload))], x.cfg.srtp = 0 ∧ d.payload.length * tokenUnit ≤ x.credit f.port (s.elapse dt).tb.now ∧ fb d.payload 0 1 / 64 = 2 ∧ x.ssrcOk (rtpSsrc d.payload) = true ∧ x.ssrc.isSome = true ∧ (∃ y ∈ x.seen, y.1 = e) ∧ x.highest.isSome = true) ∧
    (∃ s ∈ [((live 9 W).modCtx 9 fun x => { x with highest := some 4, passNext := some 5 } : State)], ∃ dt ∈ [(5 : Nat)], ∃ f ∈ [(FrameIn.mk 0 true (frame (rtp 5 [0x65, 0x80])) true [] : FrameIn)], ∃ d ∈ [(dgram (rtp 5 [0x65, 0x80]) : Dgram)], ∃ k ∈ [(9 : Nat)], (s.port f.port).link = true ∧ (s.port f.port).mode ≠ 0 ∧ (s.island islNet).isolated = false ∧ s.top.replay = false ∧ classify (s.port f.port).maxFrame f.fcsOk f.bytes = .udp d ∧ (s.elapse dt).consumer f.port d = .rtp k ∧ k < s.dec.ctx.length ∧ ∃ x ∈ [(s.ctx k)], ∃ e ∈ [(x.extend (rtpSeq d.payload))], x.cfg.srtp = 0 ∧ d.payload.length * tokenUnit ≤ x.credit f.port (s.elapse dt).tb.now ∧ fb d.payload 0 1 / 64 = 2 ∧ x.ssrcOk (rtpSsrc d.payload) = true ∧ x.ssrc.isSome = true ∧ (∀ y ∈ x.seen, y.1 ≠ e) ∧ x.st ≠ .shed ∧ s.bufUsed k + 256 * ceilDiv d.payload.length 256 ≤ x.cfg.buffer * 1024 ∧ x.pkts = [] ∧ x.lostSeqs = [] ∧ ∃ l ∈ [([[0x65, 0x80]] : List (List Byte))], ∃ u ∈ [([0x65, 0x80] : List Byte)], payKind x.cfg.hevc (rtpPayload d.payload) = .units l ∧ ((l.filter fun n => isSlice x.cfg.hevc (nalType x.cfg.hevc n)) = [u]) ∧ x.missing = [] ∧ x.highest = some (e - 1) ∧ 0 < e ∧ x.passNext = some e) ∧
    (∃ s ∈ [((live 9 W).modCtx 9 fun x => { x with highest := some 3, passNext := some 4 } : State)], ∃ dt ∈ [(5 : Nat)], ∃ f ∈ [(FrameIn.mk 0 true (frame (rtp 5 [0x7C, 0x85, 1])) true [] : FrameIn)], ∃ d ∈ [(dgram (rtp 5 [0x7C, 0x85, 1]) : Dgram)], ∃ k ∈ [(9 : Nat)], (s.port f.port).link = true ∧ (s.port f.port).mode ≠ 0 ∧ (s.island islNet).isolated = false ∧ s.top.replay = false ∧ classify (s.port f.port).maxFrame f.fcsOk f.bytes = .udp d ∧ (s.elapse dt).consumer f.port d = .rtp k ∧ k < s.dec.ctx.length ∧ ∃ x ∈ [(s.ctx k)], ∃ e ∈ [(x.extend (rtpSeq d.payload))], x.cfg.srtp = 0 ∧ d.payload.length * tokenUnit ≤ x.credit f.port (s.elapse dt).tb.now ∧ fb d.payload 0 1 / 64 = 2 ∧ x.ssrcOk (rtpSsrc d.payload) = true ∧ x.ssrc.isSome = true ∧ (∀ y ∈ x.seen, y.1 ≠ e) ∧ x.st ≠ .shed ∧ s.bufUsed k + 256 * ceilDiv d.payload.length 256 ≤ x.cfg.buffer * 1024 ∧ x.pkts = [] ∧ x.lostSeqs = [] ∧ ∃ h ∈ [(3 : Nat)], ∃ ty ∈ [(5 : Nat)], ∃ first_ ∈ [(true : Bool)], payKind x.cfg.hevc (rtpPayload d.payload) = .piece ty first_ false ∧ x.highest = some h ∧ h + 1 < e ∧ x.passNext = some (h + 1)) ∧
    (∃ s ∈ [((live 9 W).modCtx 9 fun x => { x with missing := [⟨3, 5⟩, ⟨4, 6⟩] } : State)], ∃ dt ∈ [(5 : Nat)], ∃ k ∈ [(9 : Nat)], k < s.dec.ctx.length ∧ s.top.replay = false ∧ (∃ m ∈ (s.ctx k).missing, m.deadline ≤ (s.elapse dt).tb.now) ∧ (s.ctx k).count.lost + (s.ctx k).missing.length < 2 ^ 32) ∧
    (∃ s ∈ [(live 9 { W with tb := { W.tb with now := 2000000000 } } : State)], ∃ dt ∈ [(5 : Nat)], ∃ k ∈ [(9 : Nat)], k < s.dec.ctx.length ∧ (s.ctx k).opened = true ∧ (s.ctx k).silent = false ∧ (s.elapse dt).since (s.ctx k).lastPkt 1000000000 = true) ∧
    (∃ s ∈ [((live 9 W).modCtx 9 fun x => { x with intReasons := 2, intDropped := 4 } : State)], ∃ dt ∈ [(5 : Nat)], ∃ k ∈ [(9 : Nat)], k < s.dec.ctx.length ∧ (s.ctx k).opened = true ∧ (s.ctx k).intReasons ≠ 0 ∧ (s.elapse dt).since (s.ctx k).lossAt 1000000000 = true) ∧
    (∃ s ∈ [((live 9 W).modCtx 9 fun x => { x with srPeer := some (1, 2), cfg := { x.cfg with sendRr := true } } : State)], ∃ dt ∈ [(5000000000 : Nat)], ∃ k ∈ [(9 : Nat)], ∃ ip ∈ [(1 : Nat)], ∃ udp ∈ [(2 : Nat)], k < s.dec.ctx.length ∧ ∃ x ∈ [(s.ctx k)], x.opened = true ∧ x.cfg.sendRr = true ∧ x.cfg.hostFed = false ∧ x.srPeer = some (ip, udp) ∧ s.top.replay = false ∧ s.role ≠ 2 ∧ x.rrAt + x.cfg.rrInterval * 1000000000 ≤ (s.elapse dt).tb.now) := by
  iterate 9 refine ⟨by decide +kernel, ?_⟩
  decide +kernel

theorem test_witness_DeviceTimeFollowsTheGrandmaster :
    (∃ s ∈ [(fol 0 0x0110 [(0x10,1,0),(0x14,4,1000),(0x18,4,20),(0x1C,4,1)] W : State)], ∃ ring ∈ [(0 : Nat)], ∃ b ∈ [(bg s ring : Begun)], s.hasFolio ring 0x0110 b ∧ ∃ c ∈ [(s.fctx ring b)], ∃ u ∈ [(c.u)], u 0x10 1 < 128 ∧ u 0x11 1 < 32 ∧ u 0x12 2 = 0 ∧ 1000 ≤ u 0x14 4 ∧ u 0x14 4 ≤ 1000000000 ∧ 20 ≤ u 0x18 4 ∧ u 0x18 4 ≤ 10000 ∧ 1 ≤ u 0x1C 4 ∧ u 0x1C 4 ≤ 86400 ∧ c.colour = s.admin ∧ evOk c s (u 0x11 1) = true ∧ u 0x10 1 = s.tb.domain) ∧
    (∃ s ∈ [(fol 0 0x0110 [(0x10,1,127),(0x14,4,1000),(0x18,4,20),(0x1C,4,1)] { W with tb := { W.tb with lock := .locked } } : State)], ∃ ring ∈ [(0 : Nat)], ∃ b ∈ [(bg s ring : Begun)], s.hasFolio ring 0x0110 b ∧ ∃ c ∈ [(s.fctx ring b)], ∃ u ∈ [(c.u)], u 0x10 1 < 128 ∧ u 0x11 1 < 32 ∧ u 0x12 2 = 0 ∧ 1000 ≤ u 0x14 4 ∧ u 0x14 4 ≤ 1000000000 ∧ 20 ≤ u 0x18 4 ∧ u 0x18 4 ≤ 10000 ∧ 1 ≤ u 0x1C 4 ∧ u 0x1C 4 ≤ 86400 ∧ c.colour = s.admin ∧ evOk c s (u 0x11 1) = true ∧ u 0x10 1 ≠ s.tb.domain ∧ s.tb.lock = .locked) ∧
    (∃ s ∈ [({ (fol 0 0x0110 [(0x10,1,0),(0x14,4,1000),(0x18,4,20),(0x1C,4,1)] W) with sec := { W.sec with config := { W.sec.config with admin := 2 } } } : State)], ∃ ring ∈ [(0 : Nat)], ∃ b ∈ [(bg s ring : Begun)], s.hasFolio ring 0x0110 b ∧ ∃ c ∈ [(s.fctx ring b)], ∃ u ∈ [(c.u)], u 0x10 1 < 128 ∧ u 0x11 1 < 32 ∧ u 0x12 2 = 0 ∧ 1000 ≤ u 0x14 4 ∧ u 0x14 4 ≤ 1000000000 ∧ 20 ≤ u 0x18 4 ∧ u 0x18 4 ≤ 10000 ∧ 1 ≤ u 0x1C 4 ∧ u 0x1C 4 ≤ 86400 ∧ c.colour ≠ s.admin) ∧
    (∃ s ∈ [(fol 0 0x0113 [(0x10,1,0),(0x11,1,1)] W : State)], ∃ ring ∈ [(0 : Nat)], ∃ b ∈ [(bg s ring : Begun)], s.hasFolio ring 0x0113 b ∧ ∃ c ∈ [(s.fctx ring b)], ∃ n ∈ [(c.u 0x10 1)], ∃ m ∈ [(c.u 0x11 1)], n < 32 ∧ m < 2 ∧ n < s.host.evtq.length ∧ s.ringColour n = c.colour) ∧
    (∃ s ∈ [(fol 0 0x0113 [(0x10,1,31),(0x11,1,1)] W : State)], ∃ ring ∈ [(0 : Nat)], ∃ b ∈ [(bg s ring : Begun)], s.hasFolio ring 0x0113 b ∧ ∃ c ∈ [(s.fctx ring b)], ∃ n ∈ [(c.u 0x10 1)], ∃ m ∈ [(c.u 0x11 1)], n < 32 ∧ m < 2 ∧ n < s.host.evtq.length ∧ s.ringColour n ≠ c.colour) ∧
    (∃ s ∈ [(fol 0 0x0111 [(0x10,1,3),(0x11,1,7),(0x14,4,1000000),(0x18,4,0xFFF0BDC0),(0x1C,4,10000000)] W : State)], ∃ ring ∈ [(0 : Nat)], ∃ b ∈ [(bg s ring : Begun)], s.hasFolio ring 0x0111 b ∧ ∃ c ∈ [(s.fctx ring b)], ∃ p ∈ [(c.u 0x10 1)], p < 4 ∧ p < s.tb.ptp.length ∧ c.u 0x11 1 < 8 ∧ c.u 0x12 2 = 0 ∧ (c.i 0x14 4).natAbs ≤ 1000000 ∧ (c.i 0x18 4).natAbs ≤ 1000000 ∧ (c.i 0x1C 4).natAbs ≤ 10000000 ∧ c.colour = s.admin ∧ bitOf (c.u 0x11 1) 0 = true) ∧
    (∃ s ∈ [({ ({ live 0 (W.modPtp 0 fun p => { p with enable := true }) with tb := { (W.modPtp 0 fun p => { p with enable := true }).tb with slavePort := some 0, gm := 9, acquired := true, okSyncs := 15, stepLimit := 1000, lockLimit := 20 } }) with tb := { (({ live 0 (W.modPtp 0 fun p => { p with enable := true }) with tb := { (W.modPtp 0 fun p => { p with enable := true }).tb with slavePort := some 0, gm := 9, acquired := true, okSyncs := 15, stepLimit := 1000, lockLimit := 20 } })).tb with lock := .locked } } : State)], ∃ dt ∈ [(5 : Nat)], ∃ p ∈ [(0 : Nat)], ∃ domain ∈ [(W.tb.domain : Nat)], ∃ origin ∈ [(0 : Nat)], s.runsPtp = true ∧ (s.ptp p).enable = true ∧ (s.port p).link = true ∧ (s.port p).mode ≠ 0 ∧ domain = s.tb.domain ∧ s.tb.slavePort = some p ∧ (9 : BitVec 64) = s.tb.gm ∧ s.tb.acquired = true ∧ ∃ off ∈ [((s.elapse dt).ptpStamp p - (origin : Int) - (((s.ptp p).meanPath : Int) + (s.ptp p).asymmetry / 1000) : Int)], s.tb.lock = .locked ∧ off.natAbs ≤ s.tb.stepLimit ∧ off.natAbs ≤ 4 * s.tb.lockLimit) ∧
    (∃ s ∈ [({ ({ live 0 (W.modPtp 0 fun p => { p with enable := true }) with tb := { (W.modPtp 0 fun p => { p with enable := true }).tb with slavePort := some 0, gm := 9, acquired := true, okSyncs := 15, stepLimit := 1000, lockLimit := 20 } }) with tb := { (({ live 0 (W.modPtp 0 fun p => { p with enable := true }) with tb := { (W.modPtp 0 fun p => { p with enable := true }).tb with slavePort := some 0, gm := 9, acquired := true, okSyncs := 15, stepLimit := 1000, lockLimit := 20 } })).tb with lock := .acquiring } } : State)], ∃ dt ∈ [(5 : Nat)], ∃ p ∈ [(0 : Nat)], ∃ domain ∈ [(W.tb.domain : Nat)], ∃ origin ∈ [(0 : Nat)], s.runsPtp = true ∧ (s.ptp p).enable = true ∧ (s.port p).link = true ∧ (s.port p).mode ≠ 0 ∧ domain = s.tb.domain ∧ s.tb.slavePort = some p ∧ (9 : BitVec 64) = s.tb.gm ∧ s.tb.acquired = true ∧ ∃ off ∈ [((s.elapse dt).ptpStamp p - (origin : Int) - (((s.ptp p).meanPath : Int) + (s.ptp p).asymmetry / 1000) : Int)], s.tb.lock = .acquiring ∧ off.natAbs ≤ s.tb.stepLimit ∧ off.natAbs ≤ s.tb.lockLimit ∧ s.tb.okSyncs = 15) ∧
    (∃ s ∈ [({ ({ live 0 (W.modPtp 0 fun p => { p with enable := true }) with tb := { (W.modPtp 0 fun p => { p with enable := true }).tb with slavePort := some 0, gm := 9, acquired := true, okSyncs := 15, stepLimit := 1000, lockLimit := 20 } }) with tb := { (({ live 0 (W.modPtp 0 fun p => { p with enable := true }) with tb := { (W.modPtp 0 fun p => { p with enable := true }).tb with slavePort := some 0, gm := 9, acquired := true, okSyncs := 15, stepLimit := 1000, lockLimit := 20 } })).tb with lock := .locked } } : State)], ∃ dt ∈ [(20000 : Nat)], ∃ p ∈ [(0 : Nat)], ∃ domain ∈ [(W.tb.domain : Nat)], ∃ origin ∈ [(0 : Nat)], s.runsPtp = true ∧ (s.ptp p).enable = true ∧ (s.port p).link = true ∧ (s.port p).mode ≠ 0 ∧ domain = s.tb.domain ∧ s.tb.slavePort = some p ∧ (9 : BitVec 64) = s.tb.gm ∧ s.tb.acquired = true ∧ ∃ off ∈ [((s.elapse dt).ptpStamp p - (origin : Int) - (((s.ptp p).meanPath : Int) + (s.ptp p).asymmetry / 1000) : Int)], s.tb.lock = .locked ∧ s.tb.stepLimit < off.natAbs) ∧
    (∃ s ∈ [(live 0 (W.modPtp 0 fun p => { p with enable := true }) : State)], ∃ dt ∈ [(5 : Nat)], ∃ p ∈ [(0 : Nat)], ∃ domain ∈ [(W.tb.domain : Nat)], ∃ iv ∈ [(0 : Int)], p < 4 ∧ p < s.tb.ptp.length ∧ (s.ptp p).enable = true ∧ (s.port p).link = true ∧ (s.port p).mode ≠ 0 ∧ domain = s.tb.domain ∧ 0 < (s.ptp p).receiptTimeout * announceNs iv ∧ s.runsPtp = true ∧ (∀ k, k < s.tb.ptp.length → k ≠ p → (s.ptp k).qualified (s.elapse dt).tb.now = false)) ∧
    (∃ s ∈ [({ ((live 0 (W.modPtp 0 fun p => { p with enable := true }))).modMember 1 (fun x => { x with st := 1 }) with top := { W.top with gatherId := 2 } } : State)], ∃ p ∈ [(0 : Nat)], ∃ domain ∈ [(W.tb.domain : Nat)], ∃ iv ∈ [(0 : Int)], p < 4 ∧ p < s.tb.ptp.length ∧ (s.ptp p).enable = true ∧ (s.port p).link = true ∧ (s.port p).mode ≠ 0 ∧ domain = s.tb.domain ∧ 0 < (s.ptp p).receiptTimeout * announceNs iv ∧ s.runsPtp = false) ∧
    (∃ s ∈ [({ W with tb := { (W.modPtp 0 fun p => { p with enable := true, announceAt := some 0, receiptTimeout := 3 }).tb with slavePort := some 0, lock := .locked } } : State)], ∃ dt ∈ [(100000000000 : Nat)], ∃ p ∈ [(0 : Nat)], ∃ t0 ∈ [(0 : Nat)], s.tb.slavePort = some p ∧ (s.ptp p).announceAt = some t0 ∧ t0 + (s.ptp p).receiptTimeout * announceNs (s.ptp p).announceLog ≤ (s.elapse dt).tb.now ∧ (∀ k, k < s.tb.ptp.length → k ≠ p → (s.ptp k).qualified (s.elapse dt).tb.now = false) ∧ s.tb.lock = .locked) ∧
    (∃ s ∈ [({ W with tb := { W.tb with lock := .holdover, holdSince := 0, holdMax := 1 } } : State)], ∃ dt ∈ [(1000000000 : Nat)], s.tb.lock = .holdover ∧ s.tb.holdSince + s.tb.holdMax * 1000000000 ≤ (s.elapse dt).tb.now) := by
  iterate 12 refine ⟨by decide +kernel, ?_⟩
  decide +kernel

theorem test_witness_LaunchesGoOutAtTheirTime :
    (∃ s ∈ [(win (fol 0 0x0120 [(0x10,1,0),(0x11,1,7),(0x12,1,1),(0x18,2,60),(0x1C,4,50005),(0x20,4,100000)] (live 0 W)) : State)], ∃ dt ∈ [(5 : Nat)], ∃ ring ∈ [(0 : Nat)], ∃ b ∈ [(bg s ring : Begun)], s.hasFolio ring 0x0120 b ∧ ∃ c ∈ [(s.fctx ring b)], ∃ u ∈ [(c.u)], ∃ p ∈ [(u 0x10 1)], ∃ q ∈ [(u 0x11 1)], ∃ d ∈ [(shortDiff (u 0x1C 4) (s.elapse dt).tb.dev)], p < 4 ∧ q < 8 ∧ u 0x12 1 < 2 ∧ u 0x13 1 < 8 ∧ u 0x14 4 % 256 = 0 ∧ 60 ≤ u 0x18 2 ∧ u 0x18 2 + 4 ≤ max (s.port p).maxFrame 64 ∧ u 0x1A 2 = 0 ∧ (bitOf (u 0x12 1) 0 = true → 100000 ≤ u 0x20 4 ∧ u 0x20 4 ≤ 1000000000) ∧ d ≤ 2000000000 ∧ s.winOk (u 0x13 1) c.colour = true ∧ s.winSpan (u 0x13 1) (u 0x14 4) (u 0x18 2) false = true ∧ (s.port p).mode ≠ 0 ∧ p < s.net.ports.length ∧ q < (s.port p).queues.length ∧ (s.queue p q).length < 64 ∧ 50000 ≤ d) ∧
    (∃ s ∈ [(win (fol 0 0x0120 [(0x10,1,0),(0x11,1,7),(0x12,1,0),(0x18,2,60),(0x1C,4,50004)] (live 0 W)) : State)], ∃ dt ∈ [(5 : Nat)], ∃ ring ∈ [(0 : Nat)], ∃ b ∈ [(bg s ring : Begun)], s.hasFolio ring 0x0120 b ∧ ∃ c ∈ [(s.fctx ring b)], ∃ u ∈ [(c.u)], ∃ p ∈ [(u 0x10 1)], ∃ q ∈ [(u 0x11 1)], ∃ d ∈ [(shortDiff (u 0x1C 4) (s.elapse dt).tb.dev)], p < 4 ∧ q < 8 ∧ u 0x12 1 < 2 ∧ u 0x13 1 < 8 ∧ u 0x14 4 % 256 = 0 ∧ 60 ≤ u 0x18 2 ∧ u 0x18 2 + 4 ≤ max (s.port p).maxFrame 64 ∧ u 0x1A 2 = 0 ∧ (bitOf (u 0x12 1) 0 = true → 100000 ≤ u 0x20 4 ∧ u 0x20 4 ≤ 1000000000) ∧ d ≤ 2000000000 ∧ s.winOk (u 0x13 1) c.colour = true ∧ s.winSpan (u 0x13 1) (u 0x14 4) (u 0x18 2) false = true ∧ (s.port p).mode ≠ 0 ∧ p < s.net.ports.length ∧ q < (s.port p).queues.length ∧ (s.queue p q).length < 64 ∧ d < 50000) ∧
    (∃ s ∈ [(((win (fol 0 0x0120 [(0x10,1,0),(0x11,1,7),(0x12,1,1),(0x18,2,60),(0x1C,4,50005),(0x20,4,100000)] (live 0 W)))).modQueue 0 7 fun _ => List.replicate 64 LaunchEntry.reset : State)], ∃ dt ∈ [(5 : Nat)], ∃ ring ∈ [(0 : Nat)], ∃ b ∈ [(bg s ring : Begun)], s.hasFolio ring 0x0120 b ∧ ∃ c ∈ [(s.fctx ring b)], ∃ u ∈ [(c.u)], ∃ p ∈ [(u 0x10 1)], ∃ q ∈ [(u 0x11 1)], ∃ d ∈ [(shortDiff (u 0x1C 4) (s.elapse dt).tb.dev)], p < 4 ∧ q < 8 ∧ u 0x12 1 < 2 ∧ u 0x13 1 < 8 ∧ u 0x14 4 % 256 = 0 ∧ 60 ≤ u 0x18 2 ∧ u 0x18 2 + 4 ≤ max (s.port p).maxFrame 64 ∧ u 0x1A 2 = 0 ∧ (bitOf (u 0x12 1) 0 = true → 100000 ≤ u 0x20 4 ∧ u 0x20 4 ≤ 1000000000) ∧ d ≤ 2000000000 ∧ s.winOk (u 0x13 1) c.colour = true ∧ s.winSpan (u 0x13 1) (u 0x14 4) (u 0x18 2) false = true ∧ (s.port p).mode ≠ 0 ∧ p < s.net.ports.length ∧ q < (s.port p).queues.length ∧ 64 ≤ (s.queue p q).length) ∧
    (∃ s ∈ [(fol 0 0x0121 [(0x10,1,3),(0x11,1,7),(0x12,2,6)] (W.modQueue 3 7 fun _ => [{ LaunchEntry.reset with tag := 6, colour := 1 }]) : State)], ∃ ring ∈ [(0 : Nat)], ∃ b ∈ [(bg s ring : Begun)], s.hasFolio ring 0x0121 b ∧ ∃ c ∈ [(s.fctx ring b)], ∃ p ∈ [(c.u 0x10 1)], ∃ q ∈ [(c.u 0x11 1)], p < 4 ∧ q < 8 ∧ p < s.net.ports.length ∧ q < (s.port p).queues.length ∧ (∃ e ∈ s.queue p q, e.tag.toNat = c.u 0x12 2 ∧ e.colour = c.colour)) ∧
    (∃ s ∈ [(win ((live 0 W).modQueue 0 7 fun _ => [{ LaunchEntry.reset with due := 20000, length := 60, order := 4 }]) : State)], ∃ dt ∈ [(5 : Nat)], ∃ p ∈ [(0 : Nat)], ∃ q ∈ [(7 : Nat)], ∃ e ∈ [({ LaunchEntry.reset with due := 20000, length := 60, order := 4 } : LaunchEntry)], p < s.net.ports.length ∧ q < (s.port p).queues.length ∧ nextLaunch (s.queue p q) = some e ∧ e.frame = none ∧ e.bad = false ∧ e.due ≤ (s.elapse dt).tb.dev + 20000 ∧ (s.island islNet).isolated = false ∧ s.top.replay = false ∧ s.role ≠ 2 ∧ (s.port p).cv.getD q none = none ∧ s.winSpan e.window e.offset e.length false = true ∧ s.winDamaged e.window e.offset e.length = false) ∧
    (∃ s ∈ [((live 0 W).modQueue 0 7 fun _ => [{ LaunchEntry.reset with frame := some [1,2], count := 1 }] : State)], ∃ dt ∈ [(5 : Nat)], ∃ p ∈ [(0 : Nat)], ∃ q ∈ [(7 : Nat)], ∃ e ∈ [({ LaunchEntry.reset with frame := some [1,2], count := 1 } : LaunchEntry)], p < s.net.ports.length ∧ q < (s.port p).queues.length ∧ nextLaunch (s.queue p q) = some e ∧ e.due ≤ (s.elapse dt).tb.dev ∧ (∀ k, k < q → s.queue p k = []) ∧ (s.island islNet).isolated = false ∧ s.top.replay = false ∧ s.role ≠ 2 ∧ e.stepped = false ∧ e.periodic = false ∧ e.count = 1 ∧ e.index = 0 ∧ ∃ bytes ∈ [([1,2])], (s.port p).link = true ∧ e.bad = false ∧ e.frame = some bytes ∧ (s.port p).busyUntil ≤ e.due) ∧
    (∃ s ∈ [(W.modQueue 0 7 fun _ => [{ LaunchEntry.reset with count := 1 }] : State)], ∃ dt ∈ [(5 : Nat)], ∃ p ∈ [(0 : Nat)], ∃ q ∈ [(7 : Nat)], ∃ e ∈ [({ LaunchEntry.reset with count := 1 } : LaunchEntry)], p < s.net.ports.length ∧ q < (s.port p).queues.length ∧ nextLaunch (s.queue p q) = some e ∧ e.due ≤ (s.elapse dt).tb.dev ∧ (∀ k, k < q → s.queue p k = []) ∧ (s.island islNet).isolated = false ∧ s.top.replay = false ∧ s.role ≠ 2 ∧ e.stepped = false ∧ e.periodic = false ∧ e.count = 1 ∧ e.index = 0 ∧ (s.port p).link = false) := by
  iterate 6 refine ⟨by decide +kernel, ?_⟩
  decide +kernel

theorem test_witness_DeclarationsAndSliceHeaders :
    (∃ s ∈ [(fol 0 0x0300 [(0x10,1,63),(0x12,2,1),(0x14,2,64),(0x16,2,64),(0x18,4,300),(0x1C,4,1),(0x20,2,16),(0x22,1,136),(0x24,1,16)] W : State)], ∃ dt ∈ [(5 : Nat)], ∃ ring ∈ [(0 : Nat)], ∃ b ∈ [(bg s ring : Begun)], s.hasFolio ring 0x0300 b ∧ ∃ c ∈ [(s.fctx ring b)], ∃ i ∈ [(c.u 0x10 1)], declRanges c = true ∧ i < s.dec.ctx.length ∧ (bodyDecDeclare c (s.elapse dt)).withinPoint (s.elapse dt) true ∧ (s.ctx i).opened = false ∧ s.declChargesOk i (declOf c) = true) ∧
    (∃ s ∈ [((fol 0 0x0300 [(0x10,1,63),(0x12,2,1),(0x14,2,64),(0x16,2,64),(0x18,4,300),(0x1C,4,1),(0x20,2,16),(0x22,1,136),(0x24,1,16)] W).modCtx 63 fun x => { x with opened := true, owner := 1 } : State)], ∃ dt ∈ [(5 : Nat)], ∃ ring ∈ [(0 : Nat)], ∃ b ∈ [(bg s ring : Begun)], s.hasFolio ring 0x0300 b ∧ ∃ c ∈ [(s.fctx ring b)], ∃ i ∈ [(c.u 0x10 1)], declRanges c = true ∧ i < s.dec.ctx.length ∧ (bodyDecDeclare c (s.elapse dt)).withinPoint (s.elapse dt) true ∧ (s.ctx i).opened = true ∧ (s.ctx i).st ≠ .shed ∧ profilesMatch (declOf c).profiles (s.ctx i).cfg.hevc = true ∧ (s.ctx i).owner = c.colour ∧ ∃ l ∈ [(s.dec.ctx.modify i fun x => { x with next := some (declOf c) })], (s.admitContext l i true).isSome = true ∧ s.declChargesOk i (declOf c) = true) ∧
    (∃ s ∈ [(((fol 0 0x0300 [(0x10,1,63),(0x12,2,1),(0x14,2,64),(0x16,2,64),(0x18,4,300),(0x1C,4,1),(0x20,2,16),(0x22,1,136),(0x24,1,16)] W).modCtx 63 fun x => { x with opened := true, owner := 1 }).modCtx 0 fun x => { x with opened := true, decl := { x.decl with maxW := 4096, maxH := 2176, rateNum := 3000, rateDen := 1 } } : State)], ∃ dt ∈ [(5 : Nat)], ∃ ring ∈ [(0 : Nat)], ∃ b ∈ [(bg s ring : Begun)], s.hasFolio ring 0x0300 b ∧ ∃ c ∈ [(s.fctx ring b)], ∃ i ∈ [(c.u 0x10 1)], declRanges c = true ∧ i < s.dec.ctx.length ∧ (bodyDecDeclare c (s.elapse dt)).withinPoint (s.elapse dt) true ∧ (s.ctx i).opened = true ∧ (s.ctx i).st ≠ .shed ∧ profilesMatch (declOf c).profiles (s.ctx i).cfg.hevc = true ∧ (s.ctx i).owner = c.colour ∧ ∃ l ∈ [(s.dec.ctx.modify i fun x => { x with next := some (declOf c) })], ((s.admitContext l i true).isSome = false ∨ s.declChargesOk i (declOf c) = false)) ∧
    (∃ s ∈ [((live 9 W).modCtx 9 fun x => { x with ready := [{ ReadySlice.reset with pkts := [{ Pkt.reset with bytes := [0x65] }] }], mid := some 2, picEngine := 3, engine := 3, pics := [{ Picture.reset with id := 2, slicesLeft := 1, leaves := [Leaf.reset] }] } : State)], ∃ dt ∈ [(5 : Nat)], ∃ k ∈ [(9 : Nat)], ∃ hdr ∈ [({ (default : SliceIn) with bottomFinal := true, parsed := true, supported := true } : SliceIn)], ∃ r ∈ [({ ReadySlice.reset with pkts := [{ Pkt.reset with bytes := [0x65] }] } : ReadySlice)], ∃ rest ∈ [([] : List ReadySlice)], ∃ p ∈ [({ Pkt.reset with bytes := [0x65] } : Pkt)], ∃ ps ∈ [([] : List Pkt)], s.top.ready = true ∧ s.twin.resyncCause1 = false ∧ (s.elapse dt).nextParse = some k ∧ k < s.dec.ctx.length ∧ (s.ctx k).ready = r :: rest ∧ r.pkts = p :: ps ∧ ∃ id ∈ [(2)], hdr.firstOfPicture = false ∧ (s.ctx k).dropping = false ∧ (s.ctx k).mid = some id ∧ r.lastOfPicture = false ∧ hdr.lastOfPicture = false ∧ hdr.supported = true ∧ hdr.firstLeaf ≤ (s.ctx k).nextLeaf ∧ hdr.bottomFinal = true ∧ (((s.ctx k).pic id).getD Picture.reset).slices < (s.ctx k).decl.maxSlices ∧ (s.ctx k).picEngine < s.dec.de.length) ∧
    (∃ s ∈ [((live 9 W).modCtx 9 fun x => { x with ready := [{ ReadySlice.reset with nal := [0x65, 0x88, 0x80], pkts := [{ Pkt.reset with bytes := [0x65] }] }], st := .decoding, sprop := [[0x67, 0x64, 0, 0x28, 0x80], [0x68, 0xC0]] } : State)], ∃ dt ∈ [(5 : Nat)], ∃ k ∈ [(9 : Nat)], ∃ hdr ∈ [({ (default : SliceIn) with firstOfPicture := true, parsed := true, supported := false } : SliceIn)], ∃ r ∈ [({ ReadySlice.reset with nal := [0x65, 0x88, 0x80], pkts := [{ Pkt.reset with bytes := [0x65] }] } : ReadySlice)], ∃ rest ∈ [([] : List ReadySlice)], ∃ p ∈ [({ Pkt.reset with bytes := [0x65] } : Pkt)], ∃ ps ∈ [([] : List Pkt)], s.top.ready = true ∧ s.twin.resyncCause1 = false ∧ (s.elapse dt).nextParse = some k ∧ k < s.dec.ctx.length ∧ (s.ctx k).ready = r :: rest ∧ r.pkts = p :: ps ∧ hdr.firstOfPicture = true ∧ s.bufFree k = true ∧ (s.ctx k).mid = none ∧ (s.ctx k).unparsed = false ∧ hdr.parsed = true ∧ (s.ctx k).setsFor r.nal = true ∧ hdr.supported = false ∧ (hdr.randomAccess = true ∨ ((s.ctx k).st = .decoding ∧ hdr.rasl = false ∧ (s.ctx k).discarding = false ∧ (s.ctx k).backlog ≤ 1 ∧ s.top.replay = false))) ∧
    (∃ s ∈ [((live 9 W).modCtx 9 fun x => { x with firAt := some 5 } : State)], ∃ dt ∈ [(5 : Nat)], ∃ k ∈ [(9 : Nat)], ∃ t0 ∈ [(5 : Nat)], k < s.dec.ctx.length ∧ ∃ x ∈ [(s.ctx k)], x.opened = true ∧ x.cfg.hostFed = false ∧ x.firAt = some t0 ∧ t0 ≤ (s.elapse dt).tb.now ∧ s.top.replay = false ∧ s.role ≠ 2) := by
  iterate 5 refine ⟨by decide +kernel, ?_⟩
  decide +kernel

theorem test_witness_EnginesTakeAndLoseJobs :
    (∃ s ∈ [(W.modEngine 7 fun x => { x with jobs := [{ Job.reset with ctx := 4, age := 5 }, { Job.reset with ctx := 3, age := 2 }] } : State)], ∃ e ∈ [(7 : Nat)], ∃ j ∈ [({ Job.reset with ctx := 3, age := 2 } : Job)], e < s.dec.de.length ∧ (s.engine e).cur = none ∧ (s.engine e).st = .active ∧ (s.engine e).nextJob = some j ∧ j.sentTwice = false) ∧
    (∃ s ∈ [(W.modEngine 7 fun x => { x with jobs := [{ Job.reset with ctx := 4, age := 5 }, { Job.reset with ctx := 3, age := 2, sentTwice := true }] } : State)], ∃ e ∈ [(7 : Nat)], ∃ j ∈ [({ Job.reset with ctx := 3, age := 2, sentTwice := true } : Job)], e < s.dec.de.length ∧ (s.engine e).cur = none ∧ (s.engine e).st = .active ∧ (s.engine e).nextJob = some j ∧ j.sentTwice = true) ∧
    (∃ s ∈ [(W.modEngine 7 fun x => { x with cur := some { Job.reset with ctx := 3, rows := 1 } } : State)], ∃ e ∈ [(7 : Nat)], ∃ j ∈ [({ Job.reset with ctx := 3, rows := 1 } : Job)], e < s.dec.de.length ∧ (s.engine e).cur = some j ∧ (s.engine e).st = .active ∧ j.rows ≤ j.row + 1) ∧
    (∃ s ∈ [(W.modEngine 7 fun x => { x with cur := some { Job.reset with ctx := 3, rows := 2, cls := .review }, jobs := [{ Job.reset with cls := .live }] } : State)], ∃ e ∈ [(7 : Nat)], ∃ j ∈ [({ Job.reset with ctx := 3, rows := 2, cls := .review } : Job)], e < s.dec.de.length ∧ (s.engine e).cur = some j ∧ (s.engine e).st = .active ∧ j.row + 1 < j.rows ∧ (((s.engine e).jobs.any fun k => decide (k.cls.rank < j.cls.rank)) = true)) ∧
    (∃ s ∈ [(W.modEngine 7 fun x => { x with cur := some { Job.reset with ctx := 3, rows := 2, cls := .live }, jobs := [{ Job.reset with cls := .live }] } : State)], ∃ e ∈ [(7 : Nat)], ∃ j ∈ [({ Job.reset with ctx := 3, rows := 2, cls := .live } : Job)], e < s.dec.de.length ∧ (s.engine e).cur = some j ∧ (s.engine e).st = .active ∧ j.row + 1 < j.rows ∧ (((s.engine e).jobs.any fun k => decide (k.cls.rank < j.cls.rank)) = false)) ∧
    (∃ s ∈ [((W.modEngine 7 fun x => { x with cur := some { Job.reset with ctx := 3, pic := 2, rows := 1, count := 2, rowLines := 32 } }).modCtx 3 fun x => { x with pics := [{ Picture.reset with id := 2, width := 16, height := 32, leaves := [Leaf.reset, Leaf.reset] }] } : State)], ∃ e ∈ [(7 : Nat)], ∃ j ∈ [({ Job.reset with ctx := 3, pic := 2, rows := 1, count := 2, rowLines := 32 } : Job)], ∃ o ∈ [({ (default : RowIn) with leaves := [{ (default : LeafOut) with leaf := 1, pixels := [1,2] }] } : RowIn)], e < s.dec.de.length ∧ (s.engine e).cur = some j ∧ (s.engine e).st = .active ∧ ∃ l ∈ [(1 : Nat)], ∃ pc ∈ [({ Picture.reset with id := 2, width := 16, height := 32, leaves := [Leaf.reset, Leaf.reset] } : Picture)], ∃ f ∈ [(Leaf.reset : Leaf)], (s.ctx j.ctx).pic j.pic = some pc ∧ pc.leaves[l]? = some f ∧ f.valid = false ∧ ∃ final ∈ [(j.finals (!(pc.leaves.getD (j.first - 1) Leaf.reset).ready))], l ∈ final ∧ f.pixels = [] ∧ j.conceal = false ∧ j.failRow = none ∧ j.failure o = none) ∧
    (∃ s ∈ [((W.modEngine 7 fun x => { x with cur := some { Job.reset with ctx := 3, pic := 2, rows := 1, count := 2, conceal := true, rowLines := 32 } }).modCtx 3 fun x => { x with pics := [{ Picture.reset with id := 2, width := 16, height := 32, leaves := [Leaf.reset, Leaf.reset] }] } : State)], ∃ e ∈ [(7 : Nat)], ∃ j ∈ [({ Job.reset with ctx := 3, pic := 2, rows := 1, count := 2, conceal := true, rowLines := 32 } : Job)], e < s.dec.de.length ∧ (s.engine e).cur = some j ∧ (s.engine e).st = .active ∧ ∃ l ∈ [(1 : Nat)], ∃ pc ∈ [({ Picture.reset with id := 2, width := 16, height := 32, leaves := [Leaf.reset, Leaf.reset] } : Picture)], ∃ f ∈ [(Leaf.reset : Leaf)], (s.ctx j.ctx).pic j.pic = some pc ∧ pc.leaves[l]? = some f ∧ f.valid = false ∧ ∃ final ∈ [(j.finals (!(pc.leaves.getD (j.first - 1) Leaf.reset).ready))], l ∈ final ∧ j.conceal = true ∧ l ∈ j.rowLeaves j.step.1 ∧ (s.ctx j.ctx).fill j pc l ≠ []) ∧
    (∃ s ∈ [(W.modCtx 3 fun x => { x with pics := [{ Picture.reset with id := 2, leaves := [Leaf.reset, { Leaf.reset with ready := true }] }] } : State)], ∃ k ∈ [(3 : Nat)], ∃ pid ∈ [(2 : Nat)], ∃ leaf ∈ [(1 : Nat)], ∃ pc ∈ [({ Picture.reset with id := 2, leaves := [Leaf.reset, { Leaf.reset with ready := true }] } : Picture)], ∃ f ∈ [({ Leaf.reset with ready := true } : Leaf)], (s.ctx k).pic pid = some pc ∧ pc.leaves[leaf]? = some f ∧ f.ready = true ∧ f.acked = false) ∧
    (∃ s ∈ [(W.modEngine 7 fun x => { x with cur := some { Job.reset with ctx := 3, rows := 2, started := some 0 } } : State)], ∃ dt ∈ [(1000000000 : Nat)], ∃ e ∈ [(7 : Nat)], ∃ bits ∈ [([] : List Nat)], ∃ j ∈ [({ Job.reset with ctx := 3, rows := 2, started := some 0 } : Job)], ∃ t0 ∈ [(0 : Nat)], e < 8 ∧ e < s.dec.de.length ∧ islDe e < s.fab.isl.length ∧ (s.engine e).cur = some j ∧ j.started = some t0 ∧ (s.engine e).st = .active ∧ t0 ≤ (s.elapse dt).tb.now ∧ max (4 * (s.elapse dt).jobNs j bits) 1000000 ≤ j.priorNs + ((s.elapse dt).tb.now - t0) ∧ (s.island (islDe e)).isolated = false ∧ s.twin.resyncCause1 = false ∧ s.top.handover = false ∧ (s.flt.src.getD 2 FltSource.reset).fixed = true) ∧
    (∃ s ∈ [((live 9 W).modEngine 7 fun x => { x with st := .isolated, jobs := [Job.reset] } : State)], ∃ e ∈ [(7 : Nat)], e < s.dec.de.length ∧ s.dec.de.length = 8 ∧ s.dec.ctx.length ≤ 64 ∧ (s.engine e).st = .isolated) ∧
    (∃ s ∈ [(W.modEngine 7 fun x => { x with st := .testing } : State)], ∃ e ∈ [(7 : Nat)], e < 8 ∧ e < s.dec.de.length ∧ islDe e < s.fab.isl.length ∧ (s.engine e).st = .testing ∧ (s.engine e).barred = false ∧ (s.island (islDe e)).barred = false) := by
  iterate 10 refine ⟨by decide +kernel, ?_⟩
  decide +kernel

theorem test_witness_LayersAreSetAndReleased :
    (∃ s ∈ [((win (fol 0 0x0400 [(0x10,1,0xBF),(0x11,1,0),(0x12,1,11),(0x15,1,5),(0x1A,1,255),(0x20,2,64),(0x22,2,16),(0x28,2,64),(0x2A,2,16),(0x38,2,256),(0x3C,2,64),(0x3E,2,16)] (hd 0 { W with store := { W.store with ready := true } }))).modLayer 127 fun x => { x with st := .idle, owner := 2 } : State)], ∃ ring ∈ [(0 : Nat)], ∃ b ∈ [(bg s ring : Begun)], s.hasFolio ring 0x0400 b ∧ (s.cmdQ ring).groupOpen = none ∧ s.noGroups ∧ ∃ c ∈ [(s.fctx ring b)], ∃ i ∈ [(layerIndex (c.u 0x10 1))], ∃ k ∈ [(layerCfgOf c)], ∃ v ∈ [(s.view none)], ∃ old ∈ [(v.layer i)], layerRanges c k = true ∧ ((if isVideo i then s.videoOk k else s.graphicOk c.colour k) = true) ∧ old.st ≠ .free ∧ old.owner ≠ c.colour) ∧
    (∃ s ∈ [((win (fol 0 0x0400 [(0x10,1,0xBF),(0x11,1,0),(0x12,1,11),(0x15,1,5),(0x1A,1,255),(0x20,2,64),(0x22,2,16),(0x28,2,64),(0x2A,2,16),(0x38,2,256),(0x3C,2,64),(0x3E,2,16)] (hd 0 { W with store := { W.store with ready := true } }))).modHead 0 fun x => { x with on_ := (List.range 12).map fun k => { Shown.reset with index := k } } : State)], ∃ dt ∈ [(5 : Nat)], ∃ ring ∈ [(0 : Nat)], ∃ b ∈ [(bg s ring : Begun)], s.hasFolio ring 0x0400 b ∧ (s.cmdQ ring).groupOpen = none ∧ s.noGroups ∧ ∃ c ∈ [(s.fctx ring b)], ∃ i ∈ [(layerIndex (c.u 0x10 1))], ∃ k ∈ [(layerCfgOf c)], ∃ v ∈ [(s.view none)], ∃ old ∈ [(v.layer i)], layerRanges c k = true ∧ ((if isVideo i then s.videoOk k else s.graphicOk c.colour k) = true) ∧ (old.st = .free ∨ old.owner = c.colour) ∧ s.sourceColour c.colour i k = true ∧ s.tablesColour c.colour k = true ∧ evOk c s k.ring = true ∧ (isVideo i = true → (s.sourceMax k).isSome = true) ∧ s.tablesLoaded k = true ∧ old.st ≠ .held ∧ s.layerReserved i none = false ∧ i < s.comp.layer.length ∧ (bodyLayerSet c (s.elapse dt)).withinPoint (s.elapse dt) true ∧ ∃ head ∈ [(0)], k.head = some head ∧ (s.head head).admits c.colour = true ∧ (s.head head).stopped = false ∧ ∃ ts ∈ [(s.timings head)], ∃ width ∈ [((ts.map k.clipWidth).foldl max 0)], ∃ paired ∈ [(isVideo i && k.pair && decide (5120 < width) && decide (width ≤ 10240))], ∃ new ∈ [(v.set i (LayerView.ofSet i c.colour k paired) true)], new.adjacent head (new.mode.getD head 0) = true ∧ 12 < (new.layersOn head).length) ∧
    (∃ s ∈ [(win (fol 0 0x0400 [(0x10,1,0xBF),(0x11,1,0),(0x12,1,11),(0x15,1,5),(0x1A,1,255),(0x20,2,64),(0x22,2,16),(0x28,2,64),(0x2A,2,16),(0x38,2,256),(0x3C,2,64),(0x3E,2,16)] (hd 0 { W with store := { W.store with ready := true } })) : State)], ∃ dt ∈ [(5 : Nat)], ∃ ring ∈ [(0 : Nat)], ∃ b ∈ [(bg s ring : Begun)], s.hasFolio ring 0x0400 b ∧ (s.cmdQ ring).groupOpen = none ∧ s.noGroups ∧ ∃ c ∈ [(s.fctx ring b)], ∃ i ∈ [(layerIndex (c.u 0x10 1))], ∃ k ∈ [(layerCfgOf c)], ∃ v ∈ [(s.view none)], ∃ old ∈ [(v.layer i)], layerRanges c k = true ∧ ((if isVideo i then s.videoOk k else s.graphicOk c.colour k) = true) ∧ (old.st = .free ∨ old.owner = c.colour) ∧ s.sourceColour c.colour i k = true ∧ s.tablesColour c.colour k = true ∧ evOk c s k.ring = true ∧ (isVideo i = true → (s.sourceMax k).isSome = true) ∧ s.tablesLoaded k = true ∧ old.st ≠ .held ∧ s.layerReserved i none = false ∧ i < s.comp.layer.length ∧ (bodyLayerSet c (s.elapse dt)).withinPoint (s.elapse dt) true ∧ ∃ head ∈ [(0)], k.head = some head ∧ (s.head head).admits c.colour = true ∧ (s.head head).stopped = false ∧ ∃ ts ∈ [(s.timings head)], ∃ width ∈ [((ts.map k.clipWidth).foldl max 0)], ∃ paired ∈ [(isVideo i && k.pair && decide (5120 < width) && decide (width ≤ 10240))], ∃ new ∈ [(v.set i (LayerView.ofSet i c.colour k paired) true)], new.adjacent head (new.mode.getD head 0) = true ∧ (new.layersOn head).length ≤ 12 ∧ ts.all (pressFits (new.head head)) = true ∧ s.chargesOk new [head] = true ∧ (isVideo i = true → ts.all (fun t => rateOk k t paired) = true ∧ (width ≤ 5120 ∨ (paired = true ∧ v.partnerFree i = true)))) ∧
    (∃ s ∈ [(win (fol 0 0x0400 [(0x10,1,0x3F),(0x11,1,0xFF),(0x12,1,0),(0x14,1,9),(0x1A,1,255),(0x20,2,64),(0x22,2,16),(0x28,2,64),(0x2A,2,16)] ((live 9 { W with store := { W.store with ready := true } }).modCtx 9 fun x => { x with everOpened := true, decl := { x.decl with maxW := 64, maxH := 16 } })) : State)], ∃ dt ∈ [(5 : Nat)], ∃ ring ∈ [(0 : Nat)], ∃ b ∈ [(bg s ring : Begun)], s.hasFolio ring 0x0400 b ∧ (s.cmdQ ring).groupOpen = none ∧ s.noGroups ∧ ∃ c ∈ [(s.fctx ring b)], ∃ i ∈ [(layerIndex (c.u 0x10 1))], ∃ k ∈ [(layerCfgOf c)], ∃ v ∈ [(s.view none)], ∃ old ∈ [(v.layer i)], layerRanges c k = true ∧ ((if isVideo i then s.videoOk k else s.graphicOk c.colour k) = true) ∧ (old.st = .free ∨ old.owner = c.colour) ∧ s.sourceColour c.colour i k = true ∧ s.tablesColour c.colour k = true ∧ evOk c s k.ring = true ∧ (isVideo i = true → (s.sourceMax k).isSome = true) ∧ s.tablesLoaded k = true ∧ old.st ≠ .held ∧ s.layerReserved i none = false ∧ i < s.comp.layer.length ∧ (bodyLayerSet c (s.elapse dt)).withinPoint (s.elapse dt) true ∧ k.head = none ∧ s.touched old i none = [] ∧ (s.layer i).st = .free) ∧
    (∃ s ∈ [((fol 0 0x0401 [(0x10,1,0xBF),(0x11,1,1)] (W.modLayer 127 fun x => { x with st := .idle, owner := 1 })).modLayer 127 fun x => { x with st := .free } : State)], ∃ ring ∈ [(0 : Nat)], ∃ b ∈ [(bg s ring : Begun)], s.hasFolio ring 0x0401 b ∧ (s.cmdQ ring).groupOpen = none ∧ s.noGroups ∧ ∃ c ∈ [(s.fctx ring b)], ∃ i ∈ [(layerIndex (c.u 0x10 1))], ∃ old ∈ [((s.view none).layer i)], codeOk (c.u 0x10 1) = true ∧ c.u 0x11 1 < 2 ∧ old.st = .free) ∧
    (∃ s ∈ [((fol 0 0x0401 [(0x10,1,0xBF),(0x11,1,1)] (W.modLayer 127 fun x => { x with st := .idle, owner := 1 })).modHead 2 fun x => { x with on_ := [{ Shown.reset with index := 127 }] } : State)], ∃ ring ∈ [(0 : Nat)], ∃ b ∈ [(bg s ring : Begun)], s.hasFolio ring 0x0401 b ∧ (s.cmdQ ring).groupOpen = none ∧ s.noGroups ∧ ∃ c ∈ [(s.fctx ring b)], ∃ i ∈ [(layerIndex (c.u 0x10 1))], ∃ old ∈ [((s.view none).layer i)], codeOk (c.u 0x10 1) = true ∧ c.u 0x11 1 < 2 ∧ old.st ≠ .free ∧ old.owner = c.colour ∧ old.st ≠ .held ∧ s.layerReserved i none = false ∧ s.touched old i none ≠ []) ∧
    (∃ s ∈ [(fol 0 0x0401 [(0x10,1,0xBF),(0x11,1,1)] (W.modLayer 127 fun x => { x with st := .idle, owner := 1 }) : State)], ∃ ring ∈ [(0 : Nat)], ∃ b ∈ [(bg s ring : Begun)], s.hasFolio ring 0x0401 b ∧ (s.cmdQ ring).groupOpen = none ∧ s.noGroups ∧ ∃ c ∈ [(s.fctx ring b)], ∃ i ∈ [(layerIndex (c.u 0x10 1))], ∃ old ∈ [((s.view none).layer i)], codeOk (c.u 0x10 1) = true ∧ c.u 0x11 1 < 2 ∧ old.st ≠ .free ∧ old.owner = c.colour ∧ old.st ≠ .held ∧ s.layerReserved i none = false ∧ s.touched old i none = [] ∧ (s.layer i).st = .idle ∧ c.u 0x11 1 = 1 ∧ i < s.comp.layer.length) := by
  iterate 6 refine ⟨by decide +kernel, ?_⟩
  decide +kernel

theorem test_witness_TablesAndBlendModesAreSet :
    (∃ s ∈ [(fol 0 0x0402 [(0x10,1,15),(0x26,2,4095),(0x28,2,0xF000)] (W.modComp fun x => { x with matrix := x.matrix.modify 15 fun y => { y with owner := some 1 } }) : State)], ∃ ring ∈ [(0 : Nat)], ∃ b ∈ [(bg s ring : Begun)], s.hasFolio ring 0x0402 b ∧ ∃ c ∈ [(s.fctx ring b)], ∃ m ∈ [(c.u 0x10 1)], ∃ x ∈ [(s.comp.matrix.getD m MatrixSlot.reset)], ∃ coef ∈ [(((List.range 9).map fun j => c.i (0x14 + 2 * j) 2) ++ (List.range 6).map fun j => c.i (0x26 + 2 * j) 2)], m < 16 ∧ m < s.comp.matrix.length ∧ c.u 0x12 2 = 0 ∧ c.u 0x11 1 = 0 ∧ (∀ v ∈ coef.drop 9, -4096 ≤ v ∧ v ≤ 4095) ∧ (x.owner = none ∨ x.owner = some c.colour)) ∧
    (∃ s ∈ [(fol 0 0x0402 [(0x10,1,15),(0x11,1,1)] (W.modComp fun x => { x with matrix := x.matrix.modify 15 fun y => { y with owner := some 1 } }) : State)], ∃ ring ∈ [(0 : Nat)], ∃ b ∈ [(bg s ring : Begun)], s.hasFolio ring 0x0402 b ∧ ∃ c ∈ [(s.fctx ring b)], ∃ m ∈ [(c.u 0x10 1)], ∃ x ∈ [(s.comp.matrix.getD m MatrixSlot.reset)], m < 16 ∧ m < s.comp.matrix.length ∧ c.u 0x12 2 = 0 ∧ c.u 0x11 1 = 1 ∧ x.owner = some c.colour ∧ s.slotUsed m = false) ∧
    (∃ s ∈ [((fol 0 0x0402 [(0x10,1,15),(0x11,1,1)] (W.modComp fun x => { x with matrix := x.matrix.modify 15 fun y => { y with owner := some 1 } })).modLayer 3 fun x => { x with st := .idle, cfg := { x.cfg with matrix := 23 } } : State)], ∃ ring ∈ [(0 : Nat)], ∃ b ∈ [(bg s ring : Begun)], s.hasFolio ring 0x0402 b ∧ ∃ c ∈ [(s.fctx ring b)], ∃ m ∈ [(c.u 0x10 1)], ∃ x ∈ [(s.comp.matrix.getD m MatrixSlot.reset)], m < 16 ∧ m < s.comp.matrix.length ∧ c.u 0x12 2 = 0 ∧ c.u 0x11 1 = 1 ∧ x.owner = some c.colour ∧ s.slotUsed m = true) ∧
    (∃ s ∈ [(fol 0 0x0402 [(0x10,1,15),(0x11,1,1)] W : State)], ∃ ring ∈ [(0 : Nat)], ∃ b ∈ [(bg s ring : Begun)], s.hasFolio ring 0x0402 b ∧ ∃ c ∈ [(s.fctx ring b)], ∃ m ∈ [(c.u 0x10 1)], ∃ x ∈ [(s.comp.matrix.getD m MatrixSlot.reset)], m < 16 ∧ m < s.comp.matrix.length ∧ c.u 0x12 2 = 0 ∧ c.u 0x11 1 = 1 ∧ x.owner = none) ∧
    (∃ s ∈ [(fol 0 0x0402 [(0x10,1,15),(0x11,1,1)] (W.modComp fun x => { x with matrix := x.matrix.modify 15 fun y => { y with owner := some 2 } }) : State)], ∃ ring ∈ [(0 : Nat)], ∃ b ∈ [(bg s ring : Begun)], s.hasFolio ring 0x0402 b ∧ ∃ c ∈ [(s.fctx ring b)], ∃ m ∈ [(c.u 0x10 1)], ∃ x ∈ [(s.comp.matrix.getD m MatrixSlot.reset)], m < 16 ∧ m < s.comp.matrix.length ∧ c.u 0x12 2 = 0 ∧ c.u 0x11 1 = 1 ∧ ∃ o ∈ [(2)], x.owner = some o ∧ o ≠ c.colour) ∧
    (∃ s ∈ [(tapsAt : State)], ∃ ring ∈ [(0 : Nat)], ∃ b ∈ [(bg s ring : Begun)], s.hasFolio ring 0x0403 b ∧ ∃ c ∈ [(s.fctx ring b)], ∃ k ∈ [(c.u 0x10 1)], ∃ w ∈ [(c.u 0x12 1)], ∃ off ∈ [(c.u 0x14 4)], ∃ x ∈ [(s.comp.bank.getD k Bank.reset)], ∃ hs ∈ [(tableOf (s.winRead w off 1024) 8)], ∃ vs ∈ [(tableOf (s.winRead w (off + 1024) 768) 6)], k < 8 ∧ k < s.comp.bank.length ∧ w < 8 ∧ off % 256 = 0 ∧ s.winOk w c.colour = true ∧ s.winSpan w off 1792 false = true ∧ (x.owner = none ∨ x.owner = some c.colour) ∧ (tableOk hs 8 && tableOk vs 6) = true ∧ s.winDamaged w off 1792 = false) ∧
    (∃ s ∈ [(put 0x50000000 [0, 0x40] (win (fol 0 0x0403 [(0x10,1,7)] W)) : State)], ∃ ring ∈ [(0 : Nat)], ∃ b ∈ [(bg s ring : Begun)], s.hasFolio ring 0x0403 b ∧ ∃ c ∈ [(s.fctx ring b)], ∃ k ∈ [(c.u 0x10 1)], ∃ w ∈ [(c.u 0x12 1)], ∃ off ∈ [(c.u 0x14 4)], ∃ x ∈ [(s.comp.bank.getD k Bank.reset)], ∃ hs ∈ [(tableOf (s.winRead w off 1024) 8)], ∃ vs ∈ [(tableOf (s.winRead w (off + 1024) 768) 6)], k < 8 ∧ k < s.comp.bank.length ∧ w < 8 ∧ off % 256 = 0 ∧ s.winOk w c.colour = true ∧ s.winSpan w off 1792 false = true ∧ (x.owner = none ∨ x.owner = some c.colour) ∧ (tableOk hs 8 && tableOk vs 6) = false) ∧
    (∃ s ∈ [(fol 0 0x0404 [(0x10,1,15),(0x11,1,1),(0x14,4,0xFFFFFF)] (hd 15 W) : State)], ∃ ring ∈ [(0 : Nat)], ∃ b ∈ [(bg s ring : Begun)], s.hasFolio ring 0x0404 b ∧ ∃ c ∈ [(s.fctx ring b)], ∃ h ∈ [(c.u 0x10 1)], h < 16 ∧ c.u 0x11 1 < 2 ∧ c.u 0x12 2 = 0 ∧ c.u 0x14 4 < 2 ^ 24 ∧ (s.head h).owner = some c.colour ∧ (s.head h).stopped = false ∧ (s.cmdQ ring).groupOpen = none ∧ (s.view none).adjacent h (c.u 0x11 1) = true ∧ s.headReserved h none = false) ∧
    (∃ s ∈ [((fol 0 0x0404 [(0x10,1,15),(0x11,1,1),(0x14,4,0xFFFFFF)] (hd 15 W)).modHead 15 fun x => { x with owner := none } : State)], ∃ ring ∈ [(0 : Nat)], ∃ b ∈ [(bg s ring : Begun)], s.hasFolio ring 0x0404 b ∧ ∃ c ∈ [(s.fctx ring b)], ∃ h ∈ [(c.u 0x10 1)], h < 16 ∧ c.u 0x11 1 < 2 ∧ c.u 0x12 2 = 0 ∧ c.u 0x14 4 < 2 ^ 24 ∧ (s.head h).owner ≠ some c.colour) := by
  iterate 5 refine ⟨by decide +kernel, ?_⟩
  refine ⟨one (one (one ⟨by decide +kernel, one (one (one' (w := 0) (by decide +kernel) (one' (w := 0) (by decide +kernel) (one
      (one' (w := tableOf (taps 8 8) 8) (congrArg (tableOf · 8) winRead_taps8) (one' (w := tableOf (taps 4 8) 6) (congrArg (tableOf · 6) winRead_taps6)
      ⟨by decide +kernel, by decide +kernel, by decide +kernel, by decide +kernel, by decide +kernel, by decide +kernel, by decide +kernel, Bool.and_eq_true_iff.mpr ⟨taps8_ok, taps6_ok⟩, by decide +kernel⟩))))))⟩)), ?_⟩
  iterate 2 refine ⟨by decide +kernel, ?_⟩
  decide +kernel

theorem test_witness_FlipGroupsOpenQueueAndCancel :
    (∃ s ∈ [(fol 0 0x0600 [] W : State)], ∃ ring ∈ [(0 : Nat)], ∃ b ∈ [(bg s ring : Begun)], s.hasFolio ring 0x0600 b ∧ (s.ring ring).state ≠ .draining ∧ ring < s.host.cmdq.length ∧ (s.cmdQ ring).groupOpen = none) ∧
    (∃ s ∈ [((fol 0 0x0600 [] W).modCmdQ 0 fun q => { q with groupOpen := some 4 } : State)], ∃ ring ∈ [(0 : Nat)], ∃ b ∈ [(bg s ring : Begun)], s.hasFolio ring 0x0600 b ∧ (s.ring ring).state ≠ .draining ∧ ring < s.host.cmdq.length ∧ ∃ g ∈ [(4)], (s.cmdQ ring).groupOpen = some g) ∧
    (∃ s ∈ [((fol 0 0x0404 [(0x10,1,15),(0x11,1,1),(0x14,4,0xFFFFFF)] (hd 15 W)).modCmdQ 0 fun q => { q with groupOpen := some 4 } : State)], ∃ ring ∈ [(0 : Nat)], ∃ b ∈ [(bg s ring : Begun)], s.hasFolio ring 0x0404 b ∧ (s.ring ring).state ≠ .draining ∧ ring < 32 ∧ b.origin = none ∧ ∃ c ∈ [(s.fctx ring b)], ∃ h ∈ [(c.u 0x10 1)], ∃ g ∈ [(4)], (s.cmdQ ring).groupOpen = some g ∧ (∀ r, r < s.host.cmdq.length → r ≠ ring → (s.cmdQ r).groupOpen ≠ some g) ∧ h < 16 ∧ c.u 0x11 1 < 2 ∧ c.u 0x12 2 = 0 ∧ c.u 0x14 4 < 2 ^ 24 ∧ (s.head h).owner = some c.colour ∧ (s.head h).stopped = false ∧ (s.view (some g)).adjacent h (c.u 0x11 1) = true ∧ s.headReserved h (some g) = false) ∧
    (∃ s ∈ [(((win (fol 0 0x0601 [(0x10,1,1),(0x12,2,10000)] (hd 15 W))).modCmdQ 0 fun q => { q with groupOpen := some 4 }).modCmdQ 0 fun q => { q with broken := true } : State)], ∃ ring ∈ [(0 : Nat)], ∃ b ∈ [(bg s ring : Begun)], s.hasFolio ring 0x0601 b ∧ ring < 32 ∧ ring < s.host.cmdq.length ∧ b.origin = none ∧ ∃ c ∈ [(s.fctx ring b)], ∃ n ∈ [(c.u 0x11 1)], ∃ g ∈ [(4)], (s.cmdQ ring).groupOpen = some g ∧ c.u 0x10 1 < 2 ∧ n < 9 ∧ 1 ≤ c.u 0x12 2 ∧ c.u 0x12 2 ≤ 10000 ∧ c.u 0x14 4 = 0 ∧ (∀ k, k < n → c.u (0x19 + 16 * k) 3 = 0) ∧ (∀ x ∈ fencesOf c n, x.window < 8 ∧ x.offset % 8 = 0 ∧ s.winOk x.window c.colour = true) ∧ (s.cmdQ ring).broken = true) ∧
    (∃ s ∈ [(((win (fol 0 0x0601 [(0x10,1,1),(0x12,2,10000)] (hd 15 W))).modCmdQ 0 fun q => { q with groupOpen := some 4 }).modCmdQ 0 fun q => { q with groups := List.replicate 4 Group.reset } : State)], ∃ ring ∈ [(0 : Nat)], ∃ b ∈ [(bg s ring : Begun)], s.hasFolio ring 0x0601 b ∧ ring < 32 ∧ ring < s.host.cmdq.length ∧ b.origin = none ∧ ∃ c ∈ [(s.fctx ring b)], ∃ n ∈ [(c.u 0x11 1)], ∃ g ∈ [(4)], (s.cmdQ ring).groupOpen = some g ∧ c.u 0x10 1 < 2 ∧ n < 9 ∧ 1 ≤ c.u 0x12 2 ∧ c.u 0x12 2 ≤ 10000 ∧ c.u 0x14 4 = 0 ∧ (∀ k, k < n → c.u (0x19 + 16 * k) 3 = 0) ∧ (∀ x ∈ fencesOf c n, x.window < 8 ∧ x.offset % 8 = 0 ∧ s.winOk x.window c.colour = true) ∧ (s.cmdQ ring).broken = false ∧ (4 ≤ ((s.cmdQ ring).groups.filter fun x => !x.committed).length) ∧ (s.ring ring).state ≠ .draining) ∧
    (∃ s ∈ [(((win (fol 0 0x0601 [(0x10,1,1),(0x12,2,10000)] (hd 15 W))).modCmdQ 0 fun q => { q with groupOpen := some 4 }).modComp fun x => { x with pend := [{ Pend.reset with change := .blend 15 1 0, heads := [15], group := some 4, colour := 1 }] } : State)], ∃ ring ∈ [(0 : Nat)], ∃ b ∈ [(bg s ring : Begun)], s.hasFolio ring 0x0601 b ∧ ring < 32 ∧ ring < s.host.cmdq.length ∧ b.origin = none ∧ ∃ c ∈ [(s.fctx ring b)], ∃ n ∈ [(c.u 0x11 1)], ∃ g ∈ [(4)], (s.cmdQ ring).groupOpen = some g ∧ c.u 0x10 1 < 2 ∧ n < 9 ∧ 1 ≤ c.u 0x12 2 ∧ c.u 0x12 2 ≤ 10000 ∧ c.u 0x14 4 = 0 ∧ (∀ k, k < n → c.u (0x19 + 16 * k) 3 = 0) ∧ (∀ x ∈ fencesOf c n, x.window < 8 ∧ x.offset % 8 = 0 ∧ s.winOk x.window c.colour = true) ∧ (s.cmdQ ring).broken = false ∧ s.noGroups ∧ s.groupHeads g ≠ []) ∧
    (∃ s ∈ [((win (fol 0 0x0601 [(0x10,1,1),(0x12,2,10000)] (hd 15 W))).modCmdQ 0 fun q => { q with groupOpen := some 4 } : State)], ∃ ring ∈ [(0 : Nat)], ∃ b ∈ [(bg s ring : Begun)], s.hasFolio ring 0x0601 b ∧ ring < 32 ∧ ring < s.host.cmdq.length ∧ b.origin = none ∧ ∃ c ∈ [(s.fctx ring b)], ∃ n ∈ [(c.u 0x11 1)], ∃ g ∈ [(4)], (s.cmdQ ring).groupOpen = some g ∧ c.u 0x10 1 < 2 ∧ n < 9 ∧ 1 ≤ c.u 0x12 2 ∧ c.u 0x12 2 ≤ 10000 ∧ c.u 0x14 4 = 0 ∧ (∀ k, k < n → c.u (0x19 + 16 * k) 3 = 0) ∧ (∀ x ∈ fencesOf c n, x.window < 8 ∧ x.offset % 8 = 0 ∧ s.winOk x.window c.colour = true) ∧ (s.cmdQ ring).broken = false ∧ s.noGroups ∧ s.staged g = [] ∧ n = 0) ∧
    (∃ s ∈ [(fol 0 0x0602 [(0x10,2,7)] (W.modCmdQ 0 fun q => { q with groups := [{ Group.reset with tag := 7, heads := [1], colour := 1 }] }) : State)], ∃ ring ∈ [(0 : Nat)], ∃ b ∈ [(bg s ring : Begun)], s.hasFolio ring 0x0602 b ∧ ring < s.host.cmdq.length ∧ ∃ c ∈ [(s.fctx ring b)], ∃ x ∈ [({ Group.reset with tag := 7, heads := [1], colour := 1 })], (s.cmdQ ring).groups = [x] ∧ x.tag.toNat = c.u 0x10 2 ∧ x.committed = false ∧ x.doneHeads = []) ∧
    (∃ s ∈ [((fol 0 0x0602 [(0x10,2,7)] (W.modCmdQ 0 fun q => { q with groups := [{ Group.reset with tag := 7, heads := [1], colour := 1 }] })).modCmdQ 0 fun q => { q with groups := [{ Group.reset with tag := 8 }] } : State)], ∃ ring ∈ [(0 : Nat)], ∃ b ∈ [(bg s ring : Begun)], s.hasFolio ring 0x0602 b ∧ ring < s.host.cmdq.length ∧ ∃ c ∈ [(s.fctx ring b)], (∀ x ∈ (s.cmdQ ring).groups, x.tag.toNat = c.u 0x10 2 → x.committed = true)) ∧
    (∃ s ∈ [(fol 0 0x0620 [(0x10,1,15)] (hd 15 W) : State)], ∃ ring ∈ [(0 : Nat)], ∃ b ∈ [(bg s ring : Begun)], s.hasFolio ring 0x0620 b ∧ s.noGroups ∧ (s.cmdQ ring).groupOpen = none ∧ ∃ c ∈ [(s.fctx ring b)], ∃ h ∈ [(c.u 0x10 1)], h < 16 ∧ (s.head h).admits c.colour = true ∧ (s.head h).stopped = false) ∧
    (∃ s ∈ [((fol 0 0x0620 [(0x10,1,15)] (hd 15 W)).modHead 15 fun x => { x with owner := some 2 } : State)], ∃ ring ∈ [(0 : Nat)], ∃ b ∈ [(bg s ring : Begun)], s.hasFolio ring 0x0620 b ∧ s.noGroups ∧ (s.cmdQ ring).groupOpen = none ∧ ∃ c ∈ [(s.fctx ring b)], ∃ h ∈ [(c.u 0x10 1)], h < 16 ∧ (s.head h).admits c.colour = false) := by
  iterate 10 refine ⟨by decide +kernel, ?_⟩
  decide +kernel

theorem test_witness_FencesTimeoutsAndFlattens :
    (∃ s ∈ [(put 0x50000008 [5] ((win (W.modCmdQ 0 fun q => { q with groups := [{ Group.reset with heads := [1], flattenHeads := [1], colour := 1, fences := [⟨0, 8, 5⟩] }] }))) : State)], ∃ ring ∈ [(0 : Nat)], ∃ x ∈ [({ Group.reset with heads := [1], flattenHeads := [1], colour := 1, fences := [⟨0, 8, 5⟩] } : Group)], (s.cmdQ ring).groups = [x] ∧ ring < s.host.cmdq.length ∧ x.heads ≠ [] ∧ x.flattenHeads ≠ [] ∧ x.fencesRead = false ∧ (∀ h ∈ x.flattenHeads, s.flattenBefore ring h x.order = false) ∧ s.readFences x.colour x.fences = some true) ∧
    (∃ s ∈ [(win (W.modCmdQ 0 fun q => { q with groups := [{ Group.reset with heads := [1], flattenHeads := [1], colour := 1, fences := [⟨0, 8, 5⟩] }] }) : State)], ∃ ring ∈ [(0 : Nat)], ∃ x ∈ [({ Group.reset with heads := [1], flattenHeads := [1], colour := 1, fences := [⟨0, 8, 5⟩] } : Group)], (s.cmdQ ring).groups = [x] ∧ ring < s.host.cmdq.length ∧ x.heads ≠ [] ∧ x.flattenHeads ≠ [] ∧ x.fencesRead = false ∧ (∀ h ∈ x.flattenHeads, s.flattenBefore ring h x.order = false) ∧ s.readFences x.colour x.fences = some false) ∧
    (∃ s ∈ [((win (W.modCmdQ 0 fun q => { q with groups := [{ Group.reset with heads := [1], flattenHeads := [1], colour := 1, fences := [⟨0, 8, 5⟩] }] })).modWindow 0 fun x => { x with mapped := false } : State)], ∃ ring ∈ [(0 : Nat)], ∃ x ∈ [({ Group.reset with heads := [1], flattenHeads := [1], colour := 1, fences := [⟨0, 8, 5⟩] } : Group)], (s.cmdQ ring).groups = [x] ∧ ring < s.host.cmdq.length ∧ x.heads ≠ [] ∧ x.flattenHeads ≠ [] ∧ x.fencesRead = false ∧ (∀ h ∈ x.flattenHeads, s.flattenBefore ring h x.order = false) ∧ s.readFences x.colour x.fences = none) ∧
    (∃ s ∈ [(win (W.modCmdQ 0 fun q => { q with groups := [{ Group.reset with heads := [1], colour := 1, due := 5, fences := [⟨0, 8, 5⟩] }] }) : State)], ∃ dt ∈ [(5 : Nat)], ∃ ring ∈ [(0 : Nat)], ∃ x ∈ [({ Group.reset with heads := [1], colour := 1, due := 5, fences := [⟨0, 8, 5⟩] } : Group)], (s.cmdQ ring).groups = [x] ∧ ring < s.host.cmdq.length ∧ x.heads ≠ [] ∧ x.committed = false ∧ x.doneHeads = [] ∧ x.expired = false ∧ x.due ≤ (s.elapse dt).tb.now ∧ s.readFences x.colour x.fences = some false) ∧
    (∃ s ∈ [(put 0x50000008 [5] ((win (W.modCmdQ 0 fun q => { q with groups := [{ Group.reset with heads := [1], colour := 1, due := 5, fences := [⟨0, 8, 5⟩] }] }))) : State)], ∃ dt ∈ [(5 : Nat)], ∃ ring ∈ [(0 : Nat)], ∃ x ∈ [({ Group.reset with heads := [1], colour := 1, due := 5, fences := [⟨0, 8, 5⟩] } : Group)], (s.cmdQ ring).groups = [x] ∧ ring < s.host.cmdq.length ∧ x.heads ≠ [] ∧ x.committed = false ∧ x.doneHeads = [] ∧ x.expired = false ∧ x.due ≤ (s.elapse dt).tb.now ∧ s.readFences x.colour x.fences = some true) ∧
    (∃ s ∈ [((hd 2 W).modHead 2 fun x => { x with press := { x.press with busy := true, forOrder := some 9 } } : State)], ∃ h ∈ [(2 : Nat)], ∃ o ∈ [(9 : Nat)], h < s.comp.head.length ∧ s.noGroups ∧ (s.head h).press.busy = true ∧ (s.head h).press.forOrder = some o ∧ ∃ v ∈ [(s.viewWith (s.flattenPick o))], ∃ l ∈ [(v.statics h)], ((l.all fun k => s.surfaceReads (v.layer k.1).owner k.2) = true)) ∧
    (∃ s ∈ [((((hd 2 W).modHead 2 fun x => { x with press := { x.press with busy := true, forOrder := some 9 } }).modComp fun x => { x with pend := [{ Pend.reset with order := 9, change := .layer 64 { LayerCfg.reset with head := some 2, static := true, surfW := 16, surfH := 16, pitch0 := 256 } false, heads := [2], flat := [2] }] }) : State)], ∃ h ∈ [(2 : Nat)], ∃ o ∈ [(9 : Nat)], h < s.comp.head.length ∧ s.noGroups ∧ (s.head h).press.busy = true ∧ (s.head h).press.forOrder = some o ∧ ∃ v ∈ [(s.viewWith (s.flattenPick o))], ∃ l ∈ [(v.statics h)], ((l.all fun k => s.surfaceReads (v.layer k.1).owner k.2) = false) ∧ (∃ y ∈ s.comp.pend, y.order = o)) := by
  iterate 6 refine ⟨by decide +kernel, ?_⟩
  decide +kernel

theorem test_witness_PlateSheetsAreCheckedAndShown :
    (∃ s ∈ [(win (fol 0 0x0610 [] W) : State)], ∃ ring ∈ [(0 : Nat)], ∃ b ∈ [(bg s ring : Begun)], s.hasFolio ring 0x0610 b ∧ b.origin = none ∧ ∃ c ∈ [(s.fctx ring b)], ∃ w ∈ [(c.u 0x10 1)], ∃ off ∈ [(c.u 0x14 4)], w < 8 ∧ off % 256 = 0 ∧ c.colour ≠ 62) ∧
    (∃ s ∈ [(put 0x50000000 ([1,0,15,8,1,0,0,0] ++ List.replicate 16 0 ++ [0,7]) ({ fol 0 0x0610 [] W with sec := { W.sec with act := [(0, { grant with colour := 62 })], record := { W.sec.record with plateE := [1] } }, top := { W.top with ringMap := { RingMapEntry.reset with colour := 62, valid := true } :: List.replicate 31 RingMapEntry.reset } }.modWindow 0 fun x => { x with mapped := true, colour := 62, size := 0x100000, base := 0x50000000 }) : State)], ∃ ring ∈ [(0 : Nat)], ∃ b ∈ [(bg s ring : Begun)], s.hasFolio ring 0x0610 b ∧ b.origin = none ∧ ∃ c ∈ [(s.fctx ring b)], ∃ w ∈ [(c.u 0x10 1)], ∃ off ∈ [(c.u 0x14 4)], w < 8 ∧ off % 256 = 0 ∧ c.colour = 62 ∧ s.winOk w 62 = true ∧ s.winSpan w off 0x80 false = true ∧ (s.island islSec).isolated = false ∧ s.winDamaged w off 0x80 = false ∧ ∃ head ∈ [(sheetHeader (s.winRead w off 0x80))], ∃ n ∈ [(0x80 + head.pixLen + sheetSigs)], ∃ p ∈ [(sheetOf (s.winRead w off n))], head.member = s.top.gatherId.toNat ∧ head.pixLen ≤ 262144 ∧ s.winSpan w off n false = true ∧ s.winDamaged w off n = false ∧ s.sheetCheck p = none) ∧
    (∃ s ∈ [({ (put 0x50000000 ([1,0,15,8,1,0,0,0] ++ List.replicate 16 0 ++ [0,7]) ({ fol 0 0x0610 [] W with sec := { W.sec with act := [(0, { grant with colour := 62 })], record := { W.sec.record with plateE := [1] } }, top := { W.top with ringMap := { RingMapEntry.reset with colour := 62, valid := true } :: List.replicate 31 RingMapEntry.reset } }.modWindow 0 fun x => { x with mapped := true, colour := 62, size := 0x100000, base := 0x50000000 })) with sec := { ((put 0x50000000 ([1,0,15,8,1,0,0,0] ++ List.replicate 16 0 ++ [0,7]) ({ fol 0 0x0610 [] W with sec := { W.sec with act := [(0, { grant with colour := 62 })], record := { W.sec.record with plateE := [1] } }, top := { W.top with ringMap := { RingMapEntry.reset with colour := 62, valid := true } :: List.replicate 31 RingMapEntry.reset } }.modWindow 0 fun x => { x with mapped := true, colour := 62, size := 0x100000, base := 0x50000000 }))).sec with record := { W.sec.record with plateE := [] } } } : State)], ∃ ring ∈ [(0 : Nat)], ∃ b ∈ [(bg s ring : Begun)], s.hasFolio ring 0x0610 b ∧ b.origin = none ∧ ∃ c ∈ [(s.fctx ring b)], ∃ w ∈ [(c.u 0x10 1)], ∃ off ∈ [(c.u 0x14 4)], w < 8 ∧ off % 256 = 0 ∧ c.colour = 62 ∧ s.winOk w 62 = true ∧ s.winSpan w off 0x80 false = true ∧ (s.island islSec).isolated = false ∧ s.winDamaged w off 0x80 = false ∧ ∃ head ∈ [(sheetHeader (s.winRead w off 0x80))], ∃ n ∈ [(0x80 + head.pixLen + sheetSigs)], ∃ p ∈ [(sheetOf (s.winRead w off n))], head.member = s.top.gatherId.toNat ∧ head.pixLen ≤ 262144 ∧ s.winSpan w off n false = true ∧ s.winDamaged w off n = false ∧ s.plateKeys = false ∧ p.head < s.comp.plate.length) ∧
    (∃ s ∈ [(wt 0 (.plateVerify (sheetOf ([1,0,15,8,1,0,0,0,9] ++ List.replicate 15 0 ++ [0,7]))) (fol 0 0x0610 [] W) : State)], ∃ ring ∈ [(0 : Nat)], ∃ o ∈ [(.done : WaitIn)], ∃ p ∈ [(sheetOf ([1,0,15,8,1,0,0,0,9] ++ List.replicate 15 0 ++ [0,7]) : PlateSheet)], ∃ b ∈ [(bg s ring : Begun)], s.waitsFor ring b (.plateVerify p) ∧ (s.island islSec).isolated = false ∧ s.paneRoom p = true ∧ s.paneApart p = true ∧ p.head < s.comp.plate.length ∧ (o ≠ .done ∨ s.nonceNamed p = false ∨ p.sheetSeq ≤ (s.plate p.head).lastSeq)) ∧
    (∃ s ∈ [({ (wt 0 (.plateVerify (sheetOf ([1,0,15,8,1,0,0,0,9] ++ List.replicate 15 0 ++ [0,7]))) (fol 0 0x0610 [] W)) with comp := { ((wt 0 (.plateVerify (sheetOf ([1,0,15,8,1,0,0,0,9] ++ List.replicate 15 0 ++ [0,7]))) (fol 0 0x0610 [] W))).comp with nonce := some 9 } } : State)], ∃ ring ∈ [(0 : Nat)], ∃ o ∈ [(.done : WaitIn)], ∃ p ∈ [(sheetOf ([1,0,15,8,1,0,0,0,9] ++ List.replicate 15 0 ++ [0,7]) : PlateSheet)], ∃ b ∈ [(bg s ring : Begun)], s.waitsFor ring b (.plateVerify p) ∧ (s.island islSec).isolated = false ∧ s.paneRoom p = true ∧ s.paneApart p = true ∧ p.head < s.comp.plate.length ∧ o = .done ∧ s.nonceNamed p = true ∧ (s.plate p.head).lastSeq < p.sheetSeq) ∧
    (∃ s ∈ [(wt 0 (.plateCopy (sheetOf ([1,0,15,8,1,0,0,0,9] ++ List.replicate 15 0 ++ [0,7]))) (fol 0 0x0610 [] W) : State)], ∃ ring ∈ [(0 : Nat)], ∃ p ∈ [(sheetOf ([1,0,15,8,1,0,0,0,9] ++ List.replicate 15 0 ++ [0,7]) : PlateSheet)], ∃ b ∈ [(bg s ring : Begun)], ring < 48 ∧ p.head < s.comp.plate.length ∧ s.waitsFor ring b (.plateCopy p)) ∧
    (∃ s ∈ [(wt 0 (.plateFrame (sheetOf ([1,0,15,8,1,0,0,0,9] ++ List.replicate 15 0 ++ [0,7]))) (fol 0 0x0610 [] W) : State)], ∃ ring ∈ [(0 : Nat)], ∃ p ∈ [(sheetOf ([1,0,15,8,1,0,0,0,9] ++ List.replicate 15 0 ++ [0,7]) : PlateSheet)], ∃ b ∈ [(bg s ring : Begun)], ring < 48 ∧ p.head < s.comp.plate.length ∧ s.waitsFor ring b (.plateFrame p) ∧ ((s.plate p.head).latchedFrame = true ∨ (s.head p.head).scansNone = true) ∧ (∀ r, r < s.host.cmdq.length → r ≠ ring → ∀ q ∈ (s.cmdQ r).begun, q.wait.frameHead ≠ some p.head)) ∧
    (∃ s ∈ [(hd 15 W : State)], ∃ ring ∈ [(0 : Nat)], ∃ p ∈ [(sheetOf ([1,0,15,8,1,0,0,0,9] ++ List.replicate 15 0 ++ [0,7]) : PlateSheet)], ring < 48 ∧ p.head < s.comp.plate.length ∧ (s.plate p.head).latchedFrame = false ∧ (s.head p.head).scansNone = false) ∧
    (∃ s ∈ [(((hd 15 W).modHead 15 fun x => { x with set_ := { x.set_ with timing := uhd } }).modPlate 15 fun x => { x with shown := [(0,1,3,4)] } : State)], ∃ h ∈ [(15 : Nat)], ∃ leaf ∈ [(0 : Nat)], ∃ q ∈ [((0,1,3,4) : Nat × Nat × BitVec 16 × Nat)], (s.head h).scanning = true ∧ leaf < (s.head h).set_.timing.leaves ∧ leaf = (s.head h).outSigs.length ∧ (s.head h).plateLeaf ≠ some leaf ∧ h < s.comp.head.length ∧ h < s.comp.plate.length ∧ h < s.comp.plateRead.length ∧ (s.plate h).shown = [q]) ∧
    (∃ s ∈ [(W : State)], (s.island islSvc).isolated = false ∧ s.pwr.booted = true ∧ (∀ h, h < 16 → ∀ i, i < 8 → s.paneClean h i)) ∧
    (∃ s ∈ [(W.modPlate 15 fun x => { x with panes := x.panes.modify 7 fun q => { q with enabled := true, w := 2, h := 1, crc := crc32c [5], copy := [5] } } : State)], (s.island islSvc).isolated = false ∧ s.pwr.booted = true ∧ ∃ h ∈ [(15 : Nat)], ∃ i ∈ [(7 : Nat)], h < 16 ∧ i < 8 ∧ h < s.comp.plate.length ∧ ¬ s.paneClean h i ∧ (∀ g, g < 16 → ∀ j, j < 8 → g ≠ h → s.paneClean g j) ∧ (∀ j, j < (s.plate h).panes.length → j ≠ i → ((s.plate h).panes.getD j Pane.reset).enabled = false) ∧ s.top.handover = false ∧ s.twin.resyncCause1 = false) := by
  iterate 10 refine ⟨by decide +kernel, ?_⟩
  decide +kernel

theorem test_witness_HeadsAndPortsAreConfigured :
    (∃ s ∈ [((fol 0 0x0700 [(0x10,1,15),(0x11,1,7),(0x14,4,25200),(0x18,2,640),(0x1A,2,16),(0x1C,2,96),(0x1E,2,48),(0x20,2,480),(0x22,2,10),(0x24,2,2),(0x26,2,33)] ((W.modDpPort 7 fun x => { x with st := .up, mode := 1, trained := 2, lastRate := 2, owner := some 1 }))).modDpPort 7 fun x => { x with st := .off } : State)], ∃ ring ∈ [(0 : Nat)], ∃ b ∈ [(bg s ring : Begun)], s.hasFolio ring 0x0700 b ∧ s.noGroups ∧ ∃ c ∈ [(s.fctx ring b)], ∃ h ∈ [(c.u 0x10 1)], ∃ tm ∈ [(timingOf c)], h < s.comp.head.length ∧ timingRanges c tm = true ∧ ((s.head h).owner = none ∨ (s.head h).owner = some c.colour) ∧ (∀ q ∈ tm.port, ∀ o ∈ (s.dpPort q).owner, o = c.colour) ∧ evOk c s (c.u 0x2A 1) = true ∧ (s.routeOk h tm = false ∨ (s.head h).stopped = true)) ∧
    (∃ s ∈ [((fol 0 0x0700 [(0x10,1,15),(0x11,1,7),(0x14,4,25200),(0x18,2,640),(0x1A,2,16),(0x1C,2,96),(0x1E,2,48),(0x20,2,480),(0x22,2,10),(0x24,2,2),(0x26,2,33)] ((W.modDpPort 7 fun x => { x with st := .up, mode := 1, trained := 2, lastRate := 2, owner := some 1 }))).modComp fun x => { x with pend := [{ Pend.reset with change := .timing 15 uhd, heads := [15] }] } : State)], ∃ ring ∈ [(0 : Nat)], ∃ b ∈ [(bg s ring : Begun)], s.hasFolio ring 0x0700 b ∧ s.noGroups ∧ ∃ c ∈ [(s.fctx ring b)], ∃ h ∈ [(c.u 0x10 1)], ∃ tm ∈ [(timingOf c)], h < s.comp.head.length ∧ timingRanges c tm = true ∧ ((s.head h).owner = none ∨ (s.head h).owner = some c.colour) ∧ (∀ q ∈ tm.port, ∀ o ∈ (s.dpPort q).owner, o = c.colour) ∧ evOk c s (c.u 0x2A 1) = true ∧ s.routeOk h tm = true ∧ (s.head h).stopped = false ∧ ((s.head h).genlock.mode = 0 ∨ within200 (s.head h).genlock.num (s.head h).genlock.den tm = true) ∧ (∃ p ∈ s.comp.pend, p.change.retimes h = true)) ∧
    (∃ s ∈ [(fol 0 0x0700 [(0x10,1,15),(0x11,1,7),(0x14,4,25200),(0x18,2,640),(0x1A,2,16),(0x1C,2,96),(0x1E,2,48),(0x20,2,480),(0x22,2,10),(0x24,2,2),(0x26,2,33)] ((W.modDpPort 7 fun x => { x with st := .up, mode := 1, trained := 2, lastRate := 2, owner := some 1 })) : State)], ∃ dt ∈ [(5 : Nat)], ∃ ring ∈ [(0 : Nat)], ∃ b ∈ [(bg s ring : Begun)], s.hasFolio ring 0x0700 b ∧ s.noGroups ∧ ∃ c ∈ [(s.fctx ring b)], ∃ h ∈ [(c.u 0x10 1)], ∃ tm ∈ [(timingOf c)], h < s.comp.head.length ∧ timingRanges c tm = true ∧ ((s.head h).owner = none ∨ (s.head h).owner = some c.colour) ∧ (∀ q ∈ tm.port, ∀ o ∈ (s.dpPort q).owner, o = c.colour) ∧ evOk c s (c.u 0x2A 1) = true ∧ s.routeOk h tm = true ∧ (s.head h).stopped = false ∧ ((s.head h).genlock.mode = 0 ∨ within200 (s.head h).genlock.num (s.head h).genlock.den tm = true) ∧ (∀ p ∈ s.comp.pend, p.change.retimes h = false) ∧ s.headReserved h none = false ∧ (∀ q ∈ tm.port, s.fits q (s.dpPort q).mode (s.dpPort q).rate (some (h, tm)) = true) ∧ pressFits ((s.view none).head h) tm = true ∧ fracLe (s.headCharge ((s.view none).head h) tm) 2500000000 = true ∧ (bodyHeadTiming c (s.elapse dt)).withinPoint (s.elapse dt) false ∧ (s.head h).st = .off) ∧
    (∃ s ∈ [(hd 15 ((fol 0 0x0700 [(0x10,1,15),(0x11,1,7),(0x14,4,25200),(0x18,2,640),(0x1A,2,16),(0x1C,2,96),(0x1E,2,48),(0x20,2,480),(0x22,2,10),(0x24,2,2),(0x26,2,33)] ((W.modDpPort 7 fun x => { x with st := .up, mode := 1, trained := 2, lastRate := 2, owner := some 1 })))) : State)], ∃ dt ∈ [(5 : Nat)], ∃ ring ∈ [(0 : Nat)], ∃ b ∈ [(bg s ring : Begun)], s.hasFolio ring 0x0700 b ∧ s.noGroups ∧ ∃ c ∈ [(s.fctx ring b)], ∃ h ∈ [(c.u 0x10 1)], ∃ tm ∈ [(timingOf c)], h < s.comp.head.length ∧ timingRanges c tm = true ∧ ((s.head h).owner = none ∨ (s.head h).owner = some c.colour) ∧ (∀ q ∈ tm.port, ∀ o ∈ (s.dpPort q).owner, o = c.colour) ∧ evOk c s (c.u 0x2A 1) = true ∧ s.routeOk h tm = true ∧ (s.head h).stopped = false ∧ ((s.head h).genlock.mode = 0 ∨ within200 (s.head h).genlock.num (s.head h).genlock.den tm = true) ∧ (∀ p ∈ s.comp.pend, p.change.retimes h = false) ∧ s.headReserved h none = false ∧ (∀ q ∈ tm.port, s.fits q (s.dpPort q).mode (s.dpPort q).rate (some (h, tm)) = true) ∧ pressFits ((s.view none).head h) tm = true ∧ fracLe (s.headCharge ((s.view none).head h) tm) 2500000000 = true ∧ (bodyHeadTiming c (s.elapse dt)).withinPoint (s.elapse dt) false ∧ (s.head h).st ≠ .off) ∧
    (∃ s ∈ [((fol 0 0x0701 [(0x10,1,15)] (hd 15 W)).modHead 15 fun x => { x with owner := none } : State)], ∃ ring ∈ [(0 : Nat)], ∃ b ∈ [(bg s ring : Begun)], s.hasFolio ring 0x0701 b ∧ ∃ c ∈ [(s.fctx ring b)], ∃ h ∈ [(c.u 0x10 1)], h < 16 ∧ h < s.comp.head.length ∧ (s.head h).owner ≠ some c.colour) ∧
    (∃ s ∈ [((fol 0 0x0701 [(0x10,1,15)] (hd 15 W)).modLayer 127 fun x => { x with st := .active, owner := 1, cfg := { x.cfg with head := some 15 } } : State)], ∃ ring ∈ [(0 : Nat)], ∃ b ∈ [(bg s ring : Begun)], s.hasFolio ring 0x0701 b ∧ ∃ c ∈ [(s.fctx ring b)], ∃ h ∈ [(c.u 0x10 1)], h < 16 ∧ h < s.comp.head.length ∧ (s.head h).owner = some c.colour ∧ (((s.view none).lay.any fun l => l.head = some h) = true)) ∧
    (∃ s ∈ [(fol 0 0x0701 [(0x10,1,15)] (hd 15 W) : State)], ∃ ring ∈ [(0 : Nat)], ∃ b ∈ [(bg s ring : Begun)], s.hasFolio ring 0x0701 b ∧ ∃ c ∈ [(s.fctx ring b)], ∃ h ∈ [(c.u 0x10 1)], h < 16 ∧ h < s.comp.head.length ∧ (s.head h).owner = some c.colour ∧ (((s.view none).lay.any fun l => l.head = some h) = false) ∧ s.headReserved h none = false) ∧
    (∃ s ∈ [(((fol 0 0x0702 [(0x10,1,15),(0x18,8,2)] (hd 15 W)).modHead 15 fun x => { x with guests := 12, on_ := [{ Shown.reset with index := 127 }] }).modLayer 127 fun x => { x with st := .active, owner := 3, cfg := { x.cfg with head := some 15 } } : State)], ∃ ring ∈ [(0 : Nat)], ∃ b ∈ [(bg s ring : Begun)], s.hasFolio ring 0x0702 b ∧ ∃ c ∈ [(s.fctx ring b)], ∃ h ∈ [(c.u 0x10 1)], h < 16 ∧ h < s.comp.head.length ∧ (s.head h).owner = some c.colour ∧ (s.head h).stopped = false ∧ (∃ x ∈ s.coloursOn h, (s.head h).guests.getLsbD x = true ∧ (BitVec.ofNat 64 (c.u 0x18 8)).getLsbD x = false)) ∧
    (∃ s ∈ [(fol 0 0x0702 [(0x10,1,15),(0x18,8,2)] (hd 15 W) : State)], ∃ ring ∈ [(0 : Nat)], ∃ b ∈ [(bg s ring : Begun)], s.hasFolio ring 0x0702 b ∧ ∃ c ∈ [(s.fctx ring b)], ∃ h ∈ [(c.u 0x10 1)], h < 16 ∧ h < s.comp.head.length ∧ (s.head h).owner = some c.colour ∧ (s.head h).stopped = false ∧ (∀ x ∈ s.coloursOn h, (s.head h).guests.getLsbD x = true → (BitVec.ofNat 64 (c.u 0x18 8)).getLsbD x = true)) ∧
    (∃ s ∈ [((fol 0 0x0710 [(0x10,1,7),(0x11,1,2),(0x12,1,2)] W).modDpPort 7 fun x => { x with owner := some 2 } : State)], ∃ ring ∈ [(0 : Nat)], ∃ b ∈ [(bg s ring : Begun)], s.hasFolio ring 0x0710 b ∧ ∃ c ∈ [(s.fctx ring b)], ∃ q ∈ [(c.u 0x10 1)], ∃ mode ∈ [(c.u 0x11 1)], ∃ rate ∈ [(c.u 0x12 1)], ∃ x ∈ [(s.dpPort q)], q < 8 ∧ q < s.comp.port.length ∧ mode < 3 ∧ rate < 3 ∧ c.u 0x13 1 < 32 ∧ c.u 0x14 1 < 2 ∧ c.u 0x15 3 = 0 ∧ ∃ o ∈ [(2)], x.owner = some o ∧ o ≠ c.colour) ∧
    (∃ s ∈ [((fol 0 0x0710 [(0x10,1,7)] (hd 3 W)).modHead 3 fun x => { x with timing := { uhd with port := some 7 } } : State)], ∃ ring ∈ [(0 : Nat)], ∃ b ∈ [(bg s ring : Begun)], s.hasFolio ring 0x0710 b ∧ ∃ c ∈ [(s.fctx ring b)], ∃ q ∈ [(c.u 0x10 1)], ∃ mode ∈ [(c.u 0x11 1)], ∃ rate ∈ [(c.u 0x12 1)], ∃ x ∈ [(s.dpPort q)], q < 8 ∧ q < s.comp.port.length ∧ mode < 3 ∧ rate < 3 ∧ c.u 0x13 1 < 32 ∧ c.u 0x14 1 < 2 ∧ c.u 0x15 3 = 0 ∧ (x.owner = none ∨ x.owner = some c.colour) ∧ evOk c s (c.u 0x13 1) = true ∧ mode = 0 ∧ s.routed q ≠ []) ∧
    (∃ s ∈ [((fol 0 0x0710 [(0x10,1,7)] W).modDpPort 7 fun x => { x with st := .up, owner := some 1 } : State)], ∃ ring ∈ [(0 : Nat)], ∃ b ∈ [(bg s ring : Begun)], s.hasFolio ring 0x0710 b ∧ ∃ c ∈ [(s.fctx ring b)], ∃ q ∈ [(c.u 0x10 1)], ∃ mode ∈ [(c.u 0x11 1)], ∃ rate ∈ [(c.u 0x12 1)], ∃ x ∈ [(s.dpPort q)], q < 8 ∧ q < s.comp.port.length ∧ mode < 3 ∧ rate < 3 ∧ c.u 0x13 1 < 32 ∧ c.u 0x14 1 < 2 ∧ c.u 0x15 3 = 0 ∧ (x.owner = none ∨ x.owner = some c.colour) ∧ evOk c s (c.u 0x13 1) = true ∧ mode = 0 ∧ s.routed q = [] ∧ x.st ≠ .off) ∧
    (∃ s ∈ [({ (fol 0 0x0710 [(0x10,1,7),(0x11,1,2),(0x12,1,2)] W) with twin := { W.twin with muted := false } }.modDpPort 7 fun x => { x with hpd := true } : State)], ∃ ring ∈ [(0 : Nat)], ∃ b ∈ [(bg s ring : Begun)], s.hasFolio ring 0x0710 b ∧ ∃ c ∈ [(s.fctx ring b)], ∃ q ∈ [(c.u 0x10 1)], ∃ mode ∈ [(c.u 0x11 1)], ∃ rate ∈ [(c.u 0x12 1)], ∃ x ∈ [(s.dpPort q)], q < 8 ∧ q < s.comp.port.length ∧ mode < 3 ∧ rate < 3 ∧ c.u 0x13 1 < 32 ∧ c.u 0x14 1 < 2 ∧ c.u 0x15 3 = 0 ∧ (x.owner = none ∨ x.owner = some c.colour) ∧ evOk c s (c.u 0x13 1) = true ∧ (mode = 2 ∨ (mode = 1 ∧ (s.routed q).length < 2 ∧ ∀ h ∈ s.routed q, ∀ tm ∈ s.routeTimings q h, tm.stream ≠ 1)) ∧ s.fits q mode rate none = true ∧ x.st = .off ∧ s.twin.muted = false) ∧
    (∃ s ∈ [((fol 0 0x0710 [(0x10,1,7),(0x11,1,2),(0x12,1,2)] W).modDpPort 7 fun x => { x with st := .up, owner := some 1, mode := 2, rate := 2 } : State)], ∃ ring ∈ [(0 : Nat)], ∃ b ∈ [(bg s ring : Begun)], s.hasFolio ring 0x0710 b ∧ ∃ c ∈ [(s.fctx ring b)], ∃ q ∈ [(c.u 0x10 1)], ∃ mode ∈ [(c.u 0x11 1)], ∃ rate ∈ [(c.u 0x12 1)], ∃ x ∈ [(s.dpPort q)], q < 8 ∧ q < s.comp.port.length ∧ mode < 3 ∧ rate < 3 ∧ c.u 0x13 1 < 32 ∧ c.u 0x14 1 < 2 ∧ c.u 0x15 3 = 0 ∧ (x.owner = none ∨ x.owner = some c.colour) ∧ evOk c s (c.u 0x13 1) = true ∧ (mode = 2 ∨ (mode = 1 ∧ (s.routed q).length < 2 ∧ ∀ h ∈ s.routed q, ∀ tm ∈ s.routeTimings q h, tm.stream ≠ 1)) ∧ s.fits q mode rate none = true ∧ x.st = .up ∧ mode = x.mode ∧ rate = x.rate ∧ bitOf (c.u 0x14 1) 0 = x.spread) ∧
    (∃ s ∈ [((fol 0 0x0710 [(0x10,1,7),(0x11,1,2),(0x12,1,2)] W).modDpPort 7 fun x => { x with st := .up, owner := some 1, mode := 2, rate := 1 } : State)], ∃ ring ∈ [(0 : Nat)], ∃ b ∈ [(bg s ring : Begun)], s.hasFolio ring 0x0710 b ∧ ∃ c ∈ [(s.fctx ring b)], ∃ q ∈ [(c.u 0x10 1)], ∃ mode ∈ [(c.u 0x11 1)], ∃ rate ∈ [(c.u 0x12 1)], ∃ x ∈ [(s.dpPort q)], q < 8 ∧ q < s.comp.port.length ∧ mode < 3 ∧ rate < 3 ∧ c.u 0x13 1 < 32 ∧ c.u 0x14 1 < 2 ∧ c.u 0x15 3 = 0 ∧ (x.owner = none ∨ x.owner = some c.colour) ∧ evOk c s (c.u 0x13 1) = true ∧ (mode = 2 ∨ (mode = 1 ∧ (s.routed q).length < 2 ∧ ∀ h ∈ s.routed q, ∀ tm ∈ s.routeTimings q h, tm.stream ≠ 1)) ∧ s.fits q mode rate none = true ∧ x.st = .up ∧ (mode ≠ x.mode ∨ rate ≠ x.rate ∨ bitOf (c.u 0x14 1) 0 ≠ x.spread)) := by
  iterate 14 refine ⟨by decide +kernel, ?_⟩
  decide +kernel

theorem test_witness_PortsTrainAndHeadsReturn :
    (∃ s ∈ [(W.modDpPort 7 fun x => { x with st := .down, mode := 2 } : State)], ∃ p ∈ [(7 : Nat)], p < 8 ∧ p < s.comp.port.length ∧ (s.dpPort p).st = .down) ∧
    (∃ s ∈ [(W : State)], ∃ p ∈ [(7 : Nat)], p < 8 ∧ p < s.comp.port.length ∧ (s.dpPort p).st ≠ .down) ∧
    (∃ s ∈ [(W.modDpPort 7 fun x => { x with st := .up, mode := 2, hpd := true } : State)], ∃ p ∈ [(7 : Nat)], p < 8 ∧ p < s.comp.port.length ∧ ((s.dpPort p).st = .training ∨ (s.dpPort p).st = .up)) ∧
    (∃ s ∈ [(W.modDpPort 7 fun x => { x with st := .up, mode := 2, hpd := true } : State)], ∃ p ∈ [(7 : Nat)], p < 8 ∧ p < s.comp.port.length ∧ (s.dpPort p).st = .up) ∧
    (∃ s ∈ [(W.modDpPort 7 fun x => { x with st := .training, mode := 2, hpd := true } : State)], ∃ p ∈ [(7 : Nat)], ∃ tr ∈ [({ (default : TrainIn) with ok := true, rates := 3 } : TrainIn)], p < 8 ∧ p < s.comp.port.length ∧ (s.dpPort p).st = .training ∧ ∃ l ∈ [(attemptsOf (s.dpPort p).rate tr.rates)], ∃ n ∈ [((s.dpPort p).tries)], ∃ x ∈ [(2)], l[n]? = some x ∧ tr.ok = true) ∧
    (∃ s ∈ [(W.modDpPort 7 fun x => { x with st := .training, mode := 2, hpd := true } : State)], ∃ p ∈ [(7 : Nat)], ∃ tr ∈ [({ (default : TrainIn) with rates := 3 } : TrainIn)], p < 8 ∧ p < s.comp.port.length ∧ (s.dpPort p).st = .training ∧ ∃ l ∈ [(attemptsOf (s.dpPort p).rate tr.rates)], ∃ n ∈ [((s.dpPort p).tries)], ∃ x ∈ [(2)], l[n]? = some x ∧ tr.ok = false ∧ n + 1 < l.length) ∧
    (∃ s ∈ [((W.modDpPort 7 fun x => { x with st := .training, mode := 2, hpd := true }).modDpPort 7 fun x => { x with tries := 2 } : State)], ∃ p ∈ [(7 : Nat)], ∃ tr ∈ [({ (default : TrainIn) with rates := 1 } : TrainIn)], p < 8 ∧ p < s.comp.port.length ∧ (s.dpPort p).st = .training ∧ ∃ l ∈ [(attemptsOf (s.dpPort p).rate tr.rates)], ∃ n ∈ [((s.dpPort p).tries)], ∃ x ∈ [(1)], l[n]? = some x ∧ tr.ok = false ∧ l.length ≤ n + 1) ∧
    (∃ s ∈ [(W.modDpPort 7 fun x => { x with st := .training, mode := 2, hpd := true } : State)], ∃ p ∈ [(7 : Nat)], ∃ tr ∈ [((default : TrainIn) : TrainIn)], p < 8 ∧ p < s.comp.port.length ∧ (s.dpPort p).st = .training ∧ ∃ l ∈ [(attemptsOf (s.dpPort p).rate tr.rates)], ∃ n ∈ [((s.dpPort p).tries)], l[n]? = none) ∧
    (∃ s ∈ [(W : State)], ∃ h ∈ [(15 : Nat)], h < 16 ∧ h < s.comp.head.length ∧ islHead h < s.fab.isl.length ∧ (s.island (islHead h)).isolated = false ∧ (s.island (islHead h)).barred = false ∧ (∀ f ∈ s.flt.inst, f.is 4 (islHead h) 0 0 = false) ∧ (s.flt.src.getD 4 FltSource.reset).fixed = false ∧ 2 ≤ (s.flt.src.getD 4 FltSource.reset).n) := by
  iterate 8 refine ⟨by decide +kernel, ?_⟩
  decide +kernel

theorem test_witness_LatchesCommitAndEpochsBegin :
    (∃ s ∈ [((hd 15 W).modComp fun x => { x with pend := [{ Pend.reset with change := .layer 127 { LayerCfg.reset with head := some 15 } false, heads := [15], target := some 15, colour := 1 }] } : State)], ∃ dt ∈ [(5 : Nat)], ∃ h ∈ [(15 : Nat)], h < 16 ∧ h < s.comp.head.length ∧ h < s.comp.plate.length ∧ (s.head h).st ≠ .off ∧ (s.head h).windowOpen = false ∧ (s.head h).isolated = false ∧ (s.head h).ending = false ∧ ∃ p ∈ [({ Pend.reset with change := .layer 127 { LayerCfg.reset with head := some 15 } false, heads := [15], target := some 15, colour := 1 } : Pend)], ∃ i ∈ [(127 : Nat)], ∃ kc ∈ [({ LayerCfg.reset with head := some 15 } : LayerCfg)], s.noGroups ∧ s.comp.pend = [p] ∧ p.group = none ∧ p.heads = [h] ∧ p.flat = [] ∧ p.change = .layer i kc false ∧ p.target = some h ∧ kc.head = some h ∧ i < s.comp.layer.length ∧ p.at_ < (s.elapse dt).tb.now) ∧
    (∃ s ∈ [((hd 15 W).modComp fun x => { x with pend := [{ Pend.reset with change := .layer 127 { LayerCfg.reset with head := some 15 } false, heads := [15], target := some 15, colour := 1, at_ := 5 }] } : State)], ∃ dt ∈ [(5 : Nat)], ∃ h ∈ [(15 : Nat)], h < 16 ∧ h < s.comp.head.length ∧ h < s.comp.plate.length ∧ (s.head h).st ≠ .off ∧ (s.head h).windowOpen = false ∧ (s.head h).isolated = false ∧ (s.head h).ending = false ∧ ∃ p ∈ [({ Pend.reset with change := .layer 127 { LayerCfg.reset with head := some 15 } false, heads := [15], target := some 15, colour := 1, at_ := 5 } : Pend)], ∃ i ∈ [(127 : Nat)], ∃ kc ∈ [({ LayerCfg.reset with head := some 15 } : LayerCfg)], s.noGroups ∧ s.comp.pend = [p] ∧ p.group = none ∧ p.heads = [h] ∧ p.flat = [] ∧ p.change = .layer i kc false ∧ p.target = some h ∧ kc.head = some h ∧ i < s.comp.layer.length ∧ (s.elapse dt).tb.now ≤ p.at_) ∧
    (∃ s ∈ [((hd 15 W).modComp fun x => { x with pend := [{ Pend.reset with change := .blend 15 1 7, heads := [15] }] } : State)], ∃ dt ∈ [(5 : Nat)], ∃ h ∈ [(15 : Nat)], h < 16 ∧ h < s.comp.head.length ∧ h < s.comp.plate.length ∧ (s.head h).st ≠ .off ∧ (s.head h).windowOpen = false ∧ (s.head h).isolated = false ∧ (s.head h).ending = false ∧ ∃ p ∈ [({ Pend.reset with change := .blend 15 1 7, heads := [15] } : Pend)], s.noGroups ∧ s.comp.pend = [p] ∧ p.group = none ∧ p.heads = [h] ∧ p.flat = [] ∧ ∃ m ∈ [(1 : Nat)], p.change = .blend h m (7 : BitVec 24) ∧ p.at_ < (s.elapse dt).tb.now) ∧
    (∃ s ∈ [(put 0x50000008 [5] (((win ((hd 15 W).modComp fun x => { x with pend := [{ Pend.reset with change := .blend 15 1 7, heads := [15], group := some 4 }] })).modCmdQ 31 fun q => { q with groups := [{ Group.reset with heads := [15], colour := 1, id := 4, fences := [⟨0, 8, 5⟩] }] })) : State)], ∃ h ∈ [(15 : Nat)], h < 16 ∧ h < s.comp.head.length ∧ h < s.comp.plate.length ∧ (s.head h).st ≠ .off ∧ (s.head h).windowOpen = false ∧ (s.head h).isolated = false ∧ (s.head h).ending = false ∧ ∃ r ∈ [(31 : Nat)], ∃ g ∈ [({ Group.reset with heads := [15], colour := 1, id := 4, fences := [⟨0, 8, 5⟩] } : Group)], ∃ p ∈ [({ Pend.reset with change := .blend 15 1 7, heads := [15], group := some 4 } : Pend)], ∃ m ∈ [(1 : Nat)], r < 48 ∧ (∀ k, k < s.host.cmdq.length → k ≠ r → (s.cmdQ k).groups = []) ∧ (s.cmdQ r).groups = [g] ∧ g.heads = [h] ∧ g.doneHeads = [] ∧ g.committed = false ∧ g.waitSource = false ∧ g.flattenHeads = [] ∧ s.comp.pend = [p] ∧ p.group = some g.id ∧ p.heads = [h] ∧ p.change = .blend h m (7 : BitVec 24) ∧ s.readFences g.colour g.fences = some true) ∧
    (∃ s ∈ [((win ((hd 15 W).modComp fun x => { x with pend := [{ Pend.reset with change := .blend 15 1 7, heads := [15], group := some 4 }] })).modCmdQ 31 fun q => { q with groups := [{ Group.reset with heads := [15], colour := 1, id := 4, fences := [⟨0, 8, 5⟩] }] } : State)], ∃ h ∈ [(15 : Nat)], h < 16 ∧ h < s.comp.head.length ∧ h < s.comp.plate.length ∧ (s.head h).st ≠ .off ∧ (s.head h).windowOpen = false ∧ (s.head h).isolated = false ∧ (s.head h).ending = false ∧ ∃ r ∈ [(31 : Nat)], ∃ g ∈ [({ Group.reset with heads := [15], colour := 1, id := 4, fences := [⟨0, 8, 5⟩] } : Group)], ∃ p ∈ [({ Pend.reset with change := .blend 15 1 7, heads := [15], group := some 4 } : Pend)], ∃ m ∈ [(1 : Nat)], r < 48 ∧ (∀ k, k < s.host.cmdq.length → k ≠ r → (s.cmdQ k).groups = []) ∧ (s.cmdQ r).groups = [g] ∧ g.heads = [h] ∧ g.doneHeads = [] ∧ g.committed = false ∧ g.waitSource = false ∧ g.flattenHeads = [] ∧ s.comp.pend = [p] ∧ p.group = some g.id ∧ p.heads = [h] ∧ p.change = .blend h m (7 : BitVec 24) ∧ s.readFences g.colour g.fences = some false) ∧
    (∃ s ∈ [(((hd 15 W).modHead 15 fun x => { x with windowOpen := true }).modHead 15 fun x => { x with commits := [{ CommitRec.reset with count := 1 }], timing := { uhd with commitEvents := true } } : State)], ∃ h ∈ [(15 : Nat)], h < 16 ∧ h < s.comp.head.length ∧ (s.head h).st ≠ .off ∧ (s.head h).windowOpen = true ∧ (s.head h).isolated = false ∧ (s.head h).ending = false ∧ (s.head h).cur = [] ∧ (s.head h).later = [] ∧ (s.head h).st = .running ∧ ∃ cr ∈ [({ CommitRec.reset with count := 1 })], (s.head h).commits = [cr] ∧ (s.head h).timing.commitEvents = true) ∧
    (∃ s ∈ [(((hd 15 W).modHead 15 fun x => { x with windowOpen := true }).modCmdQ 31 fun q => { q with groups := [{ Group.reset with heads := [15], doneHeads := [15], committed := true }] } : State)], ∃ h ∈ [(15 : Nat)], h < 16 ∧ h < s.comp.head.length ∧ (s.head h).st ≠ .off ∧ (s.head h).windowOpen = true ∧ (s.head h).isolated = false ∧ (s.head h).ending = false ∧ (s.head h).cur = [] ∧ (s.head h).later = [] ∧ (s.head h).st = .running ∧ ∃ r ∈ [(31 : Nat)], ∃ g ∈ [({ Group.reset with heads := [15], doneHeads := [15], committed := true } : Group)], (s.head h).commits = [] ∧ r < 48 ∧ r < s.host.cmdq.length ∧ (∀ k, k < s.host.cmdq.length → k ≠ r → (s.cmdQ k).groups = []) ∧ (s.cmdQ r).groups = [g] ∧ g.committed = true ∧ g.heads = [h] ∧ g.doneHeads = [h] ∧ g.begun = []) ∧
    (∃ s ∈ [(((hd 15 W).modHead 15 fun x => { x with windowOpen := true }).modHead 15 fun x => { x with timing := { uhd with frameEvents := 1 } } : State)], ∃ h ∈ [(15 : Nat)], h < 16 ∧ h < s.comp.head.length ∧ (s.head h).st ≠ .off ∧ (s.head h).windowOpen = true ∧ (s.head h).isolated = false ∧ (s.head h).ending = false ∧ (s.head h).cur = [] ∧ (s.head h).later = [] ∧ (s.head h).st = .running ∧ (s.head h).commits = [] ∧ s.noGroups ∧ (s.head h).timing.frameEvents ≠ 0 ∧ (s.head h).evLeft = 0) ∧
    (∃ s ∈ [(((hd 15 W).modHead 15 fun x => { x with windowOpen := true }).modHead 15 fun x => { x with ending := true } : State)], ∃ h ∈ [(15 : Nat)], h < 16 ∧ h < s.comp.head.length ∧ (s.head h).st ≠ .off ∧ (s.head h).windowOpen = true ∧ (s.head h).isolated = false ∧ (s.head h).ending = true) := by
  iterate 8 refine ⟨by decide +kernel, ?_⟩
  decide +kernel

theorem test_witness_ScanOutPicksFetchesAndJudges :
    (∃ s ∈ [((hd 15 (W.modCtx 9 fun x => { x with pics := [{ Picture.reset with id := 2, output := true, leaves := [{ Leaf.reset with valid := true }] }] })).modHead 15 fun x => { x with timing := tiny, set_ := { x.set_ with timing := tiny }, cur := [{ Scan.reset with shown := { Shown.reset with index := 63, cfg := { LayerCfg.reset with context := 9, srcH := 16, srcW := 16, dstW := 4, dstH := 4 } } }] } : State)], ∃ h ∈ [(15 : Nat)], ∃ layer ∈ [(63 : Nat)], ∃ coming ∈ [(false : Bool)], ∃ sc ∈ [({ Scan.reset with shown := { Shown.reset with index := 63, cfg := { LayerCfg.reset with context := 9, srcH := 16, srcW := 16, dstW := 4, dstH := 4 } } } : Scan)], layer < 64 ∧ h < s.comp.head.length ∧ (s.head h).isolated = false ∧ ((s.head h).frameFor layer (fun k => !k.picked) = some coming) ∧ (s.head h).scanOf coming layer = some sc) ∧
    (∃ s ∈ [(W.modCtx 9 fun x => { x with pics := [{ Picture.reset with id := 2, output := true, leaves := [{ Leaf.reset with valid := true }] }] } : State)], ∃ x ∈ [({ Shown.reset with index := 63, cfg := { LayerCfg.reset with context := 9, srcH := 16, srcW := 16, dstW := 4, dstH := 4 } } : Shown)], ∃ tm ∈ [(tiny : Timing)], ∃ last ∈ [(none : Option SelPic)], ∃ pc ∈ [({ Picture.reset with id := 2, output := true, leaves := [{ Leaf.reset with valid := true }] } : Picture)], pc ∈ s.sourcePics x.cfg ∧ pc.output = true ∧ qualifies x tm pc = true ∧ (∀ sel ∈ last, ∀ p2 ∈ s.picOf sel, p2.ord ≤ pc.ord)) ∧
    (∃ s ∈ [((hd 15 (W.modCtx 9 fun x => { x with pics := [{ Picture.reset with id := 2, output := true, leaves := [{ Leaf.reset with valid := true }] }] })).modHead 15 fun x => { x with timing := tiny, set_ := { x.set_ with timing := tiny }, cur := [{ Scan.reset with picked := true, sel := some { SelPic.reset with context := 9, pic := 2 }, shown := { Shown.reset with index := 63, cfg := { LayerCfg.reset with context := 9, srcH := 16, srcW := 16, dstW := 4, dstH := 4 } } }] } : State)], ∃ h ∈ [(15 : Nat)], ∃ layer ∈ [(63 : Nat)], ∃ leaf ∈ [(0 : Nat)], ∃ sc ∈ [({ Scan.reset with picked := true, sel := some { SelPic.reset with context := 9, pic := 2 }, shown := { Shown.reset with index := 63, cfg := { LayerCfg.reset with context := 9, srcH := 16, srcW := 16, dstW := 4, dstH := 4 } } } : Scan)], ∃ sel ∈ [({ SelPic.reset with context := 9, pic := 2 } : SelPic)], ∃ pc ∈ [({ Picture.reset with id := 2, output := true, leaves := [{ Leaf.reset with valid := true }] } : Picture)], ∃ f ∈ [({ Leaf.reset with valid := true } : Leaf)], layer < 64 ∧ h < s.comp.head.length ∧ (s.head h).isolated = false ∧ (s.head h).scanOf false layer = some sc ∧ sc.unfetched ((s.head h).timingFor false) leaf = true ∧ sc.sel = some sel ∧ s.picOf sel = some pc ∧ pc.leaves[leaf]? = some f ∧ (s.island islComp).isolated = false) ∧
    (∃ s ∈ [((hd 15 W).modHead 15 fun x => { x with timing := tiny, set_ := { x.set_ with timing := tiny }, cur := [{ Scan.reset with shown := { Shown.reset with index := 127, cfg := { LayerCfg.reset with format := 5, srcH := 16, srcW := 16, dstW := 4, dstH := 4 } } }] } : State)], ∃ h ∈ [(15 : Nat)], ∃ layer ∈ [(127 : Nat)], ∃ band ∈ [(0 : Nat)], ∃ sc ∈ [({ Scan.reset with shown := { Shown.reset with index := 127, cfg := { LayerCfg.reset with format := 5, srcH := 16, srcW := 16, dstW := 4, dstH := 4 } } } : Scan)], ∃ e ∈ [((0,0,4,4) : Edges)], 64 ≤ layer ∧ layer < 128 ∧ layer < s.comp.layer.length ∧ h < s.comp.head.length ∧ (s.head h).isolated = false ∧ (s.head h).scanOf false layer = some sc ∧ ((sc.bands.any fun b => b.band = band) = false) ∧ band < (s.head h).set_.timing.leaves ∧ sc.shown.cfg.clip (s.head h).set_.timing = some e ∧ bandLines e band ≠ []) ∧
    (∃ s ∈ [((hd 15 W).modHead 15 fun x => { x with timing := tiny, set_ := { x.set_ with timing := tiny }, plateLeaf := some 0 } : State)], ∃ h ∈ [(15 : Nat)], ∃ leaf ∈ [(0 : Nat)], h < s.comp.head.length ∧ (s.head h).scanning = true ∧ leaf < (s.head h).set_.timing.leaves ∧ leaf = (s.head h).outSigs.length ∧ (s.head h).plateLeaf = some leaf) := by
  iterate 4 refine ⟨by decide +kernel, ?_⟩
  decide +kernel

theorem test_witness_EncodeSessionsOpenAndClose :
    (∃ s ∈ [((win (fol 0 0x0800 [(0x10,1,15),(0x11,1,3),(0x12,1,2),(0x13,1,1),(0x18,2,64),(0x1A,2,64),(0x1C,4,1000),(0x20,4,50),(0x25,1,51),(0x30,4,64)] (hd 3 W))).modHead 3 fun x => { x with owner := some 2 } : State)], ∃ ring ∈ [(0 : Nat)], ∃ b ∈ [(bg s ring : Begun)], s.hasFolio ring 0x0800 b ∧ ∃ c ∈ [(s.fctx ring b)], ∃ i ∈ [(c.u 0x10 1)], ∃ k ∈ [(encCfgOf c)], i < s.enc.session.length ∧ encRanges c k (s.head k.head) = true ∧ (s.head k.head).owner ≠ some c.colour) ∧
    (∃ s ∈ [((win (fol 0 0x0800 [(0x10,1,15),(0x11,1,3),(0x12,1,2),(0x13,1,1),(0x18,2,64),(0x1A,2,64),(0x1C,4,1000),(0x20,4,50),(0x25,1,51),(0x30,4,64)] (hd 3 W))).modSession 15 fun x => { x with st := .coding } : State)], ∃ ring ∈ [(0 : Nat)], ∃ b ∈ [(bg s ring : Begun)], s.hasFolio ring 0x0800 b ∧ ∃ c ∈ [(s.fctx ring b)], ∃ i ∈ [(c.u 0x10 1)], ∃ k ∈ [(encCfgOf c)], i < s.enc.session.length ∧ encRanges c k (s.head k.head) = true ∧ (s.head k.head).owner = some c.colour ∧ s.encWindows c.colour k = true ∧ evOk c s (c.u 0x29 1) = true ∧ (s.head k.head).st ≠ .off ∧ (s.session i).st ≠ .closed) ∧
    (∃ s ∈ [(((win (fol 0 0x0800 [(0x10,1,15),(0x11,1,3),(0x12,1,2),(0x13,1,1),(0x18,2,64),(0x1A,2,64),(0x1C,4,1000),(0x20,4,50),(0x25,1,51),(0x30,4,64)] (hd 3 W))).modSession 0 fun x => { x with st := .coding, cfg := { x.cfg with head := 3 } }).modSession 1 fun x => { x with st := .coding, cfg := { x.cfg with head := 3 } } : State)], ∃ ring ∈ [(0 : Nat)], ∃ b ∈ [(bg s ring : Begun)], s.hasFolio ring 0x0800 b ∧ ∃ c ∈ [(s.fctx ring b)], ∃ i ∈ [(c.u 0x10 1)], ∃ k ∈ [(encCfgOf c)], ∃ feeds ∈ [((s.enc.session.filter fun (x : EncSession) => decide (x.st ≠ .closed) && decide (x.cfg.head = k.head)).length)], i < s.enc.session.length ∧ encRanges c k (s.head k.head) = true ∧ (s.head k.head).owner = some c.colour ∧ s.encWindows c.colour k = true ∧ evOk c s (c.u 0x29 1) = true ∧ (s.head k.head).st ≠ .off ∧ (s.session i).st = .closed ∧ 2 ≤ feeds) ∧
    (∃ s ∈ [(((win (fol 0 0x0800 [(0x10,1,15),(0x11,1,3),(0x12,1,2),(0x13,1,1),(0x18,2,64),(0x1A,2,64),(0x1C,4,1000),(0x20,4,50),(0x25,1,51),(0x30,4,64)] (hd 3 W))).modEncoder 0 fun x => { x with isolated := true }).modEncoder 1 fun x => { x with isolated := true } : State)], ∃ ring ∈ [(0 : Nat)], ∃ b ∈ [(bg s ring : Begun)], s.hasFolio ring 0x0800 b ∧ ∃ c ∈ [(s.fctx ring b)], ∃ i ∈ [(c.u 0x10 1)], ∃ k ∈ [(encCfgOf c)], ∃ feeds ∈ [((s.enc.session.filter fun (x : EncSession) => decide (x.st ≠ .closed) && decide (x.cfg.head = k.head)).length)], ∃ new ∈ [({ EncSession.reset with st := .coding, owner := c.colour, cfg := k, eff := k.divisor, phase := k.divisor - 1, joins := 1 } : EncSession)], ∃ l ∈ [(s.enc.session.modify i fun _ => new)], i < s.enc.session.length ∧ encRanges c k (s.head k.head) = true ∧ (s.head k.head).owner = some c.colour ∧ s.encWindows c.colour k = true ∧ evOk c s (c.u 0x29 1) = true ∧ (s.head k.head).st ≠ .off ∧ (s.session i).st = .closed ∧ feeds < 2 ∧ k.record = true ∧ leastFit s.headRates l i s.encodersUp = none) ∧
    (∃ s ∈ [(win (fol 0 0x0800 [(0x10,1,15),(0x11,1,3),(0x12,1,2),(0x13,1,1),(0x18,2,64),(0x1A,2,64),(0x1C,4,1000),(0x20,4,50),(0x25,1,51),(0x30,4,64)] (hd 3 W)) : State)], ∃ dt ∈ [(5 : Nat)], ∃ ring ∈ [(0 : Nat)], ∃ b ∈ [(bg s ring : Begun)], s.hasFolio ring 0x0800 b ∧ ∃ c ∈ [(s.fctx ring b)], ∃ i ∈ [(c.u 0x10 1)], ∃ k ∈ [(encCfgOf c)], ∃ feeds ∈ [((s.enc.session.filter fun (x : EncSession) => decide (x.st ≠ .closed) && decide (x.cfg.head = k.head)).length)], ∃ new ∈ [({ EncSession.reset with st := .coding, owner := c.colour, cfg := k, eff := k.divisor, phase := k.divisor - 1, joins := 1 } : EncSession)], ∃ l ∈ [(s.enc.session.modify i fun _ => new)], i < s.enc.session.length ∧ encRanges c k (s.head k.head) = true ∧ (s.head k.head).owner = some c.colour ∧ s.encWindows c.colour k = true ∧ evOk c s (c.u 0x29 1) = true ∧ (s.head k.head).st ≠ .off ∧ (s.session i).st = .closed ∧ ∃ e ∈ [(0)], feeds < 2 ∧ leastFit s.headRates l i s.encodersUp = some e ∧ (bodyEncOpen c (s.elapse dt)).withinPoint (s.elapse dt) true) ∧
    (∃ s ∈ [((fol 0 0x0801 [(0x10,1,15)] (W.modSession 15 fun x => { x with st := .coding, owner := 1 })).modSession 15 fun x => { x with owner := 2 } : State)], ∃ ring ∈ [(0 : Nat)], ∃ op ∈ [(0x0801 : Nat)], ∃ b ∈ [(bg s ring : Begun)], s.hasFolio ring op b ∧ ∃ c ∈ [(s.fctx ring b)], ∃ i ∈ [(c.u 0x10 1)], ∃ x ∈ [(s.session i)], i < 16 ∧ i < s.enc.session.length ∧ op = 0x0801 ∧ x.st ≠ .closed ∧ x.owner ≠ c.colour) ∧
    (∃ s ∈ [(fol 0 0x0801 [(0x10,1,15)] W : State)], ∃ ring ∈ [(0 : Nat)], ∃ op ∈ [(0x0801 : Nat)], ∃ b ∈ [(bg s ring : Begun)], s.hasFolio ring op b ∧ ∃ c ∈ [(s.fctx ring b)], ∃ i ∈ [(c.u 0x10 1)], ∃ x ∈ [(s.session i)], i < 16 ∧ i < s.enc.session.length ∧ op = 0x0801 ∧ x.st = .closed) ∧
    (∃ s ∈ [((fol 0 0x0801 [(0x10,1,15)] (W.modSession 15 fun x => { x with st := .coding, owner := 1 })).modSession 15 fun x => { x with cur := some CurPic.reset } : State)], ∃ ring ∈ [(0 : Nat)], ∃ op ∈ [(0x0801 : Nat)], ∃ b ∈ [(bg s ring : Begun)], s.hasFolio ring op b ∧ ∃ c ∈ [(s.fctx ring b)], ∃ i ∈ [(c.u 0x10 1)], ∃ x ∈ [(s.session i)], i < 16 ∧ i < s.enc.session.length ∧ op = 0x0801 ∧ x.st ≠ .closed ∧ x.owner = c.colour ∧ x.cur ≠ none) ∧
    (∃ s ∈ [(fol 0 0x0801 [(0x10,1,15)] (W.modSession 15 fun x => { x with st := .coding, owner := 1 }) : State)], ∃ ring ∈ [(0 : Nat)], ∃ op ∈ [(0x0801 : Nat)], ∃ b ∈ [(bg s ring : Begun)], s.hasFolio ring op b ∧ ∃ c ∈ [(s.fctx ring b)], ∃ i ∈ [(c.u 0x10 1)], ∃ x ∈ [(s.session i)], i < 16 ∧ i < s.enc.session.length ∧ op = 0x0801 ∧ x.st ≠ .closed ∧ x.owner = c.colour ∧ x.cur = none ∧ (x.cfg.record = true ∨ s.enc.demotions = [])) ∧
    (∃ s ∈ [((fol 0 0x0802 [(0x10,1,15),(0x14,4,512)] (W.modSession 15 fun x => { x with st := .coding, owner := 1 })).modSession 15 fun x => { x with aus := [(256,256),(512,256),(768,256)], used := 768 } : State)], ∃ ring ∈ [(0 : Nat)], ∃ op ∈ [(0x0802 : Nat)], ∃ b ∈ [(bg s ring : Begun)], s.hasFolio ring op b ∧ ∃ c ∈ [(s.fctx ring b)], ∃ i ∈ [(c.u 0x10 1)], ∃ x ∈ [(s.session i)], i < 16 ∧ i < s.enc.session.length ∧ op = 0x0802 ∧ x.st ≠ .closed ∧ x.owner = c.colour ∧ ∃ before ∈ [([(256,256)] : List (Nat × Nat))], ∃ m ∈ [(256 : Nat)], ∃ rest ∈ [([(768,256)] : List (Nat × Nat))], x.aus = before ++ (c.u 0x14 4, m) :: rest ∧ (∀ e ∈ before, e.1 ≠ c.u 0x14 4)) ∧
    (∃ s ∈ [(fol 0 0x0802 [(0x10,1,15),(0x14,4,512)] (W.modSession 15 fun x => { x with st := .coding, owner := 1 }) : State)], ∃ ring ∈ [(0 : Nat)], ∃ op ∈ [(0x0802 : Nat)], ∃ b ∈ [(bg s ring : Begun)], s.hasFolio ring op b ∧ ∃ c ∈ [(s.fctx ring b)], ∃ i ∈ [(c.u 0x10 1)], ∃ x ∈ [(s.session i)], i < 16 ∧ i < s.enc.session.length ∧ op = 0x0802 ∧ x.st ≠ .closed ∧ x.owner = c.colour ∧ (∀ e ∈ x.aus, e.1 ≠ c.u 0x14 4) ∧ c.u 0x14 4 ≠ x.readOff) ∧
    (∃ s ∈ [(fol 0 0x0803 [(0x10,1,15)] (W.modSession 15 fun x => { x with st := .coding, owner := 1 }) : State)], ∃ ring ∈ [(0 : Nat)], ∃ op ∈ [(0x0803 : Nat)], ∃ b ∈ [(bg s ring : Begun)], s.hasFolio ring op b ∧ ∃ c ∈ [(s.fctx ring b)], ∃ i ∈ [(c.u 0x10 1)], ∃ x ∈ [(s.session i)], i < 16 ∧ i < s.enc.session.length ∧ op = 0x0803 ∧ x.st ≠ .closed ∧ x.owner = c.colour) ∧
    (∃ s ∈ [(fol 0 0x0804 [(0x10,1,15),(0x14,4,1000),(0x18,4,50)] (hd 0 (W.modSession 15 fun x => { x with st := .coding, owner := 1, cfg := { x.cfg with divisor := 1 } })) : State)], ∃ ring ∈ [(0 : Nat)], ∃ op ∈ [(0x0804 : Nat)], ∃ b ∈ [(bg s ring : Begun)], s.hasFolio ring op b ∧ ∃ c ∈ [(s.fctx ring b)], ∃ i ∈ [(c.u 0x10 1)], ∃ x ∈ [(s.session i)], i < 16 ∧ i < s.enc.session.length ∧ op = 0x0804 ∧ x.st ≠ .closed ∧ x.owner = c.colour ∧ (s.head x.cfg.head).st ≠ .off ∧ rateRanges (c.u 0x14 4) (c.u 0x18 4) x.cfg.divisor (s.head x.cfg.head).timing.rate = true) ∧
    (∃ s ∈ [(fol 0 0x0804 [(0x10,1,15),(0x14,4,99),(0x18,4,50)] (hd 0 (W.modSession 15 fun x => { x with st := .coding, owner := 1, cfg := { x.cfg with divisor := 1 } })) : State)], ∃ ring ∈ [(0 : Nat)], ∃ op ∈ [(0x0804 : Nat)], ∃ b ∈ [(bg s ring : Begun)], s.hasFolio ring op b ∧ ∃ c ∈ [(s.fctx ring b)], ∃ i ∈ [(c.u 0x10 1)], ∃ x ∈ [(s.session i)], i < 16 ∧ i < s.enc.session.length ∧ op = 0x0804 ∧ x.st ≠ .closed ∧ x.owner = c.colour ∧ (s.head x.cfg.head).st ≠ .off ∧ rateRanges (c.u 0x14 4) (c.u 0x18 4) x.cfg.divisor (s.head x.cfg.head).timing.rate = false) := by
  iterate 13 refine ⟨by decide +kernel, ?_⟩
  decide +kernel

theorem test_witness_PicturesAreCodedWithinTheirCap :
    (∃ s ∈ [(((hd 3 W).modHead 3 (fun x => { x with frame := 7, set_ := { x.set_ with timing := uhd }, outSigs := List.replicate 8 5 }) |>.modSession 15 fun x => { x with st := .coding, owner := 1, eff := 1, cfg := { x.cfg with head := 3, divisor := 1, srcW := 64, srcH := 128, bitrate := 1000, vbv := 50, qpMax := 51 }, source := List.replicate 64 [] }).modSession 15 fun x => { x with cur := some { CurPic.reset with frame := 7, rows := [RowOut.reset] } } : State)], ∃ i ∈ [(15 : Nat)], ∃ row ∈ [(1 : Nat)], i < 16 ∧ i < s.enc.session.length ∧ s.rowReady i row = true ∧ ∃ x ∈ [(s.session i)], x.encoder < s.enc.ee.length ∧ ∃ c ∈ [({ CurPic.reset with frame := 7, rows := [RowOut.reset] })], x.cur = some c ∧ row ≠ 0) ∧
    (∃ s ∈ [(((hd 3 W).modHead 3 (fun x => { x with frame := 7, set_ := { x.set_ with timing := uhd }, outSigs := List.replicate 8 5 }) |>.modSession 15 fun x => { x with st := .coding, owner := 1, eff := 1, cfg := { x.cfg with head := 3, divisor := 1, srcW := 64, srcH := 128, bitrate := 1000, vbv := 50, qpMax := 51 }, source := List.replicate 64 [] }).modSession 15 fun x => { x with cfg := { x.cfg with outBlocks := 24 } } : State)], ∃ i ∈ [(15 : Nat)], ∃ row ∈ [(0 : Nat)], i < 16 ∧ i < s.enc.session.length ∧ s.rowReady i row = true ∧ ∃ x ∈ [(s.session i)], ∃ h ∈ [(s.head x.cfg.head)], ∃ y ∈ [(x.drain h.timing.rate)], ∃ vbv ∈ [(y.cfg.vbv * 1000)], x.encoder < s.enc.ee.length ∧ row = 0 ∧ x.cur = none ∧ s.top.replay = false ∧ y.cfg.outBlocks * 256 - y.used < ceilDiv (ceilDiv vbv 8) 256 * 256) ∧
    (∃ s ∈ [(((hd 3 W).modHead 3 (fun x => { x with frame := 7, set_ := { x.set_ with timing := uhd }, outSigs := List.replicate 8 5 }) |>.modSession 15 fun x => { x with st := .coding, owner := 1, eff := 1, cfg := { x.cfg with head := 3, divisor := 1, srcW := 64, srcH := 128, bitrate := 1000, vbv := 50, qpMax := 51 }, source := List.replicate 64 [] }).modSession 15 fun x => { x with cfg := { x.cfg with outBlocks := 64 } } : State)], ∃ i ∈ [(15 : Nat)], ∃ row ∈ [(0 : Nat)], i < 16 ∧ i < s.enc.session.length ∧ s.rowReady i row = true ∧ ∃ x ∈ [(s.session i)], ∃ h ∈ [(s.head x.cfg.head)], ∃ y ∈ [(x.drain h.timing.rate)], ∃ vbv ∈ [(y.cfg.vbv * 1000)], x.encoder < s.enc.ee.length ∧ row = 0 ∧ x.cur = none ∧ s.top.replay = false ∧ ceilDiv (ceilDiv vbv 8) 256 * 256 ≤ y.cfg.outBlocks * 256 - y.used) ∧
    (∃ s ∈ [((W.modSession 3 fun x => { x with cfg := { x.cfg with record := true } }).modEncoder 1 fun x => { x with waiting := [{ EncRow.reset with session := 3 }] } : State)], ∃ e ∈ [(1 : Nat)], ∃ w ∈ [({ EncRow.reset with session := 3 } : EncRow)], s.rowPick e = some w ∧ (s.session w.session).cfg.record = true ∧ ∃ r ∈ [({ EncRow.reset with session := 3 })], r ∈ (s.encoder e).waiting) ∧
    (∃ s ∈ [((W.modSession 3 fun x => { x with st := .coding, encoder := 1, cfg := { x.cfg with srcH := 128, qpMax := 51 }, cur := some { CurPic.reset with cap := 1000 } }).modEncoder 1 fun x => { x with waiting := [{ EncRow.reset with session := 3 }] } : State)], ∃ e ∈ [(1 : Nat)], ∃ w ∈ [({ EncRow.reset with session := 3 } : EncRow)], ∃ o ∈ [({ (default : RateRowIn) with session := 3, bits := 80, coded := List.replicate 10 1 } : RateRowIn)], ∃ c ∈ [({ CurPic.reset with cap := 1000 } : CurPic)], s.rowPick e = some w ∧ w.session < s.enc.session.length ∧ (s.session w.session).cur = some c ∧ w.session = o.session ∧ (s.encoder e).isolated = false ∧ e < s.enc.ee.length) ∧
    (∃ s ∈ [(win ((hd 3 W).modHead 3 (fun x => { x with set_ := { x.set_ with timing := tiny }, outSigs := [3] }) |>.modSession 15 fun x => { x with st := .coding, owner := 1, eff := 1, cfg := { x.cfg with head := 3, divisor := 1, srcW := 64, srcH := 64, vbv := 50, outBlocks := 64, qpMax := 51 }, cur := some { CurPic.reset with frame := 1, rows := [{ RowOut.reset with bits := 8, coded := [5] }] } }) : State)], ∃ i ∈ [(15 : Nat)], ∃ c ∈ [({ CurPic.reset with frame := 1, rows := [{ RowOut.reset with bits := 8, coded := [5] }] } : CurPic)], ∃ sigs ∈ [([3] : List (BitVec 32))], i < s.enc.session.length ∧ (s.session i).cur = some c ∧ s.pictureSigs (s.session i) c = some sigs ∧ (s.session i).closing = false ∧ (s.session i).cfg.statsBlocks = 0 ∧ c.heldRow = none ∧ s.store.mem.wf = true ∧ ∃ x ∈ [(s.session i)], ∃ payload ∈ [(leBytes 4 c.frame.toNat ++ leBytes 8 c.epoch ++ leBytes 4 (frameSig sigs).toNat ++ leBytes 1 s.top.gatherId.toNat ++ leBytes 1 x.cfg.head ++ leBytes 1 i ++ leBytes 1 (b2n c.clampRow.isSome) ++ leBytes 4 0)], ∃ au ∈ [(c.params ++ (c.rows.flatMap fun r => r.coded) ++ seiNal x.cfg.hevc payload)], ∃ n ∈ [(ceilDiv au.length 256 * 256)], s.winOk x.cfg.outWin x.owner = true ∧ s.winSpan x.cfg.outWin x.cfg.outOffset (x.cfg.outBlocks * 256) true = true ∧ c.start + n ≤ x.cfg.outBlocks * 256) ∧
    (∃ s ∈ [(win (W.modSession 15 fun x => { x with st := .coding, owner := 1, sides := [SideRec.reset], cfg := { x.cfg with sideBlocks := 4 } }) : State)], ∃ i ∈ [(15 : Nat)], ∃ sr ∈ [(SideRec.reset : SideRec)], ∃ rest ∈ [([] : List SideRec)], i < s.enc.session.length ∧ (s.session i).sides = sr :: rest ∧ (s.session i).sideWaits sr = false ∧ s.store.mem.wf = true ∧ ∃ x ∈ [(s.session i)], s.winOk x.cfg.auxWin x.owner = true ∧ s.winSpan x.cfg.auxWin x.cfg.sideOffset (x.cfg.sideBlocks * 256) true = true ∧ (x.sideNext + 1) * 512 ≤ x.cfg.sideBlocks * 256) ∧
    (∃ s ∈ [(W.modSession 15 fun x => { x with st := .coding, encoder := 1 } : State)], ∃ e ∈ [(1 : Nat)], e < 2 ∧ e < s.enc.ee.length ∧ s.enc.session.length ≤ 16 ∧ (s.encoder e).isolated = false ∧ (s.island (islEe e)).isolated = false) := by
  iterate 7 refine ⟨by decide +kernel, ?_⟩
  decide +kernel

theorem test_witness_NopSyncAndUndefinedOpcodesEnd :
    (∃ s ∈ [(fol 0 0x0000 [] W : State)], ∃ ring ∈ [(0 : Nat)], ∃ b ∈ [(bg s ring : Begun)], s.hasFolio ring 0x0000 b) ∧
    (∃ s ∈ [(fol 0 0x0001 [] W : State)], ∃ ring ∈ [(0 : Nat)], ∃ b ∈ [(bg s ring : Begun)], ring < 48 ∧ s.hasFolio ring 0x0001 b ∧ s.earlierOpen (s.fctx ring b).colour b.order = false ∧ (∀ r, r < s.host.cmdq.length → r ≠ ring → ∀ c ∈ (s.cmdQ r).begun, c.wait ≠ .sync)) ∧
    (∃ s ∈ [((fol 0 0x0001 [] { W with top := { W.top with ringMap := List.replicate 32 { RingMapEntry.reset with colour := 1, valid := true } } }).modCmdQ 0 (fun q => { q with begun := q.begun.map fun b => { b with order := 1 } }) |>.modCmdQ 31 fun q => { q with begun := some Begun.reset } : State)], ∃ ring ∈ [(0 : Nat)], ∃ r ∈ [(31 : Nat)], ∃ c ∈ [(Begun.reset : Begun)], ∃ b ∈ [(bg s ring : Begun)], s.hasFolio ring 0x0001 b ∧ r ≠ ring ∧ r < 32 ∧ s.ringColour r = (s.fctx ring b).colour ∧ (s.cmdQ r).begun = some c ∧ c.order < b.order ∧ c.wait ≠ .sync) ∧
    (∃ s ∈ [(wt 0 .undefinedOp (fol 0 0x0002 [] W) : State)], ∃ ring ∈ [(0 : Nat)], ∃ b ∈ [(bg s ring : Begun)], (s.cmdQ ring).begun = some b ∧ b.wait = .undefinedOp) := by
  iterate 3 refine ⟨by decide +kernel, ?_⟩
  decide +kernel

theorem test_witness_WindowsMapUnmapAndWipe :
    (∃ s ∈ [(fol 0 0x0010 [(0x10,1,7),(0x14,4,4096)] { W with sec := { W.sec with config := { W.sec.config with quota := List.replicate 64 1 } } } : State)], ∃ ring ∈ [(0 : Nat)], ∃ base ∈ [((s.findRegion 4096).getD 0 : Nat)], ∃ i ∈ [(0 : Nat)], ∃ b ∈ [(bg s ring : Begun)], s.hasFolio ring 0x0010 b ∧ s.memOk = true ∧ ∃ w ∈ [(b.folio.u 0x10 1)], ∃ size ∈ [(b.folio.u 0x14 4)], ∃ colour ∈ [((s.fctx ring b).colour)], w < 8 ∧ w < s.host.win.length ∧ b.folio.u 0x11 3 = 0 ∧ size % 4096 = 0 ∧ 4096 ≤ size ∧ size ≤ 33554432 ∧ (s.window w).mapped = false ∧ (s.window w).unmapping = false ∧ s.used colour + size ≤ s.quota colour ∧ s.findRegion size = some base ∧ s.freeEntry = some i) ∧
    (∃ s ∈ [(win (fol 0 0x0011 [(0x10,1,0)] W) : State)], ∃ ring ∈ [(0 : Nat)], ∃ b ∈ [(bg s ring : Begun)], s.hasFolio ring 0x0011 b ∧ ∃ w ∈ [(b.folio.u 0x10 1)], w < 8 ∧ w < s.host.win.length ∧ (s.window w).mapped = true ∧ (s.window w).unmapping = false ∧ (s.window w).colour.toNat = (s.fctx ring b).colour ∧ s.windowInUse w = false) ∧
    (∃ s ∈ [(wt 0 (.wipe 0) (win (fol 0 0x0011 [(0x10,1,0)] W)) : State)], ∃ ring ∈ [(0 : Nat)], ∃ w ∈ [(0 : Nat)], ∃ b ∈ [(bg s ring : Begun)], (s.cmdQ ring).begun = some b ∧ b.wait = .wipe w ∧ w < s.host.win.length ∧ s.removalOpen (s.window w).base (s.window w).size.toNat = false) := by
  iterate 2 refine ⟨by decide +kernel, ?_⟩
  decide +kernel

theorem test_witness_RingsEnableDisableAndRing :
    (∃ s ∈ [(W.modRing 0 fun r => { r with log2 := 12 } : State)], ∃ k ∈ [(0 : Nat)], s.ringWritable k = true ∧ k < s.host.rings.length ∧ (s.ring k).state = .disabled ∧ log2Ok k (s.ring k).log2.toNat = true ∧ s.ringValid k = true) ∧
    (∃ s ∈ [(W.modRing 0 fun r => { r with log2 := 13 } : State)], ∃ k ∈ [(0 : Nat)], s.ringWritable k = true ∧ k < s.host.rings.length ∧ (s.ring k).state = .disabled ∧ log2Ok k (s.ring k).log2.toNat = false) ∧
    (∃ s ∈ [(W.modRing 31 fun r => { r with log2 := 4 } : State)], ∃ k ∈ [(31 : Nat)], s.ringWritable k = true ∧ k < s.host.rings.length ∧ (s.ring k).state = .disabled ∧ log2Ok k (s.ring k).log2.toNat = true ∧ s.ringValid k = false) ∧
    (∃ s ∈ [(W.modRing 31 fun r => { r with state := .running } : State)], ∃ k ∈ [(31 : Nat)], (s.ring k).state ≠ .disabled) ∧
    (∃ s ∈ [((W.modRing 31 fun r => { r with state := .running, enable := true }).modCmdQ 31 fun q => { q with begun := some Begun.reset } : State)], ∃ k ∈ [(31 : Nat)], s.ringWritable k = true ∧ k < s.host.rings.length ∧ ((s.ring k).state = .running ∨ (s.ring k).state = .halted) ∧ k < 32 ∧ s.inflight k ≠ 0) ∧
    (∃ s ∈ [(W.modRing 31 fun r => { r with state := .running, enable := true } : State)], ∃ k ∈ [(31 : Nat)], s.ringWritable k = true ∧ k < s.host.rings.length ∧ ((s.ring k).state = .running ∨ (s.ring k).state = .halted) ∧ k < 32 ∧ s.inflight k = 0) ∧
    (∃ s ∈ [(W.modRing 127 fun r => { r with state := .halted, enable := true } : State)], ∃ k ∈ [(127 : Nat)], s.ringWritable k = true ∧ k < s.host.rings.length ∧ ((s.ring k).state = .running ∨ (s.ring k).state = .halted) ∧ 32 ≤ k) ∧
    (∃ s ∈ [(W.modRing 31 fun r => { r with state := .running, log2 := 4 } : State)], ∃ k ∈ [(31 : Nat)], s.ringWritable k = true ∧ k < s.host.rings.length ∧ (32 ≤ k → k < 64 → (s.cmdQ (k - 32)).awaitResync = false) ∧ ((s.ring k).state = .running ∨ (s.ring k).state = .draining) ∧ (s.ring k).doorbellOk k (16 : BitVec 32) = true) ∧
    (∃ s ∈ [(W.modRing 31 fun r => { r with state := .running, log2 := 4 } : State)], ∃ k ∈ [(31 : Nat)], s.ringWritable k = true ∧ k < s.host.rings.length ∧ (32 ≤ k → k < 64 → (s.cmdQ (k - 32)).awaitResync = false) ∧ ((s.ring k).state = .running ∨ (s.ring k).state = .draining) ∧ (s.ring k).doorbellOk k (17 : BitVec 32) = false) ∧
    (∃ s ∈ [(W.modRing 31 fun r => { r with state := .halted } : State)], ∃ k ∈ [(31 : Nat)], s.ringWritable k = true ∧ k < s.host.rings.length ∧ (32 ≤ k → k < 64 → (s.cmdQ (k - 32)).awaitResync = false) ∧ ((s.ring k).state = .disabled ∨ (s.ring k).state = .halted)) ∧
    (∃ s ∈ [((W.modRing 63 fun r => { r with state := .running, log2 := 6, deviceIndex := 9 }).modCmdQ 31 (fun q => { q with awaitResync := true }) |>.modEvtQ 31 fun q => { q with mirrorBase := 5 } : State)], ∃ n ∈ [(31 : Nat)], s.ringWritable (32 + n) = true ∧ n < s.host.cmdq.length ∧ n < s.host.evtq.length ∧ 32 + n < s.host.rings.length ∧ (s.cmdQ n).awaitResync = true ∧ (s.ring (32 + n)).state = .running ∧ ((7 : BitVec 32) - (s.evtQ n).mirrorBase).toNat ≤ ((s.ring (32 + n)).deviceIndex - (s.evtQ n).mirrorBase).toNat) := by
  iterate 10 refine ⟨by decide +kernel, ?_⟩
  decide +kernel

theorem test_witness_HostRegisterAccessesAct :
    (∃ s ∈ [(W.modRing 63 fun r => { r with lost := 9 } : State)], ∃ n ∈ [(31 : Nat)], s.hostUp = true ∧ n < 32 ∧ s.ringNet n = false ∧ 32 + n < s.host.rings.length) ∧
    (∃ s ∈ [(W : State)], s.hostUp = true) ∧
    (∃ s ∈ [({ W with top := { W.top with hfaults := 9 } } : State)], s.hostUp = true) ∧
    (∃ s ∈ [(W : State)], ∃ src ∈ [(104 : Nat)], s.hostUp = true ∧ src < s.host.irq.length) ∧
    (∃ s ∈ [(W : State)], ∃ r ∈ [(127 : Nat)], s.ringWritable r = true ∧ r < s.host.rings.length ∧ (s.ring r).state = .disabled ∧ (s.ring r).enable = false) ∧
    (∃ s ∈ [(W : State)], ∃ offset ∈ [(2 : Nat)], ∃ size ∈ [(4 : Nat)], s.hostUp = true ∧ bar0Aligned offset size = false ∧ size ≠ 0 ∧ offset + size ≤ 0x100000) ∧
    (∃ s ∈ [(W : State)], ∃ offset ∈ [(0xFFFFC : Nat)], s.hostUp = true ∧ offset + 4 ≤ 0x100000 ∧ offset % 4 = 0 ∧ bar0Of offset = .reserved) := by
  iterate 6 refine ⟨by decide +kernel, ?_⟩
  decide +kernel

theorem test_witness_Bar2ReadsAndWrites :
    (∃ s ∈ [(win W : State)], ∃ offset ∈ [(0xFFFFC : Nat)], ∃ len ∈ [(4 : Nat)], s.hostUp = true ∧ len ≠ 0 ∧ offset < 8 * winStride ∧ ∃ w ∈ [(offset / winStride)], ∃ off ∈ [(offset % winStride)], s.bar2Kind w off len false = 0 ∧ (∀ x ∈ blocksOf ((s.window w).base + off) len, (s.store.land ((s.window w).base + off) len).damagedAt x = false)) ∧
    (∃ s ∈ [(win W : State)], ∃ offset ∈ [(0xFFFFD : Nat)], ∃ len ∈ [(4 : Nat)], s.hostUp = true ∧ len ≠ 0 ∧ offset < 8 * winStride ∧ ∃ w ∈ [(offset / winStride)], ∃ off ∈ [(offset % winStride)], ((s.window w).mapped = false ∨ (s.window w).size.toNat < off + len)) ∧
    (∃ s ∈ [(win W : State)], ∃ offset ∈ [(0xFFFFD : Nat)], ∃ bytes ∈ [([1,2,3] : List Byte)], s.hostUp = true ∧ bytes ≠ [] ∧ offset < 8 * winStride ∧ s.store.mem.wf = true ∧ ∃ w ∈ [(offset / winStride)], ∃ off ∈ [(offset % winStride)], ∃ a ∈ [((s.window w).base + off)], s.bar2Kind w off bytes.length true = 0 ∧ (∀ x ∈ blocksOf a bytes.length, (s.store.land a bytes.length).damagedAt x = false)) ∧
    (∃ s ∈ [(win W : State)], ∃ offset ∈ [(0x2000000 : Nat)], ∃ bytes ∈ [([1,2,3] : List Byte)], s.hostUp = true ∧ bytes ≠ [] ∧ offset < 8 * winStride ∧ s.store.mem.wf = true ∧ ∃ w ∈ [(offset / winStride)], (s.window w).mapped = false) := by
  iterate 3 refine ⟨by decide +kernel, ?_⟩
  decide +kernel

theorem test_witness_FoliosAreCheckedInOrder :
    (∃ s ∈ [(W.modCmdQ 0 fun q => { q with fetched := [{ Fetched.reset with folio := { raw := raw 0x0000 [] } }] } : State)], ∃ r ∈ [(0 : Nat)], ∃ u ∈ [(false : Bool)], ∃ f ∈ [({ Fetched.reset with folio := { raw := raw 0x0000 [] } } : Fetched)], ∃ rest ∈ [([] : List Fetched)], s.takesFolios = true ∧ s.pick = some (r, u) ∧ r < 32 ∧ r < s.host.rings.length ∧ r < s.host.evtq.length ∧ (s.cmdQ r).fetched = f :: rest ∧ s.twin.st ≠ .electing ∧ s.top.replay = false) :=
  by decide +kernel

theorem test_witness_HostFetchesAndWritesRecords :
    (∃ s ∈ [(W.modRing 0 fun r => { r with state := .running, hostIndex := 1, log2 := 4 } : State)], ∃ ring ∈ [(0 : Nat)], s.fetchable ring = true ∧ (∀ r, r < 32 → (s.mapOf r).urgent = true → s.fetchable r = true → (s.mapOf ring).urgent = true) ∧ s.mirroring = false ∧ ring < s.host.cmdq.length ∧ ring < s.host.rings.length) ∧
    (∃ s ∈ [({ ((live 9 W).modRing 127 fun r => { r with state := .running, hostIndex := 1, log2 := 4 }) with host := { ((live 9 W).modRing 127 fun r => { r with state := .running, hostIndex := 1, log2 := 4 }).host with stmq := W.host.stmq.modify 63 fun q => { q with ctx := some 9, tokens := 100000000000 } } } : State)], ∃ dt ∈ [(5 : Nat)], ∃ k ∈ [(63 : Nat)], ∃ c ∈ [(9 : Nat)], ∃ eb ∈ [([0,0,0,0,0,0,0,0,4,0,0,0,0,0,0,0] : List Byte)], k < 64 ∧ s.hostUp = true ∧ s.top.ready = true ∧ s.role ≠ 2 ∧ s.top.replay = false ∧ (s.ring (64 + k)).state = .running ∧ (s.ring (64 + k)).used ≠ 0 ∧ (s.host.stmq.getD k StmQ.reset).ctx = some c ∧ (s.ctx c).opened = true ∧ (s.host.stmq.getD k StmQ.reset).at_ ≤ s.tb.now ∧ (stmEntryOf eb).good = true ∧ 64 + k < s.host.rings.length ∧ c < s.dec.ctx.length ∧ min (stmEntryOf eb).len (s.ctx c).cfg.burst * tokenUnit ≤ (s.host.stmq.getD k StmQ.reset).credit (s.elapse dt).tb.now (s.ctx c).cfg.maxRate (s.ctx c).cfg.burst ∧ s.bufUsed c + 256 * ceilDiv (stmEntryOf eb).len 256 ≤ (s.ctx c).cfg.buffer * 1024) ∧
    (∃ s ∈ [((W.modRing 63 fun r => { r with state := .running, log2 := 6, base := 0x10000 }).modEvtQ 31 fun q => { q with hold := [{ Held.reset with code := 5 }] } : State)], ∃ n ∈ [(31 : Nat)], ∃ h ∈ [({ Held.reset with code := 5 } : Held)], ∃ rest ∈ [([] : List Held)], n < 32 ∧ s.hostUp = true ∧ s.role ≠ 2 ∧ (s.cmdQ n).awaitResync = false ∧ s.mirroring = false ∧ s.ringNet n = false ∧ (s.evtQ n).acked = [] ∧ (s.evtQ n).hold = h :: rest ∧ (s.ring (32 + n)).state = .running ∧ s.host.bus.hostMem.wf = true ∧ n < s.host.evtq.length ∧ 32 + n < s.host.rings.length ∧ ((s.ring (32 + n)).deviceIndex - (s.ring (32 + n)).hostIndex).toNat < 2 ^ (s.ring (32 + n)).log2.toNat) ∧
    (∃ s ∈ [((W.modRing 63 fun r => { r with modTime := 1 }).modEvtQ 31 fun q => { q with firstAt := some 0, count := 2 } : State)], ∃ dt ∈ [(1000 : Nat)], ∃ n ∈ [(31 : Nat)], ∃ first ∈ [(0 : Nat)], n < s.host.evtq.length ∧ (s.evtQ n).firstAt = some first ∧ (s.ring (32 + n)).modTime ≠ 0 ∧ first + (s.ring (32 + n)).modTime.toNat * 1000 ≤ (s.elapse dt).tb.now) ∧
    (∃ s ∈ [(W.modEvtQ 31 fun q => { q with extend := true } : State)], ∃ n ∈ [(31 : Nat)], n < 32 ∧ n < s.host.evtq.length ∧ (s.evtQ n).extend = true ∧ (s.evtQ n).lastTick = none ∧ s.role ≠ 2 ∧ (((s.evtQ n).hold.filter fun x => !x.comp && !x.lost).length < holdPlaces)) := by
  iterate 4 refine ⟨by decide +kernel, ?_⟩
  decide +kernel

theorem test_witness_HoldingQueueDropsAndCounts :
    (∃ s ∈ [(W : State)], ∃ n ∈ [(31 : Nat)], n < 32 ∧ n < s.host.evtq.length ∧ 32 + n < s.host.rings.length ∧ s.twin.st ≠ .standby ∧ (s.evtQ n).extend = false ∧ (((s.evtQ n).hold.filter fun x => !x.comp && !x.lost).length < 62)) ∧
    (∃ s ∈ [(W.modEvtQ 31 fun q => { q with hold := { Held.reset with comp := true } :: List.replicate 62 { Held.reset with code := 0x8111 } } : State)], ∃ n ∈ [(31 : Nat)], n < 32 ∧ n < s.host.evtq.length ∧ 32 + n < s.host.rings.length ∧ s.twin.st ≠ .standby ∧ (s.evtQ n).extend = false ∧ (62 ≤ ((s.evtQ n).hold.filter fun x => !x.comp && !x.lost).length) ∧ (s.ring (32 + n)).lost ≠ BitVec.allOnes 32 ∧ ∃ x ∈ [({ Held.reset with comp := true })], x ∈ (s.evtQ n).hold ∧ x.comp = true ∧ x.lost = false) := by
  refine ⟨by decide +kernel, ?_⟩
  decide +kernel

theorem test_witness_ChannelsOpenCarryAndClose :
    (∃ s ∈ [({ W with top := { W.top with ringMap := W.top.ringMap.modify 3 fun m => { m with valid := true, network := true, channel := 7, colour := 1 } } }.modChan 7 fun c => { c with ports := 1 } : State)], ∃ dt ∈ [(5 : Nat)], ∃ ch ∈ [(7 : Nat)], ∃ hello ∈ [({ (default : HelloIn) with bytes := [1,7,0,0] ++ List.replicate 225 0, sigOk := true } : HelloIn)], ∃ r ∈ [(3 : Nat)], ch < s.host.chan.length ∧ s.chanRing ch = some r ∧ s.chanUp = true ∧ (s.chan ch).accepts hello.port hello.srcIp = true ∧ hello.bytes.length = 229 ∧ leNat (hello.bytes.take 4) = 1 + 256 * ch ∧ hello.sigOk = true ∧ s.sec.entropyBad = false ∧ (((s.chan ch).helloTimes.filter fun x => decide ((s.elapse dt).tb.now < x + 1000000000)).length < 10) ∧ (s.cmdQ r).awaitResync = false ∧ (s.chan ch).unacked = []) ∧
    (∃ s ∈ [({ W with top := { W.top with ringMap := W.top.ringMap.modify 3 fun m => { m with valid := true, network := true, channel := 7, colour := 1 } } }.modChan 7 fun c => { c with ports := 1, session := some { Session.reset with id := 9 }, unacked := [{ ChanRec.reset with eseq := 5, sentAt := some 3 }] } : State)], ∃ dt ∈ [(5 : Nat)], ∃ ch ∈ [(7 : Nat)], ∃ dgram ∈ [({ (default : DataIn) with session := 9, counter := 4, authOk := true, plain := [5,0,0,0,0,0,0,0] } : DataIn)], ∃ r ∈ [(3 : Nat)], ∃ x ∈ [({ Session.reset with id := 9 } : Session)], ch < s.host.chan.length ∧ s.chanRing ch = some r ∧ (s.chan ch).session = some x ∧ s.chanUp = true ∧ (s.chan ch).accepts dgram.port dgram.srcIp = true ∧ dgram.session = x.id ∧ x.refuses (s.elapse dt).tb.now dgram.counter dgram.authOk = false ∧ dgram.plain.length = 8 ∧ leNat ((dgram.plain.drop 4).take 2) = 0 ∧ (∀ u ∈ (s.chan ch).unacked, u.sentAt ≠ none)) ∧
    (∃ s ∈ [({ W with top := { W.top with ringMap := W.top.ringMap.modify 3 fun m => { m with valid := true, network := true, channel := 7, colour := 1 } } }.modChan 7 fun c => { c with ports := 1, session := some { Session.reset with id := 9 }, unacked := [{ ChanRec.reset with eseq := 5, sentAt := some 3 }] } : State)], ∃ ch ∈ [(7 : Nat)], ∃ dgram ∈ [({ (default : DataIn) with session := 9, counter := 4 } : DataIn)], ∃ r ∈ [(3 : Nat)], ∃ x ∈ [({ Session.reset with id := 9 } : Session)], ch < s.host.chan.length ∧ s.chanRing ch = some r ∧ (s.chan ch).session = some x ∧ s.chanUp = true ∧ (s.chan ch).accepts dgram.port dgram.srcIp = true ∧ dgram.authOk = false) ∧
    (∃ s ∈ [(W.modChan 7 fun c => { c with ports := 1, session := some { Session.reset with id := 9 } } : State)], ∃ dt ∈ [(5 : Nat)], ∃ ch ∈ [(7 : Nat)], ∃ counter ∈ [(5 : Nat)], ∃ authOk ∈ [(true : Bool)], ∃ x ∈ [({ Session.reset with id := 9 } : Session)], ch < s.host.chan.length ∧ (s.chan ch).session = some x ∧ x.refuses (s.elapse dt).tb.now counter authOk = false) ∧
    (∃ s ∈ [({ W with top := { W.top with ringMap := W.top.ringMap.modify 3 fun m => { m with valid := true, network := true, channel := 7, colour := 1 } } }.modChan 7 fun c => { c with ports := 1, session := some { Session.reset with id := 9 } } : State)], ∃ dt ∈ [(1000000000 : Nat)], ∃ ch ∈ [(7 : Nat)], ∃ r ∈ [(3 : Nat)], ∃ x ∈ [({ Session.reset with id := 9 } : Session)], ch < s.host.chan.length ∧ s.chanRing ch = some r ∧ (s.chan ch).session = some x ∧ x.txCtr < 2 ^ 32 ∧ (s.chan ch).unacked = [] ∧ x.lastTx + 1000000000 ≤ (s.elapse dt).tb.now) ∧
    (∃ s ∈ [(W.modChan 7 fun c => { c with ports := 1, session := some { Session.reset with id := 9 } } : State)], ∃ dt ∈ [(10000000000 : Nat)], ∃ ch ∈ [(7 : Nat)], ∃ x ∈ [({ Session.reset with id := 9 } : Session)], ch < s.host.chan.length ∧ (s.chan ch).session = some x ∧ x.lastRx + 10000000000 ≤ (s.elapse dt).tb.now) ∧
    (∃ s ∈ [({ W with top := { W.top with ringMap := W.top.ringMap.modify 3 fun m => { m with valid := true, network := true, channel := 7, colour := 1 } } }.modChan 7 fun c => { c with ports := 1, session := some { Session.reset with id := 9 } } : State)], ∃ dt ∈ [(82800000000000 : Nat)], ∃ ch ∈ [(7 : Nat)], ∃ r ∈ [(3 : Nat)], ∃ x ∈ [({ Session.reset with id := 9 } : Session)], ch < s.host.chan.length ∧ s.chanRing ch = some r ∧ (s.chan ch).session = some x ∧ x.txCtr < 2 ^ 32 ∧ (x.opened + 82800000000000 ≤ (s.elapse dt).tb.now ∨ chanCtrEnd ≤ x.txCtr)) := by
  iterate 6 refine ⟨by decide +kernel, ?_⟩
  decide +kernel

theorem test_witness_UnnamedParameterBytesEndWithParam :
    (∃ s ∈ [(fol 0 0x0703 [(0x11,1,1)] W : State)], ∃ dt ∈ [(5 : Nat)], ∃ ring ∈ [(0 : Nat)], ∃ b ∈ [(bg s ring : Begun)], (s.cmdQ ring).begun = some b ∧ b.wait = .run ∧ b.folio.reservedOk = false ∧ ∃ x ∈ [((0x0703, Instr.headState 5 0))], x ∈ [(0x0000, Instr.nop dt ring), (0x0011, Instr.windowUnmap dt ring), (0x0104, Instr.streamState dt ring), (0x0112, Instr.timeState dt ring), (0x0113, Instr.timeWrap dt ring), (0x0213, Instr.freshState dt ring), (0x0302, Instr.decState dt ring), (0x0404, Instr.headBlend dt ring), (0x0600, Instr.flipBegin dt ring), (0x0701, Instr.headStop dt ring), (0x0703, Instr.headState dt ring), (0x0805, Instr.encState dt ring), (0x0A02, Instr.storeWatch dt ring), (0x0B02, Instr.ownerSet dt ring), (0x0C01, Instr.mailTake dt ring), (0x0C22, Instr.twinState dt ring), (0x0D02, Instr.touchState dt ring), (0x0E03, Instr.marginState dt ring), (0x0F02, Instr.laneWatch dt ring), (0x1036, Instr.journalState dt ring)] ∧ b.folio.opcode = x.1) ∧
    (∃ f ∈ [(Begun.reset.folio : Folio)], (f.len = 0 ∨ f.opcode ∉ definedOps)) := by
  refine ⟨by decide +kernel, ?_⟩
  decide +kernel

theorem test_witness_HandoverAndRestartEnd :
    (∃ s ∈ [(wt 0 .activate (fol 0 0x0B05 [] { W with top := { W.top with handover := true }, sec := { W.sec with slotA := some Image.reset, slotB := some Image.reset } }) : State)], ∃ r ∈ [(0 : Nat)], ∃ b ∈ [(bg s 0 : Begun)], s.top.handover = true ∧ s.flt.delayed = [] ∧ s.activating = some r ∧ (s.cmdQ r).begun = some b) ∧
    (∃ s ∈ [(W : State)], s.top.handover = false) ∧
    (∃ s ∈ [({ W with twin := { W.twin with resyncCause1 := true } } : State)], s.twin.resyncCause1 = true ∧ s.flt.delayed = []) ∧
    (∃ s ∈ [(W : State)], s.twin.resyncCause1 = false) := by
  iterate 3 refine ⟨by decide +kernel, ?_⟩
  decide +kernel

theorem test_witness_StoreServesRequests :
    (∃ s ∈ [(W : State)], ∃ r ∈ [({ (default : ReqIn) with colour := 1, addr := 0x50000F00, island := 0, cls := 3, len := 256, data := [7], crc := crc32c (padTo 256 [7]), wr := true } : ReqIn)], requestOk r = true ∧ (placeOf r.addr = .undecoded ∨ (placeOf r.addr = .store ∧ (s.store.ready = false ∨ (s.askedOf r = none ∧ s.permitsPage r.colour (r.addr / 4096) r.wr = false))))) ∧
    (∃ s ∈ [({ win W with store := { W.store with ready := true } } : State)], ∃ r ∈ [({ (default : ReqIn) with colour := 1, addr := 0x50000F00, island := 0, cls := 3, len := 256, data := [7], crc := crc32c (padTo 256 [7]), wr := true, poisoned := true } : ReqIn)], requestOk r = true ∧ ∃ ch ∈ [(s.channelAt r.addr)], s.store.ready = true ∧ placeOf r.addr = .store ∧ s.permitsPage r.colour (r.addr / 4096) r.wr = true ∧ ch < s.store.ch.length ∧ r.len = 256 ∧ r.wr = true ∧ r.poisoned = true) ∧
    (∃ s ∈ [({ win W with store := { W.store with ready := true } } : State)], ∃ r ∈ [({ (default : ReqIn) with colour := 1, addr := 0x50000F00, island := 0, cls := 3, len := 256, data := [7], crc := crc32c (padTo 256 [7]) ^^^ 1, wr := true } : ReqIn)], requestOk r = true ∧ ∃ ch ∈ [(s.channelAt r.addr)], s.store.ready = true ∧ placeOf r.addr = .store ∧ s.permitsPage r.colour (r.addr / 4096) r.wr = true ∧ ch < s.store.ch.length ∧ r.len = 256 ∧ r.wr = true ∧ r.poisoned = false ∧ crc32c (padTo 256 r.data) ≠ r.crc ∧ s.askedFor r < 3) ∧
    (∃ s ∈ [({ win W with store := { W.store with ready := true } } : State)], ∃ r ∈ [({ (default : ReqIn) with colour := 1, addr := 0x50000F00, island := 0, cls := 3, len := 256, data := [7], crc := crc32c (padTo 256 [7]), wr := true } : ReqIn)], requestOk r = true ∧ ∃ ch ∈ [(s.channelAt r.addr)], s.store.ready = true ∧ placeOf r.addr = .store ∧ s.permitsPage r.colour (r.addr / 4096) r.wr = true ∧ ch < s.store.ch.length ∧ r.len = 256 ∧ (r.wr = false ∨ (r.poisoned = false ∧ crc32c (padTo 256 r.data) = r.crc))) ∧
    (∃ s ∈ [({ win W with store := { W.store with ready := true } } : State)], ∃ r ∈ [({ (default : ReqIn) with colour := 1, addr := 0x50000FFC, island := 0, cls := 1, len := 4, data := [7], wr := true } : ReqIn)], requestOk r = true ∧ ∃ ch ∈ [(s.channelAt r.addr)], s.store.ready = true ∧ placeOf r.addr = .store ∧ s.permitsPage r.colour (r.addr / 4096) r.wr = true ∧ ch < s.store.ch.length ∧ r.len < 256 ∧ s.store.mem.wf = true ∧ (s.store.land r.addr r.len).damagedAt (r.addr / 256 * 256) = false ∧ r.wr = true) ∧
    (∃ s ∈ [({ win W with store := { W.store with ready := true } } : State)], ∃ r ∈ [({ (default : ReqIn) with colour := 1, addr := 0x50000FFC, island := 0, cls := 1, len := 4 } : ReqIn)], requestOk r = true ∧ ∃ ch ∈ [(s.channelAt r.addr)], s.store.ready = true ∧ placeOf r.addr = .store ∧ s.permitsPage r.colour (r.addr / 4096) r.wr = true ∧ ch < s.store.ch.length ∧ r.len < 256 ∧ s.store.mem.wf = true ∧ (s.store.land r.addr r.len).damagedAt (r.addr / 256 * 256) = false ∧ r.wr = false) ∧
    (∃ s ∈ [(W.modDram 7 fun x => { x with queue := [{ StoreReq.reset with addr := 0x700, cls := 2 }, { StoreReq.reset with addr := 0x800, cls := 0 }] } : State)], ∃ c ∈ [(7 : Nat)], ∃ i ∈ [(1 : Nat)], ∃ q ∈ [({ StoreReq.reset with addr := 0x800, cls := 0 } : StoreReq)], s.nextRequest c = some (i, q) ∧ ∃ j ∈ [(0 : Nat)], ∃ p ∈ [({ StoreReq.reset with addr := 0x700, cls := 2 } : StoreReq)], j < i ∧ (s.dram c).queue[j]? = some p) ∧
    (∃ s ∈ [(W.modDram 7 fun x => { x with queue := [{ StoreReq.reset with addr := 0x700 }] } : State)], ∃ c ∈ [(7 : Nat)], ∃ i ∈ [(0 : Nat)], ∃ q ∈ [({ StoreReq.reset with addr := 0x700 } : StoreReq)], s.nextRequest c = some (i, q) ∧ ∃ x ∈ [((0, { StoreReq.reset with addr := 0x700 }))], x ∈ s.servables c [] (s.dram c).queue) ∧
    (∃ s ∈ [({ W with store := { W.store with ready := true } }.modDram 7 fun x => { x with queue := [{ StoreReq.reset with addr := 0x700 }] } : State)], ∃ dt ∈ [(5 : Nat)], ∃ c ∈ [(7 : Nat)], ∃ i ∈ [(0 : Nat)], ∃ q ∈ [({ StoreReq.reset with addr := 0x700 } : StoreReq)], c < 8 ∧ c < s.store.ch.length ∧ s.store.ready = true ∧ ((s.elapse dt).promote.forcedRfm c).nextRequest c = some (i, q) ∧ q.wr = false) ∧
    (∃ s ∈ [({ W with store := { W.store with ready := true } }.modDram 7 fun x => { x with queue := [{ StoreReq.reset with addr := 0x700, wr := true, landed := true, data := [5] }] } : State)], ∃ dt ∈ [(5 : Nat)], ∃ c ∈ [(7 : Nat)], ∃ i ∈ [(0 : Nat)], ∃ q ∈ [({ StoreReq.reset with addr := 0x700, wr := true, landed := true, data := [5] } : StoreReq)], c < 8 ∧ c < s.store.ch.length ∧ s.store.ready = true ∧ ((s.elapse dt).promote.forcedRfm c).nextRequest c = some (i, q) ∧ q.wr = true ∧ q.landed = true) ∧
    (∃ s ∈ [({ W with store := { W.store with ready := true } }.modDram 7 fun x => { x with queue := [{ StoreReq.reset with addr := 0x700, wr := true, data := [5] }] } : State)], ∃ dt ∈ [(5 : Nat)], ∃ c ∈ [(7 : Nat)], ∃ i ∈ [(0 : Nat)], ∃ q ∈ [({ StoreReq.reset with addr := 0x700, wr := true, data := [5] } : StoreReq)], c < 8 ∧ c < s.store.ch.length ∧ s.store.ready = true ∧ ((s.elapse dt).promote.forcedRfm c).nextRequest c = some (i, q) ∧ q.wr = true ∧ q.landed = false ∧ s.store.mem.wf = true) ∧
    (∃ s ∈ [(W.modDram 7 fun x => { x with writeQ := List.range 40 } : State)], ∃ c ∈ [(7 : Nat)], c < 8 ∧ c < s.store.ch.length ∧ s.store.switching = none ∧ ∃ x ∈ [(s.dram c)], (x.draining = true ∨ x.readWaits = false)) ∧
    (∃ s ∈ [(W.modDram 7 fun x => { x with writeQ := List.range 40, queue := [StoreReq.reset] } : State)], ∃ c ∈ [(7 : Nat)], c < 8 ∧ c < s.store.ch.length ∧ s.store.switching = none ∧ ∃ x ∈ [(s.dram c)], x.draining = false ∧ x.readWaits = true) := by
  iterate 2 refine ⟨by decide +kernel, ?_⟩
  refine ⟨one (one ⟨by decide +kernel, one ⟨by decide +kernel, by decide +kernel, by decide +kernel, by decide +kernel, by decide +kernel, by decide +kernel, by decide +kernel, ne_flip _, by decide +kernel⟩⟩), ?_⟩
  refine ⟨one (one ⟨by decide +kernel, one ⟨by decide +kernel, by decide +kernel, by decide +kernel, by decide +kernel, by decide +kernel, .inr ⟨by decide +kernel, congrArg _ rfl⟩⟩⟩), ?_⟩
  iterate 8 refine ⟨by decide +kernel, ?_⟩
  decide +kernel

theorem test_witness_StoreRefreshesSwitchesAndRetires :
    (∃ s ∈ [(({ W with store := { W.store with ready := true } }).modDram 7 fun x => { x with queue := [StoreReq.reset], debt := 6 } : State)], ∃ dt ∈ [(5 : Nat)], ∃ c ∈ [(7 : Nat)], c < 8 ∧ c < s.store.ch.length ∧ s.store.ready = true ∧ s.store.switching = none ∧ ∃ x ∈ [((s.elapse dt).promote.dram c)], (s.dram c).debt < 7 ∧ x.busy = true) ∧
    (∃ s ∈ [(({ W with store := { W.store with ready := true } }).modDram 7 fun x => { x with debt := 7 } : State)], ∃ c ∈ [(7 : Nat)], c < 8 ∧ c < s.store.ch.length ∧ s.store.ready = true ∧ s.store.switching = none ∧ (s.dram c).debt = 7) ∧
    (∃ s ∈ [(({ W with store := { W.store with ready := true } }).modDram 7 fun x => { x with debt := -7 } : State)], ∃ dt ∈ [(5 : Nat)], ∃ c ∈ [(7 : Nat)], c < 8 ∧ c < s.store.ch.length ∧ s.store.ready = true ∧ s.store.switching = none ∧ ∃ x ∈ [((s.elapse dt).promote.dram c)], x.queue = [] ∧ -8 < (s.dram c).debt ∧ (s.dram c).debt < 7) ∧
    (∃ s ∈ [({ W with store := { W.store with ready := true, watch := [(0, 0xFF)] } } : State)], ∃ c ∈ [(7 : Nat)], ∃ factor ∈ [(4 : Nat)], c < 8 ∧ c < s.store.ch.length ∧ (factor = 1 ∨ factor = 2 ∨ factor = 4)) ∧
    (∃ s ∈ [({ W with store := { W.store with ready := true, switching := some 2 } } : State)], ∃ dt ∈ [(5 : Nat)], ∃ target ∈ [(2 : Nat)], target < 3 ∧ 0 < s.store.ch.length ∧ (s.store.switching = some target ∨ (s.store.switching = none ∧ s.pointAsked = some target ∧ (s.elapse dt).maySwitch = true))) ∧
    (∃ s ∈ [(W.modDram 7 fun x => { x with due := [4096] } : State)], ∃ c ∈ [(7 : Nat)], ∃ ca ∈ [(4097 : Nat)], c < 8 ∧ c < s.store.ch.length ∧ (s.dram c).due.contains (bankRow ca) = true ∧ (s.dram c).retired.length < 256) ∧
    (∃ s ∈ [((W.modDram 7 fun x => { x with due := [4096] }).modDram 7 fun x => { x with retired := List.replicate 256 8192 } : State)], ∃ c ∈ [(7 : Nat)], ∃ ca ∈ [(4097 : Nat)], c < 8 ∧ c < s.store.ch.length ∧ (s.dram c).due.contains (bankRow ca) = true ∧ 256 ≤ (s.dram c).retired.length) ∧
    (∃ s ∈ [({ W with store := { W.store with ready := true } } : State)], ∃ rcv ∈ [(34 : Nat)], ∃ addr ∈ [(0x700 : Nat)], ∃ attempt ∈ [(1 : Nat)], placeOf addr = .store ∧ addr % 256 = 0 ∧ 1 ≤ attempt ∧ attempt ≤ 3 ∧ s.store.ready = true ∧ rcv < 35 ∧ ∃ c ∈ [(s.channelAt addr)], c < s.store.ch.length ∧ (s.store.land addr 256).damagedAt addr = false ∧ attempt < 3 ∧ s.fab.isl.length = 43 ∧ (s.island islStore).isolated = false ∧ 1 < s.flt.src.length) ∧
    (∃ s ∈ [({ W with store := { W.store with ready := true } } : State)], ∃ rcv ∈ [(34 : Nat)], ∃ addr ∈ [(0x700 : Nat)], ∃ attempt ∈ [(3 : Nat)], placeOf addr = .store ∧ addr % 256 = 0 ∧ 1 ≤ attempt ∧ attempt ≤ 3 ∧ s.store.ready = true ∧ rcv < 35 ∧ ∃ c ∈ [(s.channelAt addr)], c < s.store.ch.length ∧ (s.store.land addr 256).damagedAt addr = false ∧ attempt = 3 ∧ c < 8 ∧ (∀ f ∈ s.flt.inst, f.is 0 islStore rcv 0 = false) ∧ (s.flt.src.getD 0 FltSource.reset).fixed = false ∧ 2 ≤ (s.flt.src.getD 0 FltSource.reset).n) ∧
    (∃ s ∈ [({ W with store := { W.store with ready := true, point := 2, lowSince := [none, some 0, none] } } : State)], ∃ dt ∈ [(11000000000 : Nat)], ∃ p ∈ [(1 : Nat)], (s.elapse dt).noteDemand.pointDown = some p ∧ s.store.pinned = none ∧ s.store.switching = none ∧ (s.elapse dt).maySwitch = true) ∧
    (∃ s ∈ [({ (fol 0 0x0A00 [(0x10,1,0),(0x14,2,1),(0x16,2,10000),(0x18,4,100000)] { W with sec := { W.sec with fuses := { W.sec.fuses with lcDevelop := 1 } } }) with sec := { W.sec with fuses := { W.sec.fuses with lcField := 1 } } } : State)], ∃ ring ∈ [(0 : Nat)], ∃ b ∈ [(bg s ring : Begun)], s.hasFolio ring 0x0A00 b ∧ ∃ c ∈ [(s.fctx ring b)], ∃ u ∈ [(c.u)], ∃ pin ∈ [(u 0x10 1)], pin < 4 ∧ u 0x11 3 = 0 ∧ 1 ≤ u 0x14 2 ∧ u 0x14 2 ≤ 1000 ∧ 1 ≤ u 0x16 2 ∧ u 0x16 2 ≤ 10000 ∧ 1 ≤ u 0x18 4 ∧ u 0x18 4 ≤ 100000 ∧ s.lifecycle ≠ .develop) ∧
    (∃ s ∈ [(fol 0 0x0A00 [(0x10,1,0),(0x14,2,1),(0x16,2,10000),(0x18,4,100000)] { W with sec := { W.sec with fuses := { W.sec.fuses with lcDevelop := 1 } } } : State)], ∃ ring ∈ [(0 : Nat)], ∃ b ∈ [(bg s ring : Begun)], s.hasFolio ring 0x0A00 b ∧ ∃ c ∈ [(s.fctx ring b)], ∃ u ∈ [(c.u)], ∃ pin ∈ [(u 0x10 1)], pin < 4 ∧ u 0x11 3 = 0 ∧ 1 ≤ u 0x14 2 ∧ u 0x14 2 ≤ 1000 ∧ 1 ≤ u 0x16 2 ∧ u 0x16 2 ≤ 10000 ∧ 1 ≤ u 0x18 4 ∧ u 0x18 4 ≤ 100000 ∧ s.lifecycle = .develop ∧ pin = 0) ∧
    (∃ s ∈ [(((fol 0 0x0A00 [(0x10,1,3),(0x14,2,1),(0x16,2,10000),(0x18,4,100000)] { W with sec := { W.sec with fuses := { W.sec.fuses with lcDevelop := 1 } } })).modDec fun x => { x with ctx := x.ctx.map fun y => { y with opened := true, st := .decoding, decl := { y.decl with maxW := 4096, maxH := 2176, rateNum := 60, rateDen := 1 } } } : State)], ∃ ring ∈ [(0 : Nat)], ∃ b ∈ [(bg s ring : Begun)], s.hasFolio ring 0x0A00 b ∧ ∃ c ∈ [(s.fctx ring b)], ∃ u ∈ [(c.u)], ∃ pin ∈ [(u 0x10 1)], pin < 4 ∧ u 0x11 3 = 0 ∧ 1 ≤ u 0x14 2 ∧ u 0x14 2 ≤ 1000 ∧ 1 ≤ u 0x16 2 ∧ u 0x16 2 ≤ 10000 ∧ 1 ≤ u 0x18 4 ∧ u 0x18 4 ≤ 100000 ∧ s.lifecycle = .develop ∧ pin ≠ 0 ∧ fracLe s.demand (pointBudget (pin - 1)) = false) ∧
    (∃ s ∈ [({ (fol 0 0x0A00 [(0x10,1,3),(0x14,2,1),(0x16,2,10000),(0x18,4,100000)] { W with sec := { W.sec with fuses := { W.sec.fuses with lcDevelop := 1 } } }) with store := { W.store with point := 2 } } : State)], ∃ ring ∈ [(0 : Nat)], ∃ b ∈ [(bg s ring : Begun)], s.hasFolio ring 0x0A00 b ∧ ∃ c ∈ [(s.fctx ring b)], ∃ u ∈ [(c.u)], ∃ pin ∈ [(u 0x10 1)], pin < 4 ∧ u 0x11 3 = 0 ∧ 1 ≤ u 0x14 2 ∧ u 0x14 2 ≤ 1000 ∧ 1 ≤ u 0x16 2 ∧ u 0x16 2 ≤ 10000 ∧ 1 ≤ u 0x18 4 ∧ u 0x18 4 ≤ 100000 ∧ s.lifecycle = .develop ∧ pin ≠ 0 ∧ fracLe s.demand (pointBudget (pin - 1)) = true ∧ s.store.point = pin - 1) ∧
    (∃ s ∈ [({ (fol 0 0x0A00 [(0x10,1,3),(0x14,2,1),(0x16,2,10000),(0x18,4,100000)] { W with sec := { W.sec with fuses := { W.sec.fuses with lcDevelop := 1 } } }) with store := { W.store with point := 0 } } : State)], ∃ ring ∈ [(0 : Nat)], ∃ b ∈ [(bg s ring : Begun)], s.hasFolio ring 0x0A00 b ∧ ∃ c ∈ [(s.fctx ring b)], ∃ u ∈ [(c.u)], ∃ pin ∈ [(u 0x10 1)], pin < 4 ∧ u 0x11 3 = 0 ∧ 1 ≤ u 0x14 2 ∧ u 0x14 2 ≤ 1000 ∧ 1 ≤ u 0x16 2 ∧ u 0x16 2 ≤ 10000 ∧ 1 ≤ u 0x18 4 ∧ u 0x18 4 ≤ 100000 ∧ s.lifecycle = .develop ∧ pin ≠ 0 ∧ fracLe s.demand (pointBudget (pin - 1)) = true ∧ s.store.point ≠ pin - 1) := by
  iterate 14 refine ⟨by decide +kernel, ?_⟩
  decide +kernel

theorem test_witness_ImagesLifeCycleAndProvisioning :
    (∃ s ∈ [({ (win (fol 0 0x0B04 [] W)) with sec := { ((win (fol 0 0x0B04 [] W))).sec with config := { W.sec.config with admin := 2 } } } : State)], ∃ ring ∈ [(0 : Nat)], ∃ b ∈ [(bg s ring : Begun)], s.hasFolio ring 0x0B04 b ∧ ∃ c ∈ [(s.fctx ring b)], ∃ w ∈ [(c.u 0x10 1)], w < 8 ∧ c.colour ≠ s.admin) ∧
    (∃ s ∈ [({ (win (fol 0 0x0B04 [] W)) with sec := { ((win (fol 0 0x0B04 [] W))).sec with staging := true } } : State)], ∃ ring ∈ [(0 : Nat)], ∃ b ∈ [(bg s ring : Begun)], s.hasFolio ring 0x0B04 b ∧ ∃ c ∈ [(s.fctx ring b)], ∃ w ∈ [(c.u 0x10 1)], ∃ off ∈ [(c.u 0x14 4)], w < 8 ∧ c.colour = s.admin ∧ s.winOk w c.colour = true ∧ s.winSpan w off 0x1400 false = true ∧ s.sec.staging = true) ∧
    (∃ s ∈ [(win (fol 0 0x0B04 [] W) : State)], ∃ ring ∈ [(0 : Nat)], ∃ b ∈ [(bg s ring : Begun)], s.hasFolio ring 0x0B04 b ∧ ∃ c ∈ [(s.fctx ring b)], ∃ w ∈ [(c.u 0x10 1)], ∃ off ∈ [(c.u 0x14 4)], ∃ h ∈ [(s.winRead w off 256)], ∃ n ∈ [(0x1400 + leNat ((h.drop 0x10).take 4))], w < 8 ∧ c.colour = s.admin ∧ s.winOk w c.colour = true ∧ s.winSpan w off 0x1400 false = true ∧ s.sec.staging = false ∧ s.winDamaged w off 0x1400 = false ∧ s.winSpan w off n false = true ∧ s.winDamaged w off n = false) ∧
    (∃ s ∈ [(wt 0 (.image ([0x53,0x4B,0x46,0x57,1,0] ++ List.replicate 18 0 ++ [1] ++ List.replicate 231 0)) (fol 0 0x0B04 [] { W with sec := { W.sec with staging := true, fuses := { W.sec.fuses with imageKeyOk := true } } }) : State)], ∃ ring ∈ [(0 : Nat)], ∃ h ∈ [([0x53,0x4B,0x46,0x57,1,0] ++ List.replicate 18 0 ++ [1] ++ List.replicate 231 0 : List Byte)], ∃ x ∈ [({ (default : ImageIn) with zerosOk := true, sigsOk := true, digestOk := true, gcmOk := true } : ImageIn)], ∃ b ∈ [(bg s ring : Begun)], s.waitsFor ring b (.image h) ∧ (s.island islSec).isolated = false ∧ ∃ i ∈ [(imageOf h x.zerosOk x.sigsOk x.digestOk x.gcmOk)], s.imageOk i = true) ∧
    (∃ s ∈ [(wt 0 (.image ([0x53,0x4B,0x46,0x57,1,0] ++ List.replicate 250 0)) (fol 0 0x0B04 [] { W with sec := { W.sec with staging := true, fuses := { W.sec.fuses with imageKeyOk := true } } }) : State)], ∃ ring ∈ [(0 : Nat)], ∃ h ∈ [([0x53,0x4B,0x46,0x57,1,0] ++ List.replicate 250 0 : List Byte)], ∃ x ∈ [({ (default : ImageIn) with zerosOk := true, sigsOk := true, digestOk := true, gcmOk := true } : ImageIn)], ∃ b ∈ [(bg s ring : Begun)], s.waitsFor ring b (.image h) ∧ (s.island islSec).isolated = false ∧ ∃ i ∈ [(imageOf h x.zerosOk x.sigsOk x.digestOk x.gcmOk)], ∃ k ∈ [(4)], i.failing s.sec.fuses s.lifecycle = some k) ∧
    (∃ s ∈ [({ (fol 0 0x0B05 [] W) with sec := { W.sec with staging := true } } : State)], ∃ ring ∈ [(0 : Nat)], ∃ b ∈ [(bg s ring : Begun)], s.hasFolio ring 0x0B05 b ∧ (s.fctx ring b).colour = s.admin ∧ s.sec.staging = true) ∧
    (∃ s ∈ [(fol 0 0x0B05 [] W : State)], ∃ ring ∈ [(0 : Nat)], ∃ b ∈ [(bg s ring : Begun)], s.hasFolio ring 0x0B05 b ∧ (s.fctx ring b).colour = s.admin ∧ s.sec.staging = false) ∧
    (∃ s ∈ [({ (wt 0 .activate (fol 0 0x0B05 [] { W with sec := { W.sec with staging := true, slotA := some { Image.reset with formOk := true, lifecycles := 1, sigsOk := true, digestOk := true, gcmOk := true }, slotB := some { Image.reset with formOk := true, lifecycles := 1, sigsOk := true, digestOk := true, gcmOk := true }, fuses := { W.sec.fuses with imageKeyOk := true } } })) with sec := { ((wt 0 .activate (fol 0 0x0B05 [] { W with sec := { W.sec with staging := true, slotA := some { Image.reset with formOk := true, lifecycles := 1, sigsOk := true, digestOk := true, gcmOk := true }, slotB := some { Image.reset with formOk := true, lifecycles := 1, sigsOk := true, digestOk := true, gcmOk := true }, fuses := { W.sec.fuses with imageKeyOk := true } } }))).sec with fuses := { W.sec.fuses with imageCounter := 1 } } } : State)], ∃ ring ∈ [(0 : Nat)], ∃ i ∈ [({ Image.reset with formOk := true, lifecycles := 1, sigsOk := true, digestOk := true, gcmOk := true } : Image)], ∃ b ∈ [(bg s ring : Begun)], s.waitsFor ring b .activate ∧ (s.island islSec).isolated = false ∧ s.sec.slot s.sec.staged = some i ∧ s.imageOk i = false) ∧
    (∃ s ∈ [(wt 0 .activate (fol 0 0x0B05 [] { W with sec := { W.sec with staging := true, slotA := some { Image.reset with formOk := true, lifecycles := 1, sigsOk := true, digestOk := true, gcmOk := true }, slotB := some { Image.reset with formOk := true, lifecycles := 1, sigsOk := true, digestOk := true, gcmOk := true }, fuses := { W.sec.fuses with imageKeyOk := true } } }) : State)], ∃ ring ∈ [(0 : Nat)], ∃ i ∈ [({ Image.reset with formOk := true, lifecycles := 1, sigsOk := true, digestOk := true, gcmOk := true } : Image)], ∃ b ∈ [(bg s ring : Begun)], s.waitsFor ring b .activate ∧ (s.island islSec).isolated = false ∧ s.sec.slot s.sec.staged = some i ∧ s.imageOk i = true ∧ s.urgentOpen = false) ∧
    (∃ s ∈ [(fol 0 0x0B06 [] W : State)], ∃ ring ∈ [(0 : Nat)], ∃ b ∈ [(bg s ring : Begun)], s.hasFolio ring 0x0B06 b ∧ (s.fctx ring b).colour = s.admin ∧ s.sec.running.secVersion ≤ 128) ∧
    (∃ s ∈ [(tokenAt W.deviceId (Config.ecdhPub [5]) : State)], ∃ ring ∈ [(0 : Nat)], ∃ b ∈ [(bg s ring : Begun)], s.hasFolio ring 0x0B03 b ∧ ∃ c ∈ [(s.fctx ring b)], ∃ w ∈ [(c.u 0x10 1)], ∃ off ∈ [(c.u 0x14 4)], ∃ t₀ ∈ [(s.winRead w off 0x100)], ∃ u ∈ [(fun (o n : Nat) => leNat ((t₀.drop o).take n))], w < 8 ∧ c.colour = s.admin ∧ s.winOk w c.colour = true ∧ s.winSpan w off 0x1373 false = true ∧ s.winDamaged w off 0x1373 = false ∧ u 0 2 = 1 ∧ u 2 1 = 2 ∧ u 3 1 = 0 ∧ u 4 12 = 0 ∧ u 0x81 127 = 0 ∧ s.lifecycle = .develop ∧ s.owner.isSome = true ∧ (t₀.drop 0x10).take 16 = padTo 16 s.deviceId ∧ s.ephOf s.admin = some ((t₀.drop 0x20).take 97)) ∧
    (∃ s ∈ [(tokenAt [(padTo 16 W.deviceId).headD 0 ^^^ 1] [] : State)], ∃ ring ∈ [(0 : Nat)], ∃ b ∈ [(bg s ring : Begun)], s.hasFolio ring 0x0B03 b ∧ ∃ c ∈ [(s.fctx ring b)], ∃ w ∈ [(c.u 0x10 1)], ∃ off ∈ [(c.u 0x14 4)], ∃ t₀ ∈ [(s.winRead w off 0x100)], ∃ u ∈ [(fun (o n : Nat) => leNat ((t₀.drop o).take n))], w < 8 ∧ c.colour = s.admin ∧ s.winOk w c.colour = true ∧ s.winSpan w off 0x1373 false = true ∧ s.winDamaged w off 0x1373 = false ∧ u 0 2 = 1 ∧ u 2 1 = 2 ∧ u 3 1 = 0 ∧ u 4 12 = 0 ∧ u 0x81 127 = 0 ∧ s.lifecycle = .develop ∧ s.owner.isSome = true ∧ (t₀.drop 0x10).take 16 ≠ padTo 16 s.deviceId) ∧
    (∃ s ∈ [({ (win (fol 0 0x0B00 [] W)) with sec := { ((win (fol 0 0x0B00 [] W))).sec with entropyBad := true } } : State)], ∃ ring ∈ [(0 : Nat)], ∃ b ∈ [(bg s ring : Begun)], s.hasFolio ring 0x0B00 b ∧ s.store.mem.wf = true ∧ ∃ c ∈ [(s.fctx ring b)], ∃ w ∈ [(c.u 0x10 1)], ∃ off ∈ [(c.u 0x14 4)], w < 8 ∧ c.u 0x11 1 = 0 ∧ c.u 0x12 2 = 0 ∧ off % 256 = 0 ∧ off + 0x1E93 ≤ (s.window w).size.toNat ∧ s.lifecycle ≠ .void ∧ s.winOk w c.colour = true ∧ s.winSpan w off 0x1E93 true = true ∧ s.sec.entropyBad = true) ∧
    (∃ s ∈ [(win (fol 0 0x0B00 [] W) : State)], ∃ ring ∈ [(0 : Nat)], ∃ b ∈ [(bg s ring : Begun)], s.hasFolio ring 0x0B00 b ∧ s.store.mem.wf = true ∧ ∃ c ∈ [(s.fctx ring b)], ∃ w ∈ [(c.u 0x10 1)], ∃ off ∈ [(c.u 0x14 4)], w < 8 ∧ c.u 0x11 1 = 0 ∧ c.u 0x12 2 = 0 ∧ off % 256 = 0 ∧ off + 0x1E93 ≤ (s.window w).size.toNat ∧ s.lifecycle ≠ .void ∧ s.winOk w c.colour = true ∧ s.winSpan w off 0x1E93 true = true ∧ s.sec.entropyBad = false ∧ c.colour < s.sec.provKey.length) ∧
    (∃ s ∈ [({ win (fol 0 0x0B02 [] W) with sec := { W.sec with act := [(0, grant)], fuses := { W.sec.fuses with lcDevelop := 1, ownerDigest := some [2] } } } : State)], ∃ ring ∈ [(0 : Nat)], ∃ b ∈ [(bg s ring : Begun)], s.hasFolio ring 0x0B02 b ∧ ∃ c ∈ [(s.fctx ring b)], ∃ w ∈ [(c.u 0x10 1)], w < 8 ∧ s.lifecycle = .develop ∧ s.winOk w c.colour = true ∧ s.winSpan w (c.u 0x14 4) 2689 false = true ∧ s.sec.fuses.ownerDigest.isSome = true) ∧
    (∃ s ∈ [({ win (fol 0 0x0B02 [] W) with sec := { W.sec with act := [(0, grant)], fuses := { W.sec.fuses with lcDevelop := 1 } } } : State)], ∃ ring ∈ [(0 : Nat)], ∃ b ∈ [(bg s ring : Begun)], s.hasFolio ring 0x0B02 b ∧ ∃ c ∈ [(s.fctx ring b)], ∃ w ∈ [(c.u 0x10 1)], w < 8 ∧ s.lifecycle = .develop ∧ s.winOk w c.colour = true ∧ s.winSpan w (c.u 0x14 4) 2689 false = true ∧ s.sec.fuses.ownerDigest = none ∧ s.winDamaged w (c.u 0x14 4) 2689 = false) ∧
    (∃ s ∈ [(win (fol 0 0x0B01 [(0x18,4,4995)] W) : State)], ∃ ring ∈ [(0 : Nat)], ∃ b ∈ [(bg s ring : Begun)], s.hasFolio ring 0x0B01 b ∧ s.owner = none) ∧
    (∃ s ∈ [({ (win (fol 0 0x0B01 [(0x18,4,4995)] W)) with sec := { ((win (fol 0 0x0B01 [(0x18,4,4995)] W))).sec with fuses := { W.sec.fuses with ownerDigest := some [2] } } } : State)], ∃ ring ∈ [(0 : Nat)], ∃ b ∈ [(bg s ring : Begun)], s.hasFolio ring 0x0B01 b ∧ ∃ c ∈ [(s.fctx ring b)], ∃ w ∈ [(c.u 0x10 1)], ∃ n ∈ [(c.u 0x18 4)], ∃ head ∈ [(s.winRead w (c.u 0x14 4) 0x110)], s.owner.isSome = true ∧ w < 8 ∧ c.u 0x14 4 + n ≤ (s.window w).size.toNat ∧ n = 0x110 + bundleU head 0xF0 4 + 4723 ∧ s.winOk w c.colour = true ∧ s.winSpan w (c.u 0x14 4) n false = true ∧ s.winDamaged w (c.u 0x14 4) n = false) ∧
    (∃ s ∈ [(wt 0 (.provision [1]) (fol 0 0x0B01 [] W) : State)], ∃ ring ∈ [(0 : Nat)], ∃ head ∈ [([1] : List Byte)], ∃ b ∈ [(bg s ring : Begun)], s.waitsFor ring b (.provision head) ∧ (s.island islSec).isolated = false) ∧
    (∃ s ∈ [(W : State)], s.owner = none) ∧
    (∃ s ∈ [({ W with sec := { W.sec with fuses := { W.sec.fuses with ownerDigest := some [2] } } } : State)], ∃ sigOk ∈ [(false : Bool)], s.owner.isSome = true ∧ sigOk = false) ∧
    (∃ s ∈ [({ W with sec := { W.sec with fuses := { W.sec.fuses with ownerDigest := some [2] } } } : State)], ∃ colour ∈ [(1 : Nat)], ∃ target ∈ [(padTo 16 W.deviceId : List Byte)], ∃ head ∈ [([1] : List Byte)], ∃ body ∈ [([] : List Byte)], ∃ sigOk ∈ [(false : Bool)], ∃ keyOk ∈ [(true : Bool)], ∃ r ∈ [(s.applyBundle colour target head sigOk keyOk body)], r.1 ≠ .ok) ∧
    (∃ s ∈ [({ dev W with sec := { (dev W).sec with provKey := W.sec.provKey.set 1 (some [5]) } } : State)], ∃ colour ∈ [(1 : Nat)], ∃ target ∈ [(padTo 16 W.deviceId : List Byte)], ∃ head ∈ [([1,0,1,0,1,0,0,0] : List Byte)], ∃ body ∈ [([1,127,2,0,0,0,0,0] : List Byte)], ∃ sigOk ∈ [(true : Bool)], ∃ keyOk ∈ [(true : Bool)], ∃ r ∈ [(s.applyBundle colour target head sigOk keyOk body)], r.1 = .ok ∧ colour < s.sec.provKey.length) ∧
    (∃ s ∈ [({ dev W with sec := { (dev W).sec with provKey := W.sec.provKey.set 1 (some [5]) } } : State)], ∃ colour ∈ [(1 : Nat)], ∃ target ∈ [(padTo 16 W.deviceId : List Byte)], ∃ head ∈ [([1,0,1,0,1,0,0,0] : List Byte)], ∃ body ∈ [([1,127,2,0,0,0,0,0] : List Byte)], ∃ sigOk ∈ [(true : Bool)], ∃ keyOk ∈ [(true : Bool)], ∃ r ∈ [(s.applyBundle colour target head sigOk keyOk body)], r.1 = .ok ∧ bitOf (bundleU head 4 4) 0 = true) := by
  iterate 10 refine ⟨by decide +kernel, ?_⟩
  refine ⟨one (one (one ⟨by decide +kernel, one (one' (w := 0) (by decide +kernel) (one' (w := 0) (by decide +kernel) (one' (read_token _ _) (one ⟨by decide +kernel, by decide +kernel, by decide +kernel, by decide +kernel, by decide +kernel, by decide +kernel, by decide +kernel, by decide +kernel, by decide +kernel,
      (congrArg leNat (token_rest _ _)).trans (by decide +kernel), by decide +kernel, by decide +kernel, token_target _ _, (congrArg some (token_key _ _)).symm⟩))))⟩)), ?_⟩
  refine ⟨one (one (one ⟨by decide +kernel, one (one' (w := 0) (by decide +kernel) (one' (w := 0) (by decide +kernel) (one' (read_token _ _) (one ⟨by decide +kernel, by decide +kernel, by decide +kernel, by decide +kernel, by decide +kernel, by decide +kernel, by decide +kernel, by decide +kernel, by decide +kernel,
      (congrArg leNat (token_rest _ _)).trans (by decide +kernel), by decide +kernel, by decide +kernel, fun h => head_ne _ ((token_target _ _).symm.trans h)⟩))))⟩)), ?_⟩
  iterate 10 refine ⟨by decide +kernel, ?_⟩
  refine ⟨one (one (one (one (one (one (one (one ⟨by
      unfold State.applyBundle
      simp only [show ∀ k, (padTo 16 W.deviceId = padTo 16 (State.deviceId { dev W with sec := { (dev W).sec with provKey := k } })) = True from fun _ => eq_true rfl]
      decide +kernel, by decide +kernel⟩))))))), ?_⟩
  exact one (one (one (one (one (one (one (one ⟨by
      unfold State.applyBundle
      simp only [show ∀ k, (padTo 16 W.deviceId = padTo 16 (State.deviceId { dev W with sec := { (dev W).sec with provKey := k } })) = True from fun _ => eq_true rfl]
      decide +kernel, by decide +kernel⟩)))))))

theorem test_witness_TheAccessTableAndTheDebugMaster :
    (∃ colour ∈ [(62 : Nat)], 1 ≤ colour ∧ colour ≤ 62) ∧
    (∃ s ∈ [(win W : State)], (∀ e ∈ s.sec.act, e.2.colour ≠ 63) ∧ s.sec.debugScope ≤ 1) ∧
    (∃ s ∈ [({ W with sec := { W.sec with actWord0 := 0x3F00000000000000 } } : State)], (s.island islSec).isolated = false ∧ s.sec.waitingCommit = none ∧ ∃ x ∈ [(ActEntry.ofWords s.sec.actWord0 s.sec.actWord1)], (x.colour = 63 ∨ (x.exec_ = true ∧ x.colour ≠ 0) ∨ (x.valid = true ∧ x.inStore = false))) ∧
    (∃ s ∈ [({ ({ W with sec := { W.sec with actIndex := 8191, actWord0 := 0x0100500FF0050000, actWord1 := 7 } }) with sec := { (({ W with sec := { W.sec with actIndex := 8191, actWord0 := 0x0100500FF0050000, actWord1 := 7 } })).sec with actWord1 := 9 } } : State)], (s.island islSec).isolated = false ∧ s.sec.waitingCommit = none ∧ ∃ i ∈ [(s.sec.actIndex.toNat)], ∃ x ∈ [(ActEntry.ofWords s.sec.actWord0 s.sec.actWord1)], ∃ refusal ∈ [(s.commitResult i x)], refusal ≠ 0) ∧
    (∃ s ∈ [({ W with sec := { W.sec with actIndex := 8191, actWord0 := 0x0100500FF0050000, actWord1 := 7 } } : State)], (s.island islSec).isolated = false ∧ s.sec.waitingCommit = none ∧ ∃ i ∈ [(s.sec.actIndex.toNat)], ∃ x ∈ [(ActEntry.ofWords s.sec.actWord0 s.sec.actWord1)], ∃ old ∈ [(s.actAt i)], ∃ refusal ∈ [(s.commitResult i x)], refusal = 0 ∧ old.isRemoval x = false) ∧
    (∃ s ∈ [({ ({ W with sec := { W.sec with actIndex := 8191, actWord0 := 0x0100500FF0050000, actWord1 := 7 } }) with sec := { (({ W with sec := { W.sec with actIndex := 8191, actWord0 := 0x0100500FF0050000, actWord1 := 7 } })).sec with actIndex := 0, actWord1 := 0, act := [(0, grant)] } } : State)], (s.island islSec).isolated = false ∧ s.sec.waitingCommit = none ∧ ∃ i ∈ [(s.sec.actIndex.toNat)], ∃ x ∈ [(ActEntry.ofWords s.sec.actWord0 s.sec.actWord1)], ∃ old ∈ [(s.actAt i)], ∃ refusal ∈ [(s.commitResult i x)], refusal = 0 ∧ old.isRemoval x = true ∧ s.removing old.colour.toNat = false) ∧
    (∃ s ∈ [({ ({ W with sec := { W.sec with actIndex := 8191, actWord0 := 0x0100500FF0050000, actWord1 := 7 } }) with sec := { (({ W with sec := { W.sec with actIndex := 8191, actWord0 := 0x0100500FF0050000, actWord1 := 7 } })).sec with actIndex := 0, actWord1 := 0, act := [(0, grant)], removals := [{ Removal.reset with colour := 1 }] } } : State)], (s.island islSec).isolated = false ∧ s.sec.waitingCommit = none ∧ ∃ i ∈ [(s.sec.actIndex.toNat)], ∃ x ∈ [(ActEntry.ofWords s.sec.actWord0 s.sec.actWord1)], ∃ old ∈ [(s.actAt i)], ∃ refusal ∈ [(s.commitResult i x)], refusal = 0 ∧ old.isRemoval x = true ∧ s.removing old.colour.toNat = true) ∧
    (∃ s ∈ [({ W with sec := { W.sec with epoch := 5, removals := [{ Removal.reset with colour := 62, first := 3, last := 4, epoch := 5 }] } } : State)], ∃ colour ∈ [(62 : Nat)], ∃ r ∈ [({ Removal.reset with colour := 62, first := 3, last := 4, epoch := 5 } : Removal)], (s.sec.removals.find? (fun x => x.colour = colour) = some r) ∧ s.sec.waitingCommit = none ∧ s.inFlight colour r.epoch = false) ∧
    (∃ s ∈ [(({ W with sec := { W.sec with epoch := 5, removals := [{ Removal.reset with colour := 62, first := 3, last := 4, epoch := 5 }] } }).modDram 7 fun x => { x with queue := [{ StoreReq.reset with colour := 62, epoch := 4, island := 10 }] } : State)], ∃ dt ∈ [(100000 : Nat)], ∃ colour ∈ [(62 : Nat)], ∃ r ∈ [({ Removal.reset with colour := 62, first := 3, last := 4, epoch := 5 } : Removal)], (s.sec.removals.find? (fun x => x.colour = colour) = some r) ∧ s.sec.waitingCommit = none ∧ ∃ i ∈ [(10)], s.inFlight colour r.epoch = true ∧ r.at_ + 100000 ≤ (s.elapse dt).tb.now ∧ s.lateIslands colour r.epoch = [i] ∧ 3 ≤ i ∧ i ≤ 10 ∧ i < s.fab.isl.length) ∧
    (∃ s ∈ [({ W with sec := { W.sec with epoch := 5, removals := [{ Removal.reset with colour := 62, first := 3, last := 4, epoch := 5 }] } } : State)], ∃ dt ∈ [(5 : Nat)], ∃ colour ∈ [(62 : Nat)], ∃ r ∈ [({ Removal.reset with colour := 62, first := 3, last := 4, epoch := 5 } : Removal)], (s.sec.removals.find? (fun x => x.colour = colour) = some r) ∧ s.sec.waitingCommit = none ∧ (s.elapse dt).tb.now < r.at_ + 100000) ∧
    (∃ s ∈ [({ W with sec := { W.sec with fuses := { W.sec.fuses with lcDevelop := 1 } } } : State)], s.lifecycle = .develop ∧ s.sec.fuses.ownerDigest = none) ∧
    (∃ s ∈ [({ W with sec := { W.sec with fuses := { W.sec.fuses with lcField := 1, ownerDigest := some [1] } } } : State)], ∃ tokenOk ∈ [(false : Bool)], s.lifecycle = .field ∧ tokenOk = false) ∧
    (∃ s ∈ [({ W with sec := { W.sec with fuses := { W.sec.fuses with lcReturn := 1, ownerDigest := some [1] } } } : State)], s.lifecycle = .return) ∧
    (∃ s ∈ [(dev W : State)], ∃ scope ∈ [(3 : Nat)], ∃ tokenOk ∈ [(false : Bool)], ∃ grant ∈ [(s.debugGrant scope tokenOk)], grant = 0) ∧
    (∃ s ∈ [({ (dev W) with sec := { ((dev W)).sec with watch := [{ SecWatch.reset with ring := 0, mask := 0xFF }] } } : State)], ∃ scope ∈ [(3 : Nat)], ∃ tokenOk ∈ [(true : Bool)], ∃ grant ∈ [(s.debugGrant scope tokenOk)], grant ≠ 0) ∧
    (∃ s ∈ [({ (dev W) with sec := { ((dev W)).sec with debugScope := 2, watch := [{ SecWatch.reset with ring := 0, mask := 0xFF }] } } : State)], s.sec.debugScope ≠ 0) ∧
    (∃ s ∈ [(W : State)], (s.island islSec).isolated = false ∧ (s.flt.src.getD 11 FltSource.reset).fixed = true) := by
  iterate 16 refine ⟨by decide +kernel, ?_⟩
  decide +kernel

theorem test_witness_MailboxesLockSendAndTake :
    (∃ s ∈ [((W).modHostBox 3 fun b => { b with inFull := true } : State)], ∃ n ∈ [(3 : Nat)], ∃ a ∈ [(15 : Nat)], s.boxUp n = true ∧ n < s.mail.host.length ∧ 1 ≤ a ∧ a ≤ 15 ∧ ∃ b ∈ [(s.hostBox n)], b.inFull = true) ∧
    (∃ s ∈ [(W : State)], ∃ n ∈ [(3 : Nat)], ∃ a ∈ [(15 : Nat)], s.boxUp n = true ∧ n < s.mail.host.length ∧ 1 ≤ a ∧ a ≤ 15 ∧ ∃ b ∈ [(s.hostBox n)], b.inFull = false) ∧
    (∃ s ∈ [(W : State)], ∃ n ∈ [(3 : Nat)], ∃ a ∈ [(15 : Nat)], s.boxUp n = true ∧ n < s.mail.host.length ∧ 1 ≤ a ∧ a ≤ 15 ∧ ∃ b ∈ [(s.hostBox n)], b.owner = 0) ∧
    (∃ s ∈ [((W).modHostBox 3 fun b => { b with owner := 1 } : State)], ∃ n ∈ [(3 : Nat)], ∃ a ∈ [(15 : Nat)], s.boxUp n = true ∧ n < s.mail.host.length ∧ 1 ≤ a ∧ a ≤ 15 ∧ ∃ b ∈ [(s.hostBox n)], b.owner ≠ 0 ∧ b.owner.toNat ≠ a) ∧
    (∃ s ∈ [((W).modHostBox 3 fun b => { b with owner := 15 } : State)], ∃ n ∈ [(3 : Nat)], ∃ a ∈ [(15 : Nat)], s.boxUp n = true ∧ n < s.mail.host.length ∧ 1 ≤ a ∧ a ≤ 15 ∧ ∃ b ∈ [(s.hostBox n)], b.owner.toNat = a ∧ b.outFull = false) ∧
    (∃ s ∈ [((W).modHostBox 3 fun b => { b with owner := 15, outFull := true } : State)], ∃ n ∈ [(3 : Nat)], ∃ a ∈ [(15 : Nat)], s.boxUp n = true ∧ n < s.mail.host.length ∧ 1 ≤ a ∧ a ≤ 15 ∧ ∃ b ∈ [(s.hostBox n)], (b.owner.toNat ≠ a ∨ b.outFull = true)) ∧
    (∃ s ∈ [(W.modHostBox 0 fun b => { b with outFull := true, outWords := [2] } : State)], ∃ n ∈ [(0 : Nat)], n < 4 ∧ n < s.mail.host.length ∧ s.top.ready = true ∧ s.twin.resyncCause1 = false ∧ (s.hostBox n).outFull = true ∧ ∃ b ∈ [(s.hostBox n)], b.inFull = false ∧ b.replies = []) ∧
    (∃ s ∈ [((W.modHostBox 0 fun b => { b with outFull := true, outWords := [2] }).modHostBox 0 fun b => { b with inFull := true, replies := [[1],[2],[3]] } : State)], ∃ n ∈ [(0 : Nat)], n < 4 ∧ n < s.mail.host.length ∧ s.top.ready = true ∧ s.twin.resyncCause1 = false ∧ (s.hostBox n).outFull = true ∧ ∃ b ∈ [(s.hostBox n)], b.inFull = true ∧ b.replies.length < 4) ∧
    (∃ s ∈ [((W.modHostBox 0 fun b => { b with outFull := true, outWords := [2] }).modHostBox 0 fun b => { b with inFull := true, replies := [[1],[2],[3],[4]] } : State)], ∃ n ∈ [(0 : Nat)], n < 4 ∧ n < s.mail.host.length ∧ s.top.ready = true ∧ s.twin.resyncCause1 = false ∧ (s.hostBox n).outFull = true ∧ ∃ b ∈ [(s.hostBox n)], b.inFull = true ∧ 4 ≤ b.replies.length) ∧
    (∃ s ∈ [(fol 0 0x0C00 [(0x10,1,15),(0x20,4,7)] (W.modMember 7 fun x => { x with st := 1 }) : State)], ∃ ring ∈ [(0 : Nat)], ∃ b ∈ [(bg s ring : Begun)], s.hasFolio ring 0x0C00 b ∧ ∃ c ∈ [(s.fctx ring b)], ∃ m ∈ [(c.u 0x10 1)], 8 ≤ m ∧ m < 16 ∧ m - 4 < s.mail.far.length ∧ c.colour = s.admin ∧ s.farContact m = true ∧ (s.farBox m).owner = 0 ∧ (s.farBox m).full = false) ∧
    (∃ s ∈ [((fol 0 0x0C00 [(0x10,1,15),(0x20,4,7)] (W.modMember 7 fun x => { x with st := 1 })).modFarBox 15 fun b => { b with full := true, owner := 3 } : State)], ∃ ring ∈ [(0 : Nat)], ∃ b ∈ [(bg s ring : Begun)], s.hasFolio ring 0x0C00 b ∧ ∃ c ∈ [(s.fctx ring b)], ∃ m ∈ [(c.u 0x10 1)], 8 ≤ m ∧ m < 16 ∧ m - 4 < s.mail.far.length ∧ c.colour = s.admin ∧ s.farContact m = true ∧ (s.farBox m).full = true) ∧
    (∃ s ∈ [((fol 0 0x0C00 [(0x10,1,15),(0x20,4,7)] (W.modMember 7 fun x => { x with st := 1 })).modMember 7 fun x => { x with st := 2 } : State)], ∃ ring ∈ [(0 : Nat)], ∃ b ∈ [(bg s ring : Begun)], s.hasFolio ring 0x0C00 b ∧ ∃ c ∈ [(s.fctx ring b)], ∃ m ∈ [(c.u 0x10 1)], 8 ≤ m ∧ m < 16 ∧ m - 4 < s.mail.far.length ∧ c.colour = s.admin ∧ s.farExists m = true ∧ s.farContact m = false) ∧
    (∃ s ∈ [(fol 0 0x0C00 [(0x10,1,8)] W : State)], ∃ ring ∈ [(0 : Nat)], ∃ b ∈ [(bg s ring : Begun)], s.hasFolio ring 0x0C00 b ∧ ∃ c ∈ [(s.fctx ring b)], ∃ m ∈ [(c.u 0x10 1)], 8 ≤ m ∧ m < 16 ∧ m - 4 < s.mail.far.length ∧ c.colour = s.admin ∧ m - 8 = s.top.gatherId.toNat) ∧
    (∃ s ∈ [(wt 0 (.mail 8) (fol 0 0x0C00 [(0x10,1,8)] ({ W with top := { W.top with gatherId := 1 } }.modMember 0 fun x => { x with st := 1 })) : State)], ∃ ring ∈ [(0 : Nat)], ∃ m ∈ [(8 : Nat)], ∃ b ∈ [(bg s ring : Begun)], s.waitsFor ring b (.mail m) ∧ s.farContact m = true ∧ m - 4 < s.mail.far.length) ∧
    (∃ s ∈ [(wt 0 (.mail 9) (fol 0 0x0C00 [(0x10,1,9)] { W with tb := { W.tb with now := 50000000 }, gath := { W.gath with noPathSince := W.gath.noPathSince.modify 1 fun _ => some 0 } }) : State)], ∃ dt ∈ [(5 : Nat)], ∃ ring ∈ [(0 : Nat)], ∃ m ∈ [(9 : Nat)], ∃ b ∈ [(bg s ring : Begun)], (s.cmdQ ring).begun = some b ∧ b.wait = .mail m ∧ (s.elapse dt).contactGone m = true) ∧
    (∃ s ∈ [((W.modMember 1 fun x => { x with st := 1 }).modFarBox 9 fun b => { b with full := true, watch := some 0, owner := 5 } : State)], ∃ m ∈ [(9 : Nat)], s.farContact m = true ∧ m - 4 < s.mail.far.length ∧ (s.farBox m).full = true ∧ s.mailWaiter m = none) ∧
    (∃ s ∈ [((W.modMember 1 fun x => { x with st := 1 }).modFarBox 9 fun b => { b with watch := some 0 } : State)], ∃ m ∈ [(9 : Nat)], s.farContact m = true ∧ 8 ≤ m ∧ m - 4 < s.mail.far.length ∧ (s.farBox m).inbox = none) ∧
    (∃ s ∈ [(win (fol 0 0x0C01 [(0x10,1,9),(0x12,1,0),(0x14,4,256)] (W.modFarBox 9 fun b => { b with inbox := some { MailMsg.reset with words := [1] } })) : State)], ∃ ring ∈ [(0 : Nat)], ∃ b ∈ [(bg s ring : Begun)], s.hasFolio ring 0x0C01 b ∧ s.store.mem.wf = true ∧ ∃ c ∈ [(s.fctx ring b)], ∃ m ∈ [(c.u 0x10 1)], ∃ w ∈ [(c.u 0x12 1)], ∃ off ∈ [(c.u 0x14 4)], 8 ≤ m ∧ m < 16 ∧ m - 4 < s.mail.far.length ∧ s.farExists m = true ∧ w < 8 ∧ off % 256 = 0 ∧ c.colour = s.admin ∧ s.winOk w c.colour = true ∧ s.winSpan w off 256 true = true ∧ ∃ x ∈ [({ MailMsg.reset with words := [1] })], (s.farBox m).inbox = some x) ∧
    (∃ s ∈ [((win (fol 0 0x0C01 [(0x10,1,9),(0x12,1,0),(0x14,4,256)] (W.modFarBox 9 fun b => { b with inbox := some { MailMsg.reset with words := [1] } }))).modFarBox 9 fun b => { b with inbox := none } : State)], ∃ ring ∈ [(0 : Nat)], ∃ b ∈ [(bg s ring : Begun)], s.hasFolio ring 0x0C01 b ∧ s.store.mem.wf = true ∧ ∃ c ∈ [(s.fctx ring b)], ∃ m ∈ [(c.u 0x10 1)], ∃ w ∈ [(c.u 0x12 1)], ∃ off ∈ [(c.u 0x14 4)], 8 ≤ m ∧ m < 16 ∧ m - 4 < s.mail.far.length ∧ s.farExists m = true ∧ w < 8 ∧ off % 256 = 0 ∧ c.colour = s.admin ∧ s.winOk w c.colour = true ∧ s.winSpan w off 256 true = true ∧ (s.farBox m).inbox = none) := by
  iterate 18 refine ⟨by decide +kernel, ?_⟩
  decide +kernel

theorem test_witness_TheGatheringHoldsTogether :
    (∃ s ∈ [(dev W : State)], ∃ link ∈ [(2 : Nat)], ∃ peer ∈ [({ (default : PeerIn) with chainOk := true, ownerDigest := [1], lifecycle := 1, gatherId := 0, recordDigest := Config.sha384 W.sec.record.publicBytes } : PeerIn)], s.peerAccepted link peer = true ∧ link = 2) ∧
    (∃ s ∈ [({ dev W with twin := { W.twin with linkIdle := false } } : State)], ∃ link ∈ [(2 : Nat)], ∃ peer ∈ [({ (default : PeerIn) with chainOk := true, ownerDigest := [1], lifecycle := 1, gatherId := 0, recordDigest := Config.sha384 W.sec.record.publicBytes } : PeerIn)], link < 3 ∧ link < s.gath.link.length ∧ (s.spineLink link).st ≠ 2 ∧ s.pwr.booted = true ∧ s.twin.linkIdle = false ∧ (s.island islSpine).isolated = false ∧ s.peerAccepted link peer = true ∧ s.sec.entropyBad = false) ∧
    (∃ s ∈ [({ dev W with twin := { W.twin with linkIdle := false } } : State)], ∃ link ∈ [(0 : Nat)], ∃ peer ∈ [((default : PeerIn) : PeerIn)], link < 3 ∧ link < s.gath.link.length ∧ (s.spineLink link).st ≠ 2 ∧ s.pwr.booted = true ∧ s.twin.linkIdle = false ∧ (s.island islSpine).isolated = false ∧ (s.peerAccepted link peer = false ∨ s.sec.entropyBad = true)) ∧
    (∃ s ∈ [({ dev W with twin := { W.twin with linkIdle := false } } : State)], ∃ dt ∈ [(5 : Nat)], ∃ link ∈ [(2 : Nat)], link < 3 ∧ link < s.gath.link.length ∧ (s.spineLink link).st ≠ 2 ∧ s.pwr.booted = true ∧ s.twin.linkIdle = false ∧ (s.island islSpine).isolated = false ∧ (s.elapse dt).since (s.spineLink link).tryAt 1000000000 = true) ∧
    (∃ s ∈ [(({ dev W with twin := { W.twin with linkIdle := false } }).modLink 2 fun x => { x with tryAt := some 0 } : State)], ∃ dt ∈ [(5 : Nat)], ∃ link ∈ [(2 : Nat)], link < 3 ∧ link < s.gath.link.length ∧ (s.spineLink link).st ≠ 2 ∧ s.pwr.booted = true ∧ s.twin.linkIdle = false ∧ (s.island islSpine).isolated = false ∧ (s.elapse dt).since (s.spineLink link).tryAt 1000000000 = false) ∧
    (∃ s ∈ [(links [0, 1, 2] W : State)], ∃ link ∈ [(0 : Nat)], link < 3 ∧ link < s.gath.link.length ∧ (s.spineLink link).st = 2) ∧
    (∃ s ∈ [(links [0] W : State)], ∃ a ∈ [({ (default : MemberIn) with gatherId := 7, hopsA := some 2 } : MemberIn)], s.ringUp = true ∧ a.gatherId < 8 ∧ a.gatherId < s.gath.mem.length ∧ a.gatherId ≠ s.top.gatherId.toNat ∧ (s.member a.gatherId).st = 0 ∧ a.role ≤ 1) ∧
    (∃ s ∈ [(links [0] W : State)], ∃ a ∈ [({ (default : MemberIn) with gatherId := 0, devId := 0 :: W.deviceId } : MemberIn)], s.ringUp = true ∧ a.gatherId < 8 ∧ a.gatherId < s.gath.mem.length ∧ a.gatherId = s.top.gatherId.toNat ∧ a.devId ≠ s.deviceId ∧ a.twin = false ∧ s.twin.partnerSeen = false ∧ (s.member a.gatherId).st ≠ 3) ∧
    (∃ s ∈ [(links [0] W : State)], s.isLead = true ∧ s.ringUp = true) ∧
    (∃ s ∈ [(links [0] { W.modMember 1 (fun x => { x with st := 1 }) with top := { W.top with gatherId := 2 }, gath := { (W.modMember 1 (fun x => { x with st := 1 })).gath with lead := some 1 }, tb := { W.tb with acquired := true, stepLimit := 1000 } } : State)], ∃ offset ∈ [(-900 : Int)], ∃ lead ∈ [(1 : Nat)], s.ringUp = true ∧ s.runsPtp = false ∧ s.gath.lead = some lead ∧ s.tb.acquired = true ∧ offset.natAbs ≤ s.tb.stepLimit) ∧
    (∃ s ∈ [(links [0] { W.modMember 1 (fun x => { x with st := 1 }) with top := { W.top with gatherId := 2 }, gath := { (W.modMember 1 (fun x => { x with st := 1 })).gath with lead := some 1 }, tb := { W.tb with acquired := true, stepLimit := 1000 } } : State)], ∃ offset ∈ [(-1001 : Int)], ∃ lead ∈ [(1 : Nat)], s.ringUp = true ∧ s.runsPtp = false ∧ s.gath.lead = some lead ∧ (s.tb.acquired = false ∨ s.tb.stepLimit < offset.natAbs)) ∧
    (∃ s ∈ [({ W with top := { W.top with gatherId := 2 }, tb := { W.tb with frameAt := some 0, lock := .locked } })], ∃ dt ∈ [(4000000)], ∃ t₀ ∈ [(0)], s.tb.frameAt = some t₀ ∧ s.top.gatherId ≠ 0 ∧ t₀ + 4000000 ≤ (s.elapse dt).tb.now ∧ s.tb.lock = .locked) ∧
    (∃ s ∈ [({ W with top := { W.top with gatherId := 2 }, tb := { W.tb with frameAt := some 0, lock := .locked } })], ∃ dt ∈ [(3999999)], ∃ t₀ ∈ [(0)], s.tb.frameAt = some t₀ ∧ s.top.gatherId ≠ 0 ∧ (s.elapse dt).tb.now < t₀ + 4000000) ∧
    (∃ s ∈ [(links [0] W : State)], s.ringUp = true ∧ s.isLead = true) ∧
    (∃ s ∈ [({ links [0] W with top := { W.top with gatherId := 2 } } : State)], s.ringUp = true ∧ s.isLead = false) := by
  refine ⟨one (one (one ⟨by simp only [State.peerAccepted, show (padTo 48 (Config.sha384 W.sec.record.publicBytes) = padTo 48 (Config.sha384 (dev W).sec.record.publicBytes)) = True from eq_true rfl]; decide +kernel, rfl⟩)), ?_⟩
  refine ⟨one (one (one ⟨by decide +kernel, by decide +kernel, by decide +kernel, by decide +kernel, by decide +kernel, by decide +kernel, by simp only [State.peerAccepted, show (padTo 48 (Config.sha384 W.sec.record.publicBytes) = padTo 48 (Config.sha384 (dev W).sec.record.publicBytes)) = True from eq_true rfl]; decide +kernel, by decide +kernel⟩)), ?_⟩
  iterate 5 refine ⟨by decide +kernel, ?_⟩
  refine ⟨one (one ⟨by decide +kernel, by decide +kernel, by decide +kernel, by decide +kernel, ne_cons _ _, by decide +kernel, by decide +kernel, by decide +kernel⟩), ?_⟩
  iterate 6 refine ⟨by decide +kernel, ?_⟩
  decide +kernel

theorem test_witness_SharesAndForwardedFolios :
    (∃ s ∈ [((fol 0 0x0C10 [(0x10,1,63),(0x11,1,2)] (W.modCtx 63 fun x => { x with opened := true, owner := 1, share := 6 })).modCtx 63 fun x => { x with owner := 2 } : State)], ∃ ring ∈ [(0 : Nat)], ∃ b ∈ [(bg s ring : Begun)], s.hasFolio ring 0x0C10 b ∧ ∃ c ∈ [(s.fctx ring b)], ∃ i ∈ [(c.u 0x10 1)], ∃ x ∈ [(s.ctx i)], i < 64 ∧ i < s.dec.ctx.length ∧ (BitVec.ofNat 8 (c.u 0x11 1)).getLsbD s.top.gatherId.toNat = false ∧ c.u 0x12 2 = 0 ∧ x.opened = true ∧ x.owner ≠ c.colour) ∧
    (∃ s ∈ [((fol 0 0x0C10 [(0x10,1,63),(0x11,1,2)] (W.modCtx 63 fun x => { x with opened := true, owner := 1, share := 6 })).modCtx 63 fun x => { x with opened := false } : State)], ∃ ring ∈ [(0 : Nat)], ∃ b ∈ [(bg s ring : Begun)], s.hasFolio ring 0x0C10 b ∧ ∃ c ∈ [(s.fctx ring b)], ∃ i ∈ [(c.u 0x10 1)], ∃ x ∈ [(s.ctx i)], i < 64 ∧ i < s.dec.ctx.length ∧ (BitVec.ofNat 8 (c.u 0x11 1)).getLsbD s.top.gatherId.toNat = false ∧ c.u 0x12 2 = 0 ∧ x.opened = false) ∧
    (∃ s ∈ [(fol 0 0x0C10 [(0x10,1,63),(0x11,1,128)] (W.modCtx 63 fun x => { x with opened := true, owner := 1, share := 6 }) : State)], ∃ ring ∈ [(0 : Nat)], ∃ b ∈ [(bg s ring : Begun)], s.hasFolio ring 0x0C10 b ∧ ∃ c ∈ [(s.fctx ring b)], ∃ i ∈ [(c.u 0x10 1)], ∃ x ∈ [(s.ctx i)], ∃ added ∈ [((BitVec.ofNat 8 (c.u 0x11 1)) &&& ~~~x.share)], i < 64 ∧ i < s.dec.ctx.length ∧ (BitVec.ofNat 8 (c.u 0x11 1)).getLsbD s.top.gatherId.toNat = false ∧ c.u 0x12 2 = 0 ∧ x.opened = true ∧ x.owner = c.colour ∧ ∃ m ∈ [(7)], m < 8 ∧ added.getLsbD m = true ∧ (s.member m).st ≠ 1) ∧
    (∃ s ∈ [(fol 0 0x0C10 [(0x10,1,63),(0x11,1,2)] (W.modCtx 63 fun x => { x with opened := true, owner := 1, share := 6 }) : State)], ∃ dt ∈ [(5 : Nat)], ∃ ring ∈ [(0 : Nat)], ∃ answers ∈ [({ (default : ShareAnswers) with shows := 2 } : ShareAnswers)], ∃ b ∈ [(bg s ring : Begun)], s.hasFolio ring 0x0C10 b ∧ ∃ c ∈ [(s.fctx ring b)], ∃ i ∈ [(c.u 0x10 1)], ∃ x ∈ [(s.ctx i)], ∃ added ∈ [((BitVec.ofNat 8 (c.u 0x11 1)) &&& ~~~x.share)], i < 64 ∧ i < s.dec.ctx.length ∧ (BitVec.ofNat 8 (c.u 0x11 1)).getLsbD s.top.gatherId.toNat = false ∧ c.u 0x12 2 = 0 ∧ x.opened = true ∧ x.owner = c.colour ∧ added = 0 ∧ (x.share &&& ~~~(BitVec.ofNat 8 (c.u 0x11 1))) &&& answers.shows = 0 ∧ (bodyGatherShare answers c (s.elapse dt)).withinPoint (s.elapse dt) false) ∧
    (∃ s ∈ [((W.modCtx 9 fun x => { x with opened := true, share := 128, pics := [{ Picture.reset with id := 2, frame := some 5, leaves := [{ Leaf.reset with valid := true }] }] }).modMember 7 fun x => { x with st := 1 } : State)], ∃ ch ∈ [(9 : Nat)], ∃ pic ∈ [(2 : Nat)], ∃ leaf ∈ [(0 : Nat)], ∃ m ∈ [(7 : Nat)], ∃ p ∈ [({ Picture.reset with id := 2, frame := some 5, leaves := [{ Leaf.reset with valid := true }] } : Picture)], ((s.ctx ch).pics.find? (fun (y : Picture) => y.id = pic) = some p) ∧ ch < s.dec.ctx.length ∧ s.twin.st = .active ∧ (s.ctx ch).opened = true ∧ (s.ctx ch).share.getLsbD m = true ∧ (s.member m).st = 1 ∧ (p.leaves.getD leaf Leaf.reset).valid = true ∧ p.frame.isSome = true ∧ (s.ctx ch).shareFrom.getD m 0 ≤ pic ∧ (s.island islSpine).isolated = false ∧ (∀ q ∈ s.gath.sent, ¬ (q.context = ch ∧ q.frame = p.frame.getD 0 ∧ q.leaf = leaf ∧ q.dst = m))) ∧
    (∃ s ∈ [({ ((W.modCtx 9 fun x => { x with opened := true, share := 128, pics := [{ Picture.reset with id := 2, frame := some 5, leaves := [{ Leaf.reset with valid := true }] }] }).modMember 7 fun x => { x with st := 1 }) with gath := { (((W.modCtx 9 fun x => { x with opened := true, share := 128, pics := [{ Picture.reset with id := 2, frame := some 5, leaves := [{ Leaf.reset with valid := true }] }] }).modMember 7 fun x => { x with st := 1 })).gath with sent := [{ LeafMsg.reset with context := 9, frame := 5, dst := 7 }] } } : State)], ∃ ch ∈ [(9 : Nat)], ∃ pic ∈ [(2 : Nat)], ∃ leaf ∈ [(0 : Nat)], ∃ m ∈ [(7 : Nat)], ∃ p ∈ [({ Picture.reset with id := 2, frame := some 5, leaves := [{ Leaf.reset with valid := true }] } : Picture)], ((s.ctx ch).pics.find? (fun (y : Picture) => y.id = pic) = some p) ∧ ch < s.dec.ctx.length ∧ s.twin.st = .active ∧ (s.ctx ch).opened = true ∧ (s.ctx ch).share.getLsbD m = true ∧ (s.member m).st = 1 ∧ (p.leaves.getD leaf Leaf.reset).valid = true ∧ p.frame.isSome = true ∧ (s.ctx ch).shareFrom.getD m 0 ≤ pic ∧ (s.island islSpine).isolated = false ∧ ∃ q ∈ [({ LeafMsg.reset with context := 9, frame := 5, dst := 7 })], q ∈ s.gath.sent ∧ q.context = ch ∧ q.frame = p.frame.getD 0 ∧ q.leaf = leaf ∧ q.dst = m) ∧
    (∃ s ∈ [(links [0] { W with gath := { W.gath with rx := [{ RxContext.reset with member := 3, context := 9, got := [(5, 0)] }] } } : State)], ∃ lf ∈ [({ (default : LeafIn) with member := 3, context := 9, frame := 5, leaves := 1 } : LeafIn)], ∃ x ∈ [({ RxContext.reset with member := 3, context := 9, got := [(5, 0)] } : RxContext)], s.rxOf lf.member lf.context = some x ∧ s.ringUp = true ∧ x.ended = false ∧ lf.leaf < lf.leaves ∧ (s.island islSpine).isolated = false ∧ x.got.contains (lf.frame, lf.leaf) = true) ∧
    (∃ s ∈ [(links [0] { W with gath := { W.gath with rx := [{ RxContext.reset with member := 3, context := 9 }] } } : State)], ∃ lf ∈ [({ (default : LeafIn) with member := 3, context := 9, frame := 5, leaves := 1 } : LeafIn)], ∃ x ∈ [({ RxContext.reset with member := 3, context := 9 } : RxContext)], s.rxOf lf.member lf.context = some x ∧ s.ringUp = true ∧ x.ended = false ∧ lf.leaf < lf.leaves ∧ (s.island islSpine).isolated = false ∧ x.got.contains (lf.frame, lf.leaf) = false ∧ x.pics.length ≤ 2 ∧ (∀ p ∈ x.pics, p.id ≠ x.place lf.frame)) ∧
    (∃ s ∈ [(links [0] { W with gath := { W.gath with outcomes := [{ FwdOutcome.reset with origin := 7, ring := 31, seq := 4, done := true }] } } : State)], ∃ origin ∈ [(7 : Nat)], ∃ ring ∈ [(31 : Nat)], s.ringUp = true ∧ s.twin.st = .active ∧ s.gath.relayOnly = false ∧ (s.island islSpine).isolated = false ∧ s.takesFolios = true ∧ origin < 8 ∧ origin ≠ s.top.gatherId.toNat ∧ ring < 32 ∧ ∃ o ∈ [({ FwdOutcome.reset with origin := 7, ring := 31, seq := 4, done := true })], (s.gath.outcomes.find? (fun z => z.is origin ring (4 : BitVec 32)) = some o) ∧ o.done = true) ∧
    (∃ s ∈ [(links [0] W : State)], ∃ origin ∈ [(7 : Nat)], ∃ ring ∈ [(31 : Nat)], ∃ raw ∈ [(leBytes 2 0x0000 ++ List.replicate 62 0 : List Byte)], s.ringUp = true ∧ s.twin.st = .active ∧ s.gath.relayOnly = false ∧ (s.island islSpine).isolated = false ∧ s.takesFolios = true ∧ origin < 8 ∧ origin ≠ s.top.gatherId.toNat ∧ ring < 32 ∧ ∃ place ∈ [(32)], (s.gath.outcomes.find? (fun z => z.is origin ring (4 : BitVec 32)) = none) ∧ s.fwdPlace origin ring (4 : BitVec 32) = none ∧ s.freePlace = some place ∧ place < s.host.cmdq.length ∧ s.targetCheck { raw := padTo (max 256 raw.length) raw } = none) ∧
    (∃ s ∈ [(links [0] (wt 0 (.forward 7) (fol 0 0x0000 [] W)) : State)], ∃ ring ∈ [(0 : Nat)], ∃ member ∈ [(7 : Nat)], ∃ b ∈ [(bg s ring : Begun)], (s.cmdQ ring).begun = some b ∧ b.wait = .forward member ∧ b.cmdSeq = (0 : BitVec 32) ∧ s.ringUp = true ∧ s.role ≠ 2 ∧ member < 8 ∧ member ≠ s.top.gatherId.toNat) ∧
    (∃ s ∈ [({ (wt 0 (.forward 7) (fol 0 0x0000 [] W)) with gath := { ((wt 0 (.forward 7) (fol 0 0x0000 [] W))).gath with noPathSince := ((wt 0 (.forward 7) (fol 0 0x0000 [] W))).gath.noPathSince.set 7 (some 0) } } : State)], ∃ dt ∈ [(50000000 : Nat)], ∃ ring ∈ [(0 : Nat)], ∃ member ∈ [(7 : Nat)], ∃ b ∈ [(bg s ring : Begun)], (s.cmdQ ring).begun = some b ∧ b.wait = .forward member ∧ s.reachable member = false ∧ ∃ t₀ ∈ [(0 : Nat)], s.gath.noPathSince.getD member none = some t₀ ∧ t₀ + 50000000 ≤ (s.elapse dt).tb.now) ∧
    (∃ s ∈ [(wt 0 (.forward 7) (fol 0 0x0000 [] W) : State)], ∃ ring ∈ [(0 : Nat)], ∃ member ∈ [(7 : Nat)], ∃ b ∈ [(bg s ring : Begun)], (s.cmdQ ring).begun = some b ∧ b.wait = .forward member ∧ s.reachable member = false ∧ s.gath.noPathSince.getD member none = none) := by
  iterate 12 refine ⟨by decide +kernel, ?_⟩
  decide +kernel

theorem test_witness_ElectionTakeoverAndSwap :
    (∃ s ∈ [({ W with twin := { W.twin with st := .standby, claimReleased := true, claimLow := false, inSync := true } } : State)], s.twin.st = .standby ∧ s.tSilent = true ∧ s.twin.claimReleased = true ∧ s.twin.claimLow = false ∧ s.twin.pulling = false ∧ s.twin.inSync = true ∧ s.twin.senior = none ∧ s.twin.checkAt = none) ∧
    (∃ s ∈ [({ ({ W with twin := { W.twin with st := .standby, claimReleased := true, claimLow := false, inSync := true } }) with twin := { (({ W with twin := { W.twin with st := .standby, claimReleased := true, claimLow := false, inSync := true } })).twin with inSync := false } } : State)], s.twin.st = .standby ∧ s.tSilent = true ∧ s.twin.claimReleased = true ∧ s.twin.claimLow = false ∧ s.twin.pulling = false ∧ s.twin.inSync = false) ∧
    (∃ s ∈ [({ W with twin := { W.twin with st := .electing, hbSilent := true } } : State)], s.twin.pulling = false ∧ s.twin.st = .electing ∧ s.twin.forced = false ∧ s.twin.hbSilent = true ∧ s.tSilent = true ∧ s.twin.senior = none ∧ s.twin.checkAt = none) ∧
    (∃ s ∈ [({ W with twin := { W.twin with pulling := true } } : State)], s.twin.pulling = true) ∧
    (∃ s ∈ [({ W with twin := { W.twin with st := .electing, claimReleased := true, claimLow := false, senior := some 5 } })], ∃ dt ∈ [(4)], ∃ t₀ ∈ [(5)], s.twin.senior = some t₀ ∧ (s.elapse dt).tb.now < t₀) ∧
    (∃ s ∈ [({ ({ W with twin := { W.twin with st := .electing, claimReleased := true, claimLow := false, senior := some 5 } }) with twin := { (({ W with twin := { W.twin with st := .electing, claimReleased := true, claimLow := false, senior := some 5 } })).twin with aloneClaim := true } })], ∃ dt ∈ [(5)], ∃ t₀ ∈ [(5)], s.twin.senior = some t₀ ∧ t₀ ≤ (s.elapse dt).tb.now ∧ s.twin.claimLow = false ∧ s.twin.claimReleased = true ∧ (s.twin.aloneClaim = true ∨ s.twin.forced = true ∨ s.twin.forTakeover = true)) ∧
    (∃ s ∈ [({ W with twin := { W.twin with st := .electing, claimReleased := true, claimLow := false, senior := some 5 } })], ∃ dt ∈ [(5)], ∃ t₀ ∈ [(5)], s.twin.senior = some t₀ ∧ t₀ ≤ (s.elapse dt).tb.now ∧ s.twin.claimLow = false ∧ s.twin.claimReleased = true ∧ s.twin.aloneClaim = false ∧ s.twin.forced = false ∧ s.twin.forTakeover = false) ∧
    (∃ s ∈ [({ W with twin := { W.twin with st := .electing, checkAt := some 5, pulling := true, hbSilent := true } })], ∃ dt ∈ [(5)], ∃ t₀ ∈ [(5)], ∃ spoke ∈ [(false)], ∃ both ∈ [(false)], s.twin.checkAt = some t₀ ∧ t₀ ≤ (s.elapse dt).tb.now ∧ s.twin.pulling = true ∧ s.twin.st = .electing ∧ s.twin.hbSilent = true ∧ s.tSilent = true ∧ spoke = false ∧ both = false) ∧
    (∃ s ∈ [({ ({ W with twin := { W.twin with st := .electing, checkAt := some 5, pulling := true, hbSilent := true } }) with twin := { (({ W with twin := { W.twin with st := .electing, checkAt := some 5, pulling := true, hbSilent := true } })).twin with st := .standby } })], ∃ dt ∈ [(5)], ∃ t₀ ∈ [(5)], ∃ spoke ∈ [(false)], ∃ both ∈ [(false)], s.twin.checkAt = some t₀ ∧ t₀ ≤ (s.elapse dt).tb.now ∧ s.twin.pulling = true ∧ s.twin.st = .standby ∧ s.twin.hbSilent = true ∧ s.tSilent = true ∧ spoke = false ∧ both = false) ∧
    (∃ s ∈ [({ ({ W with twin := { W.twin with st := .electing, checkAt := some 5, pulling := true, hbSilent := true } }) with twin := { (({ W with twin := { W.twin with st := .electing, checkAt := some 5, pulling := true, hbSilent := true } })).twin with st := .standby } })], ∃ dt ∈ [(5)], ∃ t₀ ∈ [(5)], ∃ spoke ∈ [(true)], s.twin.checkAt = some t₀ ∧ t₀ ≤ (s.elapse dt).tb.now ∧ s.twin.pulling = true ∧ s.twin.st = .standby ∧ (spoke = true ∨ s.twin.hbSilent = false)) ∧
    (∃ s ∈ [({ W with twin := { W.twin with st := .electing, checkAt := some 5, pulling := true, hbSilent := true } })], ∃ dt ∈ [(5)], ∃ t₀ ∈ [(5)], ∃ spoke ∈ [(false)], ∃ both ∈ [(true)], s.twin.checkAt = some t₀ ∧ t₀ ≤ (s.elapse dt).tb.now ∧ s.twin.pulling = true ∧ s.twin.st = .electing ∧ s.twin.hbSilent = true ∧ s.tSilent = true ∧ spoke = false ∧ both = true) ∧
    (∃ s ∈ [({ W with twin := { W.twin with forTakeover := true } } : State)], s.twin.st = .active ∧ s.twin.forTakeover = true) ∧
    (∃ s ∈ [(W : State)], s.pwr.booted = true ∧ s.twin.st ≠ .starting ∧ s.twin.st ≠ .yielding ∧ s.twin.resyncCause1 = false) ∧
    (∃ s ∈ [({ W with twin := { W.twin with resyncCause1 := true } } : State)], ∃ dt ∈ [(5 : Nat)], s.pwr.booted = true ∧ s.twin.st ≠ .starting ∧ s.twin.st ≠ .yielding ∧ s.twin.resyncCause1 = true ∧ (s.elapse dt).tb.now < s.twin.restartFrom + 20000000) ∧
    (∃ s ∈ [(links [2] { W with store := { W.store with noSpare := true }, twin := { W.twin with inSync := true, partnerSeen := true } } : State)], s.twin.st = .active ∧ s.faultBits.getLsbD 5 = true ∧ s.synced = true ∧ s.twin.partnerLasting.contains islStore = false) ∧
    (∃ s ∈ [({ W with store := { W.store with noSpare := true }, gath := { W.gath with watch := [(0, 0xFF)] } } : State)], s.twin.st = .active ∧ s.faultBits.getLsbD 5 = true ∧ s.synced = false) ∧
    (∃ s ∈ [(links [2] (fol 0 0x0C20 [(0x10,1,1)] { W with twin := { W.twin with inSync := true, partnerSeen := true } }) : State)], ∃ ring ∈ [(0 : Nat)], ∃ b ∈ [(bg s ring : Begun)], s.hasFolio ring 0x0C20 b ∧ ∃ c ∈ [(s.fctx ring b)], c.colour = s.admin ∧ c.u 0x10 1 = 1 ∧ s.twin.st = .active ∧ s.synced = true ∧ s.twin.swap = none) ∧
    (∃ s ∈ [(fol 0 0x0C20 [(0x10,1,1)] W : State)], ∃ ring ∈ [(0 : Nat)], ∃ b ∈ [(bg s ring : Begun)], s.hasFolio ring 0x0C20 b ∧ ∃ c ∈ [(s.fctx ring b)], c.colour = s.admin ∧ c.u 0x10 1 = 1 ∧ s.synced = false) ∧
    (∃ s ∈ [(fol 0 0x0C20 [(0x10,1,2)] { W with twin := { W.twin with st := .electing } } : State)], ∃ ring ∈ [(0 : Nat)], ∃ b ∈ [(bg s ring : Begun)], s.hasFolio ring 0x0C20 b ∧ ∃ c ∈ [(s.fctx ring b)], c.colour = s.admin ∧ c.u 0x10 1 = 2 ∧ s.twin.st = .electing ∧ s.twin.claimLow = false) ∧
    (∃ s ∈ [(fol 0 0x0C20 [(0x10,1,2)] { W with twin := { W.twin with st := .electing, claimLow := true } } : State)], ∃ ring ∈ [(0 : Nat)], ∃ b ∈ [(bg s ring : Begun)], s.hasFolio ring 0x0C20 b ∧ ∃ c ∈ [(s.fctx ring b)], c.colour = s.admin ∧ c.u 0x10 1 = 2 ∧ s.twin.st = .electing ∧ s.twin.claimLow = true) ∧
    (∃ s ∈ [(fol 0 0x0C20 [(0x10,1,2)] W : State)], ∃ ring ∈ [(0 : Nat)], ∃ b ∈ [(bg s ring : Begun)], s.hasFolio ring 0x0C20 b ∧ ∃ c ∈ [(s.fctx ring b)], c.colour = s.admin ∧ c.u 0x10 1 = 2 ∧ s.twin.st ≠ .electing) ∧
    (∃ s ∈ [(wt 0 .swap (fol 0 0x0C20 [(0x10,1,1)] { W with twin := { W.twin with swap := some 0 } }) : State)], ∃ ring ∈ [(0 : Nat)], ∃ b ∈ [(bg s ring : Begun)], s.waitsFor ring b .swap ∧ s.swapReady ring = true) := by
  iterate 21 refine ⟨by decide +kernel, ?_⟩
  decide +kernel

theorem test_witness_TheStandbyFollows :
    (∃ s ∈ [(links [2] { W with twin := { W.twin with st := .standby } } : State)], s.tSilent = false ∧ s.twin.st = .standby ∧ s.dec.ctx.all Context.inStep = true ∧ s.comp.head.all Head.inStep = true) ∧
    (∃ s ∈ [(links [2] { W with twin := { W.twin with partner := some .standby } } : State)], s.tSilent = false ∧ s.twin.st = .active ∧ s.twin.partner = some TwinSt.standby) ∧
    (∃ s ∈ [(links [2] W : State)], s.tSilent = false ∧ s.twin.st ≠ .standby) ∧
    (∃ s ∈ [(links [2] W : State)], s.tSilent = false ∧ s.twin.st = .active) ∧
    (∃ s ∈ [(links [2] { W with twin := { W.twin with st := .standby, inSync := true } } : State)], ∃ island ∈ [(12 : Nat)], s.twin.st = .standby ∧ s.synced = true ∧ 3 ≤ island ∧ island ≤ 12 ∧ (s.island island).isolated = false) ∧
    (∃ s ∈ [(links [2] ({ W with twin := { W.twin with st := .standby } }.modCtx 63 fun x => { x with opened := true, coldWait := some 0, cfg := { x.cfg with hostFed := true } }))], ∃ dt ∈ [(2000000000)], ∃ c ∈ [(63)], ∃ t₀ ∈ [(0)], (s.ctx c).coldWait = some t₀ ∧ s.twin.st = .standby ∧ s.tSilent = false ∧ c < 64 ∧ c < s.dec.ctx.length ∧ (s.ctx c).opened = true ∧ (s.ctx c).reachesTwin = true ∧ t₀ + 2000000000 ≤ (s.elapse dt).tb.now) ∧
    (∃ s ∈ [(links [2] ({ W with twin := { W.twin with st := .standby } }.modCtx 63 fun x => { x with opened := true, coldWait := some 0, cfg := { x.cfg with hostFed := true } }))], ∃ dt ∈ [(1999999999)], ∃ c ∈ [(63)], ∃ t₀ ∈ [(0)], (s.ctx c).coldWait = some t₀ ∧ s.twin.st = .standby ∧ s.tSilent = false ∧ c < 64 ∧ c < s.dec.ctx.length ∧ (s.ctx c).opened = true ∧ (s.ctx c).reachesTwin = true ∧ (s.elapse dt).tb.now < t₀ + 2000000000) ∧
    (∃ s ∈ [(links [2] (fol 0 0x0C21 [(0x10,1,3),(0x14,4,7)] { W with twin := { W.twin with inSync := true } }) : State)], ∃ ring ∈ [(0 : Nat)], ∃ b ∈ [(bg s ring : Begun)], s.hasFolio ring 0x0C21 b ∧ ∃ c ∈ [(s.fctx ring b)], ∃ p ∈ [(c.u 0x10 1)], p < 4 ∧ p < s.net.ports.length ∧ s.mirroring = true) ∧
    (∃ s ∈ [(fol 0 0x0C21 [(0x10,1,3),(0x14,4,7)] W : State)], ∃ ring ∈ [(0 : Nat)], ∃ b ∈ [(bg s ring : Begun)], s.hasFolio ring 0x0C21 b ∧ ∃ c ∈ [(s.fctx ring b)], ∃ p ∈ [(c.u 0x10 1)], p < 4 ∧ p < s.net.ports.length ∧ s.mirroring = false) ∧
    (∃ s ∈ [(links [2] { W with twin := { W.twin with st := .standby } } : State)], s.tSilent = false ∧ s.twin.st = .standby ∧ ∃ r ∈ [(31 : Nat)], r < s.host.cmdq.length) ∧
    (∃ s ∈ [((links [2] { W with twin := { W.twin with st := .standby } }).modCmdQ 31 fun q => { q with fetched := [Fetched.reset] } : State)], s.tSilent = false ∧ s.twin.st = .standby ∧ ∃ r ∈ [(31 : Nat)], ∃ f ∈ [(Fetched.reset : Fetched)], ∃ rest ∈ [([] : List Fetched)], r < s.host.cmdq.length ∧ (s.cmdQ r).fetched = f :: rest) ∧
    (∃ s ∈ [((links [2] { W with twin := { W.twin with st := .standby } }).modCtx 63 fun x => { x with opened := true, pics := [{ Picture.reset with id := 2, frame := some 5, leaves := [{ Leaf.reset with valid := true }] }] } : State)], s.tSilent = false ∧ s.twin.st = .standby ∧ ∃ c ∈ [(63 : Nat)], ∃ leaf ∈ [(0 : Nat)], ∃ p ∈ [({ Picture.reset with id := 2, frame := some 5, leaves := [{ Leaf.reset with valid := true }] } : Picture)], ((s.ctx c).pics.find? (fun (q : Picture) => q.frame = some (5 : BitVec 32)) = some p) ∧ (p.leaves.getD leaf Leaf.reset).valid = true ∧ (p.leaves.getD leaf Leaf.reset).signature ≠ (9 : BitVec 32)) ∧
    (∃ s ∈ [(links [2] { W with twin := { W.twin with st := .standby, inSync := true } } : State)], s.tSilent = false ∧ s.twin.st = .standby ∧ s.twin.inSync = true) ∧
    (∃ s ∈ [(links [2] ({ W with twin := { W.twin with inSync := true } }.modCmdQ 31 fun q => { q with unmirrored := 1 }) : State)], ∃ r ∈ [(31 : Nat)], s.tSilent = false ∧ s.mirroring = true ∧ 0 < (s.cmdQ r).unmirrored ∧ r < s.host.cmdq.length ∧ r < s.host.rings.length) := by
  iterate 13 refine ⟨by decide +kernel, ?_⟩
  decide +kernel

theorem test_witness_TouchPanelsScanAndReport :
    (∃ s ∈ [((win (fol 0 0x0D00 [(0x10,1,3),(0x11,1,1),(0x12,1,112),(0x13,1,64),(0x14,1,31),(0x15,1,2),(0x1C,4,16),(0x20,8,0x01F4006400640064),(0x28,8,0x001000100FFF0010),(0x30,2,16),(0x32,1,255),(0x33,1,8),(0x34,2,16384),(0x36,2,1),(0x38,2,10),(0x3A,2,10),(0x3C,2,4095)] W)).modPanel 3 fun p => { p with owner := some 2 } : State)], ∃ ring ∈ [(0 : Nat)], ∃ b ∈ [(bg s ring : Begun)], s.hasFolio ring 0x0D00 b ∧ ∃ c ∈ [(s.fctx ring b)], ∃ n ∈ [(c.u 0x10 1)], ∃ cfg ∈ [(panelCfgOf c)], ∃ p ∈ [(s.panel n)], n < 4 ∧ n < s.desk.panel.length ∧ c.u 0x11 1 < 2 ∧ cfg.ok = true ∧ c.u 0x14 1 < 32 ∧ c.u 0x3E 2 = 0 ∧ ∃ k ∈ [(2)], p.owner = some k ∧ k ≠ c.colour) ∧
    (∃ s ∈ [(win (fol 0 0x0D00 [(0x10,1,3),(0x11,1,0),(0x12,1,112),(0x13,1,64),(0x14,1,31),(0x15,1,2),(0x1C,4,16),(0x20,8,0x01F4006400640064),(0x28,8,0x001000100FFF0010),(0x30,2,16),(0x32,1,255),(0x33,1,8),(0x34,2,16384),(0x36,2,1),(0x38,2,10),(0x3A,2,10),(0x3C,2,4095)] W) : State)], ∃ ring ∈ [(0 : Nat)], ∃ b ∈ [(bg s ring : Begun)], s.hasFolio ring 0x0D00 b ∧ ∃ c ∈ [(s.fctx ring b)], ∃ n ∈ [(c.u 0x10 1)], ∃ cfg ∈ [(panelCfgOf c)], ∃ p ∈ [(s.panel n)], n < 4 ∧ n < s.desk.panel.length ∧ c.u 0x11 1 < 2 ∧ cfg.ok = true ∧ c.u 0x14 1 < 32 ∧ c.u 0x3E 2 = 0 ∧ (p.owner = none ∨ p.owner = some c.colour) ∧ evOk c s (c.u 0x16 1) = true ∧ c.u 0x11 1 = 0) ∧
    (∃ s ∈ [((win (fol 0 0x0D00 [(0x10,1,3),(0x11,1,1),(0x12,1,112),(0x13,1,64),(0x14,1,31),(0x15,1,2),(0x1C,4,16),(0x20,8,0x01F4006400640064),(0x28,8,0x001000100FFF0010),(0x30,2,16),(0x32,1,255),(0x33,1,8),(0x34,2,16384),(0x36,2,1),(0x38,2,10),(0x3A,2,10),(0x3C,2,4095)] W)).modWindow 0 fun x => { x with mapped := false } : State)], ∃ ring ∈ [(0 : Nat)], ∃ b ∈ [(bg s ring : Begun)], s.hasFolio ring 0x0D00 b ∧ ∃ c ∈ [(s.fctx ring b)], ∃ n ∈ [(c.u 0x10 1)], ∃ cfg ∈ [(panelCfgOf c)], ∃ p ∈ [(s.panel n)], n < 4 ∧ n < s.desk.panel.length ∧ c.u 0x11 1 < 2 ∧ cfg.ok = true ∧ c.u 0x14 1 < 32 ∧ c.u 0x3E 2 = 0 ∧ (p.owner = none ∨ p.owner = some c.colour) ∧ evOk c s (c.u 0x16 1) = true ∧ c.u 0x11 1 = 1 ∧ (s.winOk cfg.window c.colour = false ∨ s.winSpan cfg.window cfg.repOffset (cfg.repBlocks * 256) true = false)) ∧
    (∃ s ∈ [({ (win (fol 0 0x0D00 [(0x10,1,3),(0x11,1,1),(0x12,1,112),(0x13,1,64),(0x14,1,31),(0x15,1,2),(0x1C,4,16),(0x20,8,0x01F4006400640064),(0x28,8,0x001000100FFF0010),(0x30,2,16),(0x32,1,255),(0x33,1,8),(0x34,2,16384),(0x36,2,1),(0x38,2,10),(0x3A,2,10),(0x3C,2,4095)] W)) with twin := { W.twin with st := .standby } } : State)], ∃ ring ∈ [(0 : Nat)], ∃ b ∈ [(bg s ring : Begun)], s.hasFolio ring 0x0D00 b ∧ ∃ c ∈ [(s.fctx ring b)], ∃ n ∈ [(c.u 0x10 1)], ∃ cfg ∈ [(panelCfgOf c)], ∃ p ∈ [(s.panel n)], n < 4 ∧ n < s.desk.panel.length ∧ c.u 0x11 1 < 2 ∧ cfg.ok = true ∧ c.u 0x14 1 < 32 ∧ c.u 0x3E 2 = 0 ∧ (p.owner = none ∨ p.owner = some c.colour) ∧ evOk c s (c.u 0x16 1) = true ∧ c.u 0x11 1 = 1 ∧ s.winOk cfg.window c.colour = true ∧ s.winSpan cfg.window cfg.repOffset (cfg.repBlocks * 256) true = true ∧ s.role = 2) ∧
    (∃ s ∈ [(win (fol 0 0x0D00 [(0x10,1,3),(0x11,1,1),(0x12,1,112),(0x13,1,64),(0x14,1,31),(0x15,1,2),(0x1C,4,16),(0x20,8,0x01F4006400640064),(0x28,8,0x001000100FFF0010),(0x30,2,16),(0x32,1,255),(0x33,1,8),(0x34,2,16384),(0x36,2,1),(0x38,2,10),(0x3A,2,10),(0x3C,2,4095)] W) : State)], ∃ ring ∈ [(0 : Nat)], ∃ b ∈ [(bg s ring : Begun)], s.hasFolio ring 0x0D00 b ∧ ∃ c ∈ [(s.fctx ring b)], ∃ n ∈ [(c.u 0x10 1)], ∃ cfg ∈ [(panelCfgOf c)], ∃ p ∈ [(s.panel n)], n < 4 ∧ n < s.desk.panel.length ∧ c.u 0x11 1 < 2 ∧ cfg.ok = true ∧ c.u 0x14 1 < 32 ∧ c.u 0x3E 2 = 0 ∧ (p.owner = none ∨ p.owner = some c.colour) ∧ evOk c s (c.u 0x16 1) = true ∧ c.u 0x11 1 = 1 ∧ s.winOk cfg.window c.colour = true ∧ s.winSpan cfg.window cfg.repOffset (cfg.repBlocks * 256) true = true ∧ s.role ≠ 2 ∧ (p.st = .off ∨ p.st = .failed)) ∧
    (∃ s ∈ [((win (fol 0 0x0D00 [(0x10,1,3),(0x11,1,1),(0x12,1,112),(0x13,1,64),(0x14,1,31),(0x15,1,2),(0x1C,4,16),(0x20,8,0x01F4006400640064),(0x28,8,0x001000100FFF0010),(0x30,2,16),(0x32,1,255),(0x33,1,8),(0x34,2,16384),(0x36,2,1),(0x38,2,10),(0x3A,2,10),(0x3C,2,4095)] W)).modPanel 3 fun _ => pad : State)], ∃ ring ∈ [(0 : Nat)], ∃ b ∈ [(bg s ring : Begun)], s.hasFolio ring 0x0D00 b ∧ ∃ c ∈ [(s.fctx ring b)], ∃ n ∈ [(c.u 0x10 1)], ∃ cfg ∈ [(panelCfgOf c)], ∃ p ∈ [(s.panel n)], n < 4 ∧ n < s.desk.panel.length ∧ c.u 0x11 1 < 2 ∧ cfg.ok = true ∧ c.u 0x14 1 < 32 ∧ c.u 0x3E 2 = 0 ∧ (p.owner = none ∨ p.owner = some c.colour) ∧ evOk c s (c.u 0x16 1) = true ∧ c.u 0x11 1 = 1 ∧ s.winOk cfg.window c.colour = true ∧ s.winSpan cfg.window cfg.repOffset (cfg.repBlocks * 256) true = true ∧ s.role ≠ 2 ∧ p.st = .running ∧ p.next = none ∧ (p.cfg.rows ≠ cfg.rows ∨ p.cfg.cols ≠ cfg.cols ∨ p.cfg.driveV ≠ cfg.driveV ∨ p.cfg.freq ≠ cfg.freq)) ∧
    (∃ s ∈ [((win (fol 0 0x0D00 [(0x10,1,3),(0x11,1,1),(0x12,1,112),(0x13,1,64),(0x14,1,31),(0x15,1,2),(0x1C,4,16),(0x20,8,0x01F4006400640064),(0x28,8,0x001000100FFF0010),(0x30,2,16),(0x32,1,255),(0x33,1,8),(0x34,2,16384),(0x36,2,1),(0x38,2,10),(0x3A,2,10),(0x3C,2,4095)] W)).modPanel 3 fun _ => { pad with cfg := { pad.cfg with rows := 112, cols := 64, driveV := 2, freq := [100, 100, 100, 500] } } : State)], ∃ ring ∈ [(0 : Nat)], ∃ b ∈ [(bg s ring : Begun)], s.hasFolio ring 0x0D00 b ∧ ∃ c ∈ [(s.fctx ring b)], ∃ n ∈ [(c.u 0x10 1)], ∃ cfg ∈ [(panelCfgOf c)], ∃ p ∈ [(s.panel n)], n < 4 ∧ n < s.desk.panel.length ∧ c.u 0x11 1 < 2 ∧ cfg.ok = true ∧ c.u 0x14 1 < 32 ∧ c.u 0x3E 2 = 0 ∧ (p.owner = none ∨ p.owner = some c.colour) ∧ evOk c s (c.u 0x16 1) = true ∧ c.u 0x11 1 = 1 ∧ s.winOk cfg.window c.colour = true ∧ s.winSpan cfg.window cfg.repOffset (cfg.repBlocks * 256) true = true ∧ s.role ≠ 2 ∧ p.st = .running ∧ p.next = none ∧ p.cfg.rows = cfg.rows ∧ p.cfg.cols = cfg.cols ∧ p.cfg.driveV = cfg.driveV ∧ p.cfg.freq = cfg.freq) ∧
    (∃ s ∈ [(W.modPanel 3 fun p => { p with st := .starting, owner := some 1, cfg := { p.cfg with rows := 112, cols := 64 } } : State)], ∃ n ∈ [(3 : Nat)], ∃ openDrive ∈ [([1] : List Nat)], ∃ openSense ∈ [([2] : List Nat)], n < 4 ∧ n < s.desk.panel.length ∧ (s.panel n).st = .starting ∧ (s.island islTouch).isolated = false ∧ ∃ p ∈ [(s.panel n)], ∃ ds ∈ [((List.range p.cfg.rows).filter openDrive.contains)], ∃ ks ∈ [((List.range p.cfg.cols).filter openSense.contains)], ds.length + ks.length ≤ 16) ∧
    (∃ s ∈ [(W.modPanel 3 fun p => { p with st := .starting, owner := some 1, cfg := { p.cfg with rows := 112, cols := 64 } } : State)], ∃ n ∈ [(3 : Nat)], ∃ openDrive ∈ [(List.range 17 : List Nat)], ∃ openSense ∈ [([2] : List Nat)], n < 4 ∧ n < s.desk.panel.length ∧ (s.panel n).st = .starting ∧ (s.island islTouch).isolated = false ∧ ∃ p ∈ [(s.panel n)], ∃ ds ∈ [((List.range p.cfg.rows).filter openDrive.contains)], ∃ ks ∈ [((List.range p.cfg.cols).filter openSense.contains)], 16 < ds.length + ks.length) ∧
    (∃ q ∈ [({ pad with cfg := { pad.cfg with largeNodes := 4, guard := 2 } } : Panel)], ∃ dl ∈ [(List.replicate 5 300 ++ List.replicate 22 0 ++ [300] : List Int)], ∃ free ∈ [(fun _ => 0 : Nat → Nat)], ∃ h ∈ [((({ pad with cfg := { pad.cfg with largeNodes := 4, guard := 2 } } : Panel).find (List.replicate 5 300 ++ List.replicate 22 0 ++ [300]) (fun _ => 0)).hits.headD default : TouchHit)], h ∈ (q.find dl free).hits ∧ ∃ r ∈ [((({ pad with cfg := { pad.cfg with largeNodes := 4, guard := 2 } } : Panel).find (List.replicate 5 300 ++ List.replicate 22 0 ++ [300]) (fun _ => 0)).large.headD default)], r ∈ (q.find dl free).large ∧ ∃ m ∈ [(4)], m ∈ r) ∧
    (∃ s ∈ [(W.modPanel 3 fun _ => { pad with learn := 2 } : State)], ∃ n ∈ [(3 : Nat)], s.panelRuns n = true ∧ n < s.desk.panel.length ∧ ∃ p ∈ [(s.panel n)], (p.learn = 1 ∨ p.learn = 2)) ∧
    (∃ s ∈ [(win (W.modPanel 3 fun _ => pad) : State)], ∃ dt ∈ [(5 : Nat)], ∃ n ∈ [(3 : Nat)], ∃ raw ∈ [([] : List Int)], s.panelRuns n = true ∧ n < s.desk.panel.length ∧ ∃ p ∈ [(s.panel n)], ∃ q ∈ [(({ p.settle with raw := raw } : Panel).absorb (s.elapse dt).tb.now)], ∃ f ∈ [(q.find q.deltas fun i => Config.freeNat (s.tb.freeCtr + i))], p.learn ≠ 1 ∧ p.learn ≠ 2 ∧ f.hits = [] ∧ f.large = [] ∧ f.water = [] ∧ q.contacts = [] ∧ q.ending = [] ∧ q.cfg.glove = false ∧ q.hop = false ∧ q.exDrive = [] ∧ q.exSense = [] ∧ q.lastFlags = 0) ∧
    (∃ s ∈ [(win (W.modPanel 3 fun _ => pad) : State)], ∃ dt ∈ [(5 : Nat)], ∃ n ∈ [(3 : Nat)], ∃ raw ∈ [(dip : List Int)], s.panelRuns n = true ∧ n < s.desk.panel.length ∧ ∃ p ∈ [(s.panel n)], ∃ q ∈ [(({ p.settle with raw := raw } : Panel).absorb (s.elapse dt).tb.now)], ∃ f ∈ [(q.find q.deltas fun i => Config.freeNat (s.tb.freeCtr + i))], ∃ h ∈ [((({ pad with raw := dip } : Panel).find (({ pad with raw := dip } : Panel).deltas) (fun i => Config.freeNat (s.tb.freeCtr + i))).hits.headD default)], p.learn ≠ 1 ∧ p.learn ≠ 2 ∧ f.hits = [h] ∧ q.contacts = [] ∧ q.ending = [] ∧ s.winOk q.cfg.window (q.owner.getD 0) = true ∧ ∃ off ∈ [(q.cfg.repOffset + q.seq.toNat % max 1 q.cfg.repBlocks * 256)], s.winSpan q.cfg.window off 256 true = true) ∧
    (∃ s ∈ [(W.modPanel 3 fun _ => { pad with learn := 1 } : State)], ∃ n ∈ [(3 : Nat)], s.panelRuns n = true ∧ n < s.desk.panel.length ∧ ∃ p ∈ [(s.panel n)], (p.learn = 1 ∨ p.learn = 2)) ∧
    (∃ s ∈ [(W.modPanel 3 fun _ => pad : State)], ∃ n ∈ [(3 : Nat)], s.panelRuns n = true ∧ n < s.desk.panel.length ∧ ∃ p ∈ [(s.panel n)], p.learn ≠ 1 ∧ p.learn ≠ 2) ∧
    (∃ s ∈ [(W.modPanel 3 fun _ => { pad with base := [List.replicate 64 5, [], [], []], raw := List.replicate 64 9 } : State)], ∃ n ∈ [(3 : Nat)], s.panelRuns n = true ∧ n < s.desk.panel.length ∧ (s.panel n).learn = 0 ∧ (s.panel n).contacts = []) ∧
    (∃ s ∈ [(W : State)], ∃ n ∈ [(3 : Nat)], n < s.desk.panel.length ∧ s.panelRuns n = false) ∧
    (∃ s ∈ [(W.modPanel 3 fun _ => { pad with cfg := { pad.cfg with noiseLimit := 9 } } : State)], ∃ n ∈ [(3 : Nat)], ∃ j ∈ [(3 : Nat)], ∃ noise ∈ [([9,9,9,4] : List Nat)], s.panelRuns n = true ∧ n < s.desk.panel.length ∧ quietest noise (some (s.panel n).freqIdx) = some j ∧ ∃ p ∈ [(s.panel n)], ∃ here ∈ [(noise.getD p.freqIdx 0)], (here ≤ p.cfg.noiseLimit ∨ here < 2 * noise.getD j 0 ∨ p.hopped = true)) ∧
    (∃ s ∈ [(W.modPanel 3 fun _ => { pad with cfg := { pad.cfg with noiseLimit := 8 } } : State)], ∃ n ∈ [(3 : Nat)], ∃ j ∈ [(3 : Nat)], ∃ noise ∈ [([9,9,9,4] : List Nat)], s.panelRuns n = true ∧ n < s.desk.panel.length ∧ quietest noise (some (s.panel n).freqIdx) = some j ∧ ∃ p ∈ [(s.panel n)], ∃ here ∈ [(noise.getD p.freqIdx 0)], p.cfg.noiseLimit < here ∧ 2 * noise.getD j 0 ≤ here ∧ p.hopped = false) ∧
    (∃ s ∈ [((fol 0 0x0D01 [(0x10,1,3)] (W.modPanel 3 fun _ => pad)).modPanel 3 fun _ => { pad with owner := some 2 } : State)], ∃ ring ∈ [(0 : Nat)], ∃ b ∈ [(bg s ring : Begun)], s.hasFolio ring 0x0D01 b ∧ ∃ c ∈ [(s.fctx ring b)], ∃ n ∈ [(c.u 0x10 1)], ∃ p ∈ [(s.panel n)], n < 4 ∧ n < s.desk.panel.length ∧ ∃ k ∈ [(2)], p.owner = some k ∧ k ≠ c.colour) ∧
    (∃ s ∈ [(fol 0 0x0D01 [(0x10,1,3)] W : State)], ∃ ring ∈ [(0 : Nat)], ∃ b ∈ [(bg s ring : Begun)], s.hasFolio ring 0x0D01 b ∧ ∃ c ∈ [(s.fctx ring b)], ∃ n ∈ [(c.u 0x10 1)], ∃ p ∈ [(s.panel n)], n < 4 ∧ n < s.desk.panel.length ∧ (p.owner = none ∨ p.owner = some c.colour) ∧ p.st ≠ .running) ∧
    (∃ s ∈ [(fol 0 0x0D01 [(0x10,1,3)] (W.modPanel 3 fun _ => pad) : State)], ∃ ring ∈ [(0 : Nat)], ∃ b ∈ [(bg s ring : Begun)], s.hasFolio ring 0x0D01 b ∧ ∃ c ∈ [(s.fctx ring b)], ∃ n ∈ [(c.u 0x10 1)], ∃ p ∈ [(s.panel n)], n < 4 ∧ n < s.desk.panel.length ∧ (p.owner = none ∨ p.owner = some c.colour) ∧ p.st = .running) ∧
    (∃ s ∈ [(links [2] W : State)], s.twin.st = .active ∧ (s.spineLink 2).st = 2) ∧
    (∃ s ∈ [(links [2] ({ W with twin := { W.twin with st := .standby } }.modPanel 3 fun _ => { pad with st := .standby }) : State)], ∃ g ∈ [({ (default : DeskIn) with panels := [{ (default : PanelIn) with t := 3, seq := 9 }], levels := 5 } : DeskIn)], ∃ y ∈ [({ (default : PanelIn) with t := 3, seq := 9 } : PanelIn)], s.twin.st = .standby ∧ (s.spineLink 2).st = 2 ∧ g.panels = [y] ∧ (s.panel y.t).st = .standby) := by
  iterate 23 refine ⟨by decide +kernel, ?_⟩
  decide +kernel

theorem test_witness_ConsoleInputsAndOutputs :
    (∃ s ∈ [({ W with twin := { W.twin with st := .standby } } : State)], (s.island islTouch).isolated = false ∧ s.top.ready = true ∧ s.twin.st ≠ .active) ∧
    (∃ s ∈ [(W.modInput 31 fun x => { x with enable := true, owner := some 1, debounce := 10 } : State)], (s.island islTouch).isolated = false ∧ s.top.ready = true ∧ s.twin.st = .active) ∧
    (∃ s ∈ [((W.modInput 31 fun x => { x with enable := true, owner := some 1 }).modInput 31 fun x => { x with chatter := true, quiet := 10000 } : State)], ∃ dt ∈ [(10000000000 : Nat)], ∃ i ∈ [(31 : Nat)], s.deskServed = true ∧ i < 32 ∧ i < s.desk.input.length ∧ ∃ x ∈ [(s.input i)], x.chatter = true ∧ x.pair = false ∧ x.enable = true ∧ x.rawAt + x.quiet * 1000000 ≤ (s.elapse dt).tb.now) ∧
    (∃ s ∈ [((W.modInput 31 fun x => { x with enable := true, owner := some 1 }).modInput 31 fun x => { x with chatter := true, quiet := 10000 } : State)], ∃ dt ∈ [(9999999999 : Nat)], ∃ i ∈ [(31 : Nat)], s.deskServed = true ∧ i < 32 ∧ i < s.desk.input.length ∧ ∃ x ∈ [(s.input i)], x.chatter = true ∧ x.pair = false ∧ x.enable = true ∧ (s.elapse dt).tb.now < x.rawAt + x.quiet * 1000000) ∧
    (∃ s ∈ [(W.modInput 31 fun x => { x with enable := true, owner := some 1 } : State)], ∃ i ∈ [(31 : Nat)], s.deskServed = true ∧ i < 32 ∧ i < s.desk.input.length ∧ ∃ x ∈ [(s.input i)], x.stuckMs = 0) ∧
    (∃ s ∈ [((W.modInput 31 fun x => { x with enable := true, owner := some 1 }).modInput 31 fun x => { x with stuckMs := 86400000, level := true, raw := true } : State)], ∃ dt ∈ [(86400000000000 : Nat)], ∃ i ∈ [(31 : Nat)], s.deskServed = true ∧ i < 32 ∧ i < s.desk.input.length ∧ ∃ x ∈ [(s.input i)], x.enable = true ∧ s.pairOdd i = false ∧ x.stuckMs ≠ 0 ∧ x.unitLevel = 1 ∧ x.stuck = false ∧ x.activeAt + x.stuckMs * 1000000 ≤ (s.elapse dt).tb.now) ∧
    (∃ s ∈ [(W.modInput 30 fun x => { x with enable := true, pair := true, pairMs := 1000, pairLevel := 1, discAt := some 0, owner := some 1 })], ∃ dt ∈ [(999999999)], ∃ k ∈ [(15)], ∃ t₀ ∈ [(0)], s.deskServed = true ∧ k < 16 ∧ 2 * k < s.desk.input.length ∧ (s.input (2 * k)).pair = true ∧ (s.input (2 * k)).pairLevel ≠ 2 ∧ (s.input (2 * k)).discAt = some t₀ ∧ ∃ x ∈ [(s.input (2 * k))], (s.elapse dt).tb.now < t₀ + x.pairMs * 1000000) ∧
    (∃ s ∈ [(W.modInput 30 fun x => { x with enable := true, pair := true, pairMs := 1000, pairLevel := 1, discAt := some 0, owner := some 1 })], ∃ dt ∈ [(1000000000)], ∃ k ∈ [(15)], ∃ t₀ ∈ [(0)], s.deskServed = true ∧ k < 16 ∧ 2 * k < s.desk.input.length ∧ (s.input (2 * k)).pair = true ∧ (s.input (2 * k)).pairLevel ≠ 2 ∧ (s.input (2 * k)).discAt = some t₀ ∧ ∃ x ∈ [(s.input (2 * k))], t₀ + x.pairMs * 1000000 ≤ (s.elapse dt).tb.now) ∧
    (∃ s ∈ [((fol 0 0x0D10 [(0x10,1,31),(0x11,1,17),(0x13,1,1),(0x14,1,2),(0x16,2,10000),(0x18,2,10),(0x1A,2,1),(0x1C,4,1000)] W).modInput 31 fun x => { x with owner := some 2 } : State)], ∃ ring ∈ [(0 : Nat)], ∃ b ∈ [(bg s ring : Begun)], s.hasFolio ring 0x0D10 b ∧ ∃ c ∈ [(s.fctx ring b)], ∃ i ∈ [(c.u 0x10 1)], ∃ fl ∈ [(c.u 0x11 1)], ∃ x ∈ [(s.input i)], i < 32 ∧ i < s.desk.input.length ∧ fl < 32 ∧ (bitOf fl 2 = true → i % 2 = 0) ∧ fl / 8 % 4 < 3 ∧ c.u 0x12 1 < 32 ∧ 1 ≤ c.u 0x13 1 ∧ 2 ≤ c.u 0x14 1 ∧ c.u 0x15 1 = 0 ∧ within 10 10000 (c.u 0x16 2) = true ∧ within 10 60000 (c.u 0x18 2) = true ∧ within 1 1000 (c.u 0x1A 2) = true ∧ (c.u 0x1C 4 = 0 ∨ within 1000 86400000 (c.u 0x1C 4) = true) ∧ ∃ k ∈ [(2)], x.owner = some k ∧ k ≠ c.colour) ∧
    (∃ s ∈ [((fol 0 0x0D10 [(0x10,1,31),(0x11,1,17),(0x13,1,1),(0x14,1,2),(0x16,2,10000),(0x18,2,10),(0x1A,2,1),(0x1C,4,1000)] W).modInput 30 fun x => { x with pair := true } : State)], ∃ ring ∈ [(0 : Nat)], ∃ b ∈ [(bg s ring : Begun)], s.hasFolio ring 0x0D10 b ∧ ∃ c ∈ [(s.fctx ring b)], ∃ i ∈ [(c.u 0x10 1)], ∃ fl ∈ [(c.u 0x11 1)], ∃ x ∈ [(s.input i)], i < 32 ∧ i < s.desk.input.length ∧ fl < 32 ∧ (bitOf fl 2 = true → i % 2 = 0) ∧ fl / 8 % 4 < 3 ∧ c.u 0x12 1 < 32 ∧ 1 ≤ c.u 0x13 1 ∧ 2 ≤ c.u 0x14 1 ∧ c.u 0x15 1 = 0 ∧ within 10 10000 (c.u 0x16 2) = true ∧ within 10 60000 (c.u 0x18 2) = true ∧ within 1 1000 (c.u 0x1A 2) = true ∧ (c.u 0x1C 4 = 0 ∨ within 1000 86400000 (c.u 0x1C 4) = true) ∧ (x.owner = none ∨ x.owner = some c.colour) ∧ (bitOf fl 2 = true → (s.input (i + 1)).owner = none ∨ (s.input (i + 1)).owner = some c.colour) ∧ evOk c s (c.u 0x12 1) = true ∧ s.pairOdd i = true) ∧
    (∃ s ∈ [(fol 0 0x0D10 [(0x10,1,31),(0x11,1,17),(0x13,1,1),(0x14,1,2),(0x16,2,10000),(0x18,2,10),(0x1A,2,1),(0x1C,4,1000)] W : State)], ∃ ring ∈ [(0 : Nat)], ∃ b ∈ [(bg s ring : Begun)], s.hasFolio ring 0x0D10 b ∧ ∃ c ∈ [(s.fctx ring b)], ∃ i ∈ [(c.u 0x10 1)], ∃ fl ∈ [(c.u 0x11 1)], ∃ x ∈ [(s.input i)], i < 32 ∧ i < s.desk.input.length ∧ fl < 32 ∧ (bitOf fl 2 = true → i % 2 = 0) ∧ fl / 8 % 4 < 3 ∧ c.u 0x12 1 < 32 ∧ 1 ≤ c.u 0x13 1 ∧ 2 ≤ c.u 0x14 1 ∧ c.u 0x15 1 = 0 ∧ within 10 10000 (c.u 0x16 2) = true ∧ within 10 60000 (c.u 0x18 2) = true ∧ within 1 1000 (c.u 0x1A 2) = true ∧ (c.u 0x1C 4 = 0 ∨ within 1000 86400000 (c.u 0x1C 4) = true) ∧ (x.owner = none ∨ x.owner = some c.colour) ∧ (bitOf fl 2 = true → (s.input (i + 1)).owner = none ∨ (s.input (i + 1)).owner = some c.colour) ∧ evOk c s (c.u 0x12 1) = true ∧ s.pairOdd i = false) ∧
    (∃ s ∈ [(fol 0 0x0D20 [(0x10,1,15),(0x11,1,6)] W : State)], ∃ ring ∈ [(0 : Nat)], ∃ b ∈ [(bg s ring : Begun)], s.hasFolio ring 0x0D20 b ∧ ∃ c ∈ [(s.fctx ring b)], ∃ o ∈ [(c.u 0x10 1)], ∃ m ∈ [(c.u 0x11 1)], o < 16 ∧ o < s.desk.output.length ∧ 6 ≤ m) ∧
    (∃ s ∈ [((fol 0 0x0D20 [(0x10,1,15),(0x11,1,2),(0x14,2,10000),(0x16,2,1)] W).modOutput 15 fun x => { x with owner := some 2 } : State)], ∃ ring ∈ [(0 : Nat)], ∃ b ∈ [(bg s ring : Begun)], s.hasFolio ring 0x0D20 b ∧ ∃ c ∈ [(s.fctx ring b)], ∃ o ∈ [(c.u 0x10 1)], ∃ m ∈ [(c.u 0x11 1)], ∃ l ∈ [(c.u 0x13 1)], ∃ period ∈ [(c.u 0x14 2)], ∃ on_ ∈ [(c.u 0x16 2)], o < 16 ∧ o < s.desk.output.length ∧ m < 6 ∧ c.u 0x12 1 < 4 ∧ (m = 4 → l < 64) ∧ c.u 0x18 1 < 32 ∧ (m = 2 → within 20 10000 period = true ∧ within 1 period on_ = true) ∧ (m = 3 → within 1 10000 on_ = true) ∧ ∃ k ∈ [(2)], (s.output o).owner = some k ∧ k ≠ c.colour) ∧
    (∃ s ∈ [(fol 0 0x0D20 [(0x10,1,15),(0x11,1,4),(0x13,1,63)] (W.modLayer 63 fun x => { x with st := .idle, owner := 2 }) : State)], ∃ ring ∈ [(0 : Nat)], ∃ b ∈ [(bg s ring : Begun)], s.hasFolio ring 0x0D20 b ∧ ∃ c ∈ [(s.fctx ring b)], ∃ o ∈ [(c.u 0x10 1)], ∃ m ∈ [(c.u 0x11 1)], ∃ l ∈ [(c.u 0x13 1)], ∃ period ∈ [(c.u 0x14 2)], ∃ on_ ∈ [(c.u 0x16 2)], o < 16 ∧ o < s.desk.output.length ∧ m < 6 ∧ c.u 0x12 1 < 4 ∧ (m = 4 → l < 64) ∧ c.u 0x18 1 < 32 ∧ (m = 2 → within 20 10000 period = true ∧ within 1 period on_ = true) ∧ (m = 3 → within 1 10000 on_ = true) ∧ ((s.output o).owner = none ∨ (s.output o).owner = some c.colour) ∧ m = 4 ∧ (s.layer l).st ≠ .free ∧ (s.layer l).owner ≠ c.colour) ∧
    (∃ s ∈ [(fol 0 0x0D20 [(0x10,1,15),(0x11,1,2),(0x14,2,10000),(0x16,2,1)] W : State)], ∃ ring ∈ [(0 : Nat)], ∃ b ∈ [(bg s ring : Begun)], s.hasFolio ring 0x0D20 b ∧ ∃ c ∈ [(s.fctx ring b)], ∃ o ∈ [(c.u 0x10 1)], ∃ m ∈ [(c.u 0x11 1)], ∃ l ∈ [(c.u 0x13 1)], ∃ period ∈ [(c.u 0x14 2)], ∃ on_ ∈ [(c.u 0x16 2)], o < 16 ∧ o < s.desk.output.length ∧ m < 6 ∧ c.u 0x12 1 < 4 ∧ (m = 4 → l < 64) ∧ c.u 0x18 1 < 32 ∧ (m = 2 → within 20 10000 period = true ∧ within 1 period on_ = true) ∧ (m = 3 → within 1 10000 on_ = true) ∧ ((s.output o).owner = none ∨ (s.output o).owner = some c.colour) ∧ (m = 4 → (s.layer l).st = .free ∨ (s.layer l).owner = c.colour) ∧ evOk c s (c.u 0x18 1) = true) ∧
    (∃ s ∈ [(W.modOutput 15 fun x => { x with mode := .blink, period := 20, on_ := 5 } : State)], ∃ o ∈ [(15 : Nat)], s.deskServed = true ∧ o < 16 ∧ o < s.desk.output.length ∧ ∃ x ∈ [(s.output o)], x.mode = .blink ∧ 1 ≤ x.period) ∧
    (∃ s ∈ [(W.modOutput 15 fun x => { x with mode := .pulse, endsAt := some 5 } : State)], ∃ dt ∈ [(5 : Nat)], ∃ o ∈ [(15 : Nat)], s.deskServed = true ∧ o < 16 ∧ o < s.desk.output.length ∧ ∃ x ∈ [(s.output o)], ∃ t₀ ∈ [(5)], x.mode = .pulse ∧ x.endsAt = some t₀ ∧ t₀ ≤ (s.elapse dt).tb.now) ∧
    (∃ s ∈ [(W.modOutput 15 fun x => { x with mode := .pulse, endsAt := some 5 } : State)], ∃ dt ∈ [(4 : Nat)], ∃ o ∈ [(15 : Nat)], s.deskServed = true ∧ o < 16 ∧ o < s.desk.output.length ∧ ∃ x ∈ [(s.output o)], ∃ t₀ ∈ [(5)], x.mode = .pulse ∧ x.endsAt = some t₀ ∧ (s.elapse dt).tb.now < t₀) ∧
    (∃ s ∈ [(W.modOutput 15 fun x => { x with mode := .follow } : State)], ∃ o ∈ [(15 : Nat)], s.deskServed = true ∧ o < 16 ∧ o < s.desk.output.length ∧ ∃ x ∈ [(s.output o)], x.mode = .follow) ∧
    (∃ s ∈ [(W : State)], ∃ o ∈ [(15 : Nat)], s.deskServed = true ∧ o < 16 ∧ o < s.desk.output.length ∧ ∃ x ∈ [(s.output o)], x.mode ≠ .follow) ∧
    (∃ s ∈ [(W.modOutput 15 fun x => { x with hiZ := false } : State)], ∃ o ∈ [(15 : Nat)], s.deskServed = true ∧ o < 16 ∧ o < s.desk.output.length ∧ ∃ x ∈ [(s.output o)], x.hiZ = false) ∧
    (∃ s ∈ [(W.modOutput 15 fun x => { x with hiZ := true } : State)], ∃ o ∈ [(15 : Nat)], s.deskServed = true ∧ o < 16 ∧ o < s.desk.output.length ∧ ∃ x ∈ [(s.output o)], x.hiZ = true) := by
  iterate 21 refine ⟨by decide +kernel, ?_⟩
  decide +kernel

theorem test_witness_ClocksIslandsAndSupplies :
    (∃ s ∈ [({ W with pwr := { W.pwr with held := false, clkRef := 1, xa := ⟨true, false⟩, xb := ⟨true, false⟩, watch := [(0, 0xFF)] } } : State)], s.pwr.held = false ∧ s.pwr.clkRef = 1 ∧ s.pwr.xb.good = true ∧ s.fab.isl.length = 43 ∧ (s.flt.src.getD 8 FltSource.reset).fixed = true) ∧
    (∃ s ∈ [({ W with pwr := { W.pwr with held := false, clkRef := 1, xa := ⟨true, false⟩, xb := ⟨false, false⟩ } } : State)], s.pwr.held = false ∧ s.pwr.clkRef = 1 ∧ s.pwr.xb.good = false) ∧
    (∃ s ∈ [({ W with pwr := { W.pwr with held := false, clkRef := 1, xa := ⟨true, false⟩, xb := ⟨true, false⟩, watch := [(0, 0xFF)] } } : State)], ∃ abPpm ∈ [(-2000 : Int)], s.pwr.held = false ∧ abPpm.natAbs ≤ 2000) ∧
    (∃ s ∈ [({ W with pwr := { W.pwr with held := false, clkRef := 1, xa := ⟨true, false⟩, xb := ⟨true, false⟩, watch := [(0, 0xFF)] } } : State)], ∃ abPpm ∈ [(-2001 : Int)], s.pwr.held = false ∧ 2000 < abPpm.natAbs ∧ s.pwr.xa.stopped = false ∧ s.pwr.xb.stopped = false ∧ s.tb.lock ≠ .locked) ∧
    (∃ s ∈ [({ ({ W with pwr := { W.pwr with held := false, clkRef := 1, xa := ⟨true, false⟩, xb := ⟨true, false⟩, watch := [(0, 0xFF)] } }) with tb := { W.tb with lock := .locked } } : State)], ∃ abPpm ∈ [(-2001 : Int)], ∃ aPtp ∈ [(1001 : Int)], ∃ bPtp ∈ [(1000 : Int)], s.pwr.held = false ∧ 2000 < abPpm.natAbs ∧ s.pwr.xa.stopped = false ∧ s.pwr.xb.stopped = false ∧ s.tb.lock = .locked ∧ s.pwr.clkRef = 1 ∧ s.pwr.xb.good = true ∧ bPtp.natAbs ≤ 1000 ∧ 1000 < aPtp.natAbs) ∧
    (∃ s ∈ [({ W with pwr := { W.pwr with held := false, watch := [(0, 0xFF)] } } : State)], ∃ island ∈ [(42 : Nat)], s.pwr.held = false ∧ island < 43) ∧
    (∃ rail ∈ [(9 : Nat)], ∃ mv ∈ [(0 : Nat)], ∃ us ∈ [(10 : Nat)], ∃ nominal ∈ [((railNominal[9]?).getD 0 : Nat)], railNominal[rail]? = some nominal ∧ mv * 100 < nominal * 95 ∧ 10 ≤ us) ∧
    (∃ rail ∈ [(9 : Nat)], ∃ mv ∈ [(((railNominal[9]?).getD 0 * 95 + 99) / 100 : Nat)], ∃ us ∈ [(100 : Nat)], ∃ nominal ∈ [((railNominal[9]?).getD 0 : Nat)], railNominal[rail]? = some nominal ∧ nominal * 95 ≤ mv * 100 ∧ mv * 1000 < nominal * 975 ∧ 100 ≤ us) ∧
    (∃ rail ∈ [(9 : Nat)], ∃ mv ∈ [((railNominal[9]?).getD 0 : Nat)], ∃ nominal ∈ [((railNominal[9]?).getD 0 : Nat)], railNominal[rail]? = some nominal ∧ nominal * 975 ≤ mv * 1000) ∧
    (∃ s ∈ [(W : State)], ∃ island ∈ [(34 : Nat)], ∃ low ∈ [(true : Bool)], hasLowPoint island = true ∧ island < s.fab.isl.length ∧ (s.island island).power = .run ∧ (low = false ∨ s.hasWork island = false)) ∧
    (∃ s ∈ [(W.modCv 0 fun u => { u with owner := some 1 } : State)], ∃ island ∈ [(34 : Nat)], ∃ low ∈ [(true : Bool)], hasLowPoint island = true ∧ island < s.fab.isl.length ∧ (s.island island).power = .run ∧ low = true ∧ s.hasWork island = true) ∧
    (∃ s ∈ [(W.modIsland 34 fun x => { x with rated := false } : State)], ∃ island ∈ [(34 : Nat)], ∃ target ∈ [(.gated : GateTarget)], island < s.fab.isl.length ∧ (s.island island).power = .run ∧ (s.island island).isolated = false ∧ s.mayGate island target = true ∧ s.hasWork island = false ∧ (∀ x ∈ s.fab.xing, x.snd = island ∨ x.rcv = island → x.unacked = [])) ∧
    (∃ s ∈ [({ (W.modIsland 34 fun x => { x with rated := false }) with fab := { ((W.modIsland 34 fun x => { x with rated := false })).fab with xing := [{ Crossing.reset with snd := 34, rcv := 30, unacked := [XBlock.reset] }] } } : State)], ∃ island ∈ [(34 : Nat)], island < s.fab.isl.length ∧ (s.island island).power = .run ∧ (s.island island).isolated = false ∧ ∃ x ∈ [({ Crossing.reset with snd := 34, rcv := 30, unacked := [XBlock.reset] })], x ∈ s.fab.xing ∧ (x.snd = island ∨ x.rcv = island) ∧ x.unacked ≠ []) ∧
    (∃ s ∈ [(W.modIsland 42 fun x => { x with power := .gated } : State)], ∃ island ∈ [(42 : Nat)], island < s.fab.isl.length ∧ ((s.island island).power = .gated ∨ (s.island island).power = .retain)) ∧
    (∃ s ∈ [(fol 0 0x0E00 [(0x10,1,2)] W : State)], ∃ ring ∈ [(0 : Nat)], ∃ b ∈ [(bg s ring : Begun)], s.hasFolio ring 0x0E00 b ∧ ∃ c ∈ [(s.fctx ring b)], c.u 0x10 1 ≠ 1) ∧
    (∃ s ∈ [({ (fol 0 0x0E00 [(0x10,1,1)] { W with pwr := { W.pwr with clkRef := 2 } }) with sec := { W.sec with config := { W.sec.config with admin := 2 } } } : State)], ∃ ring ∈ [(0 : Nat)], ∃ b ∈ [(bg s ring : Begun)], s.hasFolio ring 0x0E00 b ∧ ∃ c ∈ [(s.fctx ring b)], c.u 0x10 1 = 1 ∧ c.colour ≠ s.admin) ∧
    (∃ s ∈ [(fol 0 0x0E00 [(0x10,1,1)] { W with pwr := { W.pwr with clkRef := 1 } } : State)], ∃ ring ∈ [(0 : Nat)], ∃ b ∈ [(bg s ring : Begun)], s.hasFolio ring 0x0E00 b ∧ ∃ c ∈ [(s.fctx ring b)], c.u 0x10 1 = 1 ∧ c.colour = s.admin ∧ s.pwr.clkRef = 1) ∧
    (∃ s ∈ [(fol 0 0x0E00 [(0x10,1,1)] { W with pwr := { W.pwr with clkRef := 2 } } : State)], ∃ ring ∈ [(0 : Nat)], ∃ counts ∈ [([8192, 8197, 8196] : List Nat)], ∃ b ∈ [(bg s ring : Begun)], s.hasFolio ring 0x0E00 b ∧ ∃ c ∈ [(s.fctx ring b)], c.u 0x10 1 = 1 ∧ c.colour = s.admin ∧ s.pwr.clkRef ≠ 1 ∧ crystalJudge counts = false) ∧
    (∃ s ∈ [(fol 0 0x0E00 [(0x10,1,1)] { W with pwr := { W.pwr with clkRef := 2 } } : State)], ∃ ring ∈ [(0 : Nat)], ∃ counts ∈ [([8192, 8193, 8196] : List Nat)], ∃ b ∈ [(bg s ring : Begun)], s.hasFolio ring 0x0E00 b ∧ ∃ c ∈ [(s.fctx ring b)], c.u 0x10 1 = 1 ∧ c.colour = s.admin ∧ s.pwr.clkRef ≠ 1 ∧ crystalJudge counts = true) ∧
    (∃ s ∈ [(fol 0 0x0E01 [(0x10,1,8)] W : State)], ∃ ring ∈ [(0 : Nat)], ∃ b ∈ [(bg s ring : Begun)], s.hasFolio ring 0x0E01 b ∧ ∃ c ∈ [(s.fctx ring b)], 1 ≤ c.u 0x10 1 ∧ c.u 0x10 1 ≤ 8 ∧ s.lifecycle ≠ .develop) ∧
    (∃ s ∈ [({ (dev (fol 0 0x0E01 [(0x10,1,8)] W)) with pwr := { W.pwr with fused := true } } : State)], ∃ ring ∈ [(0 : Nat)], ∃ b ∈ [(bg s ring : Begun)], s.hasFolio ring 0x0E01 b ∧ ∃ c ∈ [(s.fctx ring b)], 1 ≤ c.u 0x10 1 ∧ c.u 0x10 1 ≤ 8 ∧ s.lifecycle = .develop ∧ c.colour = s.admin ∧ s.pwr.fused = true) ∧
    (∃ s ∈ [(dev (fol 0 0x0E01 [(0x10,1,8)] W) : State)], ∃ ring ∈ [(0 : Nat)], ∃ b ∈ [(bg s ring : Begun)], s.hasFolio ring 0x0E01 b ∧ ∃ c ∈ [(s.fctx ring b)], 1 ≤ c.u 0x10 1 ∧ c.u 0x10 1 ≤ 8 ∧ s.lifecycle = .develop ∧ c.colour = s.admin ∧ s.pwr.fused = false) := by
  iterate 21 refine ⟨by decide +kernel, ?_⟩
  decide +kernel

theorem test_witness_HeatAndAgeingAreWatched :
    (∃ s ∈ [({ W with pwr := { W.pwr with held := false, watch := [(0, 0xFF)] } } : State)], ∃ sensor ∈ [(32 : Nat)], ∃ temp ∈ [(106 : Int)], sensor < 33 ∧ sensor < s.pwr.temp.length ∧ s.pwr.held = false ∧ 105 < temp ∧ s.pwr.hot = false) ∧
    (∃ s ∈ [({ W with pwr := { W.pwr with held := false, hot := true, coolSince := some 0, watch := [(0, 0xFF)], temp := List.replicate 33 99 } } : State)], ∃ dt ∈ [(1000000000 : Nat)], ∃ sensor ∈ [(32 : Nat)], ∃ temp ∈ [(99 : Int)], sensor < 33 ∧ sensor < s.pwr.temp.length ∧ s.pwr.held = false ∧ ∃ t₀ ∈ [(0)], s.pwr.hot = true ∧ (∀ x ∈ s.pwr.temp.modify sensor fun _ => temp, x < 100) ∧ s.pwr.coolSince = some t₀ ∧ t₀ + 1000000000 ≤ (s.elapse dt).tb.now) ∧
    (∃ s ∈ [({ W with pwr := { W.pwr with held := false, watch := [(0, 0xFF)] } } : State)], ∃ sensor ∈ [(32 : Nat)], ∃ temp ∈ [(105 : Int)], sensor < 33 ∧ sensor < s.pwr.temp.length ∧ s.pwr.held = false ∧ temp ≤ 105 ∧ s.pwr.hot = false) ∧
    (∃ s ∈ [({ W with pwr := { W.pwr with held := false, hot := true, watch := [(0, 0xFF)] } } : State)], ∃ sensor ∈ [(32 : Nat)], ∃ temp ∈ [(120 : Int)], sensor < 33 ∧ sensor < s.pwr.temp.length ∧ s.pwr.held = false ∧ 120 ≤ temp ∧ s.pwr.hot = true) ∧
    (∃ sensor ∈ [(0 : Nat)], ∃ temp ∈ [(130 : Int)], sensor < 33 ∧ 130 ≤ temp) ∧
    (∃ s ∈ [({ W with pwr := { W.pwr with tripped := true, held := true, coolSince := some 0 } } : State)], ∃ dt ∈ [(10000000000 : Nat)], s.pwr.tripped = true ∧ ∃ t₀ ∈ [(0)], s.pwr.coolSince = some t₀ ∧ t₀ + 10000000000 ≤ (s.elapse dt).tb.now) ∧
    (∃ s ∈ [({ W with pwr := { W.pwr with tripped := true, held := true, coolSince := none } } : State)], s.pwr.tripped = true ∧ s.pwr.coolSince = none) ∧
    (∃ s ∈ [({ W with pwr := { W.pwr with watch := [(0, 0xFF)] } }.modIsland 42 fun x => { x with vInit := 730, vPlan := 780 } : State)], ∃ island ∈ [(42 : Nat)], ∃ pairs ∈ [([PairIn.mk 100 101 0] : List PairIn)], ∃ slack ∈ [(25 : Int)], s.pwr.booted = true ∧ island < 43 ∧ island < s.fab.isl.length ∧ pairs ≠ [] ∧ (s.island island).power ≠ .off ∧ 25 ≤ slack ∧ slack ≤ 45) ∧
    (∃ s ∈ [({ W with pwr := { W.pwr with watch := [(0, 0xFF)] } }.modIsland 42 fun x => { x with vInit := 730, vPlan := 780 } : State)], ∃ island ∈ [(42 : Nat)], ∃ pairs ∈ [([PairIn.mk 100 101 0] : List PairIn)], ∃ slack ∈ [(24 : Int)], s.pwr.booted = true ∧ island < 43 ∧ island < s.fab.isl.length ∧ pairs ≠ [] ∧ (s.island island).power ≠ .off ∧ ∃ v ∈ [((s.island island).vPlan)], 0 ≤ slack ∧ slack < 25 ∧ v + 5 ≤ 860 ∧ (s.island island).vInit ≤ v + 5) ∧
    (∃ s ∈ [({ W with pwr := { W.pwr with watch := [(0, 0xFF)] } }.modIsland 42 fun x => { x with vInit := 730, vPlan := 780 } : State)], ∃ island ∈ [(42 : Nat)], ∃ pairs ∈ [([PairIn.mk 100 101 0] : List PairIn)], ∃ slack ∈ [(-1 : Int)], s.pwr.booted = true ∧ island < 43 ∧ island < s.fab.isl.length ∧ pairs ≠ [] ∧ (s.island island).power ≠ .off ∧ ∃ v ∈ [((s.island island).vPlan)], slack < 0 ∧ v + 10 ≤ 860 ∧ (s.island island).vInit ≤ v + 10 ∧ (s.island island).isolated = false ∧ 10 < s.flt.src.length) ∧
    (∃ s ∈ [(({ W with pwr := { W.pwr with watch := [(0, 0xFF)] } }.modIsland 42 fun x => { x with vInit := 730, vPlan := 780 }).modIsland 42 fun x => { x with vInit := 730, vPlan := 856 } : State)], ∃ island ∈ [(42 : Nat)], ∃ pairs ∈ [([PairIn.mk 100 101 0] : List PairIn)], ∃ slack ∈ [(24 : Int)], s.pwr.booted = true ∧ island < 43 ∧ island < s.fab.isl.length ∧ pairs ≠ [] ∧ (s.island island).power ≠ .off ∧ ∃ v ∈ [((s.island island).vPlan)], 0 ≤ slack ∧ slack < 25 ∧ 860 < v + 5 ∧ (s.island island).vInit ≤ 860) ∧
    (∃ s ∈ [(({ W with pwr := { W.pwr with watch := [(0, 0xFF)] } }.modIsland 42 fun x => { x with vInit := 730, vPlan := 780 }).modIsland 42 fun x => { x with vInit := 730, vPlan := 735, aboveSince := some 0 } : State)], ∃ dt ∈ [(86400000000000 : Nat)], ∃ island ∈ [(42 : Nat)], ∃ pairs ∈ [([PairIn.mk 100 101 0] : List PairIn)], ∃ slack ∈ [(46 : Int)], s.pwr.booted = true ∧ island < 43 ∧ island < s.fab.isl.length ∧ pairs ≠ [] ∧ (s.island island).power ≠ .off ∧ ∃ v ∈ [((s.island island).vPlan)], ∃ t₀ ∈ [(0)], 45 < slack ∧ (s.island island).aboveSince = some t₀ ∧ t₀ + 86400000000000 ≤ (s.elapse dt).tb.now ∧ (s.island island).vInit + 5 ≤ v ∧ v ≤ 865) ∧
    (∃ s ∈ [(W.modIsland 42 fun x => { x with vInit := 730, vPlan := 780, recheck := true } : State)], ∃ island ∈ [(42 : Nat)], ∃ slack ∈ [(45 : Int)], (s.island island).recheck = true ∧ island < s.fab.isl.length ∧ 25 ≤ slack ∧ slack ≤ 45) ∧
    (∃ s ∈ [(W.modIsland 42 fun x => { x with vInit := 730, vPlan := 780, recheck := true } : State)], ∃ island ∈ [(42 : Nat)], ∃ slack ∈ [(0 : Int)], (s.island island).recheck = true ∧ island < s.fab.isl.length ∧ ∃ v ∈ [((s.island island).vPlan)], 0 ≤ slack ∧ slack < 25 ∧ v + 5 ≤ 860 ∧ (s.island island).vInit ≤ v + 5) := by
  iterate 13 refine ⟨by decide +kernel, ?_⟩
  decide +kernel

theorem test_witness_LanesAdaptTestAndCount :
    (∃ s ∈ [(W.modLane 12 3 fun x => { x with rx := .active, frozen := true } : State)], ∃ q ∈ [(12 : Nat)], ∃ l ∈ [(3 : Nat)], q < s.lanes.quad.length ∧ l < (s.quad q).lane.length ∧ ∃ y ∈ [(s.lane q l)], (y.listens = false ∨ y.frozen = true)) ∧
    (∃ s ∈ [(W.modLane 12 3 fun x => { x with rx := .active } : State)], ∃ q ∈ [(12 : Nat)], ∃ l ∈ [(3 : Nat)], q < s.lanes.quad.length ∧ l < (s.quad q).lane.length ∧ ∃ y ∈ [(s.lane q l)], y.listens = true ∧ y.frozen = false) ∧
    (∃ s ∈ [(W.modLane 12 3 fun x => { x with rx := .active } : State)], ∃ q ∈ [(12 : Nat)], ∃ l ∈ [(3 : Nat)], q < s.lanes.quad.length ∧ l < (s.quad q).lane.length ∧ ∃ y ∈ [(s.lane q l)], (y.frozen = false ∨ y.heldByTest = true)) ∧
    (∃ s ∈ [(W.modLane 12 3 fun x => { x with rx := .active, frozen := true, frozenAt := 0, frozenTemp := 0, saved := some (3, 4) } : State)], ∃ dt ∈ [(10000000 : Nat)], ∃ q ∈ [(12 : Nat)], ∃ l ∈ [(3 : Nat)], ∃ temp ∈ [(-10 : Int)], q < s.lanes.quad.length ∧ l < (s.quad q).lane.length ∧ ∃ y ∈ [(s.lane q l)], y.frozen = true ∧ y.heldByTest = false ∧ y.listens = true ∧ (s.elapse dt).tb.now ≤ y.frozenAt + 10000000 ∧ (temp - y.frozenTemp).natAbs ≤ 10) ∧
    (∃ s ∈ [(W.modLane 12 3 fun x => { x with rx := .active, frozen := true, frozenAt := 0, frozenTemp := 0, saved := some (3, 4) } : State)], ∃ dt ∈ [(10000000 : Nat)], ∃ q ∈ [(12 : Nat)], ∃ l ∈ [(3 : Nat)], ∃ temp ∈ [(-11 : Int)], q < s.lanes.quad.length ∧ l < (s.quad q).lane.length ∧ ∃ y ∈ [(s.lane q l)], y.frozen = true ∧ y.heldByTest = false ∧ y.listens = true ∧ (y.frozenAt + 10000000 < (s.elapse dt).tb.now ∨ 10 < (temp - y.frozenTemp).natAbs)) ∧
    (∃ s ∈ [(W.modLane 12 3 fun x => { x with rx := .active, cdr := true } : State)], ∃ q ∈ [(12 : Nat)], ∃ l ∈ [(3 : Nat)], l < 4 ∧ q < s.lanes.quad.length ∧ l < (s.quad q).lane.length ∧ ∃ y ∈ [(s.lane q l)], (y.listens = false ∨ y.frozen = true ∨ y.cdr = true ∨ y.test.isSome = true)) ∧
    (∃ s ∈ [(links [2] (W.modLane 11 3 fun x => { x with rx := .active }) : State)], ∃ q ∈ [(11 : Nat)], ∃ l ∈ [(3 : Nat)], l < 4 ∧ q < s.lanes.quad.length ∧ l < (s.quad q).lane.length ∧ ∃ y ∈ [(s.lane q l)], y.listens = true ∧ y.frozen = false ∧ y.cdr = false ∧ y.test = none ∧ y.lost = false ∧ 9 ≤ q ∧ q ≤ 11 ∧ (s.spineLink (q - 9)).st = 2 ∧ q - 9 < s.gath.link.length) ∧
    (∃ s ∈ [((W.modLane 7 3 fun x => { x with rx := .active }).modDpPort 7 fun x => { x with st := .up, mode := 2 } : State)], ∃ q ∈ [(7 : Nat)], ∃ l ∈ [(3 : Nat)], l < 4 ∧ q < s.lanes.quad.length ∧ l < (s.quad q).lane.length ∧ ∃ y ∈ [(s.lane q l)], y.listens = true ∧ y.frozen = false ∧ y.cdr = false ∧ y.test = none ∧ y.lost = false ∧ q < 8 ∧ (s.dpPort q).st = .up ∧ q < s.comp.port.length) ∧
    (∃ s ∈ [((W.modLane 8 3 fun x => { x with rx := .active }).modPort 3 fun x => { x with link := true, mode := 1 } : State)], ∃ q ∈ [(8 : Nat)], ∃ l ∈ [(3 : Nat)], l < 4 ∧ q < s.lanes.quad.length ∧ l < (s.quad q).lane.length ∧ ∃ y ∈ [(s.lane q l)], y.listens = true ∧ y.frozen = false ∧ y.cdr = false ∧ y.test = none ∧ y.lost = false ∧ q = 8 ∧ (s.port l).link = true ∧ l < s.net.ports.length) ∧
    (∃ s ∈ [(W : State)], ∃ q ∈ [(12 : Nat)], q < 13 ∧ q < s.lanes.quad.length ∧ (s.quad q).pllLock = false) ∧
    (∃ s ∈ [(W.modQuad 12 fun x => { x with pllLock := true } : State)], ∃ q ∈ [(12 : Nat)], q < 13 ∧ q < s.lanes.quad.length ∧ (s.quad q).pllLock = true) ∧
    (∃ s ∈ [(W : State)], ∃ q ∈ [(7 : Nat)], ∃ l ∈ [(3 : Nat)], ∃ target ∈ [(.sleep : LaneTarget)], q < 13 ∧ l < 4 ∧ q < s.lanes.quad.length ∧ l < (s.quad q).lane.length ∧ q ≠ 12 ∧ txOf target ≠ (s.laneUser q l).1) ∧
    (∃ s ∈ [(W : State)], ∃ q ∈ [(12 : Nat)], ∃ l ∈ [(3 : Nat)], ∃ target ∈ [(.sleep : LaneTarget)], q < 13 ∧ l < 4 ∧ q < s.lanes.quad.length ∧ l < (s.quad q).lane.length ∧ (q = 12 ∨ txOf target = (s.laneUser q l).1) ∧ (s.lane q l).test = none) ∧
    (∃ s ∈ [(W : State)], ∃ q ∈ [(12 : Nat)], ∃ l ∈ [(3 : Nat)], ∃ target ∈ [(.idle : LaneTarget)], q < 13 ∧ l < 4 ∧ q < s.lanes.quad.length ∧ l < (s.quad q).lane.length ∧ target = .idle) ∧
    (∃ s ∈ [(W : State)], ∃ q ∈ [(12 : Nat)], ∃ l ∈ [(3 : Nat)], ∃ target ∈ [(.sleep : LaneTarget)], q < 13 ∧ l < 4 ∧ q < s.lanes.quad.length ∧ l < (s.quad q).lane.length ∧ ∃ r ∈ [(.sleep : RxSt)], rxOf target = some r ∧ (q = 12 ∨ r = (s.laneUser q l).2) ∧ (s.lane q l).rx ≠ r ∧ (s.lane q l).test = none) ∧
    (∃ s ∈ [({ (fol 0 0x0F00 [(0x10,1,11),(0x11,1,15),(0x12,1,4),(0x14,1,1),(0x15,1,2),(0x16,1,30),(0x17,1,0xFF),(0x18,4,3600000)] W) with sec := { W.sec with config := { W.sec.config with admin := 2 } } } : State)], ∃ ring ∈ [(0 : Nat)], ∃ b ∈ [(bg s ring : Begun)], s.hasFolio ring 0x0F00 b ∧ ∃ c ∈ [(s.fctx ring b)], ∃ q ∈ [(c.u 0x10 1)], ∃ mask ∈ [(c.u 0x11 1)], ∃ mode ∈ [(c.u 0x12 1)], ∃ inject ∈ [(c.u 0x15 1)], q < 13 ∧ mask < 16 ∧ mode < 5 ∧ c.u 0x13 1 % 4 < 3 ∧ c.u 0x13 1 / 4 % 32 = 0 ∧ inject < 3 ∧ (inject = 2 → 10 ≤ c.u 0x16 1 ∧ c.u 0x16 1 ≤ 30) ∧ (c.u 0x17 1 < 16 ∨ c.u 0x17 1 = 0xFF) ∧ c.u 0x18 4 ≤ 3600000 ∧ ¬ (mode = 0 ∧ inject = 1) ∧ c.colour ≠ s.admin) ∧
    (∃ s ∈ [(fol 0 0x0F00 [(0x10,1,12),(0x11,1,15),(0x12,1,4),(0x14,1,1)] W : State)], ∃ ring ∈ [(0 : Nat)], ∃ b ∈ [(bg s ring : Begun)], s.hasFolio ring 0x0F00 b ∧ ∃ c ∈ [(s.fctx ring b)], ∃ q ∈ [(c.u 0x10 1)], ∃ mask ∈ [(c.u 0x11 1)], ∃ mode ∈ [(c.u 0x12 1)], ∃ inject ∈ [(c.u 0x15 1)], q < 13 ∧ mask < 16 ∧ mode < 5 ∧ c.u 0x13 1 % 4 < 3 ∧ c.u 0x13 1 / 4 % 32 = 0 ∧ inject < 3 ∧ (inject = 2 → 10 ≤ c.u 0x16 1 ∧ c.u 0x16 1 ≤ 30) ∧ (c.u 0x17 1 < 16 ∨ c.u 0x17 1 = 0xFF) ∧ c.u 0x18 4 ≤ 3600000 ∧ ¬ (mode = 0 ∧ inject = 1) ∧ c.colour = s.admin ∧ (q = 12 ∨ (q < 8 ∧ (mode = 1 ∨ mode = 4)) ∨ (mode ≠ 0 ∧ rateGiven q (c.u 0x14 1) = false))) ∧
    (∃ s ∈ [(links [2] ((fol 0 0x0F00 [(0x10,1,11),(0x11,1,15),(0x12,1,4),(0x14,1,1),(0x15,1,2),(0x16,1,30),(0x17,1,0xFF),(0x18,4,3600000)] W)) : State)], ∃ ring ∈ [(0 : Nat)], ∃ b ∈ [(bg s ring : Begun)], s.hasFolio ring 0x0F00 b ∧ ∃ c ∈ [(s.fctx ring b)], ∃ q ∈ [(c.u 0x10 1)], ∃ mask ∈ [(c.u 0x11 1)], ∃ mode ∈ [(c.u 0x12 1)], ∃ inject ∈ [(c.u 0x15 1)], q < 13 ∧ mask < 16 ∧ mode < 5 ∧ c.u 0x13 1 % 4 < 3 ∧ c.u 0x13 1 / 4 % 32 = 0 ∧ inject < 3 ∧ (inject = 2 → 10 ≤ c.u 0x16 1 ∧ c.u 0x16 1 ≤ 30) ∧ (c.u 0x17 1 < 16 ∨ c.u 0x17 1 = 0xFF) ∧ c.u 0x18 4 ≤ 3600000 ∧ ¬ (mode = 0 ∧ inject = 1) ∧ c.colour = s.admin ∧ q ≠ 12 ∧ (¬ (q < 8 ∧ (mode = 1 ∨ mode = 4))) ∧ mode ≠ 0 ∧ rateGiven q (c.u 0x14 1) = true ∧ ((q < 8 ∧ (s.dpPort q).st ≠ .off) ∨ (q = 8 ∧ ∃ l, l < 4 ∧ bitOf mask l = true ∧ (s.port l).mode ≠ 0) ∨ (9 ≤ q ∧ (s.spineLink (q - 9)).st = 2 ∧ s.lifecycle ≠ .develop) ∨ (q = 11 ∧ s.twin.st = .active ∧ s.twin.inSync = true))) ∧
    (∃ s ∈ [(fol 0 0x0F00 [(0x10,1,11),(0x11,1,15),(0x12,1,4),(0x14,1,1),(0x15,1,2),(0x16,1,30),(0x17,1,0xFF),(0x18,4,3600000)] W : State)], ∃ ring ∈ [(0 : Nat)], ∃ b ∈ [(bg s ring : Begun)], s.hasFolio ring 0x0F00 b ∧ ∃ c ∈ [(s.fctx ring b)], ∃ q ∈ [(c.u 0x10 1)], ∃ mask ∈ [(c.u 0x11 1)], ∃ mode ∈ [(c.u 0x12 1)], ∃ inject ∈ [(c.u 0x15 1)], q < 13 ∧ mask < 16 ∧ mode < 5 ∧ c.u 0x13 1 % 4 < 3 ∧ c.u 0x13 1 / 4 % 32 = 0 ∧ inject < 3 ∧ (inject = 2 → 10 ≤ c.u 0x16 1 ∧ c.u 0x16 1 ≤ 30) ∧ (c.u 0x17 1 < 16 ∨ c.u 0x17 1 = 0xFF) ∧ c.u 0x18 4 ≤ 3600000 ∧ ¬ (mode = 0 ∧ inject = 1) ∧ c.colour = s.admin ∧ q ≠ 12 ∧ (¬ (q < 8 ∧ (mode = 1 ∨ mode = 4))) ∧ mode ≠ 0 ∧ rateGiven q (c.u 0x14 1) = true ∧ s.testBusy q mask = false ∧ q < s.lanes.quad.length ∧ (q < 9 ∨ (s.spineLink (q - 9)).st ≠ 2)) ∧
    (∃ s ∈ [(dev (links [2] ((fol 0 0x0F00 [(0x10,1,11),(0x11,1,15),(0x12,1,4),(0x14,1,1),(0x15,1,2),(0x16,1,30),(0x17,1,0xFF),(0x18,4,3600000)] W))) : State)], ∃ ring ∈ [(0 : Nat)], ∃ b ∈ [(bg s ring : Begun)], s.hasFolio ring 0x0F00 b ∧ ∃ c ∈ [(s.fctx ring b)], ∃ q ∈ [(c.u 0x10 1)], ∃ mask ∈ [(c.u 0x11 1)], ∃ mode ∈ [(c.u 0x12 1)], ∃ inject ∈ [(c.u 0x15 1)], q < 13 ∧ mask < 16 ∧ mode < 5 ∧ c.u 0x13 1 % 4 < 3 ∧ c.u 0x13 1 / 4 % 32 = 0 ∧ inject < 3 ∧ (inject = 2 → 10 ≤ c.u 0x16 1 ∧ c.u 0x16 1 ≤ 30) ∧ (c.u 0x17 1 < 16 ∨ c.u 0x17 1 = 0xFF) ∧ c.u 0x18 4 ≤ 3600000 ∧ ¬ (mode = 0 ∧ inject = 1) ∧ c.colour = s.admin ∧ q ≠ 12 ∧ (¬ (q < 8 ∧ (mode = 1 ∨ mode = 4))) ∧ mode ≠ 0 ∧ rateGiven q (c.u 0x14 1) = true ∧ s.testBusy q mask = false ∧ q < s.lanes.quad.length ∧ 9 ≤ q ∧ (s.spineLink (q - 9)).st = 2 ∧ mask ≠ 0 ∧ q - 9 < s.gath.link.length) ∧
    (∃ s ∈ [((fol 0 0x0F00 [(0x10,1,11),(0x11,1,8)] W).modLane 11 3 fun x => { x with test := some LaneTest.reset } : State)], ∃ ring ∈ [(0 : Nat)], ∃ b ∈ [(bg s ring : Begun)], s.hasFolio ring 0x0F00 b ∧ ∃ c ∈ [(s.fctx ring b)], ∃ q ∈ [(c.u 0x10 1)], ∃ mask ∈ [(c.u 0x11 1)], ∃ mode ∈ [(c.u 0x12 1)], ∃ inject ∈ [(c.u 0x15 1)], q < 13 ∧ mask < 16 ∧ mode < 5 ∧ c.u 0x13 1 % 4 < 3 ∧ c.u 0x13 1 / 4 % 32 = 0 ∧ inject < 3 ∧ (inject = 2 → 10 ≤ c.u 0x16 1 ∧ c.u 0x16 1 ≤ 30) ∧ (c.u 0x17 1 < 16 ∨ c.u 0x17 1 = 0xFF) ∧ c.u 0x18 4 ≤ 3600000 ∧ ¬ (mode = 0 ∧ inject = 1) ∧ c.colour = s.admin ∧ q < 12 ∧ mode = 0) ∧
    (∃ s ∈ [(dev (fol 0 0x0F00 [(0x10,1,11),(0x11,1,8),(0x15,1,1)] W) : State)], ∃ ring ∈ [(0 : Nat)], ∃ b ∈ [(bg s ring : Begun)], s.hasFolio ring 0x0F00 b ∧ ∃ c ∈ [(s.fctx ring b)], ∃ q ∈ [(c.u 0x10 1)], ∃ mask ∈ [(c.u 0x11 1)], ∃ mode ∈ [(c.u 0x12 1)], ∃ inject ∈ [(c.u 0x15 1)], q < 13 ∧ mask < 16 ∧ mode < 5 ∧ c.u 0x13 1 % 4 < 3 ∧ c.u 0x13 1 / 4 % 32 = 0 ∧ inject < 3 ∧ (inject = 2 → 10 ≤ c.u 0x16 1 ∧ c.u 0x16 1 ≤ 30) ∧ (c.u 0x17 1 < 16 ∨ c.u 0x17 1 = 0xFF) ∧ c.u 0x18 4 ≤ 3600000 ∧ mode = 0 ∧ inject = 1 ∧ 9 ≤ q ∧ q < 12 ∧ s.lifecycle = .develop ∧ c.colour = s.admin ∧ (s.spineLink (q - 9)).st ≠ 2) ∧
    (∃ s ∈ [(links [2] ((dev (fol 0 0x0F00 [(0x10,1,11),(0x11,1,8),(0x15,1,1)] W))) : State)], ∃ ring ∈ [(0 : Nat)], ∃ b ∈ [(bg s ring : Begun)], s.hasFolio ring 0x0F00 b ∧ ∃ c ∈ [(s.fctx ring b)], ∃ q ∈ [(c.u 0x10 1)], ∃ mask ∈ [(c.u 0x11 1)], ∃ mode ∈ [(c.u 0x12 1)], ∃ inject ∈ [(c.u 0x15 1)], q < 13 ∧ mask < 16 ∧ mode < 5 ∧ c.u 0x13 1 % 4 < 3 ∧ c.u 0x13 1 / 4 % 32 = 0 ∧ inject < 3 ∧ (inject = 2 → 10 ≤ c.u 0x16 1 ∧ c.u 0x16 1 ≤ 30) ∧ (c.u 0x17 1 < 16 ∨ c.u 0x17 1 = 0xFF) ∧ c.u 0x18 4 ≤ 3600000 ∧ mode = 0 ∧ inject = 1 ∧ 9 ≤ q ∧ q < 12 ∧ s.lifecycle = .develop ∧ c.colour = s.admin ∧ (s.spineLink (q - 9)).st = 2) ∧
    (∃ s ∈ [(W.modLane 11 3 fun y => { y with test := some { LaneTest.reset with mode := 3 } } : State)], ∃ q ∈ [(11 : Nat)], ∃ l ∈ [(3 : Nat)], ∃ x ∈ [({ LaneTest.reset with mode := 3 } : LaneTest)], q < s.lanes.quad.length ∧ l < (s.quad q).lane.length ∧ (s.lane q l).test = some x ∧ x.mode = 3) ∧
    (∃ s ∈ [(W.modLane 11 3 fun y => { y with test := some { LaneTest.reset with mode := 2, duration := 5, runFrom := some 0 } } : State)], ∃ q ∈ [(11 : Nat)], ∃ l ∈ [(3 : Nat)], ∃ x ∈ [({ LaneTest.reset with mode := 2, duration := 5, runFrom := some 0 } : LaneTest)], q < s.lanes.quad.length ∧ l < (s.quad q).lane.length ∧ (s.lane q l).test = some x ∧ x.mode ≠ 3) ∧
    (∃ s ∈ [(W.modLane 11 3 fun y => { y with test := some { LaneTest.reset with mode := 3 } } : State)], ∃ q ∈ [(11 : Nat)], ∃ l ∈ [(3 : Nat)], ∃ x ∈ [({ LaneTest.reset with mode := 3 } : LaneTest)], q < s.lanes.quad.length ∧ l < (s.quad q).lane.length ∧ (s.lane q l).test = some x ∧ (x.runFrom = none ∨ x.duration = 0)) ∧
    (∃ s ∈ [(W.modLane 11 3 fun y => { y with test := some { LaneTest.reset with mode := 2, duration := 5, runFrom := some 0 } } : State)], ∃ dt ∈ [(5 : Nat)], ∃ q ∈ [(11 : Nat)], ∃ l ∈ [(3 : Nat)], ∃ x ∈ [({ LaneTest.reset with mode := 2, duration := 5, runFrom := some 0 } : LaneTest)], q < s.lanes.quad.length ∧ l < (s.quad q).lane.length ∧ (s.lane q l).test = some x ∧ ∃ t₀ ∈ [(0)], x.runFrom = some t₀ ∧ x.duration ≠ 0 ∧ q < 12 ∧ (s.elapse dt).tb.now < t₀ + x.duration * 1000000) ∧
    (∃ s ∈ [(W.modLane 11 3 fun y => { y with test := some { LaneTest.reset with mode := 2, duration := 5, runFrom := some 0 } } : State)], ∃ dt ∈ [(5000000 : Nat)], ∃ q ∈ [(11 : Nat)], ∃ l ∈ [(3 : Nat)], ∃ x ∈ [({ LaneTest.reset with mode := 2, duration := 5, runFrom := some 0 } : LaneTest)], q < s.lanes.quad.length ∧ l < (s.quad q).lane.length ∧ (s.lane q l).test = some x ∧ ∃ t₀ ∈ [(0)], x.runFrom = some t₀ ∧ x.duration ≠ 0 ∧ q < 12 ∧ t₀ + x.duration * 1000000 ≤ (s.elapse dt).tb.now) ∧
    (∃ s ∈ [(W.modLane 12 3 fun x => { x with rx := .active, errors := 3 } : State)], ∃ q ∈ [(12 : Nat)], ∃ l ∈ [(3 : Nat)], ∃ g ∈ [({ (default : LaneReadIn) with errors := 4, bits := 9 } : LaneReadIn)], q < 13 ∧ l < 4 ∧ q < s.lanes.quad.length ∧ l < (s.quad q).lane.length ∧ ∃ y ∈ [(s.lane q l)], g.cdrLoss = 0 ∧ y.cdrLoss = 0 ∧ (q < 8 ∨ (g.codeErr = 0 ∧ y.codeErr = 0))) ∧
    (∃ s ∈ [(W : State)], ∃ q ∈ [(8 : Nat)], ∃ l ∈ [(3 : Nat)], ∃ g ∈ [({ (default : LaneReadIn) with cdrLoss := 4, bits := 9 } : LaneReadIn)], q < 13 ∧ l < 4 ∧ q < s.lanes.quad.length ∧ l < (s.quad q).lane.length ∧ q < 13 ∧ (g.cdrLoss ≠ 0 ∨ g.codeErr ≠ 0)) := by
  iterate 29 refine ⟨by decide +kernel, ?_⟩
  decide +kernel

theorem test_witness_FaultsAreCountedAndActedOn :
    (∃ s ∈ [(W : State)], ∃ source ∈ [(1 : Nat)], ∃ island ∈ [(30 : Nat)], ∃ unit ∈ [(7 : Nat)], ∃ key ∈ [(5 : Nat)], instanceOk source island unit key = true ∧ source ≠ 10 ∧ source ≠ 11 ∧ source < s.flt.src.length ∧ (s.island island).isolated = false ∧ (∀ f ∈ s.flt.inst, f.is source island unit key = false) ∧ (s.flt.src.getD source FltSource.reset).fixed = false ∧ 2 ≤ (s.flt.src.getD source FltSource.reset).n) ∧
    (∃ s ∈ [({ W with flt := { W.flt with inst := [{ FltInst.reset with src := 14, island := 34, key := 1, times := List.replicate 16 0 }] } } : State)], ∃ dt ∈ [(5 : Nat)], ∃ source ∈ [(14 : Nat)], ∃ island ∈ [(34 : Nat)], ∃ unit ∈ [(0 : Nat)], ∃ key ∈ [(1 : Nat)], instanceOk source island unit key = true ∧ source ≠ 10 ∧ source ≠ 11 ∧ source < s.flt.src.length ∧ (s.island island).isolated = false ∧ ∃ f ∈ [({ FltInst.reset with src := 14, island := 34, key := 1, times := List.replicate 16 0 })], source = 14 ∧ key < s.svc.ze.length ∧ s.flt.inst.find? (·.is source island unit key) = some f ∧ ∃ q ∈ [(s.flt.src.getD source FltSource.reset)], lastingTest q.n q.w (s.elapse dt).tb.now (((s.elapse dt).tb.now :: f.times).take q.n) = true ∧ s.twin.resyncCause1 = false ∧ s.top.handover = false) ∧
    (∃ s ∈ [({ W with flt := { W.flt with inst := [{ FltInst.reset with src := 12, island := 1, present := true }] } } : State)], ∃ dt ∈ [(10000000000000 : Nat)], ∃ source ∈ [(12 : Nat)], ∃ island ∈ [(1 : Nat)], ∃ unit ∈ [(0 : Nat)], ∃ key ∈ [(0 : Nat)], ∃ f ∈ [({ FltInst.reset with src := 12, island := 1, present := true } : FltInst)], s.flt.inst.find? (·.is source island unit key) = some f ∧ f.present = true ∧ (s.elapse dt).quiet f = true) ∧
    (∃ s ∈ [(dev (fol 0 0x1000 [(0x10,1,0),(0x11,1,16),(0x12,2,3600)] W) : State)], ∃ ring ∈ [(0 : Nat)], ∃ b ∈ [(bg s ring : Begun)], s.hasFolio ring 0x1000 b ∧ ∃ c ∈ [(s.fctx ring b)], ∃ src ∈ [(c.u 0x10 1)], src < 16 ∧ src < s.flt.src.length ∧ 1 ≤ c.u 0x11 1 ∧ c.u 0x11 1 ≤ 16 ∧ 1 ≤ c.u 0x12 2 ∧ c.u 0x12 2 ≤ 3600 ∧ (s.lifecycle = .develop ∨ s.lifecycle = .field) ∧ c.colour = s.admin ∧ (s.flt.src.getD src FltSource.reset).fixed = false) ∧
    (∃ s ∈ [(dev (fol 0 0x1000 [(0x10,1,2),(0x11,1,16),(0x12,2,3600)] W) : State)], ∃ ring ∈ [(0 : Nat)], ∃ b ∈ [(bg s ring : Begun)], s.hasFolio ring 0x1000 b ∧ ∃ c ∈ [(s.fctx ring b)], ∃ src ∈ [(c.u 0x10 1)], src < 16 ∧ src < s.flt.src.length ∧ 1 ≤ c.u 0x11 1 ∧ c.u 0x11 1 ≤ 16 ∧ 1 ≤ c.u 0x12 2 ∧ c.u 0x12 2 ≤ 3600 ∧ (s.lifecycle = .develop ∨ s.lifecycle = .field) ∧ c.colour = s.admin ∧ (s.flt.src.getD src FltSource.reset).fixed = true) ∧
    (∃ s ∈ [({ dev (fol 0 0x1000 [(0x10,1,0),(0x11,1,16),(0x12,2,3600)] W) with sec := { (dev W).sec with config := { W.sec.config with admin := 2 } } } : State)], ∃ ring ∈ [(0 : Nat)], ∃ b ∈ [(bg s ring : Begun)], s.hasFolio ring 0x1000 b ∧ ∃ c ∈ [(s.fctx ring b)], ∃ src ∈ [(c.u 0x10 1)], src < 16 ∧ src < s.flt.src.length ∧ 1 ≤ c.u 0x11 1 ∧ c.u 0x11 1 ≤ 16 ∧ 1 ≤ c.u 0x12 2 ∧ c.u 0x12 2 ≤ 3600 ∧ (s.lifecycle = .develop ∨ s.lifecycle = .field) ∧ c.colour ≠ s.admin) ∧
    (∃ s ∈ [(fol 0 0x1002 [(0x10,1,0)] { W with flt := { W.flt with watch := [0, 7] } } : State)], ∃ ring ∈ [(0 : Nat)], ∃ b ∈ [(bg s ring : Begun)], s.hasFolio ring 0x1002 b ∧ ∃ c ∈ [(s.fctx ring b)], ∃ n ∈ [(c.u 0x10 1)], n < 32 ∧ evOk c s n = true) ∧
    (∃ s ∈ [(fol 0 0x1002 [(0x10,1,0xFF)] { W with flt := { W.flt with watch := [0, 7] } } : State)], ∃ ring ∈ [(0 : Nat)], ∃ b ∈ [(bg s ring : Begun)], s.hasFolio ring 0x1002 b ∧ ∃ c ∈ [(s.fctx ring b)], ∃ n ∈ [(c.u 0x10 1)], n = 0xFF ∧ b.origin = none) := by
  iterate 7 refine ⟨by decide +kernel, ?_⟩
  decide +kernel

theorem test_witness_CheckUnitsComputeAndCompare :
    (∃ s ∈ [(fol 0 0x1010 [(0x10,1,6),(0x12,1,3),(0x13,1,4),(0x18,4,0xFFFFFFFF)] W : State)], ∃ ring ∈ [(0 : Nat)], ∃ b ∈ [(bg s ring : Begun)], s.hasFolio ring 0x1010 b ∧ ∃ c ∈ [(s.fctx ring b)], ∃ u ∈ [(c.u)], ∃ unit ∈ [(u 0x10 1)], unit < 7 ∧ unit < s.svc.cv.length ∧ u 0x11 1 = 0 ∧ u 0x12 1 < 4 ∧ [0, 1, 2, 4].contains (u 0x13 1) = true ∧ (u 0x13 1 = 0 ∨ (1 ≤ u 0x18 4 ∧ u 0x18 4 ≤ 2 ^ (8 * u 0x13 1) - 1)) ∧ u 0x1C 1 < 32 ∧ evOk c s (u 0x1C 1) = true ∧ ((s.cvUnit unit).owner = none ∨ (s.cvUnit unit).owner = some c.colour)) ∧
    (∃ s ∈ [((fol 0 0x1010 [(0x10,1,6),(0x12,1,3),(0x13,1,4),(0x18,4,0xFFFFFFFF)] W).modCv 6 fun u => { u with owner := some 2 } : State)], ∃ ring ∈ [(0 : Nat)], ∃ b ∈ [(bg s ring : Begun)], s.hasFolio ring 0x1010 b ∧ ∃ c ∈ [(s.fctx ring b)], ∃ u ∈ [(c.u)], ∃ unit ∈ [(u 0x10 1)], unit < 7 ∧ unit < s.svc.cv.length ∧ u 0x11 1 = 0 ∧ u 0x12 1 < 4 ∧ [0, 1, 2, 4].contains (u 0x13 1) = true ∧ (u 0x13 1 = 0 ∨ (1 ≤ u 0x18 4 ∧ u 0x18 4 ≤ 2 ^ (8 * u 0x13 1) - 1)) ∧ u 0x1C 1 < 32 ∧ evOk c s (u 0x1C 1) = true ∧ ∃ k ∈ [(2)], (s.cvUnit unit).owner = some k ∧ k ≠ c.colour) ∧
    (∃ s ∈ [(fol 0 0x1010 [(0x10,1,7),(0x11,1,1)] W : State)], ∃ ring ∈ [(0 : Nat)], ∃ b ∈ [(bg s ring : Begun)], s.hasFolio ring 0x1010 b ∧ ∃ c ∈ [(s.fctx ring b)], ∃ u ∈ [(c.u)], ∃ unit ∈ [(u 0x10 1)], unit = 7 ∧ u 0x11 1 = 1) ∧
    (∃ s ∈ [(fol 0 0x1010 [(0x10,1,6),(0x11,1,1)] (W.modCv 6 fun u => { u with owner := some 1 }) : State)], ∃ ring ∈ [(0 : Nat)], ∃ b ∈ [(bg s ring : Begun)], s.hasFolio ring 0x1010 b ∧ ∃ c ∈ [(s.fctx ring b)], ∃ u ∈ [(c.u)], ∃ unit ∈ [(u 0x10 1)], unit < 7 ∧ unit < s.svc.cv.length ∧ u 0x11 1 = 1 ∧ (s.cvUnit unit).owner = some c.colour) ∧
    (∃ s ∈ [(win (fol 0 0x1011 [(0x10,1,6),(0x18,4,9)] (W.modCv 6 fun u => { u with owner := some 1 })) : State)], ∃ ring ∈ [(0 : Nat)], ∃ b ∈ [(bg s ring : Begun)], s.hasFolio ring 0x1011 b ∧ ∃ c ∈ [(s.fctx ring b)], ∃ u ∈ [(c.u)], ∃ unit ∈ [(u 0x10 1)], ∃ x ∈ [(s.cvUnit unit)], unit < 7 ∧ unit < s.svc.cv.length ∧ u 0x12 1 < 8 ∧ 1 ≤ u 0x18 4 ∧ u 0x18 4 ≤ 16777216 ∧ x.owner = some c.colour ∧ s.winOk (u 0x12 1) c.colour = true ∧ s.winSpan (u 0x12 1) (u 0x14 4) (u 0x18 4) false = true ∧ s.winDamaged (u 0x12 1) (u 0x14 4) (u 0x18 4) = false ∧ u 0x11 1 = 0) ∧
    (∃ s ∈ [(win (fol 0 0x1011 [(0x10,1,6),(0x11,1,2),(0x18,4,9)] (W.modCv 6 fun u => { u with owner := some 1 })) : State)], ∃ ring ∈ [(0 : Nat)], ∃ b ∈ [(bg s ring : Begun)], s.hasFolio ring 0x1011 b ∧ ∃ c ∈ [(s.fctx ring b)], ∃ u ∈ [(c.u)], ∃ unit ∈ [(u 0x10 1)], ∃ x ∈ [(s.cvUnit unit)], unit < 7 ∧ unit < s.svc.cv.length ∧ u 0x12 1 < 8 ∧ 1 ≤ u 0x18 4 ∧ u 0x18 4 ≤ 16777216 ∧ x.owner = some c.colour ∧ s.winOk (u 0x12 1) c.colour = true ∧ s.winSpan (u 0x12 1) (u 0x14 4) (u 0x18 4) false = true ∧ s.winDamaged (u 0x12 1) (u 0x14 4) (u 0x18 4) = false ∧ u 0x11 1 = 2) ∧
    (∃ s ∈ [(fol 0 0x1012 [(0x10,1,6),(0x11,1,0),(0x12,1,7),(0x16,2,8),(0x18,2,8)] (live 9 (W.modCv 6 fun u => { u with owner := some 1, aliveWidth := 1, poly := 1 })) : State)], ∃ ring ∈ [(0 : Nat)], ∃ b ∈ [(bg s ring : Begun)], s.hasFolio ring 0x1012 b ∧ ∃ c ∈ [(s.fctx ring b)], ∃ u ∈ [(c.u)], ∃ unit ∈ [(u 0x10 1)], ∃ p ∈ [(u 0x11 1)], ∃ q ∈ [(u 0x12 1)], unit < 7 ∧ unit < s.svc.cv.length ∧ p < 4 ∧ p < s.net.ports.length ∧ q < 8 ∧ q < (s.port p).cv.length ∧ (s.cvUnit unit).owner = some c.colour ∧ u 0x1A 1 = 0 ∧ u 0x14 2 < u 0x16 2 ∧ (s.cvUnit unit).poly < 2 ∧ (s.cvUnit unit).aliveWidth ≠ 0 ∧ (s.port p).mode ≠ 0) ∧
    (∃ s ∈ [(fol 0 0x1012 [(0x10,1,6),(0x11,1,3),(0x12,1,7),(0x16,2,8),(0x18,2,8)] (live 9 (W.modCv 6 fun u => { u with owner := some 1, aliveWidth := 1, poly := 1 })) : State)], ∃ ring ∈ [(0 : Nat)], ∃ b ∈ [(bg s ring : Begun)], s.hasFolio ring 0x1012 b ∧ ∃ c ∈ [(s.fctx ring b)], ∃ u ∈ [(c.u)], ∃ unit ∈ [(u 0x10 1)], ∃ p ∈ [(u 0x11 1)], ∃ q ∈ [(u 0x12 1)], unit < 7 ∧ unit < s.svc.cv.length ∧ p < 4 ∧ p < s.net.ports.length ∧ q < 8 ∧ q < (s.port p).cv.length ∧ (s.cvUnit unit).owner = some c.colour ∧ u 0x1A 1 = 0 ∧ u 0x14 2 < u 0x16 2 ∧ (s.cvUnit unit).poly < 2 ∧ (s.cvUnit unit).aliveWidth ≠ 0 ∧ (s.port p).mode = 0) ∧
    (∃ s ∈ [(fol 0 0x1012 [(0x10,1,6),(0x11,1,3),(0x12,1,7),(0x1A,1,1)] ((W.modCv 6 fun u => { u with owner := some 1 }).modPort 3 fun p => { p with cv := p.cv.set 7 (some 6) }) : State)], ∃ ring ∈ [(0 : Nat)], ∃ b ∈ [(bg s ring : Begun)], s.hasFolio ring 0x1012 b ∧ ∃ c ∈ [(s.fctx ring b)], ∃ u ∈ [(c.u)], ∃ unit ∈ [(u 0x10 1)], ∃ p ∈ [(u 0x11 1)], ∃ q ∈ [(u 0x12 1)], unit < 7 ∧ unit < s.svc.cv.length ∧ p < 4 ∧ p < s.net.ports.length ∧ q < 8 ∧ q < (s.port p).cv.length ∧ (s.cvUnit unit).owner = some c.colour ∧ u 0x1A 1 = 1 ∧ (s.port p).cv.getD q none = some unit) := by
  iterate 8 refine ⟨by decide +kernel, ?_⟩
  decide +kernel

theorem test_witness_CompressionJobsEndWithTheirOutput :
    (∃ s ∈ [(win (fol 0 0x1020 [(0x10,1,0xFF),(0x11,1,1),(0x1C,4,8),(0x20,4,256),(0x24,4,256)] W) : State)], ∃ ring ∈ [(0 : Nat)], ∃ b ∈ [(bg s ring : Begun)], s.hasFolio ring 0x1020 b ∧ ∃ c ∈ [(s.fctx ring b)], ∃ u ∈ [(c.u)], (u 0x10 1 < 2 ∨ u 0x10 1 = 0xFF) ∧ u 0x11 1 = 1 ∧ u 0x13 1 < 4 ∧ u 0x14 1 < 8 ∧ u 0x15 1 < 8 ∧ u 0x16 2 = 0 ∧ 1 ≤ u 0x1C 4 ∧ u 0x1C 4 ≤ 16777215 ∧ u 0x20 4 % 256 = 0 ∧ 256 ≤ u 0x24 4 ∧ s.winOk (u 0x14 1) c.colour = true ∧ s.winSpan (u 0x14 1) (u 0x18 4) (u 0x1C 4) false = true ∧ s.winOk (u 0x15 1) c.colour = true ∧ s.winSpan (u 0x15 1) (u 0x20 4) (u 0x24 4) true = true ∧ ∃ e ∈ [(0)], s.zePick (u 0x10 1) = some e ∧ e < s.svc.ze.length) ∧
    (∃ s ∈ [((win (fol 0 0x1020 [(0x10,1,0xFF),(0x11,1,1),(0x1C,4,8),(0x20,4,256),(0x24,4,256)] W)).modZe 0 (fun z => { z with disabled := true }) |>.modZe 1 fun z => { z with disabled := true } : State)], ∃ ring ∈ [(0 : Nat)], ∃ b ∈ [(bg s ring : Begun)], s.hasFolio ring 0x1020 b ∧ ∃ c ∈ [(s.fctx ring b)], ∃ u ∈ [(c.u)], (u 0x10 1 < 2 ∨ u 0x10 1 = 0xFF) ∧ u 0x11 1 = 1 ∧ u 0x13 1 < 4 ∧ u 0x14 1 < 8 ∧ u 0x15 1 < 8 ∧ u 0x16 2 = 0 ∧ 1 ≤ u 0x1C 4 ∧ u 0x1C 4 ≤ 16777215 ∧ u 0x20 4 % 256 = 0 ∧ 256 ≤ u 0x24 4 ∧ s.winOk (u 0x14 1) c.colour = true ∧ s.winSpan (u 0x14 1) (u 0x18 4) (u 0x1C 4) false = true ∧ s.winOk (u 0x15 1) c.colour = true ∧ s.winSpan (u 0x15 1) (u 0x20 4) (u 0x24 4) true = true ∧ s.zePick (u 0x10 1) = none) ∧
    (∃ s ∈ [(put 0x50000000 [1,2,0,253,255,7,9] (win (wt 0 (.ze 1) (fol 0 0x1020 [(0x10,1,0xFF),(0x11,1,1),(0x1C,4,8),(0x20,4,256),(0x24,4,256)] (W.modZe 1 fun z => { z with jobs := [{ ZeJob.reset with op := 1 }] })))) : State)], ∃ ring ∈ [(0 : Nat)], ∃ e ∈ [(1 : Nat)], ∃ j ∈ [({ ZeJob.reset with op := 1 } : ZeJob)], ∃ rest ∈ [([] : List ZeJob)], ∃ b ∈ [(bg s ring : Begun)], (s.cmdQ ring).begun = some b ∧ b.wait = .ze e ∧ s.role ≠ 2 ∧ (s.cmdQ ring).awaitResync = false ∧ s.top.handover = false ∧ s.twin.resyncCause1 = false ∧ e < s.svc.ze.length ∧ (s.zeEngine e).jobs = j :: rest ∧ j.ring = ring ∧ j.op = 1 ∧ (s.island islSvc).isolated = false ∧ s.store.mem.wf = true ∧ ∃ c ∈ [(s.fctx ring b)], ∃ u ∈ [(c.u)], ∃ r ∈ [(inflate (s.winRead (u 0x14 1) (u 0x18 4) (u 0x1C 4)) (u 0x24 4))], (∀ i, i < u 0x1C 4 → s.winDamaged (u 0x14 1) (u 0x18 4 + i) 1 = false) ∧ r.err = 0 ∧ u 0x13 1 = 0) ∧
    (∃ chunk ∈ [([1,2,3])], chunk.length ≤ 65536) := by
  iterate 3 refine ⟨by decide +kernel, ?_⟩
  decide +kernel

theorem test_witness_JournalRecordsAndMoves :
    (∃ s ∈ [(fol 0 0x1030 [(0x10,1,1),(0x11,1,3),(0x14,4,12288),(0x18,2,600)] W : State)], ∃ ring ∈ [(0 : Nat)], ∃ b ∈ [(bg s ring : Begun)], s.hasFolio ring 0x1030 b ∧ ∃ c ∈ [(s.fctx ring b)], ∃ u ∈ [(c.u)], u 0x11 1 ≤ 3 ∧ 1 ≤ u 0x11 1 ∧ u 0x13 1 < 32 ∧ 256 ≤ u 0x14 4 ∧ u 0x14 4 ≤ 12288 ∧ u 0x14 4 % 64 = 0 ∧ 10 ≤ u 0x18 2 ∧ u 0x18 2 ≤ 600 ∧ c.colour = s.admin ∧ evOk c s (u 0x13 1) = true ∧ ∃ base ∈ [((s.findRegion (12288 * 2 ^ 20)).getD 0)], u 0x10 1 = 1 ∧ s.jrn.st = .off ∧ s.jrn.region = false ∧ s.findRegion (u 0x14 4 * 2 ^ 20) = some base ∧ s.freeEntry.isSome = true ∧ s.store.mem.wf = true) ∧
    (∃ s ∈ [({ (fol 0 0x1030 [(0x10,1,1),(0x11,1,3),(0x14,4,12288),(0x18,2,600)] W) with jrn := { W.jrn with st := .recording, size := 256 } } : State)], ∃ ring ∈ [(0 : Nat)], ∃ b ∈ [(bg s ring : Begun)], s.hasFolio ring 0x1030 b ∧ ∃ c ∈ [(s.fctx ring b)], ∃ u ∈ [(c.u)], u 0x11 1 ≤ 3 ∧ 1 ≤ u 0x11 1 ∧ u 0x13 1 < 32 ∧ 256 ≤ u 0x14 4 ∧ u 0x14 4 ≤ 12288 ∧ u 0x14 4 % 64 = 0 ∧ 10 ≤ u 0x18 2 ∧ u 0x18 2 ≤ 600 ∧ c.colour = s.admin ∧ evOk c s (u 0x13 1) = true ∧ u 0x10 1 = 1 ∧ s.jrn.st ≠ .off ∧ u 0x14 4 ≠ s.jrn.size) ∧
    (∃ s ∈ [(fol 0 0x1030 [(0x10,1,0),(0x11,1,3),(0x14,4,256),(0x18,2,10)] { W with jrn := { W.jrn with st := .recording, size := 256, region := true, base := 0x60000000 } } : State)], ∃ ring ∈ [(0 : Nat)], ∃ b ∈ [(bg s ring : Begun)], s.hasFolio ring 0x1030 b ∧ ∃ c ∈ [(s.fctx ring b)], ∃ u ∈ [(c.u)], u 0x11 1 ≤ 3 ∧ 1 ≤ u 0x11 1 ∧ u 0x13 1 < 32 ∧ 256 ≤ u 0x14 4 ∧ u 0x14 4 ≤ 12288 ∧ u 0x14 4 % 64 = 0 ∧ 10 ≤ u 0x18 2 ∧ u 0x18 2 ≤ 600 ∧ c.colour = s.admin ∧ evOk c s (u 0x13 1) = true ∧ u 0x10 1 = 0 ∧ s.jrn.st ≠ .off ∧ s.jrn.region = true) ∧
    (∃ s ∈ [({ W with jrn := { W.jrn with st := .recording, size := 256 } } : State)], ∃ dt ∈ [(5 : Nat)], ∃ kind ∈ [(11 : Nat)], ∃ payload ∈ [([1,2] : List Byte)], kind < 12 ∧ kind ≠ 8 ∧ kind < s.jrn.dropKind.length ∧ s.jrn.st = .recording ∧ (s.island islSvc).isolated = false ∧ ∃ parts ∈ [(entryParts kind (3 : BitVec 32) (s.elapse dt).tb.dev (journalled kind payload))], ∃ room ∈ [(s.jrn.staging.length + (parts.map fun e => e.payload.length + 16).sum)], room ≤ stagingBytes) ∧
    (∃ s ∈ [(full : State)], ∃ dt ∈ [(5 : Nat)], ∃ kind ∈ [(11 : Nat)], ∃ payload ∈ [([1,2] : List Byte)], kind < 12 ∧ kind ≠ 8 ∧ kind < s.jrn.dropKind.length ∧ s.jrn.st = .recording ∧ (s.island islSvc).isolated = false ∧ ∃ parts ∈ [(entryParts kind (3 : BitVec 32) (s.elapse dt).tb.dev (journalled kind payload))], ∃ room ∈ [(s.jrn.staging.length + (parts.map fun e => e.payload.length + 16).sum)], stagingBytes < room) ∧
    (∃ s ∈ [({ W with jrn := { W.jrn with st := .recording, snapDue := true, size := 256 } } : State)], ∃ dt ∈ [(5 : Nat)], ∃ image ∈ [([1,2] : List Byte)], s.jrn.st = .recording ∧ s.jrn.snapDue = true ∧ (s.island islSvc).isolated = false ∧ (s.jrn.staging.length + ((entryParts 12 0 (s.elapse dt).tb.dev image).map fun e => e.payload.length + 16).sum ≤ stagingBytes)) ∧
    (∃ s ∈ [({ W with jrn := { W.jrn with st := .gap } } : State)], s.jrn.st = .gap ∧ s.jrn.staging.length < stagingBytes / 2) ∧
    (∃ s ∈ [({ W with jrn := { W.jrn with st := .recording, level := 0, size := 256, staging := List.replicate 65536 1 } } : State)], ∃ code ∈ [([] : List Byte)], s.jrn.st = .recording ∧ 65536 ≤ s.jrn.staging.length ∧ (s.zeEngine 0).disabled = false ∧ (s.island islSvc).isolated = false ∧ (chunkCoded s.jrn.level (s.jrn.staging.take 65536) code).isSome = true) ∧
    (∃ s ∈ [(fol 0 0x1031 [] { W with jrn := { W.jrn with st := .recording, size := 256 } } : State)], ∃ ring ∈ [(0 : Nat)], ∃ b ∈ [(bg s ring : Begun)], s.hasFolio ring 0x1031 b ∧ ∃ c ∈ [(s.fctx ring b)], ∃ start ∈ [(c.u 0x18 8)], c.colour = s.admin ∧ s.jrn.st ≠ .off ∧ start = 0) ∧
    (∃ s ∈ [(fol 0 0x1031 [(0x18,8,5)] { W with jrn := { W.jrn with st := .recording, size := 256, chunks := [{ JChunk.reset with snapTime := some 5 }] } } : State)], ∃ ring ∈ [(0 : Nat)], ∃ b ∈ [(bg s ring : Begun)], s.hasFolio ring 0x1031 b ∧ ∃ c ∈ [(s.fctx ring b)], ∃ start ∈ [(c.u 0x18 8)], c.colour = s.admin ∧ s.jrn.st ≠ .off ∧ ∃ k ∈ [({ JChunk.reset with snapTime := some 5 })], start ≠ 0 ∧ s.jrn.snapAtOrBefore start = some k ∧ (chunkSum (s.jrn.chunks.filter fun x => k.number ≤ x.number) ≤ s.jrn.area / 2)) ∧
    (∃ s ∈ [(win (fol 0 0x1032 [(0x28,1,1),(0x2C,4,0x1000),(0x20,8,9),(0x14,4,0x10000)] { W with jrn := { W.jrn with st := .recording, size := 256, chunks := [{ JChunk.reset with snapTime := some 0, length := 8, bytes := [1,2,3,4,5,6,7,8] }] } }) : State)], ∃ ring ∈ [(0 : Nat)], ∃ b ∈ [(bg s ring : Begun)], s.hasFolio ring 0x1032 b ∧ ∃ c ∈ [(s.fctx ring b)], ∃ u ∈ [(c.u)], ∃ w ∈ [(u 0x10 1)], ∃ off ∈ [(u 0x14 4)], w < 8 ∧ u 0x28 1 = 1 ∧ u 0x30 8 = 0 ∧ c.colour = s.admin ∧ s.winOk w c.colour = true ∧ s.winSpan w (u 0x2C 4) (97 + 96 + 4627) false = true ∧ s.winDamaged w (u 0x2C 4) (97 + 96 + 4627) = false ∧ s.sec.entropyBad = false ∧ s.store.mem.wf = true ∧ ∃ k ∈ [({ JChunk.reset with snapTime := some 0, length := 8, bytes := [1,2,3,4,5,6,7,8] })], s.jrn.snapAtOrBefore (u 0x18 8) = some k ∧ ∃ all ∈ [(s.jrn.chunks.reverse.filter fun (x : JChunk) => decide (k.number ≤ x.number) && decide (x.first ≤ u 0x20 8))], ∃ l ∈ [(fitChunks ((s.window w).size.toNat - off - partFixed) all)], all ≠ [] ∧ l ≠ [] ∧ partFixed ≤ (s.window w).size.toNat - off ∧ (s.winSpan w off (partFixed + (l.map fun (x : JChunk) => x.length + 48).sum) true = true)) ∧
    (∃ s ∈ [(win (fol 0 0x1032 [(0x28,1,1),(0x2C,4,0x1000),(0x20,8,9),(0x14,4,0x10000)] { W with jrn := { W.jrn with st := .recording, size := 256 } }) : State)], ∃ ring ∈ [(0 : Nat)], ∃ b ∈ [(bg s ring : Begun)], s.hasFolio ring 0x1032 b ∧ ∃ c ∈ [(s.fctx ring b)], ∃ u ∈ [(c.u)], ∃ w ∈ [(u 0x10 1)], ∃ off ∈ [(u 0x14 4)], w < 8 ∧ u 0x28 1 = 1 ∧ u 0x30 8 = 0 ∧ c.colour = s.admin ∧ s.winOk w c.colour = true ∧ s.winSpan w (u 0x2C 4) (97 + 96 + 4627) false = true ∧ s.winDamaged w (u 0x2C 4) (97 + 96 + 4627) = false ∧ s.sec.entropyBad = false ∧ s.store.mem.wf = true ∧ s.jrn.snapAtOrBefore (u 0x18 8) = none ∧ s.winSpan w off partFixed true = true ∧ s.jrn.chunks = []) ∧
    (∃ s ∈ [(put 0x50000000 ([0x57,0x50,0x4A,0x58,1,0,0xB0,0] ++ List.replicate 48 0 ++ [1]) { win (fol 0 0x1033 [(0x18,4,0x10000)] W) with jrn := { W.jrn with region := true, size := 256 }, sec := { (dev W).sec with act := [(0, grant)], provKey := W.sec.provKey.set 1 (some [5]) } } : State)], ∃ ring ∈ [(0 : Nat)], ∃ b ∈ [(bg s ring : Begun)], s.hasFolio ring 0x1033 b ∧ ∃ c ∈ [(s.fctx ring b)], ∃ w ∈ [(c.u 0x10 1)], ∃ off ∈ [(c.u 0x14 4)], ∃ h ∈ [(s.winRead w off 0x200)], ∃ n ∈ [(leNat ((h.drop 0x0C).take 4))], ∃ table ∈ [(s.winRead w (off + 0x200) (32 * n))], ∃ lens ∈ [((List.range n).map fun i => leNat ((table.drop (32 * i + 20)).take 4))], ∃ total ∈ [(0x200 + 32 * n + (lens.map (· + 16)).sum + 96 + 4627)], w < 8 ∧ c.colour = s.admin ∧ s.winOk w c.colour = true ∧ s.winSpan w off total false = true ∧ s.winSpan w (c.u 0x18 4) 4 false = true ∧ s.jrn.st = .off ∧ s.jrn.region = true ∧ leNat ((h.drop 0).take 4) = 0x584A5057 ∧ leNat ((h.drop 4).take 2) = 1 ∧ s.owner.isSome = true ∧ (h.drop 0x38).take 48 = padTo 48 (s.owner.getD []) ∧ leNat ((h.drop 6).take 1) = 0xB0 ∧ leNat ((h.drop 8).take 4) = s.sec.running.release.toNat ∧ (s.sec.provKey.getD c.colour none).isSome = true ∧ (s.jrn.imported = true → leNat ((h.drop 0x20).take 8) = s.jrn.importNext) ∧ chunkSum s.jrn.importChunks + lens.sum ≤ s.jrn.area ∧ s.winDamaged w off total = false) := by
  iterate 4 refine ⟨by decide +kernel, ?_⟩
  refine ⟨one (one (one (one ⟨by decide +kernel, by decide +kernel, by decide +kernel, by decide +kernel, by decide +kernel, one (one (lt_room full.jrn.staging _ full_staging (by decide +kernel)))⟩))), ?_⟩
  iterate 2 refine ⟨by decide +kernel, ?_⟩
  refine ⟨one (one ⟨by decide +kernel, Nat.le_of_eq List.length_replicate.symm, by decide +kernel, by decide +kernel, rfl⟩), ?_⟩
  iterate 4 refine ⟨by decide +kernel, ?_⟩
  decide +kernel

theorem test_witness_ReplayStartsReplaysAndEnds :
    (∃ s ∈ [({ (win (fol 0 0x1034 [] W)) with jrn := { W.jrn with imported := true, importChunks := [{ JChunk.reset with snapTime := some 0, staged := [12] ++ List.replicate 15 0, crc := crc32c ([12] ++ List.replicate 15 0) }] } } : State)], ∃ ring ∈ [(0 : Nat)], ∃ b ∈ [(bg s ring : Begun)], s.hasFolio ring 0x1034 b ∧ ∃ c ∈ [(s.fctx ring b)], ∃ u ∈ [(c.u)], ∃ w ∈ [(u 0x10 1)], w < 8 ∧ u 0x11 1 < 2 ∧ u 0x14 4 % 256 = 0 ∧ c.colour = s.admin ∧ s.winOk w c.colour = true ∧ s.winSpan w (u 0x14 4) (256 * u 0x20 4) true = true ∧ (∀ x ∈ s.dec.ctx, x.opened = false) ∧ (∀ h ∈ s.comp.head, h.st = HeadSt.off) ∧ (∀ y ∈ s.enc.session, y.st = .closed) ∧ s.jrn.st = .off ∧ s.jrn.imported = true ∧ s.role = 0 ∧ fromSnapshot (u 0x18 8) s.jrn.importedEntries ≠ []) ∧
    (∃ s ∈ [((win (fol 0 0x1034 [] W)).modCtx 63 fun x => { x with opened := true } : State)], ∃ ring ∈ [(0 : Nat)], ∃ b ∈ [(bg s ring : Begun)], s.hasFolio ring 0x1034 b ∧ ∃ c ∈ [(s.fctx ring b)], ∃ u ∈ [(c.u)], ∃ w ∈ [(u 0x10 1)], w < 8 ∧ u 0x11 1 < 2 ∧ u 0x14 4 % 256 = 0 ∧ c.colour = s.admin ∧ s.winOk w c.colour = true ∧ s.winSpan w (u 0x14 4) (256 * u 0x20 4) true = true ∧ (∃ x ∈ s.dec.ctx, x.opened = true)) ∧
    (∃ s ∈ [(win { W with jrn := { W.jrn with st := .replaying, importEntries := [{ JEntry.reset with kind := 3 }], outBlocks := 1 } } : State)], ∃ e ∈ [({ JEntry.reset with kind := 3 } : JEntry)], ∃ rest ∈ [([] : List JEntry)], s.jrn.st = .replaying ∧ s.jrn.importEntries = e :: rest ∧ e.kind = 3 ∧ ((s.jrn.replayed.find? fun x => x.1 = e.src.toNat % 256) = none) ∧ s.jrn.outNext < 4 * s.jrn.outBlocks ∧ s.store.mem.wf = true) ∧
    (∃ s ∈ [({ fol 0 0x1035 [] W with top := { W.top with replay := true }, jrn := { W.jrn with st := .replaying } } : State)], ∃ ring ∈ [(0 : Nat)], ∃ b ∈ [(bg s ring : Begun)], s.hasFolio ring 0x1035 b ∧ (s.fctx ring b).colour = s.admin ∧ s.top.replay = true) := by
  iterate 3 refine ⟨by decide +kernel, ?_⟩
  decide +kernel

theorem test_witness_ResetAndStartUpRun :
    (∃ s ∈ [({ State.reset with pwr := { State.reset.pwr with held := true, supplyGood := true } } : State)], ∃ dt ∈ [(20000000 : Nat)], ∃ fosc ∈ [([390625, 390000, 391000] : List Nat)], ∃ xa ∈ [([8192, 8193, 8196] : List Nat)], ∃ xb ∈ [([0, 8192, 8192, 8192] : List Nat)], ∃ straps ∈ [({ (default : StrapIn) with gatherId := 5 } : StrapIn)], ∃ x ∈ [((true, Instr.clockJudgeRetry dt fosc ⟨xa, xb⟩ straps))], x ∈ [(false, Instr.clockStart dt fosc ⟨xa, xb⟩ straps), (true, Instr.clockJudgeRetry dt fosc ⟨xa, xb⟩ straps)] ∧ (s.elapse dt).mayJudge x.1 = false) ∧
    (∃ s ∈ [({ State.reset with pwr := { State.reset.pwr with held := true, supplyGood := true } } : State)], ∃ dt ∈ [(20000000 : Nat)], ∃ fosc ∈ [([390625, 390000, 391000] : List Nat)], ∃ xa ∈ [([8192, 8193, 8196] : List Nat)], ∃ xb ∈ [([0, 8192, 8192, 8192] : List Nat)], ∃ straps ∈ [({ (default : StrapIn) with gatherId := 5 } : StrapIn)], ∃ x ∈ [((false, Instr.clockStart dt fosc ⟨xa, xb⟩ straps))], x ∈ [(false, Instr.clockStart dt fosc ⟨xa, xb⟩ straps), (true, Instr.clockJudgeRetry dt fosc ⟨xa, xb⟩ straps)] ∧ (s.elapse dt).mayJudge x.1 = true ∧ foscJudge fosc = true ∧ (crystalJudge xa = true ∨ crystalJudge xb = true)) ∧
    (∃ s ∈ [({ State.reset with pwr := { State.reset.pwr with held := true, supplyGood := true } } : State)], ∃ dt ∈ [(20000000 : Nat)], ∃ fosc ∈ [([390625, 390000, 391000] : List Nat)], ∃ xa ∈ [([8192, 8193, 8197] : List Nat)], ∃ xb ∈ [([] : List Nat)], ∃ straps ∈ [({ (default : StrapIn) with gatherId := 5 } : StrapIn)], ∃ x ∈ [((false, Instr.clockStart dt fosc ⟨xa, xb⟩ straps))], x ∈ [(false, Instr.clockStart dt fosc ⟨xa, xb⟩ straps), (true, Instr.clockJudgeRetry dt fosc ⟨xa, xb⟩ straps)] ∧ (s.elapse dt).mayJudge x.1 = true ∧ foscJudge fosc = true ∧ crystalJudge xa = false ∧ crystalJudge xb = false) ∧
    (∃ s ∈ [({ State.reset with pwr := { State.reset.pwr with held := true, supplyGood := true } } : State)], ∃ dt ∈ [(20000000 : Nat)], ∃ fosc ∈ [([337357, 390000, 390000, 337358] : List Nat)], ∃ xa ∈ [([8192, 8193, 8196] : List Nat)], ∃ xb ∈ [([0, 8192, 8192, 8192] : List Nat)], ∃ straps ∈ [({ (default : StrapIn) with gatherId := 5 } : StrapIn)], ∃ x ∈ [((false, Instr.clockStart dt fosc ⟨xa, xb⟩ straps))], x ∈ [(false, Instr.clockStart dt fosc ⟨xa, xb⟩ straps), (true, Instr.clockJudgeRetry dt fosc ⟨xa, xb⟩ straps)] ∧ (s.elapse dt).mayJudge x.1 = true ∧ foscJudge fosc = false) ∧
    (∃ s ∈ [({ State.reset with pwr := { State.reset.pwr with held := false, bootHold := true }, top := { State.reset.top with wiping := true }, sec := { State.reset.sec with selector := some false } } : State)], s.pwr.held = false ∧ s.pwr.booted = false ∧ s.sec.bootStatus = 0 ∧ s.pwr.bootHold = true) ∧
    (∃ s ∈ [({ ({ ({ State.reset with pwr := { State.reset.pwr with held := false, bootHold := true }, top := { State.reset.top with wiping := true }, sec := { State.reset.sec with selector := some false } }) with pwr := { (({ State.reset with pwr := { State.reset.pwr with held := false, bootHold := true }, top := { State.reset.top with wiping := true }, sec := { State.reset.sec with selector := some false } })).pwr with bootHold := false } }) with sec := { (({ ({ State.reset with pwr := { State.reset.pwr with held := false, bootHold := true }, top := { State.reset.top with wiping := true }, sec := { State.reset.sec with selector := some false } }) with pwr := { (({ State.reset with pwr := { State.reset.pwr with held := false, bootHold := true }, top := { State.reset.top with wiping := true }, sec := { State.reset.sec with selector := some false } })).pwr with bootHold := false } })).sec with fuses := { (({ ({ State.reset with pwr := { State.reset.pwr with held := false, bootHold := true }, top := { State.reset.top with wiping := true }, sec := { State.reset.sec with selector := some false } }) with pwr := { (({ State.reset with pwr := { State.reset.pwr with held := false, bootHold := true }, top := { State.reset.top with wiping := true }, sec := { State.reset.sec with selector := some false } })).pwr with bootHold := false } })).sec.fuses with imageKeyOk := true } } } : State)], ∃ boot ∈ [({ (default : BootIn) with slotA := { (default : ImageIn) with header := [0x53,0x4B,0x46,0x57,1,0] ++ List.replicate 18 0 ++ [1], zerosOk := true, sigsOk := true, digestOk := true, gcmOk := true } } : BootIn)], s.pwr.held = false ∧ s.pwr.booted = false ∧ s.sec.bootStatus = 0 ∧ s.pwr.bootHold = false ∧ s.top.wiping = true ∧ s.sec.slotA = none ∧ s.sec.slotB = none ∧ s.sec.selector = some false ∧ s.imageOk (Image.ofIn boot.slotA) = true) ∧
    (∃ s ∈ [({ ({ ({ State.reset with pwr := { State.reset.pwr with held := false, bootHold := true }, top := { State.reset.top with wiping := true }, sec := { State.reset.sec with selector := some false } }) with pwr := { (({ State.reset with pwr := { State.reset.pwr with held := false, bootHold := true }, top := { State.reset.top with wiping := true }, sec := { State.reset.sec with selector := some false } })).pwr with bootHold := false } }) with sec := { (({ ({ State.reset with pwr := { State.reset.pwr with held := false, bootHold := true }, top := { State.reset.top with wiping := true }, sec := { State.reset.sec with selector := some false } }) with pwr := { (({ State.reset with pwr := { State.reset.pwr with held := false, bootHold := true }, top := { State.reset.top with wiping := true }, sec := { State.reset.sec with selector := some false } })).pwr with bootHold := false } })).sec with fuses := { (({ ({ State.reset with pwr := { State.reset.pwr with held := false, bootHold := true }, top := { State.reset.top with wiping := true }, sec := { State.reset.sec with selector := some false } }) with pwr := { (({ State.reset with pwr := { State.reset.pwr with held := false, bootHold := true }, top := { State.reset.top with wiping := true }, sec := { State.reset.sec with selector := some false } })).pwr with bootHold := false } })).sec.fuses with imageKeyOk := true } } } : State)], ∃ boot ∈ [({ (default : BootIn) with slotB := { (default : ImageIn) with header := [0x53,0x4B,0x46,0x57,1,0] ++ List.replicate 18 0 ++ [1], zerosOk := true, sigsOk := true, digestOk := true, gcmOk := true } } : BootIn)], s.pwr.held = false ∧ s.pwr.booted = false ∧ s.sec.bootStatus = 0 ∧ s.pwr.bootHold = false ∧ s.top.wiping = true ∧ s.sec.slotA = none ∧ s.sec.slotB = none ∧ s.sec.selector = some false ∧ s.imageOk (Image.ofIn boot.slotA) = false ∧ s.imageOk (Image.ofIn boot.slotB) = true) ∧
    (∃ s ∈ [({ ({ State.reset with pwr := { State.reset.pwr with held := false, bootHold := true }, top := { State.reset.top with wiping := true }, sec := { State.reset.sec with selector := some false } }) with pwr := { (({ State.reset with pwr := { State.reset.pwr with held := false, bootHold := true }, top := { State.reset.top with wiping := true }, sec := { State.reset.sec with selector := some false } })).pwr with bootHold := false } } : State)], ∃ boot ∈ [((default : BootIn) : BootIn)], s.pwr.held = false ∧ s.pwr.booted = false ∧ s.sec.bootStatus = 0 ∧ s.pwr.bootHold = false ∧ s.top.wiping = true ∧ s.sec.slotA = none ∧ s.sec.slotB = none ∧ s.sec.selector = some false ∧ s.imageOk (Image.ofIn boot.slotA) = false ∧ s.imageOk (Image.ofIn boot.slotB) = false) ∧
    (∃ s ∈ [({ State.reset with pwr := { State.reset.pwr with held := false, trainedOk := true }, top := { State.reset.top with wiping := true } } : State)], s.pwr.held = false ∧ s.top.wiping = true ∧ s.pwr.trainedOk = true) ∧
    (∃ s ∈ [(W : State)], s.host.perst = false) ∧
    (∃ s ∈ [({ W with host := { W.host with perst := true } } : State)], s.host.perst = true) ∧
    (∃ s ∈ [(W : State)], ∃ dt ∈ [(5 : Nat)], ∃ c ∈ [(Instr.functionLevelReset dt)], c ∈ [Instr.hostRestart dt, Instr.functionLevelReset dt] ∧ s.boxUp 0 = true) ∧
    (∃ s ∈ [({ W with host := { W.host with perst := true } } : State)], ∃ dt ∈ [(5 : Nat)], ∃ c ∈ [(Instr.functionLevelReset dt)], c ∈ [Instr.hostRestart dt, Instr.functionLevelReset dt] ∧ s.boxUp 0 = false) := by
  iterate 12 refine ⟨by decide +kernel, ?_⟩
  decide +kernel

theorem test_witness_StateIsReadBackInBlocks :
    (∃ s ∈ [(win (fol 0 0x0104 [(0x10,1,3),(0x11,1,0),(0x12,1,0),(0x14,4,256)] readers) : State)], ∃ dt ∈ [(5 : Nat)], ∃ ring ∈ [(0 : Nat)], ∃ b ∈ [(bg s ring : Begun)], ∃ c ∈ [(s.fctx ring b)], ∃ e ∈ [(s.elapse dt)], ∃ i ∈ [(c.u 0x10 1)], ∃ w ∈ [(c.u 0x12 1)], ∃ off ∈ [(c.u 0x14 4)], s.hasFolio ring 0x0104 b ∧ s.store.mem.wf = true ∧ (decide (i < 64)) = true ∧ w < 8 ∧ off % 256 = 0 ∧ (mayRead c e i) = true ∧ s.winOk w c.colour = true ∧ s.winSpan w off 256 true = true) ∧
    (∃ s ∈ [(win (fol 0 0x0104 [(0x10,1,3),(0x11,1,0),(0x12,1,1),(0x14,4,0)] readers) : State)], ∃ dt ∈ [(5 : Nat)], ∃ ring ∈ [(0 : Nat)], ∃ b ∈ [(bg s ring : Begun)], ∃ c ∈ [(s.fctx ring b)], ∃ e ∈ [(s.elapse dt)], ∃ i ∈ [(c.u 0x10 1)], ∃ w ∈ [(c.u 0x12 1)], ∃ off ∈ [(c.u 0x14 4)], s.hasFolio ring 0x0104 b ∧ s.store.mem.wf = true ∧ (decide (i < 64)) = true ∧ w < 8 ∧ off % 256 = 0 ∧ ((mayRead c e i) = false ∨ s.winOk w c.colour = false ∨ s.winSpan w off 256 true = false)) ∧
    (∃ s ∈ [(win (fol 0 0x0104 [(0x10,1,3),(0x11,1,0),(0x12,1,0),(0x14,4,1)] readers) : State)], ∃ ring ∈ [(0 : Nat)], ∃ b ∈ [(bg s ring : Begun)], ∃ c ∈ [(s.fctx ring b)], ∃ i ∈ [(c.u 0x10 1)], ∃ w ∈ [(c.u 0x12 1)], ∃ off ∈ [(c.u 0x14 4)], s.hasFolio ring 0x0104 b ∧ s.store.mem.wf = true ∧ ((decide (i < 64)) = false ∨ 8 ≤ w ∨ off % 256 ≠ 0)) ∧
    (∃ s ∈ [(win (fol 0 0x0112 [(0x10,1,0),(0x11,1,0),(0x12,1,0),(0x14,4,256)] readers) : State)], ∃ ring ∈ [(0 : Nat)], ∃ b ∈ [(bg s ring : Begun)], ∃ c ∈ [(s.fctx ring b)], ∃ w ∈ [(c.u 0x12 1)], ∃ off ∈ [(c.u 0x14 4)], s.hasFolio ring 0x0112 b ∧ s.store.mem.wf = true ∧ true = true ∧ w < 8 ∧ off % 256 = 0 ∧ true = true ∧ s.winOk w c.colour = true ∧ s.winSpan w off 256 true = true) ∧
    (∃ s ∈ [(win (fol 0 0x0213 [(0x10,1,0),(0x11,1,3),(0x12,1,0),(0x14,4,256)] readers) : State)], ∃ dt ∈ [(5 : Nat)], ∃ ring ∈ [(0 : Nat)], ∃ b ∈ [(bg s ring : Begun)], ∃ c ∈ [(s.fctx ring b)], ∃ e ∈ [(s.elapse dt)], ∃ i ∈ [(c.u 0x10 1)], ∃ j ∈ [(c.u 0x11 1)], ∃ w ∈ [(c.u 0x12 1)], ∃ off ∈ [(c.u 0x14 4)], s.hasFolio ring 0x0213 b ∧ s.store.mem.wf = true ∧ ((decide (i < 3) && decide (j < if i = 1 then 16 else 64)) = true) ∧ w < 8 ∧ off % 256 = 0 ∧ ((if i = 0 then e.layerReader c j else if i = 1 then e.headReader c j else mayRead c e j) = true) ∧ s.winOk w c.colour = true ∧ s.winSpan w off 256 true = true) ∧
    (∃ s ∈ [(win (fol 0 0x0302 [(0x10,1,0),(0x11,1,3),(0x12,1,0),(0x14,4,256)] readers) : State)], ∃ dt ∈ [(5 : Nat)], ∃ ring ∈ [(0 : Nat)], ∃ b ∈ [(bg s ring : Begun)], ∃ c ∈ [(s.fctx ring b)], ∃ e ∈ [(s.elapse dt)], ∃ i ∈ [(c.u 0x10 1)], ∃ j ∈ [(c.u 0x11 1)], ∃ w ∈ [(c.u 0x12 1)], ∃ off ∈ [(c.u 0x14 4)], s.hasFolio ring 0x0302 b ∧ s.store.mem.wf = true ∧ ((decide (i < 2) && decide (j < if i = 0 then 64 else 8)) = true) ∧ w < 8 ∧ off % 256 = 0 ∧ (decide (i = 1) || mayRead c e j) = true ∧ s.winOk w c.colour = true ∧ s.winSpan w off 256 true = true) ∧
    (∃ s ∈ [(win (fol 0 0x0405 [(0x10,1,0),(0x11,1,3),(0x12,1,0),(0x14,4,256)] readers) : State)], ∃ dt ∈ [(5 : Nat)], ∃ ring ∈ [(0 : Nat)], ∃ b ∈ [(bg s ring : Begun)], ∃ c ∈ [(s.fctx ring b)], ∃ e ∈ [(s.elapse dt)], ∃ i ∈ [(c.u 0x10 1)], ∃ j ∈ [(c.u 0x11 1)], ∃ w ∈ [(c.u 0x12 1)], ∃ off ∈ [(c.u 0x14 4)], s.hasFolio ring 0x0405 b ∧ s.store.mem.wf = true ∧ ((decide (i < 2) && (if i = 0 then codeOk j else decide (j < 16))) = true) ∧ w < 8 ∧ off % 256 = 0 ∧ ((if i = 0 then e.layerReader c (layerIndex j) else e.headReader c j) = true) ∧ s.winOk w c.colour = true ∧ s.winSpan w off 256 true = true) ∧
    (∃ s ∈ [(win (fol 0 0x0611 [(0x10,1,0),(0x11,1,3),(0x12,1,0),(0x14,4,256)] readers) : State)], ∃ ring ∈ [(0 : Nat)], ∃ b ∈ [(bg s ring : Begun)], ∃ c ∈ [(s.fctx ring b)], ∃ j ∈ [(c.u 0x11 1)], ∃ w ∈ [(c.u 0x12 1)], ∃ off ∈ [(c.u 0x14 4)], s.hasFolio ring 0x0611 b ∧ s.store.mem.wf = true ∧ (decide (j < 16)) = true ∧ w < 8 ∧ off % 256 = 0 ∧ true = true ∧ s.winOk w c.colour = true ∧ s.winSpan w off 256 true = true) ∧
    (∃ s ∈ [(win (fol 0 0x0703 [(0x10,1,3),(0x11,1,0),(0x12,1,0),(0x14,4,256)] readers) : State)], ∃ dt ∈ [(5 : Nat)], ∃ ring ∈ [(0 : Nat)], ∃ b ∈ [(bg s ring : Begun)], ∃ c ∈ [(s.fctx ring b)], ∃ e ∈ [(s.elapse dt)], ∃ i ∈ [(c.u 0x10 1)], ∃ w ∈ [(c.u 0x12 1)], ∃ off ∈ [(c.u 0x14 4)], s.hasFolio ring 0x0703 b ∧ s.store.mem.wf = true ∧ (decide (i < 16)) = true ∧ w < 8 ∧ off % 256 = 0 ∧ (e.headReader c i) = true ∧ s.winOk w c.colour = true ∧ s.winSpan w off 256 true = true) ∧
    (∃ s ∈ [(win (fol 0 0x0711 [(0x10,1,3),(0x11,1,0),(0x12,1,0),(0x14,4,256)] readers) : State)], ∃ ring ∈ [(0 : Nat)], ∃ b ∈ [(bg s ring : Begun)], ∃ c ∈ [(s.fctx ring b)], ∃ i ∈ [(c.u 0x10 1)], ∃ w ∈ [(c.u 0x12 1)], ∃ off ∈ [(c.u 0x14 4)], s.hasFolio ring 0x0711 b ∧ s.store.mem.wf = true ∧ (decide (i < 8)) = true ∧ w < 8 ∧ off % 256 = 0 ∧ ((match (s.dpPort i).owner with | some o => decide (o = c.colour) | none => decide (c.colour = s.admin)) = true) ∧ s.winOk w c.colour = true ∧ s.winSpan w off 1280 true = true) ∧
    (∃ s ∈ [(win (fol 0 0x0805 [(0x10,1,3),(0x11,1,0),(0x12,1,0),(0x14,4,256)] readers) : State)], ∃ ring ∈ [(0 : Nat)], ∃ b ∈ [(bg s ring : Begun)], ∃ c ∈ [(s.fctx ring b)], ∃ i ∈ [(c.u 0x10 1)], ∃ w ∈ [(c.u 0x12 1)], ∃ off ∈ [(c.u 0x14 4)], s.hasFolio ring 0x0805 b ∧ s.store.mem.wf = true ∧ (decide (i < 16)) = true ∧ w < 8 ∧ off % 256 = 0 ∧ true = true ∧ s.winOk w c.colour = true ∧ s.winSpan w off 256 true = true) ∧
    (∃ s ∈ [(win (fol 0 0x0A01 [(0x10,1,0),(0x11,1,0),(0x12,1,0),(0x14,4,256)] readers) : State)], ∃ ring ∈ [(0 : Nat)], ∃ b ∈ [(bg s ring : Begun)], ∃ c ∈ [(s.fctx ring b)], ∃ w ∈ [(c.u 0x12 1)], ∃ off ∈ [(c.u 0x14 4)], s.hasFolio ring 0x0A01 b ∧ s.store.mem.wf = true ∧ true = true ∧ w < 8 ∧ off % 256 = 0 ∧ true = true ∧ s.winOk w c.colour = true ∧ s.winSpan w off 256 true = true) ∧
    (∃ s ∈ [(win (fol 0 0x0A01 [(0x10,1,0),(0x11,1,0),(0x12,1,1),(0x14,4,0)] readers) : State)], ∃ ring ∈ [(0 : Nat)], ∃ b ∈ [(bg s ring : Begun)], ∃ c ∈ [(s.fctx ring b)], ∃ w ∈ [(c.u 0x12 1)], ∃ off ∈ [(c.u 0x14 4)], s.hasFolio ring 0x0A01 b ∧ s.store.mem.wf = true ∧ true = true ∧ w < 8 ∧ off % 256 = 0 ∧ (true = false ∨ s.winOk w c.colour = false ∨ s.winSpan w off 256 true = false)) ∧
    (∃ s ∈ [(win (fol 0 0x0A01 [(0x10,1,0),(0x11,1,0),(0x12,1,0),(0x14,4,1)] readers) : State)], ∃ ring ∈ [(0 : Nat)], ∃ b ∈ [(bg s ring : Begun)], ∃ c ∈ [(s.fctx ring b)], ∃ w ∈ [(c.u 0x12 1)], ∃ off ∈ [(c.u 0x14 4)], s.hasFolio ring 0x0A01 b ∧ s.store.mem.wf = true ∧ (true = false ∨ 8 ≤ w ∨ off % 256 ≠ 0)) ∧
    (∃ s ∈ [(win (fol 0 0x0C11 [(0x10,1,0),(0x11,1,0),(0x12,1,0),(0x14,4,256)] readers) : State)], ∃ ring ∈ [(0 : Nat)], ∃ b ∈ [(bg s ring : Begun)], ∃ c ∈ [(s.fctx ring b)], ∃ w ∈ [(c.u 0x12 1)], ∃ off ∈ [(c.u 0x14 4)], s.hasFolio ring 0x0C11 b ∧ s.store.mem.wf = true ∧ true = true ∧ w < 8 ∧ off % 256 = 0 ∧ true = true ∧ s.winOk w c.colour = true ∧ s.winSpan w off 256 true = true) ∧
    (∃ s ∈ [(win (fol 0 0x0C22 [(0x10,1,0),(0x11,1,0),(0x12,1,0),(0x14,4,256)] readers) : State)], ∃ ring ∈ [(0 : Nat)], ∃ b ∈ [(bg s ring : Begun)], ∃ c ∈ [(s.fctx ring b)], ∃ w ∈ [(c.u 0x12 1)], ∃ off ∈ [(c.u 0x14 4)], s.hasFolio ring 0x0C22 b ∧ s.store.mem.wf = true ∧ true = true ∧ w < 8 ∧ off % 256 = 0 ∧ true = true ∧ s.winOk w c.colour = true ∧ s.winSpan w off 256 true = true) ∧
    (∃ s ∈ [(win (fol 0 0x0D02 [(0x10,1,0),(0x11,1,3),(0x12,1,0),(0x14,4,256)] readers) : State)], ∃ ring ∈ [(0 : Nat)], ∃ b ∈ [(bg s ring : Begun)], ∃ c ∈ [(s.fctx ring b)], ∃ j ∈ [(c.u 0x11 1)], ∃ p ∈ [(s.panel j)], ∃ w ∈ [(c.u 0x12 1)], ∃ off ∈ [(c.u 0x14 4)], s.hasFolio ring 0x0D02 b ∧ s.store.mem.wf = true ∧ (decide (j < 4)) = true ∧ w < 8 ∧ off % 256 = 0 ∧ (decide (p.owner = none) || decide (p.owner = some c.colour)) = true ∧ s.winOk w c.colour = true ∧ s.winSpan w off 256 true = true) ∧
    (∃ s ∈ [(win (fol 0 0x0D11 [(0x10,1,0),(0x11,1,0),(0x12,1,0),(0x14,4,256)] readers) : State)], ∃ ring ∈ [(0 : Nat)], ∃ b ∈ [(bg s ring : Begun)], ∃ c ∈ [(s.fctx ring b)], ∃ w ∈ [(c.u 0x12 1)], ∃ off ∈ [(c.u 0x14 4)], s.hasFolio ring 0x0D11 b ∧ s.store.mem.wf = true ∧ true = true ∧ w < 8 ∧ off % 256 = 0 ∧ true = true ∧ s.winOk w c.colour = true ∧ s.winSpan w off 256 true = true) ∧
    (∃ s ∈ [(win (fol 0 0x0E02 [(0x10,1,0),(0x11,1,0),(0x12,1,0),(0x14,4,256)] readers) : State)], ∃ ring ∈ [(0 : Nat)], ∃ b ∈ [(bg s ring : Begun)], ∃ c ∈ [(s.fctx ring b)], ∃ w ∈ [(c.u 0x12 1)], ∃ off ∈ [(c.u 0x14 4)], s.hasFolio ring 0x0E02 b ∧ s.store.mem.wf = true ∧ true = true ∧ w < 8 ∧ off % 256 = 0 ∧ true = true ∧ s.winOk w c.colour = true ∧ s.winSpan w off 256 true = true) ∧
    (∃ s ∈ [(win (fol 0 0x0E03 [(0x10,1,0),(0x11,1,3),(0x12,1,0),(0x14,4,256)] readers) : State)], ∃ ring ∈ [(0 : Nat)], ∃ b ∈ [(bg s ring : Begun)], ∃ c ∈ [(s.fctx ring b)], ∃ j ∈ [(c.u 0x11 1)], ∃ w ∈ [(c.u 0x12 1)], ∃ off ∈ [(c.u 0x14 4)], s.hasFolio ring 0x0E03 b ∧ s.store.mem.wf = true ∧ (decide (j < 43)) = true ∧ w < 8 ∧ off % 256 = 0 ∧ true = true ∧ s.winOk w c.colour = true ∧ s.winSpan w off 256 true = true) ∧
    (∃ s ∈ [(win (fol 0 0x0F01 [(0x10,1,0),(0x11,1,3),(0x12,1,0),(0x14,4,256)] readers) : State)], ∃ ring ∈ [(0 : Nat)], ∃ b ∈ [(bg s ring : Begun)], ∃ c ∈ [(s.fctx ring b)], ∃ j ∈ [(c.u 0x11 1)], ∃ w ∈ [(c.u 0x12 1)], ∃ off ∈ [(c.u 0x14 4)], s.hasFolio ring 0x0F01 b ∧ s.store.mem.wf = true ∧ (decide (j < 13)) = true ∧ w < 8 ∧ off % 256 = 0 ∧ true = true ∧ s.winOk w c.colour = true ∧ s.winSpan w off 256 true = true) ∧
    (∃ s ∈ [(win (fol 0 0x1036 [(0x10,1,0),(0x11,1,0),(0x12,1,0),(0x14,4,256)] readers) : State)], ∃ ring ∈ [(0 : Nat)], ∃ b ∈ [(bg s ring : Begun)], ∃ c ∈ [(s.fctx ring b)], ∃ w ∈ [(c.u 0x12 1)], ∃ off ∈ [(c.u 0x14 4)], s.hasFolio ring 0x1036 b ∧ s.store.mem.wf = true ∧ true = true ∧ w < 8 ∧ off % 256 = 0 ∧ true = true ∧ s.winOk w c.colour = true ∧ s.winSpan w off 256 true = true) := by
  iterate 21 refine ⟨by decide +kernel, ?_⟩
  decide +kernel

theorem test_witness_WatchesAreSetAndEnded :
    (∃ s ∈ [(fol 0 0x0A02 [(0x10,1,0),(0x11,1,31)] W : State)], ∃ ring ∈ [(0 : Nat)], ∃ b ∈ [(bg s ring : Begun)], ∃ c ∈ [(s.fctx ring b)], ∃ n ∈ [(c.u 0x10 1)], ∃ mask ∈ [(c.u 0x11 1)], s.hasFolio ring 0x0A02 b ∧ n < 32 ∧ mask < 32 ∧ evOk c s n = true) ∧
    (∃ s ∈ [(fol 0 0x0A02 [(0x10,1,3),(0x11,1,0)] W : State)], ∃ ring ∈ [(0 : Nat)], ∃ b ∈ [(bg s ring : Begun)], ∃ c ∈ [(s.fctx ring b)], ∃ n ∈ [(c.u 0x10 1)], ∃ mask ∈ [(c.u 0x11 1)], s.hasFolio ring 0x0A02 b ∧ n < 32 ∧ mask < 32 ∧ evOk c s n = false) ∧
    (∃ s ∈ [(fol 0 0x0A02 [(0x10,1,32),(0x11,1,0)] W : State)], ∃ ring ∈ [(0 : Nat)], ∃ b ∈ [(bg s ring : Begun)], ∃ c ∈ [(s.fctx ring b)], ∃ n ∈ [(c.u 0x10 1)], ∃ mask ∈ [(c.u 0x11 1)], s.hasFolio ring 0x0A02 b ∧ (32 ≤ n ∨ 32 ≤ mask)) ∧
    (∃ s ∈ [(fol 0 0x0C12 [(0x10,1,0),(0x11,1,3)] W : State)], ∃ ring ∈ [(0 : Nat)], ∃ b ∈ [(bg s ring : Begun)], ∃ c ∈ [(s.fctx ring b)], ∃ n ∈ [(c.u 0x10 1)], ∃ mask ∈ [(c.u 0x11 1)], s.hasFolio ring 0x0C12 b ∧ n < 32 ∧ mask < 4 ∧ evOk c s n = true) ∧
    (∃ s ∈ [(fol 0 0x0E04 [(0x10,1,0),(0x11,1,7)] W : State)], ∃ ring ∈ [(0 : Nat)], ∃ b ∈ [(bg s ring : Begun)], ∃ c ∈ [(s.fctx ring b)], ∃ n ∈ [(c.u 0x10 1)], ∃ mask ∈ [(c.u 0x11 1)], s.hasFolio ring 0x0E04 b ∧ n < 32 ∧ mask < 8 ∧ evOk c s n = true) ∧
    (∃ s ∈ [(fol 0 0x0F02 [(0x10,1,0),(0x11,1,7)] W : State)], ∃ ring ∈ [(0 : Nat)], ∃ b ∈ [(bg s ring : Begun)], ∃ c ∈ [(s.fctx ring b)], ∃ n ∈ [(c.u 0x10 1)], ∃ mask ∈ [(c.u 0x11 1)], s.hasFolio ring 0x0F02 b ∧ n < 32 ∧ mask < 8 ∧ evOk c s n = true) ∧
    (∃ s ∈ [(fol 0 0x0B07 [(0x10,1,31),(0x11,1,4)] W : State)], ∃ ring ∈ [(0 : Nat)], ∃ b ∈ [(bg s ring : Begun)], s.hasFolio ring 0x0B07 b ∧ ∃ c ∈ [(s.fctx ring b)], ∃ n ∈ [(c.u 0x10 1)], ∃ m ∈ [(c.u 0x11 1)], (32 ≤ n ∨ 4 ≤ m)) ∧
    (∃ s ∈ [(fol 0 0x0B07 [(0x10,1,31),(0x11,1,3)] W : State)], ∃ ring ∈ [(0 : Nat)], ∃ b ∈ [(bg s ring : Begun)], s.hasFolio ring 0x0B07 b ∧ ∃ c ∈ [(s.fctx ring b)], ∃ n ∈ [(c.u 0x10 1)], ∃ m ∈ [(c.u 0x11 1)], n < 32 ∧ m < 4 ∧ evOk c s n = false) ∧
    (∃ s ∈ [(fol 0 0x0B07 [(0x10,1,0),(0x11,1,3)] W : State)], ∃ ring ∈ [(0 : Nat)], ∃ b ∈ [(bg s ring : Begun)], s.hasFolio ring 0x0B07 b ∧ ∃ c ∈ [(s.fctx ring b)], ∃ n ∈ [(c.u 0x10 1)], ∃ m ∈ [(c.u 0x11 1)], n < 32 ∧ m < 4 ∧ evOk c s n = true) ∧
    (∃ s ∈ [(fol 0 0x0C02 [(0x10,1,16),(0x11,1,0)] W : State)], ∃ ring ∈ [(0 : Nat)], ∃ b ∈ [(bg s ring : Begun)], s.hasFolio ring 0x0C02 b ∧ ∃ c ∈ [(s.fctx ring b)], ∃ m ∈ [(c.u 0x10 1)], ∃ n ∈ [(c.u 0x11 1)], (m < 8 ∨ 16 ≤ m ∨ (32 ≤ n ∧ n ≠ 0xFF))) ∧
    (∃ s ∈ [(fol 0 0x0C02 [(0x10,1,15),(0x11,1,31)] W : State)], ∃ ring ∈ [(0 : Nat)], ∃ b ∈ [(bg s ring : Begun)], s.hasFolio ring 0x0C02 b ∧ ∃ c ∈ [(s.fctx ring b)], ∃ m ∈ [(c.u 0x10 1)], ∃ n ∈ [(c.u 0x11 1)], 8 ≤ m ∧ m < 16 ∧ m - 4 < s.mail.far.length ∧ n < 32 ∧ evOk c s n = false) ∧
    (∃ s ∈ [(fol 0 0x0C02 [(0x10,1,8),(0x11,1,0xFF)] W : State)], ∃ ring ∈ [(0 : Nat)], ∃ b ∈ [(bg s ring : Begun)], s.hasFolio ring 0x0C02 b ∧ ∃ c ∈ [(s.fctx ring b)], ∃ m ∈ [(c.u 0x10 1)], ∃ n ∈ [(c.u 0x11 1)], 8 ≤ m ∧ m < 16 ∧ m - 4 < s.mail.far.length ∧ (n = 0xFF ∨ (n < 32 ∧ evOk c s n = true)) ∧ m - 8 = s.top.gatherId.toNat) ∧
    (∃ s ∈ [(fol 0 0x0C02 [(0x10,1,15),(0x11,1,0)] W : State)], ∃ ring ∈ [(0 : Nat)], ∃ b ∈ [(bg s ring : Begun)], s.hasFolio ring 0x0C02 b ∧ ∃ c ∈ [(s.fctx ring b)], ∃ m ∈ [(c.u 0x10 1)], ∃ n ∈ [(c.u 0x11 1)], 8 ≤ m ∧ m < 16 ∧ m - 4 < s.mail.far.length ∧ (n = 0xFF ∨ (n < 32 ∧ evOk c s n = true)) ∧ m - 8 ≠ s.top.gatherId.toNat) := by
  iterate 12 refine ⟨by decide +kernel, ?_⟩
  decide +kernel

theorem test_witness_FreshnessAndJournalCommandsComplete :
    (∃ s ∈ [(fol 0 0x0210 [(0x10,1,63),(0x11,1,1),(0x14,4,20000),(0x18,4,10000)] (W.modCtx 63 fun x => { x with opened := true, owner := 1 }) : State)], ∃ ring ∈ [(0 : Nat)], ∃ b ∈ [(bg s ring : Begun)], s.hasFolio ring 0x0210 b ∧ ∃ c ∈ [(s.fctx ring b)], ∃ i ∈ [(c.u 0x10 1)], i < 64 ∧ i < s.dec.ctx.length ∧ c.u 0x11 1 < 2 ∧ c.u 0x12 2 = 0 ∧ c.u 0x14 4 ≤ 20000 ∧ 10000 ≤ c.u 0x18 4 ∧ c.u 0x18 4 ≤ 600000 ∧ (s.ctx i).opened = true ∧ (s.ctx i).owner = c.colour) ∧
    (∃ s ∈ [(fol 0 0x0211 [(0x10,1,7),(0x12,2,0x5F),(0x14,4,1000),(0x20,1,255),(0x21,1,4),(0x2C,4,1000)] (W.modLayer 7 fun x => { x with st := .idle, owner := 1 }) : State)], ∃ ring ∈ [(0 : Nat)], ∃ b ∈ [(bg s ring : Begun)], s.hasFolio ring 0x0211 b ∧ ∃ c ∈ [(s.fctx ring b)], ∃ i ∈ [(c.u 0x10 1)], ∃ f ∈ [(freshCfgOf c)], ∃ old ∈ [((s.view none).layer i)], (s.cmdQ ring).groupOpen = none ∧ freshRanges c f = true ∧ f.freezeN = 0 ∧ i < s.comp.layer.length ∧ old.st ≠ .free ∧ old.st ≠ .held ∧ old.owner = c.colour ∧ s.layerReserved i none = false ∧ s.touched old i none = []) ∧
    (∃ s ∈ [(fol 0 0x0130 [(0x10,1,15),(0x14,4,1),(0x18,4,60)] (W.modHead 15 fun x => { x with owner := some 1 }) : State)], ∃ ring ∈ [(0 : Nat)], ∃ b ∈ [(bg s ring : Begun)], s.hasFolio ring 0x0130 b ∧ ∃ c ∈ [(s.fctx ring b)], ∃ h ∈ [(c.u 0x10 1)], h < 16 ∧ h < s.comp.head.length ∧ c.u 0x11 1 < 3 ∧ c.u 0x12 2 = 0 ∧ c.u 0x1C 4 = 0 ∧ 0 < c.u 0x18 4 ∧ c.u 0x20 8 * c.u 0x18 4 < c.u 0x14 4 * 1000000000 ∧ (s.head h).st = .off ∧ (s.head h).owner = some c.colour ∧ (s.head h).stopped = false ∧ (c.u 0x11 1 ≠ 0 ∨ (s.head h).plan.st = .off)) ∧
    (∃ s ∈ [(fol 0 0x0212 [(0x10,1,4),(0x12,2,600),(0x20,4,4)] (W.modHead 4 fun x => { x with owner := some 1 }) : State)], ∃ ring ∈ [(0 : Nat)], ∃ b ∈ [(bg s ring : Begun)], s.hasFolio ring 0x0212 b ∧ ∃ c ∈ [(s.fctx ring b)], ∃ h ∈ [(c.u 0x10 1)], ∃ size ∈ [(recordBlocks (s.head h).timing.leaves)], h < 16 ∧ h < s.comp.head.length ∧ c.u 0x1A 1 < 32 ∧ c.u 0x1B 1 < 8 ∧ c.u 0x11 1 < 4 ∧ c.u 0x11 1 % 2 = 0 ∧ 60 ≤ c.u 0x12 2 ∧ c.u 0x12 2 ≤ 600 ∧ (∀ a ∈ anchorsOf c, a < 64) ∧ c.u 0x18 2 ≤ 1000 ∧ c.u 0x1C 4 % 256 = 0 ∧ c.u 0x20 4 % size = 0 ∧ 2 * size ≤ c.u 0x20 4 ∧ (s.head h).owner = some c.colour ∧ evOk c s (c.u 0x1A 1) = true ∧ (s.head h).stopped = false) ∧
    (∃ s ∈ [(W.modHead 3 fun x => { x with st := .running, genlock := { x.genlock with mode := 1, num := 1, den := 60 }, freshRing := some 0 } : State)], ∃ h ∈ [(3 : Nat)], h < s.comp.head.length ∧ (s.head h).genlock.mode ≠ 0 ∧ (s.head h).st = .running ∧ (s.head h).isolated = false) ∧
    (∃ s ∈ [(W.modHead 4 fun x => { x with plan := { x.plan with st := .learning } } : State)], ∃ h ∈ [(4 : Nat)], h < s.comp.head.length ∧ (s.head h).plan.st = .learning ∧ (s.head h).plan.learned = true) ∧
    (∃ s ∈ [(fol 0 0x1030 [(0x10,1,1),(0x11,1,3),(0x14,4,12288),(0x18,2,600)] W : State)], ∃ ring ∈ [(0 : Nat)], ∃ b ∈ [(bg s ring : Begun)], s.hasFolio ring 0x1030 b ∧ ∃ c ∈ [(s.fctx ring b)], ∃ u ∈ [(c.u)], u 0x10 1 = 1 ∧ u 0x11 1 ≤ 3 ∧ 1 ≤ u 0x11 1 ∧ u 0x13 1 < 32 ∧ 256 ≤ u 0x14 4 ∧ u 0x14 4 ≤ 12288 ∧ u 0x14 4 % 64 = 0 ∧ 10 ≤ u 0x18 2 ∧ u 0x18 2 ≤ 600 ∧ c.colour = s.admin ∧ evOk c s (u 0x13 1) = true ∧ s.jrn.st = .off ∧ s.jrn.region = false ∧ (s.findRegion (u 0x14 4 * 2 ^ 20)).isSome = true ∧ s.freeEntry.isSome = true) ∧
    (∃ s ∈ [({ W with jrn := { W.jrn with st := .recording, size := 256 } } : State)], ∃ dt ∈ [(5 : Nat)], ∃ kind ∈ [(11 : Nat)], ∃ payload ∈ [([1,2] : List Byte)], kind < 12 ∧ kind ≠ 8 ∧ s.jrn.st = .recording ∧ (s.island islSvc).isolated = false ∧ (s.jrn.staging.length + ((entryParts kind (3 : BitVec 32) (s.elapse dt).tb.dev (journalled kind payload)).map fun e => e.payload.length + 16).sum ≤ stagingBytes)) ∧
    (∃ s ∈ [({ W with jrn := { W.jrn with st := .recording, snapDue := true, size := 256 } } : State)], ∃ dt ∈ [(5 : Nat)], ∃ image ∈ [([1,2] : List Byte)], s.jrn.st = .recording ∧ s.jrn.snapDue = true ∧ (s.island islSvc).isolated = false ∧ (s.jrn.staging.length + ((entryParts 12 0 (s.elapse dt).tb.dev image).map fun e => e.payload.length + 16).sum ≤ stagingBytes)) ∧
    (∃ s ∈ [({ W with jrn := { W.jrn with st := .recording, level := 0, size := 256, staging := List.replicate 65536 1 } } : State)], ∃ code ∈ [([] : List Byte)], s.jrn.st = .recording ∧ 65536 ≤ s.jrn.staging.length ∧ (s.zeEngine 0).disabled = false ∧ (s.island islSvc).isolated = false ∧ (chunkCoded s.jrn.level (s.jrn.staging.take 65536) code).isSome = true) ∧
    (∃ s ∈ [({ W with jrn := { W.jrn with st := .gap } } : State)], s.jrn.st = .gap ∧ s.jrn.staging.length < stagingBytes / 2) ∧
    (∃ s ∈ [(fol 0 0x1031 [] { W with jrn := { W.jrn with st := .recording, size := 256 } } : State)], ∃ ring ∈ [(0 : Nat)], ∃ b ∈ [(bg s ring : Begun)], s.hasFolio ring 0x1031 b ∧ ∃ c ∈ [(s.fctx ring b)], ∃ start ∈ [(c.u 0x18 8)], c.colour = s.admin ∧ s.jrn.st ≠ .off ∧ start = 0) ∧
    (∃ s ∈ [(fol 0 0x1031 [(0x18,8,5)] { W with jrn := { W.jrn with st := .recording, size := 256, chunks := [{ JChunk.reset with snapTime := some 5 }] } } : State)], ∃ ring ∈ [(0 : Nat)], ∃ b ∈ [(bg s ring : Begun)], s.hasFolio ring 0x1031 b ∧ ∃ c ∈ [(s.fctx ring b)], ∃ start ∈ [(c.u 0x18 8)], c.colour = s.admin ∧ s.jrn.st ≠ .off ∧ ∃ k ∈ [({ JChunk.reset with snapTime := some 5 })], start ≠ 0 ∧ s.jrn.snapAtOrBefore start = some k ∧ (chunkSum (s.jrn.chunks.filter fun x => k.number ≤ x.number) ≤ s.jrn.area / 2)) ∧
    (∃ s ∈ [(win (fol 0 0x1032 [(0x28,1,1),(0x2C,4,0x1000),(0x20,8,9),(0x14,4,0x10000)] { W with jrn := { W.jrn with st := .recording, size := 256, chunks := [{ JChunk.reset with snapTime := some 0, length := 8, bytes := [1,2,3,4,5,6,7,8] }] } }) : State)], ∃ ring ∈ [(0 : Nat)], ∃ b ∈ [(bg s ring : Begun)], s.hasFolio ring 0x1032 b ∧ ∃ c ∈ [(s.fctx ring b)], ∃ u ∈ [(c.u)], ∃ w ∈ [(u 0x10 1)], ∃ off ∈ [(u 0x14 4)], ∃ size ∈ [((s.window w).size.toNat)], w < 8 ∧ u 0x28 1 = 1 ∧ u 0x30 8 = 0 ∧ c.colour = s.admin ∧ s.winOk w c.colour = true ∧ s.winSpan w (u 0x2C 4) (97 + 96 + 4627) false = true ∧ s.winDamaged w (u 0x2C 4) (97 + 96 + 4627) = false ∧ s.sec.entropyBad = false ∧ ∃ k ∈ [({ JChunk.reset with snapTime := some 0, length := 8, bytes := [1,2,3,4,5,6,7,8] })], s.jrn.snapAtOrBefore (u 0x18 8) = some k ∧ ∃ l ∈ [(fitChunks (size - off - partFixed) (s.jrn.chunks.reverse.filter fun (x : JChunk) => decide (k.number ≤ x.number) && decide (x.first ≤ u 0x20 8)))], l ≠ [] ∧ partFixed ≤ size - off ∧ (s.winSpan w off (partFixed + (l.map fun (x : JChunk) => x.length + 48).sum) true = true)) ∧
    (∃ s ∈ [(put 0x50000000 ([0x57,0x50,0x4A,0x58,1,0,0xB0,0] ++ List.replicate 48 0 ++ [1]) { win (fol 0 0x1033 [(0x18,4,0x10000)] W) with jrn := { W.jrn with region := true, size := 256 }, sec := { (dev W).sec with act := [(0, grant)], provKey := W.sec.provKey.set 1 (some [5]) } } : State)], ∃ ring ∈ [(0 : Nat)], ∃ b ∈ [(bg s ring : Begun)], s.hasFolio ring 0x1033 b ∧ ∃ c ∈ [(s.fctx ring b)], ∃ w ∈ [(c.u 0x10 1)], ∃ off ∈ [(c.u 0x14 4)], ∃ h ∈ [(s.winRead w off 0x200)], ∃ n ∈ [(leNat ((h.drop 0x0C).take 4))], ∃ table ∈ [(s.winRead w (off + 0x200) (32 * n))], ∃ lens ∈ [((List.range n).map fun i => leNat ((table.drop (32 * i + 20)).take 4))], ∃ total ∈ [(0x200 + 32 * n + (lens.map (· + 16)).sum + 96 + 4627)], w < 8 ∧ c.colour = s.admin ∧ s.winOk w c.colour = true ∧ s.winSpan w off total false = true ∧ s.winSpan w (c.u 0x18 4) 4 false = true ∧ s.jrn.st = .off ∧ s.jrn.region = true ∧ leNat ((h.drop 0).take 4) = 0x584A5057 ∧ leNat ((h.drop 4).take 2) = 1 ∧ s.owner.isSome = true ∧ (h.drop 0x38).take 48 = padTo 48 (s.owner.getD []) ∧ leNat ((h.drop 6).take 1) = 0xB0 ∧ leNat ((h.drop 8).take 4) = s.sec.running.release.toNat ∧ (s.sec.provKey.getD c.colour none).isSome = true ∧ s.jrn.imported = false ∧ chunkSum s.jrn.importChunks + lens.sum ≤ s.jrn.area ∧ s.winDamaged w off total = false) := by
  iterate 9 refine ⟨by decide +kernel, ?_⟩
  refine ⟨one (one ⟨by decide +kernel, Nat.le_of_eq List.length_replicate.symm, by decide +kernel, by decide +kernel, rfl⟩), ?_⟩
  iterate 4 refine ⟨by decide +kernel, ?_⟩
  decide +kernel

theorem test_witness_ResetAndReplayCommandsComplete :
    (∃ s ∈ [({ W with pwr := { W.pwr with supplyGood := false } } : State)], s.pwr.supplyGood = false) ∧
    (∃ s ∈ [({ State.reset with pwr := { State.reset.pwr with held := true, supplyGood := true } } : State)], ∃ dt ∈ [(20000000 : Nat)], ∃ fosc ∈ [([390625, 390000, 391000] : List Nat)], ∃ xa ∈ [([8192, 8193, 8196] : List Nat)], ∃ xb ∈ [([0, 8192, 8192, 8192] : List Nat)], s.pwr.held = true ∧ s.pwr.supplyGood = true ∧ s.pwr.tripped = false ∧ foscJudge fosc = true ∧ (crystalJudge xa = true ∨ crystalJudge xb = true) ∧ s.pwr.judgedAt = none ∧ s.pwr.startAt + crystalDelay s.pwr.delay.toNat ≤ (s.elapse dt).tb.now) ∧
    (∃ s ∈ [({ State.reset with pwr := { State.reset.pwr with held := true, supplyGood := true, judgedAt := some 0 } } : State)], ∃ dt ∈ [(100000000 : Nat)], ∃ fosc ∈ [([390625, 390000, 391000] : List Nat)], ∃ xa ∈ [([] : List Nat)], ∃ xb ∈ [([0, 8192, 8192, 8192] : List Nat)], s.pwr.held = true ∧ s.pwr.supplyGood = true ∧ s.pwr.tripped = false ∧ foscJudge fosc = true ∧ (crystalJudge xa = true ∨ crystalJudge xb = true) ∧ ∃ t₀ ∈ [(0)], s.pwr.judgedAt = some t₀ ∧ t₀ + 100000000 ≤ (s.elapse dt).tb.now) ∧
    (∃ s ∈ [({ State.reset with pwr := { State.reset.pwr with held := false, bootHold := true }, top := { State.reset.top with wiping := true }, sec := { State.reset.sec with selector := some false } } : State)], s.pwr.held = false ∧ s.pwr.booted = false ∧ s.sec.bootStatus = 0 ∧ s.pwr.bootHold = true) ∧
    (∃ s ∈ [({ State.reset with pwr := { State.reset.pwr with held := false }, top := { State.reset.top with wiping := true }, sec := { State.reset.sec with selector := some false, fuses := { State.reset.sec.fuses with imageKeyOk := true } } } : State)], ∃ boot ∈ [({ (default : BootIn) with slotA := { (default : ImageIn) with header := [0x53,0x4B,0x46,0x57,1,0] ++ List.replicate 18 0 ++ [1], zerosOk := true, sigsOk := true, digestOk := true, gcmOk := true } } : BootIn)], s.pwr.held = false ∧ s.pwr.booted = false ∧ s.sec.bootStatus = 0 ∧ s.pwr.bootHold = false ∧ s.top.wiping = true ∧ s.sec.slotA = none ∧ s.sec.slotB = none ∧ s.sec.selector = some false ∧ s.imageOk (Image.ofIn boot.slotA) = true) ∧
    (∃ s ∈ [({ State.reset with pwr := { State.reset.pwr with held := false, trainedOk := true }, top := { State.reset.top with wiping := true } } : State)], s.pwr.held = false ∧ s.top.wiping = true ∧ s.pwr.trainedOk = true) ∧
    (∃ s ∈ [(W : State)], s.host.perst = false) ∧
    (∃ s ∈ [({ W with host := { W.host with perst := true } } : State)], s.host.perst = true) ∧
    (∃ s ∈ [(W : State)], s.boxUp 0 = true) ∧
    (∃ s ∈ [({ win (fol 0 0x1034 [] W) with jrn := { W.jrn with imported := true, importChunks := [{ JChunk.reset with snapTime := some 0, staged := [12] ++ List.replicate 15 0, crc := crc32c ([12] ++ List.replicate 15 0) }] } } : State)], ∃ ring ∈ [(0 : Nat)], ∃ b ∈ [(bg s ring : Begun)], s.hasFolio ring 0x1034 b ∧ ∃ c ∈ [(s.fctx ring b)], ∃ u ∈ [(c.u)], u 0x10 1 < 8 ∧ u 0x11 1 < 2 ∧ u 0x14 4 % 256 = 0 ∧ c.colour = s.admin ∧ s.winOk (u 0x10 1) c.colour = true ∧ s.winSpan (u 0x10 1) (u 0x14 4) (256 * u 0x20 4) true = true ∧ (∀ x ∈ s.dec.ctx, x.opened = false) ∧ (∀ h ∈ s.comp.head, h.st = HeadSt.off) ∧ (∀ y ∈ s.enc.session, y.st = .closed) ∧ s.jrn.st = .off ∧ s.jrn.imported = true ∧ s.role = 0 ∧ fromSnapshot (u 0x18 8) s.jrn.importedEntries ≠ []) ∧
    (∃ s ∈ [(win { W with jrn := { W.jrn with st := .replaying, importEntries := [{ JEntry.reset with kind := 9 }, { JEntry.reset with kind := 8 }], outBlocks := 1 } } : State)], ∃ e ∈ [({ JEntry.reset with kind := 9 } : JEntry)], ∃ rest ∈ [([{ JEntry.reset with kind := 8 }] : List JEntry)], s.jrn.st = .replaying ∧ s.jrn.importEntries = e :: rest ∧ rest ≠ [] ∧ e.kind = 9) ∧
    (∃ s ∈ [(win { W with jrn := { W.jrn with st := .replaying, importEntries := [{ JEntry.reset with kind := 3 }, { JEntry.reset with kind := 8 }], outBlocks := 1 } } : State)], ∃ e ∈ [({ JEntry.reset with kind := 3 } : JEntry)], ∃ rest ∈ [([{ JEntry.reset with kind := 8 }] : List JEntry)], s.jrn.st = .replaying ∧ s.jrn.importEntries = e :: rest ∧ rest ≠ [] ∧ e.kind = 3 ∧ ((s.jrn.replayed.find? fun x => x.1 = e.src.toNat % 256) = none) ∧ s.jrn.outNext < 4 * s.jrn.outBlocks) ∧
    (∃ s ∈ [({ fol 0 0x1035 [] W with top := { W.top with replay := true }, jrn := { W.jrn with st := .replaying } } : State)], ∃ ring ∈ [(0 : Nat)], ∃ b ∈ [(bg s ring : Begun)], s.hasFolio ring 0x1035 b ∧ (s.fctx ring b).colour = s.admin ∧ s.top.replay = true) := by
  iterate 12 refine ⟨by decide +kernel, ?_⟩
  decide +kernel

end Sys2Proof.Tests
end

section
/-!
PROOFS. A parameter byte that no field of the opcode's layout names (R14, R240, R333; log entry 16): where it is not zero the folio ends with
E_PARAM whatever its row would do, because `State.runFolio` looks at the byte before it gives the folio to the row's body.
-/

namespace Sys2Proof.Machine

/-! ### A folio that is ended before its body is asked -/

/-- The command is the row of an opcode for the folio in a place: time passes, then a body is carried out on it. -/
def carriesOutRow (i : Instr) (dt slot op : Nat) : Prop :=
  ∃ body : FCtx → State → FRes, ∀ s, exec i s = .next ((s.elapse dt).runFolio slot op body)

/-- Whatever its body, the row of a folio with an unnamed parameter byte that is not zero completes it with E_PARAM and leaves every part as time
leaves it (R14, R336, R341). -/
theorem completes_param_of_unnamed {i : Instr} {s : State} {dt slot op : Nat} {b : Begun} (hi : carriesOutRow i dt slot op)
    (hb : (s.cmdQ slot).begun = some b) (hw : b.wait = .run) (ho : b.folio.opcode = op) (hr : b.folio.reservedOk = false) :
    completes i s dt slot b .param 0 [] fun _ => True := by
  obtain ⟨body, hx⟩ := hi
  have hb' : ((s.elapse dt).cmdQ slot).begun = some b := hb
  have hrow : exec i s = .next (((s.elapse dt).finish slot .param 0 id).causedBy (s.elapse dt) b.folio.tag) := by
    rw [hx, runFolio_unnamed hb' hw ho hr]
  have hbare : (((s.elapse dt).finish slot .param 0 id).causedBy (s.elapse dt) b.folio.tag).bare = (s.elapse dt).bare :=
    (causedBy_bare ..).trans (finish_bare _ _ _ _ _ quiet_id.bare)
  refine ⟨_, hrow, ?ended, ?answered, kept_of_bare hbare (kept_refl _ _), trivial⟩
  case ended => exact causedBy_ended _ _ _ _ (finish_ended _ _ _ _ _ fun t => quiet_id.ends t slot)
  case answered =>
    intro hslot ⟨horigin, hquiet⟩
    exact causedBy_answered _ _ (finish_answers _ _ _ _ _ _ hb' horigin hquiet hslot fun t => quiet_id.keeps t slot)

/-! ### Folios that have no such byte -/

/-- A layout belongs to a defined opcode (R345). -/
theorem layout_opcode_defined : ∀ p ∈ layoutsNet ++ layoutsShow ++ layoutsTrust ++ layoutsDesk, p.1 ∈ definedOps := by decide

/-- An opcode that is not defined has no layout. -/
theorem namedBytes_of_undefined {op : Nat} (h : op ∉ definedOps) (sprop fences : Nat) : namedBytes op sprop fences = none := by
  have hsprop : op ≠ 0x0103 := fun e => h (e ▸ by decide)
  have hcommit : op ≠ 0x0601 := fun e => h (e ▸ by decide)
  rw [namedBytes, if_neg hsprop, if_neg hcommit, List.lookup_eq_none_iff]
  intro p hp
  exact bne_iff_ne.2 fun e => h (e ▸ layout_opcode_defined p hp)

theorem reservedOk_of_undefined {f : Folio} (h : f.opcode ∉ definedOps) : f.reservedOk = true := by
  rw [Folio.reservedOk, namedBytes_of_undefined h]

/-- A LENGTH of 0 leaves no parameter byte to look at. -/
theorem reservedOk_of_len_zero {f : Folio} (h : f.len = 0) : f.reservedOk = true := by
  unfold Folio.reservedOk
  rw [h]
  split
  · rfl
  · rfl

/-- Settles O35: each command of the list carries out the row of its opcode, and such a row never comes to its body. -/
theorem unnamedParameterBytesEndWithParam : Obligations.UnnamedParameterBytesEndWithParam := by
  refine ⟨fun dt ring b s hb hw hr x hx ho => ?_, fun f hf => hf.elim reservedOk_of_len_zero reservedOk_of_undefined⟩
  have hrow : carriesOutRow x.2 dt ring x.1 := by
    clear ho
    revert x
    iterate 20 refine List.forall_mem_cons.2 ⟨⟨_, fun _ => rfl⟩, ?_⟩
    exact List.forall_mem_nil _
  exact completes_param_of_unnamed hrow hb hw ho hr

end Sys2Proof.Machine
end
